-- ==== Sys2Proof/Word.lean ====
section
/-!
DEFINITION. The word types and the sparse table type of the model.
Bits are numbered from 0 at the least significant bit and multi-byte values are little-endian (R8).
-/

namespace Sys2Proof

/-- One byte. -/
abbrev Byte := BitVec 8
/-- A 32-bit word. -/
abbrev W32 := BitVec 32
/-- A 64-bit word. -/
abbrev W64 := BitVec 64
/-- A 6-bit register field of a sequencer instruction (R183). -/
abbrev RField := BitVec 6

/-- A sparse table: pairs of a key and a value, keys strictly rising, no value equal to the
table's default (which is what an absent key reads as).  The operations and the canonical form
stand in `Sys2Proof/Machine/Tbl.lean`. -/
abbrev Tbl (α : Type) := List (Nat × α)

end Sys2Proof
end

