-- ==== Sys2Proof/Syntax.lean ====
section
/-!
DEFINITION. The commands: one constructor of `Instr` for each row of spec/opcode_table.json, with the row's
operands, and the data types those operands take.  No meaning stands here.
-/

namespace Sys2Proof

/-- The fields of a command slot that every host command carries (R401), with the port it came from
(0 is A, 1 is B).  OPCODE and the body are the constructor's. SEQ is the port's NEXT (R402). -/
structure CmdHdr where
  port : Nat
  fence : Bool
  noIrq : Bool
  vec : Nat
  tag : W32
  step : W32
  deriving DecidableEq, Repr, Inhabited

/-- The 56-byte caravan descriptor (R334, Table 11.1), field by field as its bytes hold them;
`rsv` is true when a reserved byte or bit of the descriptor is nonzero. -/
structure CollDesc where
  kind : Nat
  mode : Nat
  flags : Nat
  param : Nat
  caravan : Nat
  src : Nat
  dst : Nat
  group : Nat
  count : Nat
  members : Nat
  root : Nat
  unitLog2 : Nat
  rsv : Bool
  step : Nat
  aux : Nat
  deriving DecidableEq, Repr, Inhabited

/-- A failed built-in self-test, as bring-up step 8 or SCRUB finds it (R87, R169, R170, R173). -/
inductive SelfTest where
  /-- a cell: physical core (0-4,991), row, physical column -/
  | cell (core row col : Nat)
  /-- a cluster store out of spare rows: physical cluster (0-1,247) -/
  | storeRows (cluster : Nat)
  /-- a stream port, permute lane or move engine: physical cluster -/
  | stream (cluster : Nat)
  /-- a cluster router: physical cluster; `adjacent` when failed routers lie adjacent in a mesh row or column -/
  | router (cluster : Nat) (adjacent : Bool)
  /-- a spare cluster itself: physical cluster -/
  | spare (cluster : Nat)
  deriving DecidableEq, Repr

/-- A pilot frame (Table 10.2): its fields, with MAGIC and the CRC as they stand in it; the bits that are zero have no field. -/
structure PilotFrame where
  magic : Byte
  rankValid : Bool
  dataReady : Bool
  draining : Bool
  hold : Bool
  lasersOn : Bool
  rank : Nat
  physPort : Nat
  dir : Nat
  state : Nat
  rxActive : BitVec 20
  move : Option Nat
  moveTo : Nat
  count : Byte
  crc : BitVec 16
  deriving DecidableEq, Repr, Inhabited

/-- What a receiver measures of a lane over an interval (R307): whether it is locked and has light, and of how many symbols how
many were wrong before correction. -/
structure LaneMeasure where
  locked : Bool
  errors : Nat
  symbols : Nat
  deriving DecidableEq, Repr, Inhabited

/-- A packet (R310, Table 10.5): the header's fields and the payload's bytes.  LENGTH is `payload.length`. -/
structure Packet where
  dest : Nat
  src : Nat
  typ : Nat
  epoch : Nat
  cmark : Bool
  layer : Nat
  dateline : Bool
  echo : Bool
  caravan : Nat
  seq : Nat
  ackSeq : Nat
  /-- OPERAND SUB, Table 11.3 -/
  sub : Nat
  /-- OPERAND STAGE, Table 11.3 -/
  stage : Nat
  /-- OPERAND OFFSET; in a FENCED packet the fenced rank -/
  offset : Nat
  /-- OPERAND CHECK (R340) -/
  check : W32
  endUnit : Nat
  payload : List Byte
  /-- units of the payload, counted from OFFSET, whose poison sideband is set on the network-interface path (R95) -/
  poison : List Nat
  /-- the header's CRC field (R311) -/
  crc : W32
  /-- what the layout of Table 11.3 has no room for, beside the packet's bits: the rest of a unit index of more than 24 bits, and
  the unit a PERMUTE moves or asks for (log entry 40) -/
  more : Nat
  deriving DecidableEq, Repr, Inhabited

/-- What the management controller reads in one period (R453): sensors in the order of Table 14.5
(index 0 first), lasers whose monitor reports failure (port, lane), rings out of heater range (port, lane),
whether the cycle-budget of steps 4 to 7 overran, and whether the recalibration's work is complete. -/
structure Readings where
  sensors : List Int
  laserBad : List (Nat × Nat)
  ringsOut : List (Nat × Nat)
  overrun : Bool
  recalDone : Bool
  meanW : Nat
  peakW : Nat
  deriving DecidableEq, Repr, Inhabited

/-- The kinds of port reset (R399). -/
inductive PortResetKind where
  | hotReset
  | flr
  | linkDown
  deriving DecidableEq, Repr

/-- What a bring-up step found (R528, R531): whether its own work succeeded, the units that failed
(step 2: firmware slots that do not complete, 0 A and 1 B, and 2 or 3 when neither copy of the black box's control block
or of its repair map is valid; step 3: PLL pairs with both PLLs failed; step 4: physical
sub-channels that failed training, stack × 32 + sub-channel, and single pins that did, 256 + 12 × that number + pin; step 5: ports that failed the proof; step 7: host ports whose link did not train),
the self-tests that failed (step 8) and the strap levels read at step 3 (NC_A, NC_B tied to ground; SMB_ADDR). -/
structure BringupObs where
  ok : Bool
  failed : List Nat
  tests : List SelfTest
  ncA : Bool
  ncB : Bool
  smbAddr : Nat
  deriving DecidableEq, Repr, Inhabited

/-- The commands of the block: the 302 rows of spec/opcode_table.json. -/
inductive Instr where
  /-- COMMAND_SLOT_WRITE (R402): A write TLP that covers byte 255 of the expected slot makes the command processor compare SEQ with NEXT and accept the command when they match. -/
  | commandSlotWrite (port off : Nat) (bytes : List Byte)
  /-- LOAD_CONFIG (R229): Steward command that queues a bitstream image held in device memory for checking and loading. -/
  | loadConfig (h : CmdHdr) (addr bytes : Nat)
  /-- SWITCH_CONTEXT (R236): Steward command that makes a context of the region's CTX_MASK active on every cell of the region. -/
  | switchContext (h : CmdHdr) (region ctx : Nat)
  /-- RUN_PHASE (R419): With MODE 0, starts one phase of a region, or waits while the region is busy. -/
  | runPhase (h : CmdHdr) (region phase count : Nat)
  /-- RUN_PROGRAM (R419): RUN_PHASE with MODE 1, which starts the region's sequencer program on every core. -/
  | runProgram (h : CmdHdr) (region : Nat)
  /-- ALL_REDUCE (R350): COLLECTIVE of KIND 1, which posts a reducing caravan whose output reaches every member. -/
  | allReduce (h : CmdHdr) (d : CollDesc)
  /-- REDUCE_SCATTER (R350): COLLECTIVE of KIND 2, which posts a reducing caravan that leaves each segment at its owner. -/
  | reduceScatter (h : CmdHdr) (d : CollDesc)
  /-- ALL_GATHER (R359): COLLECTIVE of KIND 3, which posts a caravan that moves each member's sectors to every member. -/
  | allGather (h : CmdHdr) (d : CollDesc)
  /-- MULTICAST (R360): COLLECTIVE of KIND 4, which posts a caravan that sends the root's sectors down the caravan tree. -/
  | multicast (h : CmdHdr) (d : CollDesc)
  /-- TOPK_GATHER (R361): COLLECTIVE of KIND 6, which posts a caravan that merges top-k lists up the tree and returns the result to every member. -/
  | topkGather (h : CmdHdr) (d : CollDesc)
  /-- FENCE_PEER (R327): Steward command that fences a rank, dropping and completing all traffic to and from it. -/
  | fencePeer (h : CmdHdr) (rank : Nat)
  /-- UNFENCE_PEER (R329): Steward command that clears a rank's fence and restarts the pair state from zero. -/
  | unfencePeer (h : CmdHdr) (rank : Nat)
  /-- SET_ROUTES (R553): Steward command that writes the route bank of the next epoch. -/
  | setRoutes (h : CmdHdr) (epoch down detour : Nat)
  /-- SET_ROUTE_EPOCH (R320): Steward command that switches injection to the next epoch and completes when the previous bank retires. -/
  | setRouteEpoch (h : CmdHdr) (epoch : Nat)
  /-- COPY (R418): Command that copies sectors between device and host memory or within device memory, poisoning faulting elements. -/
  | copy (h : CmdHdr) (src dst len dir : Nat)
  /-- CHECKPOINT (R422): Long operation that writes the listed device ranges to host memory as a checkpoint image. -/
  | checkpoint (h : CmdHdr) (listAddr entries hostAddr hostBytes : Nat)
  /-- RESTORE (R422): Long operation that verifies a checkpoint image and writes its ranges back into device memory. -/
  | restore (h : CmdHdr) (hostAddr hostBytes flags : Nat)
  /-- RESHARD (R364): Long operation that runs a PERMUTE caravan to move sharded units along the cycles of a permutation. -/
  | reshard (h : CmdHdr) (d : CollDesc)
  /-- RESHARD_RESUME (R369): RESHARD with RESUME, which reruns the open step of each cycle in progress and continues the re-shard. -/
  | reshardResume (h : CmdHdr) (d : CollDesc)
  /-- RESHARD_ROLLBACK (R369): RESHARD with ROLLBACK, which restores the cycles in progress and undoes the completed cycles. -/
  | reshardRollback (h : CmdHdr) (d : CollDesc)
  /-- SUSPEND (R425): Command that pauses a long operation before its commit point. -/
  | suspend (h : CmdHdr) (handle : Nat)
  /-- RESUME (R425): Command that resumes a suspended long operation. -/
  | resume (h : CmdHdr) (handle : Nat)
  /-- CANCEL (R426): Command that undoes a long operation before its commit point, or reports ST_COMPLETED_BEFORE_CANCEL after it. -/
  | cancel (h : CmdHdr) (handle : Nat)
  /-- QUERY_DEVICE (R416): QUERY with KIND 0, which returns CP_STATUS, CL_STATUS and FB_JOB. -/
  | queryDevice (h : CmdHdr)
  /-- QUERY_LONG_OP (R416): QUERY with KIND 1, which returns the state or the final status of a long operation. -/
  | queryLongOp (h : CmdHdr) (handle : Nat)
  /-- SCRUB (R551): Steward long operation that clears the data plane and all job state for the next job. -/
  | scrub (h : CmdHdr)
  /-- FW_UPDATE (R491): Steward long operation that stages, checks and writes a firmware image into the inactive slot and then selects it. -/
  | fwUpdate (h : CmdHdr) (addr bytes : Nat)
  /-- BB_EXPORT (R522): Long operation that copies the present black-box records to host memory between a header and a trailer. -/
  | bbExport (h : CmdHdr) (hostAddr hostBytes fromSeq : Nat)
  /-- PORT_RELEASE (R330): Steward command that drains and releases a port, or is refused when no detour exists. -/
  | portRelease (h : CmdHdr) (p : Nat)
  /-- PORT_RELEASE_FORCE (R330): PORT_RELEASE with FORCE set, which fences the ranks behind the port and then releases it. -/
  | portReleaseForce (h : CmdHdr) (p : Nat)
  /-- PORT_ADMIT (R300): Steward command that moves a READY port into routing as ACTIVE. -/
  | portAdmit (h : CmdHdr) (p : Nat)
  /-- RESET (R524): Steward command that causes a warm reset 100 µs after its completion is written. -/
  | reset (h : CmdHdr)
  /-- ATTEST (R495): Command that has the security engine sign an attestation report over the nonce and the device state, and writes it to the host. -/
  | attest (h : CmdHdr) (nonce : BitVec 256) (hostAddr hostBytes : Nat)
  /-- DEBUG_UNLOCK (R502): Steward command that raises the debug level after checking a token, presence and scrub, or lowers it without a token. -/
  | debugUnlock (h : CmdHdr) (tokenAddr tokenBytes level : Nat)
  /-- LC_PROVISION (R492): DEBUG_UNLOCK with transition code 0x10, which fuses the move to PROVISIONED. -/
  | lcProvision (h : CmdHdr) (tokenAddr tokenBytes : Nat)
  /-- LC_DEPLOY (R492): DEBUG_UNLOCK with transition code 0x11, which fuses the move to DEPLOYED together with the owner digests. -/
  | lcDeploy (h : CmdHdr) (tokenAddr tokenBytes : Nat)
  /-- LC_RETURN (R492): DEBUG_UNLOCK with transition code 0x12, which fuses the move to RETURNED. -/
  | lcReturn (h : CmdHdr) (tokenAddr tokenBytes : Nat)
  /-- SET_POWER_STATE (R442): Steward command that commands power state P0–P3 and runs the transition of Table 14.3. -/
  | setPowerState (h : CmdHdr) (st cap : Nat)
  /-- STEWARD_CLAIM (R414): Command that claims the steward token, with claims settled at the end of the steward window. -/
  | stewardClaim (h : CmdHdr)
  /-- STEWARD_YIELD (R415): Command from the holder that frees the steward token and posts a STEWARD event. -/
  | stewardYield (h : CmdHdr)
  /-- LONG_OP_START (R428): A QUEUED long operation moves to RUNNING once the resources and exclusions it waits for are free. -/
  | longOpStart (handle : Nat)
  /-- PAUSE_POINT_REACHED (R425): A SUSPENDING long operation reaches its pause point and becomes SUSPENDED. -/
  | pausePointReached (handle : Nat)
  /-- CANCEL_UNDO_DONE (R425): A CANCELLING long operation finishes its undo and completes with ST_CANCELLED. -/
  | cancelUndoDone (handle : Nat)
  /-- LONG_OP_WORK_END (R425): A running long operation finishes its work, reaches DONE and releases its CP_LONGOP entry. -/
  | longOpWorkEnd (handle : Nat) (tests : List SelfTest)
  /-- COMPLETION_RECORD_WRITE (R410): A waiting completion or event is written to the port's completion ring once there is room, and its MSI-X message follows. -/
  | completionRecordWrite (port : Nat)
  /-- CP_CQ_HEAD_WRITE (R410): Host write that advances the consumed count of the completion ring and frees room for waiting records. -/
  | cpCqHeadWrite (port : Nat) (value : W32)
  /-- CQ_ENABLE (R410): Write of CP_CQ_ENTRIES.ENABLE, which turns ring writing on or off and zeroes HEAD and TAIL on a change from 0 to 1. -/
  | cqEnable (port : Nat) (value : W32)
  /-- CP_STEWARD_KEEPALIVE (R415): Write from the holder's port that renews the steward lease. -/
  | cpStewardKeepalive (port : Nat) (value : W32)
  /-- STEWARD_WINDOW (R414): At the end of each 1 ms steward window the logic settles the pending claims, giving port A the token on a tie. -/
  | stewardWindow
  /-- STEWARD_LEASE_EXPIRY (R415): The lease runs out without a keepalive, and the token becomes FREE. -/
  | stewardLeaseExpiry
  /-- REGISTER_WRITE (R9): A host write to a register without a row of its own, applied according to its access code, with the checks of R11, R12 and the steward token. -/
  | registerWrite (port off width : Nat) (value : W64)
  /-- REGISTER_ACCESS_TIMEOUT (R430): A cross-plane register access without a reply after 4 ms returns all ones, or its write is dropped, and it is counted. -/
  | registerAccessTimeout (port : Nat) (tag : W32)
  /-- BAR4_READ (R288): A host read through BAR4 of device memory, completed with EP set for a poisoned element and returning zeros for a reserved address. -/
  | bar4Read (port off len : Nat)
  /-- BAR4_WRITE (R288): A host write through BAR4 of device memory, discarded for the retained region and for reserved addresses. -/
  | bar4Write (port off : Nat) (bytes : List Byte)
  /-- SENSOR_READ (R454): Mailbox request 0x01, which returns the reading of one sensor. -/
  | sensorRead (port : Nat)
  /-- IDENTITY_READ (R494): Mailbox request 0x02, which returns 128 bytes of the identity record. -/
  | identityRead (port : Nat)
  /-- NONCE_DRAW (R500): Steward write of SC_NONCE_CTRL.DRAW, which draws a fresh 32-byte nonce. -/
  | nonceDraw (port : Nat)
  /-- DEBUG_HALT (R506): Write of DB_CTRL.HALT, which makes the management controller order HALT, with or without SNAPSHOT, for the dies selected. -/
  | debugHalt (port : Nat) (value : W32)
  /-- DEBUG_RELEASE (R506): Write of DB_CTRL.RELEASE, which orders HALT_RELEASE, with or without RESTORE, for dies halted by debug. -/
  | debugRelease (port : Nat) (value : W32)
  /-- MCU_HALT (R496): Write of DB_CTRL.MCU_HALT, which halts the management controller at its next instruction. -/
  | mcuHalt (port : Nat) (value : W32)
  /-- MCU_STEP (R496): Write of DB_CTRL.MCU_STEP, which makes a halted management controller execute one instruction. -/
  | mcuStep (port : Nat) (value : W32)
  /-- BB_REC_SEL (R521): A write that latches one black-box record into the port's buffer and reports what the latch found. -/
  | bbRecSel (port seq : Nat)
  /-- BB_NOTE_GO (R520): Command-processor write that hands a note image to the management controller to commit as a black-box record. -/
  | bbNoteGo (note : List Byte)
  /-- UE_STEP_WRITE (R386): A write of UE_STEP, which sets the step and read copy and starts a new attempt. -/
  | ueStepWrite (port : Nat) (value : W64)
  /-- ATTEMPT_START (R386): Once live caravans have read their contributions, the engines rewrite the step record and zero the code area for the new attempt. -/
  | attemptStart
  /-- PHASE_START (R33): Command waystation message that starts a phase on a die, or waits while the die is halted. -/
  | phaseStart (die : Nat)
  /-- CFG_LOAD (R229): Command waystation message that delivers a configuration-load descriptor to every die's configuration controller. -/
  | cfgLoad (die : Nat)
  /-- CTX_SWITCH (R237): Command waystation message that switches a region's active context on every die. -/
  | ctxSwitch (die : Nat)
  /-- COLL_DESC (R334): Command waystation message that delivers a caravan descriptor to the data plane. -/
  | collDesc
  /-- REG_ACCESS (R27): Message that carries a register access to the data plane, to the hub for forwarding, or over the standby pair. -/
  | regAccess (port off width : Nat) (write : Bool) (value : W64) (tag : W32)
  /-- COMPLETION (R24): Up message that the command processor takes within 8 PCLK-A cycles and turns into a completion record. -/
  | completion
  /-- REG_REPLY (R27): Up message that returns a register value or status to the command processor. -/
  | regReply
  /-- NACK (R26): Up message naming a lost down message, whose command then completes with ST_WAYSTATION_LOST. -/
  | nack
  /-- TELEMETRY_INTERVAL (R150): Every 2^21 BCLK cycles each stack sends COUNTER_SNAPSHOT and LANE_HEALTH. -/
  | telemetryInterval (stack : Nat)
  /-- COUNTER_SNAPSHOT (R150): Telemetry message carrying a stack's cumulative activity counters to the management plane. -/
  | counterSnapshot
  /-- EXP_HISTOGRAM (R150): Telemetry message carrying a format's logarithmic cumulative histogram. -/
  | expHistogram
  /-- SAT_VANISH (R150): Telemetry message carrying a format's cumulative saturation, vanish, NaN, poison and escalation totals. -/
  | satVanish
  /-- LANE_HEALTH (R150): Telemetry message carrying the per-lane margin and FEC summary of a stack's ports. -/
  | laneHealth
  /-- ORDER_ACK (R26): Telemetry message that acknowledges an interlock order. -/
  | orderAck
  /-- MGMT_REQUEST (R27): Telemetry message carrying a forwarded register access to a management-plane block. -/
  | mgmtRequest
  /-- WAYSTATION_FAULT (R26): Telemetry message that reports a discarded waystation message. -/
  | waystationFault (ws cause : Nat)
  /-- THROTTLE (R34): Interlock message that sets an FCLK cap on the dies named, applied within 20 µs. -/
  | throttle (dies mhz : Nat)
  /-- HALT (R30): Interlock message that raises the management copy of the halt line, stopping the named dies within 2 µs. -/
  | halt (dies : BitVec 8) (snapshot debug : Bool) (base : Nat)
  /-- HALT_RELEASE (R32): Interlock message that clears a management-ordered halt, letting the cells resume where they stopped. -/
  | haltRelease (dies : BitVec 8) (restore debug : Bool) (base : Nat)
  /-- PORT_SHUTDOWN (R35): Interlock message that asserts the management copy of the named ports' shutdown lines. -/
  | portShutdown (mask : BitVec 10)
  /-- PORT_RESTORE (R35): Interlock message that clears the management copy of the named ports' shutdown lines. -/
  | portRestore (mask : BitVec 10)
  /-- MGMT_REPLY (R27): Interlock message carrying the reply to a MGMT_REQUEST back to the hub. -/
  | mgmtReply
  /-- INTERLOCK_ORDER_REPEAT (R26): The management controller repeats an interlock order not acknowledged within one period, and orders a fabric reset after 8 repetitions. -/
  | interlockOrderRepeat (seq : Nat)
  /-- FETCH (R229): A load leaves its queue, and each configuration controller reads its share of the image, hashes it and checks it. -/
  | fetch
  /-- VERIFY (R233): On completion of FETCH, the controllers exchange digests and power sums, verify the signatures and pick the first failing check. -/
  | verify
  /-- APPLY (R229): When HOLD ends, the load passes its commit point and writes its frames, programs and windows and applies pending remaps. -/
  | apply
  /-- REPORT (R239): On completion of APPLY, the FB registers are updated and the load's completion is posted. -/
  | report
  /-- PRUN (R194): Sequencer instruction that starts a phase on its core once no phase is running. -/
  | prun (core : Nat) (a : RField) (imm : BitVec 14)
  /-- PWAIT (R194): Sequencer instruction that stalls until the core's phase has ended and its totals are in the CSRs. -/
  | pwait (core : Nat)
  /-- CSW (R194): Sequencer instruction that switches the core's cells to another resident context. -/
  | csw (core : Nat) (b : RField)
  /-- PSYNC (R194): Sequencer instruction that completes the core's earlier work and waits at a barrier with every core of the region. -/
  | psync (core : Nat)
  /-- PSYNC_RELEASE (R194): Once every core of the region has arrived, the barrier releases within 1 or 2 µs. -/
  | psyncRelease (region : Nat)
  /-- END (R194): Sequencer instruction that waits for the core's streams, moves and phase, then ends the core's program. -/
  | endProgram (core : Nat)
  /-- PROGRAM_END (R194): When every core of the region has executed END, the region's program ends and its command completes. -/
  | programEnd (region : Nat)
  /-- PHASE_END (R143): A phase ends on its cores: counters are collected, TW records close and the COMPLETION is posted. -/
  | phaseEnd (core : Nat)
  /-- TOTALS_TIMEOUT (R144): A die's totals that have not reached the hub within 1 ms are left out, and the record closes with INCOMPLETE. -/
  | totalsTimeout (region die : Nat)
  /-- ADD (R185): Integer ALU: Gd ← Ga + Gb modulo 2^64. -/
  | add (core : Nat) (d a b : RField)
  /-- SUB (R185): Integer ALU: Gd ← Ga − Gb. -/
  | sub (core : Nat) (d a b : RField)
  /-- AND (R184): Integer ALU: bitwise AND. -/
  | and (core : Nat) (d a b : RField)
  /-- OR (R184): Integer ALU: bitwise OR. -/
  | or (core : Nat) (d a b : RField)
  /-- XOR (R184): Integer ALU: bitwise XOR. -/
  | xor (core : Nat) (d a b : RField)
  /-- SLL (R185): Integer ALU: shift left by bits 5:0 of Gb. -/
  | sll (core : Nat) (d a b : RField)
  /-- SRL (R185): Integer ALU: logical shift right. -/
  | srl (core : Nat) (d a b : RField)
  /-- SRA (R185): Integer ALU: arithmetic shift right. -/
  | sra (core : Nat) (d a b : RField)
  /-- SLT (R184): Integer ALU: 1 if Ga < Gb signed, else 0. -/
  | slt (core : Nat) (d a b : RField)
  /-- SLTU (R184): Integer ALU: unsigned set-less-than. -/
  | sltu (core : Nat) (d a b : RField)
  /-- MIN (R184): Integer ALU: signed minimum. -/
  | min (core : Nat) (d a b : RField)
  /-- MAX (R184): Integer ALU: signed maximum. -/
  | max (core : Nat) (d a b : RField)
  /-- MINU (R184): Integer ALU: unsigned minimum. -/
  | minu (core : Nat) (d a b : RField)
  /-- MAXU (R184): Integer ALU: unsigned maximum. -/
  | maxu (core : Nat) (d a b : RField)
  /-- MUL (R184): Integer ALU: low 64 bits of the product. -/
  | mul (core : Nat) (d a b : RField)
  /-- MULHU (R184): Integer ALU: high 64 bits of the unsigned product. -/
  | mulhu (core : Nat) (d a b : RField)
  /-- DIVU (R185): Integer ALU: unsigned divide, all ones on division by zero. -/
  | divu (core : Nat) (d a b : RField)
  /-- REMU (R185): Integer ALU: unsigned remainder, Ga on division by zero. -/
  | remu (core : Nat) (d a b : RField)
  /-- CLZ (R184): Integer ALU: count of leading zeros of Ga. -/
  | clz (core : Nat) (d a : RField)
  /-- POPC (R184): Integer ALU: count of set bits of Ga. -/
  | popc (core : Nat) (d a : RField)
  /-- ADDI (R184): Gd ← Ga + sext(imm14). -/
  | addi (core : Nat) (d a : RField) (imm : BitVec 14)
  /-- ANDI (R184): Gd ← Ga AND sext(imm14). -/
  | andi (core : Nat) (d a : RField) (imm : BitVec 14)
  /-- ORI (R184): Gd ← Ga OR sext(imm14). -/
  | ori (core : Nat) (d a : RField) (imm : BitVec 14)
  /-- XORI (R184): Gd ← Ga XOR sext(imm14). -/
  | xori (core : Nat) (d a : RField) (imm : BitVec 14)
  /-- SLTI (R184): Signed set-less-than against an immediate. -/
  | slti (core : Nat) (d a : RField) (imm : BitVec 14)
  /-- SLTIU (R184): Unsigned set-less-than against an immediate. -/
  | sltiu (core : Nat) (d a : RField) (imm : BitVec 14)
  /-- SLLI (R184): SHI with imm[7:6] = 0: shift left by an immediate. -/
  | slli (core : Nat) (d a : RField) (sh : BitVec 6)
  /-- SRLI (R184): SHI with imm[7:6] = 1: logical shift right by an immediate. -/
  | srli (core : Nat) (d a : RField) (sh : BitVec 6)
  /-- SRAI (R184): SHI with imm[7:6] = 2: arithmetic shift right by an immediate. -/
  | srai (core : Nat) (d a : RField) (sh : BitVec 6)
  /-- LUI (R184): Gd ← sext(imm20) << 14. -/
  | lui (core : Nat) (d : RField) (imm : BitVec 20)
  /-- LB (R196): Load a sign-extended byte. -/
  | lb (core : Nat) (d a : RField) (imm : BitVec 14)
  /-- LBU (R196): Load a zero-extended byte. -/
  | lbu (core : Nat) (d a : RField) (imm : BitVec 14)
  /-- LH (R196): Load a sign-extended halfword. -/
  | lh (core : Nat) (d a : RField) (imm : BitVec 14)
  /-- LHU (R196): Load a zero-extended halfword. -/
  | lhu (core : Nat) (d a : RField) (imm : BitVec 14)
  /-- LW (R196): Load a sign-extended word. -/
  | lw (core : Nat) (d a : RField) (imm : BitVec 14)
  /-- LWU (R196): Load a zero-extended word. -/
  | lwu (core : Nat) (d a : RField) (imm : BitVec 14)
  /-- LD (R196): Load a doubleword. -/
  | ld (core : Nat) (d a : RField) (imm : BitVec 14)
  /-- SB (R196): Store a byte. -/
  | sb (core : Nat) (d a : RField) (imm : BitVec 14)
  /-- SH (R196): Store a halfword. -/
  | sh (core : Nat) (d a : RField) (imm : BitVec 14)
  /-- SW (R196): Store a word. -/
  | sw (core : Nat) (d a : RField) (imm : BitVec 14)
  /-- SD (R196): Store a doubleword. -/
  | sd (core : Nat) (d a : RField) (imm : BitVec 14)
  /-- FLD (R178): Load 8 bytes into Fd. -/
  | fld (core : Nat) (d a : RField) (imm : BitVec 14)
  /-- FSD (R178): Store Fd as 8 bytes, as the FP64 poison encoding when Fd is poisoned. -/
  | fsd (core : Nat) (d a : RField) (imm : BitVec 14)
  /-- VLD (R184): Load 32 bytes into Wd. -/
  | vld (core : Nat) (d a : RField) (imm : BitVec 14)
  /-- VST (R184): Store Wd as 32 bytes. -/
  | vst (core : Nat) (d a : RField) (imm : BitVec 14)
  /-- BEQ (R184): Branch if Ga equals Gb. -/
  | beq (core : Nat) (a b : RField) (off : BitVec 14)
  /-- BNE (R184): Branch if Ga differs from Gb. -/
  | bne (core : Nat) (a b : RField) (off : BitVec 14)
  /-- BLT (R184): Branch if Ga < Gb, signed. -/
  | blt (core : Nat) (a b : RField) (off : BitVec 14)
  /-- BGE (R184): Branch if Ga ≥ Gb, signed. -/
  | bge (core : Nat) (a b : RField) (off : BitVec 14)
  /-- BLTU (R184): Branch if Ga < Gb, unsigned. -/
  | bltu (core : Nat) (a b : RField) (off : BitVec 14)
  /-- BGEU (R184): Branch if Ga ≥ Gb, unsigned. -/
  | bgeu (core : Nat) (a b : RField) (off : BitVec 14)
  /-- JAL (R184): Jump by an offset and link. -/
  | jal (core : Nat) (d : RField) (off : BitVec 20)
  /-- JALR (R184): Jump to a register plus an offset and link. -/
  | jalr (core : Nat) (d a : RField) (imm : BitVec 14)
  /-- FADD (R186): FP64 add. -/
  | fadd (core : Nat) (d a b : RField)
  /-- FSUB (R186): FP64 subtract. -/
  | fsub (core : Nat) (d a b : RField)
  /-- FMUL (R186): FP64 multiply. -/
  | fmul (core : Nat) (d a b : RField)
  /-- FMIN (R186): FP64 minimum. -/
  | fmin (core : Nat) (d a b : RField)
  /-- FMAX (R186): FP64 maximum. -/
  | fmax (core : Nat) (d a b : RField)
  /-- FNEG (R186): Invert the sign bit of Fa. -/
  | fneg (core : Nat) (d a : RField)
  /-- FABS (R186): Clear the sign bit of Fa. -/
  | fabs (core : Nat) (d a : RField)
  /-- FCMP_EQ (R186): FP64 compare for equality, setting Gd to all ones or zero. -/
  | fcmpEq (core : Nat) (d a b : RField)
  /-- FCMP_NE (R186): FP64 compare for inequality. -/
  | fcmpNe (core : Nat) (d a b : RField)
  /-- FCMP_LT (R186): FP64 compare for less-than. -/
  | fcmpLt (core : Nat) (d a b : RField)
  /-- FCMP_LE (R186): FP64 compare for less-or-equal. -/
  | fcmpLe (core : Nat) (d a b : RField)
  /-- FCMP_GT (R186): FP64 compare for greater-than. -/
  | fcmpGt (core : Nat) (d a b : RField)
  /-- FCMP_GE (R186): FP64 compare for greater-or-equal. -/
  | fcmpGe (core : Nat) (d a b : RField)
  /-- FCMP_UN (R186): FP64 compare for unordered. -/
  | fcmpUn (core : Nat) (d a b : RField)
  /-- FMVGF (R187): Copy the bits of Ga into Fd. -/
  | fmvgf (core : Nat) (d a : RField)
  /-- FMVFG (R187): Copy the bits of Fa into Gd. -/
  | fmvfg (core : Nat) (d a : RField)
  /-- FMA (R186): Fd ← Fa × Fb + Fc with one rounding. -/
  | fma (core : Nat) (d a b c : RField)
  /-- FMS (R186): Fd ← Fa × Fb − Fc. -/
  | fms (core : Nat) (d a b c : RField)
  /-- FNMA (R186): Fd ← −(Fa × Fb) + Fc. -/
  | fnma (core : Nat) (d a b c : RField)
  /-- FSEL (R184): Fd ← Fa where Gc ≠ 0, else Fb. -/
  | fsel (core : Nat) (d a b c : RField)
  /-- VADD (R188): Lane-wise integer add. -/
  | vadd (core : Nat) (d a b : RField) (w : BitVec 2)
  /-- VSUB (R188): Lane-wise integer subtract. -/
  | vsub (core : Nat) (d a b : RField) (w : BitVec 2)
  /-- VAND (R188): Lane-wise AND. -/
  | vand (core : Nat) (d a b : RField) (w : BitVec 2)
  /-- VOR (R188): Lane-wise OR. -/
  | vor (core : Nat) (d a b : RField) (w : BitVec 2)
  /-- VXOR (R188): Lane-wise XOR. -/
  | vxor (core : Nat) (d a b : RField) (w : BitVec 2)
  /-- VMIN (R188): Lane-wise signed minimum. -/
  | vmin (core : Nat) (d a b : RField) (w : BitVec 2)
  /-- VMAX (R188): Lane-wise signed maximum. -/
  | vmax (core : Nat) (d a b : RField) (w : BitVec 2)
  /-- VMINU (R188): Lane-wise unsigned minimum. -/
  | vminu (core : Nat) (d a b : RField) (w : BitVec 2)
  /-- VMAXU (R188): Lane-wise unsigned maximum. -/
  | vmaxu (core : Nat) (d a b : RField) (w : BitVec 2)
  /-- VCMPEQ (R188): Lane-wise equality mask. -/
  | vcmpeq (core : Nat) (d a b : RField) (w : BitVec 2)
  /-- VCMPGT (R188): Lane-wise signed greater-than mask. -/
  | vcmpgt (core : Nat) (d a b : RField) (w : BitVec 2)
  /-- VFADD_D (R188): Lane-wise FP64 add. -/
  | vfaddD (core : Nat) (d a b : RField)
  /-- VFSUB_D (R188): Lane-wise FP64 subtract. -/
  | vfsubD (core : Nat) (d a b : RField)
  /-- VFMUL_D (R188): Lane-wise FP64 multiply. -/
  | vfmulD (core : Nat) (d a b : RField)
  /-- VFMIN_D (R188): Lane-wise FP64 minimum. -/
  | vfminD (core : Nat) (d a b : RField)
  /-- VFMAX_D (R188): Lane-wise FP64 maximum. -/
  | vfmaxD (core : Nat) (d a b : RField)
  /-- VFCMP_EQ_D (R188): Lane-wise FP64 equality mask. -/
  | vfcmpEqD (core : Nat) (d a b : RField)
  /-- VFCMP_LT_D (R188): Lane-wise FP64 less-than mask. -/
  | vfcmpLtD (core : Nat) (d a b : RField)
  /-- VFCMP_UN_D (R188): Lane-wise FP64 unordered mask. -/
  | vfcmpUnD (core : Nat) (d a b : RField)
  /-- VFMA_D (R184): Lane-wise FP64 fused multiply-add. -/
  | vfmaD (core : Nat) (d a b c : RField)
  /-- PTAB (R190): Table permute of units from W registers, indexed by the bytes of Wi. -/
  | ptab (core : Nat) (d a b : RField) (n1 g : BitVec 2)
  /-- VSPLAT (R184): Copy the low bits of Ga into every lane of Wd. -/
  | vsplat (core : Nat) (d a : RField) (w : BitVec 2)
  /-- VEXT (R188): Extract lane b of Wa into Gd. -/
  | vext (core : Nat) (d a b : RField) (w : BitVec 2)
  /-- VINS (R188): Insert the low bits of Ga into lane b of Wd. -/
  | vins (core : Nat) (d a b : RField) (w : BitVec 2)
  /-- SLDV_2 (R189): Structure load of two-field records into W registers. -/
  | sldv2 (core : Nat) (d a : RField) (w : BitVec 2) (inc : Bool) (fmask : BitVec 4) (off : BitVec 7)
  /-- SLDV_3 (R189): Structure load of three-field records. -/
  | sldv3 (core : Nat) (d a : RField) (w : BitVec 2) (inc : Bool) (fmask : BitVec 4) (off : BitVec 7)
  /-- SLDV_4 (R189): Structure load of four-field records. -/
  | sldv4 (core : Nat) (d a : RField) (w : BitVec 2) (inc : Bool) (fmask : BitVec 4) (off : BitVec 7)
  /-- SSTV_2 (R189): Structure store of the selected fields of two-field records. -/
  | sstv2 (core : Nat) (d a : RField) (w : BitVec 2) (inc : Bool) (fmask : BitVec 4) (off : BitVec 7)
  /-- SSTV_3 (R189): Structure store of the selected fields of three-field records. -/
  | sstv3 (core : Nat) (d a : RField) (w : BitVec 2) (inc : Bool) (fmask : BitVec 4) (off : BitVec 7)
  /-- SSTV_4 (R189): Structure store of the selected fields of four-field records. -/
  | sstv4 (core : Nat) (d a : RField) (w : BitVec 2) (inc : Bool) (fmask : BitVec 4) (off : BitVec 7)
  /-- SISS (R191): Hands a stream descriptor to the stream controller, stalling when the port's queue is full. -/
  | siss (core : Nat) (a : RField)
  /-- MVIS (R192): Hands a move descriptor to the cluster's move engine. -/
  | mvis (core : Nat) (a : RField)
  /-- SWAIT (R193): Stalls until every earlier stream and move with a tag in the mask has completed. -/
  | swait (core : Nat) (mask : BitVec 16)
  /-- CSRR (R202): Reads a sequencer CSR into Gd. -/
  | csrr (core : Nat) (d : RField) (imm : BitVec 14)
  /-- CSRW (R202): Writes a sequencer CSR from Gd. -/
  | csrw (core : Nat) (d : RField) (imm : BitVec 14)
  /-- STREAM_START (R199): A queued stream starts once earlier stores are written and any overlapping earlier stream or move has completed. -/
  | streamStart (core port : Nat) (out : Bool)
  /-- STREAM_COMPLETE (R193): A stream's last element is written at its destination, releasing waiting SWAITs, loads and streams. -/
  | streamComplete (core port : Nat) (out : Bool)
  /-- MOVE_START (R164): The move engine starts a queued move in issue order once its ordering waits are met. -/
  | moveStart (cluster : Nat)
  /-- MOVE_COMPLETE (R193): A move's last element is written, and its element faults are recorded in the core's fault record. -/
  | moveComplete (cluster : Nat)
  /-- STREAMED_OPERAND (R54): A streamed operand element arrives at the tile, gated in a mirror context, and its product enters the position's pair in the reference order. -/
  | streamedOperand (cell : Nat)
  /-- REDUCTION_TERM (R61): A stream element enters a reduction stage and is added into its compensated pair in the reference order. -/
  | reductionTerm (cell entry : Nat)
  /-- TOPK_ELEMENT (R139): An element enters a TOPK stage and is ranked into the list held in the bank. -/
  | topkElement (cell : Nat)
  /-- BANK_LOAD (R65): Streamed raw pairs are written into bank entries bit for bit. -/
  | bankLoad (cell : Nat)
  /-- ELEMENT_CHAIN (R60): An element arriving at the wide unit runs the context's element-operation chain. -/
  | elementChain (cell : Nat)
  /-- DRAIN (R66): Once the operation's final chunk is combined, the drain unit scales, biases, clips, rounds, counts and emits each value. -/
  | drain (cell residAddr : Nat)
  /-- PILOT_FRAME (R299): A valid pilot frame arrives, setting the far identity and direction and carrying DATA_READY, DRAINING and lane moves. -/
  | pilotFrame (p : Nat) (f : PilotFrame)
  /-- PILOT_LOST (R298): No valid pilot frame arrives for 32 µs, and the port goes to DARK. -/
  | pilotLost (p : Nat)
  /-- PILOT_DETECTOR_LOST (R466): A channel's pilot detector reads lost, and that channel's actuator turns the data lasers off. -/
  | pilotDetectorLost (p : Nat) (chanB : Bool)
  /-- RAMP_DONE (R304): A port's data lasers reach their launch set-point, and the port enters TRAIN. -/
  | rampDone (p : Nat) (lanes : List LaneMeasure)
  /-- TRAIN_DONE (R301): Lane training completes, and the port goes to READY with PORT_READY, or to ACTIVE, or to FAULT. -/
  | trainDone (p : Nat) (lanes : List LaneMeasure)
  /-- LANE_GRADE_INTERVAL (R307): Each 2^21 BCLK interval, every lane is graded and a lane move to a spare is started when its rule requires. -/
  | laneGradeInterval (p : Nat) (lanes : List LaneMeasure) (corrected : List Nat) (uncorr : Nat)
  /-- LANE_MOVE_SWITCH (R308): Both ends switch a logical lane to its spare at the same alignment marker. -/
  | laneMoveSwitch (p : Nat)
  /-- RELEASE_BUTTON (R481): A press of a port's release button drains and releases the port, or is refused when no detour exists. -/
  | releaseButton (p : Nat)
  /-- LATCH_TOUCH (R481): A touch of a port's latch asserts the management copy of its shutdown line and sends the port to HOLD. -/
  | latchTouch (p : Nat)
  /-- LATCH_HOLD_END (R481): Two seconds after the touch ends, the line clears and the port ramps again. -/
  | latchHoldEnd (p : Nat)
  /-- LATCH_SENSOR_FAULT (R481): A touch lasting 60 s is treated as a sensor fault, and the line clears. -/
  | latchSensorFault (p : Nat)
  /-- LASER_DARK_READING (R480): Within 1 ms of RELEASED or HOLD the port reads its monitors and, once they read dark, shows amber steady. -/
  | laserDarkReading (p : Nat) (dark : Bool)
  /-- DRAIN_END (R331): A released port's egress queue empties, and its data lasers are idled into RELEASED. -/
  | drainEnd (p : Nat)
  /-- DRAIN_TIMEOUT (R331): A drain reaches DRAIN_MAX, or 198 ms after a press, and its remaining flits are discarded. -/
  | drainTimeout (p : Nat)
  /-- CREDIT_RETURN (R314): A link-control word returns credits for a VC, letting waiting packets be sent. -/
  | creditReturn (p vc flits : Nat)
  /-- PACKET_INJECT (R326): An engine's packet is injected toward its destination once the window and staging space allow. -/
  | packetInject (dest : Nat)
  /-- PACKET_ROUTE (R315): A packet's header arrives at a module and is routed in dimension order, detoured, delivered or dropped. -/
  | packetRoute (p : Nat) (k : Packet) (badHeader badFlit : Bool)
  /-- DATA_PACKET_RECEIVE (R322): A data packet at its destination is checked, delivered once, dropped as a duplicate or answered. -/
  | dataPacketReceive
  /-- ACK (R323): Control packet that releases held packets and adjusts the window. -/
  | ack
  /-- PACKET_NACK (R324): Control packet NACK, which releases earlier packets and makes the source resend the named one. -/
  | packetNack
  /-- FENCED (R328): Control packet that completes the named packet with a fenced completion. -/
  | fenced
  /-- ACK_TIMER (R323): Two microseconds after the last unacknowledged delivered packet, the destination sends an ACK. -/
  | ackTimer (src : Nat)
  /-- RESEND_TIMEOUT (R324): An unacknowledged packet is resent with the timeout doubled, and a peer error is declared after the seventh resend. -/
  | resendTimeout (dest seq : Nat)
  /-- EPOCH_RETIRE (R320): When LK_INFLIGHT of the previous bank reaches zero, the bank retires and SET_ROUTE_EPOCH completes. -/
  | epochRetire
  /-- CARAVAN_OPEN (R346): A posted caravan reserves its staging once an engine slot and the space are free, enters RUNNING and sends READY. -/
  | caravanOpen (id : Nat)
  /-- DATA (R342): Caravan packet that carries units, which the engine combines, writes or forwards at its stage. -/
  | data
  /-- READY (R344): Caravan packet that grants a member leave to send DATA. -/
  | ready
  /-- DONE (R347): Caravan packet carrying a child's completion and tree sums to its parent. -/
  | done
  /-- COMMIT (R347): Caravan packet that commits the caravan at a member and is forwarded to its children. -/
  | commit
  /-- ABORT (R363): Caravan packet that aborts the caravan and is forwarded down the tree. -/
  | abort
  /-- STATUS_REQ (R347): Caravan packet asking the coordinator for the outcome, answered with COMMIT or ABORT. -/
  | statusReq
  /-- CYCLE (R365): PERMUTE control packet that starts a cycle at its leader or reports a cycle done. -/
  | cycle
  /-- READY_RESEND (R344): Every 1 ms a member resends READY to a peer from which no DATA has yet arrived. -/
  | readyResend (id : Nat)
  /-- CARAVAN_TIMEOUT (R347): TIMEOUT_MS after posting, a caravan aborts with cause TIMEOUT, or a waiting member sends STATUS_REQ. -/
  | caravanTimeout (id : Nat)
  /-- PARKED_TIMEOUT (R345): A parked control packet whose caravan has not opened within TIMEOUT_MS is discarded. -/
  | parkedTimeout (id : Nat)
  /-- WORKING_COPY_DONE (R392): The engines finish converting working copies and writing channel scales, and CONVERTING clears. -/
  | workingCopyDone
  /-- DRAM_READ (R273): A sector read is decoded, corrected or poisoned, written back, and counted against its pin. -/
  | dramRead (addr : Nat) (errs : List (Nat × Byte))
  /-- DRAM_WRITE (R262): A sector write is stored, as a read-modify-write when partial, with the expected tag. -/
  | dramWrite (addr : Nat) (bytes : List Byte) (poison : Bool)
  /-- PATROL_READ (R274): At MC_PATROL.RATE the controller reads the next sector, correcting or poisoning it. -/
  | patrolRead (stack : Nat) (errs : List (Nat × Byte))
  /-- RETIREMENT_START (R277): Retirement of a failing sub-channel starts its copy to a spare once no other copy runs on the controller. -/
  | retirementStart (stack : Nat)
  /-- RETIREMENT_COMPLETE (R277): The copy completes, the spare takes over the logical number and a retirement record is written. -/
  | retirementComplete (stack : Nat)
  /-- MANAGEMENT_PERIOD (R453): Each 1 ms tick the controller reads sensors, runs the power loop and thermal responses, calibrations, heaters and lasers, telemetry, black box and heartbeat. -/
  | managementPeriod (r : Readings)
  /-- POWER_SAMPLE (R451): Every 100 µs input power is sampled, and the hardware orders THROTTLE at 1,200 MHz on an excursion. -/
  | powerSample (mv ma mw : Nat)
  /-- LOCK_MONITOR_WINDOW (R446): Each 10 µs window checks every PLL and switches a failed one to its spare. -/
  | lockMonitorWindow (bad : List (Nat × Bool)) (refLost : Bool)
  /-- DROOP (R449): A core's droop detector stretches its FCLK cycles by one eighth. -/
  | droop (core : Nat)
  /-- RECAL_TIMEOUT (R458): A recalibration not complete within 64 periods is started again with the guard kept. -/
  | recalTimeout
  /-- LOCKSTEP_MISMATCH (R452): The lockstep cores disagree, and the management controller restarts from its boot ROM. -/
  | lockstepMismatch
  /-- MC_RESTART_DONE (R452): The restarted controller resends its current orders and records the restart. -/
  | mcRestartDone
  /-- HEARTBEAT_LOST (R476): With no heartbeat toggle for 200 ms, the safety monitor asserts every port line and darkens the lamps. -/
  | heartbeatLost
  /-- HEARTBEAT_RESTORED (R476): After 1 s of regular heartbeat, the safety monitor clears the lines it held for the heartbeat. -/
  | heartbeatRestored
  /-- FIBRE_POWER_HOLD (R468): A fibre above 9.0 mW for 100 µs makes the safety monitor hold its port shut. -/
  | fibrePowerHold (p fibre uw : Nat)
  /-- SAFETY_TRIP (R473): A trip condition halts the fabric, opens the laser supplies, drives SAFE_LOOP and stores the cause. -/
  | safetyTrip (cause value die : Nat)
  /-- TRIP_POWER_OFF (R473): Between 5 and 10 ms after a trip every supply is removed except the safety monitor's and the hold-up, and the module is in P4. -/
  | tripPowerOff
  /-- FUSE_OPEN (R474): The electronic fuse opens on overcurrent or overvoltage, and the module trips. -/
  | fuseOpen (cause value : Nat)
  /-- TRIP_RESTART (R475): When the restart conditions for the trip cause hold, the module leaves P4 by cold reset. -/
  | tripRestart
  /-- SAFETY_MONITOR_FAIL (R469): SMCLK or the safety monitor's supply fails, every supply switch opens and every safety line asserts. -/
  | safetyMonitorFail
  /-- SAFE_LOOP_DRIVE_END (R477): The module releases SAFE_LOOP 100 ms after driving it low for a trip. -/
  | safeLoopDriveEnd
  /-- LOOP_EVENT (R477): SAFE_LOOP held low for at least 1 ms by another module is recorded and a SAFETY event is posted. -/
  | loopEvent
  /-- LOOP_STUCK (R478): SAFE_LOOP held low for more than 2 s sets STUCK. -/
  | loopStuck
  /-- SERVICE_BUTTON (R502): A press of the service button while PRESENCE_WAIT is set gives physical presence to an unlock. -/
  | serviceButton
  /-- PRESENCE_TIMEOUT (R502): No press within 30,000 periods refuses the unlock with cause 8. -/
  | presenceTimeout
  /-- MATE_CHANGE (R543): A change of MATE# either holds bring-up at step 3 with supplies off or lets it continue. -/
  | mateChange (high : Bool)
  /-- UNDERVOLTAGE (R439): Input below 46 V for 1 ms forces P4. -/
  | undervoltage (mv : Nat)
  /-- INPUT_RESTORED (R441): Input back within 46–58 V for 100 ms after an undervoltage begins a cold reset. -/
  | inputRestored
  /-- D_STATE_CHANGE (R439): A host changes its port's D-state, and the port floor and power state follow. -/
  | dStateChange (port d : Nat)
  /-- PERST_HOLD_TIMEOUT (R440): PERST# held for 1 s makes its port count as D3cold. -/
  | perstHoldTimeout (port : Nat)
  /-- POWER_TRANSITION_DONE (R442): A power transition reaches its target state, completing SET_POWER_STATE and posting the POWER event. -/
  | powerTransitionDone
  /-- COLD_RESET (R524): Power-on or the end of P4 resets the whole module except the safety monitor, MRAM, fuses and calibrations. -/
  | coldReset
  /-- WARM_RESET (R532): A falling PERST# edge or RESET quiesces and resets the control and data planes. -/
  | warmReset (cause : Nat)
  /-- QUIESCE_END (R532): Two milliseconds after the warm reset trigger, the quiesce ends and bring-up starts at step 3. -/
  | quiesceEnd
  /-- FABRIC_RESET (R533): The data plane is halted, held in reset for 1 ms and brought up from step 6. -/
  | fabricReset
  /-- PORT_RESET (R399): A Hot Reset, FLR or Data Link Down resets one port's ring, completion ring, MSI-X and event queue. -/
  | portReset (port : Nat) (kind : PortResetKind)
  /-- BRINGUP_STEP (R528): A bring-up step completes, and the next step begins, or a failed step takes its outcome from Table 18.4. -/
  | bringupStep (o : BringupObs)
  /-- FW_BOOT_TIMEOUT (R488): Firmware that has not completed bring-up step 2 within 2 s makes the boot ROM try the other slot. -/
  | fwBootTimeout
  /-- WINDOW_CLOSE (R517): A black-box window closes after 1,024 periods or on a closing event, and its record burst is written. -/
  | windowClose
  /-- PERST_RELEASE (R441): The release of a port's PERST# starts its LTSSM toward Detect and, after a D3cold entry of a strapped port, begins the cold reset that ends P4. -/
  | perstRelease (port : Nat)
  /-- PCIE_LINK_UP (R529): A port's PCI Express link finishes training after a Data Link Down, port reset or PERST# release and begins serving requests again. -/
  | pcieLinkUp (port : Nat)
  /-- PILOT_DETECTOR_PRESENT (R465): A channel's pilot detector returns to pilot present, re-enabling channel A's driver gate or closing channel B's laser supply switch. -/
  | pilotDetectorPresent (p : Nat) (chanB : Bool)
  /-- DROOP_RECOVERY (R449): A core's supply recovers from a droop and, 64 cycles later, the stretch of its FCLK cycles ends. -/
  | droopRecovery (core : Nat)
  /-- LOOP_STUCK_END (R478): After SAFE_LOOP has been high for 1 s following a stuck condition, loop events are counted again. -/
  | loopStuckEnd
  /-- UNLOCK_SCRUB_DONE (R502): The scrub taken by a DEBUG_UNLOCK that requires one completes, the raised level takes effect and the command completes with ST_OK. -/
  | unlockScrubDone (tests : List SelfTest)
  /-- SMBUS_ACCESS (R544): An SMBus transaction at address 0x58 + SMB_ADDR sets the status-block offset or reads the status block, not acknowledging any other write. -/
  | smbusAccess (addr : Nat) (writeBytes : List Byte) (readLen : Nat)
  /-- JTAG_DBACC (R497): A DBACC shift through the JTAG port carries one read or write of the DB or SC block under the level checks, without the steward check. -/
  | jtagDbacc (off : Nat) (write : Bool) (value : W64)
  deriving DecidableEq, Repr

end Sys2Proof
end

