-- ==== Sys2Proof/Config.lean ====
section
/-!
DEFINITION. What an implementation fixes or the spec leaves open: opaque constants with no body, so that
no proof can see a value of them, and the sizes the spec gives.
-/

namespace Sys2Proof.Config

/-- The free value number `n` (log entry 3): whatever the spec calls undefined or does not state.
`State.freeCtr` numbers them in the order in which they are drawn. -/
opaque freeNat : Nat → Nat

/-- Whether the module checks an Ed25519 signature's equation itself, or eight times it, as RFC 8032 leaves it (R484; log entry 7). -/
opaque ed25519Plain : Bool

/-- The Ed25519 signature the security engine makes over a message with its identity key (R495; log entry 7). -/
opaque identityEd25519Sign : List Byte → List Byte

/-- The ML-DSA-65 signature the security engine makes over a message with its identity key (R495; log entry 7). -/
opaque identityMldsa65Sign : List Byte → List Byte

/-- The identity record's bytes as the authority signed it (R494; log entry 7). -/
opaque identityRecord : List Byte

/-- Fused key digests: 0 the authority key's, 1 the firmware key's (Table 16.1; log entry 5). -/
opaque fusedKey : Nat → List Byte

/-- What the two flash slots hold when the module leaves manufacture: 0 slot A, 1 slot B (log entry 5). -/
opaque factorySlot : Nat → List Byte

/-- The AVFS limit in MHz that a calibration set gives a die at a supply voltage in mV and a hottest junction in 1/16 degree C:
class and band of the set, die, voltage, temperature (R448, R456; log entry 8). -/
opaque avfsLimitMHz : Nat → Nat → Nat → Int → Int → Nat

/-- Heater codes found by a recalibration: port, lane, class, band, transmit or receive (R457; log entry 8). -/
opaque heaterCode : Nat → Nat → Nat → Nat → Bool → Nat

/-- Whether a sector of a physical cell's store belongs to the part of the cell that failed (R87; log entry 211): physical cell,
sector. -/
opaque failedPart : Nat → Nat → Bool

/-- Whether a sector of a physical cluster's store lies in the rows that failed beyond its spare rows (R170, R171; log entry
211): physical cluster, sector. -/
opaque failedRow : Nat → Nat → Bool

/-- The permute parameters that a context holds, which Tables 7.6 to 7.9 give no field: the 64 indices of PERMUTE, and L, W and
BASE_ROW of TABLE, as a number; bitstream digest, core, slot (R156, R157; log entry 501). -/
opaque permuteParams : List Byte → Nat → Nat → Nat

/-- The element index of drained value `n` of a cell in its tensor's parameter order: digest of the region's image, tensor
identifier, cell, context slot, n (R117; log entry 34). -/
opaque elementIndex : List Byte → Nat → Nat → Nat → Nat → Nat

/-- The job-rank index of a device of torus rank `r` (R117; log entry 34). -/
opaque jobRankIndex : Nat → Nat

/-- Flits that the staging buffer of an egress VC holds, beyond one packet of the largest size, which it always takes (R318; log
entry 1007). -/
opaque stagingFlits : Nat

/-- A 64-bit word of the step record or of its reduced copy that lies in a faulting sector, by its address: R281 names no poison
for a word without a format (log entry 1209). -/
opaque faultedWord : Nat → Nat

/-- The E8 code a drain with target E8 gives a value between its smallest and largest: magnitude m 2^e, the sign, the rounding
mode, and the throw under SR (R104; log entry 208). -/
opaque e8Code : Bool → Nat → Int → Nat → Nat → Nat

/-- How many read-backs of MRAM write number `n` fail before one holds; at three the write is abandoned (R515; log entry 1706). -/
opaque readBackFails : Nat → Nat

/-- The 256 bytes a record's slot holds after write number `n` of the MRAM was abandoned there (R515; log entry 1706). -/
opaque abandonedSlot : Nat → List Byte

/-- What befalls the 64-bit words of the stores in management period `n`: 0 nothing, 1 an error that their code corrects, a + 2 an
uncorrectable error in the word at device address a (R73, R95; log entry 220). -/
opaque storeUpset : Nat → Nat

/-- Cells, clusters, cores, dies and ports of the module (R5, Table 0.3). -/
def numCells : Nat := 96000
/-- Logical clusters (R5). -/
def numClusters : Nat := 1200
/-- Cores, four a cluster (R5). -/
def numCores : Nat := 4800
/-- Compute dies, one a stack (R1). -/
def numDies : Nat := 8
/-- Optical ports XP, XM, YP, YM, ZP, ZM, WP, WM, SA, SB (R5). -/
def numPorts : Nat := 10

end Sys2Proof.Config
end

