-- ==== Sys2Proof/Machine/State.lean ====
section
/-!
DEFINITION. The state of the module: everything the spec names, as plain data, grouped by the block that owns it,
with `State.reset`.  Register words that hosts read and write whole are bit vectors; counts, sizes and indexes are
numbers.  Where a reset value is not the spec's, the log entry is named.
-/

namespace Sys2Proof.Machine

open Sys2Proof

/-- Why the machine stops. -/
inductive Fault where
  /-- Raised by every meaning whose command names a cell, core, cluster, die, optical port, host port or load
  stage unit that Table 0.3 does not give the module.  Safe: the hardware has no such unit to command. -/
  | noSuchUnit
  deriving DecidableEq, Repr

/-- Why a command has no meaning. -/
inductive Refusal where
  /-- Raised by `exec` alone, for a row that has no meaning yet.  Safe. -/
  | notModelled (mnemonic : String)
  deriving DecidableEq, Repr

/-! ## Cells -/

/-- An element on a route: its bits, its format code (which its source gives it), and its sidebands (R95, R245). -/
structure Elem where
  bits : W64
  fmt : Nat
  poison : Bool
  clip : Bool
  tapePoison : Bool
  /-- a word of a RAW drain of a bank: it belongs to a pair (R65, R129, R140) -/
  raw : Bool := false
  deriving DecidableEq, Repr, Inhabited

/-- A compensated pair (R124), as the bits of its two words in the pair's format. -/
structure Pair where
  s : W64
  e : W64
  deriving DecidableEq, Repr, Inhabited

/-- An accumulator bank entry (R62): two 32-bit words and the hidden poison flag.  `mark` belongs to the lists of R139: the
element of an entry came as poison with bits that do not say so. -/
structure Entry where
  s : W32
  e : W32
  poison : Bool
  mark : Bool := false
  deriving DecidableEq, Repr, Inhabited

/-- A sum in progress (R127): the open chunk, how many terms it holds, and the open tree nodes, newest first,
each with its level.  `int` and `poison` serve INT8 sums (R49). -/
structure AccRun where
  chunk : Option Pair
  inChunk : Nat
  nodes : List (Nat × Pair)
  int : W64
  poison : Bool
  deriving DecidableEq, Repr, Inhabited

/-- One resident context of a cell: the words of its context frame (Table 7.6) and route frame (R213). -/
structure Ctx where
  region : Nat
  cls : Nat
  reverse : Bool
  tile : BitVec 128
  wide : BitVec 128
  bank : W64
  chain : List W32
  drain : BitVec 192
  routes : List (BitVec 16)
  rdBase : Nat
  wrBase : Nat
  deriving DecidableEq, Repr, Inhabited

/-- A cell (R46 to R90). -/
structure Cell where
  /-- bank b, entry n at key 32 b + n -/
  banks : Tbl Entry
  q : Tbl W64
  qPoison : Tbl Bool
  /-- resident contexts by slot; an absent slot holds the idle context (R209) -/
  ctxs : Tbl Ctx
  active : Nat
  /-- the drain table as latched (R67): 0-3 row codes, 4-11 column codes, 16-23 biases; 32 + k is one where entry k reads as
  poison -/
  table : Tbl W64
  /-- 0-63 bins, 64 SAT, 65 VANISH, 66 NAN, 67 POISON, 68 ESCALATED (R71, R142) -/
  counts : Tbl Nat
  /-- sums in progress of the 32 tile positions -/
  tile : Tbl AccRun
  kDone : Nat
  /-- the gradient block a mirror operation holds and the next output block (R244) -/
  grads : List Elem
  gradBlock : Nat
  /-- reduction sums in progress, by bank entry -/
  red : Tbl AccRun
  topkSeen : Nat
  /-- entries of a TOPK list that hold an element (R139) -/
  topkHeld : Nat
  /-- arrived elements: 0 tile A, 1 tile B, 2 wide I0, 3 I1, 4 I2; 5 what came on I2, for the chain beside a gated tile (R256) -/
  inq : Tbl (List Elem)
  /-- values waiting at a merge (R82): key 16 × route entry + former sink bit -/
  merge : Tbl (List Elem)
  /-- terms the chain has written to RED, and wide results for the drain -/
  redq : List Elem
  wideq : List Elem
  /-- count of values at the gate on wide I0 (R252), values drained, elements read and written by the store ports -/
  chainN : Nat
  drainN : Nat
  rdPos : Nat
  wrPos : Nat
  deriving DecidableEq, Repr, Inhabited

/-! ## Cores -/

/-- A stream as issued (Table 6.7) and whether it has started. -/
structure Stream where
  /-- place in the core's issue order, moves included -/
  ord : Nat
  port : Nat
  dir : Nat
  fmt : Nat
  perm : Nat
  param : Nat
  count : Nat
  base : Nat
  stride : Int
  edges : List Nat
  tag : Nat
  /-- its span lies inside a TAPE window: its elements are tape entries (R246) -/
  tape : Bool
  started : Bool
  deriving DecidableEq, Repr, Inhabited

/-- A move as issued (Table 6.8). -/
structure Move where
  ord : Nat
  core : Nat
  dev : Nat
  toDevice : Bool
  cstore : Nat
  len : Nat
  tag : Nat
  started : Bool
  deriving DecidableEq, Repr, Inhabited

/-- A phase running on a core. -/
structure CorePhase where
  id : Nat
  ctx : Nat
  count : Nat
  region : Nat
  /-- its die's totals were left out of the record (R144) -/
  late : Bool
  deriving DecidableEq, Repr, Inhabited

/-- A core sequencer with its stream controller, permute network and table store (05, 06). -/
structure Core where
  g : Tbl W64
  gp : Tbl Bool
  f : Tbl W64
  fp : Tbl Bool
  pc : W64
  running : Bool
  ended : Bool
  /-- cause and program counter of a sequencer fault (R201) -/
  fault : Option (Nat × W64)
  imem : Tbl Byte
  /-- the core's program section: first byte and one beyond its last (R201, R214) -/
  section_ : Nat × Nat
  dmem : Tbl Byte
  dmemP : Tbl Bool
  tshadow : Tbl Byte
  tshadowP : Tbl Bool
  tlive : Tbl Byte
  tliveP : Tbl Bool
  /-- the permute parameters held in the context of each slot, as a number (R156, R157) -/
  perm : Tbl Nat
  region : Nat
  step : Nat
  tag : Nat
  /-- streams and moves in issue order, started or not, until complete -/
  streams : List Stream
  moves : List Move
  psync : Nat
  psyncWait : Bool
  phase : Option CorePhase
  lastPhase : Nat
  lastPoisoned : Bool
  sfCause : W64
  sfIndex : W64
  sfCount : W64
  /-- SEQ_TOT, key 72 f + i (R202) -/
  tot : Tbl Nat
  /-- elements that reached the core's edge links: key 64 × port + edge cell (8 × row + column) -/
  portOut : Tbl (List Elem)
  stretched : Bool
  deriving DecidableEq, Repr, Inhabited

/-! ## Memory -/

/-- A sub-channel retirement (R277): controller, failing and spare physical sub-channel, failed pin, whether the
copy runs, and its pointer in bytes. -/
structure Retire where
  stack : Nat
  failing : Nat
  spare : Nat
  pin : Nat
  copying : Bool
  ptr : Nat
  deriving DecidableEq, Repr, Inhabited

/-- A host write that waits for a phase to end (R74, R163): a piece of one sector, and the COPY it belongs to. -/
structure HeldWrite where
  addr : Nat
  bytes : List Byte
  poison : Bool
  handle : Option Nat
  deriving DecidableEq, Repr, Inhabited

/-- Device memory and the MC block (09). -/
structure Mem where
  /-- DRAM, cluster-store and cell-store bytes by device address; an unlisted byte is zero (R285, Table 18.2) -/
  bytes : List Host.Cell
  /-- poison flag by sector number (address / 32) -/
  poison : Tbl Bool
  /-- ownership tags that differ from the tag expected, by sector number; an unlisted sector bears the expected tag, and 32
  stands for tag 0 (R271) -/
  stale : Tbl Nat
  /-- while a SCRUB pass is open: DRAM sectors from this number up still bear the earlier generation (R287) -/
  scrubbed : Option Nat
  ready : Bool
  initRunning : Bool
  retainedValid : Bool
  gen : Nat
  bar4Base : W64
  patrol : W32
  retireCtrl : W32
  errLog : W64
  counts : Tbl W64
  hostFault : W64
  /-- MC_SUBCH_MAP[0..255] -/
  subch : List W32
  /-- symbols corrected on each pin: pin (stack, physical sub-channel, pin) and the management period of each (R276) -/
  pinLog : List (Nat × Nat)
  retires : List Retire
  patrolPtr : Tbl Nat
  /-- whether DRAM is in self-refresh (R286) -/
  selfRefresh : Bool
  /-- host writes held until a phase ends, oldest first, and the COPY commands that wait on them: handle, status, result -/
  heldWrites : List HeldWrite
  /-- data bytes each stack's controller has moved (Table 4.8), and the core of each cluster whose move started last (R164) -/
  moved : Tbl Nat
  moveTurn : Tbl Nat
  /-- errors of store words that the code has corrected (R73) -/
  corrected : Nat
  copies : List (Nat × Nat × List W64)
  deriving DecidableEq, Repr, Inhabited

/-! ## Fabric configuration -/

/-- A memory window (Table 7.11). -/
structure Window where
  kind : Nat
  access : Nat
  base : Nat
  len : Nat
  deriving DecidableEq, Repr, Inhabited

/-- A phase entry (Table 7.12). -/
structure PhaseEntry where
  id : Nat
  ctx : Nat
  windowMask : W64
  maxCount : Nat
  tapeBytes : Nat
  deriving DecidableEq, Repr, Inhabited

/-- A resident region (R207, Table 7.25). -/
structure Region where
  ctxMask : BitVec 4
  program : Bool
  first : Nat
  count : Nat
  entry : Nat
  phases : List PhaseEntry
  windows : List Window
  signed : Bool
  digest : List Byte
  deriving DecidableEq, Repr, Inhabited

/-- The stage of a load (Table 7.16), between the steps that carry the stages out. -/
inductive LoadStage where
  /-- its CFG_LOAD has not reached every die, or FETCH is next -/
  | accept
  /-- the image is read and VERIFY is next -/
  | verify
  /-- it has passed every check and APPLY is next -/
  | hold
  /-- it has passed its commit point, and some die has still to apply it -/
  | apply
  /-- REPORT is next: after APPLY, or after a failed check -/
  | report
  deriving DecidableEq, Repr, Inhabited

/-- A load accepted and not yet finished (R228). -/
structure Load where
  handle : Nat
  addr : Nat
  bytes : Nat
  stage : LoadStage
  /-- its CFG_LOAD has been sent, and the dies whose configuration controller has it -/
  sent : Bool
  dies : BitVec 8
  /-- dies that have applied it -/
  applied : BitVec 8
  /-- the verdict, found as FETCH begins: row of Table 7.17 (0 none failed), image offset, cell (R231) -/
  check : Nat
  offset : Nat
  cell : Nat
  /-- the image as FETCH read it -/
  image : List Byte
  digest : List Byte
  signed : Bool
  remaps : Nat
  deriving DecidableEq, Repr, Inhabited

/-- A phase or program running in a region. -/
structure Run where
  handle : Nat
  step : Nat
  program : Bool
  phaseId : Nat
  count : Nat
  /-- dies that have taken the PHASE_START message -/
  started : BitVec 8
  /-- cores whose part has ended -/
  endedCores : List Nat
  /-- logical clusters whose fault records hold a fault (R283, R420) -/
  poisoned : List Nat
  /-- logical cluster, core, cause, program counter (R201) -/
  seqFault : Option (Nat × Nat × Nat × W64)
  deriving DecidableEq, Repr, Inhabited

/-- The FB block and the fabric's configuration state (07). -/
structure Fb where
  lastCheck : Nat
  lastHandle : Nat
  loadFault : W64
  loadCount : W64
  authCtrl : W32
  ownerDigest : Tbl W64
  job : W64
  jobSeed : W64
  regions : List (Nat × Region)
  loads : List Load
  cellRepair : Tbl W32
  clusterMap : List W32
  capacity : List W32
  powerDie : Tbl Nat
  powerModule : Nat
  runs : List (Nat × Run)
  /-- RUN_PHASE commands waiting on a region, oldest first (R419): region and handle with the command -/
  waits : List (Nat × Nat × Instr)
  /-- SWITCH_CONTEXT commands that wait for a load's REPORT (R237): region, context, handle -/
  switchWaits : List (Nat × Nat × Nat)
  fusedCell : Tbl W32
  /-- physical cells (24 × physical core + 6 × row + column) whose self-test has failed (R87) -/
  failed : Tbl Bool
  fusedCluster : List W32
  deriving DecidableEq, Repr, Inhabited

/-! ## Waystations -/

/-- A register access in flight (Table 13.11): BAR0 offset, width in bytes, direction, port (2: the command
processor's own account, R486), whether the issuing port holds the token, tag and value. -/
structure RegAcc where
  off : Nat
  width : Nat
  write : Bool
  port : Nat
  steward : Bool
  tag : W32
  value : W64
  deriving DecidableEq, Repr, Inhabited

/-- Message payloads (Tables 1.4, 4.8, 13.11, 16.12). -/
inductive Payload where
  | phaseStart (region phaseId count handle step : Nat) (program : Bool)
  | cfgLoad (handle : Nat)
  | ctxSwitch (region ctx handle : Nat)
  | collDesc (handle : Nat) (d : CollDesc)
  | regAccess (a : RegAcc)
  | completion (handle status flags : Nat) (result : List W64)
  | regReply (port : Nat) (tag : W32) (discarded : Bool) (value : W64)
  | nack (seq : Nat)
  /-- telemetry counts as words of the 56-byte payload -/
  | counts (words : List Nat)
  | orderAck (seq kind : Nat)
  | fault (ws cause expected received : Nat)
  | throttle (dies mhz : Nat)
  | halt (dies : BitVec 8) (flag debug : Bool) (base : Nat)
  | ports (mask : BitVec 10)
  deriving DecidableEq, Repr, Inhabited

/-- A waystation message (R20, Table 1.3). -/
structure Msg where
  kind : Nat
  source : Nat
  coalesced : Nat
  seq : Nat
  payload : Payload
  deriving DecidableEq, Repr, Inhabited

/-- The waystations (01). -/
structure Ws where
  down : List Msg
  up : List Msg
  tele : List Msg
  inter : List Msg
  standbyDown : List Msg
  standbyUp : List Msg
  /-- messages whose senders wait for room in the down, up and interlock queues, oldest first: kind, source, payload (R24) -/
  waitDown : List (Nat × Payload)
  waitUp : List (Nat × Nat × Payload)
  waitInter : List (Nat × Payload)
  /-- MGMT_REQUEST, ORDER_ACK and WAYSTATION_FAULT messages that wait for a place in their share of 16 (R25) -/
  waitTele : List (Nat × Nat × Payload)
  /-- SEQ counters by queue: 0 down, 1 up, 2 telemetry, 3 interlock, 4 and 5 the standby pair -/
  seqs : Tbl Nat
  /-- newest telemetry message held of each kind and source while the queue is full (R25) -/
  held : List Msg
  /-- NI waiting list: message and the dies that have still to take it (R33) -/
  ni : List (Msg × BitVec 8)
  /-- interlock orders not yet acknowledged, with their repetitions (R26) -/
  unacked : List (Msg × Nat)
  /-- down messages sent, newest first: SEQ and payload (R26, R421) -/
  sent : List (Nat × Payload)
  /-- register accesses without a reply (R430): port, tag, width and whether it is a write -/
  regsOut : List (Nat × W32 × Nat × Bool)
  haltMc : BitVec 8
  haltDebug : BitVec 8
  haltSm : Bool
  portMc : BitVec 10
  portSm : BitVec 10
  /-- the data plane has restarted and waits for its orders' acknowledgement (R38) -/
  startHeld : Bool
  deriving DecidableEq, Repr, Inhabited

/-! ## Command processor -/

/-- An accepted command whose completion record is not yet written (R405). -/
structure Pending where
  seq : Nat
  handle : Nat
  opcode : Nat
  tag : W32
  vec : Nat
  noIrq : Bool
  /-- it has completed; its record waits -/
  done : Bool
  deriving DecidableEq, Repr, Inhabited

/-- A completion record's content waiting for the ring (Table 13.3), or an event (Table 13.4). -/
structure Record where
  seq : Nat
  handle : Nat
  status : Nat
  opcode : Nat
  tag : W32
  flags : Nat
  result : List W64
  vec : Nat
  noIrq : Bool
  deriving DecidableEq, Repr, Inhabited

/-- One host port's share of the CP block and its PCI Express port (13 R435, R437). -/
structure PortCp where
  sqNext : Nat
  /-- port resets so far; they set apart handles that come again after one (R399, R406) -/
  resets : Nat
  /-- slot bytes by BAR2 offset; bytes 248-255 of each slot are kept complemented, so that every SEQ word of an
  empty table reads all ones (R404) -/
  slots : Tbl Byte
  cqBase : W64
  cqEntries : W32
  cqHead : W32
  cqTail : W32
  eventCfg : W32
  faultCnt : Tbl W64
  poisonMap : Tbl W64
  msixAddr : Tbl W64
  msixData : Tbl W64
  pba : W64
  pend : List Pending
  /-- commands accepted before a port reset that have not completed: their completions are discarded (R399, R407) -/
  runsOn : List Nat
  records : List Record
  events : List Record
  lost : Bool
  /-- commands that wait behind a FENCE (R407): handle, whether it is itself fenced, and the command -/
  fenced : List (Nat × Bool × Instr)
  linkUp : Bool
  dState : Nat
  perstLow : Bool
  d3cold : Bool
  deriving DecidableEq, Repr, Inhabited

/-- The states of a long operation (Table 13.9, Table 13.22). -/
inductive LoState where
  | queued
  | running
  | suspending
  | suspended
  | cancelling
  deriving DecidableEq, Repr, Inhabited

/-- A live long operation (R424, R436). -/
structure LongOp where
  handle : Nat
  opcode : Nat
  cmd : Instr
  state : LoState
  ran : Bool
  pastCommit : Bool
  /-- SNAP_HEAD of a BB_EXPORT (R522), and the ranges of a CHECKPOINT (R422) -/
  mark : Nat
  ranges : List (Nat × Nat)
  /-- SUSPEND, RESUME and CANCEL commands that wait for their target, by handle -/
  suspender : Option Nat
  resumer : Option Nat
  canceller : Option Nat
  deriving DecidableEq, Repr

/-- The CP block (13). -/
structure Cp where
  a : PortCp
  b : PortCp
  holder : Nat
  cause : Nat
  stewardCfg : W32
  /-- steward windows left before the lease can run out (R415) -/
  leaseLeft : Nat
  /-- claims of the window: port and handle (R414) -/
  claims : List (Nat × Nat)
  longops : List (Nat × LongOp)
  /-- outcomes of the last 256 long operations to reach DONE: handle and status (R427) -/
  remembered : List (Nat × Nat)
  /-- handles of commands that were not long (R427) -/
  plain : List Nat
  accepting : Bool
  /-- a RESET has completed and its warm reset follows (R524) -/
  resetDue : Bool
  deriving DecidableEq, Repr

/-! ## Links -/

/-- The port states (Table 10.3, Table 10.10). -/
inductive PState where
  | dark
  | pilot
  | ramp
  | train
  | ready
  | active
  | drain
  | released
  | hold
  | fault
  deriving DecidableEq, Repr, Inhabited

/-- The lamp patterns (Table 15.7), in the table's order. -/
inductive Lamp where
  | off
  | greenFlashing
  | greenSteady
  | amberFlashing
  | amberSteady
  | refused
  | alternating
  deriving DecidableEq, Repr, Inhabited

/-- A physical lane (Table 10.13) and its run of intervals at grade 2 or worse (R308). -/
structure Lane where
  role : Nat
  grade : Nat
  worst : Nat
  moves : Nat
  low : Nat
  deriving DecidableEq, Repr, Inhabited

/-- A packet in an egress queue: its VC and whether a later flit is marked bad (R312, R313). -/
structure Queued where
  vc : Nat
  pkt : Packet
  bad : Bool
  deriving DecidableEq, Repr, Inhabited

/-- An optical port (10, 15). -/
structure Port where
  state : PState
  farValid : Bool
  farRank : Nat
  farPort : Nat
  farDir : Nat
  dir : Nat
  narrow : Bool
  /-- while narrow, the roles its lanes had (R305) -/
  wideRoles : List Nat
  /-- management periods left of the retraining that follows P2, with the heater loops in wide capture (R305) -/
  relight : Nat
  /-- physical lanes that carry logical lanes 0 to 15 of the transmit direction (R295); empty before the far end names them -/
  txLanes : List Nat
  fault : W32
  cfg : W32
  lanes : List Lane
  cnt : Tbl W64
  /-- the last valid pilot frame -/
  lastFrame : Option PilotFrame
  /-- the far frames' flags and state as last seen (R554) -/
  farReady : Bool
  farDraining : Bool
  farState : Nat
  /-- identity when last ACTIVE: far rank, far port, own direction (R301) -/
  lastId : Option (Nat × Nat × Nat)
  /-- RAMP was entered from HOLD, or from PILOT on leaving P3 (R301) -/
  autoAdmit : Bool
  /-- leaving P3: the next RAMP may go to ACTIVE by itself -/
  fromP3 : Bool
  /-- lane move asked by this receiver: logical lane and target (R308) -/
  move : Option (Nat × Nat)
  /-- lane move this transmitter carries out for the far receiver -/
  txMove : Option (Nat × Nat)
  egress : List Queued
  /-- flits in flight without credit, by VC (R314) -/
  used : Tbl Nat
  /-- PORT_RELEASE commands that wait for RELEASED (R556) -/
  waiters : List Nat
  pressed : Bool
  lamp : Lamp
  /-- the pattern of the port's state, which a refused press interrupts (Table 15.7) -/
  lampBefore : Lamp
  /-- management periods left of the three flashes of a refused press (Table 15.7) -/
  flash : Nat
  /-- both sets of monitors have read dark since RELEASED or HOLD was entered (R480) -/
  darkRead : Bool
  /-- the latch sensor asserts the management copy of the port's line (R481) -/
  touched : Bool
  touchIgnored : Bool
  /-- the last frame failed its MAGIC or CRC (Table 10.12) -/
  badFrame : Bool
  frameCount : Byte
  /-- uncorrectable codewords and corrected symbols since the last LANE_HEALTH, by lane (R150) -/
  fec : Tbl Nat
  uncorr : W32
  presses : Nat
  touches : Nat
  pilotLosses : Nat
  lampChanges : Nat
  deriving DecidableEq, Repr, Inhabited

/-- A packet held at its source until acknowledged (R321), with its resends (R324). -/
structure HeldPkt where
  pkt : Packet
  resends : Nat
  deriving DecidableEq, Repr, Inhabited

/-- The pair state toward and from one rank (R321 to R326). -/
structure Peer where
  /-- the window has been started (R326: W starts at WINIT) -/
  started : Bool
  nextSeq : Nat
  w : Nat
  c : Nat
  r : Nat
  held : List HeldPkt
  waiting : List Packet
  peerErr : Bool
  rxNext : Nat
  rxSeen : List Nat
  unacked : Nat
  echo : Bool
  lastSeq : Nat
  deriving DecidableEq, Repr, Inhabited

/-- A packet that waits at its ingress port, or at the network interface that injects it (ingress 10), for space in the staging
buffer of its egress VC (R314, R318): the VC it came on, the dimension of its previous hop, and its bad-flit mark. -/
structure Crossing where
  ingress : Nat
  vc : Nat
  prev : Option Nat
  pkt : Packet
  bad : Bool
  deriving DecidableEq, Repr, Inhabited

/-- The LK block and the network interfaces' transport (10). -/
structure Lk where
  ports : List Port
  rank : W32
  torus : W32
  epoch : Nat
  prevEpoch : Nat
  prevLive : Bool
  bank0 : W64
  bank1 : W64
  e2e : W64
  peerErrLog : W64
  destSel : W32
  drops : Tbl W64
  fences : Tbl Bool
  peers : Tbl Peer
  /-- packets delivered to the network interfaces, with their bad-flit mark, and packets delivered to engines -/
  rxq : List (Packet × Bool)
  /-- packets that wait to cross the module, oldest first (R318) -/
  crossing : List Crossing
  engq : List Packet
  /-- SET_ROUTE_EPOCH command that waits for step 5 of Table 10.7 -/
  epochWaiter : Option Nat
  deriving DecidableEq, Repr, Inhabited

/-! ## Collectives and the update engine -/

/-- The states of a caravan (Table 11.5). -/
inductive CvState where
  | opening
  | running
  | waiting
  deriving DecidableEq, Repr, Inhabited

/-- A unit of a caravan (Table 11.2): its bytes, poison, and presence under thinning (R356). -/
structure CvUnit where
  bytes : List Byte
  poison : Bool
  present : Bool
  deriving DecidableEq, Repr, Inhabited

/-- DATA units that wait for the peer's READY, or for the units before them (R342, R344). -/
structure CvSend where
  dst : Nat
  stage : Nat
  seg : Nat
  off : Nat
  units : List CvUnit
  deriving DecidableEq, Repr, Inhabited

/-- The sums of the caravan tree (R348). -/
structure TreeSum where
  poison : Bool
  esc : Bool
  escBlocks : Nat
  poisonUnits : Nat
  deriving DecidableEq, Repr, Inhabited

/-- What the update engine takes a caravan for (R377, R388). -/
inductive CvRole where
  | plain
  | bucket (i : Nat)
  | commit
  | code
  deriving DecidableEq, Repr, Inhabited

/-- A unit being fetched into a slot of this member (Table 11.8, R369): its cycle, the slot's place in the path followed,
global slots written and read, the member it comes from, whether it restores a cycle in progress, whether READY has been
sent, sectors received and their poison. -/
structure Fetch where
  cycle : Nat
  pos : Nat
  slot : Nat
  src : Nat
  member : Nat
  restore : Bool
  asked : Bool
  got : Nat
  poison : Bool
  deriving DecidableEq, Repr, Inhabited

/-- A unit sent and not yet acknowledged: the receiving member, the packets left, its cycle, and the global slot it came
from when that slot's own step follows. -/
structure MoveOut where
  member : Nat
  left : Nat
  cycle : Nat
  slot : Option Nat
  deriving DecidableEq, Repr, Inhabited

/-- The PERMUTE part of a caravan (R364 to R369). -/
structure Permute where
  /-- entry g is the slot that the unit of slot g moves to -/
  table : List Nat
  cycles : List (List Nat)
  rolling : Bool
  /-- cycles done (forward) or not yet undone (rolling back), as this member knows them -/
  done : List Nat
  /-- cycles undone in this rollback -/
  undone : List Nat
  /-- cycles the coordinator has started in the present direction -/
  started : List Nat
  /-- cycles whose save slot here is filled, and own slots with a WRITE_INTENT (false) or WRITE_DONE (true) that stands -/
  saved : List Nat
  wrote : List (Nat × Bool)
  /-- cycles to lead once their save slot is free -/
  waitStart : List Nat
  /-- a SUSPEND stops the start of new cycles -/
  pause : Bool
  fetches : List Fetch
  outs : List MoveOut
  /-- the whole re-shard was cancelled: its rollback ends with ST_CANCELLED -/
  cancelled : Bool
  deriving DecidableEq, Repr, Inhabited

/-- A live caravan (R337). -/
structure Caravan where
  d : CollDesc
  handle : Nat
  ranks : List Nat
  me : Nat
  role : CvRole
  state : CvState
  check : W32
  /-- staging bytes reserved -/
  staging : Nat
  /-- own contribution, by unit of the caravan -/
  contrib : List CvUnit
  readyFrom : List Nat
  readySent : List Nat
  dataFrom : List Nat
  sends : List CvSend
  /-- units sent so far of one stage and segment to one member -/
  sent : Tbl Nat
  /-- DATA units still to be sent, output units still to be written, DATA packets unacknowledged -/
  toSend : Nat
  toWrite : Nat
  unacked : Nat
  /-- leaves of an owned ORDERED segment: key unit × M + member; units arrived by member; members granted -/
  leaves : Tbl Pair
  got : Tbl Nat
  granted : List Nat
  /-- lists of TOPK_GATHER received from children -/
  lists : List (List CvUnit)
  doneFrom : List Nat
  sums : TreeSum
  statusAsked : Bool
  perm : Option Permute
  deriving DecidableEq, Repr, Inhabited

/-- A caravan that has ended (R557). -/
structure Ended where
  id : Nat
  check : W32
  committed : Bool
  cause : Nat
  member : Nat
  sums : TreeSum
  coordinator : Bool
  ranks : List Nat
  deriving DecidableEq, Repr, Inhabited

/-- The CL block (11). -/
structure Cl where
  cfg : W32
  stagingBase : W64
  stagingSize : W64
  sel : W32
  faultLog : W64
  counts : Tbl W64
  held : Bool
  lost : Bool
  /-- CL_RESHARD.STATE, CYCLES_DONE, CYCLES_TOTAL -/
  rsState : Nat
  rsDone : Nat
  rsTotal : Nat
  caravans : List Caravan
  parked : List Packet
  ended : List Ended
  /-- caravans in OPENING that have joined the order for staging (R346), by ID -/
  order : List Nat
  /-- handle of the RESHARD recorded as started (R370, R534) -/
  rsHandle : Nat
  deriving DecidableEq, Repr, Inhabited

/-- The update engine (12). -/
structure Ue where
  table : W64
  recordBase : W64
  recordWords : W32
  codeBase : W64
  codeWords : W32
  step : Nat
  readCopy : Bool
  converting : Bool
  reinit : Bool
  commitFail : Bool
  poison : Bool
  faultLog : W64
  counts : Tbl W64
  /-- buckets committed in the attempt with M and the member index, and whether a code caravan has been posted in it -/
  committed : List (Nat × Nat × Nat)
  codePosted : Bool
  /-- maxima held for channel words of the step record whose bucket has not committed, by word (R387) -/
  chan : Tbl Nat
  /-- buckets being converted to working copies (R392), with M and the member index -/
  convert : List (Nat × Nat × Nat)
  /-- caravans whose contributions the rewriting of a new attempt waits for (R386), by ID -/
  waitFor : List Nat
  deriving DecidableEq, Repr, Inhabited

/-! ## Telemetry windows -/

/-- A TW record (Table 4.4): counts as `Cell.counts` orders them, with VALUES derived. -/
structure TwRec where
  seq : Nat
  tag : Nat
  phaseId : Nat
  fmt : Nat
  flags : Nat
  step : Nat
  stackSet : Nat
  counts : Tbl Nat
  deriving DecidableEq, Repr, Inhabited

/-- A phase's records being summed (R141): region, phase, cores that have ended, die totals (key 72 (16 die + f) + i), and as
16 die + f the formats a die drains to and those of which a counter of it saturated; dies added. -/
structure OpenRec where
  region : Nat
  phaseId : Nat
  cores : List Nat
  tot : Tbl Nat
  fmts : List Nat
  dies : BitVec 8
  sat : List Nat
  incomplete : Bool
  deriving DecidableEq, Repr, Inhabited

/-- The TW block (04). -/
structure Tw where
  head : Nat
  status : W64
  ring : List TwRec
  cum : Tbl TwRec
  opens : List OpenRec
  /-- latest COUNTER_SNAPSHOT (stack) and LANE_HEALTH (8 + stack) images -/
  images : Tbl Msg
  /-- activity counters of the stacks, key 8 × stack + field (Table 4.8) -/
  activity : Tbl Nat
  deriving DecidableEq, Repr, Inhabited

/-! ## Management: power, safety, security, debug, black box -/

/-- The power states (R438). -/
inductive PowerState where
  | p0
  | p1
  | p2
  | p3
  | p4
  deriving DecidableEq, Repr, Inhabited

/-- The PW block, clocks and power control (14). -/
structure Pw where
  state : PowerState
  commanded : Nat
  /-- a transition under way: target and the SET_POWER_STATE commands that wait for its end, by handle -/
  target : Option (PowerState × List Nat)
  p1Cap : Nat
  limitW : Nat
  meanW : Nat
  peakW : Nat
  loadClass : Nat
  band : Nat
  excursion : Bool
  coolant : Bool
  coolantGood : Nat
  overSamples : Nat
  /-- caps in MHz by die and source: key 8 × die + source (Table 14.12: 1 power loop, 2 P1, 3 thermal, 4 guard,
  5 safety monitor, 6 excursion, 7 droop); 0 stands for no cap -/
  caps : Tbl Nat
  /-- caps as the dies have them from THROTTLE messages, by die, 0 none, and the source of each (R34) -/
  ordered : Tbl Nat
  orderedBy : Tbl Nat
  freq : Tbl Nat
  hot : Tbl Int
  stretches : Tbl Nat
  /-- dies whose thermal cap still falls each period: 100 °C reached and not yet below 97 °C (Table 14.6) -/
  cooling : Tbl Bool
  droopHold : Tbl Nat
  guard : Bool
  recal : Bool
  recalTag : Nat × Nat
  usedClass : Nat
  usedBand : Nat
  stored : BitVec 9
  periods : Nat
  pll : Tbl W32
  sensors : Tbl Int
  refreshDouble : Tbl Bool
  bwHalf : Tbl Bool
  laser : Tbl W32
  heater : Tbl W64
  counts : Tbl W64
  inputOk : Bool
  undervolt : Bool
  /-- P4 was entered by every strapped port in D3cold (R441) -/
  floorOff : Bool
  refLost : Bool
  mcRestarting : Bool
  deriving DecidableEq, Repr, Inhabited

/-- The safety monitor and the SF block (15). -/
structure Sf where
  heartbeatOk : Bool
  selftestOk : Bool
  fuseClosed : Bool
  failed : Bool
  /-- SMCLK_KHZ as measured -/
  smclkKhz : Nat
  tripCause : Nat
  autoRestarts : Nat
  tripValue : Nat
  tripDie : Nat
  /-- a trip is under way or the module is in P4 after one -/
  tripped : Bool
  /-- causes that hold a port's line: key 8 × port + cause (Table 15.12) -/
  holds : Tbl Bool
  pilotA : BitVec 10
  pilotB : BitVec 10
  proof : BitVec 10
  mcEnable : BitVec 10
  fibreHigh : Tbl Bool
  fibreMax : Tbl Nat
  loopLow : Bool
  loopDriving : Bool
  loopStuck : Bool
  loopEvents : Nat
  counts : Tbl W64
  deriving DecidableEq, Repr, Inhabited

/-- The SC block and the security engine (16). -/
structure Sc where
  lifecycle : Nat
  next : Nat
  identity : Bool
  transitions : Nat
  level : Nat
  requested : Nat
  presenceWait : Bool
  scrubbing : Bool
  lastCause : Nat
  presenceLeft : Nat
  nonceValid : Bool
  nonce : BitVec 256
  vendorKey : List Byte
  fwKey : List Byte
  ownerCrb : List Byte
  ownerDbg : List Byte
  /-- owner digests a fused LC_DEPLOY brings in at the next cold reset (Table 16.4) -/
  nextCrb : List Byte
  nextDbg : List Byte
  /-- flash slots A and B: image bytes and state (0 empty, 1 valid, 2 invalid, 3 being written) -/
  slotA : List Byte
  slotB : List Byte
  stateA : Nat
  stateB : Nat
  /-- selector: slot named and write count of the copy in force -/
  selected : Nat
  selCount : Nat
  running : Nat
  fwVersion : Nat
  rollback : Nat
  fusesLeft : Nat
  bootFlags : W32
  fuse : Tbl W64
  counts : Tbl W64
  /-- SC_STAGE words the command processor has carried in -/
  stage : List Byte
  reportSeq : Nat
  /-- the unlock in progress: handle, requested level, authority, the token, whether a scrub is needed -/
  unlock : Option (Nat × Nat × Nat × List Byte × Bool)
  deriving DecidableEq, Repr, Inhabited

/-- The DB block (16). -/
structure Db where
  ctrl : W32
  snapBase : W64
  halted : BitVec 8
  snapValid : BitVec 8
  error : Nat
  mcuHalted : Bool
  mcuPc : W32
  traceHead : Nat
  /-- trace ring, newest first: sequence, period, KIND, ARG -/
  trace : List (Nat × Nat × Nat × Nat)
  deriving DecidableEq, Repr, Inhabited

/-- One host port's record latch (R521). -/
structure BbLatch where
  sel : W64
  state : W32
  image : List Byte
  deriving DecidableEq, Repr, Inhabited

/-- What the black box gathers over the open window (R517, R518, Table 17.6). -/
structure BbWindow where
  len : Nat
  powMin : Nat
  powSum : Nat
  powPeak : Nat
  hot : Tbl Int
  fMin : Tbl Nat
  fSum : Tbl Nat
  inletMax : Int
  outletMax : Int
  flowMin : Int
  dramHot : Int
  inState : Tbl Nat
  powHist : Tbl Nat
  hotHist : Tbl Nat
  guardPeriods : Nat
  guardMinCap : Nat
  guardMoves : Nat
  guardAtOpen : Bool
  /-- counters at the window's opening: PW_COUNT 1, 3, 4, 8, 5; telemetry gaps; pilot shutdowns; latch faults -/
  base : Tbl Nat
  /-- totals at opening: activity (0-6), per-format totals (16 f + 16 + k) and formats' FLAGS -/
  totals : Tbl Nat
  lampSeen : BitVec 10
  /-- events taken in the window's period, oldest first: code and body -/
  events : List (Nat × List Byte)
  deriving DecidableEq, Repr, Inhabited

/-- Two copies A and B of a part of the MRAM, each its GEN and content; none where its CRC fails (R513, R516). -/
structure Copies (α : Type) where
  a : Option (Nat × α)
  b : Option (Nat × α)
  deriving DecidableEq, Repr, Inhabited

/-- A control block copy (Table 17.3): COMMITTED_SEQ, RESHARD_OPEN, RESHARD_HANDLE. -/
structure BbCtrl where
  committed : Nat
  reshardOpen : Bool
  reshardHandle : Nat
  deriving DecidableEq, Repr, Inhabited

/-- A repair map copy (Table 17.4): cells, clusters, sub-channels. -/
structure RepairMap where
  cells : Tbl W32
  clusters : List W32
  subch : List W32
  deriving DecidableEq, Repr, Inhabited

/-- The black box (17). -/
structure Bb where
  /-- records by slot number: first area 0-16,383, last area 16,384 on; each 256 bytes -/
  slots : List (Nat × List Byte)
  committed : Nat
  reshardOpen : Bool
  reshardHandle : Nat
  /-- the copies of the control block and of the repair map in the MRAM (R513, R516) -/
  ctrl : Copies BbCtrl
  maps : Copies RepairMap
  ctrlRebuilt : Bool
  repairLost : Bool
  mramFault : Bool
  /-- writes of the MRAM so far: the model's own, numbers the free outcomes of R515 -/
  writes : Nat
  noteLost : Bool
  latchA : BbLatch
  latchB : BbLatch
  counts : Tbl W64
  note : List Byte
  notes : List (List Byte)
  window : BbWindow
  telemetryGaps : Nat
  latchFaults : Nat
  deriving DecidableEq, Repr, Inhabited

/-- One port's MG mailbox (R434). -/
structure Mbox where
  request : Nat
  status : W32
  data : Tbl W64
  deriving DecidableEq, Repr, Inhabited

/-- The MG block (13). -/
structure Mg where
  id : W64
  serial : W64
  fw : W64
  mboxA : Mbox
  mboxB : Mbox
  deriving DecidableEq, Repr, Inhabited

/-- The reset kinds (Table 18.1). -/
inductive ResetKind where
  | cold
  | warm
  | fabric
  deriving DecidableEq, Repr, Inhabited

/-- Reset and bring-up, straps and sideband (18, 19). -/
structure Rst where
  /-- the bring-up under way and its next step; none when bring-up has passed step 9 -/
  bringup : Option (ResetKind × Nat)
  /-- a warm reset's quiesce is under way (R532) -/
  quiesce : Bool
  recovery : Bool
  dataPlaneOn : Bool
  /-- bring-up step 6 has passed: data lasers are permitted (R528, R555) -/
  lasersPermitted : Bool
  lastStep : Nat
  ncA : Bool
  ncB : Bool
  smbAddr : Nat
  smbOff : Nat
  mateHigh : Bool
  warmCause : Nat
  fromP3 : Bool
  /-- P4 after a supply failed to ramp at step 3 (Table 18.4) -/
  supplyFail : Bool
  deriving DecidableEq, Repr, Inhabited

/-- The surroundings at the module's interfaces, and what the module has put out there (log entry 6). -/
structure Env where
  hostA : List Host.Cell
  hostB : List Host.Cell
  /-- poison marks the device wrote into host memory, by 32-byte sector: key 2 × sector + port -/
  hostPoison : Tbl Bool
  msix : List (Nat × Nat)
  /-- read replies: port, tag, value -/
  replies : List (Nat × W32 × W64)
  /-- BAR4 read replies: port, data, EP bit -/
  bar4 : List (Nat × List Byte × Bool)
  /-- packets whose last flit has left: port, packet, bad flit, the physical lanes of its logical lanes (R295) -/
  wire : List (Nat × Packet × Bool × List Nat)
  /-- credits returned in link-control words: port, VC, flits (R314) -/
  credits : List (Nat × Nat × Nat)
  /-- pilot frames sent: port, bytes (R297) -/
  pilots : List (Nat × List Byte)
  smbus : List (List Byte)
  jtag : List W64
  deriving DecidableEq, Repr, Inhabited

/-- The state of the module. -/
structure State where
  pending : List Instr
  freeCtr : Nat
  cells : Tbl Cell
  cores : Tbl Core
  mem : Mem
  fb : Fb
  ws : Ws
  cp : Cp
  lk : Lk
  cl : Cl
  ue : Ue
  tw : Tw
  pw : Pw
  sf : Sf
  sc : Sc
  db : Db
  bb : Bb
  mg : Mg
  rst : Rst
  env : Env
  deriving DecidableEq, Repr

/-! ## Reset

`State.reset` is the module right after a cold reset, before bring-up step 1 (R524, R528, Table 18.2): every register
at the Reset column of its table.  Values the spec does not give: log entries 4 and 5. -/

/-- The idle context (R209): it reads nothing and writes nothing. -/
def Ctx.idle : Ctx :=
  { region := 0, cls := 0, reverse := false, tile := 0, wide := 0, bank := 0, chain := [], drain := 0, routes := [],
    rdBase := 0, wrBase := 0 }

/-- A cell after reset (R63, R209, R551, Table 18.2). -/
def Cell.reset : Cell :=
  { banks := [], q := [], qPoison := [], ctxs := [], active := 0, table := [], counts := [], tile := [], kDone := 0,
    grads := [], gradBlock := 0, red := [], topkSeen := 0, topkHeld := 0, inq := [], merge := [], redq := [],
    wideq := [], chainN := 0,
    drainN := 0, rdPos := 0, wrPos := 0 }

/-- A core after reset (R551, Table 18.2; log entry 4). -/
def Core.reset : Core :=
  { g := [], gp := [], f := [], fp := [], pc := 0, running := false, ended := false, fault := none, imem := [],
    section_ := (0, 0), dmem := [], dmemP := [], tshadow := [], tshadowP := [], tlive := [], tliveP := [], perm := [], region := 0,
    step := 0, tag := 0, streams := [], moves := [], psync := 0, psyncWait := false, phase := none, lastPhase := 0,
    lastPoisoned := false, sfCause := 0, sfIndex := 0, sfCount := 0, tot := [], portOut := [], stretched := false }

/-- MC_SUBCH_MAP after manufacture: logical equals physical, 30 and 31 spare, no failed pin (R292, Table 9.8). -/
def subchIdentity : List W32 :=
  (List.range 256).map fun i =>
    let p := i % 32
    BitVec.ofNat 32 ((if p < 30 then p else 31 + 32) + 31 * 256)

/-- Device memory and MC registers after cold reset (R285, R293). -/
def Mem.reset : Mem :=
  { bytes := [], poison := [], stale := [], scrubbed := none, ready := false, initRunning := false,
    retainedValid := false, gen := 1, bar4Base := 0, patrol := 0x1F01, retireCtrl := 256, errLog := 0, counts := [],
    hostFault := 0, subch := subchIdentity, pinLog := [], retires := [], patrolPtr := [], selfRefresh := false,
    heldWrites := [], moved := [], moveTurn := [], corrected := 0, copies := [] }

/-- FB_CLUSTER_MAP with no fused failure: physical clusters 0-149 of a die serve the same logical numbers, 150-155 are
spare (Table 5.3; log entry 5). -/
def clusterMapFused : List W32 :=
  (List.range 1248).map fun i =>
    let p := i % 156
    BitVec.ofNat 32 (if p < 150 then p else 0xFF + 256)

/-- FB_STACK_CAPACITY with no fused failure: ACTIVE 150, SPARES 6 (R170, Table 5.4; log entry 5). -/
def capacityFused : List W32 := List.replicate 8 (BitVec.ofNat 32 (150 + 6 * 256))

/-- The FB block after cold reset (Tables 7.19 to 7.25; R209, R227, R235). -/
def Fb.reset : Fb :=
  { lastCheck := 0, lastHandle := 0, loadFault := 0, loadCount := 0, authCtrl := 0, ownerDigest := [], job := 0,
    jobSeed := 0, regions := [], loads := [], cellRepair := [], clusterMap := clusterMapFused,
    capacity := capacityFused, powerDie := [], powerModule := 0, runs := [], waits := [], switchWaits := [],
    fusedCell := [], failed := [], fusedCluster := clusterMapFused }

/-- The waystations after a restart (R38). -/
def Ws.reset : Ws :=
  { down := [], up := [], tele := [], inter := [], standbyDown := [], standbyUp := [], waitDown := [],
    waitUp := [], waitInter := [], waitTele := [], seqs := [], held := [], ni := [], unacked := [], sent := [],
    regsOut := [], haltMc := 0, haltDebug := 0, haltSm := false,
    portMc := 0, portSm := 0, startHeld := false }

/-- One port's share of the CP block after a reset of the port (R437). -/
def PortCp.reset : PortCp :=
  { sqNext := 0, resets := 0, slots := [], cqBase := 0, cqEntries := 6, cqHead := 0, cqTail := 0, eventCfg := 0, faultCnt := [],
    poisonMap := [], msixAddr := [], msixData := [], pba := 0, pend := [], runsOn := [], records := [], events := [], lost := false,
    fenced := [], linkUp := false, dState := 0, perstLow := false, d3cold := false }

/-- The CP block after cold reset (Tables 13.17 to 13.22). -/
def Cp.reset : Cp :=
  { a := PortCp.reset, b := PortCp.reset, holder := 0, cause := 0, stewardCfg := 0, leaseLeft := 0, claims := [], longops := [],
    remembered := [], plain := [], accepting := false, resetDue := false }

/-- A lane after reset (Table 10.13). -/
def Lane.reset : Lane := { role := 18, grade := 0, worst := 7, moves := 0, low := 0 }

/-- An optical port after cold reset (Tables 10.10 to 10.13, R480). -/
def Port.reset : Port :=
  { state := .dark, farValid := false, farRank := 0, farPort := 0, farDir := 0xF, dir := 0xF, narrow := false,
    wideRoles := [], relight := 0, txLanes := [], lastFrame := none,
    fault := 0, cfg := 0x00641100, lanes := List.replicate 20 Lane.reset, cnt := [], farReady := false,
    farDraining := false, farState := 0, lastId := none, autoAdmit := false, fromP3 := false, move := none,
    txMove := none, egress := [], used := [], waiters := [], pressed := false, lamp := .off, lampBefore := .off,
    flash := 0, darkRead := false,
    touched := false, touchIgnored := false, badFrame := false, frameCount := 0, fec := [], uncorr := 0, presses := 0,
    touches := 0, pilotLosses := 0, lampChanges := 0 }

/-- LK_E2E_CFG at reset (Table 10.17): WINIT 64, WMIN 1, WMAX 512, AI 1, MD_SHIFT 1, RTO 100, ACK_COALESCE 4. -/
def e2eReset : W64 :=
  BitVec.ofNat 64 (64 + 1 * 2 ^ 10 + 512 * 2 ^ 20 + 1 * 2 ^ 30 + 1 * 2 ^ 34 + 100 * 2 ^ 36 + 4 * 2 ^ 50)

/-- LK_ROUTE_BANK at reset (Table 10.18): DETOUR all none. -/
def bankReset : W64 := BitVec.ofNat 64 (0xFFFFFFFF * 2 ^ 16)

/-- The LK block after cold reset (Tables 10.9 to 10.20; R329). -/
def Lk.reset : Lk :=
  { ports := List.replicate 10 Port.reset, rank := 0, torus := 0xFFFF, epoch := 0, prevEpoch := 0, prevLive := false,
    bank0 := bankReset, bank1 := bankReset, e2e := e2eReset, peerErrLog := 0, destSel := 0, drops := [], fences := [],
    peers := [], rxq := [], crossing := [], engq := [], epochWaiter := none }

/-- The CL block after cold reset (Tables 11.10 to 11.17; R373). -/
def Cl.reset : Cl :=
  { cfg := 1000, stagingBase := 0, stagingSize := 0, sel := 0, faultLog := 0, counts := [], held := false, lost := false,
    rsState := 0, rsDone := 0, rsTotal := 0, caravans := [], parked := [], ended := [],
    order := [], rsHandle := 0 }

/-- The update engine after reset (Tables 12.6 to 12.13; R397). -/
def Ue.reset : Ue :=
  { table := 0, recordBase := 0, recordWords := 0, codeBase := 0, codeWords := 0, step := 0, readCopy := false,
    converting := false, reinit := false, commitFail := false, poison := false, faultLog := 0, counts := [],
    committed := [], codePosted := false, chan := [], convert := [], waitFor := [] }

/-- The TW block after reset (R149). -/
def Tw.reset : Tw :=
  { head := 0, status := 0, ring := [], cum := [], opens := [], images := [], activity := [] }

/-- The PW block after cold reset (Tables 14.7 to 14.15). -/
def Pw.reset : Pw :=
  { state := .p0, commanded := 0, target := none, p1Cap := 2700, limitW := 2000, meanW := 0, peakW := 0, loadClass := 0,
    band := 0, excursion := false, coolant := false, coolantGood := 0, overSamples := 0, caps := [], ordered := [], orderedBy := [],
    freq := [], hot := [], stretches := [], cooling := [], droopHold := [], guard := false, recal := false, recalTag := (0, 0),
    usedClass := 0, usedBand := 0, stored := 7, periods := 0, pll := [], sensors := [], refreshDouble := [],
    bwHalf := [], laser := [], heater := [], counts := [], inputOk := true, undervolt := false, floorOff := false,
    refLost := false, mcRestarting := false }

/-- The safety monitor and SF block as they stand at a first power-on (Tables 15.9 to 15.13; retained fields zero, log
entry 5). -/
def Sf.reset : Sf :=
  { heartbeatOk := false, selftestOk := false, fuseClosed := false, failed := false, smclkKhz := 0, tripCause := 0,
    autoRestarts := 0, tripValue := 0, tripDie := 0, tripped := false, holds := [], pilotA := 0, pilotB := 0, proof := 0,
    mcEnable := 0, fibreHigh := [], fibreMax := [], loopLow := false, loopDriving := false, loopStuck := false,
    loopEvents := 0, counts := [] }

/-- The SC block after cold reset: PROVISIONED, as modules leave manufacture (R492); fused values of log entry 5. -/
def Sc.reset : Sc :=
  { lifecycle := 1, next := 1, identity := true, transitions := 0, level := 0, requested := 0, presenceWait := false,
    scrubbing := false, lastCause := 0, presenceLeft := 0, nonceValid := false, nonce := 0, vendorKey := Config.fusedKey 0,
    fwKey := Config.fusedKey 1,
    ownerCrb := [], ownerDbg := [], nextCrb := [], nextDbg := [], slotA := Config.factorySlot 0,
    slotB := Config.factorySlot 1, stateA := 0, stateB := 0, selected := 0, selCount := 0,
    running := 0, fwVersion := 0, rollback := 0, fusesLeft := 0, bootFlags := 0, fuse := [], counts := [], stage := [],
    reportSeq := 0, unlock := none }

/-- The DB block after cold reset (Tables 16.18 to 16.20). -/
def Db.reset : Db :=
  { ctrl := 0, snapBase := 0, halted := 0, snapValid := 0, error := 0, mcuHalted := false, mcuPc := 0,
    traceHead := 0, trace := [] }

/-- A record latch after reset (R521, Tables 17.11, 17.12). -/
def BbLatch.reset : BbLatch := { sel := 0, state := 0, image := [] }

/-- An empty window (R517). -/
def BbWindow.empty : BbWindow :=
  { len := 0, powMin := 0, powSum := 0, powPeak := 0, hot := [], fMin := [], fSum := [], inletMax := 0, outletMax := 0,
    flowMin := 0, dramHot := 0, inState := [], powHist := [], hotHist := [], guardPeriods := 0, guardMinCap := 0,
    guardMoves := 0, guardAtOpen := false, base := [], totals := [], lampSeen := 0, events := [] }

/-- The MRAM at a first power-on: no record, a control block and a repair map that say so (log entry 5). -/
def Copies.ctrlReset : Copies BbCtrl := { a := some (0, { committed := 0, reshardOpen := false, reshardHandle := 0 }), b := none }
def Copies.mapsReset : Copies RepairMap :=
  { a := some (0, { cells := [], clusters := clusterMapFused, subch := subchIdentity }), b := none }

/-- The black box at a first power-on (log entry 5). -/
def Bb.reset : Bb :=
  { slots := [], committed := 0, reshardOpen := false, reshardHandle := 0, ctrl := Copies.ctrlReset,
    maps := Copies.mapsReset, ctrlRebuilt := false, repairLost := false, mramFault := false, writes := 0, noteLost := false,
    latchA := BbLatch.reset, latchB := BbLatch.reset, counts := [], note := [], notes := [], window := BbWindow.empty,
    telemetryGaps := 0, latchFaults := 0 }

/-- A mailbox after reset (Tables 13.13 to 13.15). -/
def Mbox.reset : Mbox := { request := 0, status := 0, data := [] }

/-- The MG block: identity with VARIANT 0x01 (R1), the rest fused zero (log entry 5). -/
def Mg.reset : Mg := { id := BitVec.ofNat 64 (2 ^ 40), serial := 0, fw := 0, mboxA := Mbox.reset, mboxB := Mbox.reset }

/-- Bring-up about to run its step 1 after a cold reset (R524, R528). -/
def Rst.reset : Rst :=
  { bringup := some (.cold, 1), quiesce := false, recovery := false, dataPlaneOn := false, lasersPermitted := false,
    lastStep := 0, ncA := false, ncB := false, smbAddr := 0, smbOff := 0, mateHigh := false, warmCause := 0,
    fromP3 := false, supplyFail := false }

/-- The surroundings before anything has passed the module's interfaces (log entry 6). -/
def Env.reset : Env :=
  { hostA := [], hostB := [], hostPoison := [], msix := [], replies := [], bar4 := [], wire := [],
    credits := [], pilots := [], smbus := [], jtag := [] }

/-- The module right after a cold reset, with no command waiting (R524). -/
def State.reset : State :=
  { pending := [], freeCtr := 0, cells := [], cores := [], mem := Mem.reset, fb := Fb.reset, ws := Ws.reset,
    cp := Cp.reset, lk := Lk.reset, cl := Cl.reset, ue := Ue.reset, tw := Tw.reset, pw := Pw.reset, sf := Sf.reset,
    sc := Sc.reset, db := Db.reset, bb := Bb.reset, mg := Mg.reset, rst := Rst.reset, env := Env.reset }

end Sys2Proof.Machine
end

