-- ==== Sys2Proof/Machine/Tbl.lean ====
section
/-!
DEFINITION. Sparse tables: reading, writing, and the canonical form (keys strictly rising, no entry equal to what an
absent key reads as), so that equal tables are equal data.
-/

namespace Sys2Proof.Machine

open Sys2Proof

/-- The value at key `k`; `d` where no entry stands. -/
def tget {α : Type} (d : α) : Tbl α → Nat → α
  | [], _ => d
  | (j, v) :: r, k => if j = k then v else tget d r k

/-- Writes `v` at `k`: the entries before, the new one unless it is the default, the entries after. -/
def tput {α : Type} [DecidableEq α] (d : α) (t : Tbl α) (k : Nat) (v : α) : Tbl α :=
  (t.filter fun e => decide (e.1 < k)) ++ ((if v = d then [] else [(k, v)]) ++ t.filter fun e => decide (k < e.1))

/-- Whether every key is at least `lo`, keys rise strictly and no value is the default. -/
def twfFrom {α : Type} [DecidableEq α] (d : α) : Nat → Tbl α → Bool
  | _, [] => true
  | lo, (k, v) :: r => decide (lo ≤ k) && decide (v ≠ d) && twfFrom d (k + 1) r

/-- The canonical form. -/
def twf {α : Type} [DecidableEq α] (d : α) (t : Tbl α) : Bool := twfFrom d 0 t

/-- Adds `n` to a count. -/
def tadd (t : Tbl Nat) (k n : Nat) : Tbl Nat := tput 0 t k (tget 0 t k + n)

/-- Adds `n` to a 64-bit count that wraps. -/
def taddW (t : Tbl W64) (k : Nat) (n : Nat) : Tbl W64 := tput 0 t k (tget 0 t k + BitVec.ofNat 64 n)

/-- Adds `n` to a 64-bit count that saturates. -/
def taddSat (t : Tbl W64) (k : Nat) (n : Nat) : Tbl W64 :=
  tput 0 t k (BitVec.ofNat 64 (Nat.min (2 ^ 64 - 1) ((tget 0 t k).toNat + n)))

/-- Drops every entry whose key fails `keep`. -/
def tfilter {α : Type} (keep : Nat → Bool) (t : Tbl α) : Tbl α := t.filter fun e => keep e.1

/-- Element `i` of a list, with a default. -/
def lget {α : Type} (d : α) (l : List α) (i : Nat) : α := (l[i]?).getD d

/-- Appends `v` to the queue at key `k`. -/
def tpush {α : Type} [DecidableEq α] (t : Tbl (List α)) (k : Nat) (v : α) : Tbl (List α) :=
  tput [] t k (tget [] t k ++ [v])

/-- Replaces the first element that satisfies `p`. -/
def lupdate {α : Type} (p : α → Bool) (f : α → α) : List α → List α
  | [] => []
  | x :: r => if p x then f x :: r else x :: lupdate p f r

/-- Removes the first element that satisfies `p`. -/
def lremove {α : Type} (p : α → Bool) : List α → List α
  | [] => []
  | x :: r => if p x then r else x :: lremove p r

end Sys2Proof.Machine
end

