-- ==== Sys2Proof/Machine/Ops.lean ====
section
/-!
DEFINITION. The named operations over registers, memory, waystation queues and completions that the meanings share.
-/

namespace Sys2Proof.Machine

open Sys2Proof

/-- What a step answers. -/
abbrev Out := Host.Outcome State Fault Refusal

/-- Answers the next state when the command names units the module has (R5), and the model's one fault otherwise. -/
def guardUnit (ok : Bool) (s : State) : Out := if ok then .next s else .fault .noSuchUnit

/-- The effect when the event's condition holds; nothing happens otherwise (log entry 11). -/
def whenTaken (cond : Bool) (f : State → State) (s : State) : State := if cond then f s else s

/-! ### Little-endian numbers (R8) -/

/-- The number a byte list holds, least significant byte first. -/
def leNat : List Byte → Nat
  | [] => 0
  | b :: r => b.toNat + 256 * leNat r

/-- `n` bytes of a number, least significant first. -/
def leBytes : Nat → Nat → List Byte
  | 0, _ => []
  | n + 1, v => BitVec.ofNat 8 v :: leBytes n (v / 256)

/-- Bits hi:lo of a number. -/
def bitsOf (v hi lo : Nat) : Nat := v / 2 ^ lo % 2 ^ (hi + 1 - lo)

/-- Bits hi:lo of a 64-bit word. -/
def bits64 (v : W64) (hi lo : Nat) : Nat := bitsOf v.toNat hi lo

/-- A signed field of `w` bits. -/
def signedOf (w v : Nat) : Int := if v % 2 ^ w < 2 ^ (w - 1) then (v % 2 ^ w : Nat) else ((v % 2 ^ w : Nat) : Int) - 2 ^ w

/-- A Boolean as a bit. -/
def b2n (b : Bool) : Nat := if b then 1 else 0

/-- Fields packed from bit 0 up: width in bits and value of each (R8). -/
def packed : List (Nat × Nat) → Nat
  | [] => 0
  | (w, v) :: r => v % 2 ^ w + 2 ^ w * packed r

/-- Pads or cuts a byte list to `n` bytes. -/
def padTo (n : Nat) (l : List Byte) : List Byte := (l ++ List.replicate n 0).take n

/-- Bytes `off` to `off + n - 1` of a list, zero beyond its end. -/
def slice (l : List Byte) (off n : Nat) : List Byte := padTo n (l.drop off)

/-- The little-endian field of `n` bytes at `off`. -/
def field (l : List Byte) (off n : Nat) : Nat := leNat (slice l off n)

/-- Replaces the bytes from `off` on. -/
def splice (l : List Byte) (off : Nat) (b : List Byte) : List Byte :=
  padTo off l ++ b ++ l.drop (off + b.length)

/-! ### Units (R5, R17) -/

/-- The die of a logical cluster, a core, a global cell. -/
def dieOfCluster (c : Nat) : Nat := c / 150
def dieOfCore (c : Nat) : Nat := c / 600
def dieOfCell (c : Nat) : Nat := c / 12000

def getCell (s : State) (i : Nat) : Cell := tget Cell.reset s.cells i
def setCell (s : State) (i : Nat) (c : Cell) : State := { s with cells := tput Cell.reset s.cells i c }
def getCore (s : State) (i : Nat) : Core := tget Core.reset s.cores i
def setCore (s : State) (i : Nat) (c : Core) : State := { s with cores := tput Core.reset s.cores i c }
def modCore (s : State) (i : Nat) (f : Core → Core) : State := setCore s i (f (getCore s i))
def modCell (s : State) (i : Nat) (f : Cell → Cell) : State := setCell s i (f (getCell s i))

def getPort (s : State) (p : Nat) : Port := lget Port.reset s.lk.ports p
def setPort (s : State) (p : Nat) (v : Port) : State := { s with lk := { s.lk with ports := s.lk.ports.set p v } }
def modPort (s : State) (p : Nat) (f : Port → Port) : State := setPort s p (f (getPort s p))

/-- The banked CP registers of port A (0) or B. -/
def getCp (s : State) (port : Nat) : PortCp := if port = 0 then s.cp.a else s.cp.b
def setCp (s : State) (port : Nat) (v : PortCp) : State :=
  { s with cp := if port = 0 then { s.cp with a := v } else { s.cp with b := v } }
def modCp (s : State) (port : Nat) (f : PortCp → PortCp) : State := setCp s port (f (getCp s port))

/-- Counts one in CP_FAULT_CNT[k] of a port (Table 13.17). -/
def countCpFault (s : State) (port k : Nat) : State :=
  modCp s port fun c => { c with faultCnt := taddW c.faultCnt k 1 }

/-- Whether the halt line holds a die: either copy of the line, or the hold of R38 (R29). -/
def dieHalted (s : State) (die : Nat) : Bool := s.ws.haltMc.getLsbD die || s.ws.haltSm || s.ws.startHeld

/-- Whether either copy of a port's shutdown line is asserted; the latch drives the management copy (R29, R35, R481). -/
def lineHeld (s : State) (p : Nat) : Bool := s.ws.portMc.getLsbD p || s.ws.portSm.getLsbD p || (getPort s p).touched

/-- Whether the safety monitor holds a port's line for a cause of Table 15.12: 1 proof, 2 fibre power, 3 heartbeat,
4 trip. -/
def smHolds (s : State) (p cause : Nat) : Bool := tget false s.sf.holds (8 * p + cause)

/-- Whether port `port` (0 A, 1 B) holds the steward token (R413). -/
def holdsToken (s : State) (port : Nat) : Bool := s.cp.holder == port + 1

/-! ### Free values -/

/-- Draws the next free value (log entry 3). -/
def drawFree (s : State) : Nat × State := (Config.freeNat s.freeCtr, { s with freeCtr := s.freeCtr + 1 })

/-! ### Device memory (R263) -/

/-- The kinds of device address (Table 9.2). -/
inductive AddrKind where
  | job
  | retained
  | clusterStore
  | cellStore
  | register
  | reserved
  deriving DecidableEq, Repr

def retainedBase : Nat := 0x00EF00000000
def dramEnd : Nat := 0x00F000000000
def clusterStoreBase : Nat := 0x010000000000
def clusterStoreEnd : Nat := 0x010096000000
def cellStoreBase : Nat := 0x014000000000
def cellStoreEnd : Nat := 0x01405DC00000
def registerBase : Nat := 0x01F000000000
def registerEnd : Nat := 0x01F004000000

/-- What a device address names (Table 9.2). -/
def addrKind (a : Nat) : AddrKind :=
  if a < retainedBase then .job
  else if a < dramEnd then .retained
  else if clusterStoreBase ≤ a && a < clusterStoreEnd then .clusterStore
  else if cellStoreBase ≤ a && a < cellStoreEnd then .cellStore
  else if registerBase ≤ a && a < registerEnd then .register
  else .reserved

/-- Whether an address is in DRAM. -/
def isDram (a : Nat) : Bool := decide (a < dramEnd)

/-- Whether an address is memory: DRAM, a cluster store or a cell store. -/
def isMemory (a : Nat) : Bool :=
  match addrKind a with
  | .job => true
  | .retained => true
  | .clusterStore => true
  | .cellStore => true
  | _ => false

/-- First byte of a cluster store and of a cell store (Table 9.2). -/
def clusterStoreAt (cluster : Nat) : Nat := clusterStoreBase + cluster * 0x200000
def cellStoreAt (cell : Nat) : Nat := cellStoreBase + cell * 0x4000

/-- The canonical form of device memory: addresses strictly rising, and no byte equal to what an unlisted address reads as. -/
abbrev Memory.wf (m : List Host.Cell) : Bool := twf 0 m

/-- The byte at a device address; an unlisted byte is zero (R285, Table 18.2). -/
def readByte (s : State) (a : Nat) : Byte := tget 0 s.mem.bytes a

/-- `n` bytes from a device address up. -/
def readBytes (s : State) (a n : Nat) : List Byte := (List.range n).map fun i => readByte s (a + i)

/-- Writes one byte. -/
def writeByte (s : State) (a : Nat) (b : Byte) : State := { s with mem := { s.mem with bytes := tput 0 s.mem.bytes a b } }

/-- Writes bytes from a device address up. -/
def writeBytes (s : State) (a : Nat) : List Byte → State
  | [] => s
  | b :: r => writeBytes (writeByte s a b) (a + 1) r

/-- The poison flag of the sector that holds an address (R95, R269). -/
def sectorPoison (s : State) (a : Nat) : Bool := tget false s.mem.poison (a / 32)

/-- Sets or clears a sector's poison flag. -/
def setSectorPoison (s : State) (a : Nat) (v : Bool) : State :=
  { s with mem := { s.mem with poison := tput false s.mem.poison (a / 32) v } }

/-- The ownership tag of a DRAM sector (R271): the expected tag unless the sector is marked otherwise, or the SCRUB pass
has not reached it. The retained region bears tag 0xF. -/
def expectedTag (s : State) (a : Nat) : Nat := if a < retainedBase then s.mem.gen else 15

/-- Whether an open or abandoned SCRUB pass has yet to reach a sector of job memory (R287, R536). -/
def unscrubbed (s : State) (sec : Nat) : Bool :=
  match s.mem.scrubbed with
  | some n => decide (n ≤ sec) && decide (32 * sec < retainedBase)
  | none => false

/-- The generation before the one in force (R287). -/
def prevGen (s : State) : Nat := if s.mem.gen = 1 then 14 else s.mem.gen - 1

/-- The tag a sector bears (R271).  In `stale`, 16 marks a sector written since, beyond the point an open SCRUB pass has reached,
and 32 a sector whose tag is 0. -/
def tagNow (s : State) (a : Nat) : Nat :=
  let t := tget 0 s.mem.stale (a / 32)
  if t = 16 then expectedTag s a
  else if t = 32 then 0
  else if t ≠ 0 then t
  else if unscrubbed s (a / 32) then prevGen s else expectedTag s a

/-- Gives a sector a tag. -/
def putTag (s : State) (a t : Nat) : State :=
  let v := if t = expectedTag s a then (if unscrubbed s (a / 32) then 16 else 0) else if t = 0 then 32 else t
  { s with mem := { s.mem with stale := tput 0 s.mem.stale (a / 32) v } }

/-- Whether reading a DRAM sector is a tag fault: it does not bear the tag expected at its address (R271, R287). -/
def tagFault (s : State) (a : Nat) : Bool := isDram a && tagNow s a != expectedTag s a

/-- Adds to MC_COUNT[stack][k]. -/
def countMem (s : State) (stack k n : Nat) : State :=
  { s with mem := { s.mem with counts := taddW s.mem.counts (4 * stack + k) n } }

/-- The logical sub-channel of a DRAM address: its stack and its number within the controller (R265). -/
def subOf (a : Nat) : Nat × Nat := (a / 4096 % 8, a / 4096 / 8 % 30)

/-- The MC_SUBCH_MAP entry, by index, that serves a logical sub-channel of a stack (Table 9.12). -/
def subEntry (s : State) (stack sub : Nat) : Option Nat :=
  (List.range 32).find? fun p =>
    let e := (lget 0 s.mem.subch (stack * 32 + p)).toNat
    let st := bitsOf e 7 5
    bitsOf e 4 0 == sub && st != 1 && st != 4 && st != 5

/-- Whether an address lies on a dead sub-channel (R278). -/
def deadSub (s : State) (a : Nat) : Bool :=
  isDram a &&
    match subEntry s (subOf a).1 (subOf a).2 with
    | some p => bitsOf (lget 0 s.mem.subch ((subOf a).1 * 32 + p)).toNat 7 5 == 6
    | none => false

/-- Gives a sector its expected tag, as every write does (R271). -/
def retag (s : State) (a : Nat) : State := putTag s a (expectedTag s a)

/-- Records the first DRAM fault since VALID was cleared in MC_ERR_LOG: 1 uncorrectable, 2 tag fault, 3 dead
(Table 9.11). -/
def logMemError (s : State) (a kind : Nat) : State :=
  if s.mem.errLog.getLsbD 63 then s
  else
    let n := a / 4096
    let l := n % 8 * 30 + n / 8 % 30
    let v := BitVec.ofNat 64 (a / 32 * 32 % 2 ^ 48 + l * 2 ^ 48 + kind * 2 ^ 56 + 2 ^ 63)
    { s with mem := { s.mem with errLog := v } }

/-- A stack's controller moves the 32 data bytes of a DRAM sector (DRAM_LINES, Table 4.8; log entry 111). -/
def countLine (s : State) (a : Nat) : State :=
  if isDram a then { s with mem := { s.mem with moved := tadd s.mem.moved (subOf a).1 32 } } else s

/-- A controller's account of a read of a sector by any client: its data bytes count, and a tag fault, or a read on a dead
sub-channel, is counted and logged (R150, R271, R278). -/
def noteRead (s0 : State) (a : Nat) : State :=
  let s := countLine s0 a
  if deadSub s a then logMemError (countMem s (subOf a).1 3 1) a 3
  else if tagFault s a then logMemError (countMem s (subOf a).1 2 1) a 2
  else s

/-- Writes bytes that lie in one sector: a whole sector takes the data and the poison mark given; a part leaves a poisoned or
tag-faulted sector poisoned, and in DRAM the rest of it zero, its read being accounted for (R95, R189, R262).  A write to a dead
sub-channel is discarded and counted, and one to no memory is discarded (R278, R282). -/
def writeSector (s : State) (a : Nat) (bs : List Byte) (poison : Bool) : State :=
  if deadSub s a then countMem s (subOf a).1 3 1
  else if !isMemory a then s else
  let base := a / 32 * 32
  let whole := decide (a = base) && decide (bs.length = 32)
  let wasP := sectorPoison s a || tagFault s a
  let s0 := if whole then s else noteRead s a
  let s1 := if whole || !wasP || !isDram a then s0 else writeBytes s0 base (List.replicate 32 0)
  let p := poison || (wasP && !whole)
  let s2 := setSectorPoison (writeBytes s1 a (if poison then List.replicate bs.length 0 else bs)) a p
  if isDram a then countLine (retag s2 a) a else s2

/-- Splits a range at sector boundaries: address and length of each piece. -/
def sectorPieces (a : Nat) : Nat → Nat → List (Nat × Nat)
  | 0, _ => []
  | _, 0 => []
  | fuel + 1, n =>
    let k := Nat.min n (32 - a % 32)
    (a, k) :: sectorPieces (a + k) fuel (n - k)

/-- The account of the reads of a range, sector by sector. -/
def noteReads (s : State) (a n : Nat) : State := (sectorPieces a n n).foldl (fun st p => noteRead st p.1) s

/-- Writes bytes of any length, sector by sector (R262). -/
def writeMem (s : State) (a : Nat) (bs : List Byte) : State :=
  (sectorPieces a bs.length bs.length).foldl
    (fun st p => writeSector st p.1 (slice bs (p.1 - a) p.2) false) s

/-- Writes bytes sector by sector with one poison mark. -/
def writePieces (s : State) (a : Nat) (bs : List Byte) (poison : Bool) : State :=
  (sectorPieces a bs.length bs.length).foldl (fun t p => writeSector t p.1 (slice bs (p.1 - a) p.2) poison) s

/-- A write by an agent that is no writer of the journal: bytes of the retained region are not written (R268). -/
def writeJob (s : State) (a : Nat) (bs : List Byte) : State :=
  (sectorPieces a bs.length bs.length).foldl
    (fun st p => if addrKind p.1 = .retained then st else writeSector st p.1 (slice bs (p.1 - a) p.2) false) s

/-- Whether a read of an address delivers poison: the sector's flag, a tag fault, a dead sub-channel, or no memory there
(R264, R271, R278, R280). -/
def readFaults (s : State) (a : Nat) : Bool := !isMemory a || sectorPoison s a || tagFault s a || deadSub s a

/-- A sector as a reader sees it: zeros and a fault mark where it faults (R280). -/
def readSector (s : State) (a : Nat) : List Byte × Bool :=
  let base := a / 32 * 32
  if readFaults s a then (List.replicate 32 0, true) else (readBytes s base 32, false)

/-- Counts a discarded or zero-filled host access in MC_HOST_FAULT (R268, R288, R290). -/
def countHostFault (s : State) : State := { s with mem := { s.mem with hostFault := s.mem.hostFault + 1 } }

/-! ### Host memory (log entry 6) -/

def hostRead (s : State) (port a n : Nat) : List Byte :=
  (List.range n).map fun i => tget 0 (if port = 0 then s.env.hostA else s.env.hostB) (a + i)

def hostWrite (s : State) (port a : Nat) (bs : List Byte) : State :=
  let put := fun (m : List Host.Cell) => ((List.range bs.length).zip bs).foldl (fun t p => tput 0 t (a + p.1) p.2) m
  { s with env := if port = 0 then { s.env with hostA := put s.env.hostA } else { s.env with hostB := put s.env.hostB } }

/-! ### Waystation queues (R20 to R26) -/

/-- The SEQ of the next message of a queue: 0 down, 1 up, 2 telemetry, 3 interlock, 4, 5 the standby pair. -/
def nextSeq (s : State) (q : Nat) : Nat := tget 0 s.ws.seqs q

/-- Counts a message into a queue's SEQ, modulo 2^32 (Table 1.3). -/
def bumpSeq (s : State) (q : Nat) : State :=
  { s with ws := { s.ws with seqs := tput 0 s.ws.seqs q ((nextSeq s q + 1) % 2 ^ 32) } }

/-- A message as its queue numbers it. -/
def mkMsg (s : State) (q kind source : Nat) (p : Payload) : Msg :=
  { kind := kind, source := source, coalesced := 0, seq := nextSeq s q, payload := p }

/-- Enters a message at the tail of the command down queue (R21); the command processor keeps the payloads of the newest 256
by SEQ, for a NACK (R26, R421). -/
def enterDown (s : State) (kind : Nat) (p : Payload) : State :=
  let m := mkMsg s 0 kind 0x22 p
  bumpSeq { s with ws := { s.ws with down := s.ws.down ++ [m], sent := ((m.seq, p) :: s.ws.sent).take 256 } } 0

/-- Posts on the command down queue of 64 (Table 1.5); the sender waits while it is full (R24). -/
def postDown (s : State) (kind : Nat) (p : Payload) : State :=
  { s with ws := if s.ws.down.length < 64 && s.ws.waitDown.isEmpty then (enterDown s kind p).ws
                 else { s.ws with waitDown := s.ws.waitDown ++ [(kind, p)] } }

/-- Takes the head of the down queue; the message that has waited longest enters. -/
def popDown (s : State) : State :=
  let s1 := { s with ws := { s.ws with down := s.ws.down.drop 1 } }
  match s1.ws.waitDown with
  | [] => s1
  | (k, p) :: r => enterDown { s1 with ws := { s1.ws with waitDown := r } } k p

/-- Enters a message at the tail of the command up queue. -/
def enterUp (s : State) (kind source : Nat) (p : Payload) : State :=
  let m := mkMsg s 1 kind source p
  bumpSeq { s with ws := { s.ws with up := s.ws.up ++ [m] } } 1

/-- Posts on the command up queue of 128 (Table 1.5, R24). -/
def postUp (s : State) (kind source : Nat) (p : Payload) : State :=
  { s with ws := if s.ws.up.length < 128 && s.ws.waitUp.isEmpty then (enterUp s kind source p).ws
                 else { s.ws with waitUp := s.ws.waitUp ++ [(kind, source, p)] } }

/-- Takes the head of the up queue. -/
def popUp (s : State) : State :=
  let s1 := { s with ws := { s.ws with up := s.ws.up.drop 1 } }
  match s1.ws.waitUp with
  | [] => s1
  | (k, src, p) :: r => enterUp { s1 with ws := { s1.ws with waitUp := r } } k src p

/-- Whether a telemetry kind coalesces when the queue is full (R25): all but ORDER_ACK, MGMT_REQUEST and
WAYSTATION_FAULT. -/
def coalesces (kind : Nat) : Bool := kind ≤ 0x14

/-- Places of the telemetry queue that messages which coalesce take, or those of the reserved share (R25). -/
def teleUsed (s : State) (plain : Bool) : Nat := (s.ws.tele.filter fun m => coalesces m.kind == plain).length

/-- Enters a message at the tail of the telemetry queue. -/
def enterTele (s : State) (kind source coalesced : Nat) (p : Payload) : State :=
  let m := { mkMsg s 2 kind source p with coalesced := coalesced }
  bumpSeq { s with ws := { s.ws with tele := s.ws.tele ++ [m] } } 2

/-- Posts telemetry.  Of the 256 places (Table 1.5) 16 are the share of MGMT_REQUEST, ORDER_ACK and WAYSTATION_FAULT, which
wait for a place there; of the other messages a queue with no place for them holds the newest of each kind and source, counting
those it replaced (R25, log entry 103). -/
def postTele (s : State) (kind source : Nat) (p : Payload) : State :=
  if !coalesces kind then
    if teleUsed s false < 16 && s.ws.waitTele.isEmpty then enterTele s kind source 0 p
    else { s with ws := { s.ws with waitTele := s.ws.waitTele ++ [(kind, source, p)] } }
  else if 240 ≤ teleUsed s true then
    let isSame := fun (m : Msg) => m.kind == kind && m.source == source
    let old := s.ws.held.find? isSame
    let n := match old with
      | some m => Nat.min 255 (m.coalesced + 1)
      | none => 0
    let m : Msg := { kind := kind, source := source, coalesced := n, seq := 0, payload := p }
    { s with ws := { s.ws with held := (s.ws.held.filter fun x => !isSame x) ++ [m] } }
  else enterTele s kind source 0 p

/-- The message that waits for the place a message has left takes it (R25). -/
def refillTele (plain : Bool) (s : State) : State :=
  if plain then
    match s.ws.held with
    | [] => s
    | m :: r => enterTele { s with ws := { s.ws with held := r } } m.kind m.source m.coalesced m.payload
  else
    match s.ws.waitTele with
    | [] => s
    | (k, src, p) :: r => enterTele { s with ws := { s.ws with waitTele := r } } k src 0 p

/-- Takes the head of the telemetry queue. -/
def popTele (s : State) : State :=
  match s.ws.tele with
  | [] => s
  | m :: r => refillTele (coalesces m.kind) { s with ws := { s.ws with tele := r } }

/-- Writes a record of the debug trace ring while it is enabled: sequence, low bits of PW_COUNT[0], KIND, ARG (16, the DB
block). -/
def traceRec (kind arg : Nat) (s : State) : State :=
  if s.db.ctrl.getLsbD 12 then
    let r := (s.db.traceHead % 2 ^ 32, (tget 0 s.pw.counts 0).toNat % 2 ^ 32, kind, arg % 2 ^ 48)
    { s with db := { s.db with traceHead := s.db.traceHead + 1, trace := (r :: s.db.trace).take 4096 } }
  else s

/-- Enters a message at the tail of the interlock queue; an order, sent for the `n`th time again, waits for its acknowledgement
(R26). -/
def enterInter (s : State) (kind n : Nat) (p : Payload) : State :=
  let m := mkMsg s 3 kind 0x40 p
  let s1 := bumpSeq { s with ws := { s.ws with inter := s.ws.inter ++ [m] } } 3
  if kind = 0x26 then s1
  else
    let s2 := traceRec 3 (kind + m.seq * 256) s1
    { s2 with ws := { s2.ws with unacked := s2.ws.unacked ++ [(m, n)] } }

/-- Posts on the interlock queue of 32 (Table 1.5); the sender waits while it is full (R24). -/
def postOrder (s : State) (kind : Nat) (p : Payload) : State :=
  if s.ws.inter.length < 32 && s.ws.waitInter.isEmpty then enterInter s kind 0 p
  else { s with ws := { s.ws with waitInter := s.ws.waitInter ++ [(kind, p)] } }

/-- Takes the head of the interlock queue. -/
def popInter (s : State) : State :=
  let s1 := { s with ws := { s.ws with inter := s.ws.inter.drop 1 } }
  match s1.ws.waitInter with
  | [] => s1
  | (k, p) :: r => enterInter { s1 with ws := { s1.ws with waitInter := r } } k 0 p

/-- Adds to an activity counter of a stack (Table 4.8): 1 tile MACs, 2 wide-unit element operations, 3 cluster-store bytes,
5 bytes injected, 6 bytes delivered. -/
def countAct (stack k n : Nat) (s : State) : State :=
  { s with tw := { s.tw with activity := tadd s.tw.activity (8 * stack + k) n } }

/-! ### Completions and events (R405 to R412) -/

/-- The port of a handle (R406). -/
def portOfHandle (handle : Nat) : Nat := handle / 2 ^ 31 % 2

/-- Completes a command: its record waits for the ring (R405, R410). A handle the port no longer knows has had its
completion discarded (R399), and has now completed for R407. -/
def complete (handle status flags : Nat) (result : List W64) (s : State) : State :=
  let port := portOfHandle handle
  let c := getCp s port
  match c.pend.find? fun p => p.handle == handle && !p.done with
  | none => if c.runsOn.contains handle then setCp s port { c with runsOn := c.runsOn.filter fun h => h != handle } else s
  | some p =>
    let r : Record := { seq := p.seq, handle := handle, status := status, opcode := p.opcode, tag := p.tag,
                        flags := flags, result := (result ++ List.replicate 4 0).take 4, vec := p.vec, noIrq := p.noIrq }
    setCp s port { c with
      pend := lupdate (fun q => q.handle == handle && !q.done) (fun q => { q with done := true }) c.pend,
      records := c.records ++ [r] }

/-- The COMPLETION message of the data plane (R24, R432). -/
def postCompletion (handle status flags : Nat) (result : List W64) (s : State) : State :=
  postUp s 0x81 0x10 (.completion handle status flags result)

/-- Queues an event on one port; a full queue discards it, counts it and marks the next (R412). -/
def eventOn (port code : Nat) (result : List W64) (s : State) : State :=
  let c := getCp s port
  if 64 ≤ c.events.length then
    countCpFault (setCp s port { c with lost := true }) port 3
  else
    let r : Record := { seq := 0, handle := 0, status := 0, opcode := code, tag := 0, flags := 1,
                        result := (result ++ List.replicate 4 0).take 4, vec := 0, noIrq := false }
    setCp s port { c with events := c.events ++ [r] }

/-- Posts an event to both ports' rings (R412). -/
def postEvent (code : Nat) (result : List W64) (s : State) : State :=
  traceRec 5 code (eventOn 1 code result (eventOn 0 code result s))

/-- Remembers the outcome of a long operation: the last 256 (R427). -/
def rememberLong (handle status : Nat) (s : State) : State :=
  { s with cp := { s.cp with remembered := ((handle, status) :: s.cp.remembered.filter fun e => e.1 != handle).take 256 } }

/-- The entry of a live long operation (R436). -/
def longOpOf (s : State) (handle : Nat) : Option (Nat × LongOp) :=
  s.cp.longops.find? fun e => e.2.handle == handle

/-- Rewrites a live long operation. -/
def modLong (s : State) (handle : Nat) (f : LongOp → LongOp) : State :=
  let l := s.cp.longops.map fun e => if e.2.handle == handle then (e.1, f e.2) else e
  { s with cp := { s.cp with longops := l } }

/-- A long operation reaches DONE: its entry is released, its outcome remembered, its command completed, and a CANCEL,
SUSPEND or RESUME waiting on it completes; a CANCEL that found the operation committed elsewhere reports so (R425 to R427,
R436). -/
def longDone (handle status flags : Nat) (result : List W64) (s : State) : State :=
  match longOpOf s handle with
  | none => complete handle status flags result s
  | some (_, l) =>
    let s1 := { s with cp := { s.cp with longops := s.cp.longops.filter fun e => e.2.handle != handle } }
    let s2 := complete handle status flags result (rememberLong handle status s1)
    let taken := status != 0 && status != 4 && status != 0x0200
    let s3 := match l.canceller with
      | some h => complete h (if taken then 0 else 1) 0 [BitVec.ofNat 64 status] s2
      | none => s2
    let s4 := match l.suspender with
      | some h => complete h 0x001B 0 [] s3
      | none => s3
    match l.resumer with
    | some h => complete h 0x001B 0 [] s4
    | none => s4

/-- A command of the data plane ends: through longDone when it is a live long operation. -/
def endCommand (handle status flags : Nat) (result : List W64) (s : State) : State :=
  match longOpOf s handle with
  | some _ => longDone handle status flags result s
  | none => complete handle status flags result s

/-- The power state as a number (R438). -/
def PowerState.code : PowerState → Nat
  | .p0 => 0
  | .p1 => 1
  | .p2 => 2
  | .p3 => 3
  | .p4 => 4

/-- The power state of a number; 4 and up is P4. -/
def PowerState.ofCode : Nat → PowerState
  | 0 => .p0
  | 1 => .p1
  | 2 => .p2
  | 3 => .p3
  | _ => .p4

end Sys2Proof.Machine
end

