-- ==== Sys2Proof/Machine/Codes.lean ====
section
/-!
DEFINITION. The codes the spec names by standard: CRC-32C, SHA3-384 and SHAKE (log entry 9, PRESUMED), and the Reed-Solomon code
RS(36,33) of R270.
-/

namespace Sys2Proof.Machine

open Sys2Proof

/-- One bit of the reflected CRC-32C register. -/
def crcBit (c : W32) : W32 := if c.getLsbD 0 then (c >>> 1) ^^^ 0x82F63B78 else c >>> 1

/-- One byte into the register. -/
def crcByte (c : W32) (b : Byte) : W32 :=
  let x := c ^^^ b.setWidth 32
  crcBit (crcBit (crcBit (crcBit (crcBit (crcBit (crcBit (crcBit x)))))))

/-- CRC-32C (Castagnoli) of a byte list. -/
def crc32c (bs : List Byte) : W32 := ~~~ (bs.foldl crcByte 0xFFFFFFFF)

/-- One bit of CRC-16/CCITT, the highest first: x^16 + x^12 + x^5 + 1. -/
def crc16Bit (x : BitVec 16) : BitVec 16 := if x.getLsbD 15 then (x <<< 1) ^^^ 0x1021 else x <<< 1

/-- One byte of CRC-16/CCITT. -/
def crc16Byte (x : BitVec 16) (b : Byte) : BitVec 16 :=
  (List.range 8).foldl (fun y _ => crc16Bit y) (x ^^^ (b.setWidth 16 <<< 8))

/-- CRC-16/CCITT of a byte list, from all ones: PRESUMED (log entry 1020). -/
def crc16 (bs : List Byte) : BitVec 16 := bs.foldl crc16Byte 0xFFFF

/-! ### SHA3-384 and SHAKE -/

/-- The register that makes the round constants, one step on: x^8 + x^6 + x^5 + x^4 + 1. -/
def lfsrStep (r : Byte) : Byte := if r.getLsbD 7 then (r <<< 1) ^^^ 0x71 else r <<< 1

/-- The constant of round `n`: the register's outputs 7 n to 7 n + 6 at the bits 2^j - 1. -/
def roundConst (n : Nat) : W64 :=
  BitVec.ofNat 64 (((List.range 7).map fun j =>
    if ((List.range (7 * n + j)).foldl (fun r _ => lfsrStep r) 1).getLsbD 0 then 2 ^ (2 ^ j - 1) else 0).sum)

/-- The lane reached after `k` moves from (1, 0), each taking (x, y) to (y, 2 x + 3 y). -/
def laneWalk (k : Nat) : Nat × Nat := (List.range k).foldl (fun q _ => (q.2, (2 * q.1 + 3 * q.2) % 5)) (1, 0)

/-- How far lane (x, y) turns: the move at which the walk meets it gives a triangular number. -/
def turnOf (x y : Nat) : Nat :=
  match (List.range 24).find? fun k => laneWalk k == (x, y) with
  | some k => (k + 1) * (k + 2) / 2 % 64
  | none => 0

/-- The turns of the 25 lanes, and the constants of the 24 rounds. -/
def turns : List Nat := (List.range 25).map fun i => turnOf (i % 5) (i / 5)
def roundConsts : List W64 := (List.range 24).map roundConst

/-- A lane of the sponge's state: column x, row y. -/
def laneAt (st : List W64) (x y : Nat) : W64 := lget 0 st (x % 5 + 5 * (y % 5))

/-- A state from the value of each lane. -/
def lanesFrom (f : Nat → Nat → W64) : List W64 := (List.range 25).map fun i => f (i % 5) (i / 5)

/-- The parity of a column, folded into its neighbours (theta). -/
def mixColumns (st : List W64) : List W64 :=
  let par := fun x => (List.range 5).foldl (fun w y => w ^^^ laneAt st x y) 0
  lanesFrom fun x y => laneAt st x y ^^^ par (x + 4) ^^^ (par (x + 1)).rotateLeft 1

/-- Each lane turned and moved (rho, pi): what comes to (x, y) stood in column x + 3 y, row x. -/
def turnLanes (st : List W64) : List W64 :=
  lanesFrom fun x y => (laneAt st (x + 3 * y) x).rotateLeft (lget 0 turns ((x + 3 * y) % 5 + 5 * x))

/-- The row step (chi), with the round's constant on lane (0, 0) (iota). -/
def mixRows (n : Nat) (st : List W64) : List W64 :=
  lanesFrom fun x y =>
    let w := laneAt st x y ^^^ (laneAt st (x + 2) y &&& ~~~ laneAt st (x + 1) y)
    if x + y = 0 then w ^^^ lget 0 roundConsts n else w

/-- Keccak-f[1600]. -/
def keccakF (a : List W64) : List W64 := (List.range 24).foldl (fun st n => mixRows n (turnLanes (mixColumns st))) a

/-- A block into as many lanes as it fills, lane by lane. -/
def keccakAbsorb (a : List W64) (block : List Byte) : List W64 :=
  keccakF ((List.range 25).map fun i =>
    if 8 * i < block.length then lget 0 a i ^^^ BitVec.ofNat 64 (field block (8 * i) 8) else lget 0 a i)

/-- Absorbs a padded message in blocks of `rate` bytes, with fuel for its blocks. -/
def keccakAll (rate : Nat) : Nat → List W64 → List Byte → List W64
  | 0, a, _ => a
  | _, a, [] => a
  | k + 1, a, l => keccakAll rate k (keccakAbsorb a (l.take rate)) (l.drop rate)

/-- What `k` blocks of output give. -/
def keccakGive (rate : Nat) : Nat → List W64 → List Byte
  | 0, _ => []
  | k + 1, a => ((a.take (rate / 8)).map fun w => leBytes 8 w.toNat).flatten ++ keccakGive rate k (keccakF a)

/-- The sponge of FIPS 202 with a rate in bytes and the byte that follows the message: `n` bytes. -/
def sponge (rate : Nat) (after : Byte) (n : Nat) (msg : List Byte) : List Byte :=
  let pad := rate - msg.length % rate
  let m := msg ++ if pad = 1 then [after ||| 0x80] else after :: (List.replicate (pad - 2) 0 ++ [0x80])
  (keccakGive rate ((n + rate - 1) / rate) (keccakAll rate (m.length / rate) (List.replicate 25 0) m)).take n

/-- SHA3-384 (FIPS 202): 48 bytes. -/
def sha3_384 (msg : List Byte) : List Byte := sponge 104 0x06 48 msg

/-- SHAKE128 and SHAKE256 (FIPS 202): `n` bytes. -/
def shake128 (n : Nat) (msg : List Byte) : List Byte := sponge 168 0x1F n msg
def shake256 (n : Nat) (msg : List Byte) : List Byte := sponge 136 0x1F n msg

/-! ### RS(36,33) over GF(2^8) (R270) -/

/-- Multiplication by x modulo x^8 + x^4 + x^3 + x^2 + 1. -/
def gfDouble (a : Byte) : Byte := if a.getLsbD 7 then (a <<< 1) ^^^ 0x1D else a <<< 1

/-- Product in GF(2^8). -/
def gfMul (a b : Byte) : Byte :=
  ((List.range 8).foldl (fun (acc : Byte × Byte) i =>
    (if b.getLsbD i then acc.1 ^^^ acc.2 else acc.1, gfDouble acc.2)) (0, a)).1

/-- A power of α = 2. -/
def gfPow (n : Nat) : Byte := (List.range n).foldl (fun x _ => gfDouble x) 1

end Sys2Proof.Machine
end

