-- ==== Sys2Proof/Machine/BbOps.lean ====
section
/-!
DEFINITION. Writing the black box: records, their commit, events and notes (R510 to R520).
-/

namespace Sys2Proof.Machine

open Sys2Proof

/-- Slot of a record: the first area holds SEQ 1 to 16,384, the last area's 65,536 slots follow it (R511). -/
def bbSlot (seq : Nat) : Nat := if seq ≤ 16384 then seq - 1 else 16384 + (seq - 16385) % 65536

/-- A record's 256 bytes (R512). -/
def bbRecord (seq type cause len : Nat) (body : List Byte) : List Byte :=
  let head := leBytes 8 seq ++ leBytes 2 type ++ leBytes 2 cause ++ leBytes 4 len ++ padTo 236 body
  head ++ leBytes 4 (crc32c head).toNat

/-- Whether a record's bytes hold a valid CRC (R512, R521). -/
def recordGood (rec : List Byte) : Bool := field rec 252 4 == (crc32c (rec.take 252)).toNat

/-- Whether write number `n` of the MRAM is abandoned: its read-back fails three times (R515). -/
def writeLost (n : Nat) : Bool := decide (3 ≤ Config.readBackFails n)

/-- One write of the MRAM with its read-backs: retries are counted, and a write that fails three is abandoned, counted and sets
MRAM_FAULT (R515). What it writes is its caller's, who asks `writeLost`. -/
def mramWrite (s : State) : State :=
  let fails := Nat.min 3 (Config.readBackFails s.bb.writes)
  let c := taddW s.bb.counts 4 (Nat.min 2 fails)
  { s with bb := { s.bb with writes := s.bb.writes + 1, counts := taddW c 5 (fails / 3),
                             mramFault := s.bb.mramFault || fails == 3 } }

/-- The valid copy with the higher GEN (R514, R516). -/
def Copies.current {α : Type} (c : Copies α) : Option (Nat × α) :=
  match c.a, c.b with
  | some x, some y => if x.1 < y.1 then some y else some x
  | some x, none => some x
  | none, y => y

/-- Rewrites the older copy, or an invalid one, with GEN one above the newer copy's; an abandoned write, none, leaves it invalid
(R513, R515, R516). -/
def Copies.write {α : Type} (c : Copies α) (x : Option α) : Copies α :=
  let new := x.map fun v => ((c.current.map Prod.fst).getD 0 + 1, v)
  match c.a, c.b with
  | none, b => { a := new, b := b }
  | some a, none => { a := some a, b := new }
  | some a, some b => if b.1 < a.1 then { a := some a, b := new } else { a := new, b := some b }

/-- What a copy's write leaves, by the number of the write. -/
def writeLeft {α : Type} (n : Nat) (x : α) : Option α := if writeLost n then none else some x

/-- A record's write to its slot; an abandoned one leaves bytes that the spec does not state. -/
def writeSlot (seq : Nat) (rec : List Byte) (s : State) : State :=
  let held := if writeLost s.bb.writes then Config.abandonedSlot s.bb.writes else rec
  let s1 := mramWrite s
  { s1 with bb := { s1.bb with slots := tput [] s1.bb.slots (bbSlot seq) held } }

/-- One write of the control block; what it says then holds, unless it was abandoned (R513, R515). -/
def writeCtrl (x : BbCtrl) (s : State) : State :=
  let s1 := mramWrite s
  let s2 := { s1 with bb := { s1.bb with ctrl := s1.bb.ctrl.write (writeLeft s.bb.writes x) } }
  if writeLost s.bb.writes then s2
  else { s2 with bb := { s2.bb with committed := x.committed, reshardOpen := x.reshardOpen, reshardHandle := x.reshardHandle } }

/-- What the repair map holds: its current copy, or the fuses (R516). -/
def repairMap (s : State) : RepairMap :=
  (s.bb.maps.current.map Prod.snd).getD { cells := s.fb.fusedCell, clusters := s.fb.fusedCluster, subch := subchIdentity }

/-- One write of the repair map (R515, R516). -/
def writeMap (m : RepairMap) (s : State) : State :=
  let s1 := mramWrite s
  { s1 with bb := { s1.bb with maps := s1.bb.maps.write (writeLeft s.bb.writes m) } }

/-- The control block write that commits a record: COMMITTED_SEQ and GEN (R513); 0x0108 and 0x0109 set and clear RESHARD_OPEN in
the same write (R519). -/
def writeControl (seq type cause : Nat) (body : List Byte) (s : State) : State :=
  let lc := type == 5
  let opened := lc && cause == 0x0108
  let closed := lc && cause == 0x0109
  let rOpen := if opened then true else if closed then false else s.bb.reshardOpen
  let rHandle := if opened then field body 0 4 else if closed then 0 else s.bb.reshardHandle
  let s1 := writeCtrl { committed := seq, reshardOpen := rOpen, reshardHandle := rHandle } s
  if writeLost s.bb.writes then s1 else { s1 with bb := { s1.bb with counts := taddW s1.bb.counts 0 1 } }

/-- Commits a record in two writes (R513); where one of them is abandoned the record is not committed, and its SEQ passes to the
next record (R515). -/
def bbCommit (type cause len : Nat) (body : List Byte) (s : State) : State :=
  let seq := s.bb.committed + 1
  let s1 := writeSlot seq (bbRecord seq type cause len body) s
  if writeLost s.bb.writes then s1 else writeControl seq type cause body s1

/-- Whether an event code closes the window (Table 17.5). -/
def bbCloses (code : Nat) : Bool := decide (code < 0x0100)

/-- Whether the management controller runs: not restarting and not halted by debug (R452, R496). -/
def mcRuns (s : State) : Bool := !s.pw.mcRestarting && !s.db.mcuHalted

/-- Takes an event: a closing one waits for the window's close, as does any event while the controller cannot write; any
other is written as a lifecycle record at once (R452, R517, R518). -/
def bbEvent (code : Nat) (body : List Byte) (s : State) : State :=
  if bbCloses code || !mcRuns s then
    let w := s.bb.window
    { s with bb := { s.bb with window := { w with events := w.events ++ [(code, body)] } } }
  else bbCommit 5 code s.bb.window.len body s

/-- Commits a note image: bytes 8-11 and 16-251 laid out as in a record (R520). -/
def commitNote (note : List Byte) (s : State) : State :=
  let type := field note 8 2
  let cause := field note 10 2
  let body := slice note 16 236
  if type = 5 then bbEvent cause body s else bbCommit type cause s.bb.window.len body s

/-- Hands a note image over: committed by a running controller; else it waits, at most 16 (R520). -/
def noteGo (note : List Byte) (s : State) : State :=
  let s1 := { s with bb := { s.bb with note := padTo 256 note } }
  if mcRuns s1 && s1.bb.notes.isEmpty then commitNote note s1
  else if s1.bb.notes.length < 16 then { s1 with bb := { s1.bb with notes := s1.bb.notes ++ [note] } }
  else { s1 with bb := { s1.bb with noteLost := true, counts := taddW s1.bb.counts 3 1 } }

/-- The note of a lifecycle event that comes from the command processor (R520). -/
def noteEvent (code : Nat) (body : List Byte) (s : State) : State :=
  noteGo (List.replicate 8 0 ++ leBytes 2 5 ++ leBytes 2 code ++ List.replicate 4 0 ++ padTo 236 body) s

/-- The note of a configuration-load summary (R520, Table 17.9). -/
def noteLoad (body : List Byte) (s : State) : State :=
  noteGo (List.replicate 8 0 ++ leBytes 2 4 ++ leBytes 2 0 ++ List.replicate 4 0 ++ padTo 236 body) s

/-- A failure is set pending: the note and the event (R87, R170, R276; Table 13.4, Table 17.5). -/
def remapPending (kind index part : Nat) (s : State) : State :=
  postEvent 0x8006 [BitVec.ofNat 64 kind]
    (noteEvent 0x0105 ([BitVec.ofNat 8 kind, 0] ++ leBytes 2 index ++ [BitVec.ofNat 8 part]) s)

end Sys2Proof.Machine
end

