-- ==== Sys2Proof/Machine/Arith.lean ====
section
/-!
DEFINITION. The exact arithmetic of the device: values, the floating-point formats of Table 3.2, rounding, the element
operations of Table 2.6 and the compensated pairs of Table 4.1.
-/

namespace Sys2Proof.Machine

open Sys2Proof

/-- An exact value: a signed dyadic number m × 2^e, an infinity, a NaN with its fraction left-aligned in 52 bits, or
poison. -/
inductive Val where
  | fin (neg : Bool) (m : Nat) (e : Int)
  | inf (neg : Bool)
  | nan (neg : Bool) (pay : Nat)
  | poison
  deriving DecidableEq, Repr, Inhabited

/-- A floating-point format of Table 3.2; `kind` 0 has infinities and NaNs, 1 is E4M3, 2 is E2M1. -/
structure FpFmt where
  eb : Nat
  fb : Nat
  bias : Nat
  kind : Nat
  deriving DecidableEq, Repr

/-- Formats by the code of Table 3.1 (R91, R93). -/
def fpFmt : Nat → Option FpFmt
  | 0 => some ⟨11, 52, 1023, 0⟩
  | 1 => some ⟨8, 23, 127, 0⟩
  | 2 => some ⟨5, 10, 15, 0⟩
  | 3 => some ⟨8, 7, 127, 0⟩
  | 4 => some ⟨4, 3, 7, 1⟩
  | 5 => some ⟨5, 2, 15, 0⟩
  | 6 => some ⟨2, 1, 1, 2⟩
  | 8 => some ⟨8, 39, 127, 0⟩
  | _ => none

/-- FP64 and FP32. -/
def fp64 : FpFmt := ⟨11, 52, 1023, 0⟩
def fp32 : FpFmt := ⟨8, 23, 127, 0⟩

/-- Element width in bits of a format code (Table 3.1). -/
def fmtBits : Nat → Nat
  | 0 => 64
  | 1 => 32
  | 2 => 16
  | 3 => 16
  | 4 => 8
  | 5 => 8
  | 6 => 4
  | 7 => 8
  | 8 => 48
  | 9 => 24
  | 10 => 48
  | 11 => 8
  | _ => 0

/-- Least unbiased exponent of a normal number. -/
def FpFmt.emin (f : FpFmt) : Int := 1 - (f.bias : Int)

/-- Largest finite magnitude, as m × 2^e (Table 3.2). -/
def FpFmt.top (f : FpFmt) : Nat × Int :=
  let q : Int := if f.kind = 0 then (2 ^ f.eb - 2 - f.bias - f.fb : Int) else (2 ^ f.eb - 1 - f.bias - f.fb : Int)
  (if f.kind = 1 then 2 ^ (f.fb + 1) - 2 else 2 ^ (f.fb + 1) - 1, q)

/-- The low fraction bits by which a NaN is poison: 0xA5 cut to the bits below the quiet bit (Table 3.3). -/
def FpFmt.poisonLow (f : FpFmt) : Nat := 0xA5 % 2 ^ (f.fb - 1)

/-- All ones in the exponent field. -/
def FpFmt.expOnes (f : FpFmt) : Nat := (2 ^ f.eb - 1) * 2 ^ f.fb

/-- Canonical NaN (Table 3.3); zero for a format without one (R104). -/
def FpFmt.canonNaN (f : FpFmt) : Nat :=
  if f.kind = 2 then 0 else if f.kind = 1 then 0x7F else f.expOnes + 2 ^ (f.fb - 1)

/-- Poison encoding emitted (Table 3.3); zero for a format without one (R95). -/
def FpFmt.poisonBits (f : FpFmt) : Nat :=
  if f.kind = 2 then 0
  else if f.kind = 1 then 0xFF
  else if f.fb = 2 then 0x7D
  else f.expOnes + 2 ^ (f.fb - 1) + f.poisonLow

/-- Reads an encoding (R93, R94). -/
def FpFmt.decode (f : FpFmt) (bits : Nat) : Val :=
  let neg := bits.testBit (f.eb + f.fb)
  let ex := bits / 2 ^ f.fb % 2 ^ f.eb
  let fr := bits % 2 ^ f.fb
  if f.kind = 0 && ex == 2 ^ f.eb - 1 then
    if fr = 0 then .inf neg
    else if fr % 2 ^ (f.fb - 1) = f.poisonLow then .poison
    else .nan neg (fr * 2 ^ (52 - f.fb))
  else if f.kind = 1 && ex == 15 && fr == 7 then
    if neg then .poison else .nan false (2 ^ 51)
  else if ex = 0 then .fin neg fr (f.emin - f.fb)
  else .fin neg (2 ^ f.fb + fr) ((ex : Int) - f.bias - f.fb)

/-- Whether an encoding is recognised as poison (Table 3.3, R94). -/
def FpFmt.isPoison (f : FpFmt) (bits : Nat) : Bool := f.decode bits == .poison

/-- Whether an encoding is a NaN, poison included. -/
def FpFmt.isNaN (f : FpFmt) (bits : Nat) : Bool :=
  match f.decode bits with
  | .nan _ _ => true
  | .poison => true
  | _ => false

/-- Shifts a magnitude m × 2^e onto the quantum 2^q: quotient, remainder and the remainder's scale. -/
def onQuantum (m : Nat) (e q : Int) : Nat × Nat × Nat :=
  if q ≤ e then (m * 2 ^ (e - q).toNat, 0, 1)
  else
    let d := 2 ^ (q - e).toNat
    (m / d, m % d, d)

/-- floor(log2) of a nonzero magnitude. -/
def ilog2 (m : Nat) (e : Int) : Int := (Nat.log2 m : Int) + e

/-- The rounding modes of Table 3.6; SR carries its throw (R114). -/
inductive RMode where
  | rne
  | rtz
  | sr (throw_ : Nat)
  deriving DecidableEq, Repr

/-- Whether the quotient `k` with remainder `r` of `d` rounds away from zero (R102, R114). -/
def roundsUp (md : RMode) (k r d : Nat) : Bool :=
  match md with
  | .rne => decide (2 * r > d) || (decide (2 * r = d) && k % 2 == 1)
  | .rtz => false
  | .sr t => decide (t < 2 ^ 32 * r / d)

/-- Quantum of the value's binade in the format, subnormals included (R103). -/
def FpFmt.quantum (f : FpFmt) (m : Nat) (e : Int) : Int :=
  let E := ilog2 m e
  (if E < f.emin then f.emin else E) - f.fb

/-- Rounds a magnitude onto the format's grid with no upper limit: m' × 2^q. -/
def FpFmt.roundMag (f : FpFmt) (md : RMode) (m : Nat) (e : Int) : Nat × Int :=
  if m = 0 then (0, f.emin - f.fb)
  else
    let q := f.quantum m e
    let (k, r, d) := onQuantum m e q
    (if roundsUp md k r d then k + 1 else k, q)

/-- Compares magnitudes. -/
def magLt (a : Nat × Int) (b : Nat × Int) : Bool :=
  let q := if a.2 ≤ b.2 then a.2 else b.2
  decide (a.1 * 2 ^ (a.2 - q).toNat < b.1 * 2 ^ (b.2 - q).toNat)

/-- Encodes a finite magnitude that lies on the format's grid. -/
def FpFmt.encodeFin (f : FpFmt) (neg : Bool) (m : Nat) (e : Int) : Nat :=
  let s := if neg then 2 ^ (f.eb + f.fb) else 0
  if m = 0 then s
  else
    let E := ilog2 m e
    if E < f.emin then s + (onQuantum m e (f.emin - f.fb)).1
    else s + (E + f.bias).toNat * 2 ^ f.fb + ((onQuantum m e (E - f.fb)).1 - 2 ^ f.fb)

/-- Encodes a NaN: quieted, its fraction cut to the format (R59, R101); where the cut fraction would read as poison, the
canonical NaN (R94). -/
def FpFmt.encodeNaN (f : FpFmt) (neg : Bool) (pay : Nat) : Nat :=
  if f.kind ≠ 0 then f.canonNaN
  else
    let fr := pay / 2 ^ (52 - f.fb) % 2 ^ f.fb
    let fq := if fr.testBit (f.fb - 1) then fr else fr + 2 ^ (f.fb - 1)
    if fq % 2 ^ (f.fb - 1) = f.poisonLow then f.canonNaN
    else (if neg then 2 ^ (f.eb + f.fb) else 0) + f.expOnes + fq

/-- Rounds under IEEE 754 and encodes (R58, R124, R126): an overflow gives the infinity of its sign under RNE, the
largest finite value under RTZ; under SR the rule of R114 for FP64. -/
def FpFmt.roundIeee (f : FpFmt) (md : RMode) (v : Val) : Nat :=
  match v with
  | .poison => f.poisonBits
  | .nan neg pay => f.encodeNaN neg pay
  | .inf neg => (if neg then 2 ^ (f.eb + f.fb) else 0) + f.expOnes
  | .fin neg m e =>
    let infB := (if neg then 2 ^ (f.eb + f.fb) else 0) + f.expOnes
    let maxB := f.encodeFin neg f.top.1 f.top.2
    if magLt f.top (m, e) then
      match md with
      | .rne => if magLt f.top (f.roundMag .rne m e) then infB else maxB
      | .rtz => maxB
      | .sr t =>
        -- a = the largest finite value, b = the next power of two: one quantum above
        let q := if e ≤ f.top.2 then e else f.top.2
        let num := m * 2 ^ (e - q).toNat - f.top.1 * 2 ^ (f.top.2 - q).toNat
        if t < 2 ^ 32 * num / 2 ^ (f.top.2 - q).toNat then infB else maxB
    else
      let r := f.roundMag md m e
      f.encodeFin neg r.1 r.2

/-! ### Exact operations -/

/-- Payload of the NaN result of an operation over `vs`, when some operand is a NaN (R59). -/
def nanOf (vs : List Val) : Option Val :=
  if vs.contains .poison then some .poison
  else vs.find? fun v => match v with
    | .nan _ _ => true
    | _ => false

/-- The default quiet NaN (Table 3.3). -/
def defaultNaN : Val := .nan false (2 ^ 51)

/-- A signed integer as a value with exponent `e`; zero is +0. -/
def ofSigned (n : Int) (e : Int) : Val := .fin (decide (n < 0)) n.natAbs e

/-- The signed integer a × 2^(e - q), for q at most e. -/
def signedAt (neg : Bool) (m : Nat) (e q : Int) : Int :=
  let k : Int := (m * 2 ^ (e - q).toNat : Nat)
  if neg then -k else k

/-- Exact sum of two values with no NaN among them: opposite infinities give the default NaN; an exact zero is +0
unless both are -0 (Table 2.6). -/
def addNum (a b : Val) : Val :=
  match a, b with
  | .inf x, .inf y => if x == y then .inf x else defaultNaN
  | .inf x, _ => .inf x
  | _, .inf y => .inf y
  | .fin na ma ea, .fin nb mb eb =>
    let q := if ea ≤ eb then ea else eb
    let r := signedAt na ma ea q + signedAt nb mb eb q
    if r = 0 then .fin (na && nb && ma == 0 && mb == 0) 0 0 else ofSigned r q
  | _, _ => .poison

/-- Exact sum (R59, Table 2.6). -/
def addV (a b : Val) : Val := (nanOf [a, b]).getD (addNum a b)

/-- Exact product of values with no NaN among them; an infinity times zero is the default NaN (R51). -/
def mulNum (a b : Val) : Val :=
  match a, b with
  | .fin na ma ea, .fin nb mb eb => .fin (na != nb) (ma * mb) (ea + eb)
  | .inf na, .fin nb mb _ => if mb = 0 then defaultNaN else .inf (na != nb)
  | .fin na ma _, .inf nb => if ma = 0 then defaultNaN else .inf (na != nb)
  | .inf na, .inf nb => .inf (na != nb)
  | _, _ => .poison

/-- Exact product (R48, R51, R59). -/
def mulV (a b : Val) : Val := (nanOf [a, b]).getD (mulNum a b)

/-- a × b + c exactly (Table 2.6). -/
def fmaV (a b c : Val) : Val :=
  (nanOf [a, b, c]).getD (addV (mulNum a b) c)

/-- Negates a value; a NaN and poison keep their encoding's sign handling to the caller. -/
def negV : Val → Val
  | .fin n m e => .fin (!n) m e
  | .inf n => .inf (!n)
  | v => v

/-- Order of two values that are not NaNs: less, equal, greater as -1, 0, 1; zeros are equal. -/
def ordV (a b : Val) : Int :=
  match a, b with
  | .inf x, .inf y => if x == y then 0 else if x then -1 else 1
  | .inf x, _ => if x then -1 else 1
  | _, .inf y => if y then 1 else -1
  | .fin na ma ea, .fin nb mb eb =>
    let q := if ea ≤ eb then ea else eb
    let d := signedAt na ma ea q - signedAt nb mb eb q
    if d < 0 then -1 else if d = 0 then 0 else 1
  | _, _ => 0

/-- The comparison predicates of Table 2.6 by code: 0 EQ, 1 NE, 2 LT, 3 LE, 4 GT, 5 GE, 6 UN. -/
def cmpV (p : Nat) (a b : Val) : Bool :=
  match nanOf [a, b] with
  | some _ => p == 1 || p == 6
  | none =>
    let o := ordV a b
    match p with
    | 0 => o == 0
    | 1 => o != 0
    | 2 => o == -1
    | 3 => o != 1
    | 4 => o == 1
    | 5 => o != -1
    | _ => false

/-! ### Element operations on encodings -/

/-- An operand: its bits and whether it carries a poison mark beside them. -/
structure Opnd where
  bits : Nat
  poison : Bool
  deriving DecidableEq, Repr

/-- The operand's value: a poison mark makes it poison whatever its bits (R95, R178). -/
def Opnd.val (f : FpFmt) (x : Opnd) : Val := if x.poison then .poison else f.decode x.bits

/-- Whether the operand is poisoned. -/
def Opnd.poisoned (f : FpFmt) (x : Opnd) : Bool := x.poison || f.isPoison x.bits

/-- Bits of a poisoned result: the first poisoned operand whose bits hold poison passes quieted, its sign kept
(R59, R94); a mark without such bits gives the poison encoding (log entry 20, DEDUCED). -/
def poisonResult (f : FpFmt) (xs : List Opnd) : Nat :=
  match xs.find? fun x => x.poisoned f with
  | some x =>
    if f.isPoison x.bits && f.kind == 0 then
      (if x.bits.testBit (f.fb - 1) then x.bits else x.bits + 2 ^ (f.fb - 1))
    else f.poisonBits
  | none => f.poisonBits

/-- Result of an operation whose exact value is `v` over operands `xs`, rounded by `rnd`. -/
def opResult (f : FpFmt) (xs : List Opnd) (v : Val) (rnd : Val → Nat) : Opnd :=
  if xs.any fun x => x.poisoned f then ⟨poisonResult f xs, true⟩
  else ⟨rnd v, false⟩

/-- Drain-style saturation flag of a value against a target's largest finite value (R68). -/
def FpFmt.saturates (f : FpFmt) (v : Val) : Bool :=
  match v with
  | .inf _ => true
  | .fin _ m e => magLt f.top (m, e)
  | _ => false

/-- Largest finite value with a sign. -/
def FpFmt.maxBits (f : FpFmt) (neg : Bool) : Nat := f.encodeFin neg f.top.1 f.top.2

/-- Sign of a number or infinity. -/
def Val.isNeg : Val → Bool
  | .fin n _ _ => n
  | .inf n => n
  | _ => false

/-- Rounds one element operation's exact result (R58): IEEE 754, or for FP8 (widths up to 8) the conversion rule of R68,
whose saturation the caller counts. -/
def FpFmt.roundElem (f : FpFmt) (md : RMode) (v : Val) : Nat :=
  if f.eb + f.fb < 8 then
    match v with
    | .nan neg pay => f.encodeNaN neg pay
    | .poison => f.poisonBits
    | _ => if f.saturates v then f.maxBits v.isNeg else f.roundIeee md v
  else f.roundIeee md v

/-- ADD, MUL, FMA of Table 2.6. -/
def elemAdd (f : FpFmt) (md : RMode) (a b : Opnd) : Opnd :=
  opResult f [a, b] (addV (a.val f) (b.val f)) (f.roundElem md)
def elemMul (f : FpFmt) (md : RMode) (a b : Opnd) : Opnd :=
  opResult f [a, b] (mulV (a.val f) (b.val f)) (f.roundElem md)
def elemFma (f : FpFmt) (md : RMode) (a b c : Opnd) : Opnd :=
  opResult f [a, b, c] (fmaV (a.val f) (b.val f) (c.val f)) (f.roundElem md)

/-- MIN (`isMax` false) or MAX: a NaN operand gives a quiet NaN, the lesser or greater operand's bits else (Table 2.6). -/
def elemMinMax (f : FpFmt) (isMax : Bool) (a b : Opnd) : Opnd :=
  let va := a.val f
  let vb := b.val f
  if a.poisoned f || b.poisoned f then ⟨poisonResult f [a, b], true⟩
  else
    match nanOf [va, vb] with
    | some v => ⟨f.roundIeee .rne v, false⟩
    | none =>
      let o := ordV va vb
      let zeros := o == 0 && va.isNeg != vb.isNeg
      let pickB := if isMax then (if zeros then va.isNeg else o == -1) else (if zeros then vb.isNeg else o == 1)
      ⟨if pickB then b.bits else a.bits, false⟩

/-- CMP.p: whether the mask is all ones, and its poison mark (Table 2.6, R119). -/
def elemCmp (f : FpFmt) (p : Nat) (a b : Opnd) : Bool × Bool :=
  (cmpV p (a.val f) (b.val f), a.poisoned f || b.poisoned f)

/-! ### Compensated pairs -/

/-- The pair (s, e) read as values (R124). -/
def Pair.vals (f : FpFmt) (p : Pair) : Val × Val := (f.decode p.s.toNat, f.decode p.e.toNat)

/-- Packs two encodings. -/
def mkPair (s e : Nat) : Pair := ⟨BitVec.ofNat 64 s, BitVec.ofNat 64 e⟩

/-- Whether a value is a finite number. -/
def Val.isFin : Val → Bool
  | .fin _ _ _ => true
  | _ => false

/-- Exact a - b of finite values; zero is +0 (R125). -/
def residual (a b : Val) : Val :=
  match addNum a (negV b) with
  | .fin n m e => if m = 0 then .fin false 0 0 else .fin n m e
  | v => v

/-- ACC of Table 4.1; `none` is the empty pair (R125, R126). -/
def accPair (f : FpFmt) (p : Option Pair) (x : Val) : Pair :=
  match p with
  | none =>
    let s := f.roundIeee .rne x
    let sv := f.decode s
    if sv.isFin then mkPair s (f.roundIeee .rne (residual x sv)) else mkPair s 0
  | some p =>
    let (ps, pe) := p.vals f
    let sum := addV ps x
    let s := f.roundIeee .rne sum
    let sv := f.decode s
    if sv.isFin then mkPair s (f.roundIeee .rne (addV pe (residual sum sv))) else mkPair s 0

/-- COMB of two present pairs (Table 4.1, R126). -/
def combTwo (f : FpFmt) (p q : Pair) : Pair :=
  let (ps, pe) := p.vals f
  let (qs, qe) := q.vals f
  if [ps, pe, qs, qe].contains .poison then mkPair f.poisonBits 0
  else
    match ps, qs with
    | .nan na ya, .nan nb yb =>
      let a := f.encodeNaN na ya
      let b := f.encodeNaN nb yb
      mkPair (if a = b then a else f.canonNaN) 0
    | _, _ =>
      let sum := addV ps qs
      let s := f.roundIeee .rne sum
      let sv := f.decode s
      if sv.isFin then mkPair s (f.roundIeee .rne (addV (addV pe qe) (residual sum sv))) else mkPair s 0

/-- COMB with absent pairs (R125). -/
def combPair (f : FpFmt) (p q : Option Pair) : Option Pair :=
  match p, q with
  | none, q => q
  | p, none => p
  | some p, some q => some (combTwo f p q)

/-- FINAL: the exact value s + e; s where it is not finite (Table 4.1, R126).  The sign of a zero sum is that of s where e is
zero: DESIGN CHOICE (log entry 37). -/
def finalV (f : FpFmt) (p : Pair) : Val :=
  let (s, e) := p.vals f
  match s, e with
  | .fin _ _ _, .fin _ 0 _ => s
  | .fin _ _ _, _ => addV s e
  | _, _ => s

/-- One pass of the tree of R127 over the nodes of a level. -/
def combLevel (f : FpFmt) : List Pair → List Pair
  | a :: b :: r => combTwo f a b :: combLevel f r
  | l => l

/-- The tree of R127 over a list of leaves, with fuel for its levels. -/
def combTree (f : FpFmt) : Nat → List Pair → Option Pair
  | _, [] => none
  | _, [p] => some p
  | 0, p :: _ => some p
  | k + 1, l => combTree f k (combLevel f l)

/-- The chunks of R127: 32 terms each, summed in order. -/
def chunksOf (f : FpFmt) : Nat → List Val → List Pair
  | 0, _ => []
  | _, [] => []
  | k + 1, x :: r =>
    let ch := (r.take 31).foldl (fun p y => accPair f (some p) y) (accPair f none x)
    ch :: chunksOf f k (r.drop 31)

/-- The procedure ref_order of R127. -/
def refOrder (f : FpFmt) (xs : List Val) : Option Pair :=
  let ch := chunksOf f xs.length xs
  combTree f ch.length ch

/-! ### Sums in progress -/

/-- An empty sum. -/
def AccRun.empty : AccRun := { chunk := none, inChunk := 0, nodes := [], int := 0, poison := false }

/-- Adds a finished node of a level to the open nodes: equal levels combine, the older node first (R127). -/
def pushNode (f : FpFmt) (lvl : Nat) (p : Pair) : List (Nat × Pair) → List (Nat × Pair)
  | [] => [(lvl, p)]
  | (l, q) :: r => if l = lvl then pushNode f (lvl + 1) (combTwo f q p) r else (lvl, p) :: (l, q) :: r

/-- Closes the open chunk. -/
def AccRun.closeChunk (f : FpFmt) (a : AccRun) : AccRun :=
  match a.chunk with
  | none => a
  | some p => { a with chunk := none, inChunk := 0, nodes := pushNode f 0 p a.nodes }

/-- A term enters the sum in the reference order. -/
def AccRun.term (f : FpFmt) (a : AccRun) (x : Val) : AccRun :=
  let b := { a with chunk := some (accPair f a.chunk x), inChunk := a.inChunk + 1,
                    poison := a.poison || x == .poison }
  if b.inChunk = 32 then b.closeChunk f else b

/-- A pair enters as a leaf (R129). -/
def AccRun.leaf (f : FpFmt) (a : AccRun) (p : Pair) : AccRun :=
  { a with nodes := pushNode f 0 p a.nodes, poison := a.poison || (p.vals f).1 == .poison }

/-- Combines the open nodes, newest (lowest) first: an unpartnered last node passes up (R127). -/
def foldNodes (f : FpFmt) : Pair → List (Nat × Pair) → Pair
  | p, [] => p
  | p, (_, q) :: r => foldNodes f (combTwo f q p) r

/-- The sum's pair; none where no term has entered. -/
def AccRun.result (f : FpFmt) (a : AccRun) : Option Pair :=
  match (a.closeChunk f).nodes with
  | [] => none
  | (_, p) :: r => some (foldNodes f p r)

/-! ### Dice -/

/-- Rotation of a 32-bit value. -/
def rotl32 (x : W32) (k : Nat) : W32 := x <<< k ||| x >>> (32 - k)

/-- One round of the Dice generator. -/
def diceRound (rk : W32) (l r : W32) : W32 × W32 :=
  let p : W64 := (r ^^^ rk).setWidth 64 * 0xD2B74407
  let t : W32 := p.setWidth 32 ^^^ (p >>> 32).setWidth 32
  (r, l ^^^ t)

/-- dice(seed, stream, index) of R118. -/
def dice (seed : W64) (stream : W32) (index : W64) : W32 :=
  let k0 : W32 := seed.setWidth 32 ^^^ stream
  let k1 : W32 := (seed >>> 32).setWidth 32 ^^^ rotl32 stream 16
  let go := (List.range 8).foldl (fun (lr : W32 × W32) i =>
    diceRound ((if i % 2 = 0 then k0 else k1) + BitVec.ofNat 32 i * 0x9E3779B9) lr.1 lr.2)
    (index.setWidth 32, (index >>> 32).setWidth 32)
  go.2

end Sys2Proof.Machine
end

