-- ==== Sys2Proof/Machine/Operands.lean ====
section
/-!
DEFINITION. The operand forms of the core sequencer: registers G, F, W with their poison bits, immediates, and the
address map of its loads and stores.
-/

namespace Sys2Proof.Machine

open Sys2Proof

/-- A 64-bit value with its poison bit (R178). -/
abbrev PV := W64 × Bool

/-- Gi with its poison bit; G0 reads as zero (R176). -/
def readG (c : Core) (i : RField) : PV :=
  if i = 0 then (0, false) else (tget 0 c.g i.toNat, tget false c.gp i.toNat)

/-- Writes Gi; writes to G0 are discarded (R176). -/
def writeG (c : Core) (i : RField) (v : PV) : Core :=
  if i = 0 then c else { c with g := tput 0 c.g i.toNat v.1, gp := tput false c.gp i.toNat v.2 }

/-- Word `i` of the floating-point file (R177). -/
def readF (c : Core) (i : Nat) : PV := (tget 0 c.f i, tget false c.fp i)

def writeF (c : Core) (i : Nat) (v : PV) : Core := { c with f := tput 0 c.f i v.1, fp := tput false c.fp i v.2 }

/-- Lanes 0 to 3 of Wn: words 4n to 4n + 3 (R177). -/
def readW (c : Core) (n : Nat) : List PV := (List.range 4).map fun k => readF c (4 * n + k)

/-- Writes lanes of Wn from lane `k` up. -/
def writeWFrom (c : Core) (n k : Nat) : List PV → Core
  | [] => c
  | v :: r => writeWFrom (writeF c (4 * n + k) v) n (k + 1) r

def writeW (c : Core) (n : Nat) (vs : List PV) : Core := writeWFrom c n 0 vs

/-- The 256 bits of a W register as a number, lane 0 lowest. -/
def wNat (vs : List PV) : Nat := vs.foldr (fun v acc => v.1.toNat + 2 ^ 64 * acc) 0

/-- Four lanes of a 256-bit number with their poison bits. -/
def wLanes (x : Nat) (p : Nat → Bool) : List PV :=
  (List.range 4).map fun k => (BitVec.ofNat 64 (x / 2 ^ (64 * k)), p k)

/-- Poison bit of lane `k`. -/
def laneP (vs : List PV) (k : Nat) : Bool := (lget (0, false) vs k).2

/-- Sign-extends an immediate to 64 bits. -/
def sext64 {w : Nat} (x : BitVec w) : W64 := x.signExtend 64

/-- Base register plus immediate, with the base's poison bit. -/
def seqAddr (c : Core) (a : RField) (off : W64) : PV := ((readG c a).1 + off, (readG c a).2)

/-- The memories of Table 6.1. -/
inductive SeqMem where
  | cstore
  | table
  | data
  | imem
  deriving DecidableEq, Repr

/-- The memory and offset that `n` bytes at an address name (Table 6.1); none outside the table. -/
def seqMemOf (a : W64) (n : Nat) : Option (SeqMem × Nat) :=
  let x := a.toNat
  if x + n ≤ 0x200000 then some (.cstore, x)
  else if 0x400000 ≤ x && x + n ≤ 0x404000 then some (.table, x - 0x400000)
  else if 0x800000 ≤ x && x + n ≤ 0x804000 then some (.data, x - 0x800000)
  else if 0xC00000 ≤ x && x + n ≤ 0xC10000 then some (.imem, x - 0xC00000)
  else none

/-- Cluster of a core. -/
def clusterOf (core : Nat) : Nat := core / 4

/-- Whether bytes of the cluster store lie in a CLUSTER_STORE window of the region with the access asked (R181;
Table 7.11 ACCESS). -/
def inProgramWindow (r : Region) (write : Bool) (off n : Nat) : Bool :=
  r.windows.any fun w => w.kind == 0 && (if write then w.access / 2 % 2 == 1 else w.access % 2 == 1) &&
    decide (w.base ≤ off) && decide (off + n ≤ w.base + w.len)

/-- The resident region with an identifier. -/
def regionOf (s : State) (r : Nat) : Option Region := (s.fb.regions.find? fun e => e.1 == r).map Prod.snd

/-- Reads bytes of a sequencer memory, each with the poison of its sector (R178, R182). -/
def seqReadByte (s : State) (core : Nat) (c : Core) (m : SeqMem) (off : Nat) : Byte × Bool :=
  match m with
  | .cstore =>
    let a := clusterStoreAt (clusterOf core) + off
    (readByte s a, sectorPoison s a)
  | .table => (tget 0 c.tshadow off, tget false c.tshadowP (off / 32))
  | .data => (tget 0 c.dmem off, tget false c.dmemP (off / 32))
  | .imem => (tget 0 c.imem off, false)

def seqRead (s : State) (core : Nat) (c : Core) (m : SeqMem) (off n : Nat) : List (Byte × Bool) :=
  (List.range n).map fun i => seqReadByte s core c m (off + i)

/-- Value and poison of the bytes read. -/
def bytesPV (l : List (Byte × Bool)) : Nat × Bool := (leNat (l.map Prod.fst), l.any Prod.snd)

/-- Writes bytes into a local memory of the core. -/
def putBytes (t : Tbl Byte) (off : Nat) : List Byte → Tbl Byte
  | [] => t
  | b :: r => putBytes (tput 0 t off b) (off + 1) r

/-- Writes `bs` into a local memory of the core with 32-byte sector flags.  A poisoned value sets the flag and writes
zero bits; a part of a poisoned sector leaves the sector poisoned, and a whole sector takes its source's poison
(R95, R178, R262). -/
def storeLocal (t : Tbl Byte) (p : Tbl Bool) (off : Nat) (bs : List Byte) (poison : Bool) : Tbl Byte × Tbl Bool :=
  let sec := off / 32
  let was := tget false p sec
  let whole := decide (bs.length = 32)
  (putBytes t off (if poison then List.replicate bs.length 0 else bs),
    tput false p sec (poison || (was && !whole)))

/-- Writes bytes that lie in one sector of a sequencer memory. -/
def seqWrite (s : State) (core : Nat) (m : SeqMem) (off : Nat) (bs : List Byte) (poison : Bool) : State :=
  match m with
  | .cstore => writeSector s (clusterStoreAt (clusterOf core) + off) bs poison
  | .table =>
    modCore s core fun c =>
      let r := storeLocal c.tshadow c.tshadowP off bs poison
      { c with tshadow := r.1, tshadowP := r.2 }
  | .data =>
    modCore s core fun c =>
      let r := storeLocal c.dmem c.dmemP off bs poison
      { c with dmem := r.1, dmemP := r.2 }
  | .imem => s

/-- Bytes of a stream element; E2M1 elements are packed two a byte. -/
def elemBytes (fmt : Nat) : Nat := fmtBits fmt / 8

/-- Bytes of a tape entry (Table 8.3). -/
def tapeEntryBytes (fmt : Nat) : Nat :=
  match fmt with
  | 0 => 9
  | 1 => 5
  | 2 => 3
  | 3 => 3
  | 4 => 2
  | 5 => 2
  | 6 => 1
  | 7 => 2
  | 8 => 7
  | _ => 0

/-- First and last-plus-one byte of the cluster store that a stream's elements touch; none for LOOP (06). -/
def streamSpan (st : Stream) : Option (Int × Int) :=
  if st.dir = 2 then none
  else if st.fmt = 6 && !st.tape then some (st.base, st.base + ((st.count + 1) / 2 : Nat))
  else
    let last : Int := st.base + (st.count - 1 : Nat) * st.stride
    let lo : Int := if st.stride < 0 then last else st.base
    let hi : Int := if st.stride < 0 then st.base else last
    some (lo, hi + (if st.tape then tapeEntryBytes st.fmt else elemBytes st.fmt : Nat))

/-- Whether two byte ranges overlap. -/
def overlaps (a b : Int × Int) : Bool := decide (a.1 < b.2) && decide (b.1 < a.2)

/-- Spans of the core's incomplete streams and moves, with whether each writes the store (R198). -/
def openSpans (c : Core) : List ((Int × Int) × Bool) :=
  (c.streams.filterMap fun st => (streamSpan st).map fun x => (x, st.dir == 1)) ++
    c.moves.map fun m => (((m.cstore : Int), ((m.cstore + m.len : Nat) : Int)), !m.toDevice)

/-- Whether a sequencer access to the cluster store must wait (R198). -/
def mustWait (c : Core) (write : Bool) (off n : Nat) : Bool :=
  (openSpans c).any fun x => overlaps x.1 ((off : Int), ((off + n : Nat) : Int)) && (write || x.2)

end Sys2Proof.Machine
end

