-- ==== Sys2Proof/Machine/Frame.lean ====
section
/-!
DEFINITION. The fields of context frames and route frames (Tables 7.6 to 7.9), the active context, and the tables that
follow from them.
-/

namespace Sys2Proof.Machine

open Sys2Proof

/-- Bits hi:lo of a field word. -/
def fieldOf {w : Nat} (x : BitVec w) (hi lo : Nat) : Nat := bitsOf x.toNat hi lo

def Ctx.tileEn (x : Ctx) : Bool := x.tile.getLsbD 0
/-- The stored role, and the role in force: REVERSE maps it by Table 2.9. -/
def Ctx.storedRole (x : Ctx) : Nat := fieldOf x.tile 3 1
def Ctx.role (x : Ctx) : Nat :=
  if x.reverse then
    match x.storedRole with
    | 0 => 1
    | 1 => 0
    | 2 => 3
    | 3 => 2
    | r => r
  else x.storedRole
def Ctx.fmtA (x : Ctx) : Nat := fieldOf x.tile 7 4
def Ctx.fmtB (x : Ctx) : Nat := fieldOf x.tile 11 8
def Ctx.tileBank (x : Ctx) : Nat := fieldOf x.tile 13 12
def Ctx.startAdd (x : Ctx) : Bool := x.tile.getLsbD 14
def Ctx.kLen (x : Ctx) : Nat := fieldOf x.tile 39 16 + 1
def Ctx.statBase (x : Ctx) : Nat := fieldOf x.tile 53 40
def Ctx.streamFromStore (x : Ctx) : Bool := x.tile.getLsbD 54
def Ctx.streamBase (x : Ctx) : Nat := fieldOf x.tile 68 55

def Ctx.chainLen (x : Ctx) : Nat := fieldOf x.wide 4 0
def Ctx.wfmt (x : Ctx) : Nat := fieldOf x.wide 7 5
def Ctx.chainRmode (x : Ctx) : Nat := fieldOf x.wide 9 8
def Ctx.red (x : Ctx) : Nat := fieldOf x.wide 12 10
def Ctx.redBank (x : Ctx) : Nat := fieldOf x.wide 14 13
def Ctx.redAdd (x : Ctx) : Bool := x.wide.getLsbD 15
def Ctx.redQpair (x : Ctx) : Nat := fieldOf x.wide 19 16
def Ctx.topkK (x : Ctx) : Nat := fieldOf x.wide 23 20 + 1
def Ctx.topkMag (x : Ctx) : Bool := x.wide.getLsbD 24
def Ctx.topkFmt (x : Ctx) : Nat := fieldOf x.wide 28 25
def Ctx.widenEn (x : Ctx) : Bool := x.wide.getLsbD 29
def Ctx.widenSrc (x : Ctx) : Nat := fieldOf x.wide 33 30
def Ctx.widenDst (x : Ctx) : Nat := fieldOf x.wide 37 34
def Ctx.topkOffset (x : Ctx) : Nat := fieldOf x.wide 95 64

def Ctx.bankInt (x : Ctx) (b : Nat) : Bool := x.bank.getLsbD (8 + b)

def Ctx.dsrc (x : Ctx) : Nat := fieldOf x.drain 1 0
def Ctx.dbank (x : Ctx) : Nat := fieldOf x.drain 3 2
def Ctx.raw (x : Ctx) : Bool := x.drain.getLsbD 4
def Ctx.dfmt (x : Ctx) : Nat := fieldOf x.drain 8 5
def Ctx.recipe (x : Ctx) : Nat := fieldOf x.drain 12 9
def Ctx.drmode (x : Ctx) : Nat := fieldOf x.drain 14 13
def Ctx.tapeEn (x : Ctx) : Bool := x.drain.getLsbD 15
def Ctx.tensorId (x : Ctx) : Nat := fieldOf x.drain 31 16
def Ctx.tableBase (x : Ctx) : Nat := fieldOf x.drain 45 32
def Ctx.rowScaleEn (x : Ctx) : Bool := x.drain.getLsbD 46
def Ctx.colScaleEn (x : Ctx) : Bool := x.drain.getLsbD 47
def Ctx.biasEn (x : Ctx) : Bool := x.drain.getLsbD 48
def Ctx.clipEn (x : Ctx) : Bool := x.drain.getLsbD 49
def Ctx.ddestStore (x : Ctx) : Bool := x.drain.getLsbD 50
def Ctx.destBase (x : Ctx) : Nat := fieldOf x.drain 64 51
def Ctx.initScale (x : Ctx) : Nat := fieldOf x.drain 72 65
def Ctx.clipLo (x : Ctx) : Nat := fieldOf x.drain 127 96
def Ctx.clipHi (x : Ctx) : Nat := fieldOf x.drain 159 128

/-- A mirror context that gates what it receives (08). -/
def Ctx.gated (x : Ctx) : Bool := x.reverse && x.tapeEn

/-- The format code of the chain's format WFMT (Table 7.6), and how many elements a packed word holds. -/
def Ctx.wcode (x : Ctx) : Nat :=
  match x.wfmt with
  | 0 => 0
  | 1 => 1
  | 2 => 3
  | 3 => 2
  | 4 => 4
  | _ => 5
def Ctx.wpack (x : Ctx) : Nat :=
  match x.wfmt with
  | 0 => 1
  | 1 => 1
  | 2 => 4
  | 3 => 4
  | _ => 8

/-- Element operation fields (Table 7.7). -/
def opCode (w : W32) : Nat := fieldOf w 3 0
def opPred (w : W32) : Nat := fieldOf w 6 4
def opDest (w : W32) : Nat := fieldOf w 13 8
def opA (w : W32) : Nat := fieldOf w 19 14
def opB (w : W32) : Nat := fieldOf w 25 20
def opC (w : W32) : Nat := fieldOf w 31 26

/-- Route entry fields (Table 7.9). -/
def rtSrc (w : BitVec 16) : Nat := fieldOf w 3 0
def rtSink (w : BitVec 16) (i : Nat) : Bool := w.getLsbD (4 + i)
def rtMerge64 (w : BitVec 16) : Bool := w.getLsbD 14

/-- The resident context of a slot; an absent slot is idle (R209). -/
def Cell.ctx (c : Cell) (slot : Nat) : Ctx := tget Ctx.idle c.ctxs slot

/-- The active context. -/
def Cell.act (c : Cell) : Ctx := c.ctx c.active

/-- Whether a context is the idle context: no unit and no route (R209). -/
def Ctx.isIdle (x : Ctx) : Bool := !x.tileEn && x.chainLen == 0 && x.red == 0 && x.dsrc == 0 && x.routes.all (· == 0)

/-- Global cell numbers of a core (R5). -/
def cellsOf (core : Nat) : List Nat := (List.range 20).map fun i => core * 20 + i

/-- Core of a cell, and its row and column. -/
def coreOfCell (cell : Nat) : Nat := cell / 20
def rowOf (cell : Nat) : Nat := cell % 20 / 5
def colOf (cell : Nat) : Nat := cell % 5
/-- Cell of a core at a row and column. -/
def cellAt (core r c : Nat) : Nat := core * 20 + r * 5 + c

/-! ### Logical and physical units -/

/-- FB_CELL_REPAIR of a physical core: no failure reads 0xFFF in ROW0_FAIL to ROW3_FAIL. Bits 31:20 of the model's word hold
the column of each row's pending failure; they read as zero. -/
def cellRepairOf (s : State) (core : Nat) : W32 := tget 0xFFF s.fb.cellRepair core

/-- ROWn_FAIL, PENDING of a row, and the pending column. -/
def rowFail (w : W32) (row : Nat) : Nat := bitsOf w.toNat (3 * row + 2) (3 * row)
def rowPending (w : W32) (row : Nat) : Bool := w.getLsbD (12 + row)
def pendingCol (w : W32) (row : Nat) : Nat := bitsOf w.toNat (20 + 3 * row + 2) (20 + 3 * row)

/-- FB_CLUSTER_MAP of a physical cluster. -/
def clusterMapOf (s : State) (i : Nat) : W32 := lget 0 s.fb.clusterMap i

/-- LOGICAL and STATE of a cluster map entry (Table 5.3). -/
def mapLogical (w : W32) : Nat := bitsOf w.toNat 7 0
def mapState (w : W32) : Nat := bitsOf w.toNat 9 8

/-- FB_STACK_CAPACITY of a die. -/
def capacityOf (s : State) (d : Nat) : W32 := lget 0 s.fb.capacity d

/-- The logical cluster a physical cluster serves, if any. -/
def servedBy (s : State) (i : Nat) : Option Nat :=
  let w := clusterMapOf s i
  if mapState w = 0 || mapState w = 2 then
    if mapLogical w < 150 then some (i / 156 * 150 + mapLogical w) else none
  else none

/-- The physical cluster that serves a logical one, if it is in service. -/
def physOf (s : State) (cluster : Nat) : Option Nat :=
  let d := dieOfCluster cluster
  if (capacityOf s d).getLsbD 12 then none
  else ((List.range 156).map fun p => d * 156 + p).find? fun i => servedBy s i == some cluster

/-- The physical cell (24 × physical core + 6 × row + column) at a logical cell's place, if it is in service (R85). -/
def physCell (s : State) (cell : Nat) : Option Nat :=
  (physOf s (cell / 80)).map fun i =>
    let core := 4 * i + coreOfCell cell % 4
    let f := rowFail (cellRepairOf s core) (rowOf cell)
    24 * core + 6 * rowOf cell + (if colOf cell < f then colOf cell else colOf cell + 1)

/-- Whether a byte of a cell store lies in a failed part of a cell still in service, which reads as poison (R87). -/
def storeFailed (s : State) (cell off : Nat) : Bool :=
  !s.fb.failed.isEmpty &&
    match physCell s cell with
    | some p => tget false s.fb.failed p && Config.failedPart p (off / 32)
    | none => false

/-- Bytes of a cell store, each with its sector's poison. -/
def storeByte (s : State) (cell off : Nat) : Byte := readByte s (cellStoreAt cell + off)

/-- Bit field of `n` bits at bit `bit` of a cell store from byte `base` (packed formats, R92). -/
def storeBits (s : State) (cell base bit n : Nat) : Nat :=
  leNat (readBytes s (cellStoreAt cell + base + bit / 8) ((bit % 8 + n + 7) / 8)) / 2 ^ (bit % 8) % 2 ^ n

/-- Whether a byte of a cell store reads as poison: its sector's flag, or a failed part (R87, R95). -/
def storePoison (s : State) (cell off : Nat) : Bool := sectorPoison s (cellStoreAt cell + off) || storeFailed s cell off

/-- Whether `n` bits at bit `bit` of a cell store from byte `base` read as poison. -/
def storeBitPoison (s : State) (cell base bit n : Nat) : Bool :=
  storePoison s cell (base + bit / 8) || storePoison s cell (base + (bit + n - 1) / 8)

/-- The drain table latched from the cell store (R67, Table 7.6): 0-3 row codes, 4-11 column codes, 16-23 biases; 32 + k is one
where entry k reads as poison (R95). -/
def latchTable (s : State) (cell base : Nat) : Tbl W64 :=
  let at' := fun (t : Tbl W64) (i off n : Nat) =>
    tput 0 (tput 0 t i (BitVec.ofNat 64 (leNat (readBytes s (cellStoreAt cell + base + off) n)))) (32 + i)
      (if storePoison s cell (base + off) then 1 else 0)
  let t1 := (List.range 12).foldl (fun (t : Tbl W64) i => at' t i i 1) []
  (List.range 8).foldl (fun (t : Tbl W64) i => at' t (16 + i) (16 + 8 * i) 8) t1

/-- Whether a context's drain reads its drain table: a scale, a bias, or the block code of a BSI target (R67, R113, Table 7.6). -/
def Ctx.usesTable (x : Ctx) : Bool :=
  x.rowScaleEn || x.colScaleEn || x.biasEn || (x.dsrc != 0 && !x.raw && (x.dfmt == 9 || x.dfmt == 10))

/-- Phase start in one cell (R67, R71): the drain table is latched, the counters clear, and the counts of the phase's
values start at zero. -/
def cellPhaseStart (s : State) (cell : Nat) : State :=
  let c := getCell s cell
  let x := c.act
  if x.isIdle then (if c.counts.isEmpty then s else setCell s cell { c with counts := [] })
  else
    setCell s cell { c with
      table := if x.usesTable then latchTable s cell x.tableBase else [],
      counts := [], tile := [], kDone := 0, grads := [], gradBlock := 0, red := [], topkSeen := 0, topkHeld := 0, chainN := 0,
      drainN := 0, rdPos := 0, wrPos := 0 }

end Sys2Proof.Machine
end

