-- ==== Sys2Proof/Machine/Flags.lean ====
section
/-!
DEFINITION. The counts and flags of the cell: what rounding, saturation, vanishing, NaN and poison a drained value meets, its
histogram bin and its clip-mask bit (R66 to R71, R94 to R108, R114, R558).
-/

namespace Sys2Proof.Machine

open Sys2Proof

/-- E_t of a target (Table 2.8, R106); that of E8, which no table gives, is its largest scale's (log entry 208). -/
def refExp (fmt : Nat) : Int :=
  match fmt with
  | 0 => 1023
  | 1 => 127
  | 2 => 15
  | 3 => 127
  | 4 => 8
  | 5 => 15
  | 6 => 2
  | 8 => 127
  | 11 => 127
  | _ => 6

/-- Histogram bin of a value that is neither NaN nor poisoned (R70). -/
def binOf (fmt : Nat) (v : Val) : Option Nat :=
  match v with
  | .fin _ m e =>
    if m = 0 then some 63
    else
      let d := refExp fmt - ilog2 m e
      if d < 0 then some 0 else if d ≤ 60 then some (d.toNat + 1) else some 62
  | .inf _ => some 0
  | _ => none

/-- A value that scale code `c` multiplies by 2^(c - 127); code 0xFF makes it a NaN (R97). -/
def scaleByCode (c : Nat) (v : Val) : Val :=
  if c = 0xFF then (if v == .poison then .poison else defaultNaN)
  else
    match v with
    | .fin n m e => .fin n m (e + (c : Int) - 127)
    | v => v

/-- Step 5: clips to [CLIP_LO, CLIP_HI]; a NaN passes, and zeros compare equal (R558). -/
def clipV (lo hi : Nat) (v : Val) : Val × Bool :=
  match v with
  | .nan _ _ => (v, false)
  | .poison => (v, false)
  | _ =>
    let l := fp32.decode lo
    let h := fp32.decode hi
    if ordV v l == -1 then (l, true) else if ordV v h == 1 then (h, true) else (v, false)

/-- What steps 6 to 8 make of one value: its bits, its poison mark and clip-mask bit, and the counters it adds to
(`Cell.counts` keys). -/
structure Drained where
  bits : Nat
  poison : Bool
  mask : Bool
  counts : List Nat
  deriving DecidableEq, Repr, Inhabited

/-- Counters of a value's bin. -/
def binCounts (fmt : Nat) (v : Val) : List Nat := (binOf fmt v).toList

/-- Rounds a finite value to an integer within bounds; answers the integer and whether it saturated (R68, R105). -/
def roundInt (md : RMode) (lo hi : Int) (v : Val) : Int × Bool :=
  match v with
  | .fin n m e =>
    let q := onQuantum m e 0
    let k : Nat := if roundsUp md q.1 q.2.1 q.2.2 then q.1 + 1 else q.1
    let i : Int := if n then -(k : Int) else k
    let exact := ofSigned hi 0
    let least := ofSigned lo 0
    if ordV v exact == 1 then (hi, true) else if ordV v least == -1 then (lo, true) else (i, false)
  | .inf n => (if n then lo else hi, true)
  | _ => (0, false)

/-- Whether a value is a nonzero number. -/
def Val.nonzero : Val → Bool
  | .fin _ m _ => m != 0
  | .inf _ => true
  | _ => false

/-- Steps 6 to 8 for a target in one element: `v` is the value from step 5, `changed` whether step 5 changed it (R66 to R71,
R104 to R106). -/
def drainTo (fmt : Nat) (md : RMode) (v : Val) (changed : Bool) : Drained :=
  let bins := binCounts fmt v
  match v with
  | .poison =>
    let b := match fpFmt fmt with
      | some f => f.poisonBits
      | none => 0
    { bits := b, poison := true, mask := changed, counts := [67] }
  | .nan _ _ =>
    match fmt, fpFmt fmt with
    | 0, some f => { bits := f.roundIeee md v, poison := false, mask := changed, counts := [] }
    | _, some f => { bits := f.canonNaN, poison := false, mask := changed, counts := [66] }
    | _, none => { bits := 0, poison := false, mask := changed, counts := [66] }
  | _ =>
    match fmt, fpFmt fmt with
    | 0, some f => { bits := f.roundIeee md v, poison := false, mask := changed, counts := bins }
    | _, some f =>
      if f.saturates v then { bits := f.maxBits v.isNeg, poison := false, mask := true, counts := 64 :: bins }
      else
        let b := f.roundIeee md v
        let van := v.nonzero && !(f.decode b).nonzero
        { bits := b, poison := false, mask := changed, counts := if van then 65 :: bins else bins }
    | _, none =>
      let r := roundInt md (-128) 127 v
      let van := v.nonzero && r.1 == 0
      { bits := (r.1 % 256).toNat, poison := false, mask := changed || r.2,
        counts := if r.2 then 64 :: bins else if van then 65 :: bins else bins }

/-- Adds one to a cell counter, saturating at 2^32 - 1 (R71). -/
def bumpCount (t : Tbl Nat) (k : Nat) : Tbl Nat := tput 0 t k (Nat.min (2 ^ 32 - 1) (tget 0 t k + 1))

/-- Adds one to each counter of a list. -/
def bumpCounts (t : Tbl Nat) (ks : List Nat) : Tbl Nat := ks.foldl bumpCount t

/-! ### Sums into banks -/

/-- The pair format's poison test on a pair. -/
def pairPoison (f : FpFmt) (p : Pair) : Bool := (p.vals f).1 == .poison

/-- Writes a sum's pair into a bank entry by its start flag (R62): `add` combines with the entry. -/
def entryPut (old : Entry) (add : Bool) (p : Pair) (poison : Bool) : Entry :=
  let o : Pair := ⟨old.s.setWidth 64, old.e.setWidth 64⟩
  let r := if add then combTwo fp32 o p else p
  { s := r.s.setWidth 32, e := r.e.setWidth 32, poison := poison || pairPoison fp32 r || (add && old.poison) }

/-- Writes an INT8 sum into a bank entry (R49, R62). -/
def entryPutInt (old : Entry) (add : Bool) (v : W64) (poison : Bool) : Entry :=
  let o : W64 := old.e.setWidth 64 <<< 32 ||| old.s.setWidth 64
  let r := if add then o + v else v
  { s := r.setWidth 32, e := (r >>> 32).setWidth 32, poison := poison || (add && old.poison) }

/-- A bank entry at reset or after a scrub: (+0, +0) with the flag clear (R63). -/
def Entry.zero : Entry := { s := 0, e := 0, poison := false }

/-- Entry n of bank b. -/
def bankEntry (c : Cell) (b n : Nat) : Entry := tget Entry.zero c.banks (32 * b + n)
def setBankEntry (c : Cell) (b n : Nat) (e : Entry) : Cell := { c with banks := tput Entry.zero c.banks (32 * b + n) e }

/-- Poison mark of lane 0 of a cell register. -/
def qPoisoned (c : Cell) (q : Nat) : Bool := tget false c.qPoison (8 * q)

/-- Writes a cell register with one poison mark on all its lanes. -/
def putQ (c : Cell) (q : Nat) (v : W64) (p : Bool) : Cell :=
  { c with q := tput 0 c.q q v,
           qPoison := (List.range 8).foldl (fun t i => tput false t (8 * q + i) (p && i == 0)) c.qPoison }

/-- Ends one reduction sum: its pair goes into its bank entry, or into the Q pair for key 32 (R61, R62, R129, R130). -/
def closeRed (x : Ctx) (c : Cell) (k : Nat) (a : AccRun) : Cell :=
  if k = 32 then
    match a.result fp64 with
    | none => c
    | some p =>
      let n := 2 * x.redQpair
      let o : Pair := ⟨tget 0 c.q n, tget 0 c.q (n + 1)⟩
      let r := if x.redAdd then combTwo fp64 o p else p
      let bad := a.poison || pairPoison fp64 r || (x.redAdd && (qPoisoned c n))
      putQ (putQ c n r.s bad) (n + 1) r.e false
  else
    match a.result fp32 with
    | none => c
    | some p => setBankEntry c x.redBank k (entryPut (bankEntry c x.redBank k) x.redAdd p a.poison)

/-- Ends every reduction sum of a cell. -/
def closeReds (c : Cell) : Cell :=
  let x := c.act
  { c.red.foldl (fun d e => closeRed x d e.1 e.2) c with red := [] }

end Sys2Proof.Machine
end

