-- ==== Sys2Proof/Machine/Crb.lean ====
section
/-!
DEFINITION. Reading a Craith bitstream image: header, sections, region descriptors, frames, programs, windows, phases and
activity classes (R204 to R223).
-/

namespace Sys2Proof.Machine

open Sys2Proof

/-- A section table entry (Table 7.2) with its index. -/
structure Sect where
  typ : Nat
  region : Nat
  rsv : Nat
  off : Nat
  len : Nat
  crc : Nat
  idx : Nat
  deriving DecidableEq, Repr

/-- A region descriptor (Table 7.4) with its image offset and whether a reserved part is nonzero. -/
structure RegDesc where
  id : Nat
  ctxMask : Nat
  program : Bool
  first : Nat
  count : Nat
  entry : Nat
  at_ : Nat
  rsv : Bool
  deriving DecidableEq, Repr

/-- A context frame as parsed (Tables 7.5, 7.6), with its image offset. -/
structure CtxFrame where
  region : Nat
  first : Nat
  rep : Nat
  slot : Nat
  rsv : Bool
  ctx : Ctx
  q : Option (List Byte)
  at_ : Nat
  deriving DecidableEq, Repr

/-- A route frame (R213). -/
structure RtFrame where
  region : Nat
  first : Nat
  rep : Nat
  slot : Nat
  rsv : Bool
  routes : List (BitVec 16)
  rdBase : Nat
  wrBase : Nat
  at_ : Nat
  deriving DecidableEq, Repr

/-- A program subsection (Table 7.10). -/
structure ProgSub where
  region : Nat
  kind : Nat
  mask : Nat
  rsv : Bool
  first : Nat
  count : Nat
  dest : Nat
  bytes : List Byte
  at_ : Nat
  deriving DecidableEq, Repr

def crbImageBytes (im : List Byte) : Nat := field im 8 4
def crbFlags (im : List Byte) : Nat := field im 6 2
def crbSigned (im : List Byte) : Bool := (crbFlags im).testBit 0
def crbFull (im : List Byte) : Bool := (crbFlags im).testBit 1
def crbSectionCount (im : List Byte) : Nat := field im 12 2
def crbSeed (im : List Byte) : Nat := field im 16 8
def crbRanks (im : List Byte) : Nat := field im 24 4
def crbSrMode (im : List Byte) : Nat := field im 28 1

/-- The section table. -/
def crbSections (im : List Byte) : List Sect :=
  (List.range (Nat.min 256 (crbSectionCount im))).map fun i =>
    let e := slice im (128 + 16 * i) 16
    { typ := field e 0 2, region := field e 2 1, rsv := field e 3 1, off := field e 4 4, len := field e 8 4,
      crc := field e 12 4, idx := i }

/-- Bytes of a section. -/
def sectBytes (im : List Byte) (x : Sect) : List Byte := slice im x.off x.len

/-- Sections of a type. -/
def crbOfType (im : List Byte) (t : Nat) : List Sect := (crbSections im).filter fun x => x.typ == t

/-- The region descriptors of the image. -/
def crbRegions (im : List Byte) : List RegDesc :=
  match crbOfType im 2 with
  | [] => []
  | x :: _ =>
    (List.range (Nat.min 64 (x.len / 32))).map fun i =>
      let d := slice im (x.off + 32 * i) 32
      { id := field d 0 1, ctxMask := field d 1 1 % 16, program := (field d 2 1).testBit 0, first := field d 4 2,
        count := field d 6 2, entry := field d 8 4, at_ := x.off + 32 * i,
        rsv := decide (field d 1 1 / 16 ≠ 0) || decide (field d 2 1 / 2 ≠ 0) || decide (field d 3 1 ≠ 0) ||
          decide (leNat (slice d 12 20) ≠ 0) }

/-- The fields of a frame head (Table 7.5): first cell, repeat, slot, Q_IMAGE, REVERSE, reserved. -/
def headFirst (h : Nat) : Nat := bitsOf h 31 0
def headRep (h : Nat) : Nat := bitsOf h 47 32
def headSlot (h : Nat) : Nat := bitsOf h 49 48

/-- Reads one context frame at an offset of its section's bytes. -/
def parseCtxFrame (region at_ : Nat) (b : List Byte) : CtxFrame :=
  let h := field b 0 8
  let qi := h.testBit 50
  let tile := leNat (slice b 8 16)
  let wide := leNat (slice b 24 16)
  let bank := field b 40 8
  let drain := leNat (slice b 112 24)
  let c : Ctx := { region := region, cls := 0, reverse := h.testBit 51, tile := BitVec.ofNat 128 tile,
                   wide := BitVec.ofNat 128 wide, bank := BitVec.ofNat 64 bank,
                   chain := (List.range 16).map fun i => BitVec.ofNat 32 (field b (48 + 4 * i) 4),
                   drain := BitVec.ofNat 192 drain, routes := [], rdBase := 0, wrBase := 0 }
  { region := region, first := headFirst h, rep := headRep h, slot := headSlot h,
    rsv := decide (bitsOf h 63 52 ≠ 0) || decide (bitsOf tile 127 69 ≠ 0) || decide (bitsOf wide 63 38 ≠ 0) ||
      decide (bitsOf wide 127 96 ≠ 0) || decide (bitsOf bank 63 12 ≠ 0) || decide (bitsOf drain 95 73 ≠ 0) ||
      decide (bitsOf drain 191 160 ≠ 0) || decide (leNat (slice b 136 24) ≠ 0),
    ctx := c, q := if qi then some (slice b 160 256) else none, at_ := at_ }

/-- The context frames of a section, with fuel for its length; a cut-off last frame ends the list. -/
def parseCtxFrames (region : Nat) : Nat → Nat → List Byte → List CtxFrame
  | 0, _, _ => []
  | _, _, [] => []
  | k + 1, at_, b =>
    let n := if (field b 0 8).testBit 50 then 416 else 160
    parseCtxFrame region at_ b :: parseCtxFrames region k (at_ + n) (b.drop n)

/-- Whether a context-frame section is a whole number of frames. -/
def ctxFramesWhole : Nat → List Byte → Bool
  | _, [] => true
  | 0, _ => false
  | k + 1, b =>
    let n := if (field b 0 8).testBit 50 then 416 else 160
    decide (n ≤ b.length) && ctxFramesWhole k (b.drop n)

def crbCtxFrames (im : List Byte) : List CtxFrame :=
  ((crbOfType im 3).map fun x => parseCtxFrames x.region (x.len / 160 + 1) x.off (sectBytes im x)).flatten

/-- The route frames of the image. -/
def crbRtFrames (im : List Byte) : List RtFrame :=
  ((crbOfType im 4).map fun x =>
    (List.range (x.len / 32)).map fun i =>
      let b := slice im (x.off + 32 * i) 32
      let h := field b 0 8
      ({ region := x.region, first := headFirst h, rep := headRep h, slot := headSlot h,
         rsv := decide (bitsOf h 63 50 ≠ 0) || decide (bitsOf (field b 24 2) 15 14 ≠ 0) ||
           decide (bitsOf (field b 26 2) 15 14 ≠ 0) || decide (field b 28 4 ≠ 0),
         routes := (List.range 8).map fun j => BitVec.ofNat 16 (field b (8 + 2 * j) 2),
         rdBase := field b 24 2 % 2 ^ 14, wrBase := field b 26 2 % 2 ^ 14, at_ := x.off + 32 * i } : RtFrame)).flatten

/-- The program subsections of a section, with fuel for its length. -/
def parseProg (region : Nat) : Nat → Nat → List Byte → List ProgSub
  | 0, _, _ => []
  | _, _, [] => []
  | k + 1, at_, b =>
    let n := field b 12 4
    let whole := 32 + (n + 31) / 32 * 32
    { region := region, kind := field b 0 1, mask := field b 1 1,
      rsv := decide (field b 1 1 / 16 ≠ 0) || decide (field b 2 2 ≠ 0) || decide (leNat (slice b 16 16) ≠ 0),
      first := field b 4 2, count := field b 6 2, dest := field b 8 4, bytes := slice b 32 n, at_ := at_ } ::
      parseProg region k (at_ + whole) (b.drop whole)

def crbProgs (im : List Byte) : List ProgSub :=
  ((crbOfType im 5).map fun x => parseProg x.region (x.len / 32 + 1) x.off (sectBytes im x)).flatten

/-- The windows of a region (Table 7.11), in index order. -/
def crbWindows (im : List Byte) (region : Nat) : List Window :=
  (((crbOfType im 6).filter fun x => x.region == region).map fun x =>
    (List.range (Nat.min 64 (x.len / 32))).map fun i =>
      let b := slice im (x.off + 32 * i) 32
      ({ kind := field b 0 1, access := field b 1 1, base := field b 8 8, len := field b 16 8 } : Window)).flatten

/-- The phases of a region (Table 7.12). -/
def crbPhases (im : List Byte) (region : Nat) : List PhaseEntry :=
  (((crbOfType im 7).filter fun x => x.region == region).map fun x =>
    (List.range (x.len / 32)).map fun i =>
      let b := slice im (x.off + 32 * i) 32
      ({ id := field b 0 2, ctx := field b 2 1, windowMask := BitVec.ofNat 64 (field b 8 8), maxCount := field b 16 8,
         tapeBytes := field b 24 4 } : PhaseEntry)).flatten

/-- Slots of a mask in ascending order. -/
def slotsOf (mask : Nat) : List Nat := (List.range 4).filter fun i => mask.testBit i

/-- Activity class of a cell in a slot (R222). -/
def crbClass (im : List Byte) (d : RegDesc) (slot cell : Nat) : Nat :=
  match (crbOfType im 8).find? fun x => x.region == d.id with
  | none => 0
  | some x =>
    let k := ((slotsOf d.ctxMask).takeWhile fun i => i != slot).length
    let i := k * 80 * d.count + (cell - d.first * 80)
    let b := field im (x.off + i / 2) 1
    if i % 2 = 0 then b % 16 else b / 16

/-- The 1 MiB chunks of an image, with fuel for their number. -/
def crbChunks : Nat → List Byte → List (List Byte)
  | 0, _ => []
  | _, [] => []
  | k + 1, l => l.take 0x100000 :: crbChunks k (l.drop 0x100000)

/-- The image digest of R224: the signature section's bytes are read as zero. -/
def crbDigest (im : List Byte) : List Byte :=
  let blank := match crbOfType im 1 with
    | [] => im
    | x :: _ => splice im x.off (List.replicate x.len 0)
  let chunks := crbChunks (blank.length / 0x100000 + 1) blank
  sha3_384 (leBytes 8 im.length ++ (chunks.map sha3_384).flatten)

/-- Regions that a load's image writes. -/
def Load.regions (l : Load) : List RegDesc := crbRegions l.image

/-- Whether a load writes a region: it names it, or is FULL and takes it away (R208, R229). -/
def Load.writes (l : Load) (region : Nat) : Bool := crbFull l.image || l.regions.any fun d => d.id == region

/-- Whether a load has passed its commit point (R229). -/
def Load.committed (l : Load) : Bool := l.stage == .apply || (l.stage == .report && l.check == 0)

/-- Whether a RUN_PHASE for a region waits behind a load: one in HOLD, or past its commit point, that writes it (R230). -/
def heldByLoad (s : State) (region : Nat) : Bool :=
  s.fb.loads.any fun l => (l.stage == .hold || l.committed) && l.writes region

end Sys2Proof.Machine
end

