-- ==== Sys2Proof/Machine/Runs.lean ====
section
/-!
DEFINITION. Phases and programs running in regions: their start on a core, their end, the TW records they close and the
completion of their command (R141 to R148, R194, R201, R419, R420).
-/

namespace Sys2Proof.Machine

open Sys2Proof

/-- Cores of a region, ascending. -/
def Region.cores (r : Region) : List Nat := (List.range (4 * r.count)).map fun i => 4 * r.first + i

/-- Dies of a region. -/
def Region.dies (r : Region) : BitVec 8 :=
  (List.range 8).foldl (fun (m : BitVec 8) d =>
    if r.first < 150 * (d + 1) && 150 * d < r.first + r.count then m ||| 1 <<< d else m) 0

/-- The run under way in a region. -/
def runOf (s : State) (region : Nat) : Option Run := (s.fb.runs.find? fun e => e.1 == region).map Prod.snd

def setRun (s : State) (region : Nat) (r : Run) : State :=
  { s with fb := { s.fb with runs := (region, r) :: s.fb.runs.filter fun e => e.1 != region } }

def modRun (s : State) (region : Nat) (f : Run → Run) : State :=
  { s with fb := { s.fb with runs := s.fb.runs.map fun e => if e.1 == region then (e.1, f e.2) else e } }

def dropRun (s : State) (region : Nat) : State :=
  { s with fb := { s.fb with runs := s.fb.runs.filter fun e => e.1 != region } }

/-- Whether some phase, or a program, runs in a region (R77, R195). -/
def regionRunning (s : State) (region : Nat) : Bool := (runOf s region).isSome

/-- Inserts into an ascending list without repeats. -/
def insertNat (n : Nat) : List Nat → List Nat
  | [] => [n]
  | m :: r => if n < m then n :: m :: r else if n = m then m :: r else m :: insertNat n r

/-- Marks a logical cluster's fault record in its region's run (R283). -/
def markPoisoned (s : State) (core : Nat) : State :=
  modRun s (getCore s core).region fun r => { r with poisoned := insertNat (clusterOf core) r.poisoned }

/-- Adds faulting elements to a core's SEQ_SFAULT registers (R155, R283, Table 6.10); `bit` 0 stream, 1 move. -/
def coreFault (core bit index count : Nat) (s : State) : State :=
  if count = 0 then s
  else
    let c := getCore s core
    let first := c.sfCause == 0
    let total := Nat.min (2 ^ 64 - 1) (c.sfCount.toNat + count)
    markPoisoned (setCore s core { c with
      sfCause := c.sfCause ||| BitVec.ofNat 64 (2 ^ bit),
      sfIndex := if first then BitVec.ofNat 64 index else c.sfIndex,
      sfCount := BitVec.ofNat 64 total }) core

/-! ### TW records -/

/-- VALUES of a set of counts: bins plus NAN plus POISON (Table 4.4). -/
def valuesOf (t : Tbl Nat) : Nat :=
  (List.range 64).foldl (fun n i => n + tget 0 t i) (tget 0 t 66 + tget 0 t 67)

/-- Logarithmic bin (Table 4.8). -/
def logBin (n : Nat) : Nat := if n = 0 then 0 else Nat.min 63 (Nat.log2 n + 1)

/-- Folds a closed record into its format's cumulative record: 64-bit totals that wrap (R148).  Of FLAGS and STACKS, which the
rule does not name, it keeps the OR over every record folded in: DESIGN CHOICE (log entry 404). -/
def foldCum (old : TwRec) (r : TwRec) : TwRec :=
  let t := (List.range 69).foldl (fun (t : Tbl Nat) i =>
    tput 0 t i ((tget 0 old.counts i + tget 0 r.counts i) % 2 ^ 64)) []
  { r with counts := t, flags := old.flags ||| r.flags, stackSet := old.stackSet ||| r.stackSet }

/-- An empty TW record. -/
def TwRec.empty : TwRec := { seq := 0, tag := 0, phaseId := 0, fmt := 0, flags := 0, step := 0, stackSet := 0, counts := [] }

/-- Sends EXP_HISTOGRAM and SAT_VANISH for a format's cumulative record (R150). -/
def sendTotals (r : TwRec) (s : State) : State :=
  let head := [r.fmt, r.flags, r.seq % 2 ^ 48]
  let s1 := postTele s 0x12 0x10 (.counts (head ++ (List.range 64).map fun i => logBin (tget 0 r.counts i)))
  let five := [tget 0 r.counts 64, tget 0 r.counts 65, tget 0 r.counts 66, tget 0 r.counts 67, tget 0 r.counts 68]
  postTele s1 0x13 0x10 (.counts (head ++ [valuesOf r.counts % 2 ^ 64] ++ five))

/-- Whether a die drains to a format in a list of 16 die + f. -/
def onSomeDie (l : List Nat) (fmt : Nat) : Bool := l.any fun k => k % 16 == fmt

/-- The record's sum of the die totals of one format, 64 bits wide (R141). -/
def recordSum (o : OpenRec) (fmt i : Nat) : Nat :=
  Nat.min (2 ^ 64 - 1) ((List.range 8).foldl (fun n d => n + tget 0 o.tot (72 * (16 * d + fmt) + i)) 0)

/-- Formats of a phase's records being summed, ascending (R143, TW_STATUS.OPEN). -/
def OpenRec.formats (o : OpenRec) : List Nat := (List.range 16).filter (onSomeDie o.fmts)

/-- Closes one record of a phase for one format (R143, R146 to R148).  STACKS has the bit of every die whose cores ended the phase
and were added, whatever formats they drain to: DESIGN CHOICE (log entry 404). -/
def closeFmt (o : OpenRec) (run : Run) (fmt : Nat) (s : State) : State :=
  let counts := (List.range 69).foldl (fun (t : Tbl Nat) i => tput 0 t i (recordSum o fmt i)) []
  let full := onSomeDie o.sat fmt
  let flags := b2n full + b2n o.incomplete * 2 + (if tget 0 counts 67 = 0 then 0 else 4)
  let seq := s.tw.head + 1
  let r : TwRec := { seq := seq, tag := run.handle, phaseId := o.phaseId, fmt := fmt, flags := flags, step := run.step,
                     stackSet := o.dies.toNat, counts := counts }
  let cum := foldCum (tget TwRec.empty s.tw.cum fmt) r
  let st := s.tw.status ||| (if o.incomplete then 1 else 0) ||| (if full then 2 else 0)
  let ring := (r :: s.tw.ring).take 16384
  sendTotals cum { s with tw := { s.tw with head := seq, status := st, ring := ring,
                                            cum := tput TwRec.empty s.tw.cum fmt cum } }

/-- Closes a phase's records in ascending format code (R143). -/
def closeOpen (o : OpenRec) (run : Run) (s : State) : State :=
  let s1 := o.formats.foldl (fun st f => closeFmt o run f st) s
  { s1 with tw := { s1.tw with opens := s1.tw.opens.filter fun x => x != o } }

/-- Closes the records still open for a region's run, in the order in which their phases began to end (R143). -/
def closeRegion (region : Nat) (run : Run) (s : State) : State :=
  (s.tw.opens.filter fun o => o.region == region).foldl (fun st o => closeOpen o run st) s

/-- The largest value of a 48-bit total, at which it stays (R141). -/
def totalMax : Nat := 2 ^ 48 - 1

/-- Adds core totals to its die's totals (R141); `sat` lists the formats of which a counter below is saturated. -/
def addTotals (o : OpenRec) (core : Nat) (tot : Tbl Nat) (fmts sat : List Nat) : OpenRec :=
  let d := dieOfCore core
  let up := fun (k : Nat) => 72 * 16 * d + k
  let t := tot.foldl (fun (t : Tbl Nat) e => tput 0 t (up e.1) (Nat.min totalMax (tget 0 t (up e.1) + e.2))) o.tot
  let full := (tot.filter fun e => decide (totalMax ≤ tget 0 t (up e.1))).map fun e => e.1 / 72
  { o with cores := insertNat core o.cores, tot := t, fmts := fmts.foldl (fun l f => insertNat (16 * d + f) l) o.fmts,
           dies := o.dies ||| 1 <<< d, sat := (sat ++ full).foldl (fun l f => insertNat (16 * d + f) l) o.sat }

/-- A die's totals are left out of a record (R144). -/
def dropDie (o : OpenRec) (die : Nat) : OpenRec :=
  { o with tot := tfilter (fun k => k / (72 * 16) != die) o.tot, fmts := o.fmts.filter fun k => k / 16 != die,
           sat := o.sat.filter fun k => k / 16 != die, dies := o.dies &&& ~~~BitVec.ofNat 8 (2 ^ die), incomplete := true }

/-- Sums a core's cell counters per target format into 48-bit core totals (R141, R142); also the formats its cells drain
to and those of which a cell counter, or the total, is saturated.  Key 69 of a cell is no counter of the device: it holds the
poisoned values a RAW drain let out (R260). -/
def coreTotals (s : State) (core : Nat) : Tbl Nat × List Nat × List Nat :=
  (cellsOf core).foldl (fun (acc : Tbl Nat × List Nat × List Nat) i =>
    let c := getCell s i
    let x := c.act
    if x.dsrc = 0 || x.raw then acc
    else
      let f := x.dfmt
      let ks := tfilter (fun k => decide (k < 69)) c.counts
      let t := ks.foldl (fun (t : Tbl Nat) e =>
        tput 0 t (72 * f + e.1) (Nat.min totalMax (tget 0 t (72 * f + e.1) + e.2))) acc.1
      let full := ks.any fun e => decide (2 ^ 32 - 1 ≤ e.2) || decide (totalMax ≤ tget 0 t (72 * f + e.1))
      (t, insertNat f acc.2.1, if full then insertNat f acc.2.2 else acc.2.2)) ([], [], [])

/-! ### Starting -/

/-- A phase starts on a core (R67, R71, R182): its cells latch and clear, and the table store's shadow becomes live. -/
def startPhaseOn (core : Nat) (p : CorePhase) (s : State) : State :=
  let s1 := (cellsOf core).foldl cellPhaseStart s
  modCore s1 core fun c => { c with phase := some p, tlive := c.tshadow, tliveP := c.tshadowP, region := p.region }

/-- Switches a core's cells to a resident context (R76). -/
def switchCore (core slot : Nat) (s : State) : State :=
  (cellsOf core).foldl (fun st i => modCell st i fun c => { c with active := slot }) s

/-- A program starts on a core (R179, R202). -/
def startProgramOn (core : Nat) (region entry : Nat) (run : Run) (s : State) : State :=
  modCore s core fun c =>
    { c with g := [], gp := [], f := [], fp := [], pc := BitVec.ofNat 64 entry, running := true, ended := false,
             fault := none, region := region, step := run.step, tag := run.handle, streams := [], moves := [],
             psync := 0, psyncWait := false, phase := none, lastPhase := 0, lastPoisoned := false, sfCause := 0,
             sfIndex := 0, sfCount := 0, tot := [] }

/-- Sends a run's PHASE_START to the data plane (Table 1.4) and opens the run. -/
def openRun (region : Nat) (r : Run) (s : State) : State :=
  postDown (setRun s region r) 0x01 (.phaseStart region r.phaseId r.count r.handle r.step r.program)

/-- The run that a RUN_PHASE or RUN_PROGRAM command asks for. -/
def runFor (c : Instr) (handle : Nat) : Option (Nat × Run) :=
  match c with
  | .runPhase h region phase count =>
    some (region, { handle := handle, step := h.step.toNat, program := false, phaseId := phase, count := count,
                    started := 0, endedCores := [], poisoned := [], seqFault := none })
  | .runProgram h region =>
    some (region, { handle := handle, step := h.step.toNat, program := true, phaseId := 0, count := 0, started := 0,
                    endedCores := [], poisoned := [], seqFault := none })
  | _ => none

/-- What refuses a run of a region: absent region, phase or program, or a count above MAX_COUNT (R218, R419); 0 nothing. -/
def runCheck (s : State) (region : Nat) (r : Run) : Nat :=
  match regionOf s region with
  | none => 0x0104
  | some g =>
    if r.program then (if g.program then 0 else 0x0104)
    else
      match g.phases.find? fun p => p.id == r.phaseId with
      | none => 0x0104
      | some p => if p.maxCount < r.count then 0x0121 else 0

/-- Whether a SWITCH_CONTEXT of a region has been sent and some die has still to take it: no phase starts before (R236). -/
def switchOpen (s : State) (region : Nat) : Bool :=
  let mine := fun (p : Payload) => match p with
    | .ctxSwitch r _ _ => r == region
    | _ => false
  s.ws.down.any (fun m => mine m.payload) || s.ws.waitDown.any (fun e => mine e.2) || s.ws.ni.any fun e => mine e.1.payload

/-- Starts the oldest command that waits on an idle region, unless a load in HOLD stands before it (R230, R419); a load may
have taken away what a command names, which then completes so. -/
def startWaits (region : Nat) : Nat → State → State
  | 0, s => s
  | fuel + 1, s =>
    if regionRunning s region || heldByLoad s region || switchOpen s region then s
    else
      match s.fb.waits.find? fun w => w.1 == region with
      | none => s
      | some (_, h, c) =>
        let s1 := { s with fb := { s.fb with waits := lremove (fun w => w.2.1 == h) s.fb.waits } }
        match runFor c h with
        | some (rg, r) =>
          let st := runCheck s1 rg r
          if st = 0 then openRun rg r s1 else startWaits region fuel (complete h st 0 [] s1)
        | none => s1

/-- Starts the next command that waits on a region. -/
def startNextWait (region : Nat) (s : State) : State := startWaits region s.fb.waits.length s

/-! ### Ending -/

/-- Packs the first sixteen logical clusters, four a word; unused entries are 0xFFFF (R420). -/
def poisonWords (l : List Nat) : List W64 :=
  (List.range 4).map fun w =>
    BitVec.ofNat 64 (leNat (((List.range 4).map fun i => leBytes 2 (lget 0xFFFF l (4 * w + i))).flatten))

/-- The CP_POISON_MAP words of a list of clusters (Table 13.17). -/
def poisonMapOf (l : List Nat) : Tbl W64 :=
  l.foldl (fun (t : Tbl W64) c => tput 0 t (c / 64) (tget 0 t (c / 64) ||| BitVec.ofNat 64 (2 ^ (c % 64)))) []

/-- Ends a region's run and posts its COMPLETION; the next waiting command may then start (R143, R201, R419, R420). -/
def finishRun (region : Nat) (r : Run) (s : State) : State :=
  let s1 := dropRun s region
  let s2 :=
    match r.seqFault with
    | some (cl, core, cause, pc) =>
      let w := cl % 2 ^ 16 + core % 4 * 2 ^ 16 + cause % 16 * 2 ^ 20 + pc.toNat % 2 ^ 32 * 2 ^ 32
      postCompletion r.handle 0x0201 0 [BitVec.ofNat 64 w, 0, 0, BitVec.ofNat 64 s1.tw.head] s1
    | none =>
      if r.poisoned.isEmpty then postCompletion r.handle 0 0 [0, 0, 0, BitVec.ofNat 64 s1.tw.head] s1
      else
        let more := if 16 < r.poisoned.length then 4 else 0
        let s' := modCp s1 (portOfHandle r.handle) fun c => { c with poisonMap := poisonMapOf r.poisoned }
        postCompletion r.handle 0x0200 more (poisonWords r.poisoned) s'
  startNextWait region s2

/-- Whether a phase runs on some core of a region. -/
def phasesRunning (s : State) (r : Region) : Bool := r.cores.any fun i => (getCore s i).phase.isSome

/-- Whether some core of a region has streams or moves that are not complete. -/
def transfersRunning (s : State) (r : Region) : Bool :=
  r.cores.any fun i => !(getCore s i).streams.isEmpty || !(getCore s i).moves.isEmpty

/-- Ends a faulted run once the phases already running have ended, and the streams and moves already issued have run to
completion; its open records close first (R143, R201). -/
def finishFaulted (region : Nat) (s : State) : State :=
  match runOf s region, regionOf s region with
  | some r, some g =>
    if r.seqFault.isSome && !phasesRunning s g && !transfersRunning s g then finishRun region r (closeRegion region r s) else s
  | _, _ => s

/-- A core's phase ends (R141 to R143, Table 6.10): totals into the core's CSRs and the region's open record, which closes
when every core of the region has ended; the command of a single phase then completes. -/
def endPhaseOn (core : Nat) (p : CorePhase) (s0 : State) : State :=
  let s := (cellsOf core).foldl (fun st i => if (getCell st i).red.isEmpty then st else modCell st i closeReds) s0
  let (tot, fmts, sat) := coreTotals s core
  let poisoned := (cellsOf core).any fun i =>
    let c := getCell s i
    decide (tget 0 c.counts 67 ≠ 0)
  let mirrorPoison := (cellsOf core).any fun i =>
    let c := getCell s i
    c.act.reverse && (decide (tget 0 c.counts 67 ≠ 0) || decide (tget 0 c.counts 69 ≠ 0))
  let s1 := modCore s core fun c => { c with phase := none, lastPhase := p.id, lastPoisoned := poisoned, tot := tot }
  let s2 := if mirrorPoison then markPoisoned s1 core else s1
  match runOf s2 p.region, regionOf s2 p.region with
  | some run, some g =>
    if p.late then finishFaulted p.region s2 else
    let mine := fun (o : OpenRec) => o.region == p.region && o.phaseId == p.id && !o.cores.contains core
    let fresh : OpenRec := { region := p.region, phaseId := p.id, cores := [], tot := [], fmts := [], dies := 0,
                             sat := [], incomplete := false }
    let (o, others) := match s2.tw.opens.find? mine with
      | some o => (o, lremove mine s2.tw.opens)
      | none => (fresh, s2.tw.opens)
    let o1 := addTotals o core tot fmts sat
    let run1 := { run with endedCores := insertNat core run.endedCores }
    let s3 := setRun { s2 with tw := { s2.tw with opens := others ++ [o1] } } p.region run1
    let all := g.cores.all fun i => o1.cores.contains i
    let s4 := if all then closeOpen o1 run1 s3 else s3
    if !run1.program && all then finishRun p.region run1 s4 else finishFaulted p.region s4
  | _, _ => s2

end Sys2Proof.Machine
end

