-- ==== Sys2Proof/Machine/Hold.lean ====
section
/-!
DEFINITION. Writes from outside a cell to stores that a running phase holds: they wait until the phase ends (R74, R163), and
the COPY they belong to with them.
-/

namespace Sys2Proof.Machine

open Sys2Proof

/-- Bytes that `n` elements of a format take. -/
def bytesFor (fmt n : Nat) : Nat := (n * fmtBits fmt + 7) / 8

/-- The stationary operand of a context: first byte and length (R52, R211). -/
def Ctx.statArea (x : Ctx) : List (Nat × Nat) :=
  let r := x.storedRole
  if x.tileEn && decide (r ≤ 3) then
    [(x.statBase, bytesFor (if r ≤ 1 then x.fmtB else x.fmtA) (x.kLen * (if r ≤ 1 then 8 else 4)))]
  else []

/-- The drain table of a context. -/
def Ctx.tableArea (x : Ctx) : List (Nat × Nat) :=
  if x.usesTable then [(x.tableBase, 80)] else []

/-- Areas of the cell store a context names: first byte, length, whether it writes there (R52, Table 7.6). -/
def Ctx.areas (x : Ctx) : List (Nat × Nat × Bool) :=
  let r := x.storedRole
  let stream := if x.tileEn && x.streamFromStore then
      let n := if r = 5 then 256 else if r ≤ 1 then bytesFor x.fmtA (4 * x.kLen) else if r ≤ 3 then bytesFor x.fmtB (8 * x.kLen)
        else bytesFor x.fmtA (4 * x.kLen)
      [(x.streamBase, n, false)]
    else []
  let dest := if x.dsrc != 0 && x.ddestStore then
      let n := if !x.raw && (x.dfmt == 9 || x.dfmt == 10) && x.dsrc ≤ 2 then 200
        else if x.dsrc = 1 then (if x.raw then 256 else bytesFor x.dfmt 32)
        else if x.dsrc = 2 then bytesFor (if x.raw then x.wcode else x.dfmt) x.wpack
        else (if x.raw then 16 else bytesFor x.dfmt 1)
      [(x.destBase, n, true)]
    else []
  (x.statArea ++ x.tableArea).map (fun a => (a.1, a.2, false)) ++ stream ++ dest

/-- Whether a piece of a cell store lies in what the active context of a cell with a running phase declares stationary or
as its drain table (R74). -/
def cellHeld (s : State) (cell off n : Nat) : Bool :=
  let x := (getCell s cell).act
  (getCore s (coreOfCell cell)).phase.isSome &&
    (x.statArea ++ x.tableArea).any fun a => decide (a.1 < off + n) && decide (off < a.1 + a.2)

/-- Whether a piece of a cluster store lies in a window that a phase running in the cluster declares for reading streams or
as a tape (R163). -/
def clusterHeld (s : State) (cluster off n : Nat) : Bool :=
  (List.range 4).any fun k =>
    match (getCore s (4 * cluster + k)).phase with
    | none => false
    | some p =>
      match regionOf s p.region with
      | none => false
      | some r =>
        let mask := match r.phases.find? fun e => e.id == p.id with
          | some e => e.windowMask
          | none => 0
        ((List.range r.windows.length).zip r.windows).any fun e =>
          mask.getLsbD e.1 && (e.2.kind == 1 || (e.2.kind == 0 && e.2.access.testBit 0)) &&
            decide (e.2.base < off + n) && decide (off < e.2.base + e.2.len)

/-- Whether a host write of a piece of one sector is held. -/
def storeHeld (s : State) (a n : Nat) : Bool :=
  match addrKind a with
  | .cellStore => cellHeld s ((a - cellStoreBase) / 0x4000) ((a - cellStoreBase) % 0x4000) n
  | .clusterStore => clusterHeld s ((a - clusterStoreBase) / 0x200000) ((a - clusterStoreBase) % 0x200000) n
  | _ => false

/-- A write of a piece of one sector by an agent that is no host, from outside the cell: held where a cell's active context holds
the place (R74). -/
def outerSector (a : Nat) (bs : List Byte) (poison : Bool) (s : State) : State :=
  let held := match addrKind a with
    | .cellStore => storeHeld s a bs.length
    | _ => false
  if held || s.mem.heldWrites.any fun w => w.addr / 32 == a / 32 then
    { s with mem := { s.mem with heldWrites := s.mem.heldWrites ++ [⟨a, bs, poison, none⟩] } }
  else writeSector s a bs poison

/-- A host write of a piece of one sector: at once, or held, behind any write of the sector that is held already. -/
def hostSector (handle : Option Nat) (a : Nat) (bs : List Byte) (poison : Bool) (s : State) : State :=
  if storeHeld s a bs.length || s.mem.heldWrites.any fun w => w.addr / 32 == a / 32 then
    { s with mem := { s.mem with heldWrites := s.mem.heldWrites ++ [⟨a, bs, poison, handle⟩] } }
  else writeSector s a bs poison

/-- Completes the COPY commands whose last sector is written (Table 13.5). -/
def settleCopies (s : State) : State :=
  let done := s.mem.copies.filter fun c => !s.mem.heldWrites.any fun w => w.handle == some c.1
  let s1 := { s with mem := { s.mem with
    copies := s.mem.copies.filter fun c => s.mem.heldWrites.any fun w => w.handle == some c.1 } }
  done.foldl (fun st c => complete c.1 c.2.1 0 c.2.2 st) s1

/-- A phase has ended: the held writes that no phase holds any longer are made, in their order. -/
def releaseWrites (s : State) : State :=
  let go := s.mem.heldWrites.filter fun w => !storeHeld s w.addr w.bytes.length
  let s1 := { s with mem := { s.mem with heldWrites := s.mem.heldWrites.filter fun w => storeHeld s w.addr w.bytes.length } }
  settleCopies (go.foldl (fun st w => writeSector st w.addr w.bytes w.poison) s1)

end Sys2Proof.Machine
end

