-- ==== Sys2Proof/Machine/Memory.lean ====
section
/-!
DEFINITION. The memory controllers: the Reed-Solomon code of the burst, reads with symbol errors, writes, patrol, pin
failures and the retirement of sub-channels (R262, R266, R270 to R279, R292, R516).
-/

namespace Sys2Proof.Machine

open Sys2Proof

/-! ### The code of R270 -/

/-- Locator of symbol `j`: the first symbol is the coefficient of the highest power (log entry 36). -/
def rsLocator (j : Nat) : Byte := gfPow (35 - j)

/-- a to the power n in GF(2^8). -/
def gfExp (a : Byte) (n : Nat) : Byte := (List.range n).foldl (fun x _ => gfMul x a) 1

/-- Inverse in GF(2^8): a^254. -/
def gfInv (a : Byte) : Byte := gfExp a 254

/-- An error pattern as 36 symbols; errors on one symbol add. -/
def errSymbols (errs : List (Nat × Byte)) : List Byte :=
  (List.range 36).map fun j => (errs.filter fun e => e.1 == j).foldl (fun x e => x ^^^ e.2) 0

/-- Syndrome i of an error pattern: a codeword contributes nothing (generator roots α^0, α^1, α^2). -/
def syndrome (e : List Byte) (i : Nat) : Byte :=
  ((List.range 36).zip e).foldl (fun x p => x ^^^ gfMul p.2 (gfExp (rsLocator p.1) i)) 0

/-- What the decoder does with an error pattern: the corrections it applies by symbol, or none where it detects an error it
cannot correct.  Normal mode corrects one symbol; with a failed pin its three symbols are erasures (R270, R276). -/
def rsDecode (failedPin : Option Nat) (e : List Byte) : Option (List (Nat × Byte)) :=
  let s0 := syndrome e 0
  let s1 := syndrome e 1
  let s2 := syndrome e 2
  match failedPin with
  | some p =>
    let x1 := rsLocator (3 * p)
    let x2 := rsLocator (3 * p + 1)
    let x3 := rsLocator (3 * p + 2)
    let solve := fun (a b c : Byte) =>
      gfMul (s2 ^^^ gfMul (b ^^^ c) s1 ^^^ gfMul (gfMul b c) s0) (gfInv (gfMul (a ^^^ b) (a ^^^ c)))
    some ([(3 * p, solve x1 x2 x3), (3 * p + 1, solve x2 x1 x3), (3 * p + 2, solve x3 x1 x2)].filter fun c => c.2 != 0)
  | none =>
    if s0 = 0 && s1 = 0 && s2 = 0 then some []
    else if s0 = 0 || s1 = 0 then none
    else
      let x := gfMul s1 (gfInv s0)
      if gfMul s1 x != s2 then none
      else ((List.range 36).find? fun j => rsLocator j == x).map fun j => [(j, s0)]

/-! ### Sub-channels -/

/-- Field values of an MC_SUBCH_MAP entry (Table 9.12). -/
def subState (w : W32) : Nat := bitsOf w.toNat 7 5
def subLogical (w : W32) : Nat := bitsOf w.toNat 4 0
def subPin (w : W32) : Nat := bitsOf w.toNat 12 8

/-- An entry from its fields. -/
def subWord (logical state pin : Nat) (field : Bool) : W32 :=
  BitVec.ofNat 32 (logical + state * 2 ^ 5 + pin * 2 ^ 8 + b2n field * 2 ^ 13)

/-- Entry of a physical sub-channel of a stack. -/
def subAt (s : State) (stack p : Nat) : W32 := lget 0 s.mem.subch (stack * 32 + p)

/-- Writes an entry. -/
def setSub (stack p : Nat) (w : W32) (s : State) : State :=
  { s with mem := { s.mem with subch := s.mem.subch.set (stack * 32 + p) w } }

/-- Saves the sub-channel part of the repair map (R516). -/
def saveSubch (s : State) : State := writeMap { repairMap s with subch := s.mem.subch } s

/-- The failed pin with which a sub-channel in service decodes by erasure, none in normal mode (R276): states 2 to 4. -/
def erasurePin (w : W32) : Option Nat :=
  if 2 ≤ subState w && subState w ≤ 4 && subPin w < 12 then some (subPin w) else none

/-- An unused spare of a controller, the lowest. -/
def unusedSpare (s : State) (stack : Nat) : Option Nat :=
  (List.range 32).find? fun p => subState (subAt s stack p) == 1

/-- A sub-channel becomes dead; a copy from it is abandoned (R278). -/
def killSub (stack p : Nat) (s : State) : State :=
  let w := subAt s stack p
  let spares := (s.mem.retires.filter fun r => r.stack == stack && r.failing == p && r.copying).map (·.spare)
  let s1 := { s with mem := { s.mem with retires := s.mem.retires.filter fun r => !(r.stack == stack && r.failing == p) } }
  let s2 := spares.foldl (fun t q => setSub stack q (subWord 31 1 31 false) t) s1
  let s3 := saveSubch (setSub stack p (subWord (subLogical w) 6 (subPin w) true) s2)
  noteEvent 0x000E [BitVec.ofNat 8 stack, BitVec.ofNat 8 p] s3

/-- A retirement that waits for its copy. -/
def waitingRetire (stack p pin : Nat) : Retire :=
  { stack := stack, failing := p, spare := 0, pin := pin, copying := false, ptr := 0 }

/-- A spare fails while a copy runs to it: it is retired, and the sub-channel it copies, part of whose data it alone holds, is
dead (R277, R278; log entry 904). -/
def loseCopy (stack p : Nat) (s : State) : State :=
  let out := s.mem.retires.filter fun r => r.stack == stack && r.spare == p && r.copying
  saveSubch (setSub stack p (subWord 31 5 31 true) (out.foldl (fun t r => killSub stack r.failing t) s))

/-- A pin is declared failed (R276, R278): a first failure puts its sub-channel in erasure mode and asks for retirement, a
second on the same sub-channel makes it dead.  A spare that a copy runs to decodes by erasure, and its own retirement begins
when the copy is complete; an unused spare is retired. -/
def pinFailed (stack p pin : Nat) (s : State) : State :=
  let w := subAt s stack p
  match subState w with
  | 0 =>
    let s1 := setSub stack p (subWord (subLogical w) 2 pin true) s
    let s2 := saveSubch { s1 with mem := { s1.mem with retires := s1.mem.retires ++ [waitingRetire stack p pin] } }
    remapPending 3 (stack * 32 + p) pin s2
  | 1 => saveSubch (setSub stack p (subWord 31 5 pin true) s)
  | 2 => if subPin w = pin then s else killSub stack p s
  | 3 => if subPin w = pin then s else killSub stack p s
  | 4 =>
    if subPin w = pin then s
    else if subPin w < 12 then loseCopy stack p s
    else saveSubch (setSub stack p (subWord 31 4 pin true) s)
  | _ => s

/-- Several pins of a sub-channel fail together (R278). -/
def pinsFailed (stack p : Nat) (s : State) : State :=
  match subState (subAt s stack p) with
  | 1 => saveSubch (setSub stack p (subWord 31 5 31 true) s)
  | 4 => loseCopy stack p s
  | 5 => s
  | 6 => s
  | _ => killSub stack p s

/-- PIN_THRESH; 0 is taken as 1 (Table 9.10). -/
def pinThresh (s : State) : Nat := Nat.max 1 (s.mem.retireCtrl.toNat % 2 ^ 16)

/-- Management periods of 1 ms that 2^30 cycles of MCLK last, the last begun one left out (R276; log entry 902). -/
def pinWindow : Nat := 670

/-- Corrected symbols are counted against their pins; pins whose count within the window reaches the threshold have failed
(R276). -/
def countPins (stack p : Nat) (pins : List Nat) (s : State) : State :=
  let now := (tget 0 s.pw.counts 0).toNat
  let key := fun pin => (stack * 32 + p) * 12 + pin
  let l := (s.mem.pinLog.filter fun e => decide (now - e.2 ≤ pinWindow)) ++ pins.map fun pin => (key pin, now)
  let s1 := { s with mem := { s.mem with pinLog := l } }
  let hit := (List.range 12).filter fun pin => pins.contains pin && subPin (subAt s1 stack p) != pin &&
    decide (pinThresh s1 ≤ (l.filter fun e => e.1 == key pin).length)
  match hit with
  | [] => s1
  | [pin] => pinFailed stack p pin s1
  | _ => pinsFailed stack p s1

/-! ### Reading and writing sectors -/

/-- Changes a sector by what the decoder wrongly left in it: data symbols 0 to 31, and the poison bit and tag in symbol
32. -/
def applySymbols (a : Nat) (wrong : List Byte) (s : State) : State :=
  let base := a / 32 * 32
  let data := (readBytes s base 32).zip (wrong.take 32)
  let s1 := writeBytes s base (data.map fun p => p.1 ^^^ p.2)
  let mdata := lget 0 wrong 32
  let s2 := if mdata.getLsbD 0 then setSectorPoison s1 base (!sectorPoison s1 base) else s1
  let dt := bitsOf mdata.toNat 4 1
  if dt = 0 then s2 else putTag s2 base (BitVec.ofNat 4 (tagNow s2 base) ^^^ BitVec.ofNat 4 dt).toNat

/-- Offset of a DRAM address in its sub-channel (R265). -/
def subOffset (a : Nat) : Nat := a / 4096 / 240 * 4096 + a % 4096

/-- The physical sub-channel that serves a DRAM address: below the pointer of a copy, the spare (R277). -/
def serving (s : State) (a : Nat) : Option Nat :=
  (subEntry s (subOf a).1 (subOf a).2).map fun p =>
    match s.mem.retires.find? fun r => r.stack == (subOf a).1 && r.failing == p && r.copying with
    | some r => if subOffset a < r.ptr then r.spare else p
    | none => p

/-- A controller reads a DRAM sector whose burst carries symbol errors: corrected and written back, or written back poisoned,
counted and logged; a tag fault or a dead sub-channel is counted and logged (R271 to R273, R275, R278). -/
def controllerRead (a : Nat) (errs : List (Nat × Byte)) (s0 : State) : State :=
  let s := countLine s0 a
  let stack := (subOf a).1
  if deadSub s a then logMemError (countMem s stack 3 1) a 3
  else
    match serving s a with
    | none => s
    | some p =>
      let e := errSymbols errs
      let base := a / 32 * 32
      let faulted := fun (t : State) => if tagFault t a then logMemError (countMem t stack 2 1) a 2 else t
      match rsDecode (erasurePin (subAt s stack p)) e with
      | none =>
        let s1 := setSectorPoison (writeBytes s base (List.replicate 32 0)) base true
        logMemError (countMem s1 stack 1 1) a 1
      | some fix =>
        let left := (List.range 36).map fun j => lget 0 e j ^^^ ((fix.find? fun c => c.1 == j).map Prod.snd).getD 0
        let s1 := applySymbols a left s
        faulted (countPins stack p (fix.map fun c => c.1 / 3) (countMem s1 stack 0 fix.length))

/-- DRAM_READ (R271 to R273, R276, R278). -/
def execDramRead (addr : Nat) (errs : List (Nat × Byte)) (s : State) : Out :=
  .next (whenTaken (isDram addr && s.mem.ready && !s.mem.selfRefresh) (controllerRead addr errs) s)

/-- DRAM_WRITE (R262, R271, R278). -/
def execDramWrite (addr : Nat) (bytes : List Byte) (poison : Bool) (s : State) : Out :=
  .next (whenTaken (isDram addr && isDram (addr + bytes.length - 1) && s.mem.ready && !s.mem.selfRefresh) (fun st =>
    (sectorPieces addr bytes.length bytes.length).foldl
      (fun t p => writeSector t p.1 (slice bytes (p.1 - addr) p.2) poison) st) s)

/-- Sectors of a controller: 30 sub-channels of 4 GiB. -/
def sectorsOfStack : Nat := 30 * 134217728

/-- Device address of sector `i` of a controller, sub-channel by sub-channel (R265). -/
def patrolAddr (stack i : Nat) : Nat :=
  let sub := i / 134217728
  let off := i % 134217728 * 32
  ((off / 4096) * 240 + sub * 8 + stack) * 4096 + off % 4096

/-- PATROL_READ (R274): the controller reads its next sector. -/
def execPatrolRead (stack : Nat) (errs : List (Nat × Byte)) (s : State) : Out :=
  guardUnit (decide (stack < Config.numDies)) (
    let on := s.mem.patrol.getLsbD 0 && bitsOf s.mem.patrol.toNat 15 8 != 0
    whenTaken (on && s.mem.ready && !s.mem.selfRefresh) (fun st =>
      let n := tget 0 st.mem.patrolPtr stack
      let s1 := controllerRead (patrolAddr stack (n % sectorsOfStack)) errs st
      { s1 with mem := { s1.mem with patrolPtr := tadd s1.mem.patrolPtr stack 1 } }) s)

/-! ### Retirement -/

/-- RETIREMENT_START (R277 to R279, R292): the oldest retirement of the controller that waits starts its copy to the lowest
unused spare. -/
def execRetirementStart (stack : Nat) (s : State) : Out :=
  guardUnit (decide (stack < Config.numDies)) (
    let mine := s.mem.retires.filter fun r => r.stack == stack
    let busy := mine.any (·.copying)
    match mine, unusedSpare s stack with
    | r :: _, some q =>
      whenTaken (!busy && s.mem.ready && !s.mem.selfRefresh) (fun st =>
        let w := subAt st stack r.failing
        let s1 := setSub stack r.failing (subWord (subLogical w) 3 (subPin w) true) st
        let s2 := setSub stack q (subWord 31 4 31 true) s1
        let l := lupdate (fun x => x.stack == stack) (fun x => { x with spare := q, copying := true }) s2.mem.retires
        saveSubch { s2 with mem := { s2.mem with retires := l } }) s
    | _, _ => s)

/-- A retirement ends: the spare takes the logical number (R277, R292); one of whose pins failed in the copy goes on in erasure
mode and waits for its own retirement (R276). -/
def finishRetire (r : Retire) (s : State) : State :=
  let w := subAt s r.stack r.failing
  let bad := subPin (subAt s r.stack r.spare)
  let s1 := setSub r.stack r.spare (subWord (subLogical w) (if bad < 12 then 2 else 0) bad true) s
  let s2 := setSub r.stack r.failing (subWord 31 5 (subPin w) true) s1
  let left := lremove (fun x => x.stack == r.stack && x.failing == r.failing) s2.mem.retires
  let s3 := { s2 with mem := { s2.mem with retires := if bad < 12 then left ++ [waitingRetire r.stack r.spare bad] else left } }
  noteEvent 0x000D [BitVec.ofNat 8 r.stack, BitVec.ofNat 8 r.failing, BitVec.ofNat 8 r.spare, BitVec.ofNat 8 r.pin]
    (saveSubch s3)

/-- The copies under way go on for a period, each by an amount that the model leaves free; a copied sector is read and written
once (R277; log entry 904). -/
def copyOn (s : State) : State :=
  if s.mem.ready && !s.mem.selfRefresh && s.mem.retires.any (·.copying) then
    let r := drawFree s
    let t := r.2
    let more := fun (x : Retire) => Nat.min (2 ^ 27 - x.ptr / 32) (r.1 / 2 ^ (32 * x.stack) % 2 ^ 20)
    let l := t.mem.retires.map fun x => if x.copying then { x with ptr := x.ptr + 32 * more x } else x
    let moved := t.mem.retires.foldl (fun m x => if x.copying then tadd m x.stack (64 * more x) else m) t.mem.moved
    { t with mem := { t.mem with retires := l, moved := moved } }
  else s

/-- RETIREMENT_COMPLETE (R277). -/
def execRetirementComplete (stack : Nat) (s : State) : Out :=
  guardUnit (decide (stack < Config.numDies)) (
    match s.mem.retires.find? fun r => r.stack == stack && r.copying with
    | some r => if s.mem.ready && !s.mem.selfRefresh then finishRetire r s else s
    | none => s)

end Sys2Proof.Machine
end

