-- ==== Sys2Proof/Machine/Repair.lean ====
section
/-!
DEFINITION. Recording failures of cells and clusters, and applying the pending ones at a configuration load (R85 to R90,
R169 to R175, R232).
-/

namespace Sys2Proof.Machine

open Sys2Proof

def setCellRepair (core : Nat) (w : W32) (s : State) : State :=
  { s with fb := { s.fb with cellRepair := tput 0xFFF s.fb.cellRepair core w } }

/-- FB_CELL_REPAIR as a read returns it (Table 2.11). -/
def cellRepairRead (s : State) (core : Nat) : W32 := cellRepairOf s core &&& 0x0003FFFF

/-- Replaces bits hi:lo of a 32-bit word. -/
def putBits (w : W32) (hi lo v : Nat) : W32 :=
  let n := w.toNat
  BitVec.ofNat 32 (n - bitsOf n hi lo * 2 ^ lo + v % 2 ^ (hi + 1 - lo) * 2 ^ lo)

def setClusterMap (i : Nat) (w : W32) (s : State) : State :=
  { s with fb := { s.fb with clusterMap := s.fb.clusterMap.set i w } }

def setCapacity (d : Nat) (w : W32) (s : State) : State :=
  { s with fb := { s.fb with capacity := s.fb.capacity.set d w } }

/-- Rewrites ACTIVE, SPARES and REDUCED of a die (Table 5.4). -/
def putCapacity (d active spares : Nat) (s : State) : State :=
  let w := putBits (putBits (capacityOf s d) 7 0 active) 10 8 spares
  setCapacity d (putBits w 11 11 (b2n (decide (active < 150)))) s

def capActive (s : State) (d : Nat) : Nat := bitsOf (capacityOf s d).toNat 7 0
def capSpares (s : State) (d : Nat) : Nat := bitsOf (capacityOf s d).toNat 10 8

/-- Saves the repair map's cells and clusters (R516); an abandoned write leaves the older copy standing (R515). -/
def saveRepair (s : State) : State :=
  writeMap { repairMap s with cells := s.fb.cellRepair, clusters := s.fb.clusterMap } s

/-! ### Recording -/

/-- A physical cluster is set pending out of service for a cause bit of Table 5.3 (R170); a spare goes out of service at once
(R173). -/
def clusterFail (i cause : Nat) (s : State) : State :=
  let w := clusterMapOf s i
  match mapState w with
  | 0 =>
    remapPending 2 i 0 (saveRepair (setClusterMap i (putBits (putBits (putBits w 9 8 2) cause cause 1) 14 14 1) s))
  | 1 => saveRepair (setClusterMap i (putBits (putBits (putBits w 9 8 3) cause cause 1) 14 14 1) s)
  | 2 => saveRepair (setClusterMap i (putBits w cause cause 1) s)
  | _ => s

/-- A spare that fails its own self-test is marked out of service and is never assigned (R173). -/
def spareFail (i : Nat) (s : State) : State :=
  let w := clusterMapOf s i
  if mapState w = 1 then saveRepair (setClusterMap i (putBits (putBits w 9 8 3) 14 14 1) s) else s

/-- A cell fails (R87, R88): its row's failure is set pending; a second failure of the row exhausts its spare. -/
def cellFail (core row col : Nat) (s : State) : State :=
  let w := cellRepairOf s core
  if (rowPending w row && pendingCol w row == col) || rowFail w row == col then s
  else if rowPending w row || rowFail w row != 7 then
    clusterFail (core / 4) 10 (setCellRepair core (putBits w 16 16 1) s)
  else
    let w1 := putBits (putBits w (12 + row) (12 + row) 1) (20 + 3 * row + 2) (20 + 3 * row) col
    remapPending 1 core row (saveRepair (setCellRepair core w1 s))

/-- A router is bypassed; adjacent failed routers take the stack out of service (R169). -/
def routerFail (i : Nat) (adjacent : Bool) (s : State) : State :=
  let s1 := saveRepair (setClusterMap i (putBits (clusterMapOf s i) 13 13 1) s)
  if adjacent then
    let d := i / 156
    let s2 := putCapacity d 0 (capSpares s1 d) s1
    setCapacity d (putBits (capacityOf s2 d) 12 12 1) s2
  else s1

/-- Records a failed self-test (R87, R169, R170, R173); a unit the module does not have records nothing. -/
def recordTest (t : SelfTest) (s : State) : State :=
  match t with
  | .cell core row col =>
    if core < 4992 && row < 4 && col < 6 then
      cellFail core row col { s with fb := { s.fb with failed := tput false s.fb.failed (24 * core + 6 * row + col) true } }
    else s
  | .storeRows c => if c < 1248 then clusterFail c 11 s else s
  | .stream c => if c < 1248 then clusterFail c 12 s else s
  | .router c adj => if c < 1248 then routerFail c adj s else s
  | .spare c => if c < 1248 then spareFail c s else s

/-! ### Logical and physical -/

/-- Pending clusters of a die to which a load applies remaps, and its unused spares, both ascending (R171, R232). -/
def pendingOf (s : State) (d : Nat) (applies : Nat → Bool) : List Nat :=
  ((List.range 156).map fun p => d * 156 + p).filter fun i =>
    mapState (clusterMapOf s i) == 2 &&
      match servedBy s i with
      | some c => applies c
      | none => true
def sparesOf (s : State) (d : Nat) : List Nat :=
  ((List.range 156).map fun p => d * 156 + p).filter fun i => mapState (clusterMapOf s i) == 1

/-- Whether a logical cluster is out of service, or will be when a load applies remaps (R172, R232). -/
def outOfService (s : State) (applies : Nat → Bool) (cluster : Nat) : Bool :=
  match physOf s cluster with
  | none => true
  | some i =>
    let d := dieOfCluster cluster
    let short := (pendingOf s d applies).drop (sparesOf s d).length
    short.contains i

/-! ### Applying -/

/-- The state a cell keeps between phases, moved with its physical cell: banks, Q registers, counters. -/
def movedCell (data config : Cell) : Cell := { data with ctxs := config.ctxs, active := config.active }

/-- The bytes of a cell's store and its sectors' flags copied from another cell's. -/
def copyStore (src dst : Nat) (s : State) : State :=
  let a := cellStoreAt src
  let b := cellStoreAt dst
  (List.range 512).foldl (fun st i =>
    setSectorPoison (writeBytes st (b + 32 * i) (readBytes st (a + 32 * i) 32)) (b + 32 * i) (sectorPoison st (a + 32 * i))) s

/-- A cell that was power-gated until now: what its store, banks and registers hold is free. -/
def freeCell (cell : Nat) (s : State) : State :=
  let r1 := drawFree s
  let r2 := drawFree r1.2
  let r3 := drawFree r2.2
  let a := cellStoreAt cell
  let s1 := writeBytes r3.2 a (leBytes 16384 r1.1)
  let s2 := (List.range 512).foldl (fun st i => setSectorPoison st (a + 32 * i) (r3.1.testBit i)) s1
  modCell s2 cell fun c =>
    let banks := (List.range 128).foldl (fun (t : Tbl Entry) i =>
      let n := r2.1 / 2 ^ (65 * i)
      tput Entry.zero t i { s := BitVec.ofNat 32 n, e := BitVec.ofNat 32 (n / 2 ^ 32), poison := n.testBit 64 }) []
    let q := (List.range 32).foldl (fun (t : Tbl W64) i => tput 0 t i (BitVec.ofNat 64 (r2.1 / 2 ^ (8320 + 64 * i)))) []
    movedCell { Cell.reset with banks := banks, q := q } c

/-- Logical columns from `f` on take over the next physical column (R85).  What the cells hold afterwards the spec does not say
(DESIGN CHOICE, log entry 219): each logical cell now holds what its right
neighbour held, and the last one is the cell that stood spare. -/
def shiftRow (core row f : Nat) (s : State) : State :=
  let s1 := ((List.range 4).filter fun c => f ≤ c).foldl (fun st c =>
    let i := cellAt core row c
    let j := cellAt core row (c + 1)
    copyStore j i (setCell st i (movedCell (getCell st j) (getCell st i)))) s
  if f ≤ 4 then freeCell (cellAt core row 4) s1 else s1

/-- Applies one row's pending failure (R90). -/
def applyRow (core row : Nat) (s : State) : State :=
  let w := cellRepairOf s core
  let f := pendingCol w row
  let w1 := putBits (putBits w (3 * row + 2) (3 * row) f) (12 + row) (12 + row) 0
  let w2 := putBits (putBits w1 17 17 1) (20 + 3 * row + 2) (20 + 3 * row) 0
  let s1 := setCellRepair core w2 s
  let s2 := match servedBy s (core / 4) with
    | some c => shiftRow (4 * c + core % 4) row f s1
    | none => s1
  noteEvent 0x000B (leBytes 2 core ++ [BitVec.ofNat 8 row, BitVec.ofNat 8 f]) (saveRepair s2)

/-- Whether a load applies the pending failures of a physical cluster: those of logical clusters `applies`, and of clusters
that serve none (R232). -/
def appliesTo (s : State) (applies : Nat → Bool) (i : Nat) : Bool :=
  match servedBy s i with
  | some c => applies c
  | none => true

/-- Addresses of the sectors of a cluster's stores that the copy of R171 cannot read: the failed parts of its cells, and of its
cluster store where rows have failed beyond its spares. -/
def unreadable (s : State) (i cluster : Nat) : List Nat :=
  let rows := if (clusterMapOf s i).getLsbD 11 then
      ((List.range 0x10000).filter fun k => Config.failedRow i k).map fun k => clusterStoreAt cluster + 32 * k
    else []
  let cells := if s.fb.failed.isEmpty then []
    else ((List.range 80).map fun k => ((List.range 512).filter fun j => storeFailed s (80 * cluster + k) (32 * j)).map fun j =>
      cellStoreAt (80 * cluster + k) + 32 * j).flatten
  rows ++ cells

/-- A spare takes a pending cluster's logical number (R171, R175): its stores are copied, its banks and Q registers start at
their scrub values. -/
def moveCluster (i j : Nat) (s00 : State) : State :=
  let d := i / 156
  let l := mapLogical (clusterMapOf s00 i)
  let c := d * 150 + l
  let bad := unreadable s00 i c
  let s := bad.foldl (fun st a => setSectorPoison st a true) s00
  let w := putBits (putBits (putBits (clusterMapOf s i) 7 0 0xFF) 9 8 3) 14 14 1
  let v := putBits (putBits (putBits (clusterMapOf s j) 7 0 l) 9 8 0) 14 14 1
  let v1 := putBits (putBits v 15 15 1) 16 16 (b2n (!bad.isEmpty))
  let s1 := putCapacity d (capActive s d) (capSpares s d - 1) (setClusterMap j v1 (setClusterMap i w s))
  let s2 := (List.range 80).foldl (fun st k => modCell st (80 * c + k) fun x => movedCell Cell.reset x) s1
  noteEvent 0x000C [BitVec.ofNat 8 d, BitVec.ofNat 8 (i % 156), BitVec.ofNat 8 (j % 156), BitVec.ofNat 8 l] (saveRepair s2)

/-- A pending cluster with no spare left goes out of service (R172). -/
def dropCluster (i : Nat) (s : State) : State :=
  let d := i / 156
  let w := putBits (putBits (putBits (clusterMapOf s i) 7 0 0xFF) 9 8 3) 14 14 1
  saveRepair (putCapacity d (capActive s d - 1) (capSpares s d) (setClusterMap i w s))

/-- Rows of a die whose pending failure a load applies: physical core and row. -/
def rowsOf (applies : Nat → Bool) (d : Nat) (s : State) : List (Nat × Nat) :=
  ((s.fb.cellRepair.filter fun e => e.1 / 624 == d && appliesTo s applies (e.1 / 4)).map fun e =>
    ((List.range 4).filter fun r => rowPending e.2 r).map fun r => (e.1, r)).flatten

/-- Whether a load applies some pending failure of a die. -/
def remapsOn (applies : Nat → Bool) (d : Nat) (s : State) : Bool :=
  !(rowsOf applies d s).isEmpty || !(pendingOf s d applies).isEmpty

/-- Applies a load's remaps of one die, and counts them: cells first, then clusters, with the die's counts (R171, R175,
R232). -/
def applyRemaps (applies : Nat → Bool) (d : Nat) (s : State) : State × Nat :=
  let rows := rowsOf applies d s
  let s1 := rows.foldl (fun st e => applyRow e.1 e.2 st) s
  let pend := pendingOf s1 d applies
  let sp := sparesOf s1 d
  let s2 := (pend.zip sp).foldl (fun st e => moveCluster e.1 e.2 st) s1
  let s3 := (pend.drop sp.length).foldl (fun st i => dropCluster i st) s2
  (putCapacity d (capActive s3 d) (sparesOf s3 d).length s3, rows.length + pend.length)

/-- MOVED and COPY_POISON describe the last load (R516). -/
def clearMoved (s : State) : State :=
  { s with fb := { s.fb with clusterMap := s.fb.clusterMap.map fun w => putBits w 16 15 0 } }

end Sys2Proof.Machine
end

