-- ==== Sys2Proof/Machine/Route.lean ====
section
/-!
DEFINITION. The switch boxes: which routes a context has in force, forward and under REVERSE, the merge adder, and how an
element travels over links to its sinks (R80 to R83, R213, R242, R243).
-/

namespace Sys2Proof.Machine

open Sys2Proof

/-- One leg of a route in force: from a source code (Table 7.9) to a sink number; `ent` is the stored entry; `former` is the
stored sink the data comes from in a reversed entry, with `merge` the list of all such sinks of the entry when it merges. -/
structure Leg where
  src : Nat
  sink : Nat
  ent : Nat
  former : Nat
  merge : List Nat
  fp64 : Bool
  deriving DecidableEq, Repr

/-- Sink numbers an entry names, ascending. -/
def sinksOf (w : BitVec 16) : List Nat := (List.range 10).filter fun i => rtSink w i

/-- Whether an entry is a side route in a mirror context (R243). -/
def isSide (x : Ctx) (w : BitVec 16) : Bool :=
  (sinksOf w).all fun i => i == 7 || i == 8 || (i == 6 && x.tileEn) || (i == 5 && x.storedRole == 4)

/-- The stage input's sink under REVERSE: the tile's streamed operand, else wide I0 (Table 8.1). -/
def stageInput (x : Ctx) : Nat :=
  if !x.tileEn then 6
  else
    match x.role with
    | 2 => 5
    | 3 => 5
    | _ => 4

/-- Source code that a stored sink becomes (Table 8.1). -/
def sinkAsSource (sink : Nat) : Nat := if sink < 4 then sink + 1 else if sink = 9 then 8 else 7

/-- Sink number that a stored source becomes (Table 8.1). -/
def sourceAsSink (x : Ctx) (src : Nat) : Nat := if src ≤ 4 then src - 1 else if src = 8 then 9 else stageInput x

/-- The legs of a context's routes in force (R82, R213, R242). -/
def Ctx.legs (x : Ctx) : List Leg :=
  (((List.range 8).zip x.routes).map fun e =>
    let w := e.2
    if rtSrc w = 0 then []
    else if !x.reverse || isSide x w then
      (sinksOf w).map fun i => { src := rtSrc w, sink := i, ent := e.1, former := i, merge := [], fp64 := rtMerge64 w }
    else
      let ss := sinksOf w
      ss.map fun i => { src := sinkAsSource i, sink := sourceAsSink x (rtSrc w), ent := e.1, former := i,
                        merge := if ss.length < 2 then [] else ss, fp64 := rtMerge64 w }).flatten

/-- Neighbour of a cell over link 0 N, 1 E, 2 S, 3 W; none across the core's edge (R80). -/
def neighbour (cell dir : Nat) : Option Nat :=
  let core := coreOfCell cell
  let r := rowOf cell
  let c := colOf cell
  match dir with
  | 0 => if r = 0 then none else some (cellAt core (r - 1) c)
  | 1 => if c = 4 then none else some (cellAt core r (c + 1))
  | 2 => if r = 3 then none else some (cellAt core (r + 1) c)
  | _ => if c = 0 then none else some (cellAt core r (c - 1))

/-- The opposite link. -/
def opposite (dir : Nat) : Nat := (dir + 2) % 4

/-- Key of an edge cell's queue at a stream port. -/
def edgeKey (port cell : Nat) : Nat := 64 * port + 8 * rowOf cell + colOf cell

/-- An element's value in a merge format, exactly widened. -/
def Elem.opnd (e : Elem) : Opnd := ⟨e.bits.toNat, e.poison⟩

/-- The merge adder (R82): sums in the order N, E, S, W, local, each addition rounded to nearest even. -/
def mergeSum (fp64m : Bool) : List Elem → Elem
  | [] => default
  | e :: r =>
    let f := if fp64m then fp64 else fp32
    let z := r.foldl (fun (a : Opnd) x => elemAdd f .rne a x.opnd) e.opnd
    { bits := BitVec.ofNat 64 z.bits, fmt := if fp64m then 0 else 1, poison := z.poison || Opnd.poisoned f z,
      clip := false, tapePoison := false }



/-- Writes bits of `n` bits at bit `bit` of a cell store from byte `base` (R92), each piece of a sector by `put`. -/
def putBitsBy (put : Nat → List Byte → Bool → State → State) (s : State) (cell base bit n v : Nat) (poison : Bool) : State :=
  let a := cellStoreAt cell + base + bit / 8
  if n < 8 then
    let old := (readByte s a).toNat
    let lo := bit % 8
    let b := old - old / 2 ^ lo % 2 ^ n * 2 ^ lo + v % 2 ^ n * 2 ^ lo
    put a [BitVec.ofNat 8 b] poison s
  else (sectorPieces a (n / 8) (n / 8)).foldl (fun st p => put p.1 (slice (leBytes (n / 8) v) (p.1 - a) p.2) poison st) s

/-- A write of bits by the cell itself. -/
def putStoreBits (s : State) (cell base bit n v : Nat) (poison : Bool) : State :=
  putBitsBy (fun a bs p st => writeSector st a bs p) s cell base bit n v poison

/-- Whether a format holds poison in its own encoding, so that a write leaves the sector flag alone (R95). -/
def hasPoisonCode (fmt : Nat) : Bool := fmt ≤ 5 || fmt == 8

/-- Bits and sector flag with which a value is written to memory (R95): the poison encoding where the format has one; zero
bits and the flag else. -/
def storedAs (e : Elem) : Nat × Bool :=
  if !e.poison then (e.bits.toNat, false)
  else
    match fpFmt e.fmt with
    | some f => if hasPoisonCode e.fmt then (if f.isPoison e.bits.toNat then e.bits.toNat else f.poisonBits, false) else (0, true)
    | none => (0, true)

/-- The store write port writes the next element (R213, STORE_WR_BASE).  What comes over a link from outside the cell waits where
the active context holds the place (R74). -/
def storeWrite (s : State) (cell : Nat) (outer : Bool) (e : Elem) : State :=
  let c := getCell s cell
  let n := fmtBits e.fmt
  let v := storedAs e
  let put := if outer then outerSector else fun a bs p st => writeSector st a bs p
  let s1 := putBitsBy put s cell c.act.wrBase (c.wrPos * n) n v.1 v.2
  modCell s1 cell fun c => { c with wrPos := c.wrPos + 1 }

/-- Whether a gated context's tape entries serve both its tile's gate and its chain, each at its own pace (R250, R256). -/
def Ctx.splitsTape (x : Ctx) : Bool := x.gated && x.tileEn && (x.chain.take x.chainLen).any fun w =>
  opCode w != 0 && (opA w == 0x2A || opB w == 0x2A || opC w == 0x2A)

/-- An element leaves by source `src` of a cell: it reaches every sink of the routes in force, over links from cell to cell;
`fuel` bounds the links of one route. -/
def routeFrom : Nat → Nat → Nat → Elem → State → State
  | 0, _, _, _, s => s
  | fuel + 1, cell, src, e, s =>
    let arrive := fun (st : State) (sink : Nat) (e : Elem) =>
      if sink < 4 then
        match neighbour cell sink with
        | some n => routeFrom fuel n (opposite sink + 1) e st
        | none => modCore st (coreOfCell cell) fun c => { c with portOut := tpush c.portOut (edgeKey sink cell) e }
      else if sink = 9 then storeWrite st cell (decide (1 ≤ src) && decide (src ≤ 4)) e
      else modCell st cell fun c =>
        let q := tpush c.inq (sink - 4) e
        { c with inq := if sink = 8 && c.act.splitsTape then tpush q 5 e else q }
    ((getCell s cell).act.legs.filter fun l => l.src == src).foldl (fun st l =>
      if l.merge.isEmpty then arrive st l.sink e
      else
        let st1 := modCell st cell fun c => { c with merge := tpush c.merge (16 * l.ent + l.former) e }
        let qs := l.merge.map fun f => tget [] (getCell st1 cell).merge (16 * l.ent + f)
        if qs.all fun q => !q.isEmpty then
          let z := mergeSum l.fp64 (qs.filterMap List.head?)
          let st2 := modCell st1 cell fun c => { c with
            merge := l.merge.foldl (fun m f => tput [] m (16 * l.ent + f) ((tget [] m (16 * l.ent + f)).drop 1)) c.merge }
          arrive st2 l.sink z
        else st1) s

/-- Links an element can cross: every cell of a core once in each direction. -/
def routeFuel : Nat := 81

/-- Element `i` of the BSI block whose 200-byte slot starts at byte `base` of a cell store: the form its flags name, the partial
with the block's code X above it, and its poison (R98, R101; log entry 207). -/
def storeBsi (s : State) (cell base i : Nat) : Elem :=
  let at' := fun (off n : Nat) => leNat (readBytes s (cellStoreAt cell + base + off) n)
  let esc := (at' 193 1).testBit 0
  let w := if esc then 6 else 3
  let p := (List.range w).any (fun k => storePoison s cell (base + w * i + k)) || storePoison s cell (base + 32 * w) ||
    storePoison s cell (base + 32 * w + 1) || (at' (32 * w + 1) 1).testBit 1
  { bits := BitVec.ofNat 64 (at' (w * i) w + at' (32 * w) 1 * 2 ^ (8 * w)), fmt := if esc then 10 else 9, poison := p, clip := false,
    tapePoison := false }

/-- The store read port of a cell emits its next element in format `fmt` (R213, STORE_RD_BASE); BSI elements come from blocks, one
in each slot of 200 bytes. -/
def storeEmit (s : State) (cell fmt : Nat) : State :=
  let c := getCell s cell
  let n := fmtBits fmt
  let e : Elem :=
    if fmt = 9 || fmt = 10 then storeBsi s cell (c.act.rdBase + 200 * (c.rdPos / 32)) (c.rdPos % 32)
    else { bits := BitVec.ofNat 64 (storeBits s cell c.act.rdBase (c.rdPos * n) n), fmt := fmt,
           poison := storeBitPoison s cell c.act.rdBase (c.rdPos * n) n, clip := false, tapePoison := false }
  routeFrom routeFuel cell 8 e (modCell s cell fun c => { c with rdPos := c.rdPos + 1 })

/-- Cells whose store read port feeds a sink of a cell, found by following the routes backwards. -/
def storeFeeders (s : State) : Nat → Nat → Nat → List Nat
  | 0, _, _ => []
  | fuel + 1, cell, sink =>
    (((getCell s cell).act.legs.filter fun l => l.sink == sink).map fun l =>
      if l.src = 8 then [cell]
      else if l.src ≤ 4 && l.src ≠ 0 then
        match neighbour cell (l.src - 1) with
        | some n => storeFeeders s fuel n (opposite (l.src - 1))
        | none => []
      else []).flatten

end Sys2Proof.Machine
end

