-- ==== Sys2Proof/Machine/LoadBase.lean ====
section
/-!
DEFINITION. A configuration image as the loader sees it: its parsed parts, the contexts its cells hold after the load, and
where an item of it fails (R208 to R214, R229 to R233).
-/

namespace Sys2Proof.Machine

open Sys2Proof

/-- A place where an image fails a check: image offset and global cell number (Table 7.22). -/
abbrev Spot := Nat × Nat

/-- No offset, no cell (Table 7.22). -/
def noSpot : Nat := 0xFFFFFFFF

/-- A spot with no cell. -/
def spotAt (off : Nat) : Spot := (off, noSpot)

/-- `sp` when a condition fails. -/
def failIf (bad : Bool) (sp : Spot) : List Spot := if bad then [sp] else []

/-- The spot of lowest image offset, the first found among equals (R233). -/
def lowestSpot : List Spot → Option Spot
  | [] => none
  | x :: r =>
    match lowestSpot r with
    | none => some x
    | some y => if x.1 ≤ y.1 then some x else some y

/-- The parts of an image that the checks read again and again. -/
structure Img where
  bytes : List Byte
  sects : List Sect
  regs : List RegDesc
  ctxs : List CtxFrame
  rts : List RtFrame
  progs : List ProgSub
  deriving DecidableEq, Repr

/-- Parses an image. -/
def imgOf (im : List Byte) : Img :=
  { bytes := im, sects := crbSections im, regs := crbRegions im, ctxs := crbCtxFrames im, rts := crbRtFrames im,
    progs := crbProgs im }

/-- Offset of a section's table entry. -/
def Sect.entryAt (x : Sect) : Nat := 128 + 16 * x.idx

/-- Offset of entry `i` of `n`-byte entries of a section. -/
def Sect.itemAt (x : Sect) (n i : Nat) : Nat := x.off + n * i

/-- A region's section of a type. -/
def sectOf (g : Img) (typ region : Nat) : Option Sect := g.sects.find? fun x => x.typ == typ && x.region == region

/-- Logical clusters and cells of a region. -/
def RegDesc.hasCluster (d : RegDesc) (c : Nat) : Bool := decide (d.first ≤ c) && decide (c < d.first + d.count)
def RegDesc.clusters (d : RegDesc) : List Nat := (List.range (Nat.min 1200 d.count)).map fun i => d.first + i
def RegDesc.cells (d : RegDesc) : List Nat := (List.range (80 * Nat.min 1200 d.count)).map fun i => 80 * d.first + i
def RegDesc.slots (d : RegDesc) : List Nat := slotsOf d.ctxMask

/-- The image region that covers a cluster in a slot. -/
def Img.covers (g : Img) (cluster slot : Nat) : Option RegDesc :=
  g.regs.find? fun d => d.hasCluster cluster && d.ctxMask.testBit slot

/-- Whether the image writes a region. -/
def Img.writes (g : Img) (region : Nat) : Bool := g.regs.any fun d => d.id == region

/-- Whether the image is FULL (Table 7.1). -/
def Img.full (g : Img) : Bool := crbFull g.bytes

/-- Frames of a region that name a cell in a slot. -/
def ctxNames (f : CtxFrame) (region slot cell : Nat) : Bool :=
  f.region == region && f.slot == slot && decide (f.first ≤ cell) && decide (cell ≤ f.first + f.rep)
def rtNames (f : RtFrame) (region slot cell : Nat) : Bool :=
  f.region == region && f.slot == slot && decide (f.first ≤ cell) && decide (cell ≤ f.first + f.rep)

def Img.ctxFrame (g : Img) (d : RegDesc) (slot cell : Nat) : Option CtxFrame :=
  g.ctxs.find? fun f => ctxNames f d.id slot cell
def Img.rtFrame (g : Img) (d : RegDesc) (slot cell : Nat) : Option RtFrame :=
  g.rts.find? fun f => rtNames f d.id slot cell

/-- The context a load leaves in a cell and slot of one of its regions: the idle context where no frame names it (R209). -/
def Img.ctxOf (g : Img) (d : RegDesc) (slot cell : Nat) : Ctx :=
  let cls := crbClass g.bytes d slot cell
  match g.ctxFrame d slot cell, g.rtFrame d slot cell with
  | none, none => Ctx.idle
  | some f, none => { f.ctx with region := d.id, cls := cls }
  | none, some r => { Ctx.idle with region := d.id, cls := cls, routes := r.routes, rdBase := r.rdBase, wrBase := r.wrBase }
  | some f, some r =>
    { f.ctx with region := d.id, cls := cls, routes := r.routes, rdBase := r.rdBase, wrBase := r.wrBase }

/-- The context a cell and slot hold after the load (R208, R209): the image's, or the resident one unless its region is
removed or replaced. -/
def postCtx (g : Img) (s : State) (cell slot : Nat) : Ctx :=
  match g.covers (cell / 80) slot with
  | some d => g.ctxOf d slot cell
  | none =>
    let x := (getCell s cell).ctx slot
    if g.full || g.writes x.region then Ctx.idle else x

/-- Regions that stay resident beside the image's. -/
def staying (g : Img) (s : State) : List (Nat × Region) :=
  if g.full then [] else s.fb.regions.filter fun e => !g.writes e.1

/-- Clusters whose pending failures a load applies: those of its regions, and those of no region (R232). -/
def loadApplies (g : Img) (s : State) (cluster : Nat) : Bool :=
  g.regs.any (fun d => d.hasCluster cluster) ||
    !((staying g s).any fun e => decide (e.2.first ≤ cluster) && decide (cluster < e.2.first + e.2.count))

/-- Every cell and slot of the image's regions with its context and frame offsets, for checks on contexts. -/
def Img.places (g : Img) : List (RegDesc × Nat × Nat) :=
  (g.regs.map fun d => (d.slots.map fun k => d.cells.map fun i => (d, k, i)).flatten).flatten

/-- Offset of the frame that names a cell and slot: the route frame if `rt`, else the context frame. -/
def Img.frameAt (g : Img) (d : RegDesc) (slot cell : Nat) (rt : Bool) : Nat :=
  if rt then
    match g.rtFrame d slot cell with
    | some f => f.at_
    | none => noSpot
  else
    match g.ctxFrame d slot cell with
    | some f => f.at_
    | none => noSpot

end Sys2Proof.Machine
end

