-- ==== Sys2Proof/Machine/Sign.lean ====
section
/-!
DEFINITION. The two signatures of R224 and R484, from the standards that the spec names: Ed25519 (RFC 8032) with SHA-512, and
ML-DSA-65 (FIPS 204) with an empty context string (log entry 7, PRESUMED).
-/

namespace Sys2Proof.Machine

open Sys2Proof

/-! ### SHA-512 -/

/-- The greatest number below 2^72 whose `k`th power is not above `n`. -/
def rootBelow (k n : Nat) : Nat :=
  (List.range 72).foldl (fun x i => let y := x + 2 ^ (71 - i); if y ^ k ≤ n then y else x) 0

/-- The primes below `n`. -/
def primesBelow (n : Nat) : List Nat :=
  (List.range n).filter fun p => decide (2 ≤ p) && (List.range p).all fun d => decide (d < 2) || p % d != 0

/-- The first 64 bits after the point of the cube roots of the first 80 primes, and of the square roots of the first 8. -/
def shaCubes : List W64 := (primesBelow 410).map fun p => BitVec.ofNat 64 (rootBelow 3 (p * 2 ^ 192))
def shaSquares : List W64 := (primesBelow 20).map fun p => BitVec.ofNat 64 (rootBelow 2 (p * 2 ^ 128))

/-- A word turned right by each of the first two amounts, and by the third or, with `out`, shifted out by it. -/
def shaMix (x : W64) (i j k : Nat) (out : Bool) : W64 :=
  x.rotateRight i ^^^ x.rotateRight j ^^^ if out then x >>> k else x.rotateRight k

/-- The 80 words a block of 128 bytes spreads to. -/
def shaSpread (block : List Byte) : List W64 :=
  (List.range 64).foldl
    (fun w t => w ++ [lget 0 w t + shaMix (lget 0 w (t + 1)) 1 8 7 true + lget 0 w (t + 9) + shaMix (lget 0 w (t + 14)) 19 61 6 true])
    ((List.range 16).map fun i => BitVec.ofNat 64 (leNat (slice block (8 * i) 8).reverse))

/-- One round with the word `x`, the constant included. -/
def shaRound (v : List W64) (x : W64) : List W64 :=
  let r := lget 0 v
  let pick := (r 4 &&& r 5) ^^^ (~~~ r 4 &&& r 6)
  let most := (r 0 &&& r 1) ^^^ (r 0 &&& r 2) ^^^ (r 1 &&& r 2)
  let t := r 7 + shaMix (r 4) 14 18 41 false + pick + x
  [t + shaMix (r 0) 28 34 39 false + most, r 0, r 1, r 2, r 3 + t, r 4, r 5, r 6]

/-- A block into the eight words of the digest. -/
def shaBlock (v : List W64) (block : List Byte) : List W64 :=
  let u := (shaSpread block).zip shaCubes |>.foldl (fun h x => shaRound h (x.1 + x.2)) v
  (List.range 8).map fun i => lget 0 v i + lget 0 u i

/-- SHA-512: 64 bytes. -/
def sha512 (msg : List Byte) : List Byte :=
  let m := msg ++ 0x80 :: List.replicate ((239 - msg.length % 128) % 128) 0 ++ (leBytes 16 (8 * msg.length)).reverse
  let v := (List.range (m.length / 128)).foldl (fun h i => shaBlock h (slice m (128 * i) 128)) shaSquares
  (v.map fun w => (leBytes 8 w.toNat).reverse).flatten

/-! ### Ed25519 -/

/-- `b` to the power `e`, below 2^256, modulo `m`. -/
def powIn (m b e : Nat) : Nat :=
  (List.range 256).foldl (fun x i => let y := x * x % m; if e.testBit (255 - i) then y * b % m else y) 1

/-- The field's prime, the order of the base point, and the curve's constant. -/
def edP : Nat := 2 ^ 255 - 19
def edL : Nat := 2 ^ 252 + 27742317777372353535851937790883648493
def edInv (x : Nat) : Nat := powIn edP x (edP - 2)
def edD : Nat := (edP - 121665) * edInv 121666 % edP

/-- The sum of two points of -x² + y² = 1 + d x² y². -/
def edAdd (a b : Nat × Nat) : Nat × Nat :=
  let t := edD * (a.1 * b.1 % edP) % edP * (a.2 * b.2 % edP) % edP
  ((a.1 * b.2 + a.2 * b.1) % edP * edInv (1 + t) % edP, (a.2 * b.2 + a.1 * b.1) % edP * edInv (edP + 1 - t) % edP)

/-- A multiple of a point, by a number below 2^512. -/
def edMul (k : Nat) (a : Nat × Nat) : Nat × Nat :=
  (List.range 512).foldl (fun x i => let y := edAdd x x; if k.testBit (511 - i) then edAdd y a else y) (0, 1)

/-- The point that 32 bytes spell. -/
def edPoint (bs : List Byte) : Option (Nat × Nat) :=
  let y := leNat bs % 2 ^ 255
  let odd := leNat bs / 2 ^ 255 % 2
  let w := (y * y + edP - 1) % edP * edInv (edD * y % edP * y % edP + 1) % edP
  let r := powIn edP w ((edP + 3) / 8)
  let x := if r * r % edP = w then r else r * powIn edP 2 ((edP - 1) / 4) % edP
  if edP ≤ y || bs.length != 32 || x * x % edP != w || (x = 0 && odd = 1) then none
  else some (if x % 2 = odd then x else edP - x, y)

/-- The base point: y = 4/5, x even. -/
def edBase : Nat × Nat := (edPoint (leBytes 32 (4 * edInv 5 % edP))).getD (0, 1)

/-- Whether an Ed25519 signature verifies: public key, message, signature (RFC 8032, 5.1.7).  Both sides of the equation are taken
eight times, or once, as the RFC leaves it (log entry 7). -/
def ed25519Verify (key msg sig : List Byte) : Bool :=
  let n := field sig 32 32
  let side := edMul (if Config.ed25519Plain then 1 else 8)
  match edPoint key, edPoint (sig.take 32) with
  | some a, some r =>
    decide (sig.length = 64) && decide (n < edL) &&
      side (edMul n edBase) == side (edAdd r (edMul (leNat (sha512 (sig.take 32 ++ key ++ msg))) a))
  | _, _ => false

/-! ### ML-DSA-65 -/

/-- The modulus, and a 512th root of unity in it. -/
def mlQ : Nat := 8380417
def mlRoot : Nat := 1753

/-- A byte's bits in reverse order. -/
def bitsReversed (i : Nat) : Nat := (List.range 8).foldl (fun n k => 2 * n + i / 2 ^ k % 2) 0

/-- The power of the root at which place `i` of a transformed polynomial is its value. -/
def mlPlace (i : Nat) : Nat := 2 * bitsReversed i + 1

/-- The powers of the root, from 0 to 511. -/
def mlPowers : List Nat := ((List.range 511).foldl (fun l _ => (l.headD 1 * mlRoot % mlQ) :: l) [1]).reverse

/-- A polynomial's values at the 256 places, and the polynomial with given values. -/
def mlValues (f : List Nat) : List Nat :=
  (List.range 256).map fun i => (f.zipIdx.foldl (fun n x => n + x.1 * lget 0 mlPowers (mlPlace i * x.2 % 512)) 0) % mlQ
def mlPoly (v : List Nat) : List Nat :=
  (List.range 256).map fun j =>
    (v.zipIdx.foldl (fun n x => n + x.1 * lget 0 mlPowers ((512 - mlPlace x.2 * j % 512) % 512)) 0) % mlQ * powIn mlQ 256 (mlQ - 2) % mlQ

/-- 256 numbers of `c` bits each. -/
def unpacked (c : Nat) (bs : List Byte) : List Nat := (List.range 256).map fun i => leNat bs / 2 ^ (c * i) % 2 ^ c

/-- The matrix entry of row `r` and column `s`, by its values: of the bytes drawn, each three that spell a number below the modulus. -/
def mlEntry (seed : List Byte) (r s : Nat) : Option (List Nat) :=
  let bs := shake128 1344 (seed ++ [BitVec.ofNat 8 s, BitVec.ofNat 8 r])
  let l := ((List.range 448).map fun i => leNat (slice bs (3 * i) 3) % 2 ^ 23).filter fun n => decide (n < mlQ)
  if l.length < 256 then none else some (l.take 256)

/-- One coefficient of the challenge: of the bytes left, the first that is not above `i` changes places with it, signed by bit `k`. -/
def mlShuffle (signs : Nat) (st : Option (List Nat × List Byte)) (k : Nat) : Option (List Nat × List Byte) :=
  let i := 207 + k
  match st with
  | none => none
  | some (c, bs) =>
    match bs.dropWhile fun b => decide (i < b.toNat) with
    | [] => none
    | j :: rest => some ((c.set i (lget 0 c j.toNat)).set j.toNat (if signs.testBit k then mlQ - 1 else 1), rest)

/-- The challenge: 49 coefficients of 1 or -1. -/
def mlChallenge (ct : List Byte) : Option (List Nat) :=
  let bs := shake256 272 ct
  ((List.range 49).foldl (mlShuffle (field bs 0 8)) (some (List.replicate 256 0, bs.drop 8))).map Prod.fst

/-- The places of the hints of each of the six rows, where their 61 bytes are well formed. -/
def mlHints (bs : List Byte) : Option (List (List Nat)) :=
  let ends := 0 :: (bs.drop 55).map BitVec.toNat
  let row := fun (i : Nat) => ((bs.take (lget 0 ends (i + 1))).drop (lget 0 ends i)).map BitVec.toNat
  let rows := (List.range 6).map row
  let rising := fun (l : List Nat) => (l.zip (l.drop 1)).all fun p => decide (p.1 < p.2)
  if (List.range 6).all (fun i => decide (lget 0 ends i ≤ lget 0 ends (i + 1))) && decide (lget 0 ends 6 ≤ 55) && rows.all rising &&
    ((bs.take 55).drop (lget 0 ends 6)).all (· == 0) then some rows else none

/-- The high part of a coefficient, of 16, corrected by a hint. -/
def mlHigh (hint : Bool) (r : Nat) : Nat :=
  let step := (mlQ - 1) / 16
  let low := r % step
  let up := decide (step / 2 < low)
  let high := if up then r / step + 1 else r / step
  -- above the last multiple the high part is 0 and the low part one less, never positive
  let positive := decide (0 < low) && !up && decide (high < 16)
  if hint then (if positive then high + 1 else high + 15) % 16 else high % 16

/-- Whether an ML-DSA-65 signature verifies: public key, message, signature (FIPS 204, Algorithms 3 and 8, no context). -/
def mldsa65Verify (key msg sig : List Byte) : Bool :=
  let mu := shake256 64 (shake256 64 key ++ [0, 0] ++ msg)
  let zs := (List.range 5).map fun j => (unpacked 20 (slice sig (48 + 640 * j) 640)).map fun v => (mlQ + 2 ^ 19 - v) % mlQ
  let zv := zs.map mlValues
  let small := fun (x : Nat) => decide (Nat.min x (mlQ - x) < 2 ^ 19 - 196)
  let entries := (List.range 30).map fun n => mlEntry (key.take 32) (n / 5) (n % 5)
  match mlChallenge (sig.take 48), mlHints (slice sig 3248 61) with
  | some c, some hints =>
    let cv := mlValues c
    let row := fun (i : Nat) =>
      let tv := mlValues ((unpacked 10 (slice key (32 + 320 * i) 320)).map fun t => t * 2 ^ 13)
      let a := (List.range 5).map fun j => ((lget none entries (5 * i + j)).getD []).zip (lget [] zv j)
      mlPoly ((List.range 256).map fun k =>
        ((a.map fun l => (fun p : Nat × Nat => p.1 * p.2) (lget (0, 0) l k)).sum + (mlQ - lget 0 cv k) * lget 0 tv k) % mlQ)
    let highs := (List.range 6).map fun i => (row i).zipIdx.map fun x => mlHigh ((lget [] hints i).contains x.2) x.1
    let packed := highs.map fun l => leBytes 128 (l.zipIdx.map fun x => x.1 * 16 ^ x.2).sum
    decide (key.length = 1952) && decide (sig.length = 3309) && entries.all Option.isSome && zs.all (fun z => z.all small) &&
      sig.take 48 == shake256 48 (mu ++ packed.flatten)
  | _, _ => false

end Sys2Proof.Machine
end

