-- ==== Sys2Proof/Machine/LoadForm.lean ====
section
/-!
DEFINITION. The load-time checks of form, authority, fields, regions and capacity: rows 1 to 5 of Table 7.17.
-/

namespace Sys2Proof.Machine

open Sys2Proof

/-- Whether the bytes of a range are all zero. -/
def zeroBytes (im : List Byte) (off n : Nat) : Bool := leNat (slice im off n) == 0

/-! ### Row 1: ST_CFG_IMAGE -/

/-- Whether two sections overlap (R204). -/
def sectsOverlap (a b : Sect) : Bool := decide (a.off < b.off + b.len) && decide (b.off < a.off + a.len)

/-- Whether a section is placed as R204 asks, in an image of `n` bytes with `k` sections. -/
def placed (n k : Nat) (x : Sect) : Bool :=
  x.off % 64 == 0 && decide (x.off + x.len ≤ n) && decide (128 + 16 * k ≤ x.off)

/-- Row 1: header, section table, placement, counts and CRCs (R204 to R206, Table 7.3); `given` is LOAD_CONFIG's length. -/
def checkImage (g : Img) (given : Nat) : List Spot :=
  let im := g.bytes
  let n := crbImageBytes im
  let k := crbSectionCount im
  let head :=
    failIf (slice im 0 4 != [0x43, 0x52, 0x42, 0x31]) (spotAt 0) ++ failIf (field im 4 2 != 1) (spotAt 4) ++
      failIf (n != given || n % 64 != 0 || decide (n < 256) || decide (0xFFFFFFC0 < n)) (spotAt 8) ++
      failIf (k == 0 || decide (256 < k)) (spotAt 12) ++
      failIf (field im 124 4 != (crc32c (slice im 0 124)).toNat) (spotAt 124)
  let count := fun (t r : Nat) => (g.sects.filter fun x => x.typ == t && x.region == r).length
  let each := g.sects.map fun x =>
    let others := g.sects.filter fun y => y.idx != x.idx
    let bad := x.typ == 0 || decide (8 < x.typ) || !placed n k x || others.any (sectsOverlap x) ||
      (decide (x.typ ≤ 2) && others.any fun y => y.typ == x.typ) ||
      (decide (3 ≤ x.typ) && decide (1 < count x.typ x.region)) ||
      (x.typ == 1 && (!crbSigned im || others.any fun y => decide (y.off < x.off)))
    failIf bad (spotAt x.entryAt) ++
      failIf (placed n k x && x.crc != (crc32c (slice im x.off x.len)).toNat) (spotAt x.off)
  let signed := crbSigned im && !(g.sects.any fun x => x.typ == 1)
  let noRegs := !(g.sects.any fun x => x.typ == 2)
  let per := g.regs.map fun d => failIf (count 7 d.id == 0 || count 8 d.id == 0) (spotAt d.at_)
  head ++ each.flatten ++ failIf signed (spotAt 6) ++ failIf noRegs (spotAt 12) ++ per.flatten

/-! ### Row 2: ST_CFG_AUTH -/

/-- SHA3-384 of the two public keys of a signature section (R224). -/
def crbKeyDigest (sig : List Byte) : List Byte := sha3_384 (slice sig 16 32 ++ slice sig 48 1952)

/-- The signed message (R224). -/
def crbMessage (digest : List Byte) : List Byte :=
  [0x53, 0x48, 0x58, 0x2D, 0x43, 0x52, 0x42, 0x2D, 0x4F, 0x57, 0x4E, 0x45, 0x52, 0x2D, 0x31] ++ digest

/-- Whether both signatures of a signature section verify over the message (R224). -/
def signaturesHold (sig msg : List Byte) : Bool :=
  ed25519Verify (slice sig 16 32) msg (slice sig 2000 64) &&
    mldsa65Verify (slice sig 48 1952) msg (slice sig 2064 3309)

/-- FB_OWNER_KEY_DIGEST as bytes. -/
def ownerDigestBytes (s : State) : List Byte := ((List.range 6).map fun i => leBytes 8 (tget 0 s.fb.ownerDigest i).toNat).flatten

/-- Row 2: R225 in locked mode, R226 else. -/
def checkAuth (g : Img) (digest : List Byte) (s : State) : List Spot :=
  let locked := s.fb.authCtrl.getLsbD 0
  let good := match g.sects.find? fun x => x.typ == 1 with
    | none => !locked
    | some x =>
      let sig := slice g.bytes x.off x.len
      signaturesHold sig (crbMessage digest) && (!locked || crbKeyDigest sig == ownerDigestBytes s)
  failIf (!good) (noSpot, noSpot)

/-! ### Row 3: ST_CFG_FIELD -/

/-- Operands an element operation takes (Table 2.6): A, B, C. -/
def opUses (op : Nat) : Nat :=
  match op with
  | 0 => 0
  | 3 => 3
  | 5 => 3
  | _ => 2

/-- Whether a code may stand as an operand, and as a destination (Table 7.8). -/
def operandCode (c : Nat) : Bool := c ≤ 0x2B || c == 0x3E
def destCode (c : Nat) : Bool := c ≤ 0x27 || c == 0x30 || c == 0x31

/-- Operand codes an element operation uses. -/
def opOperands (w : W32) : List Nat := [opA w, opB w, opC w].take (opUses (opCode w))

/-- Whether an element operation word is well formed (Table 7.7); `written` lists the temporaries written before. -/
def opForm (w : W32) (written : List Nat) : Bool :=
  let op := opCode w
  let used := opOperands w
  let unused := [opA w, opB w, opC w].drop (opUses op)
  decide (op ≤ 7) && (if op = 4 then decide (opPred w ≤ 6) else opPred w == 0) && !w.getLsbD 7 &&
    (op == 0 || destCode (opDest w)) && used.all operandCode && unused.all (· == 0x3F) &&
    used.all fun c => !(decide (0x20 ≤ c) && decide (c ≤ 0x27)) || written.contains c

/-- Whether a chain is well formed: each word, no temporary read before it is written (R212, Table 7.17). -/
def chainForm : List Nat → List W32 → Bool
  | _, [] => true
  | written, w :: r => opForm w written && chainForm (if opCode w = 0 then written else opDest w :: written) r

/-- How often a chain writes a destination code. -/
def destCount (l : List W32) (code : Nat) : Nat := (l.filter fun w => opCode w != 0 && opDest w == code).length

/-- The operations of a context's chain. -/
def Ctx.ops (x : Ctx) : List W32 := x.chain.take x.chainLen

/-- Whether clip bounds keep R558. -/
def clipForm (x : Ctx) : Bool :=
  !x.clipEn || (!fp32.isNaN x.clipLo && !fp32.isNaN x.clipHi && !fp32.isPoison x.clipLo && !fp32.isPoison x.clipHi &&
    !cmpV 4 (fp32.decode x.clipLo) (fp32.decode x.clipHi))

/-- Row 3 for a context frame's content. -/
def ctxForm (x : Ctx) : Bool :=
  decide (x.storedRole ≤ 5) && decide (x.fmtA ≤ 11) && decide (x.fmtB ≤ 11) && x.statBase % 8 == 0 && x.streamBase % 8 == 0 &&
    decide (x.chainLen ≤ 16) && decide (x.wfmt ≤ 5) && decide (x.chainRmode ≤ 1) && decide (x.red ≤ 4) &&
    decide (x.topkFmt ≤ 11) && decide (x.widenSrc ≤ 11) && decide (x.widenDst ≤ 11) && decide (x.dfmt ≤ 11) &&
    decide (x.drmode ≤ 2) && x.tableBase % 32 == 0 && x.destBase % 8 == 0 && chainForm [] x.ops &&
    (x.chain.drop x.chainLen).all (· == 0) && decide (destCount x.ops 0x30 ≤ 1) && decide (destCount x.ops 0x31 ≤ 1) &&
    clipForm x &&
    -- R248: a drain that records tape
    !(x.tapeEn && (x.dsrc == 0 || x.dsrc == 3 || x.raw || x.dfmt == 9 || x.dfmt == 10 || x.dfmt == 11)) &&
    -- R250, R254: a gated mirror
    !(x.gated && (x.red == 3 || x.biasEn)) &&
    -- R244: K of a mirror frame
    !(x.reverse && x.tileEn && ((x.storedRole == 0 && x.kLen % 8 != 0) || (x.storedRole == 2 && x.kLen % 4 != 0)))

/-- Whether a context records tape: REVERSE 0 and TAPE_EN 1 (R245). -/
def Ctx.recordsTape (x : Ctx) : Bool := x.tapeEn && !x.reverse

/-- Whether some context of the image's region records tape in a slot. -/
def Img.tapeSlot (g : Img) (region slot : Nat) : Bool :=
  g.ctxs.any fun f => f.region == region && f.slot == slot && f.ctx.recordsTape

/-- Size of a program memory (Table 6.1). -/
def progSize (kind : Nat) : Nat := if kind = 0 then 0x10000 else 0x4000

/-- Whether a program subsection keeps R214, in a section that ends at `stop`. -/
def progForm (im : List Byte) (d : RegDesc) (stop : Nat) (q : ProgSub) : Bool :=
  let n := q.bytes.length
  let pad := (n + 31) / 32 * 32 - n
  decide (q.kind ≤ 2) && q.mask % 16 != 0 && !q.rsv && q.count != 0 && decide (d.first ≤ q.first) &&
    decide (q.first + q.count ≤ d.first + d.count) &&
    (q.kind != 0 || q.dest % 4 == 0) && (q.kind != 2 || q.dest % 32 == 0) && n != 0 &&
    decide (q.dest + n ≤ progSize q.kind) && zeroBytes im (q.at_ + 32 + n) pad && decide (q.at_ + 32 + n + pad ≤ stop)

/-- Row 3 for the header, section table and signature section. -/
def checkHeadFields (g : Img) : List Spot :=
  let im := g.bytes
  failIf (crbFlags im / 4 != 0) (spotAt 6) ++ failIf (!zeroBytes im 14 2) (spotAt 14) ++
    failIf (crbRanks im == 0 || decide (65536 < crbRanks im)) (spotAt 24) ++ failIf (decide (1 < crbSrMode im)) (spotAt 28) ++
    failIf (!zeroBytes im 29 3) (spotAt 29) ++ failIf (!zeroBytes im 48 76) (spotAt 48) ++
    (g.sects.map fun x =>
      failIf (x.rsv != 0 || x.len == 0 || (if x.typ ≤ 2 then x.region != 0xFF else decide (63 < x.region)))
        (spotAt x.entryAt) ++
      (if x.typ = 1 then
        let b := slice im x.off x.len
        failIf (x.len != 5376 || slice b 0 4 != [0x53, 0x49, 0x47, 0x31] || field b 4 2 != 1 || !zeroBytes b 6 10 ||
          !zeroBytes b 5373 3) (spotAt x.off)
      else [])).flatten

/-- Row 3 for windows, phases and activity classes of a region. -/
def checkRegionFields (g : Img) (d : RegDesc) : List Spot :=
  let im := g.bytes
  let wins := match sectOf g 6 d.id with
    | none => []
    | some x => failIf (decide (64 < x.len / 32)) (spotAt x.off) ++ ((List.range (Nat.min 64 (x.len / 32))).map fun i =>
        let b := slice im (x.itemAt 32 i) 32
        let kind := field b 0 1
        let acc := field b 1 1
        failIf (decide (2 < kind) || acc == 0 || decide (3 < acc) || (kind == 1 && !acc.testBit 1) || !zeroBytes b 2 6 ||
          field b 16 8 == 0 || !zeroBytes b 24 8) (spotAt (x.itemAt 32 i))).flatten
  let phs := match sectOf g 7 d.id with
    | none => []
    | some x => ((List.range (x.len / 32)).map fun i =>
        let b := slice im (x.itemAt 32 i) 32
        let m := field b 16 8
        failIf (decide (8191 < field b 0 2) || decide (3 < field b 2 1) || !zeroBytes b 3 5 || m == 0 || decide (2 ^ 48 ≤ m) ||
          (field b 24 4 != 0 && !g.tapeSlot d.id (field b 2 1)) || !zeroBytes b 28 4) (spotAt (x.itemAt 32 i))).flatten
  let acts := match sectOf g 8 d.id with
    | none => []
    | some x => ((List.range d.slots.length).map fun k =>
        let slot := lget 0 d.slots k
        (d.cells.filter fun i => decide (8 ≤ crbClass im d slot i)).map fun i =>
          (x.off + (k * 80 * d.count + (i - 80 * d.first)) / 2, i)).flatten
  wins ++ phs ++ acts

/-- Row 3. -/
def checkFields (g : Img) : List Spot :=
  let regs := g.regs.map fun d =>
    failIf (d.rsv || decide (63 < d.id) || d.ctxMask == 0 || decide (1199 < d.first) || d.count == 0 || decide (1200 < d.count) ||
      d.entry % 4 != 0 || decide (0x10000 ≤ d.entry) || (!d.program && d.entry != 0)) (spotAt d.at_) ++
      checkRegionFields g d
  let ctxs := g.ctxs.map fun f => failIf (f.rsv || !ctxForm f.ctx) (f.at_, f.first)
  let rts := g.rts.map fun f =>
    failIf (f.rsv || f.routes.any fun w => decide (8 < rtSrc w) || w.getLsbD 15 || (rtSrc w == 0 && w != 0)) (f.at_, f.first)
  let progs := g.progs.map fun q =>
    match g.regs.find? fun d => d.id == q.region with
    | none => []
    | some d =>
      let stop := match sectOf g 5 q.region with
        | some x => x.off + x.len
        | none => 0
      failIf (!progForm g.bytes d stop q) (spotAt q.at_)
  checkHeadFields g ++ regs.flatten ++ ctxs.flatten ++ rts.flatten ++ progs.flatten

/-! ### Row 4: ST_CFG_REGION -/

/-- Whether two ranges of clusters and sets of slots share both a cluster and a slot (R208). -/
def regionsClash (f1 c1 m1 f2 c2 m2 : Nat) : Bool :=
  decide (f1 < f2 + c2) && decide (f2 < f1 + c1) && m1 &&& m2 != 0

/-- Whether a frame head keeps R210 but for the die rule, which row 12 judges. -/
def headForm (g : Img) (region first rep slot : Nat) : Bool :=
  match g.regs.find? fun d => d.id == region with
  | none => true
  | some d => decide (80 * d.first ≤ first) && decide (first + rep < 80 * (d.first + d.count)) && d.ctxMask.testBit slot

/-- Offsets of frames that name a cell and slot already named (R210); frames as offset, region, slot, first, last. -/
def doubleNames (l : List (Nat × Nat × Nat × Nat × Nat)) : List Spot :=
  let clash := fun (a b : Nat × Nat × Nat × Nat × Nat) =>
    a.2.2.1 == b.2.2.1 && decide (a.2.2.2.1 ≤ b.2.2.2.2) && decide (b.2.2.2.1 ≤ a.2.2.2.2)
  (l.filter fun a => l.any fun b => a.1 != b.1 && a.2.1 == b.2.1 && clash a b).map fun a => (a.1, a.2.2.2.1)

/-- Phases of an image region with their offsets. -/
def Img.phasesOf (g : Img) (d : RegDesc) : List (Nat × PhaseEntry) :=
  match sectOf g 7 d.id with
  | none => []
  | some x => ((List.range (x.len / 32)).map fun i => x.itemAt 32 i).zip (crbPhases g.bytes d.id)

/-- Whether a section's length is a whole number of its entries (Table 7.17). -/
def wholeEntries (g : Img) (x : Sect) : Bool :=
  match x.typ with
  | 2 => x.len % 32 == 0
  | 3 => ctxFramesWhole (x.len / 160 + 1) (slice g.bytes x.off x.len)
  | 4 => x.len % 32 == 0
  | 5 => x.len % 32 == 0
  | 6 => x.len % 32 == 0
  | 7 => x.len % 32 == 0
  | 8 =>
    match g.regs.find? fun d => d.id == x.region with
    | none => true
    | some d => x.len == d.slots.length * 40 * d.count
  | _ => true

/-- Row 4 (R207, R208, R210, R217). -/
def checkRegions (g : Img) (s : State) : List Spot :=
  let secs := g.sects.map fun x =>
    failIf (decide (3 ≤ x.typ) && !(g.regs.any fun d => d.id == x.region)) (spotAt x.entryAt) ++
      failIf (!wholeEntries g x) (spotAt x.off) ++
      failIf (x.typ == 2 && (x.len / 32 == 0 || decide (64 < x.len / 32))) (spotAt x.off)
  let stay := staying g s
  let regs := g.regs.map fun d =>
    let others := g.regs.filter fun e => e.at_ != d.at_
    failIf (others.any (fun e => e.id == d.id || regionsClash d.first d.count d.ctxMask e.first e.count e.ctxMask) ||
      stay.any (fun e => regionsClash d.first d.count d.ctxMask e.2.first e.2.count e.2.ctxMask.toNat) ||
      decide (1200 < d.first + d.count) || d.program != (sectOf g 5 d.id).isSome) (spotAt d.at_)
  let ctxs := g.ctxs.map fun f => failIf (!headForm g f.region f.first f.rep f.slot) (f.at_, f.first)
  let rts := g.rts.map fun f => failIf (!headForm g f.region f.first f.rep f.slot) (f.at_, f.first)
  let phs := (g.regs.map fun d => (g.phasesOf d).map fun p => (d, p)).flatten
  let phBad := (phs.filter fun p =>
    !p.1.ctxMask.testBit p.2.2.ctx ||
      (phs.any fun q => q.2.1 != p.2.1 && q.2.2.id == p.2.2.id) ||
      stay.any fun e => e.2.phases.any fun q => q.id == p.2.2.id).map fun p => spotAt p.2.1
  secs.flatten ++ regs.flatten ++ ctxs.flatten ++ rts.flatten ++
    doubleNames (g.ctxs.map fun f => (f.at_, f.region, f.slot, f.first, f.first + f.rep)) ++
    doubleNames (g.rts.map fun f => (f.at_, f.region, f.slot, f.first, f.first + f.rep)) ++ phBad

/-! ### Row 5: ST_CFG_CAPACITY -/

/-- Row 5: a region covers a cluster out of service (R172, R232). -/
def checkCapacity (g : Img) (s : State) : List Spot :=
  (g.regs.map fun d =>
    match d.clusters.find? fun c => outOfService s (loadApplies g s) c with
    | some _ => [spotAt d.at_]
    | none => []).flatten

end Sys2Proof.Machine
end

