-- ==== Sys2Proof/Machine/LoadRules.lean ====
section
/-!
DEFINITION. The load-time checks on contexts, routes, memory and power: rows 6 to 16 of Table 7.17, and the verdict over all
rows.
-/

namespace Sys2Proof.Machine

open Sys2Proof

/-- Spots of the context frames whose content fails a test. -/
def ctxSpots (g : Img) (bad : Ctx → Bool) : List Spot :=
  (g.ctxs.filter fun f => bad f.ctx).map fun f => (f.at_, f.first)

/-! ### Row 6: ST_CFG_FORMAT_PAIR -/

/-- Operand pairings of the tile (Table 2.2). -/
def tilePair (a b : Nat) : Bool :=
  (a == 6 && b == 6) || ((a == 4 || a == 5) && (b == 4 || b == 5)) || (a == 7 && b == 7) || (a == 3 && b == 3) ||
    (a == 2 && b == 2)

/-- Widening pairs (Table 3.5). -/
def widenPair (a b : Nat) : Bool :=
  match a with
  | 0 => false
  | 1 => b == 0
  | 8 => b == 0
  | 9 => b == 0
  | 10 => b == 0
  | 11 => false
  | _ => decide (a ≤ 7) && decide (b ≤ 1)

/-- Row 6 for one context (R47, R100, R137, R256).  BANK_LOAD, which multiplies nothing, is exempt from the pairing of R47: DESIGN
CHOICE (log entry 218). -/
def formatsBad (x : Ctx) : Bool :=
  (x.tileEn && x.storedRole != 5 && !tilePair x.fmtA x.fmtB) ||
    (x.widenEn && (!widenPair x.widenSrc x.widenDst || x.widenDst != x.wcode)) ||
    (x.red == 3 && (x.topkFmt == 0 || decide (7 < x.topkFmt))) ||
    (x.gated && !widenPair x.topkFmt x.wcode)

/-! ### Row 7: ST_CFG_RECIPE -/

/-- Targets a recipe permits (Table 3.7; R107, R106 for the BSI targets). -/
def recipeTarget (recipe fmt : Nat) : Bool :=
  let narrow := fmt == 6 || fmt == 4 || fmt == 5 || fmt == 7 || fmt == 2 || fmt == 3
  match recipe with
  | 0 => fmt != 9 && fmt != 10
  | 1 => narrow
  | 2 => narrow
  | 3 => fmt == 9
  | 4 => fmt == 1
  | 5 => fmt != 9 && fmt != 10
  | _ => false

/-- Rounding modes a recipe permits (Table 3.7). -/
def recipeMode (recipe md : Nat) : Bool :=
  match recipe with
  | 0 => decide (md ≤ 2)
  | 1 => decide (md ≤ 2)
  | 2 => decide (md ≤ 1)
  | 3 => md == 0
  | 4 => md == 0
  | 5 => decide (md ≤ 1)
  | _ => false

/-- Row 7 for one context (R107, R109, R254). -/
def recipeBad (x : Ctx) : Bool :=
  x.dsrc != 0 && (decide (5 < x.recipe) || (!x.raw && (!recipeTarget x.recipe x.dfmt || !recipeMode x.recipe x.drmode))) ||
    (x.gated && x.recipe != 0 && x.recipe != 4)

/-! ### Row 8: ST_CFG_SR_MODE -/

/-- Whether a drain rounds stochastically where the job's mode forbids it (R115); mode 0 is SR-UPD. -/
def srBad (mode : Nat) (x : Ctx) : Bool :=
  x.dsrc != 0 && !x.raw && x.drmode == 2 &&
    (if mode = 0 then !(x.recipe == 1 && x.dsrc == 2 && x.widenEn && x.widenSrc == 8 && x.widenDst == 0)
     else !(x.dsrc == 1 || x.dsrc == 3))

/-- FB_JOB fields (Table 7.24). -/
def jobRanks (s : State) : Nat := bits64 s.fb.job 16 0
def jobSrMode (s : State) : Nat := bits64 s.fb.job 17 17
def jobFixed (s : State) : Bool := s.fb.job.getLsbD 18

/-- Row 8 (R115, R116, R235). -/
def checkSr (g : Img) (s : State) : List Spot :=
  let im := g.bytes
  let fixed := jobFixed s
  failIf (fixed && crbSeed im != s.fb.jobSeed.toNat) (spotAt 16) ++
    failIf ((fixed && crbRanks im != jobRanks s) || (crbSrMode im == 1 && decide (256 < crbRanks im))) (spotAt 24) ++
    failIf (fixed && crbSrMode im != jobSrMode s) (spotAt 28) ++ ctxSpots g (srBad (crbSrMode im))

/-! ### Row 9: ST_CFG_ACC_CONFLICT -/

/-- BANK_USE of a bank (Table 7.6). -/
def Ctx.bankUse (x : Ctx) (b : Nat) : Nat := fieldOf x.bank (2 * b + 1) (2 * b)

/-- Whether a reduction claims bank RED_BANK. -/
def Ctx.redClaims (x : Ctx) : Bool := x.red == 1 || x.red == 3 || x.red == 4

/-- Q registers a context's chain writes or its register pair claims, and those it names at all (R61, R234). -/
def Ctx.pairQs (x : Ctx) : List Nat := if x.red = 2 || x.dsrc = 3 then [2 * x.redQpair, 2 * x.redQpair + 1] else []
def Ctx.writtenQs (x : Ctx) : List Nat :=
  (x.ops.filter fun w => opCode w != 0 && decide (opDest w < 32)).map opDest
def Ctx.namedQs (x : Ctx) : List Nat :=
  x.pairQs ++ x.writtenQs ++ ((x.ops.map opOperands).flatten.filter fun c => decide (c < 32))

/-- Conflicts within one context: two operations on one bank or register pair, and an ADD that mixes kinds (R61, R62,
R64). -/
def claimsBad (x : Ctx) : Bool :=
  (x.tileEn && x.redClaims && x.tileBank == x.redBank) ||
    (x.red == 2 && x.writtenQs.any x.pairQs.contains) ||
    (x.tileEn && x.storedRole != 5 && x.startAdd && x.bankInt x.tileBank != (x.fmtA == 7)) ||
    ((x.red == 1 || x.red == 4) && x.redAdd && x.bankInt x.redBank)

/-- The bank ledger of one cell over the contexts it holds (R234), with the kinds PASS_IN reads. -/
def ledgerBad (xs : List Ctx) : Bool :=
  (List.range 4).any (fun b =>
    xs.any fun x =>
      let passes := decide (2 ≤ x.bankUse b)
      passes && xs.any fun y => y.bankUse b == 1 || (y.bankUse b != 0 && y.region != x.region) ||
        (x.bankUse b == 3 && decide (2 ≤ y.bankUse b) && y.bankInt b != x.bankInt b)) ||
    xs.any fun x => (x.writtenQs ++ x.pairQs).any fun q => xs.any fun y => y.region != x.region && y.namedQs.contains q

/-- The four contexts of a cell after the load that are not idle. -/
def postCtxs (g : Img) (s : State) (cell : Nat) : List Ctx :=
  ((List.range 4).map fun k => postCtx g s cell k).filter fun x => x != Ctx.idle

/-- Row 9. -/
def checkClaims (g : Img) (s : State) : List Spot :=
  ctxSpots g claimsBad ++ (g.places.filter fun p => ledgerBad (postCtxs g s p.2.2)).map fun p =>
    (g.frameAt p.1 p.2.1 p.2.2 false, p.2.2)

/-! ### Rows 10 to 12: routes -/

/-- Whether two different entries of a list satisfy a relation. -/
def twoOf (l : List (Nat × BitVec 16)) (r : BitVec 16 → BitVec 16 → Bool) : Bool :=
  l.any fun a => l.any fun b => a.1 != b.1 && r a.2 b.2

/-- The used entries of a route frame. -/
def usedEntries (ws : List (BitVec 16)) : List (Nat × BitVec 16) := ((List.range 8).zip ws).filter fun e => rtSrc e.2 != 0

/-- Row 10 for the stored entries of a frame (R81). -/
def entriesBad (ws : List (BitVec 16)) : Bool :=
  let l := usedEntries ws
  twoOf l (fun a b => rtSrc a == rtSrc b || (List.range 10).any fun i => rtSink a i && rtSink b i) ||
    l.any fun e => decide (rtSrc e.2 ≤ 4) && rtSink e.2 (rtSrc e.2 - 1)

/-- Row 10 for a context as it runs: one output driven by two entries, two merges, side sinks mixed with others (R81, R83,
R242, R243). -/
def routesBad (x : Ctx) : Bool :=
  let ls := x.legs
  ls.any (fun a => ls.any fun b => a.sink == b.sink && a.ent != b.ent) ||
    (x.reverse &&
      (twoOf (usedEntries x.routes) (fun a b => decide (2 ≤ (sinksOf a).length) && decide (2 ≤ (sinksOf b).length)) ||
        (usedEntries x.routes).any fun e =>
          let side := fun i => i == 7 || i == 8 || (i == 6 && x.tileEn) || (i == 5 && x.storedRole == 4)
          (sinksOf e.2).any side && !(sinksOf e.2).all side))

/-- Row 10. -/
def checkRoutes (g : Img) : List Spot :=
  ((g.rts.filter fun f => entriesBad f.routes).map fun f => (f.at_, f.first)) ++
    (g.places.filter fun p => routesBad (g.ctxOf p.1 p.2.1 p.2.2)).map fun p => (g.frameAt p.1 p.2.1 p.2.2 true, p.2.2)

/-- Whether a cell's routes take or drive an inner link whose neighbour does not answer (row 11). -/
def openLinks (g : Img) (d : RegDesc) (slot cell : Nat) : Bool :=
  (g.ctxOf d slot cell).legs.any fun l =>
    (decide (1 ≤ l.src) && decide (l.src ≤ 4) &&
      match neighbour cell (l.src - 1) with
      | some n => !(g.ctxOf d slot n).legs.any fun m => m.sink == opposite (l.src - 1)
      | none => false) ||
    (decide (l.sink < 4) &&
      match neighbour cell l.sink with
      | some n => !(g.ctxOf d slot n).legs.any fun m => m.src == opposite l.sink + 1
      | none => false)

/-- Row 11. -/
def checkLinks (g : Img) : List Spot :=
  (g.places.filter fun p => openLinks g p.1 p.2.1 p.2.2).map fun p => (g.frameAt p.1 p.2.1 p.2.2 true, p.2.2)

/-- Whether a cell's routes use a stream-port link. -/
def usesEdge (x : Ctx) (cell : Nat) : Bool :=
  x.legs.any fun l => (decide (1 ≤ l.src) && decide (l.src ≤ 4) && (neighbour cell (l.src - 1)).isNone) ||
    (decide (l.sink < 4) && (neighbour cell l.sink).isNone)

/-- Row 12 (R45). -/
def checkCrossing (g : Img) : List Spot :=
  (g.places.filter fun p => !p.1.program && usesEdge (g.ctxOf p.1 p.2.1 p.2.2) p.2.2).map (fun p =>
      (g.frameAt p.1 p.2.1 p.2.2 true, p.2.2)) ++
    (g.ctxs.filter fun f => f.first / 12000 != (f.first + f.rep) / 12000).map (fun f => (f.at_, f.first)) ++
    (g.rts.filter fun f => f.first / 12000 != (f.first + f.rep) / 12000).map fun f => (f.at_, f.first)

/-! ### Row 13: ST_CFG_WINDOW -/

/-- Whether a context's areas leave the cell store, or two overlap where one is written. -/
def areasBad (x : Ctx) : Bool :=
  let l := (List.range x.areas.length).zip x.areas
  l.any (fun a => decide (0x4000 < a.2.1 + a.2.2.1)) ||
    l.any fun a => a.2.2.2 && l.any fun b =>
      a.1 != b.1 && decide (a.2.1 < b.2.1 + b.2.2.1) && decide (b.2.1 < a.2.1 + a.2.2.1)

/-- Whether a window keeps R216. -/
def windowForm (w : Window) : Bool :=
  w.base % 32 == 0 && w.len % 32 == 0 && (if w.kind = 2 then decide (w.base + w.len ≤ retainedBase)
    else decide (w.base + w.len ≤ 0x200000))

/-- Whether two write windows of a phase overlap in a cluster store (R163). -/
def windowsClash (ws : List Window) (p : PhaseEntry) : Bool :=
  let l := ((List.range ws.length).zip ws).filter fun e =>
    p.windowMask.getLsbD e.1 && decide (e.2.kind ≤ 1) && e.2.access.testBit 1
  l.any fun a => l.any fun b =>
    a.1 != b.1 && decide (a.2.base < b.2.base + b.2.len) && decide (b.2.base < a.2.base + a.2.len)

/-- Row 13 (R163, R216). -/
def checkWindows (g : Img) : List Spot :=
  ctxSpots g areasBad ++ (g.regs.map fun d =>
    let ws := crbWindows g.bytes d.id
    let wbad := match sectOf g 6 d.id with
      | none => []
      | some x => ((List.range ws.length).zip ws).filter (fun e => !windowForm e.2) |>.map fun e => spotAt (x.itemAt 32 e.1)
    wbad ++ ((g.phasesOf d).filter fun p => windowsClash ws p.2).map fun p => spotAt p.1).flatten

/-! ### Row 14: ST_CFG_TAPE -/

/-- Tape bytes a context writes per phase element (Tables 8.3, 8.4). -/
def Ctx.tapeBytes (x : Ctx) : Nat :=
  if !x.recordsTape then 0
  else (if x.dsrc = 1 then 32 else x.wpack) * tapeEntryBytes x.dfmt

/-- Tape bytes of a cluster per phase element (R249). -/
def clusterTape (g : Img) (d : RegDesc) (slot cluster : Nat) : Nat :=
  (List.range 80).foldl (fun n i => n + (g.ctxOf d slot (80 * cluster + i)).tapeBytes) 0

/-- Row 14 (R249). -/
def checkTape (g : Img) : List Spot :=
  (g.regs.map fun d =>
    let ws := crbWindows g.bytes d.id
    ((g.phasesOf d).filter fun p =>
      let need := d.clusters.foldl (fun n c => Nat.max n (clusterTape g d p.2.ctx c)) 0
      let room := (((List.range ws.length).zip ws).filter fun e => e.2.kind == 1 && p.2.windowMask.getLsbD e.1).foldl
        (fun (n : Nat) e => n + e.2.len) 0
      g.tapeSlot d.id p.2.ctx &&
        (decide (p.2.tapeBytes < need) || decide (room < p.2.maxCount * p.2.tapeBytes))).map fun p => spotAt p.1).flatten

/-! ### Row 15: ST_CFG_PROGRAM -/

/-- Row 15 (R214). -/
def checkEntry (g : Img) : List Spot :=
  (g.regs.filter fun d => d.program && !(g.progs.any fun q =>
    q.region == d.id && q.kind == 0 && decide (q.dest ≤ d.entry) && decide (d.entry < q.dest + q.bytes.length))).map fun d =>
      spotAt d.at_

/-! ### Row 16: ST_CFG_POWER_DENSITY -/

/-- Weights of the activity classes in mW (Table 7.13). -/
def classWeight (c : Nat) : Nat := lget 0 [0, 1, 4, 6, 9, 11, 13, 15] c

/-- The least class a context requires (Table 7.13). -/
def leastClass (x : Ctx) : Nat :=
  if x.tileEn then
    if 0 < x.chainLen then 7
    else match fmtBits x.fmtA with
      | 8 => 5
      | 4 => 6
      | _ => 4
  else if 0 < x.chainLen || x.red != 0 || x.dsrc != 0 then
    if (0 < x.chainLen && x.wfmt == 0) || decide (8 < x.chainLen) then 3 else 2
  else if x.routes.any fun w => rtSrc w != 0 then 1
  else 0

/-- A cell's weight after the load: the heaviest of its four contexts (R220). -/
def cellWeight (g : Img) (s : State) (cell : Nat) : Nat :=
  (List.range 4).foldl (fun n k => Nat.max n (classWeight (postCtx g s cell k).cls)) 0

/-- Cells that hold some context after the load. -/
def weighedCells (g : Img) (s : State) : List Nat :=
  let img := (g.regs.map fun d => d.cells).flatten
  let res := if g.full then [] else (s.cells.filter fun e => !e.2.ctxs.isEmpty).map Prod.fst
  (img ++ res).foldr insertNat []

/-- Sums of weights by core, and from it by cluster, die and module. -/
def coreWeights (g : Img) (s : State) : Tbl Nat :=
  (weighedCells g s).foldl (fun t i => tadd t (coreOfCell i) (cellWeight g s i)) []
def sumBy (f : Nat → Nat) (t : Tbl Nat) : Tbl Nat := t.foldl (fun u e => tadd u (f e.1) e.2) []

/-- Row 16 (R219, R220). -/
def checkPower (g : Img) (s : State) : List Spot :=
  let low := (g.places.filter fun p =>
    let x := g.ctxOf p.1 p.2.1 p.2.2
    decide (x.cls < leastClass x)).map fun p =>
      match sectOf g 8 p.1.id with
      | some x =>
        let k := (p.1.slots.takeWhile fun i => i != p.2.1).length
        (x.off + (k * 80 * p.1.count + (p.2.2 - 80 * p.1.first)) / 2, p.2.2)
      | none => (noSpot, p.2.2)
  let cores := coreWeights g s
  let clusters := sumBy (· / 4) cores
  let dies := sumBy (· / 150) clusters
  let total := cores.foldl (fun (n : Nat) e => n + e.2) 0
  low ++ failIf (cores.any (fun e => decide (280 < e.2)) || clusters.any (fun e => decide (1100 < e.2)) ||
    dies.any (fun e => decide (160000 < e.2)) || decide (1250000 < total)) (noSpot, noSpot)

/-! ### The verdict -/

/-- The first failing check from row `n` on, with its spot (R233). -/
def firstFail : Nat → List (Unit → List Spot) → Option (Nat × Spot)
  | _, [] => none
  | n, c :: r =>
    match lowestSpot (c ()) with
    | some sp => some (n, sp)
    | none => firstFail (n + 1) r

/-- The checks of Table 7.17 over an image of LOAD_CONFIG length `given`, against the state as it stands (R231, R233). -/
def judge (im : List Byte) (given : Nat) (digest : List Byte) (s : State) : Option (Nat × Spot) :=
  let g := imgOf im
  firstFail 1
    [fun _ => checkImage g given, fun _ => checkAuth g digest s, fun _ => checkFields g, fun _ => checkRegions g s,
      fun _ => checkCapacity g s, fun _ => ctxSpots g formatsBad, fun _ => ctxSpots g recipeBad, fun _ => checkSr g s,
      fun _ => checkClaims g s, fun _ => checkRoutes g, fun _ => checkLinks g, fun _ => checkCrossing g,
      fun _ => checkWindows g, fun _ => checkTape g, fun _ => checkEntry g, fun _ => checkPower g s]

end Sys2Proof.Machine
end

