-- ==== Sys2Proof/Machine/Loader.lean ====
section
/-!
DEFINITION. The stages of a configuration load: FETCH, VERIFY, APPLY and REPORT, and the context switches that wait for a
load (R228 to R239).
-/

namespace Sys2Proof.Machine

open Sys2Proof

/-- The load under way: the oldest (R228). -/
def headLoad (s : State) : Option Load := s.fb.loads.head?

def setLoads (s : State) (l : List Load) : State := { s with fb := { s.fb with loads := l } }

/-- Rewrites the load under way. -/
def modHead (s : State) (f : Load → Load) : State :=
  match s.fb.loads with
  | [] => s
  | l :: r => setLoads s (f l :: r)

/-- Sends the CFG_LOAD of the load under way, once (R228, R229). A long operation's is sent when it leaves QUEUED. -/
def sendLoad (s : State) : State :=
  match headLoad s with
  | none => s
  | some l =>
    let queued := match longOpOf s l.handle with
      | some e => !e.2.ran
      | none => false
    if l.sent || queued then s
    else postDown (modHead s fun l => { l with sent := true }) 0x02 (.cfgLoad l.handle)

/-- Whether a load's stages advance: its long operation, if it has one, is RUNNING (R229). -/
def loadRuns (s : State) (l : Load) : Bool :=
  match longOpOf s l.handle with
  | none => true
  | some e => e.2.state == .running

/-! ### Context switches -/

/-- Whether a load past its commit point writes a region, so that a switch waits for its REPORT (R237). -/
def committedOn (s : State) (region : Nat) : Bool :=
  s.fb.loads.any fun l => l.committed && l.writes region

/-- Carries out a SWITCH_CONTEXT that waits for no load (R77, R236). -/
def switchNow (region slot handle : Nat) (s : State) : State :=
  match regionOf s region with
  | none => complete handle 0x0104 0 [] s
  | some r =>
    if 4 ≤ slot || !r.ctxMask.getLsbD slot then complete handle 0x0104 0 [] s
    else if regionRunning s region then complete handle 0x0120 0 [] s
    else postDown s 0x03 (.ctxSwitch region slot handle)

/-- SWITCH_CONTEXT: at once, or after the REPORT of a committed load (R237). -/
def requestSwitch (region slot handle : Nat) (s : State) : State :=
  if committedOn s region then
    { s with fb := { s.fb with switchWaits := s.fb.switchWaits ++ [(region, slot, handle)] } }
  else switchNow region slot handle s

/-! ### FETCH and VERIFY -/

/-- Image bytes as FETCH reads them: a faulting sector reads as zeros (R280), and the first such sector's image offset. -/
def fetchImage (s : State) (addr n : Nat) : List Byte × Option Nat :=
  (sectorPieces addr n n).foldr (fun p acc =>
    let r := readSector s p.1
    (slice r.1 (p.1 % 32) p.2 ++ acc.1, if r.2 then some (p.1 - addr) else acc.2)) ([], none)

/-- The verdict over an image as FETCH read it, with the offset of its first faulting sector, and the checks of Table 7.17. -/
def verdict (image : List Byte) (bytes : Nat) (bad : Option Nat) (s : State) : Option (Nat × Spot) :=
  let own := judge image bytes (crbDigest image) s
  match bad, own with
  | none, v => v
  | some off, some (n, sp) => if 1 < n || off < sp.1 then some (1, (off, noSpot)) else some (n, sp)
  | some off, none => some (1, (off, noSpot))

/-- FETCH (R229, R231): reads the image, and judges it against the state as it stands now. A faulting sector fails row 1 at its
offset. -/
def execFetch (s : State) : Out :=
  .next (
    match headLoad s with
    | none => s
    | some l =>
      whenTaken (l.stage == .accept && l.dies == 0xFF && loadRuns s l) (fun st =>
        let r := fetchImage st l.addr l.bytes
        let v := (verdict r.1 l.bytes r.2 st).getD (0, (0, 0))
        modHead (noteReads st l.addr l.bytes) fun l => { l with
          stage := .verify, image := r.1, digest := crbDigest r.1, check := v.1, offset := v.2.1, cell := v.2.2 }) s)

/-- VERIFY (R233): the first failing check, in the state that FETCH began in, is reported; an image that fails none goes on. -/
def execVerify (s : State) : Out :=
  .next (
    match headLoad s with
    | none => s
    | some l =>
      whenTaken (l.stage == .verify && loadRuns s l) (fun st =>
        modHead st fun l =>
          if l.check = 0 then { l with stage := .hold, signed := crbSigned l.image } else { l with stage := .report }) s)

/-! ### APPLY -/

/-- Whether running work keeps a load in HOLD (R229, R78, R195): every region is removed by a FULL image; a region of the
same identifier is replaced; another region over the same clusters runs while a Q image or a program for them comes. -/
def loadBlocked (g : Img) (s : State) : Bool :=
  s.fb.runs.any fun e =>
    g.full || g.writes e.1 ||
      match regionOf s e.1 with
      | none => false
      | some r =>
        let shares := fun (d : RegDesc) => decide (d.first < r.first + r.count) && decide (r.first < d.first + d.count)
        g.regs.any fun d => shares d &&
          (d.program || g.ctxs.any fun f => f.region == d.id && f.q.isSome &&
            decide (f.first < 80 * (r.first + r.count)) && decide (80 * r.first ≤ f.first + f.rep))

/-- Writes one cell's four contexts (R208, R209). -/
def applyCell (g : Img) (cell : Nat) (s : State) : State :=
  let t := (List.range 4).foldl (fun (t : Tbl Ctx) k => tput Ctx.idle t k (postCtx g s cell k)) []
  modCell s cell fun c => { c with ctxs := t }

/-- Cells a frame names. -/
def frameCells (first rep : Nat) : List Nat := (List.range (rep + 1)).map fun i => first + i

/-- Loads the Q image of a context frame (R75). -/
def applyQ (f : CtxFrame) (s : State) : State :=
  match f.q with
  | none => s
  | some q => (frameCells f.first f.rep).foldl (fun st i => modCell st i fun c =>
      { c with q := (List.range 32).foldl (fun (t : Tbl W64) k => tput 0 t k (BitVec.ofNat 64 (field q (8 * k) 8))) [],
               qPoison := [] }) s

/-- Where the recipe of a frame's drain is ACTIVATION or GRADIENT, its INIT_SCALE stands in the row codes of the drain table until
the program writes the next (R112, R113; log entry 213). -/
def applyInit (f : CtxFrame) (s : State) : State :=
  let x := f.ctx
  if x.dsrc ≠ 0 && (x.recipe = 2 || x.recipe = 3) then
    (frameCells f.first f.rep).foldl (fun st i =>
      writeMem st (cellStoreAt i + x.tableBase) (List.replicate 4 (BitVec.ofNat 8 x.initScale))) s
  else s

/-- Cores of an image's region on a die. -/
def RegDesc.coresOn (d : RegDesc) (die : Nat) : List Nat :=
  ((List.range (4 * d.count)).map fun i => 4 * d.first + i).filter fun i => dieOfCore i == die

/-- The cores of a region's contexts take the permute parameters of their slots (R156, R157; log entry 501). -/
def applyPerm (digest : List Byte) (die : Nat) (d : RegDesc) (s : State) : State :=
  (d.coresOn die).foldl (fun st i => modCore st i fun c =>
    { c with perm := d.slots.foldl (fun t k => tput 0 t k (Config.permuteParams digest i k)) c.perm }) s

/-- Zeroes the program memories of a region's cores (R214). -/
def clearProgram (die : Nat) (d : RegDesc) (s : State) : State :=
  (d.coresOn die).foldl (fun st i => modCore st i fun c =>
    { c with imem := [], dmem := [], dmemP := [], tshadow := [], tshadowP := [], tlive := [], tliveP := [],
             section_ := (0, 0x10000) }) s

/-- Writes a program subsection to every core of a die that it selects (R214, R182). -/
def applyProg (die : Nat) (q : ProgSub) (s : State) : State :=
  let cores := (((List.range q.count).map fun c =>
    ((List.range 4).filter fun k => q.mask.testBit k).map fun k => 4 * (q.first + c) + k).flatten).filter fun i => dieOfCore i == die
  cores.foldl (fun st i => modCore st i fun c =>
    match q.kind with
    | 0 => { c with imem := putBytes c.imem q.dest q.bytes }
    | 1 => { c with dmem := putBytes c.dmem q.dest q.bytes }
    | _ => { c with tshadow := putBytes c.tshadow q.dest q.bytes, tlive := putBytes c.tlive q.dest q.bytes }) s

/-- The first load after a reset or a SCRUB fixes the job (R235). -/
def fixJob (im : List Byte) (s : State) : State :=
  if jobFixed s then s
  else
    let j := crbRanks im % 2 ^ 17 + crbSrMode im * 2 ^ 17 + 2 ^ 18
    { s with fb := { s.fb with job := BitVec.ofNat 64 j, jobSeed := BitVec.ofNat 64 (crbSeed im) } }

/-- Everything a load writes on one die (R208, R209, R214, R229, R232), with the number of remaps. -/
def applyDie (g : Img) (digest : List Byte) (die : Nat) (s : State) : State × Nat :=
  let r := applyRemaps (loadApplies g s) die s
  let gone := if g.full then (r.1.cells.filter fun e => !e.2.ctxs.isEmpty).map Prod.fst else []
  let cells := (gone ++ weighedCells g r.1).filter fun i => dieOfCell i == die
  let s1 := cells.foldl (fun st i => applyCell g i st) r.1
  let s2 := g.regs.foldl (fun st d => applyPerm digest die d st) s1
  let s3 := (g.ctxs.filter fun f => dieOfCell f.first == die).foldl (fun st f => applyInit f (applyQ f st)) s2
  let s4 := (g.regs.filter (·.program)).foldl (fun st d => clearProgram die d st) s3
  (g.progs.foldl (fun st q => applyProg die q st) s4, r.2)

/-- Whether a load has something to apply on a die: it is FULL, a region of it lies there, or a remap. -/
def dieTouched (g : Img) (s : State) (die : Nat) : Bool :=
  g.full || g.regs.any (fun d => decide (d.first < 150 * (die + 1)) && decide (150 * die < d.first + d.count)) ||
    remapsOn (loadApplies g s) die s

/-- Dies that still have to apply a load. -/
def diesLeft (g : Img) (l : Load) (s : State) : List Nat :=
  (List.range 8).filter fun d => !l.applied.getLsbD d && dieTouched g s d

/-- The commit point (R229, R235): the load can no longer be cancelled, MOVED and COPY_POISON start anew, and the first load
fixes the job. -/
def commitLoad (l : Load) (s : State) : State :=
  fixJob l.image (clearMoved (modLong s l.handle fun o => { o with pastCommit := true }))

/-- The dies that no halt holds apply the load; REPORT is next once none is left (R33, R229). -/
def applyDies (l : Load) (s : State) : State :=
  let g := imgOf l.image
  let go := (diesLeft g l s).filter fun d => !dieHalted s d
  let r := go.foldl (fun (a : State × Nat) d =>
    let x := applyDie g l.digest d a.1
    (x.1, a.2 + x.2)) (s, l.remaps)
  let wait := (diesLeft g l s).any fun d => dieHalted s d
  modHead r.1 fun l => { l with stage := if wait then .apply else .report, remaps := r.2,
                                applied := go.foldl (fun m d => m ||| BitVec.ofNat 8 (2 ^ d)) l.applied }

/-- APPLY (R229): its first instant is the commit point; a halt holds a die's part until it clears. -/
def execApply (s : State) : Out :=
  .next (
    match headLoad s with
    | none => s
    | some l =>
      if l.stage == .apply then applyDies l s
      else whenTaken (l.stage == .hold && loadRuns s l && !loadBlocked (imgOf l.image) s)
        (fun st => applyDies l (commitLoad l st)) s)

/-! ### REPORT -/

/-- The region record a descriptor leaves (Table 7.25). -/
def regionFrom (l : Load) (d : RegDesc) : Region :=
  { ctxMask := BitVec.ofNat 4 d.ctxMask, program := d.program, first := d.first, count := d.count, entry := d.entry,
    phases := crbPhases l.image d.id, windows := crbWindows l.image d.id, signed := l.signed, digest := l.digest }

/-- The resident regions after a load, in ascending identifier. -/
def regionsAfter (l : Load) (s : State) : List (Nat × Region) :=
  let g := imgOf l.image
  (List.range 64).filterMap fun r =>
    match g.regs.find? fun d => d.id == r with
    | some d => some (r, regionFrom l d)
    | none => (staying g s).find? fun e => e.1 == r

/-- Committed power sums of the dies and the module (R220), from the contexts the cells hold. -/
def powerSums (s : State) : Tbl Nat × Nat :=
  let w := fun (c : Cell) => c.ctxs.foldl (fun n e => Nat.max n (classWeight e.2.cls)) 0
  let t := s.cells.foldl (fun t e => tadd t (dieOfCell e.1) (w e.2)) []
  (t, t.foldl (fun (n : Nat) e => n + e.2) 0)

/-- FB_LOAD_FAULT (Table 7.22). -/
def loadFaultWord (l : Load) : W64 := BitVec.ofNat 64 (l.offset % 2 ^ 32 + l.cell % 2 ^ 32 * 2 ^ 32)

/-- The configuration-load summary (Table 17.9); `outcome` as LAST_CHECK. -/
def loadSummary (l : Load) (outcome : Nat) (s : State) : List Byte :=
  let regs := if outcome = 0 then l.regions.foldl (fun n d => n ||| 2 ^ d.id) 0 else 0
  leBytes 4 l.handle ++ [BitVec.ofNat 8 outcome, BitVec.ofNat 8 (portOfHandle l.handle)] ++ leBytes 2 l.remaps ++
    leBytes 4 l.bytes ++ leBytes 4 0 ++ leBytes 8 regs ++ leBytes 8 s.fb.loadCount.toNat ++ leBytes 8 s.fb.loadFault.toNat ++
    padTo 48 l.digest ++ leBytes 4 s.fb.powerModule

/-- Ends the load under way with an outcome of LAST_CHECK: the registers, the summary, and the next load (R228, R239,
R520). -/
def closeLoad (l : Load) (outcome : Nat) (s : State) : State :=
  let s1 := { s with fb := { s.fb with lastCheck := outcome, lastHandle := l.handle,
                                       loads := lremove (fun x => x.handle == l.handle) s.fb.loads } }
  sendLoad (noteLoad (loadSummary l outcome s1) s1)

/-- Commands that waited for a load: switches first, then phases (R230, R237). -/
def afterLoad (s : State) : State :=
  let ws := s.fb.switchWaits
  let s1 := ws.foldl (fun st w => requestSwitch w.1 w.2.1 w.2.2 st) { s with fb := { s.fb with switchWaits := [] } }
  (List.range 64).foldl (fun st r => startNextWait r st) s1

/-- REPORT of a committed load. -/
def reportGood (l : Load) (s : State) : State :=
  let p := powerSums s
  let s1 := { s with fb := { s.fb with regions := regionsAfter l s, loadCount := s.fb.loadCount + 1, powerDie := p.1,
                                       powerModule := p.2 } }
  afterLoad (postCompletion l.handle 0 0 [] (closeLoad l 0 s1))

/-- REPORT of a rejected load (R233, Table 7.22). -/
def reportBad (l : Load) (s : State) : State :=
  let w := loadFaultWord l
  let s1 := { s with fb := { s.fb with loadFault := w } }
  afterLoad (postCompletion l.handle (0x0100 + l.check) 0 [w] (closeLoad l l.check s1))

/-- REPORT (R239). -/
def execReport (s : State) : Out :=
  .next (
    match headLoad s with
    | none => s
    | some l =>
      whenTaken (l.stage == .report && (l.check == 0 || loadRuns s l))
        (fun st => if l.check = 0 then reportGood l st else reportBad l st) s)

/-- A load cancelled before its commit point (R229): LAST_CHECK reads 0xFF. -/
def cancelLoad (handle : Nat) (s : State) : State :=
  match s.fb.loads.find? fun l => l.handle == handle with
  | none => s
  | some l => afterLoad (closeLoad l 0xFF s)

end Sys2Proof.Machine
end

