-- ==== Sys2Proof/Machine/Ports.lean ====
section
/-!
DEFINITION. The optical ports: directions and neighbours, the state machine of Table 10.3, lamps (Table 15.7), lanes and
lane moves, and the rows of the port, the pilot and the person at the bezel (10 R293 to R309, R330, R331, R554 to R556;
15 R464 to R466, R480, R481).
-/

namespace Sys2Proof.Machine

open Sys2Proof

/-! ### The torus (R7) -/

/-- A rank's coordinate in dimension 0 X to 3 W. -/
def coordOf (rank dim : Nat) : Nat := rank / 16 ^ dim % 16

/-- Modules in a dimension (Table 10.15). -/
def dimSize (s : State) (dim : Nat) : Nat := bitsOf s.lk.torus.toNat (4 * dim + 3) (4 * dim) + 1

def ownRank (s : State) : Nat := bitsOf s.lk.rank.toNat 15 0
def rankValid (s : State) : Bool := s.lk.rank.getLsbD 16

/-- The neighbour of a rank in direction d: 2 × dimension, plus 1 for the minus way (R7). -/
def neighbourRank (s : State) (rank d : Nat) : Nat :=
  let dim := d / 2
  let n := dimSize s dim
  let c := coordOf rank dim
  let c' := if d % 2 = 0 then (c + 1) % n else (c + n - 1) % n
  rank - c * 16 ^ dim + c' * 16 ^ dim

/-- The opposite direction: the other port of the pair (R299). -/
def oppositeDir (d : Nat) : Nat := if d % 2 = 0 then d + 1 else d - 1

/-- Whether every coordinate of a rank lies inside the torus (R7, R552). -/
def inTorus (s : State) (rank : Nat) : Bool := (List.range 4).all fun d => decide (coordOf rank d < dimSize s d)

/-- The direction a port serves, facing a far end of this rank and announced direction; none is MISCABLED (R299). -/
def directionFor (s : State) (p farRank farDir : Nat) : Option Nat :=
  if farDir = 0xF then
    if p < 8 && neighbourRank s (ownRank s) p == farRank then some p else none
  else if 8 ≤ farDir then none
  else
    let d := oppositeDir farDir
    if neighbourRank s (ownRank s) d != farRank then none
    else if p < 8 && d != p then none
    else some d

/-! ### States and lamps -/

/-- STATE of Table 10.10. -/
def PState.code : PState → Nat
  | .dark => 0
  | .pilot => 1
  | .ramp => 2
  | .train => 3
  | .ready => 4
  | .active => 5
  | .drain => 6
  | .released => 7
  | .hold => 8
  | .fault => 9

/-- Whether a port's data lasers are commanded on (Table 10.3). -/
def PState.lit : PState → Bool
  | .ramp => true
  | .train => true
  | .ready => true
  | .active => true
  | .drain => true
  | _ => false

/-- Whether a port is down to its pilot because it was idled or held. -/
def PState.idled (x : PState) : Bool := x == .released || x == .hold

/-- Whether a port's data lasers emit: both channels enable them and the port has proved them (R465). -/
def emits (s : State) (p : Nat) : Bool :=
  (getPort s p).state.lit && s.sf.mcEnable.getLsbD p && !s.ws.portMc.getLsbD p && !(getPort s p).touched &&
    s.sf.pilotA.getLsbD p && !s.ws.portSm.getLsbD p && s.sf.pilotB.getLsbD p && s.sf.proof.getLsbD p

/-- The pattern of the port's state (Table 15.7, R480). -/
def lampOf (s : State) (p : Nat) : Lamp :=
  let v := getPort s p
  if v.state == .fault || smHolds s p 1 || smHolds s p 2 then .alternating
  else
    match v.state with
    | .dark => .off
    | .active => .greenSteady
    | .drain => .amberFlashing
    | .released => if v.darkRead then .amberSteady else v.lampBefore
    | .hold => if v.darkRead then .amberSteady else v.lampBefore
    | _ => .greenFlashing

/-- Brings a port's lamp up to date; in P4 and under a heartbeat hold it is off (Table 15.7, R476). -/
def relamp (p : Nat) (s : State) : State :=
  let v := getPort s p
  let base := lampOf s p
  let shown := if s.pw.state == .p4 || smHolds s p 3 then .off else if 0 < v.flash then .refused else base
  let s1 := setPort s p { v with lamp := shown, lampBefore := base,
                                 lampChanges := v.lampChanges + (if shown = v.lamp then 0 else 1) }
  if shown = .off then s1
  else
    let seen := s1.bb.window.lampSeen ||| BitVec.ofNat 10 (2 ^ p)
    { s1 with bb := { s1.bb with window := { s1.bb.window with lampSeen := seen } } }

/-- All lamps. -/
def relampAll (s : State) : State := (List.range 10).foldl (fun st p => relamp p st) s

/-- Counts into LK_PORT_CNT[p][k]. -/
def countPort (p k n : Nat) (s : State) : State := modPort s p fun v => { v with cnt := taddW v.cnt k n }

/-- Sets a bit of LK_PORT_FAULT[p]. -/
def faultPort (p bit : Nat) (s : State) : State := modPort s p fun v => { v with fault := v.fault ||| BitVec.ofNat 32 (2 ^ bit) }

/-- Discards the flits queued on a port, counting each packet once (R302, R331). -/
def discardEgress (p : Nat) (s : State) : State :=
  let n := (getPort s p).egress.length
  countPort p 8 n (modPort s p fun v => { v with egress := [] })

/-- Lanes with the data lasers off: dark, except those that have failed (Table 10.13, R308). -/
def darkLanes (l : List Lane) : List Lane := l.map fun x => if x.role = 17 then x else { x with role := 18 }

/-- A port's fields on entry to a state. -/
def Port.entering (v : Port) (new : PState) : Port :=
  let v1 := { v with state := new, pressed := v.pressed && new == .drain,
                     fromP3 := v.fromP3 && (new == .pilot || new == .drain || (new == .released && v.state == .drain)),
                     darkRead := v.darkRead && (v.state == .hold || v.state == .released) && new.idled,
                     autoAdmit := v.autoAdmit && new.lit }
  let v2 := if new.lit then v1
            else { v1 with lanes := darkLanes v1.lanes, move := none, txMove := none, used := [], narrow := false,
                           wideRoles := [], txLanes := [] }
  match new with
  | .dark => { v2 with farValid := false, farRank := 0, farPort := 0, farDir := 0xF, dir := 0xF, farReady := false,
                       farDraining := false, farState := 0, badFrame := false, lastFrame := none }
  | .active => { v2 with lastId := some (v2.farRank, v2.farPort, v2.dir) }
  | _ => v2

/-- Enters a state: queued flits are discarded on leaving routing other than to DRAIN, a PORT_RELEASE that waits completes
in RELEASED or DARK, and the lamp follows (R302, R556, R480). -/
def enterPort (p : Nat) (new : PState) (s : State) : State :=
  let old := (getPort s p).state
  if old = new then s else
  let s1 := if (old == .active || old == .drain) && new != .drain then discardEgress p s else s
  let en := if new.lit then s1.sf.mcEnable ||| BitVec.ofNat 10 (2 ^ p)
            else s1.sf.mcEnable &&& ~~~ BitVec.ofNat 10 (2 ^ p)
  let s2 := modPort { s1 with sf := { s1.sf with mcEnable := en } } p fun v => v.entering new
  let ws := (getPort s2 p).waiters
  let s3 :=
    if new = .released || new = .dark then
      ws.foldl (fun st h => postCompletion h (if new = .released then 0 else 0x0400) 0 [] st)
        (modPort s2 p fun v => { v with waiters := [] })
    else s2
  relamp p s3

/-- "Step fails": a fault bit and FAULT (Table 10.3). -/
def failPort (p bit : Nat) (s : State) : State := enterPort p .fault (faultPort p bit s)

/-- What a port's own pilot frames carry as DATA_READY (R555). -/
def dataReady (s : State) (p : Nat) : Bool :=
  s.rst.lasersPermitted && s.sf.proof.getLsbD p && !lineHeld s p &&
    (match (getPort s p).state with
     | .pilot => true
     | .ramp => true
     | .train => true
     | .ready => true
     | .active => true
     | _ => false)

/-- "Step done" and "Step fails" in PILOT (R299, Table 10.3). -/
def settlePilot (p : Nat) (s : State) : State :=
  let v := getPort s p
  if v.state != .pilot || !rankValid s || !v.farValid then s
  else
    let d := if v.dir = 0xF then directionFor s p v.farRank v.farDir else some v.dir
    match d with
    | none => failPort p 0 s
    | some d =>
      let s1 := modPort s p fun x => { x with dir := d }
      if dataReady s1 p && v.farReady then enterPort p .ramp (modPort s1 p fun x => { x with autoAdmit := x.fromP3 })
      else s1

/-- Every port whose condition in PILOT may have come about. -/
def settlePilots (s : State) : State := (List.range 10).foldl (fun st p => settlePilot p st) s

/-- A copy of the port's line has been asserted (Table 10.3). -/
def lineOn (p : Nat) (s : State) : State :=
  match (getPort s p).state with
  | .ramp => enterPort p .hold s
  | .train => enterPort p .hold s
  | .ready => enterPort p .hold s
  | .active => enterPort p .hold s
  | .drain => enterPort p .released s
  | _ => relamp p s

/-- A copy of the port's line has cleared: a held port ramps when no line remains (Table 10.3, R301). -/
def lineOff (p : Nat) (s : State) : State :=
  if lineHeld s p then relamp p s
  else
    match (getPort s p).state with
    | .hold => enterPort p .ramp (modPort s p fun v => { v with autoAdmit := true })
    | _ => settlePilot p (relamp p s)

/-- The safety monitor asserts its copy of a port's line for a cause (Table 15.12). -/
def smHold (p cause : Nat) (s : State) : State :=
  let s1 := { s with sf := { s.sf with holds := tput false s.sf.holds (8 * p + cause) true },
                     ws := { s.ws with portSm := s.ws.portSm ||| BitVec.ofNat 10 (2 ^ p) } }
  lineOn p s1

/-- The safety monitor no longer holds a port for a cause; its copy clears unless another cause remains. -/
def smFree (p cause : Nat) (s : State) : State :=
  let s1 := { s with sf := { s.sf with holds := tput false s.sf.holds (8 * p + cause) false } }
  if (List.range 8).any fun c => smHolds s1 p c then relamp p s1
  else lineOff p { s1 with ws := { s1.ws with portSm := s1.ws.portSm &&& ~~~ BitVec.ofNat 10 (2 ^ p) } }

/-! ### Routing's view of the ports -/

/-- Whether a port carries packets: ACTIVE, and its far end shows ACTIVE without DRAINING (R302, R554). -/
def portUp (s : State) (p : Nat) : Bool :=
  let v := getPort s p
  v.state == .active && v.farState == 5 && !v.farDraining

/-- The ACTIVE port that serves a direction. -/
def activePort (s : State) (d : Nat) : Option Nat :=
  (List.range 10).find? fun p => (getPort s p).state == .active && (getPort s p).dir == d

/-- The port that carries packets in a direction. -/
def upPort (s : State) (d : Nat) : Option Nat := (List.range 10).find? fun p => portUp s p && (getPort s p).dir == d

/-- LK_ROUTE_BANK of an epoch's bank number. -/
def bankOf (s : State) (b : Nat) : W64 := if b % 2 = 0 then s.lk.bank0 else s.lk.bank1

/-- DETOUR[d] of a bank. -/
def detourOf (bank : W64) (d : Nat) : Nat := bits64 bank (16 + 4 * d + 3) (16 + 4 * d)

/-- Whether a release of an ACTIVE port is refused: no detour of its direction that is ACTIVE (R330). -/
def lastRoute (s : State) (p : Nat) : Bool :=
  let t := detourOf (bankOf s s.lk.epoch) (getPort s p).dir
  t == 0xF || (activePort s t).isNone

/-- A release that takes effect at once or starts the drain (Table 10.3); `handle` waits for RELEASED (R556). -/
def releasePort (p : Nat) (handle : Option Nat) (press : Bool) (s : State) : State :=
  let wait := fun (st : State) => match handle with
    | some h => modPort st p fun v => { v with waiters := v.waiters ++ [h] }
    | none => st
  match (getPort s p).state with
  | .dark => s
  | .drain => wait s
  | .released =>
    let s1 := enterPort p .pilot s
    settlePilot p (match handle with
      | some h => postCompletion h 0 0 [] s1
      | none => s1)
  | .active => modPort (enterPort p .drain (wait s)) p fun v => { v with pressed := press }
  | _ => enterPort p .released (wait s)

/-! ### Lanes (R306 to R308) -/

/-- The lane chosen before another: higher grade, then lower number. -/
def laneBefore (g : List Nat) (i j : Nat) : Bool :=
  decide (lget 0 g j < lget 0 g i) || (lget 0 g i == lget 0 g j && decide (i < j))

/-- The 16 lanes a receiver takes as active (R306); fewer when fewer reach grade 3. -/
def takeLanes (g : List Nat) : List Nat :=
  (List.range 20).filter fun i =>
    decide (3 ≤ lget 0 g i) && decide (((List.range 20).filter fun j => laneBefore g j i).length < 16)

/-- Lanes of grade 3 or better. -/
def goodCount (g : List Nat) : Nat := ((List.range 20).filter fun i => decide (3 ≤ lget 0 g i)).length

/-- Sets the lanes' grades, with their WORST (Table 10.13). -/
def gradeLanes (g : List Nat) (l : List Lane) : List Lane :=
  ((List.range l.length).zip l).map fun e =>
    let x := Nat.min 7 (lget 0 g e.1)
    { e.2 with grade := x, worst := Nat.min e.2.worst x, low := if x ≤ 2 then e.2.low + 1 else 0 }

/-- Roles after training: logical lanes in ascending physical order, the rest spare (R295, R306). -/
def roleLanes (act : List Nat) (l : List Lane) : List Lane :=
  ((List.range l.length).zip l).map fun e =>
    if act.contains e.1 then { e.2 with role := (act.filter fun i => decide (i < e.1)).length, low := 0 }
    else { e.2 with role := 16, low := 0 }

/-- The spare a move would take: highest grade at 4 or better, lower number among equals (R308). -/
def bestSpare (l : List Lane) : Option Nat :=
  let g := l.map fun x => if x.role = 16 && 4 ≤ x.grade then x.grade else 0
  (List.range l.length).find? fun i =>
    decide (4 ≤ lget 0 g i) && (List.range l.length).all fun j => j == i || laneBefore g i j

/-- Whether a lane must move (R308). -/
def Lane.mustMove (x : Lane) : Bool := decide (x.role < 16) && (x.grade == 0 || decide (4 ≤ x.low))

/-- Starts a lane move, or fails the port when a lane at grade 0 has no spare (R308, Table 10.3). -/
def moveLanes (p : Nat) (s : State) : State :=
  let v := getPort s p
  if v.move.isSome || !(v.state == .ready || v.state == .active) then s
  else
    match v.lanes.find? Lane.mustMove with
    | none => s
    | some x =>
      match bestSpare v.lanes with
      | some t => modPort s p fun u => { u with move := some (x.role, t) }
      | none => if v.lanes.any fun y => decide (y.role < 16) && y.grade == 0 then failPort p 2 s else s

/-! ### Pilot frames (R297) -/

/-- The grade of a lane (R307, Table 10.4). -/
def gradeOf (m : LaneMeasure) : Nat :=
  if !m.locked then 0
  else
    match (List.range 6).find? fun k => decide (m.errors * 10 ^ (8 - k) ≤ m.symbols) with
    | some k => 7 - k
    | none => 1

/-- A set of physical lanes as bits. -/
def laneMask (l : List Nat) : Nat := l.foldl (fun n i => n + 2 ^ i) 0

/-- Bytes 0 to 13 of a pilot frame (Table 10.2). -/
def frameBody (f : PilotFrame) : List Byte :=
  let flags := b2n f.rankValid + 2 * b2n f.dataReady + 4 * b2n f.draining + 8 * b2n f.hold + 16 * b2n f.lasersOn
  let move := match f.move with
    | some m => m % 16 + 128
    | none => 0
  [f.magic, BitVec.ofNat 8 flags] ++ leBytes 2 f.rank ++ [BitVec.ofNat 8 (f.physPort % 16 + f.dir % 16 * 16), BitVec.ofNat 8 f.state] ++
    leBytes 3 f.rxActive.toNat ++ [BitVec.ofNat 8 move, BitVec.ofNat 8 (f.moveTo % 32), f.count, 0, 0]

/-- A frame whose MAGIC and CRC hold (R298). -/
def frameValid (f : PilotFrame) : Bool := f.magic == 0xC7 && f.crc == crc16 (frameBody f)

/-- The frame a port sends (R297, R555, Table 10.2): a spare port announces the direction it has determined. -/
def ownFrame (s : State) (p : Nat) : PilotFrame :=
  let v := getPort s p
  let act := (List.range v.lanes.length).filter fun i => decide ((lget Lane.reset v.lanes i).role < 16)
  let f : PilotFrame :=
    { magic := 0xC7, rankValid := rankValid s, dataReady := dataReady s p, draining := v.state == .drain,
      hold := v.state == .hold, lasersOn := v.state.lit, rank := ownRank s, physPort := p, dir := if p < 8 then p else v.dir,
      state := v.state.code, rxActive := BitVec.ofNat 20 (laneMask act), move := v.move.map (·.1),
      moveTo := (v.move.map (·.2)).getD 0, count := v.frameCount, crc := 0 }
  { f with crc := crc16 (frameBody f) }

/-- The port sends its next frame; COUNT counts it. -/
def sendFrame (p : Nat) (s : State) : State :=
  let f := ownFrame s p
  let s1 := modPort s p fun v => { v with frameCount := v.frameCount + 1 }
  { s1 with env := { s1.env with pilots := s1.env.pilots ++ [(p, frameBody f ++ leBytes 2 f.crc.toNat)] } }

/-- The transmit lanes a far receiver names: sixteen of them, in ascending physical order (R295, R306). -/
def namedLanes (m : BitVec 20) : List Nat :=
  let l := (List.range 20).filter fun i => m.getLsbD i
  if l.length = 16 then l else []

/-- The transmit lanes after a frame: those it names while the far end trains, then as the moves leave them. -/
def Port.heard (v : Port) (f : PilotFrame) : List Nat :=
  if v.state.lit && (v.state == .train || v.txLanes.isEmpty) then namedLanes f.rxActive else v.txLanes

/-! ### Rows -/

/-- The far identity in valid frames has changed, other than by a far spare finding its direction (R299). -/
def identityChanged (v : Port) (f : PilotFrame) : Bool :=
  v.farValid && f.rankValid &&
    !(f.rank == v.farRank && f.physPort == v.farPort &&
      (f.dir == v.farDir || (v.farDir == 0xF && decide (8 ≤ v.farPort) && decide (f.dir < 8))))

/-- A valid pilot frame arrives (R298, R299, R308, R554). -/
def hearFrame (p : Nat) (f : PilotFrame) (s : State) : State :=
  let v := getPort s p
  let s0 := if rankValid s then s else faultPort p 5 s
  let changed := identityChanged v f
  if changed && v.state != .pilot && v.state != .dark then enterPort p .dark (faultPort p 6 s0)
  else
    let wasUp := portUp s p
    let s1 := if changed then faultPort p 6 s0 else s0
    let s2 := if v.state = .dark then enterPort p .pilot s1 else s1
    let s3 := modPort s2 p fun x =>
      let y := { x with farReady := f.dataReady, farDraining := f.draining, farState := f.state, badFrame := false,
                        dir := if changed then 0xF else x.dir, txLanes := x.heard f, lastFrame := some f,
                        txMove := if x.state.lit then f.move.map fun m => (m, f.moveTo) else none }
      if f.rankValid then { y with farValid := true, farRank := f.rank, farPort := f.physPort, farDir := f.dir } else y
    let s4 := if wasUp && !portUp s3 p then discardEgress p s3 else s3
    settlePilot p s4

/-- PILOT_FRAME (R297 to R299, R308, R554): a frame arrives, and the port's own next frame goes out. -/
def execPilotFrame (p : Nat) (f : PilotFrame) (s : State) : Out :=
  guardUnit (decide (p < 10)) <|
    sendFrame p (if frameValid f then hearFrame p f s else modPort s p fun v => { v with badFrame := true })

/-- PILOT_LOST (R298, Table 10.3). -/
def execPilotLost (p : Nat) (s : State) : Out :=
  guardUnit (decide (p < 10)) <|
    whenTaken ((getPort s p).state != .dark || (getPort s p).badFrame) (fun st =>
      let bad := (getPort st p).badFrame
      let was := (getPort st p).state != .dark
      let s1 := if bad then faultPort p 4 st else st
      let s2 := modPort s1 p fun v => { v with badFrame := false, pilotLosses := v.pilotLosses + (if was then 1 else 0) }
      enterPort p .dark s2) s

/-- PILOT_DETECTOR_LOST (R464, R466): the channel's actuator turns the data lasers off (`emits`). -/
def execPilotDetectorLost (p : Nat) (chanB : Bool) (s : State) : Out :=
  guardUnit (decide (p < 10)) <|
    let m := BitVec.ofNat 10 (2 ^ p)
    let seen := if chanB then s.sf.pilotB.getLsbD p else s.sf.pilotA.getLsbD p
    whenTaken seen (fun st =>
      let k := if chanB then 5 else 4
      let c := if (getPort st p).state.lit then taddSat st.sf.counts k 1 else st.sf.counts
      { st with sf := if chanB then { st.sf with pilotB := st.sf.pilotB &&& ~~~m, counts := c }
                      else { st.sf with pilotA := st.sf.pilotA &&& ~~~m, counts := c } }) s

/-- PILOT_DETECTOR_PRESENT (R464, R465). -/
def execPilotDetectorPresent (p : Nat) (chanB : Bool) (s : State) : Out :=
  guardUnit (decide (p < 10)) <|
    let m := BitVec.ofNat 10 (2 ^ p)
    { s with sf := if chanB then { s.sf with pilotB := s.sf.pilotB ||| m } else { s.sf with pilotA := s.sf.pilotA ||| m } }

/-- RAMP_DONE (R304, Table 10.3). -/
def execRampDone (p : Nat) (lanes : List LaneMeasure) (s : State) : Out :=
  guardUnit (decide (p < 10)) <|
    let grades := lanes.map gradeOf
    whenTaken ((getPort s p).state == .ramp) (fun st =>
      let s1 := modPort st p fun v => { v with lanes := gradeLanes grades v.lanes }
      if goodCount grades < 16 then failPort p 1 s1 else enterPort p .train s1) s

/-- TRAIN_DONE (R301, R304, R306). -/
def execTrainDone (p : Nat) (lanes : List LaneMeasure) (s : State) : Out :=
  guardUnit (decide (p < 10)) <|
    let grades := lanes.map gradeOf
    whenTaken ((getPort s p).state == .train) (fun st =>
      let s1 := modPort st p fun v => { v with lanes := gradeLanes grades v.lanes }
      if goodCount grades < 16 then failPort p 1 s1
      else
        let s2 := modPort s1 p fun v => { v with lanes := roleLanes (takeLanes grades) v.lanes }
        let v := getPort s2 p
        if v.autoAdmit && v.lastId == some (v.farRank, v.farPort, v.dir) then enterPort p .active s2
        else postEvent 0x8001 [BitVec.ofNat 64 (p + v.farRank * 65536)] (enterPort p .ready s2)) s

/-- LANE_GRADE_INTERVAL (R307, R308). -/
def execLaneGradeInterval (p : Nat) (lanes : List LaneMeasure) (corrected : List Nat) (uncorr : Nat) (s : State) : Out :=
  guardUnit (decide (p < 10)) <|
    let grades := lanes.map gradeOf
    let s1 := modPort s p fun v =>
      { v with lanes := gradeLanes grades v.lanes,
               fec := (List.range 20).foldl (fun t i => tadd t i (lget 0 corrected i)) v.fec,
               uncorr := v.uncorr + BitVec.ofNat 32 uncorr,
               cnt := taddW (taddW v.cnt 2 (corrected.foldl (· + ·) 0)) 3 uncorr }
    moveLanes p s1

/-- LANE_MOVE_SWITCH (R308): the receiver's move and the move this transmitter carries out end at the marker. -/
def execLaneMoveSwitch (p : Nat) (s : State) : Out :=
  guardUnit (decide (p < 10)) <|
    let v := getPort s p
    let s1 := match v.move with
      | none => s
      | some (m, t) =>
        let l := ((List.range v.lanes.length).zip v.lanes).map fun e =>
          if e.1 = t then { e.2 with role := m, moves := Nat.min 65535 (e.2.moves + 1), low := 0 }
          else if e.2.role = m then { e.2 with role := 17, low := 0 }
          else e.2
        let s' := countPort p 6 1 (modPort s p fun u => { u with lanes := l, move := none })
        let w := s'.bb.window
        if s'.pw.guard then { s' with bb := { s'.bb with window := { w with guardMoves := w.guardMoves + 1 } } } else s'
    moveLanes p (modPort s1 p fun u => { u with
      txMove := none,
      txLanes := match u.txMove with
        | some (m, t) => u.txLanes.set m t
        | none => u.txLanes })

/-- RELEASE_BUTTON (R303, R330, R480, R481): a press refused under R330 shows three flashes at 4 Hz, 750 periods. -/
def execReleaseButton (p : Nat) (s : State) : Out :=
  guardUnit (decide (p < 10)) <|
    let s1 := modPort s p fun v => { v with presses := v.presses + 1 }
    if (getPort s p).state == .active && lastRoute s p then relamp p (modPort s1 p fun v => { v with flash := 750 })
    else releasePort p none true s1

/-- LATCH_TOUCH (R481, Table 15.8). -/
def execLatchTouch (p : Nat) (s : State) : Out :=
  guardUnit (decide (p < 10)) <|
    let s1 := modPort s p fun v => { v with touches := v.touches + 1 }
    if (getPort s p).touchIgnored then s1
    else lineOn p (modPort s1 p fun v => { v with touched := true })

/-- LATCH_HOLD_END (R481): the line clears; an ignored sensor that reads untouched is heard again. -/
def execLatchHoldEnd (p : Nat) (s : State) : Out :=
  guardUnit (decide (p < 10)) <|
    let v := getPort s p
    let s1 := setPort s p { v with touched := false, touchIgnored := false }
    if v.touched then lineOff p s1 else s1

/-- LATCH_SENSOR_FAULT (R481). -/
def execLatchSensorFault (p : Nat) (s : State) : Out :=
  guardUnit (decide (p < 10)) <|
    whenTaken (getPort s p).touched (fun st =>
      let s1 := modPort st p fun v => { v with touched := false, touchIgnored := true }
      lineOff p { s1 with bb := { s1.bb with latchFaults := s1.bb.latchFaults + 1 } }) s

/-- LASER_DARK_READING (R480). -/
def execLaserDarkReading (p : Nat) (dark : Bool) (s : State) : Out :=
  guardUnit (decide (p < 10)) <|
    whenTaken ((getPort s p).state.idled && dark) (fun st =>
      relamp p (modPort st p fun v => { v with darkRead := true })) s

/-- The end of a drain: RELEASED; a port drained for P3 waits in PILOT (R305). -/
def endDrain (p : Nat) (s : State) : State :=
  let s1 := enterPort p .released s
  if (getPort s1 p).fromP3 then enterPort p .pilot s1 else s1

/-- DRAIN_END (R331, R556). -/
def execDrainEnd (p : Nat) (s : State) : Out :=
  guardUnit (decide (p < 10)) <|
    whenTaken ((getPort s p).state == .drain && (getPort s p).egress.isEmpty) (endDrain p) s

/-- DRAIN_TIMEOUT (R331, R481): the remaining flits are discarded. -/
def execDrainTimeout (p : Nat) (s : State) : Out :=
  guardUnit (decide (p < 10)) <|
    whenTaken ((getPort s p).state == .drain) (fun st =>
      endDrain p (countPort p 7 1 (faultPort p 3 (discardEgress p st)))) s

end Sys2Proof.Machine
end

