-- ==== Sys2Proof/Machine/Orders.lean ====
section
/-!
DEFINITION. Interlock orders and their acknowledgement, FCLK caps, the halt line, debug halts with snapshot and restore
(01 R26, R29 to R38; 14 R448 to R451; 16 R506, R507).
-/

namespace Sys2Proof.Machine

open Sys2Proof

/-! ### Caps (R34, Table 14.12) -/

/-- The cap a source of Table 14.12 imposes on a die; 0 none. -/
def capBy (s : State) (d src : Nat) : Nat := tget 0 s.pw.caps (8 * d + src)

/-- Sets or lifts (2,700 MHz) a source's cap. -/
def setCap (d src mhz : Nat) (s : State) : State :=
  { s with pw := { s.pw with caps := tput 0 s.pw.caps (8 * d + src) (if 2700 ≤ mhz then 0 else mhz) } }

/-- The cap a THROTTLE to a die would carry now, and its source: the lowest of those the management plane orders, the lower
source number among equals; 2,700 MHz and 0 when none (R34, R450). -/
def wantCap (s : State) (d : Nat) : Nat × Nat :=
  [1, 2, 3, 6, 7].foldl (fun (b : Nat × Nat) k =>
    let c := capBy s d k
    if c ≠ 0 && c < b.1 then (c, k) else b) (2700, 0)

/-- The cap in force on a die and its source (R34): the lowest of what the last THROTTLE the die has read ordered, of the guard
band and of the safety monitor; the lower source number among equals; 2,700 MHz and 0 when none. -/
def capOf (s : State) (d : Nat) : Nat × Nat :=
  [(tget 0 s.pw.ordered d, tget 0 s.pw.orderedBy d), (capBy s d 4, 4), (capBy s d 5, 5)].foldl (fun (b : Nat × Nat) e =>
    if e.1 ≠ 0 && (e.1 < b.1 || (e.1 == b.1 && decide (e.2 < b.2))) then e else b) (2700, 0)

/-- Rounds down to the 25 MHz grid. -/
def grid25 (mhz : Nat) : Nat := mhz / 25 * 25

/-- Whether the data sides of the waystations carry messages: powered and past the restart of R38. -/
def planeUp (s : State) : Bool :=
  match s.rst.bringup with
  | some (_, n) => decide (9 ≤ n) && !s.rst.recovery
  | none => s.rst.dataPlaneOn

/-- Sends a THROTTLE for every cap value among the given dies, and traces the decisions (R34, R450). -/
def sendCaps (dies : List Nat) (s : State) : State :=
  let s1 := dies.foldl (fun st d => traceRec 4 (d + (wantCap s d).1 * 2 ^ 8 + (wantCap s d).2 * 2 ^ 24) st) s
  if !planeUp s then s1
  else
    let vals := dies.foldl (fun l d => insertNat (wantCap s d).1 l) []
    vals.foldl (fun st v =>
      let mask := (dies.filter fun d => (wantCap s d).1 == v).foldl (fun m d => m + 2 ^ d) 0
      postOrder st 0x21 (.throttle mask v)) s1

/-- Runs a change of caps and sends THROTTLE to the dies whose ordered cap changes (R450). -/
def withCaps (f : State → State) (s : State) : State :=
  let s1 := f s
  sendCaps ((List.range 8).filter fun d => (wantCap s1 d).1 != (wantCap s d).1) s1

/-- Sets one source's cap on every die, and sends what changes. -/
def capAll (src mhz : Nat) (s : State) : State :=
  withCaps (fun st => (List.range 8).foldl (fun x d => setCap d src mhz x) st) s

/-- The current THROTTLE and port orders, sent after a restart (R38, R452). -/
def sendCurrent (s : State) : State :=
  let s1 := sendCaps (List.range 8) s
  if s.ws.portMc = 0 || !planeUp s then s1 else postOrder s1 0x24 (.ports s.ws.portMc)

/-! ### The halt line -/

/-- The memory area of a logical cluster's snapshot (R507). -/
def snapAt (base c : Nat) : Nat := base + c * 0x20000

/-- The bytes of a cell in a snapshot. -/
def snapCell (c : Cell) : List Byte :=
  let q := ((List.range 32).map fun i => leBytes 8 (tget 0 c.q i).toNat).flatten
  let ent := fun (i : Nat) => bankEntry c (i / 32) (i % 32)
  let b := ((List.range 128).map fun i => leBytes 4 (ent i).s.toNat ++ leBytes 4 (ent i).e.toNat).flatten
  let p := (List.range 128).foldl (fun n i => n + if (ent i).poison then 2 ^ i else 0) 0
  padTo 1536 (q ++ b ++ leBytes 16 p ++ [BitVec.ofNat 8 c.active])

/-- The bytes of a core in a snapshot. -/
def snapCore (c : Core) : List Byte :=
  let g := ((List.range 32).map fun i => leBytes 8 (tget 0 c.g i).toNat).flatten
  let f := ((List.range 64).map fun i => leBytes 8 (tget 0 c.f i).toNat).flatten
  let flags := fun (n : Nat) (t : Tbl Bool) => (List.range n).foldl (fun k i => k + if tget false t i then 2 ^ i else 0) 0
  padTo 1024 (g ++ f ++ leBytes 8 c.pc.toNat ++ leBytes 4 (flags 32 c.gp) ++ leBytes 8 (flags 64 c.fp))

/-- The snapshot of a logical cluster; zeros when it is out of service. -/
def snapCluster (s : State) (c : Nat) : List Byte :=
  if (physOf s c).isNone then List.replicate 0x20000 0
  else
    let cells := ((List.range 80).map fun k => snapCell (getCell s (80 * c + k))).flatten
    let cores := ((List.range 4).map fun n => snapCore (getCore s (4 * c + n))).flatten
    padTo 0x20000 (cells ++ cores)

/-- A die writes its snapshot (R507). -/
def snapshotDie (base d : Nat) (s : State) : State :=
  (List.range 150).foldl (fun st i =>
    let c := 150 * d + i
    writeMem st (snapAt base c) (snapCluster s c)) s

/-- Bytes read as a reader sees them, from a sector boundary. -/
def readSectors (s : State) (a n : Nat) : List Byte := ((List.range (n / 32)).map fun i => (readSector s (a + 32 * i)).1).flatten

/-- A cell reloaded from its part of a snapshot; the active context is not reloaded. -/
def loadCell (m : List Byte) (c : Cell) : Cell :=
  let q := (List.range 32).foldl (fun (t : Tbl W64) i => tput 0 t i (BitVec.ofNat 64 (field m (8 * i) 8))) []
  let flags := field m 1280 16
  let b := (List.range 128).foldl (fun (t : Tbl Entry) i =>
    tput Entry.zero t i { s := BitVec.ofNat 32 (field m (256 + 8 * i) 4), e := BitVec.ofNat 32 (field m (260 + 8 * i) 4),
                          poison := flags.testBit i }) []
  { c with q := q, banks := b }

/-- A core reloaded from its part of a snapshot. -/
def loadCore (m : List Byte) (c : Core) : Core :=
  let words := fun (n off : Nat) =>
    (List.range n).foldl (fun (t : Tbl W64) i => tput 0 t i (BitVec.ofNat 64 (field m (off + 8 * i) 8))) []
  let flags := fun (n v : Nat) => (List.range n).foldl (fun (t : Tbl Bool) i => tput false t i (v.testBit i)) []
  { c with g := words 32 0, f := words 64 256, pc := BitVec.ofNat 64 (field m 768 8), gp := flags 32 (field m 776 4),
           fp := flags 64 (field m 780 8) }

/-- A die reloads its snapshot (R507); clusters out of service hold nothing to reload. -/
def restoreDie (base d : Nat) (s : State) : State :=
  (List.range 150).foldl (fun st i =>
    let c := 150 * d + i
    if (physOf s c).isNone then st
    else
      let m := readSectors s (snapAt base c) 0x20000
      let st0 := noteReads st (snapAt base c) 0x20000
      let st1 := (List.range 80).foldl (fun x k => modCell x (80 * c + k) (loadCell (slice m (1536 * k) 1536))) st0
      (List.range 4).foldl (fun x n => modCore x (4 * c + n) (loadCore (slice m (122880 + 1024 * n) 1024))) st1) s

/-- Dies of a mask. -/
def diesIn (m : BitVec 8) : List Nat := (List.range 8).filter fun d => m.getLsbD d

/-- HALT takes effect (R29, R30, R506, R507): the management copy of the line rises; a debug HALT is remembered for the dies
it stopped, and takes their snapshots. -/
def haltNow (dies : BitVec 8) (snap debug : Bool) (base : Nat) (s : State) : State :=
  let mark := if debug then s.ws.haltDebug ||| (dies &&& ~~~s.ws.haltMc) else s.ws.haltDebug &&& ~~~dies
  let s1 := { s with ws := { s.ws with haltMc := s.ws.haltMc ||| dies, haltDebug := mark }, db := { s.db with halted := mark } }
  if snap then
    let s2 := (diesIn dies).foldl (fun st d => snapshotDie base d st) s1
    { s2 with db := { s2.db with snapValid := s2.db.snapValid ||| dies } }
  else s1

/-- HALT_RELEASE takes effect (R32, R506, R507): a debug release frees only dies that a debug HALT halted. -/
def releaseNow (dies : BitVec 8) (restore debug : Bool) (base : Nat) (s : State) : State :=
  let m := if debug then dies &&& s.ws.haltDebug else dies &&& s.ws.haltMc
  let s1 := if restore then (diesIn m).foldl (fun st d => restoreDie base d st) s else s
  let mark := s1.ws.haltDebug &&& ~~~m
  { s1 with ws := { s1.ws with haltMc := s1.ws.haltMc &&& ~~~m, haltDebug := mark }, db := { s1.db with halted := mark } }

/-- Ports of a mask. -/
def portsIn (m : BitVec 10) : List Nat := (List.range 10).filter fun p => m.getLsbD p

/-- PORT_SHUTDOWN takes effect: the management copy of the ports' lines rises (R29, R35). -/
def shutNow (m : BitVec 10) (s : State) : State :=
  (portsIn m).foldl (fun st p => lineOn p st) { s with ws := { s.ws with portMc := s.ws.portMc ||| m } }

/-- PORT_RESTORE takes effect: it does not reopen a port that the safety monitor holds shut (R35). -/
def reopenNow (m : BitVec 10) (s : State) : State :=
  (portsIn (m &&& s.ws.portMc)).foldl (fun st p => lineOff p st) { s with ws := { s.ws with portMc := s.ws.portMc &&& ~~~m } }

/-- The source of a cap that a THROTTLE orders: the one whose cap it is, the power loop where it is no source's (CAP_SOURCE,
Table 14.12; log entry 1426). -/
def sourceOf (s : State) (d mhz : Nat) : Nat :=
  if 2700 ≤ mhz then 0 else ([1, 2, 3, 6, 7].find? fun k => capBy s d k == mhz).getD 1

/-- The dies of a THROTTLE take its cap (R34); a die above it moves down at once, upward moves follow R448. -/
def throttleNow (dies mhz : Nat) (s : State) : State :=
  ((List.range 8).filter fun d => dies.testBit d).foldl (fun st d =>
    let f := tget 0 st.pw.freq d
    let g := Nat.max 1200 (grid25 mhz)
    { st with pw := { st.pw with ordered := tput 0 st.pw.ordered d (if 2700 ≤ mhz then 0 else mhz),
                                 orderedBy := tput 0 st.pw.orderedBy d (sourceOf st d mhz),
                                 freq := if g < f then tput 0 st.pw.freq d g else st.pw.freq } }) s

/-- What an interlock order does where it arrives. -/
def orderNow (m : Msg) (s : State) : State :=
  match m.payload with
  | .throttle dies mhz => throttleNow dies mhz s
  | .halt dies flag debug base => if m.kind = 0x22 then haltNow dies flag debug base s else releaseNow dies flag debug base s
  | .ports mask => if m.kind = 0x24 then shutNow mask s else reopenNow mask s
  | _ => s

/-- The hub takes the order at the head of the interlock queue and acknowledges it (Table 4.8). -/
def takeOrder (s : State) : State :=
  match s.ws.inter with
  | [] => s
  | m :: _ =>
    let s1 := orderNow m (popInter s)
    postTele s1 0x15 0x10 (.orderAck m.seq m.kind)

/-- The row of an interlock order: it arrives when it stands at the head of the queue; otherwise the management controller
sends it, and it arrives at once where nothing stands before it.  An unpowered data side takes nothing (R36). -/
def orderRow (kind : Nat) (p : Payload) (s : State) : State :=
  if !planeUp s then s
  else
    match s.ws.inter with
    | [] => takeOrder (postOrder s kind p)
    | m :: _ =>
      if m.kind == kind && m.payload == p then takeOrder s
      else postOrder s kind p

/-- THROTTLE (R34). -/
def execThrottle (dies mhz : Nat) (s : State) : Out := .next (orderRow 0x21 (.throttle (dies % 256) mhz) s)

/-- HALT (R29, R30). -/
def execHalt (dies : BitVec 8) (snapshot debug : Bool) (base : Nat) (s : State) : Out :=
  .next (orderRow 0x22 (.halt dies snapshot debug base) s)

/-- HALT_RELEASE (R32). -/
def execHaltRelease (dies : BitVec 8) (restore debug : Bool) (base : Nat) (s : State) : Out :=
  .next (orderRow 0x23 (.halt dies restore debug base) s)

/-- PORT_SHUTDOWN (R29, R35). -/
def execPortShutdown (mask : BitVec 10) (s : State) : Out := .next (orderRow 0x24 (.ports mask) s)

/-- PORT_RESTORE (R35). -/
def execPortRestore (mask : BitVec 10) (s : State) : Out := .next (orderRow 0x25 (.ports mask) s)

/-! ### The end of a debug level (R501, R504, R509) -/

/-- Debug halts end without a restore, as a reset or the loss of the fabric ends them (Table 16.10). -/
def endDebugHalts (s : State) : State :=
  { s with ws := { s.ws with haltMc := s.ws.haltMc &&& ~~~s.ws.haltDebug, haltDebug := 0 },
           db := { s.db with halted := 0 } }

/-- DB registers at their reset values, but for the trace (R509). -/
def resetDb (s : State) : State :=
  { s with db := { Db.reset with trace := s.db.trace, traceHead := s.db.traceHead } }

/-- The level in force ends (R504): its record, the DB registers and the halts it kept. -/
def endLevel (s : State) : State :=
  if s.sc.level = 0 then endDebugHalts (resetDb s)
  else
    let old := s.sc.level
    let s1 := endDebugHalts (resetDb { s with sc := { s.sc with level := 0 } })
    bbEvent 0x000A [BitVec.ofNat 8 old, 0] s1

end Sys2Proof.Machine
end

