-- ==== Sys2Proof/Machine/BlackBox.lean ====
section
/-!
DEFINITION. The black box recorder: what the management controller takes from telemetry, window accounting, the burst a
window's close writes, record latches and notes (17; 04 R150; 01 R25, R26).
-/

namespace Sys2Proof.Machine

open Sys2Proof

/-! ### Telemetry as the management plane takes it

`BbWindow.totals` keeps, for the open window: 0-6 rises of the seven COUNTER_SNAPSHOT fields; 16 f + 16 + k rises of format
f's six totals (k 0-5), then k = 8 FLAGS, 9 RUN_SEQ, 10 LOG_BIN, 11 COALESCED; 4000 + 20 p + l worst grade plus 1, 4300 +
20 p + l highest FEC field; 4600 + p rise of UNCORR; 4620 + p highest fibre reading. From 10000 on it keeps the last values
received, which outlive the window: 10000 + 8 s + k, 20000 + 16 f + k, 30000 + p. -/

def totalOf (s : State) (k : Nat) : Nat := tget 0 s.bb.window.totals k

def setTotal (k v : Nat) (s : State) : State :=
  { s with bb := { s.bb with window := { s.bb.window with totals := tput 0 s.bb.window.totals k v } } }

/-- Adds to `acc` the rise of a cumulative count last seen at `prev`. -/
def addRise (acc prev new : Nat) (s : State) : State :=
  let old := totalOf s prev
  let rise := if old ≤ new then new - old else new
  setTotal acc (totalOf s acc + rise) (setTotal prev new s)

/-- Keeps the largest value. -/
def keepMax (k v : Nat) (s : State) : State := setTotal k (Nat.max (totalOf s k) v) s

/-- The last values are void after a reset of the data plane (Table 17.7). -/
def forgetTotals (s : State) : State :=
  { s with bb := { s.bb with window := { s.bb.window with totals := tfilter (fun k => decide (k < 10000)) s.bb.window.totals } } }

/-- Takes LANE_HEALTH for the port named at word `i` with its lanes from word `lo` on (Table 4.8). -/
def takeLanes4 (w : List Nat) (i lo un : Nat) (s : State) : State :=
  let p := lget 0xFF w i
  if 10 ≤ p then s
  else
    let s1 := (List.range 20).foldl (fun st l =>
      let b := lget 0xFF w (lo + l)
      if b = 0xFF then st
      else
        let g := b / 32
        let old := totalOf st (4000 + 20 * p + l)
        let st1 := if old = 0 || g + 1 < old then setTotal (4000 + 20 * p + l) (g + 1) st else st
        keepMax (4300 + 20 * p + l) (b % 32) st1) s
    addRise (4600 + p) (30000 + p) (lget 0 w un) s1

/-- Takes one telemetry message other than MGMT_REQUEST: the trace, the black box's totals, an acknowledgement (R26, R38). -/
def takeTele (m : Msg) (s : State) : State :=
  let s0 := traceRec 2 (m.kind + m.source * 2 ^ 8 + m.seq % 2 ^ 16 * 2 ^ 16) s
  match m.payload with
  | .counts w =>
    let f := lget 0 w 0
    match m.kind with
    | 0x11 => (List.range 7).foldl (fun st k => addRise k (10000 + 8 * m.source + k) (lget 0 w k) st) s0
    | 0x12 =>
      let bins := (List.range 64).foldl (fun n i => n + lget 0 w (3 + i) % 64 * 2 ^ (6 * i)) 0
      let b := 16 * f + 16
      let s1 := setTotal (b + 8) (totalOf s0 (b + 8) ||| lget 0 w 1) s0
      setTotal (b + 11) (totalOf s1 (b + 11) + m.coalesced) (setTotal (b + 10) bins (keepMax (b + 9) (lget 0 w 2) s1))
    | 0x13 =>
      let b := 16 * f + 16
      let s1 := (List.range 6).foldl (fun st k => addRise (b + k) (20000 + 16 * f + k) (lget 0 w (3 + k)) st) s0
      let s2 := setTotal (b + 8) (totalOf s1 (b + 8) ||| lget 0 w 1) s1
      setTotal (b + 11) (totalOf s2 (b + 11) + m.coalesced) (keepMax (b + 9) (lget 0 w 2) s2)
    | _ => takeLanes4 w 1 22 43 (takeLanes4 w 0 2 42 s0)
  | .orderAck seq _ =>
    let un := s0.ws.unacked.filter fun e => e.1.seq != seq
    let waits := un.any (fun e => e.1.kind == 0x21 || e.1.kind == 0x24) || s0.ws.waitInter.any fun e => e.1 == 0x21 || e.1 == 0x24
    { s0 with ws := { s0.ws with unacked := un, startHeld := s0.ws.startHeld && waits } }
  | .fault ws _ _ _ => if ws = 2 then { s0 with bb := { s0.bb with telemetryGaps := s0.bb.telemetryGaps + 1 } } else s0
  | _ => s0

/-- Whether the head of the telemetry queue is of a kind. -/
def teleHead (s : State) (kind : Nat) : Option Msg :=
  match s.ws.tele with
  | [] => none
  | m :: _ => if m.kind = kind then some m else none

/-- The row of a telemetry kind: the running controller takes the message at the head of the queue. -/
def teleRow (kind : Nat) (s : State) : State :=
  match teleHead s kind with
  | some m => if mcRuns s then takeTele m (popTele s) else s
  | none => s

/-- COUNTER_SNAPSHOT (R150). -/
def execCounterSnapshot (s : State) : Out := .next (teleRow 0x11 s)

/-- EXP_HISTOGRAM (R150). -/
def execExpHistogram (s : State) : Out := .next (teleRow 0x12 s)

/-- SAT_VANISH (R150). -/
def execSatVanish (s : State) : Out := .next (teleRow 0x13 s)

/-- LANE_HEALTH (R150). -/
def execLaneHealth (s : State) : Out := .next (teleRow 0x14 s)

/-- ORDER_ACK (R26). -/
def execOrderAck (s : State) : Out := .next (teleRow 0x15 s)

/-! ### Windows -/

/-- A signed number in `n` bytes. -/
def intBytes (n : Nat) (v : Int) : List Byte := leBytes n (v % 2 ^ (8 * n)).toNat

/-- Whole degrees of a reading in 1/16 °C. -/
def wholeC (v : Int) : Int := v / 16

/-- The counts whose rise Table 17.6 records. -/
def windowCounts (s : State) : List Nat :=
  let pw := fun (k : Nat) => (tget 0 s.pw.counts k).toNat
  let sf := fun (k : Nat) => (tget 0 s.sf.counts k).toNat
  [pw 1, pw 3, pw 4, pw 8, pw 5, s.bb.telemetryGaps, sf 4 + sf 5, s.bb.latchFaults]

/-- Ports whose lamp is not off. -/
def lampsOn (s : State) : BitVec 10 :=
  (List.range 10).foldl (fun (m : BitVec 10) p =>
    if (getPort s p).lamp == .off then m else m ||| BitVec.ofNat 10 (2 ^ p)) 0

/-- Opens the next window (R517). -/
def openWindow (rest : List (Nat × List Byte)) (s : State) : State :=
  let base := ((List.range 8).zip (windowCounts s)).foldl (fun (t : Tbl Nat) e => tput 0 t e.1 e.2) []
  let w : BbWindow := { BbWindow.empty with
    base := base, guardAtOpen := s.pw.guard, lampSeen := lampsOn s, events := rest,
    totals := tfilter (fun k => decide (10000 ≤ k)) s.bb.window.totals }
  let s1 := (List.range 10).foldl (fun st p =>
    modPort st p fun v => { v with presses := 0, touches := 0, pilotLosses := 0, lampChanges := 0 }) s
  { s1 with bb := { s1.bb with window := w } }

/-- The larger of two readings. -/
def maxInt (a b : Int) : Int := if a ≤ b then b else a

/-- Counts one period into the open window (R453 step 7, Table 17.6). -/
def accountPeriod (r : Readings) (s : State) : State :=
  let w := s.bb.window
  let first := decide (w.len = 0)
  let sen := fun (i : Nat) => lget (0 : Int) r.sensors i
  let up := fun (old new : Int) => if first then new else maxInt old new
  let dram := (List.range 32).foldl (fun m i => maxInt m (sen (160 + i))) (sen 160)
  let hot := (List.range 8).foldl (fun m d => maxInt m (tget 0 s.pw.hot d)) (tget 0 s.pw.hot 0)
  let hc := wholeC hot
  let hbin := if hc < 45 then 0 else Nat.min 15 ((hc.toNat - 40) / 5)
  let low := (List.range 8).foldl (fun m d => Nat.min m (capOf s d).1) 2700
  let w1 := { w with
    len := w.len + 1, powMin := if first then r.meanW else Nat.min w.powMin r.meanW, powSum := w.powSum + r.meanW,
    powPeak := Nat.max w.powPeak r.peakW,
    hot := (List.range 8).foldl (fun (t : Tbl Int) d => tput 0 t d (up (tget 0 t d) (wholeC (tget 0 s.pw.hot d)))) w.hot,
    fMin := (List.range 8).foldl (fun (t : Tbl Nat) d =>
      let f := tget 0 s.pw.freq d
      tput 0 t d (if first then f else Nat.min (tget 0 t d) f)) w.fMin,
    fSum := (List.range 8).foldl (fun (t : Tbl Nat) d => tadd t d (tget 0 s.pw.freq d)) w.fSum,
    inletMax := up w.inletMax (sen 212), outletMax := up w.outletMax (sen 213),
    flowMin := if first then sen 214 else if sen 214 < w.flowMin then sen 214 else w.flowMin,
    dramHot := up w.dramHot (wholeC dram),
    inState := tadd w.inState s.pw.state.code 1, powHist := tadd w.powHist (Nat.min 15 (r.meanW / 150)) 1,
    hotHist := tadd w.hotHist hbin 1, guardPeriods := w.guardPeriods + b2n s.pw.guard,
    guardMinCap := if !s.pw.guard then w.guardMinCap
                   else if w.guardPeriods = 0 then low else Nat.min w.guardMinCap low }
  { s with bb := { s.bb with window := w1 } }

/-- Body of the window summary (Table 17.6). -/
def windowBody (s : State) : List Byte :=
  let w := s.bb.window
  let dies := fun (f : Nat → List Byte) => ((List.range 8).map f).flatten
  let rises := ((List.range 8).zip (windowCounts s)).map fun e => leBytes 4 (e.2 - tget 0 w.base e.1)
  let words := fun (n : Nat) (t : Tbl Nat) => ((List.range n).map fun i => leBytes 2 (tget 0 t i)).flatten
  leBytes 2 w.powMin ++ leBytes 2 (w.powSum / w.len) ++ leBytes 2 w.powPeak ++ [0, 0] ++
    dies (fun d => intBytes 1 (tget 0 w.hot d)) ++ dies (fun d => leBytes 2 (tget 0 w.fMin d)) ++
    dies (fun d => leBytes 2 (tget 0 w.fSum d / w.len)) ++ intBytes 2 w.inletMax ++ intBytes 2 w.outletMax ++
    intBytes 2 w.flowMin ++ intBytes 1 w.dramHot ++ [0] ++ words 4 w.inState ++ rises.flatten ++ leBytes 2 w.guardPeriods ++
    leBytes 2 w.guardMinCap ++ leBytes 2 w.guardMoves ++ [BitVec.ofNat 8 (b2n w.guardAtOpen + 2 * b2n s.pw.guard), 0] ++
    ((List.range 7).map fun k => leBytes 8 (tget 0 w.totals k)).flatten ++ [0, 0, 0, 0, 0, 0, 0, 0, 0, 0, 0, 0] ++
    words 16 w.powHist ++ words 16 w.hotHist

/-- Body of a phase numerics record (Table 17.7). -/
def phaseBody (s : State) (f : Nat) : List Byte :=
  let t := fun (k : Nat) => totalOf s (16 * f + 16 + k)
  [BitVec.ofNat 8 f, BitVec.ofNat 8 (t 8)] ++ leBytes 6 (t 9) ++ ((List.range 6).map fun k => leBytes 8 (t k)).flatten ++
    leBytes 48 (t 10) ++ leBytes 4 (t 11)

/-- The row of Table 15.7 that a lamp shows, counted from 0. -/
def Lamp.row : Lamp → Nat
  | .off => 0
  | .greenFlashing => 1
  | .greenSteady => 2
  | .amberFlashing => 3
  | .amberSteady => 4
  | .refused => 5
  | .alternating => 6

/-- Body of a link summary record (Table 17.8). -/
def linkBody (s : State) (p : Nat) : List Byte :=
  let v := getPort s p
  let t := totalOf s
  let grades := (List.range 20).map fun l =>
    let g := t (4000 + 20 * p + l)
    BitVec.ofNat 8 (if g = 0 then 0xFF else g - 1)
  [BitVec.ofNat 8 p, BitVec.ofNat 8 v.lamp.row] ++ leBytes 2 v.lampChanges ++ grades ++
    ((List.range 20).map fun l => BitVec.ofNat 8 (t (4300 + 20 * p + l))) ++ leBytes 4 (t (4600 + p)) ++
    leBytes 2 v.presses ++ leBytes 2 v.touches ++ leBytes 2 v.pilotLosses ++ leBytes 2 (Nat.min 0xFFFF (t (4620 + p))) ++
    leBytes 4 (tget 0 s.pw.laser p).toNat

/-- Whether a format's cumulative totals rose in the window. -/
def fmtRose (s : State) (f : Nat) : Bool := (List.range 6).any fun k => totalOf s (16 * f + 16 + k) != 0

/-- Closes the window with a cause: the burst of R518, at most 32 records; events beyond them wait for the next. -/
def closeWindow (cause : Nat) (s : State) : State :=
  let w := s.bb.window
  let fmts := (List.range 16).filter fun f => fmtRose s f
  let ports := (List.range 10).filter fun p => w.lampSeen.getLsbD p
  let s1 := fmts.foldl (fun st f => bbCommit 2 0 w.len (phaseBody s f) st) s
  let s2 := ports.foldl (fun st p => bbCommit 3 0 w.len (linkBody s p) st) s1
  let s3 := bbCommit 1 cause w.len (windowBody s) s2
  let room := 31 - fmts.length - ports.length
  let s4 := (w.events.take room).foldl (fun st e => bbCommit 5 e.1 w.len e.2 st) s3
  let s5 := if w.len < 1024 then { s4 with bb := { s4.bb with counts := taddW s4.bb.counts 2 1 } } else s4
  openWindow (w.events.drop room) s5

/-- The lowest closing code among the events taken (R517); 0 when none. -/
def closingCode (s : State) : Nat :=
  s.bb.window.events.foldl (fun n e => if bbCloses e.1 && (n == 0 || decide (e.1 < n)) then e.1 else n) 0

/-- WINDOW_CLOSE (R517, R518). -/
def execWindowClose (s : State) : Out :=
  .next (whenTaken (mcRuns s && (decide (1024 ≤ s.bb.window.len) || closingCode s != 0))
    (fun st => closeWindow (closingCode st) st) s)

/-! ### Reading and notes -/

/-- Records in the first area (Table 17.12). -/
def firstFill (s : State) : Nat := Nat.min 16384 s.bb.committed

/-- Latches a record into a port's buffer (R521, Table 17.14). -/
def bbLatch (port seq : Nat) (s : State) : State :=
  let rec_ := tget [] s.bb.slots (bbSlot seq)
  let have_ := field rec_ 0 8
  let notYet := seq == 0 || decide (s.bb.committed < seq)
  let mine := !notYet && have_ == seq
  let good := mine && recordGood rec_
  let st := 1 + (if good then 2 else 0) + (if mine && !good then 4 else 0) +
    (if !notYet && decide (seq < have_) then 8 else 0) + (if notYet then 16 else 0)
  let l : BbLatch := { sel := BitVec.ofNat 64 seq, state := BitVec.ofNat 32 st, image := if good then rec_ else [] }
  { s with bb := if port = 0 then { s.bb with latchA := l } else { s.bb with latchB := l } }

/-- BB_REC_SEL (R521, R523): served by the controller; without one the write is dropped (R430). -/
def execBbRecSel (port seq : Nat) (s : State) : Out :=
  guardUnit (decide (port < 2)) (whenTaken (mcRuns s && s.pw.state != .p4) (bbLatch port (seq % 2 ^ 64)) s)

/-- BB_NOTE_GO (R520). -/
def execBbNoteGo (note : List Byte) (s : State) : Out := .next (whenTaken (s.pw.state != .p4) (noteGo (padTo 256 note)) s)

/-- The controller commits the notes that wait (R520). -/
def drainNotes (s : State) : State :=
  s.bb.notes.foldl (fun st n => commitNote n st) { s with bb := { s.bb with notes := [] } }

end Sys2Proof.Machine
end

