-- ==== Sys2Proof/Machine/Net.lean ====
section
/-!
DEFINITION. Packets: routing, virtual channels and credits, the pair state of end-to-end delivery, and the rows that need
no engine (10 R310 to R327, R552).
-/

namespace Sys2Proof.Machine

open Sys2Proof

/-! ### The packet's bits (R310, R311) -/

/-- OPERAND, by TYPE (Tables 10.6, 11.3). -/
def pktOperand (k : Packet) : Nat :=
  if k.typ = 1 || k.typ = 2 then k.sub % 16 + k.stage % 16 * 2 ^ 4 + k.offset % 2 ^ 24 * 2 ^ 8 + k.check.toNat * 2 ^ 32
  else if k.typ = 5 then k.offset % 2 ^ 16
  else 0

/-- The 32 header bytes (Table 10.5), with the CRC field given. -/
def pktHeader (k : Packet) (crc : W32) : List Byte :=
  leBytes 32 (packed [(16, k.dest), (16, k.src), (4, k.typ), (2, k.epoch), (1, b2n k.cmark), (2, k.layer), (1, b2n k.dateline),
    (1, b2n k.echo), (1, 0), (20, k.caravan), (24, k.seq), (12, k.payload.length), (4, 0), (24, k.ackSeq), (64, pktOperand k),
    (24, k.endUnit), (8, 0), (32, crc.toNat)])

/-- The CRC-32C of a packet: CMARK, LAYER, DATELINE and CRC read as zero (R311). -/
def pktCrc (k : Packet) : W32 :=
  crc32c (pktHeader { k with cmark := false, layer := 0, dateline := false } 0 ++ k.payload)

/-- Whether a packet passes its CRC. -/
def crcHolds (k : Packet) : Bool := k.crc == pktCrc k

/-- The flits of a packet: header and payload, padded with zeros (R310). -/
def pktBytes (k : Packet) : List Byte :=
  padTo ((32 + k.payload.length + 255) / 256 * 256) (pktHeader k k.crc ++ k.payload)

/-- What each physical lane carries of a sent packet: bytes 16k to 16k + 15 of every flit on logical lane k, or every flit on the
one lane of a narrow port (R295, R305). -/
def laneTraffic (e : Nat × Packet × Bool × List Nat) : List (Nat × List Byte) :=
  let b := pktBytes e.2.1
  match e.2.2.2 with
  | [l] => [(l, b)]
  | ls => ((List.range ls.length).zip ls).map fun x =>
      (x.2, ((List.range (b.length / 256)).map fun f => slice b (256 * f + 16 * x.1) 16).flatten)

/-- Flits of a packet (R310). -/
def pktFlits (k : Packet) : Nat := (32 + k.payload.length + 255) / 256

/-- Whether a packet is of the data class (Table 10.6). -/
def pktData (k : Packet) : Bool := k.typ == 1 || k.typ == 2

/-- Whether a packet's TYPE is reserved (Table 10.6). -/
def pktReserved (k : Packet) : Bool := !(decide (1 ≤ k.typ) && decide (k.typ ≤ 5))

/-- The virtual channel of a packet (R313). -/
def pktVc (k : Packet) : Nat :=
  let lvl := match k.layer with
    | 0 => b2n k.dateline
    | 1 => 2
    | _ => 3 + b2n k.dateline
  k.epoch % 2 * 10 + (if pktData k then 0 else 5) + lvl

/-- Counts into LK_DROP[k]. -/
def countDrop (k : Nat) (s : State) : State := { s with lk := { s.lk with drops := taddW s.lk.drops k 1 } }

/-- Whether a rank is fenced here (R327). -/
def isFenced (s : State) (rank : Nat) : Bool := tget false s.lk.fences rank

/-! ### Egress and credits (R314, R325) -/

/-- Flits that may still be sent on a VC: the rest of its reserve and of the shared pool. -/
def creditsFor (used : Tbl Nat) (vc : Nat) : Nat :=
  let shared := ((List.range 20).map fun v => tget 0 used v - 9).foldl (· + ·) 0
  (9 - tget 0 used vc) + (844 - shared)

/-- Sends what credits allow, in order within each VC: queue, VCs that wait, credits used, sent. -/
def sendable : List Queued → List Nat → Tbl Nat → List Queued × Tbl Nat × List Queued
  | [], _, used => ([], used, [])
  | q :: r, stuck, used =>
    if !stuck.contains q.vc && decide (pktFlits q.pkt ≤ creditsFor used q.vc) then
      let t := sendable r stuck (tadd used q.vc (pktFlits q.pkt))
      (t.1, t.2.1, q :: t.2.2)
    else
      let t := sendable r (q.vc :: stuck) used
      (q :: t.1, t.2.1, t.2.2)

/-- The physical lanes that carry a port's flits: its logical lanes in order, or logical lane 0 alone (R295, R305). -/
def Port.wireLanes (v : Port) : List Nat :=
  let l := if v.txLanes.isEmpty then List.range 16 else v.txLanes
  if v.narrow then l.take 1 else l

/-- Sends the packets of a port's egress queue that hold their credits. -/
def sendEgress (p : Nat) (s : State) : State :=
  let v := getPort s p
  let t := sendable v.egress [] v.used
  let n := (t.2.2.map fun q => pktFlits q.pkt).foldl (· + ·) 0
  let s1 := setPort s p { v with egress := t.1, used := t.2.1, cnt := taddW v.cnt 0 n }
  { s1 with env := { s1.env with wire := s1.env.wire ++ t.2.2.map fun q => (p, q.pkt, q.bad, v.wireLanes) } }

/-- Occupancy of an egress queue in flits. -/
def Port.occupancy (v : Port) : Nat := (v.egress.map fun q => pktFlits q.pkt).foldl (· + ·) 0

/-- Places a packet in an egress queue, marking it under congestion (R325). -/
def enqueue (p : Nat) (k : Packet) (bad : Bool) (s : State) : State :=
  let v := getPort s p
  let mark := pktData k && v.cfg.getLsbD 12 && decide (bitsOf v.cfg.toNat 11 0 < v.occupancy)
  let k' := if mark then { k with cmark := true } else k
  let s1 := setPort s p { v with egress := v.egress ++ [⟨pktVc k', k', bad⟩],
                                 cnt := if mark then taddW v.cnt 5 1 else v.cnt }
  sendEgress p s1

/-! ### Routing (R315 to R319) -/

/-- The direction of dimension order from here (R315); none at the destination. -/
def orderDir (s : State) (dest : Nat) : Option Nat :=
  match (List.range 4).find? fun i => coordOf (ownRank s) i != coordOf dest i with
  | none => none
  | some i =>
    let n := dimSize s i
    let plus := (coordOf dest i + n - coordOf (ownRank s) i) % n
    some (if plus ≤ n - plus then 2 * i else 2 * i + 1)

/-- The bank that routes packets of an epoch here; none for a stale epoch (R319). -/
def routeBank (s : State) (e : Nat) : Option W64 :=
  let cur := s.lk.epoch
  let other := bankOf s (cur + 1)
  if e = cur then some (bankOf s cur)
  else if e = (cur + 3) % 4 && s.lk.prevLive then some other
  else if e = (cur + 1) % 4 && other.getLsbD 0 && bits64 other 2 1 == e then some other
  else none

/-- The port that takes packets in a direction under a bank: none when the direction is down (R317). -/
def openDir (s : State) (bank : W64) (d : Nat) : Option Nat := if bank.getLsbD (8 + d) then none else upPort s d

/-- The DATELINE of a hop (R316): `prev` is the previous hop's dimension. -/
def hopDateline (s : State) (prev : Option Nat) (d : Nat) (was : Bool) : Bool :=
  let c := coordOf (ownRank s) (d / 2)
  let wrap := if d % 2 = 0 then c + 1 == dimSize s (d / 2) else c == 0
  wrap || (was && prev == some (d / 2))

/-- The next hop of a packet not at its destination: the port and the packet as it leaves (R315 to R317). -/
def nextHop (s : State) (bank : W64) (prev : Option Nat) (k : Packet) : Option (Nat × Packet) :=
  match orderDir s k.dest with
  | none => none
  | some d =>
    match openDir s bank d with
    | some p => some (p, { k with dateline := hopDateline s prev d k.dateline })
    | none =>
      let t := detourOf bank d
      if k.layer != 0 || t == 0xF then none
      else
        match openDir s bank t with
        | some p => some (p, { k with layer := 1, dateline := hopDateline s prev t k.dateline })
        | none => none

/-- A packet delivered to this module's network interface; a reserved TYPE is dropped and counted (Table 10.6). -/
def deliverHere (k : Packet) (bad : Bool) (s : State) : State :=
  if pktReserved k then countDrop 7 s
  else countAct (k.src % 8) 6 (32 + k.payload.length) { s with lk := { s.lk with rxq := s.lk.rxq ++ [(k, bad)] } }

/-- Whether the staging buffer of a packet's egress VC has space for it (R318). -/
def stagingRoom (s : State) (p : Nat) (k : Packet) : Bool :=
  let n := ((getPort s p).egress.map fun q => if q.vc = pktVc k then pktFlits q.pkt else 0).foldl (· + ·) 0 + pktFlits k
  decide (n ≤ 9) || decide (n ≤ 9 + Config.stagingFlits)

/-- Input buffer space is free again: its credits return to the far end (R314). -/
def returnCredits (p vc flits : Nat) (s : State) : State :=
  if p < 10 then { s with env := { s.env with credits := s.env.credits ++ [(p, vc, flits)] } } else s

/-- A packet crosses the module under its epoch's bank: delivered, dropped, or placed in its egress queue; none while the staging
buffer of its egress VC has no space for it (R315 to R319). -/
def tryCross (x : Crossing) (s : State) : Option State :=
  let left := fun (st : State) => some (returnCredits x.ingress x.vc (pktFlits x.pkt) st)
  if x.pkt.dest = ownRank s then left (deliverHere x.pkt x.bad s)
  else
    match routeBank s x.pkt.epoch with
    | none => left (countDrop 0 s)
    | some bank =>
      match nextHop s bank x.prev x.pkt with
      | none => left (countDrop 1 s)
      | some (p, k) => if stagingRoom s p k then left (enqueue p k x.bad s) else none

/-- A packet crosses, or waits at its ingress behind those of its VC (R314, R318). -/
def cross (x : Crossing) (s : State) : State :=
  let wait := { s with lk := { s.lk with crossing := s.lk.crossing ++ [x] } }
  if s.lk.crossing.any fun y => y.ingress == x.ingress && y.vc == x.vc then wait
  else
    match tryCross x s with
    | some t => t
    | none => wait

/-- Every packet that waits tries again, oldest first. -/
def crossAll (s : State) : State :=
  s.lk.crossing.foldl (fun st x => cross x st) { s with lk := { s.lk with crossing := [] } }

/-- A packet of this module enters the network under the current epoch, its CRC formed (R311, R318, R319). -/
def launch (k : Packet) (s : State) : State :=
  let k0 := { k with src := ownRank s, epoch := s.lk.epoch, layer := 0, dateline := false, cmark := false }
  let k' := { k0 with crc := pktCrc k0 }
  if !inTorus s k.dest then countDrop 1 s
  else cross ⟨10, pktVc k', none, k', false⟩ (countAct (k.dest % 8) 5 (32 + k.payload.length) s)

/-- A packet with every field zero. -/
def blankPacket : Packet :=
  { dest := 0, src := 0, typ := 0, epoch := 0, cmark := false, layer := 0, dateline := false, echo := false, caravan := 0,
    seq := 0, ackSeq := 0, sub := 0, stage := 0, offset := 0, check := 0, endUnit := 0, payload := [],
    poison := [], crc := 0, more := 0 }

/-- Sends a control packet (Table 10.6); one to a fenced rank is not injected (R327). -/
def sendControl (typ dest seq ackSeq : Nat) (echo : Bool) (off : Nat) (s : State) : State :=
  if isFenced s dest then s
  else launch { blankPacket with dest := dest, typ := typ, seq := seq, ackSeq := ackSeq, echo := echo, offset := off } s

/-! ### Pair state (R321 to R326) -/

/-- Fields of LK_E2E_CFG (Table 10.17). -/
def cfgWinit (s : State) : Nat := bits64 s.lk.e2e 9 0
def cfgWmin (s : State) : Nat := bits64 s.lk.e2e 19 10
def cfgWmax (s : State) : Nat := bits64 s.lk.e2e 29 20
def cfgAi (s : State) : Nat := bits64 s.lk.e2e 33 30
def cfgMdShift (s : State) : Nat := bits64 s.lk.e2e 35 34
def cfgAckCoalesce (s : State) : Nat := bits64 s.lk.e2e 53 50

/-- A pair that has carried nothing (R321, R329). -/
def Peer.fresh : Peer :=
  { started := false, nextSeq := 0, w := 0, c := 0, r := 0, held := [], waiting := [], peerErr := false, rxNext := 0,
    rxSeen := [], unacked := 0, echo := false, lastSeq := 0 }

def getPeer (s : State) (rank : Nat) : Peer := tget Peer.fresh s.lk.peers rank
def setPeer (s : State) (rank : Nat) (v : Peer) : State :=
  { s with lk := { s.lk with peers := tput Peer.fresh s.lk.peers rank v } }
def modPeer (s : State) (rank : Nat) (f : Peer → Peer) : State := setPeer s rank (f (getPeer s rank))

/-- W toward a rank: WINIT where no packet or UNFENCE_PEER has started the pair (R326, R329). -/
def windowOf (s : State) (v : Peer) : Nat := if v.started then v.w else cfgWinit s

/-- Whether SEQ a is later than b (R321). -/
def seqLater (a b : Nat) : Bool :=
  let d := (a + 2 ^ 24 - b % 2 ^ 24) % 2 ^ 24
  decide (1 ≤ d) && decide (d < 2 ^ 23)

/-- Injects a data packet: numbered, held, and launched (R321, R326). -/
def injectData (k : Packet) (s : State) : State :=
  let v := getPeer s k.dest
  let k' := { k with seq := v.nextSeq, src := ownRank s, epoch := s.lk.epoch }
  let v1 := if v.started then v else { v with started := true, w := cfgWinit s, c := 0, r := v.nextSeq }
  let s1 := setPeer s k.dest { v1 with nextSeq := (v.nextSeq + 1) % 2 ^ 24, held := v1.held ++ [⟨k', 0⟩] }
  launch k' s1

/-- The additive increase of R326, one step at a time with fuel for the steps. -/
def growWindow : Nat → Nat → Nat → Nat → Nat × Nat
  | 0, _, w, c => (w, c)
  | n + 1, wmax, w, c => if w ≤ c && w < wmax then growWindow n wmax (w + 1) (c - w) else (w, c)

/-- The window's response to an ACK or NACK that releases `k` packets (R326). -/
def adjustWindow (s : State) (v : Peer) (k : Nat) (echo : Bool) (ackSeq : Nat) : Peer :=
  if echo then
    if seqLater v.r ackSeq then v
    else { v with w := Nat.max (cfgWmin s) (v.w - v.w >>> cfgMdShift s), c := 0, r := v.nextSeq }
  else
    let t := growWindow 512 (cfgWmax s) v.w (v.c + k * cfgAi s)
    { v with w := t.1, c := if t.1 = cfgWmax s then 0 else t.2 }

/-- Halves the window at a timeout (R326). -/
def halveWindow (s : State) (v : Peer) : Peer := { v with w := Nat.max (cfgWmin s) (v.w / 2) }

/-- Resends a held packet under the current epoch, counting it (R320, R324). -/
def resendHeld (dest seq : Nat) (s : State) : State :=
  let v := getPeer s dest
  match v.held.find? fun h => h.pkt.seq == seq with
  | none => s
  | some h =>
    let k := { h.pkt with epoch := s.lk.epoch }
    let l := v.held.map fun x => if x.pkt.seq = seq then ⟨k, x.resends + 1⟩ else x
    launch k (countDrop 6 (setPeer s dest { v with held := l }))

/-- Sends the ACK for a source: SEQ names a packet, ACK_SEQ the next expected (R323). -/
def sendAck (src seq : Nat) (s : State) : State :=
  let v := getPeer s src
  sendControl 3 src seq v.rxNext v.echo 0 (setPeer s src { v with unacked := 0, echo := false })

/-- The next expected SEQ passes over those already received. -/
def advanceRx : Nat → Nat → List Nat → Nat × List Nat
  | 0, n, seen => (n, seen)
  | k + 1, n, seen => if seen.contains n then advanceRx k ((n + 1) % 2 ^ 24) (seen.filter fun x => x != n) else (n, seen)

/-- A data packet that passes its checks and has not been received: delivered once and recorded (R322, R323). -/
def acceptData (k : Packet) (s : State) : State :=
  let v := getPeer s k.src
  let gap := k.seq != v.rxNext
  let a := advanceRx 513 v.rxNext (k.seq :: v.rxSeen)
  let v1 := { v with rxNext := a.1, rxSeen := a.2, unacked := v.unacked + 1, echo := v.echo || k.cmark, lastSeq := k.seq }
  let s1 := setPeer { s with lk := { s.lk with engq := s.lk.engq ++ [k] } } k.src v1
  if gap || cfgAckCoalesce s ≤ v1.unacked then sendAck k.src k.seq s1 else s1

/-- A data packet at its destination (R322). -/
def receiveData (k : Packet) (bad : Bool) (s : State) : State :=
  let v := getPeer s k.src
  if bad || !crcHolds k then sendControl 4 k.src k.seq v.rxNext v.echo 0 (countDrop 4 s)
  else
    let d := (k.seq + 2 ^ 24 - v.rxNext) % 2 ^ 24
    if d ≤ 511 && !v.rxSeen.contains k.seq then acceptData k s
    else if d ≤ 511 || 2 ^ 23 ≤ d then sendAck k.src k.seq (countDrop 5 s)
    else countDrop 8 s

/-- Takes the head of the network interfaces' delivery queue. -/
def popRx (s : State) : State := { s with lk := { s.lk with rxq := s.lk.rxq.drop 1 } }

/-- The packet at the head of the delivery queue, when it has a TYPE. -/
def rxHead (s : State) (data : Bool) (typ : Nat) : Option (Packet × Bool) :=
  match s.lk.rxq with
  | [] => none
  | h :: _ => if (if data then pktData h.1 else h.1.typ == typ) then some h else none

/-- Epochs' packets in this module and injected unacknowledged (LK_INFLIGHT, Table 10.9). -/
def inflightHeld (s : State) (e : Nat) : Nat :=
  (s.lk.ports.map fun v => (v.egress.filter fun q => q.pkt.epoch == e).length).foldl (· + ·) 0 +
    (s.lk.rxq.filter fun x => x.1.epoch == e).length + (s.lk.crossing.filter fun x => x.pkt.epoch == e).length
def inflightOut (s : State) (e : Nat) : Nat :=
  (s.lk.peers.map fun x => (x.2.held.filter fun h => h.pkt.epoch == e).length).foldl (· + ·) 0

/-- Declares a peer error (R324, Table 10.19). -/
def logPeerError (rank : Nat) (s : State) : State :=
  let v := s.lk.peerErrLog
  let n := Nat.min (2 ^ 32 - 1) (bits64 v 63 32 + 1)
  let low := if v.getLsbD 16 then bits64 v 16 0 else rank % 65536 + 65536
  postEvent 0x8005 [BitVec.ofNat 64 rank] { s with lk := { s.lk with peerErrLog := BitVec.ofNat 64 (low + n * 2 ^ 32) } }

/-! ### Rows -/

/-- CREDIT_RETURN (R314). -/
def execCreditReturn (p vc flits : Nat) (s : State) : Out :=
  guardUnit (decide (p < 10)) <|
    let s1 := modPort s p fun v => { v with used := tput 0 v.used vc (tget 0 v.used vc - flits) }
    crossAll (sendEgress p s1)

/-- PACKET_ROUTE (R311 to R319, R325, R327, R552). -/
def execPacketRoute (p : Nat) (k : Packet) (badHeader badFlit : Bool) (s : State) : Out :=
  guardUnit (decide (p < 10)) <|
    let v := getPort s p
    whenTaken (v.state == .active || v.state == .drain) (fun st =>
      let s1 := countPort p 1 (pktFlits k) st
      let gone := returnCredits p (pktVc k) (pktFlits k)
      if badHeader then gone (countPort p 4 1 s1)
      else if isFenced s1 k.src then gone (countDrop 3 s1)
      else if !inTorus s1 k.dest then gone (countDrop 1 s1)
      else if (routeBank s1 k.epoch).isNone then gone (countDrop 0 s1)
      else if isFenced s1 k.dest && k.dest != ownRank s1 then
        let s2 := gone (countDrop 2 s1)
        if pktData k then sendControl 5 k.src k.seq 0 false k.dest s2 else s2
      else
        let k' := if k.layer = 1 then { k with layer := 2 } else k
        cross ⟨p, pktVc k, some (v.dir / 2), k', badFlit⟩ s1) s

/-- DATA_PACKET_RECEIVE (R312, R322, R323). -/
def execDataPacketReceive (s : State) : Out :=
  .next <|
    match rxHead s true 0 with
    | some (k, bad) => receiveData k bad (popRx s)
    | none => s

/-- ACK_TIMER (R323). -/
def execAckTimer (src : Nat) (s : State) : Out :=
  .next (whenTaken (decide (0 < (getPeer s src).unacked)) (fun st => sendAck src (getPeer st src).lastSeq st) s)

/-- EPOCH_RETIRE (R320, step 5 of Table 10.7). -/
def execEpochRetire (s : State) : Out :=
  .next <|
    whenTaken (s.lk.prevLive && inflightHeld s s.lk.prevEpoch == 0 && inflightOut s s.lk.prevEpoch == 0) (fun st =>
      let clear := fun (b : W64) => b &&& ~~~ 1
      let odd := st.lk.prevEpoch % 2 == 1
      let s1 := { st with lk := { st.lk with
        prevLive := false, epochWaiter := none,
        bank0 := if odd then st.lk.bank0 else clear st.lk.bank0,
        bank1 := if odd then clear st.lk.bank1 else st.lk.bank1 } }
      match st.lk.epochWaiter with
      | some h => postCompletion h 0 0 [] s1
      | none => s1) s

end Sys2Proof.Machine
end

