-- ==== Sys2Proof/Machine/CvBase.lean ====
section
/-!
DEFINITION. Caravans: descriptors and their checks, groups and the caravan tree, units and blocks, and staging
(11 R334 to R343, R346, R349, R351, R550).
-/

namespace Sys2Proof.Machine

open Sys2Proof

/-! ### Descriptors (R334 to R336) -/

/-- The descriptor's 56 bytes (Table 11.1). -/
def descBytes (d : CollDesc) : List Byte :=
  leBytes 1 d.kind ++ leBytes 1 d.mode ++ leBytes 1 d.flags ++ leBytes 1 d.param ++ leBytes 4 d.caravan ++
    leBytes 8 d.src ++ leBytes 8 d.dst ++ leBytes 8 d.group ++ leBytes 4 d.count ++ leBytes 4 d.members ++
    leBytes 2 d.root ++ leBytes 1 d.unitLog2 ++ [0] ++ leBytes 4 d.step ++ leBytes 8 d.aux

def isList (d : CollDesc) : Bool := d.flags.testBit 0
def inPair (d : CollDesc) : Bool := d.flags.testBit 1
def outPair (d : CollDesc) : Bool := d.flags.testBit 2

/-- Kinds 1 and 2. -/
def reducing (d : CollDesc) : Bool := d.kind == 1 || d.kind == 2
def isBsi (d : CollDesc) : Bool := reducing d && d.mode == 0
def isOrdered (d : CollDesc) : Bool := reducing d && (d.mode == 3 || d.mode == 4)

/-- Element bytes of an ORDERED caravan. -/
def cvElem (d : CollDesc) : Nat := if d.mode = 3 then 4 else 8

/-- Pair format of an ORDERED caravan. -/
def orderedFmt (d : CollDesc) : FpFmt := if d.mode = 3 then fp32 else fp64

/-- Bytes of a unit at SRC and at DST (Table 11.2). -/
def srcPitch (d : CollDesc) : Nat :=
  if isBsi d then 200
  else if isOrdered d then cvElem d * (if inPair d then 2 else 1)
  else if reducing d then 8
  else if d.kind = 5 then 2 ^ d.unitLog2
  else if d.kind = 6 then 8 else 32
def dstPitch (d : CollDesc) : Nat := if isOrdered d then cvElem d * (if outPair d then 2 else 1) else srcPitch d

/-- k of a TOPK_GATHER. -/
def topk (d : CollDesc) : Nat := d.param % 16 + 1

/-- Segment j of COUNT units over M members (R350). -/
def segStart (d : CollDesc) (m j : Nat) : Nat := j * d.count / m
def segSize (d : CollDesc) (m j : Nat) : Nat := segStart d m (j + 1) - segStart d m j

/-- The segment that holds a unit: the last that starts at or before it. -/
def segOf (d : CollDesc) (m u : Nat) : Nat := ((u + 1) * m - 1) / d.count

/-- Units written at DST by a member (Table 11.2). -/
def outUnits (d : CollDesc) (m me : Nat) : Nat :=
  if d.kind = 2 then segSize d m me
  else if d.kind = 3 then m * d.count
  else if d.kind = 6 then topk d else d.count

/-- Units a member contributes. -/
def inUnits (d : CollDesc) : Nat := if d.kind = 6 then topk d else d.count

/-- The members' ranks in member order (R334, R338); none when the list cannot be read (R336). -/
def groupRanks (s : State) (d : CollDesc) : Option (List Nat) :=
  if isList d then
    let n := 2 * d.members
    if d.members = 0 || 65536 < d.members || d.group % 2 == 1 || retainedBase < d.group + n then none
    else if (List.range (n / 32 + 2)).any fun i =>
        let a := d.group / 32 * 32 + 32 * i
        a < d.group + n && readFaults s a then none
    else some ((List.range d.members).map fun i => leNat (readBytes s (d.group + 2 * i) 2))
  else if d.members ≠ 0 || 2 ^ 32 ≤ d.group then none
  else
    let base := d.group % 65536
    let ext := fun i => bitsOf d.group (16 + 4 * i + 3) (16 + 4 * i) + 1
    let m := ext 0 * ext 1 * ext 2 * ext 3
    some ((List.range m).map fun k =>
      let o := [k % ext 0, k / ext 0 % ext 1, k / (ext 0 * ext 1) % ext 2, k / (ext 0 * ext 1 * ext 2)]
      ((List.range 4).map fun i => (coordOf base i + lget 0 o i) % dimSize s i * 16 ^ i).foldl (· + ·) 0)

/-- Whether a list holds no element twice. -/
def noRepeats : List Nat → Bool
  | [] => true
  | x :: r => !r.contains x && noRepeats r

/-- ⌈log2 n⌉ for n at least 1. -/
def ceilLog2 (n : Nat) : Nat := if n ≤ 1 then 0 else Nat.log2 (n - 1) + 1

/-- Whether a range starts at a multiple of `al` and lies wholly in job memory (R335). -/
def jobRange (a n al : Nat) : Bool := a % al == 0 && decide (a + n ≤ retainedBase)

/-- The fields' ranges (R336), beside group and addresses. -/
def descFieldsOk (d : CollDesc) (reshard : Bool) : Bool :=
  let pairs := d.flags.testBit 1 || d.flags.testBit 2
  let modeOk :=
    if reducing d then decide (d.mode ≤ 4)
    else if d.kind = 6 then decide (d.mode < 32) && decide (1 ≤ d.mode % 16) && decide (d.mode % 16 ≤ 7)
    else d.mode == 0
  let paramOk :=
    if isBsi d then decide (d.param ≤ 8)
    else if isOrdered d then decide (2 ≤ d.param) && decide (d.param ≤ 64)
    else if d.kind = 6 then decide (d.param < 16)
    else if d.kind = 5 then decide (1 ≤ d.param) && decide (d.param ≤ 64)
    else d.param == 0
  let auxOk := (isBsi d && d.param != 0) || d.kind == 5 || d.aux == 0
  !d.rsv && (d.kind == 5) == reshard && decide (1 ≤ d.kind) && decide (d.kind ≤ 6) && decide (d.flags < 32) &&
    (!pairs || isOrdered d) && (reshard || decide (d.flags < 8)) && !(d.flags.testBit 3 && d.flags.testBit 4) &&
    decide (d.caravan < 2 ^ 20) && decide (1 ≤ d.count) && decide (d.count ≤ 2 ^ 24) &&
    modeOk && paramOk && auxOk && (d.kind == 4 || d.root == 0) &&
    (if d.kind = 5 then decide (12 ≤ d.unitLog2) && decide (d.unitLog2 ≤ 28) else d.unitLog2 == 0)

/-- The addresses of R335, and a PERMUTE's own limits (Table 11.2, R364, Table 11.9). -/
def descAddrsOk (d : CollDesc) (m me : Nat) : Bool :=
  let al := if d.kind = 5 then 2 ^ d.unitLog2 else 32
  let srcOk := (d.kind == 4 && me != d.root) || jobRange d.src (inUnits d * srcPitch d) al
  let permOk := d.kind != 5 ||
    (d.src == d.dst && decide (m * d.count ≤ 2 ^ 32) &&
      decide (d.param * 2 ^ d.unitLog2 ≤ 4094 * 2 ^ 20))
  srcOk && jobRange d.dst (outUnits d m me * dstPitch d) al && permOk

/-- The checks of R336 that give ST_COLL_DESC: the ranks and this member's index when they pass. -/
def checkDesc (s : State) (d : CollDesc) (reshard : Bool) : Option (List Nat × Nat) :=
  if !descFieldsOk d reshard then none
  else
    match groupRanks s d with
    | none => none
    | some rs =>
      let m := rs.length
      match rs.findIdx? fun r => r == ownRank s with
      | none => none
      | some me =>
        let ok := noRepeats rs && rs.all (inTorus s) && (d.kind != 4 || decide (d.root < m)) &&
          (!isOrdered d || decide (ceilLog2 m + 2 ≤ d.param)) && descAddrsOk d m me
        if ok then some (rs, me) else none

/-- The permutation table at AUX (R364). -/
def permTable (s : State) (d : CollDesc) (m : Nat) : List Nat :=
  (List.range (m * d.count)).map fun i => leNat (readBytes s (d.aux + 4 * i) 4)

/-- CHECK of a caravan (R340). -/
def cvCheck (s : State) (d : CollDesc) (ranks : List Nat) : W32 :=
  let b := descBytes d
  let tail := if isList d then (ranks.map fun r => leBytes 2 r).flatten else slice b 24 8
  let table := if d.kind = 5 then ((permTable s d ranks.length).map fun v => leBytes 4 v).flatten else []
  crc32c (slice b 0 8 ++ slice b 32 16 ++ tail ++ table)

/-- Staging needed (Table 11.4). -/
def stagingNeed (d : CollDesc) (m : Nat) : Nat :=
  let seg := (d.count + m - 1) / m
  if isOrdered d then (d.param + 1) * seg * (2 * cvElem d)
  else if reducing d || d.kind = 3 then
    2 * seg * srcPitch d + (if isBsi d && d.param != 0 then (d.count + 7) / 8 else 0)
  else 65536

/-! ### The caravan tree (R339) -/

def Caravan.m (c : Caravan) : Nat := c.ranks.length
def coordinatorOf (d : CollDesc) : Nat := if d.kind = 4 then d.root else 0
def Caravan.coord (c : Caravan) : Nat := coordinatorOf c.d
def Caravan.isCoord (c : Caravan) : Bool := c.me == c.coord
def Caravan.succ (c : Caravan) : Nat := (c.me + 1) % c.m
def Caravan.pred (c : Caravan) : Nat := (c.me + c.m - 1) % c.m

/-- Children of a member, ascending in relative index. -/
def childrenOf (m coord member : Nat) : List Nat :=
  let i := (member + m - coord) % m
  ((List.range 17).filter fun b => i % 2 ^ (b + 1) == 0 && decide (i + 2 ^ b < m)).map fun b => (i + 2 ^ b + coord) % m

def Caravan.children (c : Caravan) : List Nat := childrenOf c.m c.coord c.me

/-- The parent: relative index i AND (i - 1). -/
def Caravan.parent (c : Caravan) : Nat :=
  let i := (c.me + c.m - c.coord) % c.m
  ((i &&& (i - 1)) + c.coord) % c.m

/-- Members that a COMMIT or ABORT goes to: the children, a fenced one replaced by its own children (R363). -/
def downTo (s : State) (ranks : List Nat) (coord : Nat) : Nat → List Nat → List Nat
  | 0, _ => []
  | fuel + 1, l =>
    (l.map fun x =>
      if isFenced s (lget 0 ranks x) then downTo s ranks coord fuel (childrenOf ranks.length coord x) else [x]).flatten

/-! ### The live caravans -/

def cvOf (s : State) (id : Nat) : Option Caravan := s.cl.caravans.find? fun c => c.d.caravan == id
def modCv (id : Nat) (f : Caravan → Caravan) (s : State) : State :=
  { s with cl := { s.cl with caravans := lupdate (fun c => c.d.caravan == id) f s.cl.caravans } }

/-- Counts into CL_COUNT[k]. -/
def countCl (k n : Nat) (s : State) : State := { s with cl := { s.cl with counts := taddW s.cl.counts k n } }

/-- A packet of a caravan goes to its engine's send queue (R341, Table 11.3): OFFSET holds the index of a DATA packet's first unit,
modulo 2^24, or a cycle number, and STAGE is DATA's alone; what else the receiver must know goes beside the bits (log entry 40). -/
def sendCv (c : Caravan) (member sub stage off endU : Nat) (payload : List Byte) (marks : List Nat) (s : State) : State :=
  let dest := lget 0 c.ranks member
  let k := { blankPacket with
    dest := dest, typ := if sub = 1 && c.d.kind = 4 then 2 else 1, caravan := c.d.caravan, sub := sub,
    stage := if sub = 1 then stage else 0, offset := if sub = 1 then off % 2 ^ 24 else if sub = 7 then off else 0,
    check := c.check, endUnit := endU % 2 ^ 24, payload := payload, poison := marks,
    more := if sub = 1 then off / 2 ^ 24 else if sub = 7 then stage else stage + 16 * off }
  modPeer s dest fun v => { v with waiting := v.waiting ++ [k] }

/-- The first unit a DATA packet covers, and one beyond its last (R342). -/
def dataFrom (k : Packet) : Nat := k.offset % 2 ^ 24 + 2 ^ 24 * k.more
def dataTo (k : Packet) : Nat := dataFrom k + (k.endUnit % 2 ^ 24 + 2 ^ 24 - k.offset % 2 ^ 24) % 2 ^ 24

/-- What a READY of a PERMUTE asks for (log entry 40): 0 forward, 4 a restoration, 5 an inverse step; and the slot. -/
def askStage (k : Packet) : Nat := k.more % 16
def askSlot (k : Packet) : Nat := k.more / 16

/-- Payloads of ABORT and STATUS_REQ, and of DONE and COMMIT (R343). -/
def abortBytes (cause member rank : Nat) : List Byte := leBytes 2 cause ++ leBytes 2 member ++ leBytes 2 rank ++ [0, 0]
def sumBytes (t : TreeSum) : List Byte :=
  leBytes 1 (b2n t.poison + 2 * b2n t.esc) ++ List.replicate 7 0 ++ leBytes 8 t.escBlocks ++ leBytes 8 t.poisonUnits

def TreeSum.zero : TreeSum := { poison := false, esc := false, escBlocks := 0, poisonUnits := 0 }

/-- Sums of a DONE or COMMIT payload. -/
def sumOf (b : List Byte) : TreeSum :=
  { poison := (field b 0 1).testBit 0, esc := (field b 0 1).testBit 1, escBlocks := field b 8 8, poisonUnits := field b 16 8 }

def TreeSum.add (a b : TreeSum) : TreeSum :=
  { poison := a.poison || b.poison, esc := a.esc || b.esc, escBlocks := (a.escBlocks + b.escBlocks) % 2 ^ 64,
    poisonUnits := (a.poisonUnits + b.poisonUnits) % 2 ^ 64 }

/-! ### Blocks (Table 3.4, R351, R550) -/

/-- A BSI block read out. -/
structure Blk where
  esc : Bool
  poison : Bool
  zero : Bool
  x : Nat
  emax : Nat
  p : List Int
  deriving DecidableEq, Repr, Inhabited

/-- Reads a block of 100 or 196 bytes; a poisoned one has zero partials. -/
def readBlk (esc : Bool) (b : List Byte) : Blk :=
  let n := if esc then 6 else 3
  let t := 32 * n
  let fl := field b (t + 1) 1
  let poison := fl.testBit 1
  { esc := esc, poison := poison, zero := fl.testBit 2, x := field b t 1, emax := field b (t + 2) 1,
    p := (List.range 32).map fun i => if poison then 0 else signedOf (8 * n) (field b (n * i) n) }

/-- A block's 100 or 196 bytes. -/
def blkBytes (k : Blk) : List Byte :=
  let n := if k.esc then 6 else 3
  let flags := b2n k.esc + 2 * b2n k.poison + 4 * b2n k.zero
  (k.p.map fun v => leBytes n (if k.poison then 0 else (v % ((256 ^ n : Nat) : Int)).toNat)).flatten ++
    [BitVec.ofNat 8 k.x, BitVec.ofNat 8 flags, BitVec.ofNat 8 (if k.zero then 0 else k.emax), 0]

/-- Combines an arriving block with a local one (Table 11.7); whether their X mismatched. -/
def combineBlk (p l : Blk) : Blk × Bool :=
  let mis := p.x != l.x && !p.poison && !l.poison
  let poison := p.poison || l.poison || mis
  let q := (List.range 32).map fun i => if poison then 0 else lget 0 p.p i + lget 0 l.p i
  let narrow := !p.esc && !l.esc && q.all fun v => decide (-8388608 ≤ v) && decide (v ≤ 8388607)
  ({ esc := !narrow, poison := poison, zero := p.zero && l.zero, x := p.x, emax := Nat.max p.emax l.emax, p := q }, mis)

/-! ### Units -/

/-- Whether the bytes of a range lie in sound sectors. -/
def soundRange (s : State) (a n : Nat) : Bool :=
  (List.range ((a + n - 1) / 32 + 1 - a / 32)).all fun i => !readFaults s ((a / 32 + i) * 32)

/-- Reads a 64-bit word of the step record; a free value where its sector faults, for which R281 names no poison. -/
def memWord (s : State) (a : Nat) : Nat := if soundRange s a 8 then leNat (readBytes s a 8) else Config.faultedWord a % 2 ^ 64

/-- Logs the first faulting unit of a caravan (R349, Table 11.16). -/
def logClFault (c : Caravan) (unit : Nat) (s : State) : State :=
  if s.cl.faultLog.getLsbD 63 then s
  else { s with cl := { s.cl with faultLog := BitVec.ofNat 64 (unit % 2 ^ 24 + c.d.caravan % 2 ^ 20 * 2 ^ 24 + 2 ^ 63) } }

/-- An element with its poison encoding where it faults (R281). -/
def elemOrPoison (s : State) (f : FpFmt) (a n : Nat) : List Byte :=
  if soundRange s a n then readBytes s a n else leBytes n f.poisonBits

/-- Reads unit u of a contribution; a faulting one is carried on as poison (R281, R349, R550).  X and EMAX of a block whose
own bytes fault are free values. -/
def readUnit (c : Caravan) (u : Nat) (s : State) : CvUnit × State :=
  let n := srcPitch c.d
  let a := c.d.src + n * u
  if isBsi c.d then
    let esc := soundRange s (a + 193) 1 && (readByte s (a + 193)).getLsbD 0
    let len := if esc then 196 else 100
    if soundRange s (a + 193) 1 && soundRange s a len then (⟨blkBytes (readBlk esc (readBytes s a len)), false, true⟩, s)
    else
      let t := if esc then 192 else 96
      let fx := drawFree s
      let x := if soundRange s (a + t) 1 then (readByte s (a + t)).toNat else fx.1 % 255
      let fe := drawFree fx.2
      let e := if soundRange s (a + t + 2) 1 then (readByte s (a + t + 2)).toNat else fe.1 % 255
      let k : Blk := { esc := esc, poison := true, zero := false, x := x, emax := e, p := List.replicate 32 0 }
      (⟨blkBytes k, true, true⟩, logClFault c u fe.2)
  else if isOrdered c.d then
    let f := orderedFmt c.d
    let z := cvElem c.d
    let b := elemOrPoison s f a z ++ (if inPair c.d then elemOrPoison s f (a + z) z else leBytes z 0)
    (⟨b, f.isPoison (field b 0 z) || f.isPoison (field b z z), true⟩, if soundRange s a n then s else logClFault c u s)
  else if c.d.kind = 6 then
    let ok := soundRange s a 8
    let fm := c.d.mode % 16
    let enc := match fpFmt fm with
      | some f => f.poisonBits
      | none => 0
    if ok then
      let v := leNat (readBytes s a 4)
      let p := match fpFmt fm with
        | some f => f.isPoison v
        | none => false
      (⟨readBytes s a 8, p, true⟩, s)
    else (⟨leBytes 4 enc ++ readBytes s (a + 4) 4, true, true⟩, logClFault c u s)
  else if soundRange s a n then (⟨readBytes s a n, false, true⟩, s)
  else (⟨List.replicate n 0, true, true⟩, logClFault c u s)

/-- Reads the whole contribution. -/
def readUnits (c : Caravan) (s : State) : List CvUnit × State :=
  (List.range (inUnits c.d)).foldl (fun acc u =>
    let r := readUnit c u acc.2
    (acc.1 ++ [r.1], r.2)) ([], noteReads s c.d.src (inUnits c.d * srcPitch c.d))

/-- Whether poison of this caravan's units stands in their bytes (FLAGS.POISON, or a poison encoding). -/
def inBand (d : CollDesc) : Bool := isBsi d || isOrdered d || (d.kind == 6 && (fpFmt (d.mode % 16)).isSome && d.mode % 16 != 6)

/-- Whether poison of this caravan's units is an encoding of their format, which leaves the sector's flag alone (R95). -/
def flagFree (d : CollDesc) : Bool := inBand d && !isBsi d

/-- Bytes of an output unit that hold its values: the partials of a block, the value of a TOPK entry, or all of it. -/
def valueBytes (d : CollDesc) (u : CvUnit) : Nat :=
  if isBsi d then (if u.bytes.length = 196 then 192 else 96) else if d.kind = 6 then 4 else dstPitch d

/-- Whether an output unit holds poison (R349). -/
def unitPoison (d : CollDesc) (u : CvUnit) : Bool :=
  if isBsi d then (readBlk (u.bytes.length == 196) u.bytes).poison
  else if isOrdered d then
    let z := cvElem d
    (orderedFmt d).isPoison (field u.bytes 0 z) || (decide (2 * z ≤ u.bytes.length) && (orderedFmt d).isPoison (field u.bytes z z))
  else u.poison

/-- Writes output units at consecutive addresses, sector by sector, `off` the number of the first; a unit whose format has no
poison encoding sets the flag of the sectors that receive its values, and a write that faults is logged (R95, R281 to R283,
R550). -/
def writeUnits (c : Caravan) (off addr : Nat) (us : List CvUnit) (s : State) : State :=
  let d := c.d
  let n := dstPitch d
  let bytes := (us.map fun u => padTo n u.bytes).flatten
  let marked := ((List.range us.length).zip us).filter fun e => !flagFree d && unitPoison d e.2
  let bad := fun (a k : Nat) => marked.any fun e =>
    decide (addr + n * e.1 < a + k) && decide (a < addr + n * e.1 + valueBytes d e.2)
  let s1 := (sectorPieces addr bytes.length bytes.length).foldl (fun st p =>
    let st1 := writeSector st p.1 (slice bytes (p.1 - addr) p.2) false
    if bad p.1 p.2 && isMemory p.1 && !deadSub st p.1 then setSectorPoison st1 p.1 true else st1) s
  let lost := (List.range us.length).find? fun u =>
    (sectorPieces (addr + n * u) n n).any fun p => !isMemory p.1 || deadSub s p.1
  let s2 := match lost with
    | some u => logClFault c (off + u) s1
    | none => s1
  countCl 7 (us.filter (unitPoison d)).length s2

end Sys2Proof.Machine
end

