-- ==== Sys2Proof/Machine/CvPermute.lean ====
section
/-!
DEFINITION. PERMUTE caravans: the journal in the retained region, the cycles of the permutation, their steps, and the
rollback (11 R364 to R370).  How one member asks another for a unit, which the spec's packet layouts do not say, is log
entry 40.
-/

namespace Sys2Proof.Machine

open Sys2Proof

/-! ### The journal (R367, Table 11.9) -/

def journalA : Nat := 0x00EF00000000
def journalB : Nat := 0x00EF00001000
def journalRing : Nat := 0x00EF00002000
def journalBitmap : Nat := 0x00EF00100000
def journalSave : Nat := 0x00EF00200000
def journalEntries : Nat := 16256

/-- A header copy's fields. -/
structure JHead where
  gen : Nat
  handle : Nat
  state : Nat
  desc : List Byte
  check : Nat
  cycles : Nat
  seq : Nat
  deriving DecidableEq, Repr, Inhabited

/-- A header's 4,096 bytes. -/
def jHeadBytes (h : JHead) : List Byte :=
  let b := [0x52, 0x53, 0x4A, 0x31] ++ leBytes 4 h.gen ++ leBytes 4 h.handle ++ leBytes 4 h.state ++ padTo 56 h.desc ++
    leBytes 4 h.check ++ leBytes 4 h.cycles ++ leBytes 8 h.seq
  let body := padTo 4092 b
  body ++ leBytes 4 (crc32c body).toNat

/-- Reads a header copy; none when its MAGIC or CRC fails. -/
def jHeadAt (s : State) (a : Nat) : Option JHead :=
  if !soundRange s a 4096 then none
  else
    let b := readBytes s a 4096
    if b.take 4 == [0x52, 0x53, 0x4A, 0x31] && field b 4092 4 == (crc32c (b.take 4092)).toNat then
      some { gen := field b 4 4, handle := field b 8 4, state := field b 12 4, desc := slice b 16 56, check := field b 72 4,
             cycles := field b 76 4, seq := field b 80 8 }
    else none

/-- The current header with its address: the valid copy with the higher GEN. -/
def jCurrent (s : State) : Option (Nat × JHead) :=
  match jHeadAt s journalA, jHeadAt s journalB with
  | some a, some b => if a.gen < b.gen then some (journalB, b) else some (journalA, a)
  | some a, none => some (journalA, a)
  | none, some b => some (journalB, b)
  | none, none => none

/-- STATE of the journal; 0 when there is none. -/
def jState (s : State) : Nat :=
  match jCurrent s with
  | some (_, h) => h.state
  | none => 0

/-- Writes the header copy that is not current, one GEN on. -/
def jWriteHead (f : JHead → JHead) (s : State) : State :=
  let cur := jCurrent s
  let old := match cur with
    | some (_, h) => h
    | none => default
  let a := match cur with
    | some (x, _) => if x = journalA then journalB else journalA
    | none => journalA
  writeMem s a (jHeadBytes { f old with gen := old.gen + 1 })

/-- Sets STATE. -/
def jSetState (st : Nat) (s : State) : State := jWriteHead (fun h => { h with state := st }) s

/-- Appends an entry in two phases: the entry, then ENTRY_SEQ in the newer header copy. -/
def jAppend (cycle step kind slot src : Nat) (s : State) : State :=
  match jCurrent s with
  | none => s
  | some (a, h) =>
    let n := h.seq + 1
    let b := leBytes 8 n ++ leBytes 4 cycle ++ leBytes 4 step ++ leBytes 4 kind ++ leBytes 4 slot ++ leBytes 4 src
    let e := padTo 60 b
    let s1 := writeMem s (journalRing + 64 * ((n - 1) % journalEntries)) (e ++ leBytes 4 (crc32c e).toNat)
    writeMem s1 a (jHeadBytes { h with seq := n })

/-- The entries that count, oldest first: cycle, kind and slot written. -/
def jEntries (s : State) : List (Nat × Nat × Nat) :=
  match jCurrent s with
  | none => []
  | some (_, h) =>
    let first := h.seq - journalEntries
    ((List.range (h.seq - first)).map fun i =>
      let n := first + 1 + i
      let b := readBytes s (journalRing + 64 * ((n - 1) % journalEntries)) 64
      if field b 0 8 == n && field b 60 4 == (crc32c (b.take 60)).toNat then [(field b 8 4, field b 16 1, field b 20 4)]
      else []).flatten

/-- Cycle c's bit of the done bitmap. -/
def jDoneBit (s : State) (c : Nat) : Bool := (readByte s (journalBitmap + c / 8)).getLsbD (c % 8)
def jSetDone (c : Nat) (v : Bool) (s : State) : State :=
  let a := journalBitmap + c / 8
  let m := BitVec.ofNat 8 (2 ^ (c % 8))
  writeMem s a [if v then readByte s a ||| m else readByte s a &&& ~~~ m]

/-! ### Cycles (R364, R365) -/

/-- Follows the table from a slot back to its start. -/
def cycleFrom (table : List Nat) (start : Nat) : Nat → Nat → List Nat
  | 0, _ => []
  | fuel + 1, g => if g = start then [] else g :: cycleFrom table start fuel (lget 0 table g)

/-- The cycles by ascending smallest slot, fixed points left out. -/
def cyclesOf (table : List Nat) : List (List Nat) :=
  (List.range table.length).foldl (fun acc g =>
    if lget 0 table g = g || acc.any (fun c => c.contains g) then acc
    else acc ++ [g :: cycleFrom table g table.length (lget 0 table g)]) []

/-- Whether the table is a permutation of 0 to N - 1. -/
def isPermutation (table : List Nat) : Bool := table.all (fun v => decide (v < table.length)) && noRepeats table

/-- The path a cycle's units follow: g_0 ... g_(L-1), or that of the inverse permutation. -/
def pathOf (p : Permute) (c : Nat) : List Nat :=
  match lget [] p.cycles c with
  | [] => []
  | g :: r => if p.rolling && p.done.contains c then g :: r.reverse else g :: r

/-- The cycle a slot lies in. -/
def cycleOf (p : Permute) (g : Nat) : Option Nat := p.cycles.findIdx? fun c => c.contains g

def unitBytes (c : Caravan) : Nat := 2 ^ c.d.unitLog2
def slotHolder (c : Caravan) (g : Nat) : Nat := g / c.d.count
def slotAddr (c : Caravan) (g : Nat) : Nat := c.d.src + g % c.d.count * unitBytes c
def saveAddr (c : Caravan) (cyc : Nat) : Nat := journalSave + cyc % c.d.param * unitBytes c

/-- Whether an own slot has been overwritten: its WRITE_DONE stands. -/
def isWritten (p : Permute) (g : Nat) : Bool := p.wrote.contains (g, true)

def modPerm (id : Nat) (f : Permute → Permute) (s : State) : State :=
  modCv id (fun c => { c with perm := c.perm.map f }) s

/-- The caravan with its PERMUTE part. -/
def permOf (s : State) (id : Nat) : Option (Caravan × Permute) :=
  match cvOf s id with
  | some c => c.perm.map fun p => (c, p)
  | none => none

/-! ### Moving units -/

/-- Copies a unit sector by sector, poison with it; whether any was poisoned.  A fault of the read, or of the write, is logged
against the unit of slot `g` (R283, R349). -/
def copyUnit (c : Caravan) (g src dst : Nat) (s : State) : State × Bool :=
  let r := (List.range (unitBytes c / 32)).foldl (fun (acc : State × Bool) i =>
    let r := readSector acc.1 (src + 32 * i)
    (writeSector (noteRead acc.1 (src + 32 * i)) (dst + 32 * i) r.1 r.2, acc.2 || r.2)) (s, false)
  let lost := (List.range (unitBytes c / 32)).any fun i => deadSub s (dst + 32 * i)
  (if r.2 || lost then logClFault c (g % c.d.count) r.1 else r.1, r.2)

/-- Counts a unit written into its new slot when it is poisoned (R349). -/
def countUnit (id : Nat) (poisoned : Bool) (s : State) : State :=
  if !poisoned then s
  else
    countCl 7 1 (modCv id (fun c => { c with
      sums := TreeSum.add c.sums { TreeSum.zero with poison := true, poisonUnits := 1 } }) s)

/-- Records WRITE_INTENT or what ends it for an own slot. -/
def setWrote (g : Nat) (v : Bool) (p : Permute) : Permute :=
  { p with wrote := (p.wrote.filter fun e => e.1 != g) ++ [(g, v)] }
def clearWrote (g : Nat) (p : Permute) : Permute := { p with wrote := p.wrote.filter fun e => e.1 != g }

/-- The READY of a fetch (log entry 40). -/
def sendAsk (c : Caravan) (p : Permute) (f : Fetch) (s : State) : State :=
  sendCv c f.member 2 (if !p.rolling then 0 else if f.restore then 4 else 5) (f.src % c.d.count) 0 [] [] s

/-- Sends again the READYs to which no DATA has come, counting them (R344). -/
def askAgain (id : Nat) (s : State) : State :=
  match permOf s id with
  | none => s
  | some (c, p) =>
    (p.fetches.filter fun f => f.asked && f.got == 0).foldl (fun st f => countCl 6 1 (sendAsk c p f st)) s

/-- Sends READY for each fetch whose member has no other outstanding (log entry 40). -/
def pumpAsks (id : Nat) (s : State) : State :=
  match permOf s id with
  | none => s
  | some (_, p0) =>
    (List.range p0.fetches.length).foldl (fun st i =>
      match permOf st id with
      | none => st
      | some (c, p) =>
        let f := lget default p.fetches i
        if f.asked || p.fetches.any (fun x => x.asked && x.member == f.member) then st
        else
          let st1 := modPerm id (fun q => { q with fetches := q.fetches.set i { f with asked := true } }) st
          sendAsk c p f st1) s

/-- Adds a fetch for a slot that has none. -/
def addFetch (id cyc pos slot src member : Nat) (restore : Bool) (s : State) : State :=
  modPerm id (fun p =>
    if p.fetches.any fun f => f.slot == slot then p
    else { p with fetches := p.fetches ++
      [{ cycle := cyc, pos := pos, slot := slot, src := src, member := member, restore := restore, asked := false, got := 0,
         poison := false }] }) s

/-- The number of the step that writes place `pos` of a path of length L (Table 11.8). -/
def stepNo (len pos : Nat) : Nat := if pos = 0 then len - 1 else pos - 1

/-- A cycle is known done, or with `undo` undone: its bit follows, and nothing of it stands open (R365, R369). -/
def noticeCycle (id cyc : Nat) (undo : Bool) (s : State) : State :=
  match permOf s id with
  | none => s
  | some (_, p) =>
    let slots := lget [] p.cycles cyc
    if !undo && (p.undone.contains cyc || p.done.contains cyc) then s
    else
      let done := if undo then p.done.filter (· != cyc) else p.done ++ [cyc]
      let s1 := modPerm id (fun q => { q with
        done := done, undone := if undo then cyc :: q.undone else q.undone,
        started := q.started.filter (fun x => !(undo && x == cyc)),
        saved := q.saved.filter (· != cyc), wrote := q.wrote.filter (fun e => !slots.contains e.1),
        fetches := q.fetches.filter (fun f => f.cycle != cyc) }) s
      let s2 := jSetDone cyc (!undo) s1
      { s2 with cl := { s2.cl with rsDone := done.length } }

/-- The members of a cycle and the coordinator, but this one. -/
def cycleParties (c : Caravan) (p : Permute) (cyc : Nat) : List Nat :=
  let l := c.coord :: (lget [] p.cycles cyc).map (slotHolder c)
  (List.range c.m).filter fun m => l.contains m && m != c.me

/-- The holder of g_0 announces the cycle (step 4 of Table 11.8). -/
def announceCycle (id cyc : Nat) (s : State) : State :=
  match permOf s id with
  | none => s
  | some (c, p) =>
    (cycleParties c p cyc).foldl (fun st m =>
      sendCv c m 7 (if p.rolling then 4 else 0) cyc 0 (sumBytes TreeSum.zero) [] st) s

/-- Carries out the steps of a path from place `pos` down, as long as both slots are here; the rest is fetched
(steps 2 and 3 of Table 11.8). -/
def moveInto (id cyc : Nat) : Nat → Nat → State → State
  | 0, _, s => s
  | fuel + 1, pos, s =>
    match permOf s id with
    | none => s
    | some (c, p) =>
      let path := pathOf p cyc
      let len := path.length
      let g := lget 0 path pos
      let src := if pos = 0 then lget 0 path (len - 1) else lget 0 path (pos - 1)
      let s1 := modPerm id (setWrote g false) (jAppend cyc (stepNo len pos) 2 g src s)
      if slotHolder c src != c.me then pumpAsks id (addFetch id cyc pos g src (slotHolder c src) false s1)
      else
        let t := copyUnit c src (if pos = 0 then saveAddr c cyc else slotAddr c src) (slotAddr c g) s1
        let kind := if p.rolling then 4 else 3
        let s2 := modPerm id (setWrote g true) (jAppend cyc (stepNo len pos) kind g src (countUnit id t.2 t.1))
        if pos = 0 then noticeCycle id cyc p.rolling (announceCycle id cyc s2) else moveInto id cyc fuel (pos - 1) s2

/-- Runs again what may stand open behind a place already written (RESUME, R369). -/
def kickFrom (id cyc : Nat) : Nat → Nat → State → State
  | 0, _, s => s
  | fuel + 1, pos, s =>
    match permOf s id with
    | none => s
    | some (c, p) =>
      let path := pathOf p cyc
      if pos = 0 then noticeCycle id cyc p.rolling (announceCycle id cyc s)
      else
        let src := lget 0 path (pos - 1)
        if slotHolder c src != c.me then
          pumpAsks id (addFetch id cyc pos (lget 0 path pos) src (slotHolder c src) false s)
        else if isWritten p src then kickFrom id cyc fuel (pos - 1) s
        else moveInto id cyc path.length (pos - 1) s

/-- The leader starts its cycle: SAVE, then the first step (Table 11.8); a cycle already saved goes on from where it
stands. -/
def leadCycle (id cyc : Nat) (s : State) : State :=
  match permOf s id with
  | none => s
  | some (c, p) =>
    let path := pathOf p cyc
    let len := path.length
    let last := lget 0 path (len - 1)
    if p.saved.contains cyc then
      if isWritten p last then kickFrom id cyc len (len - 1) s else moveInto id cyc len (len - 1) s
    else if p.saved.any fun x => x % c.d.param == cyc % c.d.param then
      modPerm id (fun q => { q with waitStart := q.waitStart ++ [cyc] }) s
    else
      let s1 := jAppend cyc (len - 1) 1 last last s
      let t := copyUnit c last (slotAddr c last) (saveAddr c cyc) s1
      moveInto id cyc len (len - 1) (modPerm id (fun q => { q with saved := q.saved ++ [cyc] }) t.1)

/-- Restores the place `pos` of a cycle in progress, and those after it as long as both slots are here (R369). -/
def restoreInto (id cyc : Nat) : Nat → Nat → State → State
  | 0, _, s => s
  | fuel + 1, pos, s =>
    match permOf s id with
    | none => s
    | some (c, p) =>
      let path := lget [] p.cycles cyc
      let len := path.length
      let g := lget 0 path pos
      let undo := fun (st : State) => modPerm id (clearWrote g) (jAppend cyc (stepNo len pos) 4 g g st)
      if pos + 1 = len then
        if !p.saved.contains cyc then s
        else
          let s1 := undo (copyUnit c g (saveAddr c cyc) (slotAddr c g) s).1
          modPerm id (fun q => { q with saved := q.saved.filter (· != cyc) }) s1
      else
        let src := lget 0 path (pos + 1)
        if slotHolder c src != c.me then
          pumpAsks id (addFetch id cyc pos g src (slotHolder c src) true s)
        else if !isWritten p src then s
        else
          let s1 := modPerm id (setWrote g false) (jAppend cyc (stepNo len pos) 2 g src s)
          restoreInto id cyc fuel (pos + 1) (undo (copyUnit c src (slotAddr c src) (slotAddr c g) s1).1)

/-- Places of a cycle held here. -/
def ownPlaces (c : Caravan) (p : Permute) (cyc : Nat) : List Nat :=
  (List.range (lget [] p.cycles cyc).length).filter fun i => slotHolder c (lget 0 (lget [] p.cycles cyc) i) == c.me

/-- Every restoration this member may begin: a place not overwritten, or place 0, asks for its unit back. -/
def restoreAll (id : Nat) (s : State) : State :=
  match permOf s id with
  | none => s
  | some (c, p) =>
    ((List.range p.cycles.length).filter fun i => !p.done.contains i).foldl (fun st cyc =>
      (ownPlaces c p cyc).foldl (fun st' pos =>
        let g := lget 0 (lget [] p.cycles cyc) pos
        if (isWritten p g && pos != 0) || p.fetches.any (fun f => f.slot == g) then st'
        else restoreInto id cyc (lget [] p.cycles cyc).length pos st') st) s

/-- Runs again the open steps of this member's own slots (R369). -/
def kickAll (id : Nat) (s : State) : State :=
  match permOf s id with
  | none => s
  | some (c, p) =>
    p.wrote.foldl (fun st e =>
      match cycleOf p e.1 with
      | none => st
      | some cyc =>
        let path := pathOf p cyc
        let pos := (path.findIdx? (· == e.1)).getD 0
        if p.fetches.any (fun f => f.slot == e.1) || slotHolder c e.1 != c.me || (p.rolling && !p.done.contains cyc) then st
        else if e.2 then kickFrom id cyc path.length pos st
        else moveInto id cyc path.length pos st) s

/-- Runs again whatever of this member's part may have stalled. -/
def permKick (id : Nat) (s : State) : State :=
  match permOf s id with
  | none => s
  | some (_, p) => if p.rolling then restoreAll id (kickAll id s) else kickAll id s

/-- Sends a unit's DATA packets, 64 sectors each; a fault of its reads is logged (R349). -/
def sendUnit (id member cyc addr : Nat) (slot : Option Nat) (s : State) : State :=
  match permOf s id with
  | none => s
  | some (c, p) =>
    let n := unitBytes c / 2048
    let s1 := modCv id (fun c => { c with
      unacked := c.unacked + n,
      perm := c.perm.map fun p => { p with outs := p.outs ++ [⟨member, n, cyc, slot⟩] } }) s
    (List.range n).foldl (fun st i =>
      let secs := (List.range 64).map fun j => readSector st (addr + 2048 * i + 32 * j)
      let marks := (List.range 64).filter fun j => (lget ([], false) secs j).2
      let st1 := noteReads st (addr + 2048 * i) 2048
      let unit := slot.getD (lget 0 (pathOf p cyc) ((pathOf p cyc).length - 1)) % c.d.count
      let off := 2 ^ 24 * unit + 64 * i
      sendCv c member 1 4 off (off + 64) (secs.map (·.1)).flatten marks
        (if marks.isEmpty then st1 else logClFault c unit st1)) s1

/-- Answers a READY whose unit has moved already: DATA of no units (log entry 40). -/
def sendNothing (id member k : Nat) (s : State) : State :=
  match cvOf s id with
  | none => s
  | some c => sendCv c member 1 4 (2 ^ 24 * k) (2 ^ 24 * k) [] [] (modCv id (fun c => { c with unacked := c.unacked + 1 }) s)

/-- READY from the holder of the slot a unit moves to (Table 11.8); one for a unit that is on its way is ignored (R344). -/
def serveReady (id member k : Nat) (s : State) : State :=
  match permOf s id with
  | none => s
  | some (c, p) =>
    let y := c.me * c.d.count + k
    let under := fun (cyc : Nat) => p.outs.any fun o => o.member == member && o.cycle == cyc && o.slot.getD y == y
    match cycleOf p y with
    | none => sendNothing id member k s
    | some cyc =>
      if under cyc then s else
      let path := pathOf p cyc
      let pos := (path.findIdx? (· == y)).getD 0
      if p.rolling && !p.done.contains cyc then
        if isWritten p y then sendUnit id member cyc (slotAddr c y) (some y) s else sendNothing id member k s
      else if !p.rolling && p.done.contains cyc then announceCycle id cyc (sendNothing id member k s)
      else if pos + 1 = path.length then
        if p.saved.contains cyc then sendUnit id member cyc (saveAddr c cyc) none s else sendNothing id member k s
      else if isWritten p y then kickFrom id cyc path.length pos (sendNothing id member k s)
      else sendUnit id member cyc (slotAddr c y) (some y) s

/-- A unit sent has been acknowledged: the step of the slot it came from follows. -/
def unitSent (id : Nat) (o : MoveOut) (s : State) : State :=
  match o.slot, permOf s id with
  | some y, some (_, p) =>
    if p.rolling && !p.done.contains o.cycle then
      let path := lget [] p.cycles o.cycle
      restoreInto id o.cycle path.length ((path.findIdx? (· == y)).getD 0) s
    else if !p.rolling && p.done.contains o.cycle then s
    else
      let path := pathOf p o.cycle
      moveInto id o.cycle path.length ((path.findIdx? (· == y)).getD 0) s
  | _, _ => s

/-- A DATA packet of stage 4 has been acknowledged. -/
def permAcked (id member : Nat) (empty : Bool) (s : State) : State :=
  match permOf s id with
  | none => s
  | some (_, p) =>
    if empty then s
    else
      match p.outs.find? fun o => o.member == member with
      | none => s
      | some o =>
        if 1 < o.left then
          modPerm id (fun q => { q with outs := lupdate (fun x => x.member == member) (fun x => { x with left := x.left - 1 }) q.outs }) s
        else unitSent id o (modPerm id (fun q => { q with outs := lremove (fun x => x.member == member) q.outs }) s)

/-- A fetched unit stands whole in its slot. -/
def fetchDone (id : Nat) (f : Fetch) (s : State) : State :=
  match permOf s id with
  | none => s
  | some (_, p) =>
    let s0 := modPerm id (fun q => { q with fetches := lremove (fun x => x.slot == f.slot) q.fetches }) s
    if f.restore then modPerm id (clearWrote f.slot) (jAppend f.cycle (stepNo (lget [] p.cycles f.cycle).length f.pos) 4 f.slot f.src s0)
    else
      let len := (lget [] p.cycles f.cycle).length
      let kind := if p.rolling then 4 else 3
      let s1 := modPerm id (setWrote f.slot true) (jAppend f.cycle (stepNo len f.pos) kind f.slot f.src (countUnit id f.poison s0))
      if f.pos != 0 then s1
      else if p.rolling && !p.done.contains f.cycle then restoreAll id s1
      else noticeCycle id f.cycle p.rolling (announceCycle id f.cycle s1)

/-- DATA of stage 4 from a member, units `from_` to `to_ - 1` of its numbering: sectors of the unit asked of it (log entry 40). -/
def permData (id member from_ to_ : Nat) (payload : List Byte) (marks : List Nat) (s : State) : State :=
  let lo := from_ % 2 ^ 24
  let hi := lo + (to_ - from_)
  match permOf s id with
  | none => s
  | some (c, p) =>
    match p.fetches.find? fun f => f.asked && f.member == member && f.src % c.d.count == from_ / 2 ^ 24 with
    | none => s
    | some f =>
      if to_ ≤ from_ then
        let s1 := pumpAsks id (modPerm id (fun q => { q with fetches := lremove (fun x => x.slot == f.slot) q.fetches }) s)
        if p.rolling && !f.restore then restoreAll id s1 else s1
      else
        let s0 := if f.restore && f.got = 0 then
            modPerm id (setWrote f.slot false) (jAppend f.cycle (stepNo (lget [] p.cycles f.cycle).length f.pos) 2 f.slot f.src s)
          else s
        let a := slotAddr c f.slot + 32 * lo
        let s1 := (List.range (hi - lo)).foldl (fun st i =>
          writeSector st (a + 32 * i) (slice payload (32 * i) 32) (marks.contains i)) s0
        let f1 := { f with got := f.got + (hi - lo), poison := f.poison || !marks.isEmpty }
        if f1.got * 32 < unitBytes c then
          modPerm id (fun q => { q with fetches := lupdate (fun x => x.slot == f.slot) (fun _ => f1) q.fetches }) s1
        else pumpAsks id (fetchDone id f1 s1)

/-! ### Starting, and the coordinator's part -/

/-- Whether the coordinator may start a cycle now: fewer than CYCLES_PAR are in progress (R365, R369), and no SUSPEND holds the
start of cycles (R366). -/
def startable (c : Caravan) (p : Permute) (cyc : Nat) : Bool :=
  if p.rolling then
    p.done.contains cyc && !p.started.contains cyc && !p.pause && decide (p.started.length < c.d.param)
  else
    !p.done.contains cyc && !p.started.contains cyc && !p.pause &&
      decide ((p.started.filter fun x => !p.done.contains x).length < c.d.param)

/-- The coordinator starts every cycle it may, lowest first; a leader here starts at once. -/
def startCycles (id : Nat) : Nat → State → State
  | 0, s => s
  | fuel + 1, s =>
    match permOf s id with
    | none => s
    | some (c, p) =>
      if !c.isCoord then s
      else
        match (List.range p.cycles.length).find? (startable c p) with
        | none => s
        | some cyc =>
          let s1 := modPerm id (fun q => { q with started := q.started ++ [cyc] }) s
          let path := pathOf p cyc
          let lead := slotHolder c (lget 0 path (path.length - 1))
          startCycles id fuel (if lead = c.me then leadCycle id cyc s1 else sendCv c lead 7 0 cyc 0 [] [] s1)

/-- Leads the cycles whose save slot has become free. -/
def leadWaiting (id : Nat) (s : State) : State :=
  match permOf s id with
  | none => s
  | some (_, p) => p.waitStart.foldl (fun st cyc => leadCycle id cyc st) (modPerm id (fun q => { q with waitStart := [] }) s)

/-- CYCLE without a payload starts a cycle at its leader; one with the payload of a DONE announces it (Table 11.8). -/
def cyclePacket (id cyc : Nat) (start undo : Bool) (s : State) : State :=
  match permOf s id with
  | none => s
  | some (_, p) =>
    if p.cycles.length ≤ cyc then s
    else if !start then noticeCycle id cyc undo s
    else if !p.rolling && p.done.contains cyc then announceCycle id cyc s
    else if p.rolling && !p.done.contains cyc then leadCycle id cyc (noticeCycle id cyc false s)
    else leadCycle id cyc s

/-- What the journal says of this member's part: done cycles, save slots filled, and own slots written (R367, R369). -/
def permFromJournal (s : State) (p : Permute) : Permute :=
  let done := (List.range p.cycles.length).filter (jDoneBit s)
  let step := fun (q : Permute) (e : Nat × Nat × Nat) =>
    match e.2.1 with
    | 1 => { q with saved := q.saved.filter (· != e.1) ++ [e.1] }
    | 2 => setWrote e.2.2 false q
    | 3 => { setWrote e.2.2 true q with saved := if done.contains e.1 then q.saved.filter (· != e.1) else q.saved }
    | 4 => if done.contains e.1 then setWrote e.2.2 true q else clearWrote e.2.2 q
    | _ => q
  -- slots of done cycles whose last entry is a forward WRITE_DONE are at rest
  let last := fun (g : Nat) => ((jEntries s).filter fun e => e.2.2 == g && e.2.1 != 1).getLast?.map (·.2.1)
  let q := (jEntries s).foldl step { p with done := done, saved := [], wrote := [] }
  let rest := fun (g : Nat) =>
    match cycleOf p g with
    | some cyc => done.contains cyc && (!p.rolling || last g == some 3)
    | none => true
  { q with wrote := q.wrote.filter (fun e => !rest e.1), saved := q.saved.filter (fun cyc => p.rolling || !done.contains cyc) }

/-- Whether this member's own part of the re-shard is done. -/
def permOwnDone (c : Caravan) (p : Permute) : Bool :=
  let mine := (List.range p.cycles.length).filter fun i => !(ownPlaces c p i).isEmpty
  if p.rolling then
    !(mine.any fun i => p.done.contains i) && p.wrote.isEmpty && p.saved.isEmpty && p.outs.isEmpty &&
      (!c.isCoord || p.done.isEmpty)
  else mine.all (fun i => p.done.contains i) && (!c.isCoord || p.done.length == p.cycles.length)

/-- A CANCEL turns the re-shard round (R348, R366). -/
def turnBack (id : Nat) (s : State) : State :=
  let s1 := modCv id (fun c => { c with
    state := .running, doneFrom := [], sums := TreeSum.zero, statusAsked := false,
    perm := c.perm.map fun p => { p with rolling := true, cancelled := true, undone := [], started := [], waitStart := [] } }) s
  let s2 := jSetState 2 s1
  restoreAll id { s2 with cl := { s2.cl with rsState := 3 } }

/-- Whether the long operation of a handle is suspended or about to be (R425). -/
def pausedOp (s : State) (handle : Nat) : Bool :=
  match longOpOf s handle with
  | some e => e.2.state == .suspending || e.2.state == .suspended
  | none => false

/-- The re-shard begins on this member, afresh or from its journal (R364, R367, R369).  None when the table is refused. -/
def permStart (c : Caravan) (s : State) : Option State :=
  let n := c.m * c.d.count
  let table := permTable s c.d c.m
  let cycles := cyclesOf table
  if !soundRange s c.d.aux (4 * n) || !isPermutation table || 2 ^ 23 < cycles.length then none
  else
    let id := c.d.caravan
    let resume := c.d.flags.testBit 3
    let back := c.d.flags.testBit 4
    let st := jState s
    let rolling := st != 3 && (back || (resume && st == 2))
    let p0 : Permute := { table := table, cycles := cycles, rolling := rolling, done := [], undone := [], started := [], saved := [],
                          wrote := [], waitStart := [], pause := pausedOp s c.handle, fetches := [], outs := [], cancelled := false }
    let old := (resume || back) && st != 0
    let p := if old then permFromJournal s p0 else p0
    let seq := match jCurrent s with
      | some (_, h) => if old then h.seq else 0
      | none => 0
    let s1 := if old then s else writeMem s journalBitmap (List.replicate ((cycles.length + 7) / 8) 0)
    let s2 := jWriteHead (fun _ =>
      { gen := 0, handle := c.handle, state := if st = 3 && old then 3 else if rolling then 2 else 1, desc := descBytes c.d,
        check := c.check.toNat, cycles := cycles.length, seq := seq }) s1
    let s3 := modCv id (fun x => { x with perm := some p }) s2
    let s4 := { s3 with cl := { s3.cl with
      held := false, rsState := if rolling then 3 else 1, rsDone := p.done.length, rsTotal := cycles.length } }
    some (if old then permKick id s4 else if rolling then restoreAll id s4 else s4)

end Sys2Proof.Machine
end

