-- ==== Sys2Proof/Machine/Update.lean ====
section
/-!
DEFINITION. The update engine: the bucket table, the sign update, the step record, attempts, the step commit and working
copies (12 R374 to R393), with its row WORKING_COPY_DONE and ATTEMPT_START.
-/

namespace Sys2Proof.Machine

open Sys2Proof

/-! ### The bucket table (R375, R376) -/

/-- A bucket table entry (Table 12.2). -/
structure Bkt where
  caravan : Nat
  tensor : Nat
  flags : Nat
  wc : Nat
  eta : Nat
  etaLambda : Nat
  master0 : Nat
  master1 : Nat
  wcAddr : Nat
  scaleAddr : Nat
  first : Nat
  blocks : Nat
  rowLen : Nat
  chmax : Nat
  code : Nat
  /-- bytes 72-95 are zero -/
  tailZero : Bool
  deriving DecidableEq, Repr, Inhabited

def ueTableBase (s : State) : Nat := bits64 s.ue.table 47 5 * 32
def ueEntries (s : State) : Nat := bits64 s.ue.table 60 48
def ueRecordBase (s : State) : Nat := s.ue.recordBase.toNat
def ueRecordWords (s : State) : Nat := s.ue.recordWords.toNat
def ueCodeBase (s : State) : Nat := s.ue.codeBase.toNat
def ueCodeWords (s : State) : Nat := s.ue.codeWords.toNat

/-- Entry i of the table. -/
def bktAt (s : State) (i : Nat) : Bkt :=
  let b := readBytes s (ueTableBase s + 96 * i) 96
  { caravan := field b 0 4, tensor := field b 4 2, flags := field b 6 1, wc := field b 7 1, eta := field b 8 4,
    etaLambda := field b 12 4, master0 := field b 16 8, master1 := field b 24 8, wcAddr := field b 32 8,
    scaleAddr := field b 40 8, first := field b 48 8 % 2 ^ 40, blocks := field b 56 4, rowLen := field b 60 4,
    chmax := field b 64 4, code := field b 68 4, tailZero := (slice b 72 24).all fun x => x == 0 }

def Bkt.valid (k : Bkt) : Bool := k.flags.testBit 0
def Bkt.cell (k : Bkt) : Bool := k.flags.testBit 1
def Bkt.decay (k : Bkt) : Bool := k.flags.testBit 2
def Bkt.wcEn (k : Bkt) : Bool := k.flags.testBit 3
def Bkt.fmt (k : Bkt) : Nat := k.wc % 16
def Bkt.mode (k : Bkt) : Nat := k.wc / 16 % 4
def Bkt.channels (k : Bkt) : Nat := 32 * k.blocks / k.rowLen
/-- First byte of master copy c. -/
def Bkt.master (k : Bkt) (c : Bool) : Nat := if c then k.master1 else k.master0

/-- The VALID entries, with their numbers. -/
def bkts (s : State) : List (Nat × Bkt) :=
  ((List.range (ueEntries s)).map fun i => (i, bktAt s i)).filter fun e => e.2.valid

/-- Whether the table cannot be trusted: a byte of it reads from a faulting sector (R376). -/
def ueTableBad (s : State) : Bool := decide (0 < ueEntries s) && !soundRange s (ueTableBase s) (96 * ueEntries s)

/-- Whether an FP32 constant is finite and not negative. -/
def etaOk (b : Nat) : Bool :=
  match fp32.decode b with
  | .fin n m _ => !n || m == 0
  | _ => false

/-- Whether two ranges overlap. -/
def meets (a n b k : Nat) : Bool := decide (a < b + k) && decide (b < a + n)

/-- Whether a VALID entry is usable by a group of m members (R376). -/
def bktUsable (s : State) (i : Nat) (k : Bkt) (m : Nat) : Bool :=
  let others := (bkts s).filter fun e => e.1 != i
  let base :=
    decide (1 ≤ k.blocks) && decide (k.blocks ≤ 2 ^ 24) && decide (1 ≤ k.rowLen) && decide (k.rowLen ≤ 2 ^ 24) &&
    k.first % k.rowLen == 0 && 32 * k.blocks % k.rowLen == 0 && etaOk k.eta && etaOk k.etaLambda &&
    decide (32 ≤ k.chmax) && decide (k.chmax + k.channels ≤ ueRecordWords s) &&
    decide (k.code + k.blocks ≤ 8 * ueCodeWords s) &&
    others.all (fun e => !meets k.chmax k.channels e.2.chmax e.2.channels && !meets k.code k.blocks e.2.code e.2.blocks &&
      e.2.caravan % 2 ^ 20 != k.caravan % 2 ^ 20) &&
    decide (k.caravan < 2 ^ 20) && decide (k.flags < 16) && decide (k.wc < 64) && k.tailZero
  let wcOk := !k.wcEn ||
    (decide (2 ≤ k.fmt) && decide (k.fmt ≤ 7) && decide (k.mode ≤ 2) && !(k.mode == 2 && s.fb.job.getLsbD 17) &&
      k.blocks % m == 0 && 32 * (k.blocks / m) * fmtBits k.fmt / 8 % 32 == 0)
  base && wcOk

/-! ### Attempts and the step record (R385, R386) -/

/-- Writes a 64-bit word of device memory. -/
def writeWord (s : State) (a v : Nat) : State := writeMem s a (leBytes 8 v)

/-- MISSING as a new attempt sets it for a stack: its VALID buckets. -/
def fullMissing (s : State) (stack : Nat) : Nat :=
  if ueTableBad s then 0 else ((bkts s).filter fun e => e.2.caravan % 8 == stack).length

/-- MISSING[stack]: the record's word, or the full count while the record waits to be rewritten. -/
def missing (s : State) (stack : Nat) : Nat :=
  if s.ue.reinit then fullMissing s stack else memWord s (ueRecordBase s + 8 * (2 + stack))

/-- Sum of the MISSING words (UE_STATUS.MISSING). -/
def missingSum (s : State) : Nat :=
  if ueRecordWords s = 0 then 0 else ((List.range 8).map (missing s)).foldl (· + ·) 0

/-- Starts a new attempt: its rewriting is due (R386). -/
def startAttempt (s : State) : State :=
  let waits := (s.cl.caravans.filter fun c => c.state == .opening && (c.role == .commit || c.role == .code)).map
    fun c => c.d.caravan
  { s with ue := { s.ue with reinit := true, committed := [], codePosted := false, waitFor := waits } }

/-- Rewrites the record and zeroes the code area (R386, Table 12.3). -/
def rewriteRecord (s : State) : State :=
  let n := s.ue.step
  let words := (List.range (ueRecordWords s)).map fun i =>
    if i = 0 then n else if i = 1 then 2 ^ 64 - 1 - n else if 2 ≤ i ∧ i ≤ 9 then fullMissing s (i - 2) else 0
  let s1 := writeMem s (ueRecordBase s) (words.map (leBytes 8)).flatten
  let s2 := writeMem s1 (ueCodeBase s) (List.replicate (8 * ueCodeWords s) 0)
  { s2 with ue := { s2.ue with reinit := false, waitFor := [], chan := [] } }

/-! ### Holds and checks of caravans (R377, R386, R388, R393) -/

/-- Whether a caravan is held in OPENING. -/
def ueHolds (s : State) (c : Caravan) : Bool :=
  let shard := fun (e : Nat × Nat × Nat) =>
    let k := bktAt s e.1
    meets c.d.src (32 * c.d.count) k.wcAddr (4 * (k.blocks / e.2.1) * fmtBits k.fmt)
  match c.role with
  | .bucket _ => s.ue.reinit
  | .commit => s.ue.reinit && !s.ue.waitFor.contains c.d.caravan
  | .code => s.ue.reinit && !s.ue.waitFor.contains c.d.caravan
  | .plain => c.d.kind == 3 && s.ue.converting && s.ue.convert.any shard

/-- The checks of R376, R377 and R388 at posting: the caravan's role, or the status that refuses it. -/
def ueClassify (s : State) (d : CollDesc) (m : Nat) : Nat ⊕ CvRole :=
  let exact := d.kind == 2 && d.mode == 0
  let commit := d.src == ueRecordBase s && decide (0 < ueRecordWords s) && d.kind != 5
  let code := d.src == ueCodeBase s && decide (0 < ueCodeWords s) && d.kind != 5
  if ueTableBad s && (exact || commit || code) then .inl 0x0307
  else
    match (if ueTableBad s || d.kind == 5 then none else (bkts s).find? fun e => e.2.caravan % 2 ^ 20 == d.caravan) with
    | some (i, k) =>
      if !bktUsable s i k m || !exact || d.count != k.blocks then .inl 0x0307
      else if d.step != s.ue.step || s.ue.committed.any (fun e => e.1 == i) then .inl 0x0308
      else .inr (.bucket i)
    | none =>
      let late := d.step != s.ue.step || missingSum s != 0
      if commit then
        if d.kind != 1 || d.mode != 2 || d.count != ueRecordWords s || d.dst != ueRecordBase s + 8 * ueRecordWords s then
          .inl 0x0307
        else if late || !s.ue.codePosted then .inl 0x0308 else .inr .commit
      else if code then
        if d.kind != 1 || d.mode != 1 || d.count != ueCodeWords s then .inl 0x0307
        else if late then .inl 0x0308 else .inr .code
      else .inr .plain

/-- The engines' reads of the bucket table, and for a commit or code caravan of the MISSING words, at a posting (R271; log
entry 901). -/
def noteTable (d : CollDesc) (s : State) : State :=
  let s1 := noteReads s (ueTableBase s) (96 * ueEntries s)
  if 0 < ueRecordWords s && (d.src == ueRecordBase s || d.src == ueCodeBase s) then noteReads s1 (ueRecordBase s + 16) 64 else s1

/-! ### The sign update (R379 to R384) -/

/-- FP32X. -/
def fp32x : FpFmt := ⟨8, 39, 127, 0⟩

/-- The sign of an integer as a value. -/
def signVal (p : Int) : Val := if p = 0 then .fin false 0 0 else .fin (decide (p < 0)) 1 0

/-- The new master, exactly formed and rounded once (R379). -/
def signUpdate (k : Bkt) (w : Val) (p : Int) : Nat :=
  let t := addV w (negV (mulV (fp32.decode k.eta) (signVal p)))
  let v := if k.decay then addV t (negV (mulV (fp32.decode k.etaLambda) w)) else t
  match v with
  | .fin n _ _ => if fp32x.saturates v then fp32x.maxBits n else fp32x.roundIeee .rne v
  | _ => fp32x.roundIeee .rne v

/-- A master's bits; poison where it faults. -/
def masterBits (s : State) (a : Nat) : Nat := if soundRange s a 6 then leNat (readBytes s a 6) else fp32x.poisonBits

/-- Folds a written master into the maximum of its channel, which the engine holds until the bucket's caravan ends
(Table 12.3, R387). -/
def foldChannel (k : Bkt) (e bits : Nat) (s : State) : State :=
  if fp32x.isNaN bits then s
  else
    let w := k.chmax + ((k.first + e) / k.rowLen - k.first / k.rowLen)
    { s with ue := { s.ue with chan := tput 0 s.ue.chan w (Nat.max (tget 0 s.ue.chan w) (bits % 2 ^ 47)) } }

/-- A bucket ends: where it commits, the maxima held for its channels fold into their words of the step record (R384, R387). -/
def settleChannels (k : Bkt) (ok : Bool) (s : State) : State :=
  (List.range k.channels).foldl (fun st c =>
    let w := k.chmax + c
    let v := tget 0 st.ue.chan w
    let a := ueRecordBase st + 8 * w
    let st1 := { st with ue := { st.ue with chan := tput 0 st.ue.chan w 0 } }
    if !ok || v = 0 then st1
    else
      let st2 := noteReads st1 a 8
      if memWord st2 a < v then writeWord st2 a v else st2) s

/-- The code a block's drain uses at the next step (R383). -/
def nextCode (b : Blk) : Nat := if b.zero || b.poison then b.x else Nat.min 0xFE (b.emax - 5)

/-- Writes one master of the owned segment: element j of block u, `first` the segment's first block. -/
def applyElem (k : Bkt) (first u : Nat) (b : Blk) (s : State) (j : Nat) : State :=
  let e := 32 * (u - first) + j
  let old := masterBits s (k.master s.ue.readCopy + 6 * e)
  let new := if b.poison then old else signUpdate k (fp32x.decode old) (if b.zero then 0 else lget 0 b.p j)
  foldChannel k (32 * u + j) new (writeJob s (k.master (!s.ue.readCopy) + 6 * e) (leBytes 6 new))

/-- Logs a block held under R382. -/
def holdBlock (i u stack : Nat) (s : State) : State :=
  let v := s.ue.faultLog
  let log := if v.getLsbD 63 then v else BitVec.ofNat 64 (u % 2 ^ 24 + i % 2 ^ 12 * 2 ^ 24 + 2 ^ 63)
  let s1 := { s with ue := { s.ue with counts := taddW s.ue.counts 1 1, poison := true, faultLog := log } }
  let a := ueRecordBase s + 8 * (10 + stack)
  writeWord s1 a (memWord s1 a ||| 1)

/-- A reduced block of bucket i's owned segment (R381 to R384). -/
def applyBlock (i m me u : Nat) (b : Blk) (s : State) : State :=
  let k := bktAt s i
  let s1 := writeMem s (ueCodeBase s + k.code + u) [BitVec.ofNat 8 (nextCode b)]
  if k.cell then s1
  else
    let s2 := (List.range 32).foldl (applyElem k (me * k.blocks / m) u b)
      (noteReads s1 (k.master s1.ue.readCopy + 192 * (u - me * k.blocks / m)) 192)
    if b.poison then holdBlock i u (k.caravan % 8) s2
    else { s2 with ue := { s2.ue with counts := taddW s2.ue.counts 0 1 } }

/-- Blocks of an owned segment. -/
def Bkt.owned (k : Bkt) (m me : Nat) : Nat := (me + 1) * k.blocks / m - me * k.blocks / m

/-- The commit caravan opens: the write copies of CELL buckets fold into the record (R384). -/
def foldCells (s : State) : State :=
  s.ue.committed.foldl (fun st e =>
    let k := bktAt st e.1
    if !k.cell then st
    else
      let first := e.2.2 * k.blocks / e.2.1
      settleChannels k true <| (List.range (32 * k.owned e.2.1 e.2.2)).foldl (fun st' j =>
        foldChannel k (32 * first + j) (masterBits st' (k.master (!st'.ue.readCopy) + 6 * j)) st')
        (noteReads st (k.master (!st.ue.readCopy)) (192 * k.owned e.2.1 e.2.2))) s

/-! ### Ends (R387, R389) -/

/-- The step commits, or the attempt has failed (R389). -/
def endStep (ok : Bool) (c : Caravan) (s0 : State) : State :=
  let s := if ok then noteReads s0 c.d.dst 80 else s0
  let n := s.ue.step
  let w := fun i => memWord s (c.d.dst + 8 * i)
  let good := ok && w 0 == n && w 1 == 2 ^ 64 - 1 - n && (List.range 8).all fun i => w (2 + i) == 0
  if good then
    let conv := s.ue.committed.filter fun e => (bktAt s e.1).wcEn
    startAttempt { s with ue := { s.ue with
      step := (n + 1) % 2 ^ 32, readCopy := !s.ue.readCopy, converting := !conv.isEmpty, convert := conv,
      counts := taddW s.ue.counts 2 1 } }
  else startAttempt { s with ue := { s.ue with commitFail := true, counts := taddW s.ue.counts 3 1 } }

/-- What the update engine does when a caravan ends. -/
def ueEnded (c : Caravan) (ok : Bool) (s : State) : State :=
  match c.role with
  | .bucket i =>
    let s0 := settleChannels (bktAt s i) (ok && !s.ue.reinit) s
    if !ok then s0
    else
      let a := ueRecordBase s0 + 8 * (2 + (bktAt s0 i).caravan % 8)
      let s1 := if s0.ue.reinit then s0 else writeWord s0 a (memWord s0 a - 1)
      { s1 with ue := { s1.ue with committed := s1.ue.committed ++ [(i, c.m, c.me)] } }
  | .commit => endStep ok c s
  | _ => s

/-! ### Working copies (R392) -/

/-- s of a channel: the least with M_c × 2^-s within the format, clamped; `mc` is an FP32X pattern (R111, R392). -/
def weightScale (fmt mc : Nat) : Int :=
  let top : Nat × Int := match fpFmt fmt with
    | some f => f.top
    | none => (127, 0)
  match fp32x.decode mc with
  | .fin _ m e =>
    if m = 0 then 0
    else
      let ok := fun (i : Nat) => !magLt top (m, e - ((i : Int) - 127))
      match (List.range 255).find? ok with
      | some i => (i : Int) - 127
      | none => 127
  | _ => 127

/-- The reduced channel word of a bucket's channel; a faulting one counts as infinite. -/
def reducedWord (s : State) (k : Bkt) (c : Nat) : Nat :=
  let a := ueRecordBase s + 8 * ueRecordWords s + 8 * (k.chmax + c)
  if soundRange s a 8 then memWord s a % 2 ^ 48 else fp32x.poisonBits

/-- Converts element e of a bucket's owned segment: the result of the WEIGHT drain's steps. -/
def convertElem (s : State) (k : Bkt) (first e : Nat) : Drained :=
  let g := k.first + 32 * first + e
  let c := g / k.rowLen - k.first / k.rowLen
  let sc := weightScale k.fmt (reducedWord s k c)
  let v := match fp32x.decode (masterBits s (k.master s.ue.readCopy + 6 * e)) with
    | .fin n m x => Val.fin n m (x - sc)
    | w => w
  let index := s.ue.step % 2 ^ 24 * 2 ^ 40 + g % 2 ^ 40
  let md : RMode := match k.mode with
    | 0 => .rne
    | 1 => .rtz
    | _ => .sr (dice s.fb.jobSeed (BitVec.ofNat 32 k.tensor) (BitVec.ofNat 64 index)).toNat
  drainTo k.fmt md v false

/-- Packs elements of w bits into bytes (R92). -/
def packBits (w : Nat) (l : List Nat) : List Byte :=
  let n := l.foldr (fun v acc => acc * 2 ^ w + v % 2 ^ w) 0
  leBytes ((l.length * w + 7) / 8) n

/-- Converts one bucket: its shard, and the codes of all its channels (R392). -/
def convertBucket (s : State) (b : Nat × Nat × Nat) : State :=
  let k := bktAt s b.1
  let first := b.2.2 * k.blocks / b.2.1
  let w := fmtBits k.fmt
  let es := (List.range (32 * k.owned b.2.1 b.2.2)).map (convertElem s k first)
  let s0 := noteReads (noteReads s (k.master s.ue.readCopy) (6 * es.length))
    (ueRecordBase s + 8 * ueRecordWords s + 8 * k.chmax) (8 * k.channels)
  let s1 := writeJob s0 k.wcAddr (packBits w (es.map (·.bits)))
  let noCode := k.fmt == 6 || k.fmt == 7
  let s2 := ((List.range es.length).zip es).foldl (fun st e =>
    let a := (k.wcAddr + e.1 * w / 8) / 32 * 32
    if noCode && e.2.poison && isMemory a && addrKind a != .retained && !deadSub st a then setSectorPoison st a true else st) s1
  let n := fun (i : Nat) => (es.filter fun e => e.counts.contains i).length
  let bad := (es.filter fun e => e.counts.contains 66 || e.counts.contains 67).length
  let codes := (List.range k.channels).map fun c =>
    BitVec.ofNat 8 (weightScale k.fmt (reducedWord s k c) + 127).toNat
  let s3 := writeJob s2 (k.scaleAddr + k.first / k.rowLen) codes
  { s3 with ue := { s3.ue with counts := taddW (taddW (taddW s3.ue.counts 4 (n 64)) 5 (n 65)) 6 bad } }

/-- Brings the order for staging up to date: a held caravan leaves it; one whose hold has ended joins behind (R346). -/
def orderCaravans (s : State) : State :=
  let free := s.cl.caravans.filter fun c => c.state == .opening && !ueHolds s c
  let ids := free.map fun c => c.d.caravan
  let kept := s.cl.order.filter fun i => ids.contains i
  { s with cl := { s.cl with order := kept ++ ids.filter fun i => !kept.contains i } }

/-- WORKING_COPY_DONE (R392, R393). -/
def execWorkingCopyDone (s : State) : Out :=
  .next <|
    whenTaken s.ue.converting (fun st =>
      let s1 := st.ue.convert.foldl convertBucket st
      orderCaravans { s1 with ue := { s1.ue with converting := false, convert := [] } }) s

/-- ATTEMPT_START (R386). -/
def execAttemptStart (s : State) : Out :=
  .next <|
    whenTaken (s.ue.reinit && s.cl.caravans.all fun c => c.state != .opening || !s.ue.waitFor.contains c.d.caravan)
      (fun st => orderCaravans (rewriteRecord st)) s

end Sys2Proof.Machine
end

