-- ==== Sys2Proof/Machine/Tile.lean ====
section
/-!
DEFINITION. The matrix tile: streamed and stationary operands, products in the reference order, mirror operations, the
adjoint gate at the tile, and BANK_LOAD (R47 to R54, R62, R65, R130, R241 to R244, R250 to R253).
-/

namespace Sys2Proof.Machine

open Sys2Proof

/-- Whether a cell works now: a phase runs on its core and no halt holds its die (R30). -/
def cellRuns (s : State) (cell : Nat) : Bool :=
  (getCore s (coreOfCell cell)).phase.isSome && !dieHalted s (dieOfCell cell)

/-! ### Operands -/

/-- A tile operand: its encoding and poison mark. -/
structure TileOp where
  bits : Nat
  poison : Bool
  deriving DecidableEq, Repr, Inhabited

/-- The value of a tile operand in a format; INT8 is a two's-complement integer. -/
def tileVal (fmt : Nat) (x : TileOp) : Val :=
  if x.poison then .poison
  else
    match fpFmt fmt with
    | some f => f.decode x.bits
    | none => ofSigned (signedOf 8 x.bits) 0

/-- An element of a packed array in a cell store (R92). -/
def storeOp (s : State) (cell base fmt i : Nat) : TileOp :=
  let n := fmtBits fmt
  { bits := storeBits s cell base (i * n) n, poison := storeBitPoison s cell base (i * n) n }

/-- Whether the role in force holds A stationary (and streams B). -/
def Ctx.streamsB (x : Ctx) : Bool := x.role == 2 || x.role == 3

/-- Format of the streamed and of the stationary operand. -/
def Ctx.streamFmt (x : Ctx) : Nat := if x.streamsB then x.fmtB else x.fmtA
def Ctx.statFmt (x : Ctx) : Nat := if x.streamsB then x.fmtA else x.fmtB

/-- Index in the stationary array of the element at forward contraction index k and output index o (row of A for STAT_A,
column of B for STAT_B), by stored role (Table 2.4; log entry 31). -/
def statIndex (role kLen k o : Nat) : Nat :=
  match role with
  | 0 => 8 * k + o
  | 1 => o * kLen + k
  | 2 => o * kLen + k
  | _ => 4 * k + o

/-- Whether the context runs transposed operations: a mirror context of a stationary role (Table 8.2). -/
def Ctx.transposed (x : Ctx) : Bool := x.reverse && decide (x.storedRole ≤ 3)

/-- Whether the stored role keeps A stationary. -/
def Ctx.storesA (x : Ctx) : Bool := x.storedRole == 2 || x.storedRole == 3

/-- Input queue of the streamed operand: 0 tile A, 1 tile B. -/
def Ctx.streamQ (x : Ctx) : Nat := if x.streamsB then 1 else 0

/-- Streamed elements of an operation: per K step 4 of A or 8 of B; 12 for STREAM_BOTH; the 32 gradients of a block for a
transposed operation. -/
def Ctx.perStep (x : Ctx) : Nat := if x.streamsB then 8 else 4

/-- Transposed operations of one block (Table 8.2).  A REVERSE frame of a stored transposed role may have any K, for which the
table names no last operation: its last one covers the indices that remain (DESIGN CHOICE, log entry 216). -/
def Ctx.blockOps (x : Ctx) : Nat := if x.storesA then (x.kLen + 3) / 4 else (x.kLen + 7) / 8

/-- Operations of the tile completed since phase start. -/
def opsDone (x : Ctx) (c : Cell) : Nat :=
  if x.transposed then c.kDone
  else if x.role = 4 then c.kDone / x.kLen
  else c.kDone / (x.kLen * x.perStep)

/-- Whether a completed operation's bank still waits for its drain, so that no further result may enter it (R64). -/
def drainDue (x : Ctx) (c : Cell) : Bool :=
  x.dsrc == 1 && x.dbank == x.tileBank && decide (c.drainN < 32 * opsDone x c)

/-! ### The gate at the tile -/

/-- Row and column factor 2^m of the gate for forward position (r, col): a value it scales; a poisoned table entry poisons
it (R95, R251, R253). -/
def gateScale (x : Ctx) (c : Cell) (r col : Nat) (v : Val) : Val :=
  let by' := fun (k : Nat) (w : Val) =>
    if tget 0 c.table (32 + k) ≠ 0 then .poison else scaleByCode (tget 0 c.table k).toNat w
  let v1 := if x.rowScaleEn then by' r v else v
  if x.colScaleEn then by' (4 + col) v1 else v1

/-- Whether a tape entry is poisoned: a mark of it, or its value read in the format TOPK_FMT (R247, R250). -/
def tapeBad (x : Ctx) (t : Elem) : Bool :=
  t.poison || t.tapePoison ||
    match fpFmt x.topkFmt with
    | some f => f.isPoison t.bits.toNat
    | none => false

/-- What the gate takes of a tape entry: whether it is poisoned, and its clip mask. -/
def gateOf (x : Ctx) (t : Elem) : Bool × Bool := (tapeBad x t, t.clip)

/-- A product under the gate (R251): poison of the tape entry poisons it, its clip mask makes the gradient +0, and 2^m scales
the product exactly. -/
def gatedProduct (x : Ctx) (c : Cell) (r col : Nat) (tape : Option (Bool × Bool)) (g other : Val) : Val :=
  match tape with
  | none => mulV g other
  | some (bad, clip) =>
    if g == .poison || bad then .poison
    else if clip then mulV (.fin false 0 0) other
    else gateScale x c r col (mulV g other)

/-! ### Accumulating -/

/-- Whether the context's bank holds INT8 sums. -/
def Ctx.intTile (x : Ctx) : Bool := x.fmtA == 7

/-- An INT8 operand as an integer. -/
def intOf (v : Val) : Int :=
  match v with
  | .fin n m e => signedAt n m e 0
  | _ => 0

/-- A term enters the sum of a position (R48, R49). -/
def tileTerm (int : Bool) (a : AccRun) (v : Val) : AccRun :=
  if int then
    if v == .poison then { a with poison := true } else { a with int := a.int + BitVec.ofInt 64 (intOf v) }
  else a.term fp32 v

/-- Adds the terms of one step: position and value of each. -/
def addTerms (int : Bool) (t : Tbl AccRun) (terms : List (Nat × Val)) : Tbl AccRun :=
  terms.foldl (fun t e => tput AccRun.empty t e.1 (tileTerm int (tget AccRun.empty t e.1) e.2)) t

/-- The final value of a position on the tile's output: s + e rounded once by RNE to FP32 (R126; log entry 32). -/
def tileOutElem (int : Bool) (e : Entry) : Elem :=
  let p : Pair := ⟨e.s.setWidth 64, e.e.setWidth 64⟩
  let b := if e.poison then fp32.poisonBits else if int then e.s.toNat else fp32.roundIeee .rne (finalV fp32 p)
  { bits := BitVec.ofNat 64 b, fmt := 1, poison := e.poison, clip := false, tapePoison := false }

/-- Ends a tile operation: every position's sum enters its bank entry by the start flag, and the tile output carries the
entries where a route takes it (R62). -/
def endOperation (cell : Nat) (s : State) : State :=
  let c := getCell s cell
  let x := c.act
  let put := fun (d : Cell) (i : Nat) =>
    let a := tget AccRun.empty c.tile i
    let old := bankEntry d x.tileBank i
    let e := if x.intTile then entryPutInt old x.startAdd a.int a.poison
             else entryPut old x.startAdd ((a.result fp32).getD (mkPair 0 0)) a.poison
    setBankEntry d x.tileBank i e
  let c1 := { (List.range 32).foldl put c with tile := [] }
  let s1 := setCell s cell c1
  if x.legs.any fun l => l.src == 5 then
    (List.range 32).foldl (fun st i => routeFrom routeFuel cell 5 (tileOutElem x.intTile (bankEntry c1 x.tileBank i)) st) s1
  else s1

/-! ### Streamed elements -/

/-- The next `n` elements of an input, or none where they have not arrived. -/
def headsOf (s : State) (cell q n : Nat) : Option (List Elem) :=
  let l := tget [] (getCell s cell).inq q
  if n ≤ l.length then some (l.take n) else none

/-- Takes `n` elements from an input. -/
def takeHeads (s : State) (cell q n : Nat) : State :=
  modCell s cell fun c => { c with inq := tput [] c.inq q ((tget [] c.inq q).drop n) }

/-- Sink number of an input: queue 5 holds what came to wide I2. -/
def sinkOf (q : Nat) : Nat := if q = 5 then 8 else q + 4

/-- Fills an input with `n` elements from the store read ports that feed it, where they do. -/
def fillTo (cell q fmt : Nat) : Nat → State → State
  | 0, s => s
  | n + 1, s =>
    if (storeFeeders s routeFuel cell (sinkOf q)).isEmpty then s
    else
      let s1 := (storeFeeders s routeFuel cell (sinkOf q)).foldl (fun st c => storeEmit st c fmt) s
      fillTo cell q fmt n s1

/-- Makes `n` elements of an input available where the cell store supplies them. -/
def needInput (s : State) (cell q fmt n : Nat) : State :=
  fillTo cell q fmt (n - (tget [] (getCell s cell).inq q).length) s

/-- A streamed element with its number in the operation: from the switch box, or from the cell store at STREAM_BASE. -/
def streamedAt (s : State) (cell : Nat) (x : Ctx) (q idx : Nat) (fmt : Nat) : Option (TileOp × State) :=
  if x.streamFromStore then some (storeOp s cell x.streamBase fmt idx, s)
  else
    let s1 := needInput s cell q fmt 1
    match headsOf s1 cell q 1 with
    | some (e :: _) => some ({ bits := e.bits.toNat, poison := e.poison }, takeHeads s1 cell q 1)
    | _ => none

/-- The tape entry that pairs with the next gradient of a gated context; none while it has not arrived (R250). -/
def tapeHead (s : State) (cell : Nat) (x : Ctx) : Option (Option Elem × State) :=
  if x.gated then
    let s1 := needInput s cell 4 x.topkFmt 1
    match headsOf s1 cell 4 1 with
    | some (t :: _) => some (some t, takeHeads s1 cell 4 1)
    | _ => none
  else some (none, s)

/-- A streamed element of a stationary role in its forward shape: one term for each position it meets (R48, R53). -/
def forwardElement (cell : Nat) (s : State) : State :=
  let c := getCell s cell
  let x := c.act
  let per := x.perStep
  let idx := c.kDone % (x.kLen * per)
  if decide (idx + 1 = x.kLen * per) && drainDue x c then s
  else
    match streamedAt s cell x x.streamQ idx x.streamFmt with
    | none => s
    | some (op, s1) =>
      let k := idx / per
      let o := idx % per
      let v := tileVal x.streamFmt op
      let term := fun (j : Nat) =>
        let st := storeOp s1 cell x.statBase x.statFmt (statIndex x.role x.kLen k j)
        let w := tileVal x.statFmt st
        if x.streamsB then (8 * j + o, mulV w v) else (8 * o + j, mulV v w)
      let terms := (List.range (if x.streamsB then 4 else 8)).map term
      let s2 := modCell (countAct (dieOfCell cell) 1 terms.length s1) cell fun d =>
        { d with tile := addTerms x.intTile d.tile terms, kDone := d.kDone + 1 }
      if idx + 1 = x.kLen * per then endOperation cell s2 else s2

/-- One K step of STREAM_BOTH, with A from the cell store and B from the switch box where STREAM_FROM_STORE is set (DESIGN CHOICE:
the spec does not say which operand comes from the store, log entry 215): four elements of A and eight of B (Table 2.4); in a mirror context the inputs are exchanged
and the gradients pass the gate (R244, R250). -/
def bothStep (cell : Nat) (s : State) : State :=
  let c := getCell s cell
  let x := c.act
  let k := c.kDone % x.kLen
  if decide (k + 1 = x.kLen) && drainDue x c then s
  else
    let qa := if x.reverse then 1 else 0
    let fromStore := x.streamFromStore
    let s1 := if fromStore then s else needInput s cell qa x.fmtA 4
    let s2 := needInput s1 cell (1 - qa) x.fmtB 8
    let s3 := if x.gated then needInput s2 cell 4 x.topkFmt 8 else s2
    let aOps := if fromStore then some ((List.range 4).map fun i => storeOp s3 cell x.streamBase x.fmtA (4 * k + i))
                else (headsOf s3 cell qa 4).map fun l => l.map fun e => ({ bits := e.bits.toNat, poison := e.poison } : TileOp)
    let tapes := if x.gated then (headsOf s3 cell 4 8).map fun l => l.map fun t => some (gateOf x t) else some (List.replicate 8 none)
    match aOps, headsOf s3 cell (1 - qa) 8, tapes with
    | some la, some lb, some lt =>
      let s4 := if fromStore then s3 else takeHeads s3 cell qa 4
      let s5 := takeHeads s4 cell (1 - qa) 8
      let s6 := if x.gated then takeHeads s5 cell 4 8 else s5
      let terms := ((List.range 4).map fun r => (List.range 8).map fun j =>
        let e := lget default lb j
        let g := tileVal x.fmtB { bits := e.bits.toNat, poison := e.poison }
        let w := tileVal x.fmtA (lget default la r)
        let n := 8 * k + j
        (8 * r + j, gatedProduct x c (n / 8 % 4) (n % 8) (lget none lt j) g w)).flatten
      let s7 := modCell (countAct (dieOfCell cell) 1 terms.length s6) cell fun d => { d with tile := addTerms x.intTile d.tile terms, kDone := d.kDone + 1 }
      if k + 1 = x.kLen then endOperation cell s7 else s7
    | _, _, _ => s

/-- Runs transposed operation `b` of the block of gradients held (Table 8.2): one chunk per position, in ascending
contraction index. -/
def transposedOp (cell b : Nat) (s : State) : State :=
  let c := getCell s cell
  let x := c.act
  let grad := fun (r j : Nat) => lget default c.grads (8 * r + j)
  let product := fun (r j : Nat) (st : Nat) =>
    let e := grad r j
    let g := tileVal x.streamFmt { bits := e.bits.toNat, poison := e.poison }
    let w := tileVal x.statFmt (storeOp s cell x.statBase x.statFmt st)
    let tape := if x.gated then some (e.tapePoison, e.clip) else none
    gatedProduct x c r j tape g w
  let terms := ((List.range 32).map fun p =>
    let i := p / 8
    let j := p % 8
    if x.kLen ≤ (if x.storesA then 4 * b + i else 8 * b + j) then []
    else if x.storesA then
      (List.range 4).map fun r => (p, product r j (statIndex x.storedRole x.kLen (4 * b + i) r))
    else
      (List.range 8).map fun q => (p, product i q (statIndex x.storedRole x.kLen (8 * b + j) q))).flatten
  let s1 := modCell (countAct (dieOfCell cell) 1 terms.length s) cell fun d =>
    let last := decide (b + 1 = x.blockOps)
    { d with tile := addTerms x.intTile d.tile terms, kDone := d.kDone + 1,
             gradBlock := if last then 0 else b + 1, grads := if last then [] else d.grads }
  endOperation cell s1

/-- A gradient as the tile holds it: for a gated context its tape entry's clip mask and poison stand in the sidebands, the
entry's own poison in `tapePoison` (R250, R251). -/
def heldGradient (x : Ctx) (op : TileOp) (tape : Option Elem) : Elem :=
  let g := (tape.map (gateOf x)).getD (false, false)
  { bits := BitVec.ofNat 64 op.bits, fmt := x.streamFmt, poison := op.poison, clip := g.2, tapePoison := g.1 }

/-- A gradient arrives at a transposed operation, or the next operation of the block held runs. -/
def gradientElement (cell : Nat) (s : State) : State :=
  let c := getCell s cell
  let x := c.act
  if 32 ≤ c.grads.length then
    if drainDue x c then s else transposedOp cell c.gradBlock s
  else if decide (c.grads.length = 31) && drainDue x c then s
  else
    match tapeHead s cell x with
    | none => s
    | some (tape, s0) =>
      match streamedAt s0 cell x x.streamQ c.grads.length x.streamFmt with
      | none => s
      | some (op, s1) =>
        let s2 := modCell s1 cell fun d => { d with grads := d.grads ++ [heldGradient x op tape] }
        if c.grads.length = 31 then transposedOp cell 0 s2 else s2

/-- STREAMED_OPERAND (R48 to R54, R241 to R253). -/
def execStreamedOperand (cell : Nat) (s : State) : Out :=
  guardUnit (decide (cell < Config.numCells)) (
    let x := (getCell s cell).act
    whenTaken (cellRuns s cell && x.tileEn && decide (x.role ≤ 4)) (fun st =>
      if x.role = 4 then bothStep cell st
      else if x.transposed then gradientElement cell st
      else forwardElement cell st) s)

/-- Whether a raw word is poisoned: its mark, or its encoding, whatever the bank holds (R130). -/
def rawPoison (e : Elem) : Bool := e.poison || fp32.isPoison (e.bits.toNat % 2 ^ 32)

/-- BANK_LOAD (R65, R130): the next raw pair goes into its entry bit for bit. -/
def execBankLoad (cell : Nat) (s : State) : Out :=
  guardUnit (decide (cell < Config.numCells)) (
    let c := getCell s cell
    let x := c.act
    whenTaken (cellRuns s cell && x.tileEn && x.role == 5) (fun st =>
      let put := fun (a b : Elem) (t : State) => modCell t cell fun d =>
        { setBankEntry d x.tileBank (d.kDone % 32)
            { s := a.bits.setWidth 32, e := b.bits.setWidth 32, poison := rawPoison a } with kDone := d.kDone + 1 }
      if x.streamFromStore then
        let w := fun i => storeOp st cell x.streamBase 1 (2 * (c.kDone % 32) + i)
        let el := fun (o : TileOp) =>
          ({ bits := BitVec.ofNat 64 o.bits, fmt := 1, poison := o.poison, clip := false, tapePoison := false } : Elem)
        put (el (w 0)) (el (w 1)) st
      else
        let s1 := needInput st cell 0 1 2
        match headsOf s1 cell 0 2 with
        | some (a :: b :: _) => put a b (takeHeads s1 cell 0 2)
        | _ => st) s)

end Sys2Proof.Machine
end

