-- ==== Sys2Proof/Machine/Wide.lean ====
section
/-!
DEFINITION. The wide unit: the widening path, the gate on wide I0, the element-operation chain, reductions and top-k
(R55 to R62, R82, R100, R101, R119, R127 to R130, R137 to R140, R250 to R253, R256).
-/

namespace Sys2Proof.Machine

open Sys2Proof

/-- A BSI partial of `w` bits scaled by its block's code, which stands above it (R97, R98). -/
def bsiVal (w bits : Nat) : Val :=
  let x := bits / 2 ^ w % 256
  if x = 255 then defaultNaN else ofSigned (signedOf w bits) ((x : Int) - 127)

/-- Value of an element on the widening path (R98, R100, R101). -/
def elemVal (fmt : Nat) (bits : Nat) : Val :=
  match fpFmt fmt with
  | some f => f.decode bits
  | none =>
    match fmt with
    | 9 => bsiVal 24 bits
    | 10 => bsiVal 48 bits
    | _ => ofSigned (signedOf 8 bits) 0

/-- Widens an element to FP32 or FP64 (R57, R101). -/
def widen (src dst : Nat) (a : Opnd) : Opnd :=
  match fpFmt dst with
  | none => a
  | some f =>
    let v := elemVal src a.bits
    if a.poison || v == .poison then ⟨f.poisonBits, true⟩ else ⟨f.roundIeee .rne v, false⟩

/-- Format of the chain's lanes. -/
def Ctx.wf (x : Ctx) : FpFmt := (fpFmt x.wcode).getD fp64

/-- Rounding mode of the chain (Table 3.6 codes 0 and 1). -/
def Ctx.chainMode (x : Ctx) : RMode := if x.chainRmode = 1 then .rtz else .rne

/-- Operation words in use. -/
def Ctx.chainOps (x : Ctx) : List W32 := x.chain.take x.chainLen

/-- Whether an operation of the chain reads operand code `k`. -/
def Ctx.reads (x : Ctx) (k : Nat) : Bool :=
  x.chainOps.any fun w => opCode w != 0 && (opA w == k || opB w == k || opC w == k)

/-- The gate on wide I0 (R251 to R253): exact scaling, one rounding to the chain's format. -/
def gateWide (x : Ctx) (c : Cell) (n : Nat) (tape : Option Elem) (g : Opnd) : Opnd :=
  let f := x.wf
  match tape with
  | none => g
  | some t =>
    if g.poisoned f || tapeBad x t then ⟨f.poisonBits, true⟩
    else if t.clip then ⟨0, false⟩
    else ⟨f.roundIeee .rne (gateScale x c (n / 8 % 4) (n % 8) (g.val f)), false⟩

/-- Lane inputs of one element of the chain: I0 as it came, I0 after widening and gate, I1, I2. -/
structure LaneIn where
  i0 : Opnd
  i0w : Opnd
  i1 : Opnd
  i2 : Opnd
  deriving DecidableEq, Repr

/-- An absent input. -/
def Opnd.none_ : Opnd := ⟨0, false⟩

/-- An element as an operand. -/
def Elem.toOpnd (e : Elem) : Opnd := ⟨e.bits.toNat, e.poison⟩

/-- Whether the wide unit's I0 is the stage input, so that a gated context's gate stands there (R250, Table 8.1). -/
def Ctx.gatesWide (x : Ctx) : Bool := x.gated && !x.tileEn

/-- Whether WIDEN_SRC names a BSI format. -/
def Ctx.widensBsi (x : Ctx) : Bool := x.widenEn && (x.widenSrc == 9 || x.widenSrc == 10)

/-- Format in which an element enters the widening path: WIDEN_SRC, or for a BSI source the form its block bears (R98). -/
def Ctx.widenFrom (x : Ctx) (e : Elem) : Nat := if x.widensBsi && (e.fmt == 9 || e.fmt == 10) then e.fmt else x.widenSrc

/-- Lane `i` of the inputs taken. -/
def laneIn (x : Ctx) (c : Cell) (l0 l1 l2 : List Elem) (i : Nat) : LaneIn :=
  let e0 := (l0[i]?).map Elem.toOpnd |>.getD Opnd.none_
  let e1 := (l1[i]?).map Elem.toOpnd |>.getD Opnd.none_
  let w0 := match l0[i]? with
    | some e => if x.widenEn then widen (x.widenFrom e) x.widenDst e0 else e0
    | none => e0
  let g := gateWide x c (c.chainN + i) (if x.gatesWide then l2[i]? else none) w0
  let e2 := match l2[i]? with
    | some t => if x.gated then widen x.topkFmt x.wcode ⟨t.bits.toNat, t.poison || t.tapePoison⟩ else t.toOpnd
    | none => Opnd.none_
  { i0 := if x.gatesWide then g else e0, i0w := g, i1 := e1, i2 := e2 }

/-- The queue of I2: beside a gated tile the chain has its own copy of the tape entries. -/
def Ctx.i2Queue (x : Ctx) : Nat := if x.splitsTape then 5 else 4

/-- Inputs the wide unit takes for one element: which of I0, I1, I2. -/
def Ctx.takes (x : Ctx) (q : Nat) : Bool :=
  match q with
  | 2 => x.gatesWide || x.reads 0x28 || x.reads 0x2B || !(x.reads 0x29 || x.reads 0x2A)
  | 3 => x.reads 0x29
  | _ => x.gatesWide || x.reads 0x2A

/-- Source format of an input. -/
def Ctx.inFmt (x : Ctx) (q : Nat) : Nat :=
  if q = 2 && x.widenEn then x.widenSrc else if (q = 4 || q = 5) && x.gated then x.topkFmt else x.wcode

/-- The first 200 bytes that came along a route as one BSI block: its 32 elements, each with the block's code (R98, R101). -/
def unpackBsi (l : List Elem) : List Elem :=
  let at' := fun (i : Nat) => (lget default l i).bits.toNat % 256
  let bad := fun (i : Nat) => (lget default l i).poison
  let esc := (at' 193).testBit 0
  let w := if esc then 6 else 3
  let lost := (at' (32 * w + 1)).testBit 1 || bad (32 * w) || bad (32 * w + 1)
  (List.range 32).map fun i =>
    let p := (List.range w).foldl (fun n k => n + at' (w * i + k) * 256 ^ k) 0
    { bits := BitVec.ofNat 64 (p + at' (32 * w) * 256 ^ w), fmt := if esc then 10 else 9,
      poison := lost || (List.range w).any fun k => bad (w * i + k), clip := false, tapePoison := false }

/-- A routed BSI block at the head of wide I0 becomes its elements once all its bytes have arrived (log entry 207). -/
def openBsi (cell : Nat) (x : Ctx) (s : State) : State :=
  let l := tget [] (getCell s cell).inq 2
  if x.widensBsi && (l.head?.map Elem.fmt) == some 11 && 200 ≤ l.length then
    modCell s cell fun c => { c with inq := tput [] c.inq 2 (unpackBsi (l.take 200) ++ l.drop 200) }
  else s

/-- Whether the head of wide I0 is a byte of a BSI block of which more is to come. -/
def bsiOpen (cell : Nat) (x : Ctx) (s : State) : Bool :=
  x.widensBsi && ((tget [] (getCell s cell).inq 2).head?.map Elem.fmt) == some 11

/-- Takes one packed word's elements from every input the chain needs; none while they have not arrived (R54). -/
def takeWide (s : State) (cell : Nat) (x : Ctx) : Option (List LaneIn × State) :=
  let n := x.wpack
  let k := x.i2Queue
  let need := fun (st : State) (q : Nat) => if x.takes q then needInput st cell q (x.inFmt q) n else st
  let s1 := openBsi cell x (need (need (need s 2) 3) k)
  if x.takes 2 && bsiOpen cell x s1 then none
  else
    let heads := fun (q : Nat) => if x.takes q then headsOf s1 cell q n else some []
    match heads 2, heads 3, heads k with
    | some l0, some l1, some l2 =>
      let drop := fun (st : State) (q : Nat) => if x.takes q then takeHeads st cell q n else st
      let s2 := drop (drop (drop s1 2) 3) k
      let lanes := (List.range n).map (laneIn x (getCell s cell) l0 l1 l2)
      some (lanes, modCell s2 cell fun c => { c with chainN := c.chainN + n })
    | _, _, _ => none

/-! ### The chain -/

/-- Working values of one element: temporaries and the values written to OUT and RED, lane by lane. -/
structure ChainRun where
  cell : Cell
  temps : Tbl (List Opnd)
  out : Option (List Opnd)
  red : Option (List Opnd)
  sats : Nat
  deriving DecidableEq, Repr

/-- Lane width in bits. -/
def Ctx.laneBits (x : Ctx) : Nat := fmtBits x.wcode

/-- Lanes of a cell register. -/
def qLanes (x : Ctx) (c : Cell) (q : Nat) : List Opnd :=
  (List.range x.wpack).map fun i =>
    ⟨(tget 0 c.q q).toNat / 2 ^ (x.laneBits * i) % 2 ^ x.laneBits, tget false c.qPoison (8 * q + i)⟩

/-- Writes lanes into a cell register. -/
def putLanes (x : Ctx) (c : Cell) (q : Nat) (l : List Opnd) : Cell :=
  let v := l.foldr (fun o acc => o.bits % 2 ^ x.laneBits + 2 ^ x.laneBits * acc) 0
  { c with q := tput 0 c.q q (BitVec.ofNat 64 v),
           qPoison := (List.range 8).foldl (fun t i => tput false t (8 * q + i) (lget Opnd.none_ l i).poison) c.qPoison }

/-- An operand of the chain by its code (Table 7.8). -/
def chainOperand (x : Ctx) (ins : List LaneIn) (r : ChainRun) (k : Nat) : List Opnd :=
  if k < 0x20 then qLanes x r.cell k
  else if k < 0x28 then (r.temps.find? fun e => e.1 == k).map Prod.snd |>.getD (List.replicate x.wpack Opnd.none_)
  else
    match k with
    | 0x28 => ins.map (·.i0)
    | 0x29 => ins.map (·.i1)
    | 0x2A => ins.map (·.i2)
    | 0x2B => ins.map (·.i0w)
    | _ => List.replicate x.wpack Opnd.none_

/-- All ones in a lane. -/
def Ctx.ones (x : Ctx) : Nat := 2 ^ x.laneBits - 1

/-- One lane of an element operation (Table 2.6, R119); the second part counts a saturation of a packed FP8 result. -/
def chainLane (x : Ctx) (w : W32) (a b c : Opnd) : Opnd × Nat :=
  let f := x.wf
  let md := x.chainMode
  let sat := fun (v : Val) (bad : Bool) => if x.wpack = 8 && !bad && f.saturates v then 1 else 0
  let bad2 := a.poisoned f || b.poisoned f
  match opCode w with
  | 1 => (elemAdd f md a b, sat (addV (a.val f) (b.val f)) bad2)
  | 2 => (elemMul f md a b, sat (mulV (a.val f) (b.val f)) bad2)
  | 3 => (elemFma f md a b c, sat (fmaV (a.val f) (b.val f) (c.val f)) (bad2 || c.poisoned f))
  | 4 =>
    let m := elemCmp f (opPred w) a b
    (⟨if m.1 then x.ones else 0, m.2⟩, 0)
  | 5 => (if a.poison then ⟨f.poisonBits, true⟩ else if a.bits = x.ones then b else c, 0)
  | 6 => (elemMinMax f false a b, 0)
  | _ => (elemMinMax f true a b, 0)

/-- Writes a result to its destination (Table 7.8). -/
def chainWrite (x : Ctx) (d : Nat) (v : List Opnd) (r : ChainRun) : ChainRun :=
  if d < 0x20 then { r with cell := putLanes x r.cell d v }
  else if d < 0x28 then { r with temps := (d, v) :: r.temps.filter fun e => e.1 != d }
  else if d = 0x30 then { r with out := some v }
  else if d = 0x31 then { r with red := some v }
  else r

/-- Runs one operation word. -/
def chainOp (x : Ctx) (ins : List LaneIn) (r : ChainRun) (w : W32) : ChainRun :=
  if opCode w = 0 then r
  else
    let a := chainOperand x ins r (opA w)
    let b := chainOperand x ins r (opB w)
    let c := chainOperand x ins r (opC w)
    let rs := (List.range x.wpack).map fun i =>
      chainLane x w (lget Opnd.none_ a i) (lget Opnd.none_ b i) (lget Opnd.none_ c i)
    let r1 := chainWrite x (opDest w) (rs.map Prod.fst) r
    { r1 with sats := r1.sats + (rs.map Prod.snd).foldl (· + ·) 0 }

/-- Runs the chain on one word's lanes; a chain of no operation passes I0 to OUT and RED (log entry 33). -/
def runChain (x : Ctx) (c : Cell) (ins : List LaneIn) : ChainRun :=
  let r : ChainRun := { cell := c, temps := [], out := none, red := none, sats := 0 }
  if x.chainLen = 0 then { r with out := some (ins.map (·.i0w)), red := some (ins.map (·.i0w)) }
  else x.chainOps.foldl (chainOp x ins) r

/-- A lane as an element in the chain's format. -/
def laneElem (x : Ctx) (o : Opnd) : Elem :=
  { bits := BitVec.ofNat 64 o.bits, fmt := x.wcode, poison := o.poison || x.wf.isPoison o.bits, clip := false,
    tapePoison := false }

/-- ELEMENT_CHAIN (R56 to R60): one word's elements run the chain; the result leaves on the wide result's routes and to the
drain, the term to the reduction, and saturations of packed FP8 are counted. -/
def execElementChain (cell : Nat) (s : State) : Out :=
  guardUnit (decide (cell < Config.numCells)) (
    let x := (getCell s cell).act
    let works := decide (x.chainLen ≠ 0) || (x.red == 0 && (x.dsrc == 2 || x.legs.any fun l => l.src == 6))
    whenTaken (cellRuns s cell && works) (fun st =>
      match takeWide st cell x with
      | none => st
      | some (ins, s0) =>
        let s1 := countAct (dieOfCell cell) 2 (ins.length * x.chainLen) s0
        let r := runChain x (getCell s1 cell) ins
        let outs := (r.out.getD []).map (laneElem x)
        let reds := if x.red = 0 then [] else (r.red.getD []).map (laneElem x)
        let c1 := { r.cell with
          counts := (List.range r.sats).foldl (fun t _ => bumpCount t 64) r.cell.counts,
          redq := r.cell.redq ++ reds,
          wideq := if x.dsrc = 2 then r.cell.wideq ++ outs else r.cell.wideq }
        outs.foldl (fun t e => routeFrom routeFuel cell 6 e t) (setCell s1 cell c1)) s)

/-! ### Reductions -/

/-- The next `n` elements that enter a cell's reduction: terms of the chain, or I0 where no chain runs. -/
def redTerms (s : State) (cell : Nat) (x : Ctx) (raw : Bool) (n : Nat) : Option (List Elem × State) :=
  let c := getCell s cell
  if n ≤ c.redq.length then some (c.redq.take n, modCell s cell fun d => { d with redq := d.redq.drop n })
  else if x.chainLen ≠ 0 then none
  else if raw then
    let s1 := needInput s cell 2 (if x.red = 3 then x.topkFmt else 1) n
    (headsOf s1 cell 2 n).map fun l => (l, takeHeads s1 cell 2 n)
  else
    match takeWide s cell x with
    | none => none
    | some (ins, s1) =>
      let l := ins.map fun i => laneElem x i.i0w
      some (l.take n, modCell s1 cell fun d => { d with redq := d.redq ++ l.drop n })

/-- Value of a reduction term. -/
def termVal (e : Elem) : Val :=
  match fpFmt e.fmt with
  | some f => if e.poison then .poison else f.decode e.bits.toNat
  | none => if e.poison then .poison else elemVal e.fmt e.bits.toNat

/-- REDUCTION_TERM (R61, R124 to R130): the next term, or for PAIR input the next pair, enters the sum of entry `entry` of
RED_BANK, or of the Q pair. -/
def execReductionTerm (cell entry : Nat) (s : State) : Out :=
  guardUnit (decide (cell < Config.numCells)) (
    let x := (getCell s cell).act
    let key := if x.red = 2 then 32 else entry % 32
    let into := fun (f : AccRun → AccRun) (st : State) =>
      modCell (countAct (dieOfCell cell) 2 1 st) cell fun c => { c with red := tput AccRun.empty c.red key (f (tget AccRun.empty c.red key)) }
    whenTaken (cellRuns s cell) (fun st =>
      match x.red with
      | 1 =>
        match redTerms st cell x false 1 with
        | some (e :: _, s1) => into (fun a => a.term fp32 (termVal e)) s1
        | _ => st
      | 2 =>
        match redTerms st cell x false 1 with
        | some (e :: _, s1) => into (fun a => a.term fp64 (termVal e)) s1
        | _ => st
      | 4 =>
        match redTerms st cell x true 2 with
        | some (a :: b :: _, s1) =>
          let p : Pair := ⟨if rawPoison a then BitVec.ofNat 64 fp32.poisonBits else a.bits, b.bits⟩
          into (fun r => r.leaf fp32 p) s1
        | _ => st
      | _ => st) s)

/-! ### Top-k -/

/-- Rank order of two elements (R138): whether `a` ranks above `b`; NaNs above every number, the lower position first among
equal keys. -/
def ranksAbove (mag : Bool) (a b : Val × Nat) : Bool :=
  let isNaN := fun (v : Val) => match v with
    | .nan _ _ => true
    | .poison => true
    | _ => false
  let key := fun (v : Val) => if mag then (if v.isNeg then negV v else v) else v
  if isNaN a.1 then (if isNaN b.1 then decide (a.2 < b.2) else true)
  else if isNaN b.1 then false
  else
    let o := ordV (key a.1) (key b.1)
    o == 1 || (o == 0 && decide (a.2 < b.2))

/-- The value of a list entry of the stage. -/
def topkVal (fmt : Nat) (e : Entry) : Val :=
  if e.poison || e.mark then .poison else elemVal fmt e.s.toNat

/-- An empty list entry (R139). -/
def Entry.blank : Entry := { s := 0, e := 0xFFFFFFFF, poison := false }

/-- Inserts an entry by rank into a list, keeping `k` (R138, R139). -/
def topkInsert (fmt : Nat) (mag : Bool) (k : Nat) (n : Entry) (l : List Entry) : List Entry :=
  let above := fun (a b : Entry) => ranksAbove mag (topkVal fmt a, a.e.toNat) (topkVal fmt b, b.e.toNat)
  ((l.filter fun x => !above n x) ++ [n] ++ l.filter fun x => above n x).take k

/-- An entry joins the list of a stage (R139): the first of an OVERWRITE finds the list empty, the first of an ADD the entries
that the bank holds, fillers apart. -/
def topkJoin (x : Ctx) (n : Entry) (c : Cell) : Cell :=
  let all := (List.range x.topkK).map (bankEntry c x.redBank)
  let held := if c.topkSeen = 0 then (if x.redAdd then all.filter fun e => e != Entry.blank else []) else all.take c.topkHeld
  let l := topkInsert x.topkFmt x.topkMag x.topkK n held
  let c1 := (List.range x.topkK).foldl (fun d i => setBankEntry d x.redBank i (lget Entry.blank l i)) c
  { c1 with topkSeen := c.topkSeen + 1, topkHeld := l.length }

/-- The entry of an element at its position (R139, R140). -/
def topkEntry (x : Ctx) (seen : Nat) (e : Elem) : Entry :=
  { s := e.bits.setWidth 32, e := BitVec.ofNat 32 (seen + x.topkOffset), poison := false, mark := e.poison }

/-- TOPK_ELEMENT (R137 to R140): the next element, or the next pair of a list that comes as PAIR input, whose fillers pass by
(log entry 217). -/
def execTopkElement (cell : Nat) (s : State) : Out :=
  guardUnit (decide (cell < Config.numCells)) (
    let x := (getCell s cell).act
    whenTaken (cellRuns s cell && x.red == 3) (fun st =>
      match redTerms st cell x true 1 with
      | some (e :: _, s1) =>
        if e.raw then
          match redTerms st cell x true 2 with
          | some (a :: b :: _, s2) =>
            let n : Entry := { s := a.bits.setWidth 32, e := b.bits.setWidth 32, poison := false, mark := a.poison }
            modCell (countAct (dieOfCell cell) 2 1 s2) cell fun c => if n == Entry.blank then c else topkJoin x n c
          | _ => st
        else modCell (countAct (dieOfCell cell) 2 1 s1) cell fun c => topkJoin x (topkEntry x c.topkSeen e) c
      | _ => st) s)

end Sys2Proof.Machine
end

