-- ==== Sys2Proof/Machine/CvRun.lean ====
section
/-!
DEFINITION. Running a caravan: sending units, combining what arrives, and the states of Table 11.5 (11 R342 to R363, R557).
-/

namespace Sys2Proof.Machine

open Sys2Proof

/-! ### Sending units (R342, R344) -/

/-- Bytes a unit takes in a DATA packet. -/
def wireBytes (d : CollDesc) (u : CvUnit) : Nat :=
  if isBsi d then (if u.present then 4 + u.bytes.length else 0) else u.bytes.length

/-- Cuts consecutive units into packets of at most 2,048 bytes: how many units each takes. -/
def packUnits (d : CollDesc) : List CvUnit → Nat → Nat → List Nat
  | [], n, _ => if n = 0 then [] else [n]
  | u :: r, n, used =>
    let w := wireBytes d u
    if 0 < n && 2048 < used + w then n :: packUnits d r 1 w else packUnits d r (n + 1) (used + w)

/-- The payload of a packet that covers `us` from unit `off` on. -/
def unitPayload (d : CollDesc) (off : Nat) (us : List CvUnit) : List Byte :=
  if isBsi d then
    (((List.range us.length).zip us).map fun e =>
      if e.2.present then leBytes 4 (off + e.1) ++ e.2.bytes else []).flatten
  else (us.map (·.bytes)).flatten

/-- Sends DATA packets that cover `us`, each held until acknowledged. -/
def sendUnits (id dst stage : Nat) : List Nat → Nat → List CvUnit → State → State
  | [], _, _, s => s
  | n :: ns, off, us, s =>
    match cvOf s id with
    | none => s
    | some c =>
      let part := us.take n
      let marks := if inBand c.d then [] else (List.range n).filter fun i => (lget default part i).poison
      let s1 := modCv id (fun x => { x with unacked := x.unacked + 1, toSend := x.toSend - n }) s
      let s2 := sendCv c dst 1 stage off (off + n) (unitPayload c.d off part) marks s1
      sendUnits id dst stage ns (off + n) (us.drop n) s2

/-- First unit of a segment at a stage. -/
def unitBase (c : Caravan) (seg : Nat) : Nat := if c.d.kind = 3 then seg * c.d.count else if reducing c.d then segStart c.d c.m seg else 0

/-- Key of `Caravan.sent`. -/
def sentKey (dst stage seg : Nat) : Nat := (dst * 65536 + seg) * 8 + stage

/-- Whether a waiting send may leave: its peer has sent READY, and the units before it have gone. -/
def mayLeave (c : Caravan) (x : CvSend) : Bool :=
  c.readyFrom.contains x.dst && x.off == unitBase c x.seg + tget 0 c.sent (sentKey x.dst x.stage x.seg)

/-- Sends what may leave, in ascending order of units; the fuel is the number of waiting sends. -/
def pumpSends (id : Nat) : Nat → State → State
  | 0, s => s
  | fuel + 1, s =>
    match cvOf s id with
    | none => s
    | some c =>
      match c.sends.find? (mayLeave c) with
      | none => s
      | some x =>
        let s1 := modCv id (fun c => { c with
          sends := lremove (fun y => y == x) c.sends,
          sent := tadd c.sent (sentKey x.dst x.stage x.seg) x.units.length }) s
        pumpSends id fuel (sendUnits id x.dst x.stage (packUnits c.d x.units 0 0) x.off x.units s1)

/-- Hands units to a peer. -/
def pushUnits (id dst stage seg off : Nat) (us : List CvUnit) (s : State) : State :=
  if us.isEmpty then s
  else
    let s1 := modCv id (fun c => { c with sends := c.sends ++ [⟨dst, stage, seg, off, us⟩] }) s
    match cvOf s1 id with
    | some c => pumpSends id c.sends.length s1
    | none => s1

/-- Sends READY to a member (R344). -/
def sendReady (id member : Nat) (s : State) : State :=
  match cvOf s id with
  | none => s
  | some c => sendCv c member 2 0 0 0 [] [] (modCv id (fun c => { c with readySent := c.readySent ++ [member] }) s)

/-! ### Thinning (R354, R355) -/

/-- Σ|p| × 2^(X - 127), as a multiple of 2^-127. -/
def blockWeight (b : Blk) : Nat := (b.p.map Int.natAbs).foldl (· + ·) 0 * 2 ^ b.x

/-- Whether block (i, a) is chosen before block (j, b). -/
def chosenBefore (a b : Nat × Blk) : Bool :=
  if a.2.poison != b.2.poison then a.2.poison
  else if !a.2.poison && blockWeight a.2 != blockWeight b.2 then decide (blockWeight b.2 < blockWeight a.2)
  else decide (a.1 < b.1)

/-- The blocks sent: of those without ZERO, the first n. -/
def thinChoice (n : Nat) (bs : List (Nat × Blk)) : List Nat :=
  let cand := bs.filter fun e => !e.2.zero
  let rank := fun (e : Nat × Blk) => (cand.filter fun x => chosenBefore x e).length
  (cand.filter fun e => decide (rank e < n)).map (·.1)

/-- Folds a block into the residual store (R355). -/
def foldResidual (d : CollDesc) (i : Nat) (b : Blk) (s : State) : State :=
  let a := d.aux + 128 * i
  (List.range 32).foldl (fun st j =>
    let bits := if soundRange st (a + 4 * j) 4 then leNat (readBytes st (a + 4 * j) 4) else fp32.poisonBits
    let v := addV (fp32.decode bits) (ofSigned (lget 0 b.p j) ((b.x : Int) - 127))
    let r := if fp32.saturates v then fp32.maxBits v.isNeg else fp32.roundIeee .rne v
    writeJob st (a + 4 * j) (leBytes 4 r)) (noteReads s a 128)

/-- A unit's block. -/
def unitBlk (u : CvUnit) : Blk := readBlk (u.bytes.length == 196) u.bytes

/-- Thins the contribution. -/
def thinUnits (d : CollDesc) (us : List CvUnit) (s : State) : List CvUnit × State :=
  if !isBsi d || d.param = 0 then (us, s)
  else
    let bs := (List.range us.length).zip (us.map unitBlk)
    let keep := thinChoice ((d.count + 2 ^ d.param - 1) / 2 ^ d.param) bs
    let s1 := bs.foldl (fun st e => if keep.contains e.1 then st else foldResidual d e.1 e.2 st) s
    (((List.range us.length).zip us).map fun e => { e.2 with present := keep.contains e.1 }, s1)

/-! ### Combining (R351, R356) -/

/-- The poisoned and plain words of INT64 and MAX_U64. -/
def combineWord (max : Bool) (a b : CvUnit) : CvUnit :=
  if a.poison || b.poison then ⟨List.replicate 8 0, true, true⟩
  else
    let x := leNat a.bytes
    let y := leNat b.bytes
    ⟨leBytes 8 (if max then Nat.max x y else (x + y) % 2 ^ 64), false, true⟩

/-- Combines an arriving unit with this member's own; counts promotions and mismatches. -/
def combineUnit (d : CollDesc) (a l : CvUnit) (s : State) : CvUnit × State :=
  if !a.present then (l, s)
  else if !l.present then (a, s)
  else if isBsi d then
    let p := unitBlk a
    let r := combineBlk p (unitBlk l)
    let s1 := if r.2 then countCl 3 1 s else s
    let s2 := if r.1.esc && !p.esc then countCl 2 1 s1 else s1
    (⟨blkBytes r.1, r.1.poison, true⟩, s2)
  else (combineWord (d.mode == 2) a l, s)

/-- Combines consecutive units from unit `off` on. -/
def combineUnits (c : Caravan) (off : Nat) (us : List CvUnit) (s : State) : List CvUnit × State :=
  ((List.range us.length).zip us).foldl (fun acc e =>
    let r := combineUnit c.d e.2 (lget default c.contrib (off + e.1)) acc.2
    (acc.1 ++ [r.1], r.2)) ([], s)

/-- A reduced block that no member sent, as this member writes it (R356). -/
def absentBlock (c : Caravan) (u : Nat) : CvUnit :=
  let x := (unitBlk (lget default c.contrib u)).x
  ⟨blkBytes { esc := false, poison := false, zero := true, x := x, emax := 0, p := List.replicate 32 0 }, false, true⟩

/-- Units as this member writes them. -/
def writtenUnits (c : Caravan) (off : Nat) (us : List CvUnit) : List CvUnit :=
  ((List.range us.length).zip us).map fun e => if e.2.present then e.2 else absentBlock c (off + e.1)

/-- Address of output unit u, of the caravan's numbering. -/
def outAddr (c : Caravan) (u : Nat) : Nat :=
  c.d.dst + dstPitch c.d * (if c.d.kind = 2 then u - segStart c.d c.m c.me else u)

/-- Writes output units and counts them off. -/
def putOut (id off : Nat) (us : List CvUnit) (s : State) : State :=
  match cvOf s id with
  | none => s
  | some c =>
    writeUnits c off (outAddr c off) (writtenUnits c off us) (modCv id (fun x => { x with toWrite := x.toWrite - us.length }) s)

/-- Adds this member's own share to the tree sums (R348, R349, R352). -/
def addShare (id : Nat) (us : List CvUnit) (s : State) : State :=
  modCv id (fun c =>
    let bad := (us.filter (unitPoison c.d)).length
    let esc := if isBsi c.d then (us.filter fun u => u.present && u.bytes.length == 196).length else 0
    let t : TreeSum := { poison := decide (0 < bad), esc := decide (0 < esc), escBlocks := esc, poisonUnits := bad }
    { c with sums := TreeSum.add c.sums t }) s

/-- The owner has reduced units of its segment: the update engine applies them, they are written, and in an ALL_REDUCE they
start round the ring (R350, R381). -/
def finishUnits (id off : Nat) (us : List CvUnit) (s : State) : State :=
  match cvOf s id with
  | none => s
  | some c =>
    let whole := writtenUnits c off us
    let s1 := match c.role with
      | .bucket i => ((List.range whole.length).zip whole).foldl
          (fun st e => applyBlock i c.m c.me (off + e.1) (unitBlk e.2) st) s
      | _ => s
    let s2 := putOut id off us (addShare id whole s1)
    if c.d.kind = 1 && 1 < c.m then pushUnits id c.succ 1 c.me off us s2 else s2

/-! ### ORDERED reduction (R357, R358) -/

/-- The leaf a unit stands for. -/
def leafOf (d : CollDesc) (u : CvUnit) : Pair := mkPair (field u.bytes 0 (cvElem d)) (field u.bytes (cvElem d) (cvElem d))

/-- A contributed unit as it travels: the value, or the pair when IN_PAIR. -/
def leafUnit (d : CollDesc) (u : CvUnit) : CvUnit := { u with bytes := u.bytes.take (srcPitch d) }

/-- The reduced element. -/
def reduceLeaves (c : Caravan) (u : Nat) : CvUnit :=
  let f := orderedFmt c.d
  let z := cvElem c.d
  match combTree f c.m ((List.range c.m).map fun k => tget default c.leaves (u * c.m + k)) with
  | none => default
  | some p =>
    let b := if outPair c.d then leBytes z p.s.toNat ++ leBytes z p.e.toNat else leBytes z (f.roundIeee .rne (finalV f p))
    ⟨b, f.isPoison (field b 0 z), true⟩

/-- Members whose whole part of the owned segment is here, as a prefix of the member order. -/
def arrivedPrefix (c : Caravan) : Nat :=
  let n := segSize c.d c.m c.me
  ((List.range c.m).find? fun k => decide (tget 0 c.got k < n)).getD c.m

/-- Set bits of a number below 2^17. -/
def popCount (n : Nat) : Nat := ((List.range 17).filter fun b => n.testBit b).length

/-- Slots of the serai in use: completed subtrees of the combined prefix, and grants not yet in it. -/
def seraiUsed (c : Caravan) : Nat :=
  let f := arrivedPrefix c
  if f = c.m then 0 else popCount f + (c.granted.filter fun g => decide (f ≤ g)).length

/-- Grants members in ascending order while slots are free; the fuel is M. -/
def grantMore (id : Nat) : Nat → State → State
  | 0, s => s
  | fuel + 1, s =>
    match cvOf s id with
    | none => s
    | some c =>
      let g := c.granted.length
      if c.m ≤ g || c.d.param ≤ seraiUsed c then s
      else
        let s1 := modCv id (fun c => { c with granted := c.granted ++ [g] }) s
        grantMore id fuel (if g = c.me then s1 else sendReady id g s1)

/-- Takes a member's leaves of the owned segment; the last reduces it. -/
def takeLeaves (id member off : Nat) (us : List CvUnit) (s : State) : State :=
  let s1 := modCv id (fun c => { c with
    got := tadd c.got member us.length,
    leaves := ((List.range us.length).zip us).foldl
      (fun t e => tput default t ((off + e.1) * c.m + member) (leafOf c.d e.2)) c.leaves }) s
  match cvOf s1 id with
  | none => s1
  | some c =>
    if arrivedPrefix c = c.m then
      let first := segStart c.d c.m c.me
      finishUnits id first ((List.range (segSize c.d c.m c.me)).map fun i => reduceLeaves c (first + i)) s1
    else grantMore id c.m s1

/-! ### TOPK_GATHER (R361) -/

/-- Whether entry a ranks above entry b; a filler ranks below every other.  Of entries that R138 ranks alike, the one with the higher
bits comes first, so that no order of arrival shows (R340; log entry 1123). -/
def entryAbove (d : CollDesc) (a b : CvUnit) : Bool :=
  let e := fun (u : CvUnit) => field u.bytes 4 4
  let v := fun (u : CvUnit) => if u.poison then Val.poison else elemVal (d.mode % 16) (field u.bytes 0 4)
  let above := ranksAbove (d.mode.testBit 4)
  let x := (v a, e a)
  let y := (v b, e b)
  if e a = 0xFFFFFFFF && e b = 0xFFFFFFFF then decide (leNat b.bytes < leNat a.bytes)
  else if e a = 0xFFFFFFFF then false
  else if e b = 0xFFFFFFFF then true
  else above x y || (!above y x && decide (leNat b.bytes < leNat a.bytes))

/-- Inserts an entry behind all that rank above or equal. -/
def insertEntry (d : CollDesc) (x : CvUnit) : List CvUnit → List CvUnit
  | [] => [x]
  | y :: r => if entryAbove d x y then x :: y :: r else y :: insertEntry d x r

/-- Merges lists, keeping k entries. -/
def mergeLists (d : CollDesc) (ls : List (List CvUnit)) : List CvUnit :=
  (ls.flatten.foldl (fun acc x => insertEntry d x acc) []).take (topk d)

/-- The final list goes down and is written. -/
def topkDown (id : Nat) (l : List CvUnit) (s : State) : State :=
  match cvOf s id with
  | none => s
  | some c => c.children.foldl (fun st x => pushUnits id x 2 0 0 l st) (putOut id 0 l s)

/-- Own list and every child's are here: up, or at the coordinator down. -/
def topkUp (id : Nat) (s : State) : State :=
  match cvOf s id with
  | none => s
  | some c =>
    if c.lists.length < c.children.length then s
    else
      let l := mergeLists c.d (c.contrib :: c.lists)
      if c.isCoord then topkDown id l (addShare id l s) else pushUnits id c.parent 3 0 0 l s

/-! ### Arriving units -/

/-- Whether a list begins with a block of the form asked: its FLAGS byte has the form's ESC and no reserved bit, and its last
byte is zero (Table 3.4). -/
def formFits (esc : Bool) (l : List Byte) : Bool :=
  let n := if esc then 196 else 100
  let fl := field l (n - 3) 1
  decide (n ≤ l.length) && fl.testBit 0 == esc && decide (fl < 8) && field l (n - 1) 1 == 0

/-- Reads the entries of an EXACT_BSI payload: indices rise from `lo` and stay below `hi` (R342; log entry 41), with fuel for
their number. -/
def bsiEntries : Nat → Nat → Nat → List Byte → Option (List (Nat × List Byte))
  | _, _, _, [] => some []
  | 0, _, _, _ => none
  | fuel + 1, lo, hi, l =>
    let i := field l 0 4
    let body := l.drop 4
    let take := fun (esc : Bool) =>
      let n := if esc then 196 else 100
      if lo ≤ i && i < hi && formFits esc body then
        (bsiEntries fuel (i + 1) hi (body.drop n)).map fun r => (i, body.take n) :: r
      else none
    match take false with
    | some r => some r
    | none => take true

/-- The units of a DATA payload from unit `off` to `hi - 1`. -/
def unitsOf (c : Caravan) (stage off hi : Nat) (payload : List Byte) (marks : List Nat) : List CvUnit :=
  let d := c.d
  if isBsi d then
    let es := (bsiEntries 32 off hi payload).getD []
    (List.range (hi - off)).map fun i =>
      match es.find? fun e => e.1 == off + i with
      | some e => ⟨e.2, (readBlk (e.2.length == 196) e.2).poison, true⟩
      | none => ⟨[], false, false⟩
  else
    let n := if isOrdered d then (if stage = 0 then srcPitch d else dstPitch d) else srcPitch d
    (List.range (hi - off)).map fun i =>
      let b := slice payload (n * i) n
      let bad := if isOrdered d then (orderedFmt d).isPoison (field b 0 (cvElem d))
        else if inBand d then
          match fpFmt (d.mode % 16) with
          | some f => f.isPoison (field b 0 4)
          | none => marks.contains i
        else marks.contains i
      ⟨b, bad, true⟩

/-- DATA at a running caravan: units `off` to `hi - 1` from a member at a stage (R350, R357 to R361). -/
def takeData (id member stage off hi : Nat) (payload : List Byte) (marks : List Nat) (s : State) : State :=
  match cvOf s id with
  | none => s
  | some c =>
    let us := unitsOf c stage off hi payload marks
    match stage with
    | 0 =>
      if isOrdered c.d then takeLeaves id member off us s
      else
        let seg := segOf c.d c.m off
        let r := combineUnits c off us s
        if seg = c.me then finishUnits id off r.1 r.2 else pushUnits id c.succ 0 seg off r.1 r.2
    | 1 =>
      let seg := if c.d.kind = 3 then off / c.d.count else segOf c.d c.m off
      let s1 := putOut id off us s
      if c.succ = seg then s1 else pushUnits id c.succ 1 seg off us s1
    | 2 =>
      if c.d.kind = 6 then topkDown id us s
      else c.children.foldl (fun st x => pushUnits id x 2 0 off us st) (putOut id off us s)
    | 3 => topkUp id (modCv id (fun c => { c with lists := c.lists ++ [us] }) s)
    | _ => permData id member off hi payload marks s

/-! ### Ends and aborts (Table 11.5, Table 11.6) -/

/-- Status of an abort cause (Table 11.6). -/
def abortStatus (cause : Nat) (coordFenced : Bool) : Nat :=
  if cause = 1 || coordFenced then 0x0300
  else
    match cause with
    | 3 => 0x0302
    | 4 => 0x0301
    | 5 => 0x030A
    | 6 => 0x0002
    | _ => 0x0303

/-- Status of a commit (Table 11.6). -/
def commitStatus (t : TreeSum) : Nat := if t.poison then 0x0200 else if t.esc then 4 else 0

/-- Fills a range with free values: DST after an abort (R348). -/
def freeRange (a n : Nat) (s : State) : State :=
  (sectorPieces a n n).foldl (fun st p =>
    let f := drawFree st
    writeSector f.2 p.1 (leBytes p.2 (f.1 / 2)) (f.1 % 2 == 1)) s

/-- A packet of an ended caravan to a rank (R557). -/
def sendEnded (e : Ended) (member sub : Nat) (payload : List Byte) (s : State) : State :=
  let dest := lget 0 e.ranks member
  modPeer s dest fun v => { v with waiting := v.waiting ++
    [{ blankPacket with dest := dest, typ := 1, caravan := e.id, sub := sub, check := e.check, payload := payload }] }

/-- A coordinator's answer to a STATUS_REQ after the end (Table 11.5). -/
def answerEnded (e : Ended) (member : Nat) (s : State) : State :=
  if e.committed then sendEnded e member 4 (sumBytes e.sums) s
  else sendEnded e member 5 (abortBytes e.cause e.member (lget 0 e.ranks e.member)) s

/-- Takes a caravan's parked packets off the parked list. -/
def unpark (id : Nat) (s : State) : List Packet × State :=
  (s.cl.parked.filter fun k => k.caravan == id,
    { s with cl := { s.cl with parked := s.cl.parked.filter fun k => k.caravan != id } })

/-- The end of a re-shard on this member: committed, rolled back, or aborted (R348, R366, R368 to R370, R534). -/
def endReshard (c : Caravan) (p : Option Permute) (ok : Bool) (cause : Nat) (s : State) : State :=
  let finish := fun (how : Nat) (st : State) =>
    let st1 := noteEvent 0x0109 (leBytes 4 c.handle ++ [BitVec.ofNat 8 how]) st
    { st1 with cl := { st1.cl with rsState := 0, rsHandle := 0 } }
  if !ok && cause = 5 then { s with cl := { s.cl with held := false, lost := true, rsState := 4 } }
  else
    match p with
    | none =>
      -- nothing had moved: an earlier journal, if there is one, still holds the member
      if s.cl.held then s else finish 1 s
    | some q =>
      if ok then finish (b2n q.rolling) (jSetState 0 s)
      else { s with cl := { s.cl with held := true, rsState := 2 } }

/-- A caravan ends on this member (R347, R348, R557). -/
def endCv (id : Nat) (ok : Bool) (cause member : Nat) (s : State) : State :=
  match cvOf s id with
  | none => s
  | some c =>
    let sums := if ok then c.sums else TreeSum.zero
    let e : Ended := { id := id, check := c.check, committed := ok, cause := cause, member := member, sums := sums,
                       coordinator := c.isCoord, ranks := c.ranks }
    let cl := { s.cl with
      caravans := s.cl.caravans.filter fun x => x.d.caravan != id
      order := s.cl.order.filter fun i => i != id
      ended := (e :: s.cl.ended.filter fun x => x.id != id).take 4096 }
    let s1 := countCl (if ok then 0 else 1) 1 { s with cl := cl }
    let s2 := if ok || c.d.kind = 5 then s1 else freeRange c.d.dst (outUnits c.d c.m c.me * dstPitch c.d) s1
    let cancelled := match c.perm with
      | some p => p.cancelled
      | none => false
    let status := if ok then (if cancelled then 2 else commitStatus sums)
      else abortStatus cause (isFenced s (lget 0 c.ranks c.coord))
    let s3 := if c.d.kind = 5 then endReshard c c.perm ok cause s2 else s2
    let s4 := postCompletion c.handle status 0
      [BitVec.ofNat 64 sums.escBlocks, BitVec.ofNat 64 sums.poisonUnits, BitVec.ofNat 64 c.me] s3
    let s5 := ueEnded c ok s4
    let u := unpark id s5
    let s6 := u.1.foldl (fun st k =>
      if k.check != c.check then { st with cl := { st.cl with parked := st.cl.parked ++ [k] } }
      else
        match c.ranks.findIdx? fun r => r == k.src with
        | some m => if k.sub = 6 && c.isCoord then answerEnded e m st else countCl 4 1 st
        | none => countCl 4 1 st) u.2
    orderCaravans s6

/-- Sends COMMIT or ABORT down the tree (R363). -/
def sendDown (c : Caravan) (sub : Nat) (payload : List Byte) (s : State) : State :=
  (downTo s c.ranks c.coord 17 c.children).foldl (fun st m => sendCv c m sub 0 0 0 payload [] st) s

/-- Sends an ABORT to the coordinator, or down from it. -/
def tellAbort (c : Caravan) (cause member : Nat) (s : State) : State :=
  let b := abortBytes cause member (lget 0 c.ranks member)
  if c.isCoord then sendDown c 5 b s else sendCv c c.coord 5 0 0 0 b [] s

/-- Asks the coordinator for the outcome (R343, R347). -/
def askStatus (id cause member : Nat) (s : State) : State :=
  match cvOf s id with
  | none => s
  | some c => sendCv c c.coord 6 0 0 0 (abortBytes cause member (lget 0 c.ranks member)) [] s

/-- This member aborts a caravan on its own account; `tell` sends the ABORT (Table 11.5). -/
def abortOwn (id cause member : Nat) (tell : Bool) (s : State) : State :=
  match cvOf s id with
  | none => s
  | some c =>
    let s1 := endCv id false cause member s
    if tell then tellAbort c cause member s1 else s1

/-- A member has been found fenced (cause 1) or in peer error (cause 4) (R362, Table 11.5). -/
def foundBad (id cause member : Nat) (s : State) : State :=
  match cvOf s id with
  | none => s
  | some c =>
    if c.state == .waiting then
      if member = c.coord then abortOwn id cause member false s else askStatus id cause member s
    else abortOwn id cause member true s

/-- An ABORT arrives (R348, R363, Table 11.5): a re-shard before its commit point turns back on cause CANCEL (R366), any other
caravan ends. -/
def takeAbort (id cause member : Nat) (payload : List Byte) (s : State) : State :=
  match cvOf s id with
  | none => s
  | some c =>
    if cause = 6 && c.perm.isSome then
      let rolling := match c.perm with
        | some p => p.rolling
        | none => false
      if rolling || (c.isCoord && jState s == 3) then s else sendDown c 5 payload (turnBack id s)
    else sendDown c 5 payload (endCv id false cause member s)

/-- Whether a caravan's own part is done and every child's DONE is here. -/
def partDone (c : Caravan) : Bool :=
  let own := match c.perm with
    | some p => permOwnDone c p
    | none => c.toWrite == 0 && c.toSend == 0 && c.sends.isEmpty
  own && c.unacked == 0 && c.children.all fun x => c.doneFrom.contains x

/-- A running caravan whose part is done goes on (Table 11.5). -/
def progress (id : Nat) (s : State) : State :=
  match cvOf s id with
  | none => s
  | some c =>
    if c.state != .running || !partDone c then s
    else if c.isCoord then sendDown c 4 (sumBytes c.sums) (endCv id true 0 c.me s)
    else
      sendCv c c.parent 3 0 0 0 (sumBytes c.sums) [] (modCv id (fun c => { c with state := .waiting }) s)

/-- The coordinator journals ALL_DONE once every cycle's CYCLE has reached it: the commit point of the re-shard (R366). -/
def noteAllDone (id : Nat) (s : State) : State :=
  match permOf s id with
  | none => s
  | some (c, p) =>
    if c.isCoord && c.state == .running && !p.rolling && p.done.length == p.cycles.length && jState s != 3 then
      modLong (jSetState 3 s) c.handle fun o => { o with pastCommit := true }
    else s

/-- What follows every command that touched a caravan: cycles start, and the caravan progresses. -/
def settleCv (id : Nat) (s : State) : State :=
  match permOf s id with
  | none => progress id s
  | some (_, p) => progress id (noteAllDone id (startCycles id (2 * p.cycles.length + 2) (leadWaiting id s)))

/-! ### Opening (R346, R347) -/

/-- Units still to be sent, counted at the start. -/
def sendsDue (c : Caravan) : Nat :=
  let n := c.d.count
  let me := segSize c.d c.m c.me
  let gather := if c.d.kind = 1 then n - segSize c.d c.m c.succ else 0
  if c.m = 1 then 0
  else if isOrdered c.d then n - me + gather
  else if reducing c.d then n - me + gather
  else if c.d.kind = 3 then c.m * n - n
  else if c.d.kind = 4 then n * c.children.length
  else if c.d.kind = 6 then topk c.d * (c.children.length + (if c.isCoord then 0 else 1))
  else 0

/-- The first sends and READYs of a caravan, by kind. -/
def startKind (id : Nat) (s : State) : State :=
  match cvOf s id with
  | none => s
  | some c =>
    let d := c.d
    let part := fun (j : Nat) => (c.contrib.drop (segStart d c.m j)).take (segSize d c.m j)
    if isOrdered d then
      let own := modCv id (fun c => { c with toSend := sendsDue c, toWrite := outUnits d c.m c.me }) s
      let s1 := ((List.range c.m).filter fun j => j != c.me).foldl (fun st j =>
        pushUnits id j 0 j (segStart d c.m j) ((part j).map (leafUnit d)) st) own
      let s2 := if segSize d c.m c.me = 0 then
          (if d.kind = 1 && 1 < c.m then sendReady id c.pred s1 else s1)
        else grantMore id c.m s1
      if segSize d c.m c.me = 0 then s2 else takeLeaves id c.me (segStart d c.m c.me) (part c.me) s2
    else if reducing d then
      let s1 := modCv id (fun c => { c with toSend := sendsDue c, toWrite := outUnits d c.m c.me }) s
      if c.m = 1 then finishUnits id 0 c.contrib s1
      else pushUnits id c.succ 0 c.pred (segStart d c.m c.pred) (part c.pred) (sendReady id c.pred s1)
    else if d.kind = 3 then
      let s1 := modCv id (fun c => { c with toSend := sendsDue c, toWrite := c.m * d.count }) s
      let s2 := putOut id (c.me * d.count) c.contrib (addShare id c.contrib s1)
      if c.m = 1 then s2 else pushUnits id c.succ 1 c.me (c.me * d.count) c.contrib (sendReady id c.pred s2)
    else if d.kind = 4 then
      let s1 := modCv id (fun c => { c with toSend := sendsDue c, toWrite := d.count }) s
      if c.isCoord then
        let s2 := putOut id 0 c.contrib (addShare id c.contrib s1)
        c.children.foldl (fun st x => pushUnits id x 2 0 0 c.contrib st) s2
      else sendReady id c.parent s1
    else
      let s1 := modCv id (fun c => { c with toSend := sendsDue c, toWrite := topk d }) s
      let s2 := (c.children ++ (if c.isCoord then [] else [c.parent])).foldl (fun st x => sendReady id x st) s1
      topkUp id s2

/-- A caravan whose staging is reserved enters RUNNING (Table 11.5). -/
def openCv (id : Nat) (s : State) : State :=
  match cvOf s id with
  | none => s
  | some c =>
    let s0 := { s with cl := { s.cl with order := s.cl.order.filter fun i => i != id } }
    let s1 := modCv id (fun c => { c with state := .running })
      (if c.d.kind = 5 then noteReads s0 c.d.aux (4 * c.m * c.d.count) else s0)
    if c.d.kind = 5 then
      match permStart c s1 with
      | some s2 => s2
      | none => abortOwn id 3 c.me true s1
    else
      let s2 := if c.role == .commit then foldCells s1 else s1
      let r := if c.d.kind = 4 && !c.isCoord then ([], s2) else readUnits c s2
      let t := thinUnits c.d r.1 r.2
      startKind id (modCv id (fun c => { c with contrib := t.1 }) t.2)

end Sys2Proof.Machine
end

