-- ==== Sys2Proof/Machine/Caravans.lean ====
section
/-!
DEFINITION. The rows of collectives and of end-to-end delivery to engines: descriptors, packets of a caravan, timers,
fences, and the writes of UE_STEP (10 R321 to R329; 11 R334 to R372; 12 R386, R397).
-/

namespace Sys2Proof.Machine

open Sys2Proof

/-! ### Arriving packets (R345, R347, R557) -/

/-- Parks a packet; beyond 4,096 it is discarded (R345). -/
def parkPacket (k : Packet) (s : State) : State :=
  if 4096 ≤ s.cl.parked.length then countCl 5 1 s
  else { s with cl := { s.cl with parked := s.cl.parked ++ [k] } }

/-- DONE of a child: its sums are added once (R348). -/
def takeDone (id member : Nat) (payload : List Byte) (s : State) : State :=
  modCv id (fun c =>
    if c.children.contains member && !c.doneFrom.contains member && c.state != .waiting then
      { c with doneFrom := c.doneFrom ++ [member], sums := TreeSum.add c.sums (sumOf payload) }
    else c) s

/-- READY of a peer: what waits for it may leave (R344). -/
def takeReady (id member : Nat) (s : State) : State :=
  match cvOf s id with
  | none => s
  | some c =>
    if c.readyFrom.contains member then s
    else pumpSends id c.sends.length (modCv id (fun c => { c with readyFrom := c.readyFrom ++ [member] }) s)

/-- READY of a PERMUTE asks for a unit; one of a rollback waits until this member has turned back (log entry 40). -/
def takeAsk (id member : Nat) (p : Permute) (k : Packet) (s : State) : State :=
  let back := askStage k != 0
  if back && !p.rolling then parkPacket k s
  else if !back && p.rolling then sendNothing id member (askSlot k) s
  else
    let s1 := match cycleOf p ((cvOf s id).elim 0 fun c => c.me * c.d.count + askSlot k) with
      | some cyc => if askStage k = 5 then noticeCycle id cyc false s else s
      | none => s
    serveReady id member (askSlot k) s1

/-- COMMIT at a waiting member (Table 11.5). -/
def takeCommit (id : Nat) (payload : List Byte) (s : State) : State :=
  match cvOf s id with
  | none => s
  | some c =>
    if c.state != .waiting then s
    else
      let s1 := endCv id true 0 c.me (modCv id (fun c => { c with sums := sumOf payload }) s)
      sendDown c 4 payload s1

/-- STATUS_REQ at a coordinator that has not committed: it aborts with the cause and member named (R347). -/
def takeStatusReq (id : Nat) (payload : List Byte) (s : State) : State :=
  match cvOf s id with
  | none => s
  | some c =>
    if c.isCoord then abortOwn id (field payload 0 2) (field payload 2 2 % c.m) true s else s

/-- A packet whose CHECK matches reaches a caravan in RUNNING or WAITING. -/
def takePacket (id member : Nat) (k : Packet) (s : State) : State :=
  settleCv id <|
    match k.sub with
    | 1 => takeData id member k.stage (dataFrom k) (dataTo k) k.payload k.poison
        (modCv id (fun c => { c with dataFrom := if c.dataFrom.contains member then c.dataFrom else c.dataFrom ++ [member] }) s)
    | 2 =>
      match permOf s id with
      | some (_, p) => takeAsk id member p k s
      | none => takeReady id member s
    | 3 => takeDone id member k.payload s
    | 4 => takeCommit id k.payload s
    | 5 => takeAbort id (field k.payload 0 2) (field k.payload 2 2) k.payload s
    | 6 => takeStatusReq id k.payload s
    | _ => cyclePacket id k.offset k.payload.isEmpty (askStage k == 4) s

/-- A packet of a live caravan (Table 11.5, R345). -/
def packetLive (c : Caravan) (k : Packet) (s : State) : State :=
  let id := c.d.caravan
  let from? := c.ranks.findIdx? fun r => r == k.src
  if k.check != c.check then
    (if k.sub = 2 then abortOwn id 3 (from?.getD c.me) (c.state != .opening) s else countCl 4 1 s)
  else
  match from? with
  | none => s
  | some member =>
    if c.state == .opening then
      match k.sub with
      | 1 => countCl 4 1 s
      | 3 => takeDone id member k.payload s
      | 5 => takeAbort id (field k.payload 0 2) (field k.payload 2 2) k.payload s
      | _ => parkPacket k s
    else takePacket id member k s

/-- A packet of an ID that has ended, or is not known (R345, R370, R557). -/
def packetOther (k : Packet) (s : State) : State :=
  match s.cl.ended.find? fun e => e.id == k.caravan && e.check == k.check with
  | some e =>
    match e.ranks.findIdx? fun r => r == k.src with
    | some m => if k.sub = 6 && e.coordinator then answerEnded e m s else countCl 4 1 s
    | none => countCl 4 1 s
  | none =>
    if k.sub = 1 || k.sub = 3 || k.sub = 4 then countCl 4 1 s
    else if s.cl.lost && k.sub != 5 then
      let answer := { blankPacket with
        dest := k.src, typ := 1, caravan := k.caravan, sub := 5, check := k.check,
        payload := abortBytes 5 0 (ownRank s) }
      modPeer (parkPacket k s) k.src fun v => { v with waiting := v.waiting ++ [answer] }
    else parkPacket k s

/-- A caravan packet reaches the engines. -/
def enginePacket (k : Packet) (s : State) : State :=
  match cvOf s k.caravan with
  | some c => packetLive c k s
  | none => packetOther k s

/-- Whether a SUB is one of Table 11.3. -/
def knownSub (k : Packet) : Bool := decide (1 ≤ k.sub) && decide (k.sub ≤ 7)

/-- Takes the engines' next packet when it has the SUB asked for; packets of a reserved SUB before it are dropped. -/
def takeEngine (sub : Nat) (s : State) : State :=
  match s.lk.engq.dropWhile fun k => !knownSub k with
  | [] => { s with lk := { s.lk with engq := [] } }
  | k :: r =>
    if k.sub = sub then enginePacket k { s with lk := { s.lk with engq := r } }
    else { s with lk := { s.lk with engq := k :: r } }

/-- A re-shard that has turned back acts on the packets parked for that. -/
def replayTurned (id : Nat) (s : State) : State :=
  match permOf s id with
  | some (_, p) => if p.rolling then (unpark id s).1.foldl (fun st k => enginePacket k st) (unpark id s).2 else s
  | none => s

/-- DATA (R342, R350, R357 to R361, R365). -/
def execData (s : State) : Out := .next (takeEngine 1 s)
/-- READY (R344, R345). -/
def execReady (s : State) : Out := .next (takeEngine 2 s)
/-- DONE (R347, R348). -/
def execDone (s : State) : Out := .next (takeEngine 3 s)
/-- COMMIT (R347, R363). -/
def execCommit (s : State) : Out := .next (takeEngine 4 s)
/-- ABORT (R343, R363). -/
def execAbort (s : State) : Out :=
  .next <|
    let s1 := takeEngine 5 s
    match s.lk.engq.dropWhile fun k => !knownSub k with
    | k :: _ => if k.sub = 5 then replayTurned k.caravan s1 else s1
    | [] => s1
/-- STATUS_REQ (R347, R557). -/
def execStatusReq (s : State) : Out := .next (takeEngine 6 s)
/-- CYCLE (R365). -/
def execCycle (s : State) : Out := .next (takeEngine 7 s)

/-! ### Posting and opening (R334, R336, R337, R346) -/

/-- Refuses a descriptor: nothing starts (R336). -/
def refuseDesc (handle status : Nat) (reshard : Bool) (s : State) : State :=
  let s1 := if reshard && !s.cl.held then
      noteEvent 0x0109 (leBytes 4 handle ++ [1]) { s with cl := { s.cl with rsHandle := 0 } }
    else s
  let s2 := if status = 0x0307 || status = 0x0308 then
      { s1 with ue := { s1.ue with counts := taddW s1.ue.counts 7 1 } } else s1
  postCompletion handle status 0 [] s2

/-- Posts a descriptor that passed its checks: the caravan is live, in OPENING. -/
def postDesc (handle : Nat) (d : CollDesc) (ranks : List Nat) (me : Nat) (role : CvRole) (s : State) : State :=
  let c : Caravan :=
    { d := d, handle := handle, ranks := ranks, me := me, role := role, state := .opening, check := cvCheck s d ranks,
      staging := stagingNeed d ranks.length, contrib := [], readyFrom := [], readySent := [], dataFrom := [], sends := [],
      sent := [], toSend := 0, toWrite := 0, unacked := 0, leaves := [], got := [], granted := [], lists := [],
      doneFrom := [], sums := TreeSum.zero, statusAsked := false, perm := none }
  let cl := { s.cl with
    caravans := s.cl.caravans ++ [c]
    ended := s.cl.ended.filter fun e => e.id != d.caravan }
  let s1 := { s with cl := cl, ue := { s.ue with codePosted := s.ue.codePosted || role == .code } }
  let u := unpark d.caravan s1
  orderCaravans (u.1.foldl (fun st k => enginePacket k st) u.2)

/-- The checks at posting, in the order of R336. -/
def takeDesc (handle : Nat) (d : CollDesc) (s0 : State) : State :=
  let s := noteTable d (if isList d then noteReads s0 d.group (2 * d.members) else s0)
  let reshard := (longOpOf s handle).isSome
  let cancelling : Bool := match longOpOf s handle with
    | some e => e.2.state == .cancelling
    | none => false
  if cancelling then refuseDesc handle 2 reshard s else
  match checkDesc s d reshard with
  | none => refuseDesc handle 0x0304 reshard s
  | some (ranks, me) =>
    match ueClassify s d ranks.length with
    | .inl st => refuseDesc handle st reshard s
    | .inr role =>
      if (cvOf s d.caravan).isSome || 512 ≤ s.cl.caravans.length then refuseDesc handle 0x0305 reshard s
      else postDesc handle d ranks me role s

/-- COLL_DESC (R334 to R337). -/
def execCollDesc (s : State) : Out :=
  .next <|
    match s.ws.down with
    | { kind := 4, payload := .collDesc h d, .. } :: _ => takeDesc h d (popDown s)
    | _ => s

/-- Whether the engine of a caravan has a place for it: it is among the first 64 of its stack (R337). -/
def engaged (s : State) (id : Nat) : Bool :=
  ((s.cl.caravans.filter fun c => c.d.caravan % 8 == id % 8).take 64).any fun c => c.d.caravan == id

/-- Staging free now. -/
def stagingFree (s : State) : Nat :=
  s.cl.stagingSize.toNat -
    ((s.cl.caravans.filter fun c => c.state != .opening).map (·.staging)).foldl (· + ·) 0

/-- Staging that the engaged caravans before this one in the order need (R346). -/
def stagingBefore (s : State) (id : Nat) : Nat :=
  ((s.cl.order.takeWhile fun i => i != id).filter (engaged s)).foldl (fun n i =>
    match cvOf s i with
    | some c => if s.cl.stagingSize.toNat < c.staging then n else n + c.staging
    | none => n) 0

/-- CARAVAN_OPEN (R337, R346, R347, R384). -/
def execCaravanOpen (id : Nat) (s : State) : Out :=
  .next <|
    match cvOf s id with
    | none => s
    | some c =>
      if c.state != .opening || !s.cl.order.contains id || !engaged s id then s
      else if s.cl.stagingSize.toNat < c.staging then
        let cl := { s.cl with
          caravans := s.cl.caravans.filter fun x => x.d.caravan != id
          order := s.cl.order.filter fun i => i != id }
        refuseDesc c.handle 0x0306 (c.d.kind == 5) { s with cl := cl }
      else if stagingFree s < c.staging + stagingBefore s id then s
      else
        let s1 := openCv id s
        let u := unpark id s1
        settleCv id (u.1.foldl (fun st k => enginePacket k st) u.2)

/-! ### Timers (R344, R345, R347) -/

/-- READY_RESEND (R344). -/
def execReadyResend (id : Nat) (s : State) : Out :=
  .next <|
    match cvOf s id with
    | none => s
    | some c =>
      if c.state == .opening then s
      else if c.perm.isSome then settleCv id (permKick id (askAgain id s))
      else
        (c.readySent.filter fun m => !c.dataFrom.contains m).foldl
          (fun st m => countCl 6 1 (sendCv c m 2 0 0 0 [] [] st)) s

/-- CARAVAN_TIMEOUT (R347, Table 11.5). -/
def execCaravanTimeout (id : Nat) (s : State) : Out :=
  .next <|
    match cvOf s id with
    | none => s
    | some c =>
      match c.state with
      | .opening => abortOwn id 2 c.me false s
      | .running => abortOwn id 2 c.me true s
      | .waiting =>
        if c.statusAsked then abortOwn id 2 c.me false s
        else askStatus id 2 c.me (modCv id (fun c => { c with statusAsked := true }) s)

/-- PARKED_TIMEOUT (R345): the oldest parked packet of the ID. -/
def execParkedTimeout (id : Nat) (s : State) : Out :=
  .next (whenTaken (s.cl.parked.any fun k => k.caravan == id) (fun st =>
    countCl 5 1 { st with cl := { st.cl with parked := lremove (fun k => k.caravan == id) st.cl.parked } }) s)

/-! ### Delivery to engines (R321 to R329) -/

/-- A packet completes to its engine with a fenced completion (cause 1) or ST_PEER_ERROR (cause 4) (R324, R327, R362). -/
def packetFailed (cause : Nat) (k : Packet) (s : State) : State :=
  match cvOf s k.caravan with
  | none => s
  | some c =>
    if c.check != k.check then s
    else
      match c.ranks.findIdx? fun r => r == k.dest with
      | some m => foundBad k.caravan cause m s
      | none => s

/-- A packet of a caravan has been acknowledged (R323, R347). -/
def packetAcked (k : Packet) (s : State) : State :=
  match cvOf s k.caravan with
  | none => s
  | some c =>
    if c.check != k.check || k.sub != 1 then s
    else
      let id := k.caravan
      let s1 := modCv id (fun c => { c with unacked := c.unacked - 1 }) s
      match c.ranks.findIdx? fun r => r == k.dest with
      | some m => settleCv id (if k.stage = 4 then permAcked id m k.payload.isEmpty s1 else s1)
      | none => settleCv id s1

/-- Resends a held packet; one whose DEST now lies outside the torus completes to its engine with ST_PEER_ERROR, and no peer error
is declared (R324, R552). -/
def resendOrFail (dest seq : Nat) (s : State) : State :=
  if inTorus s dest then resendHeld dest seq s
  else
    let v := getPeer s dest
    match v.held.find? fun h => h.pkt.seq == seq with
    | none => s
    | some h =>
      packetFailed 4 h.pkt (countDrop 1 (setPeer s dest { v with held := lremove (fun x => x.pkt.seq == seq) v.held }))

/-- Releases held packets and adjusts the window (R323, R326): an ACK also releases the packet its SEQ names, and a NACK does not
release that one. -/
def releaseHeld (k : Packet) (named : Bool) (s : State) : State :=
  let v := getPeer s k.src
  let gone := fun (h : HeldPkt) => if h.pkt.seq = k.seq then named else seqLater k.ackSeq h.pkt.seq
  let freed := v.held.filter gone
  let v1 := adjustWindow s { v with held := v.held.filter fun h => !gone h } freed.length k.echo k.ackSeq
  freed.foldl (fun st h => packetAcked h.pkt st) (setPeer s k.src v1)

/-- PACKET_INJECT (R318, R321, R324, R326, R327). -/
def execPacketInject (dest : Nat) (s : State) : Out :=
  .next <|
    let v := getPeer s dest
    match v.waiting with
    | [] => s
    | k :: r =>
      let popped := setPeer s dest { v with waiting := r }
      if !inTorus s dest then packetFailed 4 k (countDrop 1 popped)
      else if isFenced s dest then packetFailed 1 k popped
      else if v.peerErr then packetFailed 4 k popped
      else if v.held.length < windowOf s v then injectData k popped
      else s

/-- ACK (R323, R326). -/
def execAck (s : State) : Out :=
  .next <|
    match rxHead s false 3 with
    | none => s
    | some (k, bad) =>
      let s1 := popRx s
      if bad || !crcHolds k then countDrop 4 s1 else releaseHeld k true s1

/-- PACKET_NACK (R323, R324, R326). -/
def execPacketNack (s : State) : Out :=
  .next <|
    match rxHead s false 4 with
    | none => s
    | some (k, bad) =>
      let s1 := popRx s
      if bad || !crcHolds k then countDrop 4 s1 else resendOrFail k.src k.seq (releaseHeld k false s1)

/-- FENCED (R328, R362). -/
def execFenced (s : State) : Out :=
  .next <|
    match rxHead s false 5 with
    | none => s
    | some (k, bad) =>
      let s1 := popRx s
      if bad || !crcHolds k then countDrop 4 s1
      else
        let dest := k.offset
        let v := getPeer s1 dest
        match v.held.find? fun h => h.pkt.seq == k.seq with
        | none => s1
        | some h =>
          packetFailed 1 h.pkt (setPeer s1 dest { v with held := lremove (fun x => x.pkt.seq == k.seq) v.held })

/-- RESEND_TIMEOUT (R324, R326). -/
def execResendTimeout (dest seq : Nat) (s : State) : Out :=
  .next <|
    let v := getPeer s dest
    match v.held.find? fun h => h.pkt.seq == seq with
    | none => s
    | some h =>
      if h.resends < 7 || !inTorus s dest then resendOrFail dest seq (setPeer s dest (halveWindow s v))
      else
        let s1 := logPeerError dest (setPeer s dest { halveWindow s v with held := [], waiting := [], peerErr := true })
        (v.held.map (·.pkt) ++ v.waiting).foldl (fun st k => packetFailed 4 k st) s1

/-! ### Fences (R327, R329, R362) -/

/-- FENCE_PEER's effect. -/
def fencePeer (rank : Nat) (s : State) : State :=
  let v := getPeer s rank
  let s1 := setPeer { s with lk := { s.lk with fences := tput false s.lk.fences rank true } } rank Peer.fresh
  let s2 := (v.held.map (·.pkt) ++ v.waiting).foldl (fun st k => packetFailed 1 k st) s1
  (s.cl.caravans.map (·.d.caravan)).foldl (fun st id =>
    match cvOf st id with
    | none => st
    | some c =>
      match c.ranks.findIdx? fun r => r == rank with
      | some m => foundBad id 1 m st
      | none => st) s2

/-- UNFENCE_PEER's effect: the pair starts afresh, W at WINIT (R329). -/
def unfencePeer (rank : Nat) (s : State) : State :=
  if isFenced s rank then
    setPeer { s with lk := { s.lk with fences := tput false s.lk.fences rank false } } rank
      { Peer.fresh with started := true, w := cfgWinit s }
  else s

/-! ### CANCEL and SUSPEND of a RESHARD (R348, R366) -/

/-- A CANCEL of the re-shard of a handle is taken. -/
def cancelReshard (handle : Nat) (s : State) : State :=
  match s.cl.caravans.find? fun c => c.handle == handle with
  | none => s
  | some c =>
    let id := c.d.caravan
    let b := abortBytes 6 c.me (ownRank s)
    if c.state == .opening then abortOwn id 6 c.me true s
    else if c.isCoord then replayTurned id (settleCv id (takeAbort id 6 c.me b s))
    else sendCv c c.coord 5 0 0 0 b [] s

/-- SUSPEND and RESUME of the start of new cycles. -/
def pauseReshard (handle : Nat) (v : Bool) (s : State) : State :=
  match s.cl.caravans.find? fun c => c.handle == handle with
  | none => s
  | some c => settleCv c.d.caravan (modPerm c.d.caravan (fun p => { p with pause := v }) s)

/-! ### UE_STEP (R386, R397) -/

/-- Whether writes of the update engine's set-up are discarded. -/
def ueLocked (s : State) : Bool := s.ue.reinit || s.ue.converting || s.cl.caravans.any fun c => c.role != .plain

/-- A write of UE_STEP. -/
def writeUeStep (v : W64) (s : State) : State :=
  if ueLocked s then s
  else
    orderCaravans (startAttempt { s with ue := { s.ue with step := bits64 v 31 0, readCopy := v.getLsbD 32 } })

/-- UE_STEP_WRITE (R371, R386, R397). -/
def execUeStepWrite (port : Nat) (value : W64) (s : State) : Out :=
  guardUnit (decide (port < 2)) (whenTaken (holdsToken s port) (writeUeStep value) s)

end Sys2Proof.Machine
end

