-- ==== Sys2Proof/Machine/Clear.lean ====
section
/-!
DEFINITION. Clearing the data plane: what a reset leaves of it (R524 to R527, R444, Table 18.2), what power gating loses
(Table 14.1), and what SCRUB clears (R287, R551).
-/

namespace Sys2Proof.Machine

open Sys2Proof

/-! ### Memory -/

/-- Bytes of all cluster stores and of all cell stores. -/
def clusterStoreBytes : Nat := 1200 * 0x200000
def cellStoreBytes : Nat := 96000 * 0x4000

/-- `n` free bytes from address `a` on, held in the free number `v`. -/
def freeBytes (a n v : Nat) : List Host.Cell :=
  (List.range n).filterMap fun i =>
    let b := BitVec.ofNat 8 (v / 256 ^ i)
    if b = 0 then none else some (a + i, b)

/-- Free flags of `n` sectors from sector number `k` on. -/
def freeFlags (k n v : Nat) : Tbl Bool :=
  (List.range n).filterMap fun i => if v.testBit i then some (k + i, true) else none

/-- The stores lose their contents with their power (Table 14.1): what they hold afterwards is free. -/
def loseStores (s : State) : State :=
  let r1 := drawFree s
  let r2 := drawFree r1.2
  let s2 := r2.2
  let dram := s2.mem.bytes.filter fun e => decide (e.1 < dramEnd)
  let flags := s2.mem.poison.filter fun e => decide (32 * e.1 < dramEnd)
  let kc := clusterStoreBytes
  let st := freeBytes clusterStoreBase kc r1.1 ++ freeBytes cellStoreBase cellStoreBytes (r1.1 / 256 ^ kc)
  let fl := freeFlags (clusterStoreBase / 32) (kc / 32) r2.1 ++
    freeFlags (cellStoreBase / 32) (cellStoreBytes / 32) (r2.1 / 2 ^ (kc / 32))
  { s2 with mem := { s2.mem with bytes := dram ++ st, poison := flags ++ fl } }

/-- A table of `n` free bytes. -/
def freeTbl (n v : Nat) : Tbl Byte := freeBytes 0 n v

/-- The sequencers' memories lose their contents with their power. -/
def loseCores (s : State) : State :=
  (List.range Config.numCores).foldl (fun st i =>
    let r := drawFree st
    let v := r.1
    let w := v / 256 ^ 0x10000
    let f := w / 256 ^ 0xC000
    modCore r.2 i fun c => { c with
      imem := freeTbl 0x10000 v, dmem := freeTbl 0x4000 w, dmemP := freeFlags 0 512 f,
      tshadow := freeTbl 0x4000 (w / 256 ^ 0x4000), tshadowP := freeFlags 0 512 (f / 2 ^ 512),
      tlive := freeTbl 0x4000 (w / 256 ^ 0x8000), tliveP := freeFlags 0 512 (f / 2 ^ 1024) }) s

/-- A SCRUB pass is broken off: how far it had come is free; the sectors it reached are written (R536). A pass that an earlier
reset broke off goes no further. -/
def breakScrub (s : State) : State :=
  match s.mem.initRunning, s.mem.scrubbed with
  | false, _ => s
  | _, none => s
  | true, some lo =>
    let r := drawFree s
    let n := Nat.max lo (r.1 % (dramEnd / 32 + 1))
    let reached := fun (sec : Nat) => decide (lo ≤ sec) && decide (sec < n)
    let t := r.2
    { t with mem := { t.mem with
        scrubbed := some n, initRunning := false,
        bytes := t.mem.bytes.filter fun e => !reached (e.1 / 32),
        poison := t.mem.poison.filter fun e => !reached e.1,
        stale := t.mem.stale.filter fun e => !reached e.1 } }

/-- MC registers that a reset of the data plane returns to their reset values (R10); the retained ones stay through P3
(R444). -/
def resetMc (keepRet : Bool) (s : State) : State :=
  let m := s.mem
  { s with mem := { m with
      bar4Base := if keepRet then m.bar4Base else 0, patrol := if keepRet then m.patrol else 0x1F01,
      retireCtrl := if keepRet then m.retireCtrl else 256, patrolPtr := if keepRet then m.patrolPtr else [], errLog := 0, counts := [], hostFault := 0,
      heldWrites := [], copies := [] } }

/-! ### Blocks of the data plane -/

/-- A core after a reset of the data plane: its phase and program ended, its memories kept. -/
def Core.afterReset (c : Core) : Core :=
  { Core.reset with imem := c.imem, dmem := c.dmem, dmemP := c.dmemP, tshadow := c.tshadow, tshadowP := c.tshadowP,
                    tlive := c.tlive, tliveP := c.tliveP }

/-- A port after a reset of the data plane: PILOT with data lasers off, or DARK without a far pilot (Table 18.2); what the
bezel and the management plane hold of it stays. -/
def Port.afterReset (keepRet : Bool) (v : Port) : Port :=
  { Port.reset with
    state := if v.state = .dark then .dark else .pilot, cfg := if keepRet then v.cfg else Port.reset.cfg,
    lanes := v.lanes.map fun l => { Lane.reset with moves := l.moves },
    lastId := if keepRet then v.lastId else none, fromP3 := keepRet && v.fromP3, frameCount := v.frameCount, lamp := v.lamp,
    lampBefore := v.lampBefore, flash := v.flash, touched := v.touched, touchIgnored := v.touchIgnored,
    presses := v.presses, touches := v.touches, pilotLosses := v.pilotLosses, lampChanges := v.lampChanges }

/-- The LK block after a reset (R329, Table 18.2), with the retention registers of R444 when leaving P3. -/
def Lk.afterReset (keepRet : Bool) (l : Lk) : Lk :=
  let ports := l.ports.map fun v => v.afterReset keepRet
  let r := { Lk.reset with ports := ports }
  if keepRet then
    { r with rank := l.rank, torus := l.torus, e2e := l.e2e, bank0 := l.bank0, bank1 := l.bank1, epoch := l.epoch,
             fences := l.fences }
  else r

/-- The CL block after a reset (R373): the re-shard states are found again from the journal. -/
def Cl.afterReset (keepRet : Bool) (c : Cl) : Cl :=
  let r := { Cl.reset with lost := c.lost, held := c.held, rsState := c.rsState,
                           rsDone := c.rsDone, rsTotal := c.rsTotal, rsHandle := c.rsHandle }
  if keepRet then { r with cfg := c.cfg, stagingBase := c.stagingBase, stagingSize := c.stagingSize } else r

/-- The update engine after a reset (R397, R444). -/
def Ue.afterReset (keepRet : Bool) (u : Ue) : Ue :=
  if keepRet then
    { Ue.reset with table := u.table, recordBase := u.recordBase, recordWords := u.recordWords, codeBase := u.codeBase,
                    codeWords := u.codeWords, step := u.step, readCopy := u.readCopy }
  else Ue.reset

/-- The FB block after a warm or fabric reset: regions, loads and job parameters gone, FB_AUTH_CTRL, the owner's digest, the
repair and cluster maps and the count of loads since cold reset kept (Tables 18.2, 7.19). -/
def Fb.afterReset (f : Fb) : Fb :=
  { Fb.reset with loadCount := f.loadCount, authCtrl := f.authCtrl, ownerDigest := f.ownerDigest, cellRepair := f.cellRepair,
                  clusterMap := f.clusterMap, capacity := f.capacity, fusedCell := f.fusedCell,
                  fusedCluster := f.fusedCluster, failed := f.failed }

/-- The waystations emptied (R38): the level lines stand, the standby pair lies in the management island. -/
def Ws.afterReset (w : Ws) : Ws :=
  { Ws.reset with
    standbyDown := w.standbyDown, standbyUp := w.standbyUp, regsOut := w.regsOut, haltMc := w.haltMc,
    haltDebug := w.haltDebug, haltSm := w.haltSm, portMc := w.portMc, portSm := w.portSm,
    seqs := tput 0 (tput 0 [] 4 (tget 0 w.seqs 4)) 5 (tget 0 w.seqs 5) }

/-- The data plane reset (Table 18.2): everything but memory and the registers named as kept. -/
def resetPlane (keepRet : Bool) (s : State) : State :=
  let cores := s.cores.foldl (fun (t : Tbl Core) e => tput Core.reset t e.1 e.2.afterReset) []
  let s1 := resetMc keepRet (breakScrub s)
  let s2 := { s1 with
    cells := [], cores := cores, fb := s1.fb.afterReset, ws := s1.ws.afterReset, lk := s1.lk.afterReset keepRet,
    cl := s1.cl.afterReset keepRet, ue := s1.ue.afterReset keepRet, tw := Tw.reset,
    sf := { s1.sf with mcEnable := 0 },
    rst := { s1.rst with dataPlaneOn := false, lasersPermitted := false } }
  relampAll (forgetTotals (endDebugHalts s2))

/-! ### The re-shard journal after a reset (R368, R370, Table 18.9) -/

/-- Sets the re-shard states from the journal and the black box; the event follows at step 9. -/
def findJournal (cold : Bool) (s0 : State) : State :=
  let s := if cold then s0 else noteReads (noteReads s0 journalA 4096) journalB 4096
  let l := if cold then s.bb.reshardOpen else s.cl.lost
  match (if cold then none else jCurrent s) with
  | some (_, h) =>
    if h.state = 0 then
      { s with cl := { s.cl with held := false, lost := l, rsState := if l then 4 else 0 } }
    else
      let done := ((List.range h.cycles).filter fun c => jDoneBit s c).length
      { s with cl := { s.cl with held := true, lost := l, rsState := if l then 4 else 2,
                                 rsDone := done, rsTotal := h.cycles } }
  | none =>
    { s with cl := { s.cl with held := false, lost := l, rsState := if l then 4 else 0, rsDone := 0,
                               rsTotal := 0 } }

/-! ### SCRUB (R551) -/

/-- The memory part begins: MC_GEN.GEN advances, and no sector bears the new generation yet (R287). -/
def beginScrub (s : State) : State :=
  { s with mem := { s.mem with gen := if s.mem.gen = 14 then 1 else s.mem.gen + 1, scrubbed := some 0,
                               initRunning := true, stale := [] } }

/-- A core whose memories SCRUB has written as zero. -/
def Core.scrubbed (c : Core) : Core :=
  { c with imem := [], dmem := [], dmemP := [], tshadow := [], tshadowP := [], tlive := [], tliveP := [] }

/-- A SET_ROUTE_EPOCH that waits for the epoch before to end completes: no epoch is live any more (Table 10.7; log entry 1331). -/
def retireEpoch (s : State) : State :=
  match s.lk.epochWaiter with
  | none => s
  | some h => complete h 0 0 [] { s with lk := { s.lk with epochWaiter := none } }

/-- SCRUB has done every part (R551); the failures its self-tests found are recorded (R87, R170). -/
def endScrub (tests : List SelfTest) (s : State) : State :=
  let cores := s.cores.foldl (fun (t : Tbl Core) e => tput Core.reset t e.1 e.2.scrubbed) []
  let open_ := s.bb.reshardOpen
  let handle := s.bb.reshardHandle
  let s1 := { s with
    mem := { s.mem with bytes := [], poison := [], stale := [], scrubbed := none, initRunning := false },
    cells := [], cores := cores,
    fb := { s.fb with job := 0, jobSeed := 0, regions := [], powerDie := [], powerModule := 0 },
    cl := Cl.reset, ue := Ue.reset,
    lk := { s.lk with bank0 := bankReset, bank1 := bankReset, epoch := 0, prevEpoch := 0, prevLive := false, fences := [],
                      peers := [] } }
  let s2 := tests.foldl (fun st t => recordTest t st) (retireEpoch s1)
  if open_ then noteEvent 0x0109 (leBytes 4 handle ++ [2]) s2 else s2

end Sys2Proof.Machine
end

