-- ==== Sys2Proof/Machine/Power.lean ====
section
/-!
DEFINITION. Power states and their transitions, the steward token's loss with a port, PLLs, droop, power samples and the
management controller's restart (14 R438 to R452; 13 R399, R415; 16 R502 to R504).
-/

namespace Sys2Proof.Machine

open Sys2Proof

/-! ### The steward token and port resets -/

/-- The token becomes FREE for a cause of Table 13.4 (R415). -/
def freeToken (cause : Nat) (s : State) : State :=
  postEvent 0x8002 [0, BitVec.ofNat 64 cause] { s with cp := { s.cp with holder := 0, cause := cause } }

/-- The banked CP registers, the MSI-X state and the queues of a port return to their reset values; accepted commands run
on without completions (R399, R437, Table 18.2). -/
def PortCp.afterPortReset (c : PortCp) : PortCp :=
  { PortCp.reset with resets := c.resets + 1, fenced := c.fenced,
                      runsOn := c.runsOn ++ (c.pend.filter fun p => !p.done).map (·.handle), linkUp := c.linkUp, perstLow := c.perstLow,
                      d3cold := c.d3cold }

/-- A port reset, or the loss of its link (R399, R415, Table 18.9). -/
def resetPort (port : Nat) (kind : PortResetKind) (s : State) : State :=
  let s1 := modCp s port fun c =>
    { c.afterPortReset with linkUp := c.linkUp && kind == .flr }
  -- a RESET whose record is discarded runs on
  let due := (getCp s port).records.any fun r => r.opcode == 0x0806 && r.status == 0
  let s2 := bbEvent 0x0101 [BitVec.ofNat 8 port] { s1 with cp := { s1.cp with resetDue := s1.cp.resetDue || due } }
  if holdsToken s2 port then freeToken (if kind = .linkDown then 3 else 4) s2 else s2

/-! ### The power state (R439 to R441) -/

/-- Whether the slot straps mark a port unconnected; both tied count as neither (R440, R542). -/
def unconnected (s : State) (port : Nat) : Bool := if s.rst.ncA && s.rst.ncB then false else if port = 0 then s.rst.ncA else s.rst.ncB

/-- The D-state a port counts as: 0 D0, 1 D3hot, 3 D3cold (R440). -/
def portD (s : State) (port : Nat) : Nat := if unconnected s port || (getCp s port).d3cold then 3 else (getCp s port).dState

/-- The power state a D-state implies (R439). -/
def impliedBy (d : Nat) : Nat := if d = 0 then 0 else if d = 1 then 3 else 4

/-- The port floor; not judged before bring-up step 9 (R439, R530). -/
def floorOf (s : State) : Nat :=
  let early := match s.rst.bringup with
    | some (.fabric, _) => !s.rst.fromP3
    | some _ => true
    | none => false
  if early then 0 else Nat.min (impliedBy (portD s 0)) (impliedBy (portD s 1))

/-- The deeper of the commanded state and the floor (R439). -/
def wantedState (s : State) : PowerState := PowerState.ofCode (Nat.max s.pw.commanded (floorOf s))

/-! ### Ends that a power state brings -/

/-- A FW_UPDATE broken off before its commit leaves the slot it wrote empty or invalid, as its stage was (R535); the stage
is free. -/
def breakUpdate (s : State) : State :=
  if s.cp.longops.any fun e => e.2.opcode == 0x0802 && e.2.ran && !e.2.pastCommit then
    let r := drawFree s
    let v := if r.1 % 2 = 0 then 0 else 2
    { r.2 with sc := if s.sc.running = 0 then { r.2.sc with stateB := v, slotB := [] } else { r.2.sc with stateA := v, slotA := [] } }
  else s

/-- An unlock in progress ends (Table 16.10): the command is refused with a cause, and the nonce is void. -/
def endUnlock (cause : Nat) (s : State) : State :=
  match s.sc.unlock with
  | none => s
  | some (h, _, _, _, _) =>
    complete h 0x0503 0 [BitVec.ofNat 64 cause]
      { s with sc := { s.sc with unlock := none, requested := 0, presenceWait := false, presenceLeft := 0, scrubbing := false,
                                 lastCause := cause, nonceValid := false, counts := taddW s.sc.counts 1 1 } }

/-- Drops accepted commands without a completion. -/
def dropCommands (hs : List Nat) (s : State) : State :=
  let cut := fun (c : PortCp) => { c with pend := c.pend.filter fun p => p.done || !hs.contains p.handle }
  modCp (modCp s 0 cut) 1 cut

/-- Every live phase, program, caravan and long operation ends without a completion (R443). -/
def endWork (s : State) : State :=
  let hs := (s.fb.runs.map fun e => e.2.handle) ++ (s.fb.loads.map (·.handle)) ++ (s.cl.caravans.map (·.handle)) ++
    (s.cp.longops.map fun e => e.2.handle)
  let s1 := dropCommands hs (breakUpdate s)
  { s1 with cp := { s1.cp with longops := [] }, fb := { s1.fb with runs := [], loads := [] },
            cl := { s1.cl with caravans := [], parked := [], order := [] },
            cores := s1.cores.foldl (fun (t : Tbl Core) e => tput Core.reset t e.1 e.2.afterReset) [] }

/-- Whether a phase, program, caravan or long operation is live (R423). -/
def workLive (s : State) : Bool :=
  !s.fb.runs.isEmpty || !s.cl.caravans.isEmpty || !s.cp.longops.isEmpty

/-! ### Ends of commands (R527) -/

/-- Whether a command's completion comes from the data plane (R421, R527). -/
def fromDataPlane (op : Nat) : Bool :=
  (decide (op < 0x0600) || op == 0x0801 || op == 0x0804 || op == 0x0805)

/-- At a fabric reset every command that waits for the data plane completes as lost, a RESHARD as held; caravans' commands
end with them (R373, R527). Commands behind a FENCE have not started. -/
def failCommands (s : State) : State :=
  [0, 1].foldl (fun st port =>
    let c := getCp st port
    let out := c.pend.filter fun p =>
      !p.done && fromDataPlane p.opcode && !(c.fenced.any fun e => e.1 == p.handle)
    out.foldl (fun x p =>
      if p.opcode = 0x0301 && (s.cl.caravans.any fun v => v.handle == p.handle) then dropCommands [p.handle] x
      else if p.opcode = 0x0504 then endCommand p.handle 0x0309 0 [] x
      else endCommand p.handle 0x0016 0 [1] x) st) s

/-! ### Transitions (Table 14.3) -/

/-- Entry to P4: every supply but the safety monitor's and the hold-up is removed (Table 14.1, R443, R504). -/
def enterP4 (s : State) : State :=
  let s1 := endLevel (endUnlock 9 (postEvent 0x8003 [4] s))
  let s2 := resetPlane false s1
  let off := fun (c : PortCp) => { c with linkUp := false }
  let s3 := modCp (modCp s2 0 off) 1 off
  let ports := s3.lk.ports.map fun v => { v with state := .dark, fromP3 := false }
  relampAll { s3 with
    lk := { s3.lk with ports := ports }, pw := { s3.pw with state := .p4, target := none, freq := [] },
    cp := { s3.cp with accepting := false, longops := [] }, mem := { s3.mem with ready := false, retainedValid := false },
    rst := { s3.rst with bringup := none, quiesce := false, lasersPermitted := false },
    ws := { s3.ws with standbyDown := [], standbyUp := [] },
    sf := { s3.sf with pilotA := 0, pilotB := 0, proof := 0 },
    sc := { s3.sc with nonceValid := false } }

/-- Every ACTIVE port is drained as a release does, without the checks of R330; ports coming up fall back to PILOT
(R305). -/
def drainForP3 (s : State) : State :=
  (List.range 10).foldl (fun st p =>
    match (getPort st p).state with
    | .active => enterPort p .drain (modPort st p fun v => { v with fromP3 := true })
    | .drain => modPort st p fun v => { v with fromP3 := true }
    | .ramp => enterPort p .pilot st
    | .train => enterPort p .pilot st
    | .ready => enterPort p .pilot st
    | _ => st) s

/-- The SET_POWER_STATE commands that wait for the transition under way to end, by handle. -/
def waitingFor (s : State) : List Nat :=
  match s.pw.target with
  | some (_, hs) => hs
  | none => []

/-- A P3 on its way is withdrawn before the device is in it: data lasers are permitted again (R555), and the ports no longer come
up as on leaving P3. -/
def withdrawP3 (s : State) : State :=
  let under := match s.pw.target with
    | some (x, _) => x == .p3
    | none => false
  if under && s.pw.state != .p3 then
    { s with rst := { s.rst with lasersPermitted := s.rst.dataPlaneOn && s.rst.bringup.isNone },
             lk := { s.lk with ports := s.lk.ports.map fun v => { v with fromP3 := false } } }
  else s

/-- Starts the transition to a state; the commands that wait for an earlier target complete when this one is reached (R441,
R442, log entry 1425). -/
def beginTransition (t : PowerState) (h : Option Nat) (s : State) : State :=
  let s1 := { withdrawP3 s with pw := { s.pw with target := some (t, waitingFor s ++ h.toList) } }
  match t with
  | .p4 => bbEvent 0x0007 [BitVec.ofNat 8 s.pw.state.code, 4] { s1 with rst := { s1.rst with lasersPermitted := false } }
  | .p3 => { drainForP3 s1 with rst := { s1.rst with lasersPermitted := false } }
  | t =>
    let s2 := capAll 2 (if t = .p1 then grid25 s1.pw.p1Cap else 2700) s1
    if s2.pw.state = .p3 then
      let s3 := bbEvent 0x0006 [] (failCommands s2)
      { s3 with rst := { s3.rst with bringup := some (.fabric, 3), fromP3 := true } }
    else s2

/-- Whether the device is in P4 or on its way there, which no command and no floor changes (R439, R441). -/
def deepestBound (s : State) : Bool :=
  s.pw.state == .p4 ||
    match s.pw.target with
    | some (x, _) => x == .p4
    | none => false

/-- The commanded state or the floor has changed: the device moves to the deeper of both (Table 14.2). A P3 forced by the
floor ends all work (R443). -/
def followPower (h : Option Nat) (s : State) : State :=
  let done := fun (st : State) => match h with
    | some x => complete x 0 0 [] st
    | none => st
  if deepestBound s then s
  else
    let t := wantedState s
    let under := match s.pw.target with
      | some (x, _) => x == t
      | none => false
    if under then
      let s1 := { s with pw := { s.pw with target := some (t, waitingFor s ++ h.toList) } }
      if t = .p1 && h.isSome then capAll 2 (grid25 s1.pw.p1Cap) s1 else s1
    else if s.pw.target.isNone && s.pw.state = t then
      done (if t = .p1 then capAll 2 (grid25 s.pw.p1Cap) s else s)
    else if t = .p4 then beginTransition .p4 h { s with pw := { s.pw with floorOff := true } }
    else if t = .p3 && s.pw.commanded < 3 then beginTransition .p3 h (endWork s)
    else beginTransition t h s

/-- Commands a power state, with its cap for P1 (R439, R504). -/
def commandPower (n cap : Nat) (h : Option Nat) (s : State) : State :=
  let s1 := { s with pw := { s.pw with commanded := n, p1Cap := if n = 1 then cap else s.pw.p1Cap } }
  followPower h s1

/-- The default level of a BLANK module (R502, R504): DBG_INVASIVE, in P1 with a cap of 2,000 MHz. -/
def blankDefault (s : State) : State :=
  if s.sc.lifecycle = 0 then
    { s with sc := { s.sc with level := 2 }, pw := { s.pw with commanded := 1, p1Cap := 2000 } }
  else s

/-- What entry to P3 does once the ports are dark (Table 14.3, R444, R500, R504); a port in PILOT goes on from there on leaving
P3 (R301). -/
def enterP3 (s : State) : State :=
  let s1 := endLevel (endUnlock 9 s)
  let s2 := loseCores (loseStores (resetPlane true s1))
  let s3 := findJournal false { s2 with mem := { s2.mem with ready := false, selfRefresh := true } }
  { s3 with lk := { s3.lk with ports := s3.lk.ports.map fun v => { v with fromP3 := v.state == .pilot } }, sf := { s3.sf with proof := 0 }, sc := { s3.sc with nonceValid := false }, pw := { s3.pw with freq := [] } }

/-- An ACTIVE port runs on its logical lane 0 alone: its other lanes are dark (R305). -/
def Port.narrowed (v : Port) : Port :=
  { v with narrow := true, wideRoles := v.lanes.map (·.role), move := none,
           lanes := v.lanes.map fun x => if x.role = 0 || x.role = 17 then x else { x with role := 18 } }

/-- A narrow port relights and retrains its other lanes within 5 ms, in their roles as before, the heater loops in wide capture
(R305; log entry 1021). -/
def Port.widened (v : Port) : Port :=
  { v with narrow := false, wideRoles := [], relight := 5,
           lanes := ((List.range v.lanes.length).zip v.lanes).map fun e =>
             if e.2.role = 18 then { e.2 with role := lget 18 v.wideRoles e.1 } else e.2 }

/-- Narrows the ACTIVE ports, or widens the narrow ones (R305). -/
def narrowPorts (on : Bool) (s : State) : State :=
  (List.range 10).foldl (fun st p =>
    modPort st p fun v =>
      if on then (if v.state == .active && !v.narrow then v.narrowed else v) else if v.narrow then v.widened else v) s

/-- A power state is reached, and the commands that waited for it complete (R442). -/
def reachState (t : PowerState) (hs : List Nat) (s : State) : State :=
  let old := s.pw.state
  let s1 : State := match t with
    | .p3 => enterP3 s
    | .p2 => narrowPorts true s
    | _ => if s.pw.state = .p2 then narrowPorts false s else s
  let s2 := { s1 with pw := { s1.pw with state := t, target := none } }
  let s3 := if old = t then s2
            else
              let ev := if t = .p3 then 0x0007 else 0x0102
              postEvent 0x8003 [BitVec.ofNat 64 t.code]
                (bbEvent ev [BitVec.ofNat 8 old.code, BitVec.ofNat 8 t.code] s2)
  relampAll (hs.foldl (fun st x => complete x 0 0 [] st) s3)

/-- POWER_TRANSITION_DONE (R442, R443, R444). -/
def execPowerTransitionDone (s : State) : Out :=
  .next (match s.pw.target with
    | none => s
    | some (.p4, _) => enterP4 s
    | some (.p3, h) => if (List.range 10).any fun p => (getPort s p).state.lit then s else reachState .p3 h s
    | some (t, h) =>
      if s.pw.state = .p3 then
        if s.rst.bringup.isNone && s.rst.dataPlaneOn then
          let s1 := blankDefault { s with rst := { s.rst with fromP3 := false } }
          let t1 := if s1.sc.lifecycle = 0 then .p1 else t
          reachState t1 h (if t1 = .p1 then capAll 2 (grid25 s1.pw.p1Cap) s1 else s1)
        else s
      else reachState t h s)

/-- D_STATE_CHANGE (R439 to R441, R443). -/
def execDStateChange (port d : Nat) (s : State) : Out :=
  guardUnit (decide (port < 2)) <|
    whenTaken (d == 0 || d == 1 || d == 3) (fun st => followPower none (modCp st port fun c => { c with dState := d })) s

/-- PERST_HOLD_TIMEOUT (R440, R530). -/
def execPerstHoldTimeout (port : Nat) (s : State) : Out :=
  guardUnit (decide (port < 2)) <|
    whenTaken ((getCp s port).perstLow && s.rst.bringup.isNone && !s.rst.quiesce) (fun st =>
      followPower none (modCp st port fun c => { c with d3cold := true })) s

/-- UNDERVOLTAGE (R439, Table 17.5). -/
def execUndervoltage (mv : Nat) (s : State) : Out :=
  let s1 := { s with pw := { s.pw with inputOk := false } }
  .next (if deepestBound s then s1
    else beginTransition .p4 none (bbEvent 0x0002 (leBytes 4 mv) { s1 with pw := { s1.pw with undervolt := true } }))

/-! ### Droop and input power (R449, R451) -/

/-- DROOP (R449). -/
def execDroop (core : Nat) (s : State) : Out :=
  guardUnit (decide (core < Config.numCores)) <|
    whenTaken (!(getCore s core).stretched) (fun st =>
      let d := dieOfCore core
      let s1 := modCore st core fun c => { c with stretched := true }
      { s1 with pw := { s1.pw with stretches := tadd s1.pw.stretches d 1, counts := taddW s1.pw.counts 4 1 } }) s

/-- DROOP_RECOVERY (R449). -/
def execDroopRecovery (core : Nat) (s : State) : Out :=
  guardUnit (decide (core < Config.numCores)) (modCore s core fun c => { c with stretched := false })

/-- The effective limit in watts (R450). -/
def effectiveLimit (s : State) : Nat := if s.pw.coolant then 1500 else s.pw.limitW

/-- POWER_SAMPLE (R451): the hardware orders 1,200 MHz, unless its cap already stands on every die. -/
def execPowerSample (_mv _ma mw : Nat) (s : State) : Out :=
  let above := decide (effectiveLimit s * 1000 < mw)
  let n := if above then s.pw.overSamples + 1 else 0
  let s1 := { s with pw := { s.pw with overSamples := n } }
  let act := (decide (2400000 < mw) || decide (100 ≤ n)) && (List.range 8).any fun d => capBy s d 6 != 1200
  .next (if act then
    let s2 := { s1 with pw := { s1.pw with excursion := true, counts := taddW s1.pw.counts 5 1 } }
    let s3 := (List.range 8).foldl (fun st d => setCap d 6 1200 st) s2
    if planeUp s3 then postOrder s3 0x21 (.throttle 255 1200) else s3
  else s1)

/-! ### PLLs (R445 to R447) -/

/-- "Step fails" of Table 10.3 for a port whose clock is lost. -/
def stepFails (p : Nat) (s : State) : State :=
  match (getPort s p).state with
  | .pilot => enterPort p .fault s
  | .ramp => enterPort p .fault s
  | .train => enterPort p .fault s
  | .ready => enterPort p .fault s
  | .active => enterPort p .fault s
  | .drain => enterPort p .released s
  | _ => s

/-- A die that has lost a clock goes out of service at the next configuration load: its clusters in service are pending and
it has no spares (Table 14.4, R172); its counts change as the load applies it (R175). -/
def dieLost (d : Nat) (s : State) : State :=
  (List.range 156).foldl (fun st p =>
    let i := d * 156 + p
    let w := clusterMapOf st i
    match mapState w with
    | 0 => setClusterMap i (putBits (putBits w 9 8 2) 14 14 1) st
    | 1 => setClusterMap i (putBits (putBits w 9 8 3) 14 14 1) st
    | _ => st) s

/-- Whether the repair and cluster maps stand: from step 8 of a cold bring-up on (R174). -/
def mapsStand (s : State) : Bool :=
  match s.rst.bringup with
  | some (.cold, n) => decide (8 < n)
  | _ => true

/-- Whether both PLLs of a pair have failed. -/
def pairDead (s : State) (i : Nat) : Bool := (tget 0 s.pw.pll i).getLsbD 1 && (tget 0 s.pw.pll i).getLsbD 2

/-- The HALT of a die that has lost a clock (Table 14.4). -/
def haltLost (d : Nat) (s : State) : State :=
  if planeUp s then postOrder s 0x22 (.halt (BitVec.ofNat 8 (2 ^ d)) false false 0) else s

/-- Both PLLs of a pair are lost (Table 14.4); before the maps stand, a die's loss is recorded when they do. -/
def pairLost (i : Nat) (s : State) : State :=
  let s1 := { s with pw := { s.pw with pll := tput 0 s.pw.pll i (tget 0 s.pw.pll i &&& ~~~8) } }
  if i < 24 then
    let d := i % 8
    haltLost d (if mapsStand s1 then saveRepair (dieLost d s1) else s1)
  else if i < 34 then stepFails (i - 24) s1
  else if i < 36 then followPower none (resetPort (i - 34) .linkDown s1)
  else { s1 with pw := { s1.pw with mcRestarting := true } }

/-- One PLL of a pair fails (R446): the spare takes over, or the pair is lost. -/
def pllFails (i : Nat) (spare : Bool) (s : State) : State :=
  if 37 ≤ i then s
  else
    let w := tget 0 s.pw.pll i
    let had := if spare then w.getLsbD 2 else w.getLsbD 1
    if had then s
    else
      let w1 := w ||| (if spare then 4 else 2)
      let put := fun (x : W32) (st : State) => { st with pw := { st.pw with pll := tput 0 st.pw.pll i x } }
      if w1.getLsbD 1 && w1.getLsbD 2 then pairLost i (put w1 s)
      else if spare then put w1 s
      else
        let n := Nat.min 65535 (bitsOf w.toNat 31 16 + 1)
        let w2 := putBits w1 31 16 n ||| 1
        bbEvent 0x010A [BitVec.ofNat 8 i] { put w2 s with pw := { (put w2 s).pw with counts := taddW s.pw.counts 3 1 } }

/-- LOCK_MONITOR_WINDOW (R446, R447). -/
def execLockMonitorWindow (bad : List (Nat × Bool)) (refLost : Bool) (s : State) : Out :=
  let s1 := bad.foldl (fun st e => pllFails e.1 e.2 st) s
  .next (if refLost then { s1 with pw := { s1.pw with refLost := true } } else s1)

/-! ### The management controller (R452, R458) -/

/-- RECAL_TIMEOUT (R458): the recalibration starts again, with the guard kept. -/
def execRecalTimeout (s : State) : Out :=
  .next (whenTaken s.pw.recal (fun st => { st with pw := { st.pw with counts := taddW st.pw.counts 7 1 } }) s)

/-- LOCKSTEP_MISMATCH (R452). -/
def execLockstepMismatch (s : State) : Out :=
  .next (whenTaken (s.pw.state != .p4) (fun st => { st with pw := { st.pw with mcRestarting := true } }) s)

/-- MC_RESTART_DONE (R452, R38, R517): orders are resent, the restart recorded; the window it broke closes. -/
def execMcRestartDone (s : State) : Out :=
  .next (whenTaken (s.pw.mcRestarting && !((tget 0 s.pw.pll 36).getLsbD 1 && (tget 0 s.pw.pll 36).getLsbD 2)) (fun st =>
    let s1 := { st with pw := { st.pw with mcRestarting := false, counts := taddW st.pw.counts 2 1 },
                        db := { st.db with mcuHalted := false } }
    sendCurrent (bbEvent 0x0004 (leBytes 4 (bits64 st.mg.fw 31 0)) s1)) s)

end Sys2Proof.Machine
end

