-- ==== Sys2Proof/Machine/Trust.lean ====
section
/-!
DEFINITION. The security engine: firmware images and boot, tokens and unlocks, lifecycle transitions, attestation, and the
writes of the DB block (16).
-/

namespace Sys2Proof.Machine

open Sys2Proof

/-! ### Firmware (R487, R488) -/

/-- Contents of a flash slot: 0 A, 1 B. -/
def slotOf (s : State) (x : Nat) : List Byte := if x = 0 then s.sc.slotA else s.sc.slotB

/-- SC_FW_SLOTS state of a slot. -/
def slotState (s : State) (x : Nat) : Nat := if x = 0 then s.sc.stateA else s.sc.stateB

/-- Writes a slot and its state. -/
def setSlot (x : Nat) (img : List Byte) (st : Nat) (s : State) : State :=
  { s with sc := if x = 0 then { s.sc with slotA := img, stateA := st } else { s.sc with slotB := img, stateB := st } }

/-- Whether every byte of a list is zero. -/
def allZero (l : List Byte) : Bool := l.all (· == 0)

/-- The signed message: a prefix and the digest of the bytes covered. -/
def signedMessage (prefix_ : List Byte) (covered : List Byte) : List Byte := prefix_ ++ sha3_384 covered

/-- ascii("SHX-FW-1"), ascii("SHX-DBT-1"), ascii("SHX-ATR-1"). -/
def fwPrefix : List Byte := [0x53, 0x48, 0x58, 0x2D, 0x46, 0x57, 0x2D, 0x31]
def dbtPrefix : List Byte := [0x53, 0x48, 0x58, 0x2D, 0x44, 0x42, 0x54, 0x2D, 0x31]
def atrPrefix : List Byte := [0x53, 0x48, 0x58, 0x2D, 0x41, 0x54, 0x52, 0x2D, 0x31]

/-- Whether a firmware image has the layout of Table 16.2 and the variant of this module. -/
def fwFormed (s : State) (img : List Byte) : Bool :=
  let n := field img 8 4
  let t := img.drop (n - 5376)
  decide (img.length = n) && decide (8192 ≤ n) && decide (n ≤ 2 ^ 23) && n % 64 == 0 &&
    img.take 4 == [0x53, 0x58, 0x46, 0x31] && field img 4 2 == 1 && field img 6 1 == bits64 s.mg.id 47 40 &&
    allZero (slice img 7 1) && allZero (slice img 18 238) &&
    t.take 4 == [0x53, 0x49, 0x47, 0x31] && field t 4 2 == 1 && allZero (slice t 6 10) && allZero (slice t 5373 3)

/-- Whether an image verifies under the firmware key and the rollback counter (R484, R485, R487, R488). -/
def fwGood (s : State) (img : List Byte) : Bool :=
  let n := field img 8 4
  let t := img.drop (n - 5376)
  fwFormed s img && decide (s.sc.rollback ≤ field img 16 2) && crbKeyDigest t == s.sc.fwKey &&
    signaturesHold t (signedMessage fwPrefix (img.take (n - 5376)))

/-- SC_BOOT bit FAIL of a slot. -/
def failBit (x : Nat) : Nat := 2 + x

/-- The boot ROM's choice (R488): the selected slot, else the other. A slot that has failed verification or whose firmware
does not complete is not taken. -/
def bootSlot (s : State) (failed : List Nat) : Option Nat :=
  [s.sc.selected, 1 - s.sc.selected].find? fun x =>
    !failed.contains x && !s.sc.bootFlags.getLsbD (failBit x) && fwGood s (slotOf s x)

/-- What the boot ROM leaves in the SC block and MG_FW (R488, R489, Tables 13.14, 16.16, 16.17). -/
def bootFirmware (failed : List Nat) (s : State) : State :=
  let kind := fun (x : Nat) => if (slotOf s x).isEmpty then 0 else if fwGood s (slotOf s x) then 1 else 2
  let r := bootSlot s failed
  let fails := fun (x : Nat) =>
    (failed.contains x || s.sc.bootFlags.getLsbD (failBit x) || !fwGood s (slotOf s x)) && (x == s.sc.selected || r != some s.sc.selected)
  let bad := ((List.range 2).filter fun x => fails x && !fwGood s (slotOf s x)).length
  let flags := (if r == some (1 - s.sc.selected) then 1 else 0) + (if r.isNone then 2 else 0) + (if fails 0 then 4 else 0) +
    (if fails 1 then 8 else 0)
  let x := r.getD s.sc.selected
  let v := if r.isNone then 0 else field (slotOf s x) 12 4
  { s with
    sc := { s.sc with stateA := kind 0, stateB := kind 1, running := x, fwVersion := v, bootFlags := BitVec.ofNat 32 flags,
                      counts := taddW s.sc.counts 0 bad },
    mg := { s.mg with fw := BitVec.ofNat 64 (v + x * 2 ^ 32 + s.sc.rollback % 2 ^ 16 * 2 ^ 40) },
    rst := { s.rst with recovery := r.isNone } }

/-- The rollback counter rises with an image that completes step 9 (R490); how many fuses that takes is free. -/
def raiseRollback (s : State) : State :=
  let idx := field (slotOf s s.sc.running) 16 2
  if s.sc.rollback < idx && 0 < s.sc.fusesLeft then
    let r := drawFree s
    let left := r.1 % s.sc.fusesLeft
    bbEvent 0x0107 (leBytes 2 idx)
      { r.2 with sc := { r.2.sc with rollback := idx, fusesLeft := left, bootFlags := r.2.sc.bootFlags ||| 16 } }
  else s

/-! ### Levels and transitions (R492, R496, R501 to R504) -/

/-- What Table 16.9 requires: authority, presence, scrub; none where the request is blank. -/
def requirement (lifecycle level : Nat) : Option (Nat × Bool × Bool) :=
  match lifecycle, level with
  | 0, 0x10 => some (0, false, false)
  | 1, 1 => some (0, false, false)
  | 1, 2 => some (0, false, false)
  | 1, 0x11 => some (0, true, false)
  | 2, 1 => some (1, true, false)
  | 2, 2 => some (1, true, true)
  | 2, 0x12 => some (1, true, false)
  | 3, 1 => some (0, false, false)
  | 3, 2 => some (0, false, false)
  | 3, 0x10 => some (0, false, false)
  | _, _ => none

/-- The state a transition code leads to (Table 16.4). -/
def transitionTo (code : Nat) : Nat := if code = 0x10 then 1 else if code = 0x11 then 2 else 3

/-- The first check of R502 that a token fails, by its cause; 0 when it passes. -/
def tokenCause (s : State) (level : Nat) (t : List Byte) : Nat :=
  let auth := field t 7 1
  let okAuth := match requirement s.sc.lifecycle level with
    | some (a, _, _) => a == auth
    | none => false
  let key := if auth = 0 then s.sc.vendorKey else padTo 48 s.sc.ownerDbg
  let msg := signedMessage dbtPrefix (t.take 2240)
  if t.length ≠ 5616 || t.take 4 ≠ [0x44, 0x42, 0x54, 0x31] || field t 4 2 ≠ 1 then 1
  else if field t 6 1 ≠ level then 2
  else if field t 8 8 ≠ s.mg.serial.toNat then 3
  else if !s.sc.nonceValid || field t 16 32 ≠ s.sc.nonce.toNat then 4
  else if !okAuth then 5
  else if sha3_384 (slice t 256 1984) ≠ key then 6
  else if !(ed25519Verify (slice t 256 32) msg (slice t 2240 64) &&
      mldsa65Verify (slice t 288 1952) msg (slice t 2304 3309)) then 7
  else if 16 ≤ level && 48 ≤ s.sc.transitions then 10
  else if level = 0x11 && allZero (slice t 96 48) then 11
  else 0

/-- Refuses an unlock (R502, Table 16.15). -/
def refuseUnlock (handle cause : Nat) (s : State) : State :=
  let void := decide (4 ≤ cause)
  complete handle 0x0503 0 [BitVec.ofNat 64 cause]
    { s with sc := { s.sc with unlock := none, requested := 0, presenceWait := false, presenceLeft := 0, scrubbing := false,
                               lastCause := cause, nonceValid := s.sc.nonceValid && !void,
                               counts := taddW s.sc.counts 1 1 } }

/-- A level or a transition takes effect, and the command completes (R492, R502, R504). -/
def grantUnlock (handle level auth : Nat) (token : List Byte) (s : State) : State :=
  let sc := { s.sc with unlock := none, requested := 0, presenceWait := false, presenceLeft := 0, scrubbing := false,
                        nonceValid := s.sc.nonceValid && auth == 0xFF }
  if 16 ≤ level then
    let lifeNext := transitionTo level
    let deploy := level == 0x11
    let s1 := { s with sc := { sc with next := lifeNext, transitions := sc.transitions + 1, counts := taddW sc.counts 7 1,
                                       nextCrb := if deploy then slice token 48 48 else [],
                                       nextDbg := if deploy then slice token 96 48 else [] } }
    complete handle 0 0 [] (bbEvent 0x0008 [BitVec.ofNat 8 s.sc.lifecycle, BitVec.ofNat 8 lifeNext] s1)
  else
    let s1 := { s with sc := { sc with level := level, counts := taddW sc.counts 2 1 } }
    let s2 := bbEvent 0x0009 [BitVec.ofNat 8 level, BitVec.ofNat 8 auth] s1
    complete handle 0 0 [] (if level = 2 && s2.pw.state = .p0 then commandPower 1 2000 none s2 else s2)

/-- The scrub of an unlock: the exclusion is taken; the memory part begins when no other work is live (R502 step 4). -/
def startUnlockScrub (s : State) : State :=
  let s1 := { s with sc := { s.sc with scrubbing := true } }
  if workLive s1 || !s1.fb.loads.isEmpty then s1 else beginScrub s1

/-- Steps 4 and 5 of R502 after presence. -/
def unlockOn (s : State) : State :=
  match s.sc.unlock with
  | none => s
  | some (h, level, auth, token, scrub) => if scrub then startUnlockScrub s else grantUnlock h level auth token s

/-- Lowers the level, or leaves it, without a token (R501). -/
def lowerLevel (handle level : Nat) (s : State) : State :=
  let old := s.sc.level
  let s1 := { s with sc := { s.sc with level := level } }
  let s2 :=
    if old = 2 && level < 2 then
      let dies := s1.ws.haltDebug
      let free := if dies = 0 || !planeUp s1 then s1 else postOrder s1 0x23 (.halt dies false true 0)
      { free with db := { free.db with mcuHalted := false, ctrl := free.db.ctrl &&& ~~~0x10000 } }
    else s1
  complete handle 0 0 [] (if level < old then bbEvent 0x000A [BitVec.ofNat 8 old, BitVec.ofNat 8 level] s2 else s2)

/-- A DEBUG_UNLOCK that has been accepted (R501, R502). -/
def startUnlock (handle level : Nat) (token : List Byte) (s : State) : State :=
  if level ≤ s.sc.level then lowerLevel handle level s
  else if s.sc.lifecycle = 0 && level < 16 then grantUnlock handle level 0xFF [] s
  else
    let s1 := { s with sc := { s.sc with stage := token, requested := if level < 4 then level else 0 } }
    match tokenCause s1 level token, requirement s1.sc.lifecycle level with
    | 0, some (auth, presence, scrub) =>
      let s2 := { s1 with sc := { s1.sc with unlock := some (handle, level, auth, token, scrub) } }
      if presence then { s2 with sc := { s2.sc with presenceWait := true, presenceLeft := 30000 } } else unlockOn s2
    | 0, none => refuseUnlock handle 5 s1
    | c, _ => refuseUnlock handle c s1

/-- SERVICE_BUTTON (R502): a press before PRESENCE_WAIT sets does not count. -/
def execServiceButton (s : State) : Out :=
  .next (whenTaken s.sc.presenceWait (fun st => unlockOn { st with sc := { st.sc with presenceWait := false, presenceLeft := 0 } }) s)

/-- PRESENCE_TIMEOUT (R502). -/
def execPresenceTimeout (s : State) : Out :=
  .next (match s.sc.unlock with
    | some (h, _, _, _, _) =>
      if s.sc.presenceWait then
        refuseUnlock h 8 { s with sc := { s.sc with counts := taddW s.sc.counts 6 1 } }
      else s
    | none => s)

/-- UNLOCK_SCRUB_DONE (R502): live work has ended and the scrub is complete. -/
def execUnlockScrubDone (tests : List SelfTest) (s : State) : Out :=
  .next (match s.sc.unlock with
    | some (h, level, auth, token, _) =>
      if s.sc.scrubbing && !workLive s && s.fb.loads.isEmpty then
        let s1 := if s.mem.initRunning then s else beginScrub s
        grantUnlock h level auth token (endScrub tests s1)
      else s
    | none => s)

/-- A draw of SC_NONCE: its value is free (R500). -/
def drawNonce (s : State) : State :=
  let r := drawFree s
  { r.2 with sc := { r.2.sc with nonceValid := true, nonce := BitVec.ofNat 256 r.1 } }

/-- NONCE_DRAW (R500, R508): a write from a host without the token is discarded. -/
def execNonceDraw (port : Nat) (s : State) : Out :=
  guardUnit (decide (port < 2)) (whenTaken (holdsToken s port && s.pw.state != .p4) drawNonce s)

/-! ### The DB block (R496, R498, R506) -/

/-- A discarded write of the DB block: why, and the count (Tables 16.13, 16.20). -/
def dbRefuse (cause : Nat) (s : State) : State :=
  { s with db := { s.db with error := cause }, sc := { s.sc with counts := taddW s.sc.counts 5 1 } }

/-- RW fields of DB_CTRL. -/
def dbRwMask : W32 := 0x11AFF

/-- Whether an area of snapshots at SNAP_BASE lies within job memory (R507). -/
def snapFits (s : State) : Bool := decide (s.db.snapBase.toNat + 150 * 2 ^ 20 ≤ retainedBase)

/-- A write of DB_CTRL that the level and the token admit (R496, R506, Table 16.19). -/
def dbCtrlWrite (v : W32) (s : State) : State :=
  let orders := v.getLsbD 8 || v.getLsbD 10
  let memory := (v.getLsbD 8 && v.getLsbD 9) || (v.getLsbD 10 && v.getLsbD 11)
  if orders && s.db.mcuHalted then dbRefuse 2 s
  else if memory && !snapFits s then dbRefuse 3 s
  else
    let dies := v.setWidth 8
    let base := s.db.snapBase.toNat
    let s1 := { s with db := { s.db with ctrl := v &&& dbRwMask } }
    let s2 := if v.getLsbD 8 && planeUp s1 then postOrder s1 0x22 (.halt dies (v.getLsbD 9) true base) else s1
    let s3 := if v.getLsbD 10 && planeUp s2 then postOrder s2 0x23 (.halt dies (v.getLsbD 11) true base) else s2
    let newly := v.getLsbD 16 && !s3.db.mcuHalted
    let steps := v.getLsbD 17 && s3.db.mcuHalted && v.getLsbD 16
    if newly || steps then
      let r := drawFree s3
      { r.2 with db := { r.2.db with mcuHalted := true, mcuPc := BitVec.ofNat 32 r.1 } }
    else { s3 with db := { s3.db with mcuHalted := v.getLsbD 16 } }

/-- A write of DB_CTRL by a host or over JTAG, which has no steward check (R497, R498). -/
def dbCtrl (steward : Bool) (v : W32) (s : State) : State :=
  let other := (v ^^^ s.db.ctrl) &&& ~~~0x1000 &&& (dbRwMask ||| 0x20500)
  if !steward then dbRefuse 4 s
  else if s.sc.level = 0 || (s.sc.level = 1 && other ≠ 0) then dbRefuse 1 s
  else dbCtrlWrite v s

/-- DEBUG_HALT (R506, R507). -/
def execDebugHalt (port : Nat) (value : W32) (s : State) : Out :=
  guardUnit (decide (port < 2)) (whenTaken (value.getLsbD 8 && s.pw.state != .p4) (dbCtrl (holdsToken s port) value) s)

/-- DEBUG_RELEASE (R506, R507). -/
def execDebugRelease (port : Nat) (value : W32) (s : State) : Out :=
  guardUnit (decide (port < 2)) (whenTaken (value.getLsbD 10 && s.pw.state != .p4) (dbCtrl (holdsToken s port) value) s)

/-- MCU_HALT (R496). -/
def execMcuHalt (port : Nat) (value : W32) (s : State) : Out :=
  guardUnit (decide (port < 2)) (whenTaken (value.getLsbD 16 && s.pw.state != .p4) (dbCtrl (holdsToken s port) value) s)

/-- MCU_STEP (R496): the halted controller executes one instruction; the program counter it leaves is free. -/
def execMcuStep (port : Nat) (value : W32) (s : State) : Out :=
  guardUnit (decide (port < 2)) (whenTaken (value.getLsbD 17 && s.pw.state != .p4) (dbCtrl (holdsToken s port) value) s)

/-! ### Attestation (R495) -/

/-- FB_REGION[r] as a report carries it: entry r of Table 16.6. -/
def attestEntry (s : State) (r : Nat) : List Byte :=
  match (s.fb.regions.find? fun e => e.1 == r).map Prod.snd with
  | some g =>
    if s.rst.dataPlaneOn then
      [BitVec.ofNat 8 r, BitVec.ofNat 8 g.ctxMask.toNat, BitVec.ofNat 8 (1 + 2 * b2n g.signed), 0] ++ leBytes 2 g.first ++
        leBytes 2 g.count ++ List.replicate 8 0 ++ padTo 48 g.digest
    else List.replicate 64 0
  | none => List.replicate 64 0

/-- Bytes 0 to 4,415 of the report. -/
def attestBody (nonce : BitVec 256) (s : State) : List Byte :=
  let blank := s.sc.lifecycle == 0
  let idr := Config.identityRecord
  let flags := b2n (s.fb.authCtrl.getLsbD 0) + 2 * b2n s.rst.dataPlaneOn + 4 * b2n blank + 8 * b2n (s.sc.next != s.sc.lifecycle)
  let fuses := ((List.range 128).map fun i => leBytes 8 (tget 0 s.sc.fuse i).toNat).flatten
  let count := if s.rst.dataPlaneOn then s.fb.loadCount.toNat else 0
  [0x41, 0x54, 0x52, 0x31, 1, 0, BitVec.ofNat 8 s.sc.lifecycle, BitVec.ofNat 8 s.sc.level, BitVec.ofNat 8 s.pw.state.code,
    BitVec.ofNat 8 flags, 0, 0, 0, 0, 0, 0] ++ leBytes 8 s.mg.serial.toNat ++ leBytes 8 s.sc.reportSeq ++
    leBytes 32 nonce.toNat ++ sha3_384 (slotOf s s.sc.running) ++ leBytes 4 s.sc.fwVersion ++ leBytes 2 s.sc.rollback ++
    [BitVec.ofNat 8 s.sc.running, 0] ++ sha3_384 fuses ++ padTo 48 s.sc.ownerCrb ++ padTo 48 s.sc.ownerDbg ++
    (if blank then List.replicate 48 0 else sha3_384 (slice idr 16 32 ++ slice idr 48 1952)) ++ leBytes 8 count ++
    ((List.range 64).map fun r => attestEntry s r).flatten

/-- The report, 7,792 bytes; zero signatures in BLANK. -/
def attestReport (nonce : BitVec 256) (s : State) : List Byte :=
  let body := attestBody nonce s
  let msg := signedMessage atrPrefix body
  let sig := if s.sc.lifecycle = 0 then List.replicate 3373 0
             else padTo 64 (Config.identityEd25519Sign msg) ++ padTo 3309 (Config.identityMldsa65Sign msg)
  body ++ sig ++ [0, 0, 0]

/-- The security engine signs a report (SC_COUNT[3], REPORT_SEQ). -/
def signReport (s : State) : State :=
  { s with sc := { s.sc with reportSeq := s.sc.reportSeq + 1, counts := taddW s.sc.counts 3 1 } }

end Sys2Proof.Machine
end

