-- ==== Sys2Proof/Machine/HostCmd.lean ====
section
/-!
DEFINITION. The host commands of Table 13.5 as data: their opcode and token, their fields, and the checks made at acceptance
in the order of R408 (13 R408, R416 to R428; 18 R535; 16 R489, R503, R504).
-/

namespace Sys2Proof.Machine

open Sys2Proof

/-- Slot fields, opcode and token of a host command (Table 13.5): 0 no token, 1 the token, 2 the issuer of the target or the
token. -/
def hostCmd : Instr → Option (CmdHdr × Nat × Nat)
  | .loadConfig h _ _ => some (h, 0x0101, 1)
  | .switchContext h _ _ => some (h, 0x0102, 1)
  | .runPhase h _ _ _ => some (h, 0x0201, 0)
  | .runProgram h _ => some (h, 0x0201, 0)
  | .allReduce h _ => some (h, 0x0301, 0)
  | .reduceScatter h _ => some (h, 0x0301, 0)
  | .allGather h _ => some (h, 0x0301, 0)
  | .multicast h _ => some (h, 0x0301, 0)
  | .topkGather h _ => some (h, 0x0301, 0)
  | .fencePeer h _ => some (h, 0x0401, 1)
  | .unfencePeer h _ => some (h, 0x0402, 1)
  | .setRoutes h _ _ _ => some (h, 0x0403, 1)
  | .setRouteEpoch h _ => some (h, 0x0404, 1)
  | .copy h _ _ _ _ => some (h, 0x0501, 0)
  | .checkpoint h _ _ _ _ => some (h, 0x0502, 0)
  | .restore h _ _ _ => some (h, 0x0503, 0)
  | .reshard h _ => some (h, 0x0504, 0)
  | .reshardResume h _ => some (h, 0x0504, 0)
  | .reshardRollback h _ => some (h, 0x0504, 0)
  | .suspend h _ => some (h, 0x0601, 2)
  | .resume h _ => some (h, 0x0602, 2)
  | .cancel h _ => some (h, 0x0603, 2)
  | .queryDevice h => some (h, 0x0701, 0)
  | .queryLongOp h _ => some (h, 0x0701, 0)
  | .scrub h => some (h, 0x0801, 1)
  | .fwUpdate h _ _ => some (h, 0x0802, 1)
  | .bbExport h _ _ _ => some (h, 0x0803, 0)
  | .portRelease h _ => some (h, 0x0804, 1)
  | .portReleaseForce h _ => some (h, 0x0804, 1)
  | .portAdmit h _ => some (h, 0x0805, 1)
  | .reset h => some (h, 0x0806, 1)
  | .attest h _ _ _ => some (h, 0x0901, 0)
  | .debugUnlock h _ _ _ => some (h, 0x0902, 1)
  | .lcProvision h _ _ => some (h, 0x0902, 1)
  | .lcDeploy h _ _ => some (h, 0x0902, 1)
  | .lcReturn h _ _ => some (h, 0x0902, 1)
  | .setPowerState h _ _ => some (h, 0x0903, 1)
  | .stewardClaim h => some (h, 0x0A01, 0)
  | .stewardYield h => some (h, 0x0A02, 1)
  | _ => none

/-- Descriptor of a collective or re-shard command. -/
def collOf : Instr → Option CollDesc
  | .allReduce _ d => some d
  | .reduceScatter _ d => some d
  | .allGather _ d => some d
  | .multicast _ d => some d
  | .topkGather _ d => some d
  | .reshard _ d => some d
  | .reshardResume _ d => some d
  | .reshardRollback _ d => some d
  | _ => none

/-- Level or transition code of an unlock, with its token (Table 16.8). -/
def unlockOf : Instr → Option (Nat × Nat × Nat)
  | .debugUnlock _ a n l => some (l, a, n)
  | .lcProvision _ a n => some (0x10, a, n)
  | .lcDeploy _ a n => some (0x11, a, n)
  | .lcReturn _ a n => some (0x12, a, n)
  | _ => none

/-- Whether a command is a long operation (R424). -/
def isLong : Instr → Bool
  | .loadConfig _ _ n => decide (0x100000 < n)
  | .checkpoint _ _ _ _ _ => true
  | .restore _ _ _ _ => true
  | .reshard _ _ => true
  | .reshardResume _ _ => true
  | .reshardRollback _ _ => true
  | .scrub _ => true
  | .fwUpdate _ _ _ => true
  | .bbExport _ _ _ _ => true
  | _ => false

/-! ### Check 1: fields (R408, Table 13.5) -/

/-- Entries of a DETOUR field that name neither a direction nor none (R553). -/
def detourBad (detour : Nat) : Bool :=
  (List.range 8).any fun i => decide (8 ≤ detour / 16 ^ i % 16) && detour / 16 ^ i % 16 != 15

/-- Ranges of the fields in the body. -/
def bodyOk (s : State) : Instr → Bool
  | .loadConfig _ a _ => a % 64 == 0 && decide (a < retainedBase)
  | .setRoutes _ _ _ detour => !detourBad detour
  | .copy _ _ _ n dir => n % 32 == 0 && decide (n ≤ 2 ^ 36) && decide (dir ≤ 2)
  | .checkpoint _ _ n _ _ => decide (1 ≤ n) && decide (n ≤ 4096)
  | .restore _ _ _ flags => decide (flags < 2)
  | .bbExport _ _ n _ => decide (384 ≤ n) && n % 64 == 0
  | .portRelease _ p => decide (p < 10)
  | .portReleaseForce _ p => decide (p < 10)
  | .portAdmit _ p => decide (p < 10)
  | .debugUnlock _ _ _ l => decide (l ≤ 2) || (decide (0x10 ≤ l) && decide (l ≤ 0x12))
  | .setPowerState _ n cap =>
    decide (n ≤ 3) && (n != 1 || (decide (1200 ≤ cap) && decide (cap ≤ 2700) && (s.sc.level != 2 || decide (cap ≤ 2000))))
  | _ => true

/-- Fields of the slot's head: VEC's reserved bits, and STEP, which only RUN_PHASE has. -/
def headOk (h : CmdHdr) (op : Nat) : Bool := decide (h.vec < 64) && (h.step == 0 || op == 0x0201)

/-! ### Checks 2 to 5 -/

/-- The handle as a host names it: 32 bits (R406). -/
def hostHandle (h : Nat) : Nat := h % 2 ^ 32

/-- The handle a control command names. -/
def targetOf : Instr → Option Nat
  | .suspend _ t => some t
  | .resume _ t => some t
  | .cancel _ t => some t
  | _ => none

/-- Check 2: the token (R413); a control command also comes from the issuer of its target. -/
def tokenOk (s : State) (c : Instr) (h : CmdHdr) (token : Nat) : Bool :=
  token == 0 || holdsToken s h.port ||
    (token == 2 && match targetOf c with
      | some t => portOfHandle t == h.port
      | none => false)

/-- Check 3: power state, recovery and safety hold (R423, R489). -/
def powerCheck (s : State) (c : Instr) (op : Nat) : Nat :=
  let inP3 := [0x0701, 0x0A01, 0x0A02, 0x0903, 0x0901, 0x0802, 0x0803]
  let notP2 := [0x0201, 0x0102, 0x0101, 0x0801, 0x0503, 0x0504]
  let notHeld := [0x0201, 0x0102, 0x0101, 0x0301, 0x0501, 0x0502, 0x0503, 0x0504, 0x0801]
  let shut := match c with
    | .portAdmit _ p => s.ws.portSm.getLsbD p
    | _ => false
  if s.rst.recovery && !([0x0701, 0x0802, 0x0A01].contains op) then 0x0014
  else if s.pw.state = .p3 && !inP3.contains op then 0x0014
  else if s.pw.state = .p2 && notP2.contains op then 0x0014
  else if s.ws.haltSm && notHeld.contains op then 0x0015
  else if shut then 0x0015
  else 0

/-- The recovery set of R368, but for RESHARD. -/
def recoverySet : List Nat :=
  [0x0701, 0x0801, 0x0A01, 0x0A02, 0x0401, 0x0402, 0x0403, 0x0404, 0x0805, 0x0804, 0x0901, 0x0803]

/-- Check 4: the re-shard states (R368, R370). -/
def reshardCheck (s : State) (c : Instr) (op : Nat) : Nat :=
  let again := match collOf c with
    | some d => op == 0x0504 && (d.flags.testBit 3 || d.flags.testBit 4)
    | none => false
  if s.cl.lost then (if op == 0x0503 || recoverySet.contains op then 0 else 0x030A)
  else if s.cl.held then (if again || recoverySet.contains op then 0 else 0x0309)
  else 0

/-- Whether a long operation of an opcode is live. -/
def longLive (s : State) (op : Nat) : Bool := s.cp.longops.any fun e => e.2.opcode == op

/-- Whether the exclusion of R428 stands: a SCRUB or RESTORE is QUEUED or RUNNING, or an unlock scrubs as a RUNNING SCRUB
does (R502). -/
def exclusive (s : State) : Bool :=
  s.sc.scrubbing || s.cp.longops.any fun e =>
    (e.2.opcode == 0x0801 || e.2.opcode == 0x0503) && (e.2.state == .queued || e.2.state == .running)

/-- Check 5: exclusion and capacity (R428, R442, R503, R504, Table 13.5). -/
def busyCheck (s : State) (c : Instr) (op handle : Nat) : Nat :=
  let out := [0x0201, 0x0102, 0x0101, 0x0301, 0x0501, 0x0502, 0x0504]
  let once := [0x0802, 0x0504, 0x0801, 0x0503]
  let raises := match unlockOf c with
    | some (l, _, _) => s.sc.unlock.isSome && (decide (s.sc.level < l) || decide (16 ≤ l))
    | none => false
  let idleBusy := !s.fb.runs.isEmpty || !s.fb.loads.isEmpty || s.sc.scrubbing ||
    longLive s 0x0801 || longLive s 0x0503 || longLive s 0x0504
  let power := match c with
    | .setPowerState _ n _ =>
      (n == 0 && s.sc.level == 2) || (n == 2 && (s.pw.state == .p0 || s.pw.state == .p1) && idleBusy) ||
        (n == 3 && s.pw.state != .p3 && workLive s)
    | _ => false
  if exclusive s && out.contains op then 0x0017
  else if isLong c && (decide (16 ≤ s.cp.longops.length) || (once.contains op && longLive s op) ||
      (op == 0x0801 && s.sc.scrubbing)) then 0x0017
  else if isLong c && s.cp.longops.any fun e => hostHandle e.2.handle == hostHandle handle then 0x0018
  else if raises || power then 0x0017
  else if op = 0x0806 && s.cp.longops.any fun e => e.2.opcode == 0x0802 && e.2.pastCommit then 0x0017
  else 0

/-! ### Check 6: the command's own -/

/-- Whether COPY may name a device range: in DRAM, or in one kind of store (R74, R163, R264, R418). -/
def copyRange (a n : Nat) : Bool :=
  let last := a + Nat.max n 1 - 1
  (isDram a && isDram last) || (isMemory a && !isDram a && addrKind a == addrKind last)

/-- Ranges of a CHECKPOINT's list as device memory holds it (R416, R422); none when the list or a range is refused
(R418). -/
def checkpointRanges (s : State) (listAddr entries : Nat) : Option (List (Nat × Nat)) :=
  if retainedBase < listAddr + 16 * entries || !soundRange s listAddr (16 * entries) then none
  else
    let l := (List.range entries).map fun i =>
      (leNat (readBytes s (listAddr + 16 * i) 8), leNat (readBytes s (listAddr + 16 * i + 8) 8))
    if l.all fun r => r.2 % 32 == 0 && decide (r.1 + r.2 ≤ retainedBase) then some l else none

/-- Bytes of the image's header and of the whole image (Table 13.7). -/
def checkpointHead (entries : Nat) : Nat := (64 + 16 * entries + 4095) / 4096 * 4096
def checkpointBytes (l : List (Nat × Nat)) : Nat := checkpointHead l.length + l.foldl (fun (n : Nat) r => n + r.2) 0 + 64

/-- A live long operation by the handle a host names. -/
def liveLong (s : State) (t : Nat) : Option (Nat × LongOp) :=
  s.cp.longops.find? fun e => hostHandle e.2.handle == hostHandle t

/-- The remembered outcome of a long operation (R427). -/
def pastLong (s : State) (t : Nat) : Option Nat :=
  (s.cp.remembered.find? fun e => hostHandle e.1 == hostHandle t).map Prod.snd

/-- Whether a handle names a command that was not long (R427). -/
def wasPlain (s : State) (t : Nat) : Bool := s.cp.plain.any fun h => hostHandle h == hostHandle t

/-- Checks of a control command's target (R427). -/
def targetCheck (s : State) (t : Nat) : Nat :=
  if (liveLong s t).isSome || (pastLong s t).isSome then 0
  else if wasPlain s t then 0x001A
  else 0x0019

/-- Whether the bank of epoch E + 1 is VALID (R320). -/
def nextLoaded (s : State) : Bool :=
  let b := bankOf s (s.lk.epoch + 1)
  b.getLsbD 0 && bits64 b 2 1 == (s.lk.epoch + 1) % 4

/-- Whether a RUN_PHASE must wait: a run or an earlier command is in the region, a load in HOLD stands before
it, or a context switch has not reached every core (R236). -/
def runWaits (s : State) (region : Nat) : Bool :=
  regionRunning s region || heldByLoad s region || switchOpen s region || s.fb.waits.any fun w => w.1 == region

/-- What the command's own checks give; 0 passes. -/
def ownCheck (s : State) (c : Instr) : Nat :=
  match c with
  | .switchContext _ region ctx =>
    if committedOn s region then 0
    else
      match regionOf s region with
      | none => 0x0104
      | some r =>
        if 4 ≤ ctx || !r.ctxMask.getLsbD ctx then 0x0104 else if regionRunning s region then 0x0120 else 0
  | .fencePeer _ rank => if rank = ownRank s then 0x0403 else 0
  | .setRoutes _ e _ _ => if e ≠ (s.lk.epoch + 1) % 4 then 0x0402 else if s.lk.prevLive then 0x0401 else 0
  | .setRouteEpoch _ e =>
    if s.lk.prevLive then 0x0401 else if e ≠ (s.lk.epoch + 1) % 4 || !nextLoaded s then 0x0402 else 0
  | .copy _ src dst n dir =>
    if (dir ≠ 1 && !copyRange src n) || (dir ≠ 2 && !copyRange dst n) then 0x001C else 0
  | .checkpoint _ a n _ bytes =>
    match checkpointRanges s a n with
    | none => 0x001C
    | some l => if bytes < checkpointBytes l then 0x0500 else 0
  | .suspend _ t => targetCheck s t
  | .resume _ t => targetCheck s t
  | .cancel _ t => targetCheck s t
  | .queryLongOp _ t => if (liveLong s t).isSome || (pastLong s t).isSome then 0 else 0x0019
  | .portRelease _ p =>
    if (getPort s p).state = .dark then 0x0400
    else if (getPort s p).state = .active && lastRoute s p then 0x0404 else 0
  | .portReleaseForce _ p => if (getPort s p).state = .dark then 0x0400 else 0
  | .portAdmit _ p => if (getPort s p).state = .active || (getPort s p).state = .ready then 0 else 0x0400
  | .attest _ _ _ bytes => if bytes < 7792 then 0x0500 else 0
  | c =>
    match runFor c 0 with
    | some (region, r) =>
      let st := runCheck s region r
      if st ≠ 0 then st
      else if runWaits s region && decide (16 ≤ (s.fb.waits.filter fun w => w.1 == region).length) then 0x0122
      else 0
    | none => 0

/-- The first check a command fails (R408); 0 when it is taken. -/
def refusal (s : State) (c : Instr) (h : CmdHdr) (op token handle : Nat) : Nat :=
  if !headOk h op || !bodyOk s c then 0x0011
  else if !tokenOk s c h token then 0x0012
  else
    let p := powerCheck s c op
    let r := reshardCheck s c op
    let b := busyCheck s c op handle
    if p ≠ 0 then p else if r ≠ 0 then r else if b ≠ 0 then b else ownCheck s c

end Sys2Proof.Machine
end

