-- ==== Sys2Proof/Machine/HostRun.lean ====
section
/-!
DEFINITION. What the host commands do once they start: COPY, routes and fences, control of long operations, queries, and the
rest of Table 13.5 (13 R407, R416 to R428).
-/

namespace Sys2Proof.Machine

open Sys2Proof

/-! ### COPY (R281, R283, R418) -/

/-- Whether a piece of host memory is marked poisoned (log entry 6). -/
def hostPoisoned (s : State) (port a n : Nat) : Bool :=
  (sectorPieces a n n).any fun p => tget false s.env.hostPoison (2 * (p.1 / 32) + port)

/-- Writes a 32-byte element into host memory; a poisoned one is marked, and its bytes are free (R281). -/
def hostPut (port a : Nat) (bs : List Byte) (bad : Bool) (s : State) : State :=
  let r := if bad then drawFree s else (0, s)
  let s1 := hostWrite r.2 port a (if bad then leBytes bs.length r.1 else bs)
  let marks := (sectorPieces a bs.length bs.length).foldl
    (fun (t : Tbl Bool) p => tput false t (2 * (p.1 / 32) + port) bad) s1.env.hostPoison
  { s1 with env := { s1.env with hostPoison := marks } }

/-- Bytes of device memory as a transfer reads them, and whether some sector faults (R280). -/
def deviceGet (s : State) (a n : Nat) : List Byte × Bool :=
  let l := (sectorPieces a n n).map fun p =>
    let r := readSector s p.1
    (slice r.1 (p.1 % 32) p.2, r.2)
  ((l.map Prod.fst).flatten, l.any Prod.snd)

/-- Writes an element of a transfer into device memory: the retained region discards it and counts it (R268), a store may
hold it (R74, R163). -/
def devicePut (handle a : Nat) (bs : List Byte) (bad : Bool) (s : State) : State :=
  (sectorPieces a bs.length bs.length).foldl (fun st p =>
    if addrKind p.1 = .retained then countHostFault st
    else hostSector (some handle) p.1 (slice bs (p.1 - a) p.2) bad st) s

/-- The elements of a COPY from number `i` on: the first that faults and their count. -/
def copyFrom (port handle src dst dir : Nat) : Nat → Nat → Option Nat × Nat → State → (Option Nat × Nat) × State
  | 0, _, acc, s => (acc, s)
  | n + 1, i, acc, s =>
    let a := src + 32 * i
    let b := dst + 32 * i
    let r := if dir = 1 then (hostRead s port a 32, hostPoisoned s port a 32) else deviceGet s a 32
    let s0 := if dir = 1 then s else noteReads s a 32
    let s1 := if dir = 2 then hostPut port b r.1 r.2 s0 else devicePut handle b r.1 r.2 s0
    let dead := dir != 2 && (sectorPieces b 32 32).any fun p => deadSub s p.1
    let acc1 := if r.2 || dead then (some (acc.1.getD i), acc.2 + 1) else acc
    copyFrom port handle src dst dir n (i + 1) acc1 s1

/-- COPY: it completes once its last sector is written. -/
def runCopy (port handle src dst len dir : Nat) (s : State) : State :=
  let r := copyFrom port handle src dst dir (len / 32) 0 (none, 0) s
  let status := if r.1.2 = 0 then 0 else 0x0200
  let res := [BitVec.ofNat 64 (r.1.1.getD 0), BitVec.ofNat 64 r.1.2]
  settleCopies { r.2 with mem := { r.2.mem with copies := r.2.mem.copies ++ [(handle, status, res)] } }

/-! ### Routes, fences and ports (R320, R327, R330, R553, R556) -/

/-- Writes the bank of the next epoch. -/
def writeRoutes (epoch down detour : Nat) (s : State) : State :=
  let w := BitVec.ofNat 64 (1 + epoch % 4 * 2 + down % 256 * 2 ^ 8 + detour % 2 ^ 32 * 2 ^ 16)
  { s with lk := if epoch % 2 = 0 then { s.lk with bank0 := w } else { s.lk with bank1 := w } }

/-- Switches injection to the next epoch; the command waits for step 5 of Table 10.7. -/
def switchEpoch (epoch handle : Nat) (s : State) : State :=
  { s with lk := { s.lk with prevEpoch := s.lk.epoch, prevLive := true, epoch := epoch, epochWaiter := some handle } }

/-- The ranks of the torus. -/
def allRanks (s : State) : List Nat := (List.range 65536).filter fun r => inTorus s r

/-- A forced release fences the ranks whose first hop is the port's direction (R330), then releases. -/
def forceRelease (p handle : Nat) (s : State) : State :=
  let d := (getPort s p).dir
  let s1 := if (getPort s p).state = .active then
      ((allRanks s).filter fun r => orderDir s r == some d).foldl (fun st r => fencePeer r st) s
    else s
  releasePort p (some handle) false s1

/-- Admits a port (Table 10.3). -/
def admitPort (p handle : Nat) (s : State) : State :=
  complete handle 0 0 [] (if (getPort s p).state = .ready then enterPort p .active s else s)

/-! ### Long operations: control and state (R425 to R427, Table 13.9) -/

/-- SUSPEND. -/
def suspendOp (handle t : Nat) (s : State) : State :=
  match liveLong s t with
  | none => complete handle 0x001B 0 [] s
  | some (_, l) =>
    match l.state with
    | .queued =>
      let s1 := match l.resumer with
        | some h => complete h 0x001B 0 [] s
        | none => s
      complete handle 3 0 [] (modLong s1 l.handle fun o => { o with state := .suspended, resumer := none })
    | .running =>
      if l.pastCommit then complete handle 0x001B 0 [] s
      else
        let s1 := modLong s l.handle fun o => { o with state := .suspending, suspender := some handle }
        if l.opcode = 0x0504 then pauseReshard l.handle true s1 else s1
    | _ => complete handle 0x001B 0 [] s

/-- RESUME: it completes when its target is RUNNING. -/
def resumeOp (handle t : Nat) (s : State) : State :=
  match liveLong s t with
  | some (_, l) =>
    if l.state != .suspended then complete handle 0x001B 0 [] s
    else if l.ran then
      let s1 := modLong s l.handle fun o => { o with state := .running }
      complete handle 0 0 [] (if l.opcode = 0x0504 then pauseReshard l.handle false s1 else s1)
    else modLong s l.handle fun o => { o with state := .queued, resumer := some handle }
  | none => complete handle 0x001B 0 [] s

/-- Drops a command from those that wait behind a FENCE. -/
def dropFenced (handle : Nat) (s : State) : State :=
  let cut := fun (c : PortCp) => { c with fenced := c.fenced.filter fun e => e.1 != handle }
  modCp (modCp s 0 cut) 1 cut

/-- CANCEL. -/
def cancelOp (handle t : Nat) (s : State) : State :=
  match liveLong s t with
  | none => complete handle 1 0 [BitVec.ofNat 64 ((pastLong s t).getD 0)] s
  | some (_, l) =>
    if l.pastCommit then complete handle 1 0 [0] s
    else
      match l.state with
      | .cancelling => complete handle 0x001B 0 [] s
      | .queued =>
        let s1 := cancelLoad l.handle (dropFenced l.handle s)
        longDone l.handle 2 0 [] (modLong s1 l.handle fun o => { o with canceller := some handle })
      | _ =>
        let s1 := match l.suspender with
          | some h => complete h 0x001B 0 [] s
          | none => s
        let s2 := modLong s1 l.handle fun o => { o with state := .cancelling, suspender := none, canceller := some handle }
        if l.opcode = 0x0504 then cancelReshard l.handle s2
        else cancelLoad l.handle (dropFenced l.handle s2)

/-- STATE of Table 13.22. -/
def LoState.code : LoState → Nat
  | .queued => 0
  | .running => 1
  | .suspending => 2
  | .suspended => 3
  | .cancelling => 4

/-- CP_LONGOP of an entry (Table 13.22); how much work is done, PROGRESS, is free once it has run. -/
def longImage (l : LongOp) (s : State) : Nat × State :=
  let r := if l.ran then drawFree s else (0, s)
  (hostHandle l.handle + l.opcode * 2 ^ 32 + l.state.code * 2 ^ 48 + b2n l.pastCommit * 2 ^ 51 + 2 ^ 52 + r.1 % 1001 * 2 ^ 53, r.2)

/-- CP_STATUS as a port reads it (Table 13.18, R435). -/
def cpStatus (s : State) (port : Nat) : Nat :=
  s.pw.state.code + b2n s.rst.dataPlaneOn * 8 + b2n s.ws.haltSm * 16 + b2n s.cl.held * 32 + b2n s.cl.lost * 64 +
    b2n (exclusive s) * 128 + s.cp.longops.length * 2 ^ 8 + (getCp s port).pend.length * 2 ^ 16

/-- CL_STATUS (Table 11.14). -/
def clStatus (s : State) : Nat :=
  s.cl.caravans.length + b2n s.cl.held * 2 ^ 10 + b2n s.cl.lost * 2 ^ 11 + b2n (jState s != 0) * 2 ^ 12 +
    s.cl.parked.length * 2 ^ 32

/-- QUERY of the device (Table 13.5); registers of an unpowered data plane read zero (R431). -/
def queryDevice (port handle : Nat) (s : State) : State :=
  let on := s.rst.dataPlaneOn
  complete handle 0 0 [BitVec.ofNat 64 (cpStatus s port), if on then BitVec.ofNat 64 (clStatus s) else 0,
                       if on then s.fb.job else 0] s

/-- QUERY of a long operation. -/
def queryLong (handle t : Nat) (s : State) : State :=
  match liveLong s t with
  | some (_, l) =>
    let r := longImage l s
    complete handle 0 0 [BitVec.ofNat 64 r.1, 0] r.2
  | none => complete handle 0 0 [0, BitVec.ofNat 64 ((pastLong s t).getD 0)] s

/-! ### The start of a command -/

/-- A load joins the queue of loads (R228). -/
def queueLoad (handle addr bytes : Nat) (s : State) : State :=
  let l : Load := { handle := handle, addr := addr, bytes := bytes, stage := .accept, sent := false, dies := 0, applied := 0, check := 0,
                    offset := 0, cell := 0, image := [], digest := [], signed := false, remaps := 0 }
  sendLoad (setLoads s (s.fb.loads ++ [l]))

/-- A RUN_PHASE starts its run, or waits in arrival order (R230, R419). -/
def startRun (handle : Nat) (c : Instr) (s : State) : State :=
  match runFor c handle with
  | some (region, r) =>
    if runWaits s region then { s with fb := { s.fb with waits := s.fb.waits ++ [(region, handle, c)] } }
    else openRun region r s
  | none => s

/-- What a command does when it starts: the commands of the command processor's own end here, the others are handed on. A
long operation waits in QUEUED for LONG_OP_START. -/
def carryOut (handle port : Nat) (c : Instr) (s : State) : State :=
  match c with
  | .loadConfig _ a n => queueLoad handle a n s
  | .switchContext _ region ctx => requestSwitch region ctx handle s
  | .runPhase _ _ _ _ => startRun handle c s
  | .runProgram _ _ => startRun handle c s
  | .allReduce _ d => postDown s 4 (.collDesc handle d)
  | .reduceScatter _ d => postDown s 4 (.collDesc handle d)
  | .allGather _ d => postDown s 4 (.collDesc handle d)
  | .multicast _ d => postDown s 4 (.collDesc handle d)
  | .topkGather _ d => postDown s 4 (.collDesc handle d)
  | .fencePeer _ rank => complete handle 0 0 [] (fencePeer rank s)
  | .unfencePeer _ rank => complete handle 0 0 [] (unfencePeer rank s)
  | .setRoutes _ e down detour => complete handle 0 0 [] (writeRoutes e down detour s)
  | .setRouteEpoch _ e => switchEpoch e handle s
  | .copy _ src dst n dir => runCopy port handle src dst n dir s
  | .suspend _ t => suspendOp handle t s
  | .resume _ t => resumeOp handle t s
  | .cancel _ t => cancelOp handle t s
  | .queryDevice _ => queryDevice port handle s
  | .queryLongOp _ t => queryLong handle t s
  | .portRelease _ p => releasePort p (some handle) false s
  | .portReleaseForce _ p => forceRelease p handle s
  | .portAdmit _ p => admitPort p handle s
  | .reset _ => complete handle 0 0 [] s
  | .attest _ nonce a _ => complete handle 0 0 [] (signReport (hostWrite s port a (attestReport nonce s)))
  | .setPowerState _ n cap => commandPower n cap (some handle) s
  | .stewardClaim _ => { s with cp := { s.cp with claims := s.cp.claims ++ [(port, handle)] } }
  | .stewardYield _ => complete handle 0 0 [] s
  | c =>
    match unlockOf c with
    | some (level, a, n) => startUnlock handle level (hostRead s port a (Nat.min n 5617)) s
    | none => s

/-- Starts a command: one that waited behind a FENCE meets the state it finds (R407, R408). -/
def startCommand (handle port : Nat) (c : Instr) (s : State) : State :=
  let st := ownCheck s c
  if isLong c then (if (longOpOf s handle).isSome then carryOut handle port c s else s)
  else if st ≠ 0 then complete handle st 0 [] s
  else carryOut handle port c s

end Sys2Proof.Machine
end

