-- ==== Sys2Proof/Machine/Host.lean ====
section
/-!
DEFINITION. Acceptance of commands, FENCE, command slots, the completion ring, and one row for each host command (13 R401 to
R412, R416).
-/

namespace Sys2Proof.Machine

open Sys2Proof

/-! ### Acceptance (R402, R405 to R408) -/

/-- Whether a port accepts a command now (R405; 18 R532): its link is up, commands are accepted, and fewer than 2,048 await
their records. -/
def canAccept (s : State) (port : Nat) : Bool :=
  (getCp s port).linkUp && s.cp.accepting && decide ((getCp s port).pend.length < 2048)

/-- The handle of the next command of a port: (port << 31) | SEQ[30:0], set apart by the port resets before it (R406). -/
def nextHandle (s : State) (port : Nat) : Nat :=
  (getCp s port).resets * 2 ^ 32 + port * 2 ^ 31 + (getCp s port).sqNext % 2 ^ 31

/-- Takes a command into its port's account: NEXT advances, and a completion is owed (R402, R405). -/
def enroll (h : CmdHdr) (op : Nat) (s : State) : State :=
  modCp s h.port fun c =>
    { c with sqNext := c.sqNext + 1,
             pend := c.pend ++ [{ seq := c.sqNext, handle := nextHandle s h.port, opcode := op, tag := h.tag,
                                  vec := h.vec % 64, noIrq := h.noIrq, done := false }] }

/-- Remembers a command that is not long (R427). -/
def rememberPlain (handle : Nat) (s : State) : State := { s with cp := { s.cp with plain := (handle :: s.cp.plain).take 256 } }

/-- A command refused at acceptance: completed at once, without effect (R408, Table 13.17). -/
def refuse (port handle status : Nat) (s : State) : State := complete handle status 0 [] (countCpFault s port 4)

/-- The lowest free CP_LONGOP entry (R436). -/
def freeLongEntry (s : State) : Nat :=
  ((List.range 16).find? fun i => !s.cp.longops.any fun e => e.1 == i).getD 16

/-- Enters a long operation in QUEUED (R424, R436); a CHECKPOINT's list is read. -/
def enterLong (handle op : Nat) (c : Instr) (s0 : State) : State :=
  let s := match c with
    | .checkpoint _ a n _ _ => noteReads s0 a (16 * n)
    | _ => s0
  let ranges := match c with
    | .checkpoint _ a n _ _ => (checkpointRanges s a n).getD []
    | _ => []
  let l : LongOp := { handle := handle, opcode := op, cmd := c, state := .queued, ran := false, pastCommit := false,
                      mark := 0, ranges := ranges, suspender := none, resumer := none, canceller := none }
  { s with cp := { s.cp with longops := s.cp.longops ++ [(freeLongEntry s, l)] } }

/-- Whether some command of the port accepted before a handle has not completed, those from before a port reset among them
(R399, R407). -/
def earlierLive (s : State) (port handle : Nat) : Bool :=
  let c := getCp s port
  let old := c.runsOn.takeWhile fun h => h != handle
  !old.isEmpty || (!c.runsOn.contains handle && (c.pend.takeWhile fun p => p.handle != handle).any fun p => !p.done)

/-- Starts the commands of a port that no longer wait behind a FENCE (R407). -/
def releaseOn (port : Nat) : Nat → State → State
  | 0, s => s
  | n + 1, s =>
    match (getCp s port).fenced with
    | [] => s
    | (h, f, c) :: r =>
      if f && earlierLive s port h then s
      else releaseOn port n (startCommand h port c (modCp s port fun v => { v with fenced := r }))

/-- Starts what waits on either port. -/
def releaseFenced (s : State) : State :=
  let s1 := releaseOn 0 (getCp s 0).fenced.length s
  releaseOn 1 (getCp s1 1).fenced.length s1

/-- Takes a command that passed its checks: it starts at once, or waits behind a FENCE; a STEWARD_YIELD frees the token when
it is accepted (R407, R415). -/
def takeIn (handle op : Nat) (h : CmdHdr) (c : Instr) (s : State) : State :=
  let s1 := if isLong c then enterLong handle op c s else rememberPlain handle s
  let s2 := if op = 0x0A02 then freeToken 2 s1 else s1
  if (h.fence && earlierLive s2 h.port handle) || !(getCp s2 h.port).fenced.isEmpty then
    modCp s2 h.port fun v => { v with fenced := v.fenced ++ [(handle, h.fence, c)] }
  else startCommand handle h.port c s2

/-- Accepts a command (R408). -/
def accept (h : CmdHdr) (op token : Nat) (c : Instr) (s : State) : State :=
  let handle := nextHandle s h.port
  let s1 := enroll h op s
  let st := refusal s1 c h op token handle
  if st = 0 then takeIn handle op h c s1
  else refuse h.port handle st (if isLong c then s1 else rememberPlain handle s1)

/-! ### Command slots (R401 to R404) -/

/-- Bytes of slot i of a port's ring, with SEQ as the host sees it. -/
def slotBytes (s : State) (port i : Nat) : List Byte :=
  (List.range 256).map fun k =>
    let b := tget 0 (getCp s port).slots (256 * i + k)
    if 248 ≤ k then ~~~b else b

/-- Writes the ring: bytes beyond slot 1,023 are reserved (R400). -/
def writeSlots (port off : Nat) (bytes : List Byte) (s : State) : State :=
  modCp s port fun c =>
    { c with slots := ((List.range bytes.length).zip bytes).foldl (fun (t : Tbl Byte) e =>
        let a := off + e.1
        if 0x40000 ≤ a then t else tput 0 t a (if 248 ≤ a % 256 then ~~~e.2 else e.2)) c.slots }

/-- The descriptor of Table 11.1 in 56 bytes. -/
def parseDesc (b : List Byte) : CollDesc :=
  { kind := field b 0 1, mode := field b 1 1, flags := field b 2 1, param := field b 3 1, caravan := field b 4 4,
    src := field b 8 8, dst := field b 16 8, group := field b 24 8, count := field b 32 4, members := field b 36 4,
    root := field b 40 2, unitLog2 := field b 42 1, rsv := field b 43 1 != 0, step := field b 44 4, aux := field b 48 8 }

/-- The command in a slot, with the body bytes it uses (Table 13.5): none for an unknown opcode. A mode or kind that the
table does not give uses no byte, so that it counts as a reserved one. -/
def parseBody (h : CmdHdr) (op : Nat) (force : Bool) (b : List Byte) : Option (Instr × List (Nat × Nat)) :=
  let f := fun (o n : Nat) => field b o n
  match op with
  | 0x0101 => some (.loadConfig h (f 0 8) (f 8 4), [(0, 12)])
  | 0x0102 => some (.switchContext h (f 0 1) (f 1 1), [(0, 2)])
  | 0x0201 => match f 1 1 with
    | 0 => some (.runPhase h (f 0 1) (f 2 2) (f 8 8), [(0, 4), (8, 8)])
    | 1 => some (.runProgram h (f 0 1), [(0, 4), (8, 8)])
    | _ => some (.runProgram h (f 0 1), [])
  | 0x0301 => some (.allReduce h (parseDesc b), [(0, 56)])
  | 0x0401 => some (.fencePeer h (f 0 2), [(0, 2)])
  | 0x0402 => some (.unfencePeer h (f 0 2), [(0, 2)])
  | 0x0403 => some (.setRoutes h (f 0 1) (f 1 1) (f 4 4), [(0, 2), (4, 4)])
  | 0x0404 => some (.setRouteEpoch h (f 0 1), [(0, 1)])
  | 0x0501 => some (.copy h (f 0 8) (f 8 8) (f 16 8) (f 24 1), [(0, 25)])
  | 0x0502 => some (.checkpoint h (f 0 8) (f 8 2) (f 16 8) (f 24 8), [(0, 10), (16, 16)])
  | 0x0503 => some (.restore h (f 0 8) (f 8 8) (f 16 1), [(0, 17)])
  | 0x0504 => some (.reshard h (parseDesc b), [(0, 56)])
  | 0x0601 => some (.suspend h (f 0 4), [(0, 4)])
  | 0x0602 => some (.resume h (f 0 4), [(0, 4)])
  | 0x0603 => some (.cancel h (f 0 4), [(0, 4)])
  | 0x0701 => match f 0 1 with
    | 0 => some (.queryDevice h, [(0, 1), (4, 4)])
    | 1 => some (.queryLongOp h (f 4 4), [(0, 1), (4, 4)])
    | _ => some (.queryDevice h, [])
  | 0x0801 => some (.scrub h, [])
  | 0x0802 => some (.fwUpdate h (f 0 8) (f 8 4), [(0, 12)])
  | 0x0803 => some (.bbExport h (f 0 8) (f 8 8) (f 16 8), [(0, 24)])
  | 0x0804 => some (if force then .portReleaseForce h (f 0 1) else .portRelease h (f 0 1), [(0, 1)])
  | 0x0805 => some (.portAdmit h (f 0 1), [(0, 1)])
  | 0x0806 => some (.reset h, [])
  | 0x0901 => some (.attest h (BitVec.ofNat 256 (f 0 32)) (f 32 8) (f 40 4), [(0, 44)])
  | 0x0902 => some (.debugUnlock h (f 0 8) (f 8 4) (f 12 1), [(0, 13)])
  | 0x0903 => some (.setPowerState h (f 0 1) (f 2 2), [(0, 1), (2, 2)])
  | 0x0A01 => some (.stewardClaim h, [])
  | 0x0A02 => some (.stewardYield h, [])
  | _ => none

/-- Whether every byte of the body that the command does not use is zero. -/
def restZero (b : List Byte) (used : List (Nat × Nat)) : Bool :=
  ((List.range b.length).zip b).all fun e =>
    e.2 == 0 || used.any fun u => decide (u.1 ≤ e.1) && decide (e.1 < u.1 + u.2)

/-- Accepts the command in a slot's 256 bytes (Table 13.2). -/
def acceptSlot (port : Nat) (b : List Byte) (s : State) : State :=
  let op := field b 0 2
  let flags := field b 2 1
  let h : CmdHdr := { port := port, fence := flags.testBit 0, noIrq := flags.testBit 1, vec := field b 3 1,
                      tag := BitVec.ofNat 32 (field b 4 4), step := BitVec.ofNat 32 (field b 8 4) }
  let body := slice b 16 232
  let handle := nextHandle s port
  match parseBody h op (flags.testBit 2) body with
  | none => refuse port handle 0x0010 (rememberPlain handle (enroll h op s))
  | some (c, used) =>
    if flags < 8 && (!flags.testBit 2 || op == 0x0804) && allZero (slice b 12 4) && restZero body used then
      match hostCmd c with
      | some (_, _, token) => accept h op token c s
      | none => s
    else refuse port handle 0x0011 (if isLong c then enroll h op s else rememberPlain handle (enroll h op s))

/-- Accepts commands in SEQ order as their slots' turns come round (R402). -/
def acceptSlots (port : Nat) : Nat → State → State
  | 0, s => s
  | n + 1, s =>
    let next := (getCp s port).sqNext
    let b := slotBytes s port (next % 1024)
    if canAccept s port && field b 248 8 == next then acceptSlots port n (acceptSlot port b s) else s

/-- The row of a host command: the port accepts it as its next, when it can accept one, and then compares the next
slot again (R402). -/
def acceptRow (c : Instr) (s : State) : State :=
  match hostCmd c with
  | none => s
  | some (h, op, token) => 
    if canAccept s h.port then releaseFenced (acceptSlots h.port 1024 (accept h op token c s)) else s

/-- A row's guard: the host port exists. -/
def hostRow (h : CmdHdr) (c : Instr) (s : State) : Out := guardUnit (decide (h.port < 2)) (acceptRow c s)

/-- COMMAND_SLOT_WRITE (R402, R403): one write TLP into the ring. -/
def execCommandSlotWrite (port off : Nat) (bytes : List Byte) (s : State) : Out :=
  guardUnit (decide (port < 2)) <|
    whenTaken ((getCp s port).linkUp) (fun st =>
      let at_ := 256 * ((getCp st port).sqNext % 1024) + 255
      let s1 := writeSlots port off bytes st
      if decide (off ≤ at_) && decide (at_ < off + bytes.length) then releaseFenced (acceptSlots port 1024 s1) else s1) s

/-! ### The completion ring (R409 to R412) -/

/-- SIZE of CP_CQ_ENTRIES (Table 13.21). -/
def cqSize (c : PortCp) : Nat :=
  let l := bitsOf c.cqEntries.toNat 4 0
  2 ^ (if 6 ≤ l && l ≤ 16 then l else 6)

/-- Whether the ring has room for a record (R410). -/
def cqRoom (c : PortCp) : Bool := c.cqEntries.getLsbD 31 && decide ((c.cqTail - c.cqHead).toNat < cqSize c)

/-- A record's 64 bytes (Table 13.3). -/
def recordBytes (r : Record) (cseq : Nat) : List Byte :=
  leBytes 8 r.seq ++ leBytes 4 r.handle ++ leBytes 2 r.status ++ leBytes 2 r.opcode ++ leBytes 4 r.tag.toNat ++
    [BitVec.ofNat 8 r.flags, 0, 0, 0] ++ (r.result.map fun w => leBytes 8 w.toNat).flatten ++ [0, 0, 0, 0] ++ leBytes 4 cseq

/-- The second word of an MSI-X entry after reset: masked, as PCI Express has it (R411). -/
def msixReset : W64 := 0x100000000

/-- Sends the message of an MSI-X vector, or sets its pending bit while it is masked (R411; PCI Express). -/
def sendMsix (port vec : Nat) (s : State) : State :=
  let c := getCp s port
  if (tget msixReset c.msixData vec).getLsbD 32 then setCp s port { c with pba := c.pba ||| BitVec.ofNat 64 (2 ^ vec) }
  else { s with env := { s.env with msix := s.env.msix ++ [(port, vec)] } }

/-- Writes one record at the ring's tail, and sends its message. -/
def putRecord (port : Nat) (r : Record) (s : State) : State :=
  let c := getCp s port
  let tail := c.cqTail.toNat
  let a := bits64 c.cqBase 63 6 * 64 + 64 * (tail % cqSize c)
  let s1 := modCp (hostWrite s port a (recordBytes r tail)) port fun v => { v with cqTail := v.cqTail + 1 }
  if r.noIrq then s1 else sendMsix port r.vec s1

/-- Writes the oldest completion: the command no longer counts as accepted (R405), and a RESET's warm reset is due
(R524). -/
def putCompletion (port : Nat) (r : Record) (rest : List Record) (s : State) : State :=
  let s1 := modCp s port fun v => { v with records := rest, pend := lremove (fun p => p.handle == r.handle && p.done) v.pend }
  let s2 := putRecord port r s1
  let s3 := if r.opcode = 0x0806 && r.status = 0 then { s2 with cp := { s2.cp with resetDue := true } } else s2
  acceptSlots port 1024 s3

/-- Writes the oldest event, with CP_EVENT_CFG.VEC and LOST (R411, R412). -/
def putEvent (port : Nat) (r : Record) (rest : List Record) (s : State) : State :=
  let c := getCp s port
  let r1 := { r with flags := 1 + 2 * b2n c.lost, vec := bitsOf c.eventCfg.toNat 5 0 }
  putRecord port r1 (setCp s port { c with events := rest, lost := false })

/-- COMPLETION_RECORD_WRITE (R410 to R412): the oldest waiting completion, or the oldest event where none waits. -/
def execCompletionRecordWrite (port : Nat) (s : State) : Out :=
  guardUnit (decide (port < 2)) <|
    let c := getCp s port
    if !(c.linkUp && cqRoom c) then s
    else
      match c.records, c.events with
      | r :: rest, _ => releaseFenced (putCompletion port r rest s)
      | [], r :: rest => if c.eventCfg.getLsbD 8 then releaseFenced (putEvent port r rest s) else s
      | [], [] => s

/-- A write of CP_CQ_HEAD: a value outside TAIL − SIZE to TAIL is discarded (Table 13.17). -/
def writeCqHead (port : Nat) (v : W32) (s : State) : State :=
  let c := getCp s port
  if (c.cqTail - v).toNat ≤ cqSize c then setCp s port { c with cqHead := v } else s

/-- CP_CQ_HEAD_WRITE (R410). -/
def execCpCqHeadWrite (port : Nat) (value : W32) (s : State) : Out :=
  guardUnit (decide (port < 2)) (whenTaken (getCp s port).linkUp (writeCqHead port value) s)

/-- A write of CP_CQ_ENTRIES (Table 13.21): LOG2_SIZE only while ENABLE is 0; a change of ENABLE from 0 to 1 zeroes HEAD and
TAIL. -/
def writeCqEntries (port : Nat) (v : W32) (s : State) : State :=
  let c := getCp s port
  let on := c.cqEntries.getLsbD 31
  let en := v.getLsbD 31
  let size := if on then bitsOf c.cqEntries.toNat 4 0 else bitsOf v.toNat 4 0
  let w := BitVec.ofNat 32 (size + b2n en * 2 ^ 31)
  if en && !on then setCp s port { c with cqEntries := w, cqHead := 0, cqTail := 0 } else setCp s port { c with cqEntries := w }

/-- CQ_ENABLE (R410). -/
def execCqEnable (port : Nat) (value : W32) (s : State) : Out :=
  guardUnit (decide (port < 2)) (whenTaken (getCp s port).linkUp (writeCqEntries port value) s)

/-! ### The host commands -/

/-- LOAD_CONFIG (R228, R229). -/
def execLoadConfig (h : CmdHdr) (addr bytes : Nat) (s : State) : Out := hostRow h (.loadConfig h addr bytes) s

/-- SWITCH_CONTEXT (R236, R237). -/
def execSwitchContext (h : CmdHdr) (region ctx : Nat) (s : State) : Out := hostRow h (.switchContext h region ctx) s

/-- RUN_PHASE (R218, R419). -/
def execRunPhase (h : CmdHdr) (region phase count : Nat) (s : State) : Out := hostRow h (.runPhase h region phase count) s

/-- RUN_PROGRAM (R419). -/
def execRunProgram (h : CmdHdr) (region : Nat) (s : State) : Out := hostRow h (.runProgram h region) s

/-- ALL_REDUCE (R334, R350). -/
def execAllReduce (h : CmdHdr) (d : CollDesc) (s : State) : Out := hostRow h (.allReduce h { d with kind := 1 }) s

/-- REDUCE_SCATTER (R334, R350). -/
def execReduceScatter (h : CmdHdr) (d : CollDesc) (s : State) : Out := hostRow h (.reduceScatter h { d with kind := 2 }) s

/-- ALL_GATHER (R334, R359). -/
def execAllGather (h : CmdHdr) (d : CollDesc) (s : State) : Out := hostRow h (.allGather h { d with kind := 3 }) s

/-- MULTICAST (R334, R360). -/
def execMulticast (h : CmdHdr) (d : CollDesc) (s : State) : Out := hostRow h (.multicast h { d with kind := 4 }) s

/-- TOPK_GATHER (R334, R361). -/
def execTopkGather (h : CmdHdr) (d : CollDesc) (s : State) : Out := hostRow h (.topkGather h { d with kind := 6 }) s

/-- FENCE_PEER (R327). -/
def execFencePeer (h : CmdHdr) (rank : Nat) (s : State) : Out := hostRow h (.fencePeer h rank) s

/-- UNFENCE_PEER (R329). -/
def execUnfencePeer (h : CmdHdr) (rank : Nat) (s : State) : Out := hostRow h (.unfencePeer h rank) s

/-- SET_ROUTES (R320, R553). -/
def execSetRoutes (h : CmdHdr) (epoch down detour : Nat) (s : State) : Out := hostRow h (.setRoutes h epoch down detour) s

/-- SET_ROUTE_EPOCH (R320, R553). -/
def execSetRouteEpoch (h : CmdHdr) (epoch : Nat) (s : State) : Out := hostRow h (.setRouteEpoch h epoch) s

/-- COPY (R418). -/
def execCopy (h : CmdHdr) (src dst len dir : Nat) (s : State) : Out := hostRow h (.copy h src dst len dir) s

/-- CHECKPOINT (R422). -/
def execCheckpoint (h : CmdHdr) (listAddr entries hostAddr hostBytes : Nat) (s : State) : Out := hostRow h (.checkpoint h listAddr entries hostAddr hostBytes) s

/-- RESTORE (R422). -/
def execRestore (h : CmdHdr) (hostAddr hostBytes flags : Nat) (s : State) : Out := hostRow h (.restore h hostAddr hostBytes flags) s

/-- RESHARD (R364). -/
def execReshard (h : CmdHdr) (d : CollDesc) (s : State) : Out := hostRow h (.reshard h { d with kind := 5, flags := d.flags &&& 0xE7 }) s

/-- RESHARD_RESUME (R369). -/
def execReshardResume (h : CmdHdr) (d : CollDesc) (s : State) : Out := hostRow h (.reshardResume h { d with kind := 5, flags := d.flags &&& 0xE7 ||| 8 }) s

/-- RESHARD_ROLLBACK (R369). -/
def execReshardRollback (h : CmdHdr) (d : CollDesc) (s : State) : Out := hostRow h (.reshardRollback h { d with kind := 5, flags := d.flags &&& 0xE7 ||| 16 }) s

/-- SUSPEND (R425). -/
def execSuspend (h : CmdHdr) (handle : Nat) (s : State) : Out := hostRow h (.suspend h handle) s

/-- RESUME (R425). -/
def execResume (h : CmdHdr) (handle : Nat) (s : State) : Out := hostRow h (.resume h handle) s

/-- CANCEL (R425, R426). -/
def execCancel (h : CmdHdr) (handle : Nat) (s : State) : Out := hostRow h (.cancel h handle) s

/-- QUERY_DEVICE (R416). -/
def execQueryDevice (h : CmdHdr) (s : State) : Out := hostRow h (.queryDevice h) s

/-- QUERY_LONG_OP (R416). -/
def execQueryLongOp (h : CmdHdr) (handle : Nat) (s : State) : Out := hostRow h (.queryLongOp h handle) s

/-- SCRUB (R551). -/
def execScrub (h : CmdHdr) (s : State) : Out := hostRow h (.scrub h) s

/-- FW_UPDATE (R491). -/
def execFwUpdate (h : CmdHdr) (addr bytes : Nat) (s : State) : Out := hostRow h (.fwUpdate h addr bytes) s

/-- BB_EXPORT (R522). -/
def execBbExport (h : CmdHdr) (hostAddr hostBytes fromSeq : Nat) (s : State) : Out := hostRow h (.bbExport h hostAddr hostBytes fromSeq) s

/-- PORT_RELEASE (R330, R556). -/
def execPortRelease (h : CmdHdr) (p : Nat) (s : State) : Out := hostRow h (.portRelease h p) s

/-- PORT_RELEASE_FORCE (R330, R556). -/
def execPortReleaseForce (h : CmdHdr) (p : Nat) (s : State) : Out := hostRow h (.portReleaseForce h p) s

/-- PORT_ADMIT (R300, R556). -/
def execPortAdmit (h : CmdHdr) (p : Nat) (s : State) : Out := hostRow h (.portAdmit h p) s

/-- RESET (R524). -/
def execReset (h : CmdHdr) (s : State) : Out := hostRow h (.reset h) s

/-- ATTEST (R495). -/
def execAttest (h : CmdHdr) (nonce : BitVec 256) (hostAddr hostBytes : Nat) (s : State) : Out := hostRow h (.attest h nonce hostAddr hostBytes) s

/-- DEBUG_UNLOCK (R501, R502). -/
def execDebugUnlock (h : CmdHdr) (tokenAddr tokenBytes level : Nat) (s : State) : Out := hostRow h (.debugUnlock h tokenAddr tokenBytes level) s

/-- LC_PROVISION (R492, R502). -/
def execLcProvision (h : CmdHdr) (tokenAddr tokenBytes : Nat) (s : State) : Out := hostRow h (.lcProvision h tokenAddr tokenBytes) s

/-- LC_DEPLOY (R492, R502). -/
def execLcDeploy (h : CmdHdr) (tokenAddr tokenBytes : Nat) (s : State) : Out := hostRow h (.lcDeploy h tokenAddr tokenBytes) s

/-- LC_RETURN (R492, R502). -/
def execLcReturn (h : CmdHdr) (tokenAddr tokenBytes : Nat) (s : State) : Out := hostRow h (.lcReturn h tokenAddr tokenBytes) s

/-- SET_POWER_STATE (R442). -/
def execSetPowerState (h : CmdHdr) (st cap : Nat) (s : State) : Out := hostRow h (.setPowerState h st cap) s

/-- STEWARD_CLAIM (R414). -/
def execStewardClaim (h : CmdHdr) (s : State) : Out := hostRow h (.stewardClaim h) s

/-- STEWARD_YIELD (R415). -/
def execStewardYield (h : CmdHdr) (s : State) : Out := hostRow h (.stewardYield h) s

end Sys2Proof.Machine
end

