-- ==== Sys2Proof/Machine/LongOps.lean ====
section
/-!
DEFINITION. The long-operation engine: start, pause, undo and end of each long operation, with the checkpoint image, the
firmware update and the black-box export; and the steward token's rows (13 R414, R415, R422, R424 to R428; 16 R491; 17 R522;
18 R534, R551).
-/

namespace Sys2Proof.Machine

open Sys2Proof

/-! ### The checkpoint image (R422, Table 13.7) -/

/-- The header: fixed fields, their CRC, the ranges, and padding. -/
def checkpointHeader (s : State) (l : List (Nat × Nat)) : List Byte :=
  let u := s.ue.step + b2n s.ue.readCopy * 2 ^ 32
  let h := [0x43, 0x4B, 0x50, 0x31, 1, 0] ++ leBytes 2 l.length ++ leBytes 8 u ++ leBytes 8 s.fb.job.toNat ++
    leBytes 8 s.fb.jobSeed.toNat ++ List.replicate 28 0
  padTo (checkpointHead l.length)
    (h ++ leBytes 4 (crc32c h).toNat ++ (l.map fun r => leBytes 8 r.1 ++ leBytes 8 r.2).flatten)

/-- Data of a checkpoint, sector by sector, with the image's state so far: bytes, offsets of poisoned sectors, the first
faulting sector and their count. A faulting sector's bytes are free (R281). -/
structure CkptOut where
  data : List (List Byte)
  bad : List Nat
  first : Option Nat
  count : Nat
  next : Nat

/-- Reads one range of a checkpoint. -/
def checkpointRange (r : Nat × Nat) (acc : CkptOut × State) : CkptOut × State :=
  (List.range (r.2 / 32)).foldl (fun (a : CkptOut × State) i =>
    let g := deviceGet a.2 (r.1 + 32 * i) 32
    let st := noteReads a.2 (r.1 + 32 * i) 32
    let o := a.1
    if g.2 then
      let f := drawFree st
      ({ data := leBytes 32 f.1 :: o.data, bad := o.next :: o.bad, first := some (o.first.getD o.next),
         count := o.count + 1, next := o.next + 1 }, f.2)
    else ({ o with data := g.1 :: o.data, next := o.next + 1 }, st)) acc

/-- The whole image of a checkpoint: its bytes, what faulted, and the state after the free values. -/
def checkpointImage (l : List (Nat × Nat)) (s : State) : List Byte × CkptOut × State :=
  let r := l.foldl (fun a x => checkpointRange x a)
    ({ data := [], bad := [], first := none, count := 0, next := 0 }, s)
  let body := checkpointHeader s l ++ r.1.data.reverse.flatten
  let total := checkpointBytes l
  (body ++ [0x43, 0x4B, 0x50, 0x54, 0, 0, 0, 0] ++ leBytes 8 total ++ sha3_384 body, r.1, r.2)

/-- Writes `n` bytes of an image into host memory, with the poison marks of its faulting data sectors that lie within. -/
def putImage (port a head n : Nat) (img : List Byte) (bad : List Nat) (s : State) : State :=
  let s1 := hostWrite s port a (img.take n)
  let clear := (sectorPieces a n n).foldl (fun (t : Tbl Bool) p => tput false t (2 * (p.1 / 32) + port) false) s1.env.hostPoison
  let marks := bad.foldl (fun (t : Tbl Bool) i =>
    if head + 32 * (i + 1) ≤ n then
      (sectorPieces (a + head + 32 * i) 32 32).foldl (fun (u : Tbl Bool) p => tput false u (2 * (p.1 / 32) + port) true) t
    else t) clear
  { s1 with env := { s1.env with hostPoison := marks } }

/-- CHECKPOINT writes its image; cut short, a free part of it without the trailer (Table 13.8). -/
def runCheckpoint (port hostAddr : Nat) (l : List (Nat × Nat)) (whole : Bool) (s : State) : CkptOut × State :=
  let r := checkpointImage l s
  let f := if whole then (0, r.2.2) else drawFree r.2.2
  let n := if whole then r.1.length else f.1 % (r.1.length - 63)
  (r.2.1, putImage port hostAddr (checkpointHead l.length) n r.1 r.2.1.bad f.2)

/-! ### RESTORE (R422) -/

/-- The ranges of an image whose magic, version, CRC, size and digest hold and whose ranges lie in job memory. -/
def imageRanges (s : State) (port a bytes : Nat) : Option (List (Nat × Nat)) :=
  let h := hostRead s port a 64
  let n := field h 6 2
  let head := checkpointHead n
  let l := (List.range n).map fun i =>
    let e := hostRead s port (a + 64 + 16 * i) 16
    (field e 0 8, field e 8 8)
  let total := checkpointBytes l
  if bytes < 64 || h.take 4 ≠ [0x43, 0x4B, 0x50, 0x31] || field h 4 2 ≠ 1 || field h 60 4 ≠ (crc32c (h.take 60)).toNat ||
      bytes < head || bytes < total || !(l.all fun r => r.2 % 32 == 0 && decide (r.1 + r.2 ≤ retainedBase)) then none
  else
    let t := hostRead s port (a + total - 64) 64
    if t.take 4 = [0x43, 0x4B, 0x50, 0x54] && field t 8 8 == total &&
        slice t 16 48 == sha3_384 (hostRead s port a (total - 64)) then some l else none

/-- Writes an image's ranges back, and lists the sectors of its data that faulted, counted from 0, the last first (R281, R283). -/
def restoreRanges (port : Nat) : List (Nat × Nat) → Nat → Nat → List Nat → State → List Nat × State
  | [], _, _, bad, s => (bad, s)
  | r :: rest, a, next, bad, s =>
    let x := (List.range (r.2 / 32)).foldl (fun (acc : List Nat × State) i =>
      let b := hostRead acc.2 port (a + 32 * i) 32
      let p := hostPoisoned acc.2 port (a + 32 * i) 32
      let dead := (sectorPieces (r.1 + 32 * i) 32 32).any fun q => deadSub acc.2 q.1
      (if p || dead then (next + i) :: acc.1 else acc.1, writePieces acc.2 (r.1 + 32 * i) b p)) (bad, s)
    restoreRanges port rest (a + r.2) (next + r.2 / 32) x.1 x.2

/-- A RESTORE ends the lost state and closes the record of the re-shard in the black box (R370, Table 17.5). -/
def restoreDone (s : State) : State :=
  let h := s.bb.reshardHandle
  let s1 := { s with cl := { s.cl with lost := false, rsState := if s.cl.held then 2 else 0 } }
  if s.bb.reshardOpen then noteEvent 0x0109 (leBytes 4 h ++ [2]) s1 else s1

/-- RESTORE's work. -/
def runRestore (handle port a bytes flags : Nat) (s : State) : State :=
  match imageRanges s port a bytes with
  | none => longDone handle 0x0501 0 [] s
  | some l =>
    let r := restoreRanges port l (a + checkpointHead l.length) 0 [] s
    let u := BitVec.ofNat 64 (field (hostRead s port a 64) 8 8)
    let s1 := if flags % 2 = 1 then writeUeStep u r.2 else r.2
    longDone handle (if r.1.isEmpty then 0 else 0x0200) 0
      (if r.1.isEmpty then [] else [BitVec.ofNat 64 (r.1.getLast?.getD 0), BitVec.ofNat 64 r.1.length]) (restoreDone s1)

/-! ### FW_UPDATE (R491) -/

/-- The slot not running. -/
def otherSlot (s : State) : Nat := 1 - s.sc.running

/-- Whether the image of a FW_UPDATE has the size it names and may be installed. -/
def updateGood (port a bytes : Nat) (s : State) : Bool :=
  let img := hostRead s port a bytes
  bytes == field img 8 4 && fwGood s img

/-- The commit point of a FW_UPDATE: the selector names the slot written (Table 13.8). -/
def selectSlot (port a bytes : Nat) (s : State) : State :=
  let x := otherSlot s
  let s1 := setSlot x (hostRead s port a bytes) 1 s
  { s1 with sc := { s1.sc with selected := x, selCount := s1.sc.selCount + 1 } }

/-- FW_UPDATE's stages to their end: a failure leaves the slot empty; else the selector names it. -/
def runUpdate (handle port a bytes : Nat) (committed : Bool) (s : State) : State :=
  let x := otherSlot s
  let img := hostRead s port a bytes
  let sized := bytes == field img 8 4
  if committed || updateGood port a bytes s then
    let s2 := if committed then s else selectSlot port a bytes s
    let vers := field (if committed then (if x = 0 then s.sc.slotA else s.sc.slotB) else img) 12 4
    longDone handle 0 0 [] (bbEvent 0x0106 ([BitVec.ofNat 8 x, 0, 0, 0] ++ leBytes 4 vers) s2)
  else
    let s1 := setSlot x [] 0 s
    let s2 := if sized then { s1 with sc := { s1.sc with counts := taddW s1.sc.counts 0 1 } } else s1
    longDone handle 0x0502 0 [] s2

/-! ### BB_EXPORT (R522, Table 17.10) -/

/-- Whether record `seq` is PRESENT. -/
def recordPresent (s : State) (seq : Nat) : Bool :=
  let r := tget [] s.bb.slots (bbSlot seq)
  decide (1 ≤ seq) && decide (seq ≤ s.bb.committed) && field r 0 8 == seq && recordGood r

/-- Records from `seq` on, up to `fuel` of them: exported bytes, newest first, records exported, skipped, and the first not
examined. -/
def exportFrom (s : State) (room : Nat) : Nat → Nat → List (List Byte) → Nat → Nat → List (List Byte) × Nat × Nat × Nat
  | 0, seq, l, n, k => (l, n, k, seq)
  | fuel + 1, seq, l, n, k =>
    if recordPresent s seq then
      if n < room then exportFrom s room fuel (seq + 1) (tget [] s.bb.slots (bbSlot seq) :: l) (n + 1) k
      else (l, n, k, seq)
    else exportFrom s room fuel (seq + 1) l n (k + 1)

/-- The export: its bytes, records exported, records skipped. -/
def exportImage (s : State) (bytes fromSeq snap : Nat) : List Byte × Nat × Nat :=
  let h := [0x42, 0x42, 0x58, 0x31, 1, 0, 0, 0] ++ leBytes 8 s.mg.serial.toNat ++ leBytes 8 fromSeq ++ leBytes 8 snap ++
    leBytes 4 (Nat.min 16384 snap) ++ List.replicate 24 0
  let start := Nat.max 1 fromSeq
  let r := exportFrom s ((bytes - 128) / 256) (snap + 1 - start) start [] 0 0
  let more := decide (r.2.2.2 ≤ snap)
  let body := h ++ leBytes 4 (crc32c h).toNat ++ r.1.reverse.flatten ++ [0x42, 0x42, 0x58, 0x54] ++
    leBytes 4 (b2n more) ++ leBytes 8 r.2.1 ++ leBytes 8 r.2.2.2 ++ leBytes 8 r.2.2.1 ++ List.replicate 28 0
  (body ++ leBytes 4 (crc32c body).toNat, r.2.1, r.2.2.1)

/-! ### The engine's rows -/

/-- Whether an exclusive operation may leave QUEUED (R428): no phase, program, caravan or other long operation but BB_EXPORT
is live; of two that wait, the earlier goes first. -/
def aloneLive (s : State) (handle : Nat) : Bool :=
  let before := s.cp.longops.takeWhile fun e => e.2.handle != handle
  let after := (s.cp.longops.dropWhile fun e => e.2.handle != handle).drop 1
  let waits := fun (l : LongOp) => (l.opcode == 0x0801 || l.opcode == 0x0503) && !l.ran
  s.fb.runs.isEmpty && s.cl.caravans.isEmpty && (before.all fun e => e.2.opcode == 0x0803) &&
    (after.all fun e => e.2.opcode == 0x0803 || waits e.2) && !(s.sc.scrubbing && s.mem.initRunning)

/-- Whether an operation waits behind a FENCE. -/
def isFencedOp (s : State) (handle : Nat) : Bool :=
  s.cp.a.fenced.any (fun e => e.1 == handle) || s.cp.b.fenced.any fun e => e.1 == handle

/-- Enters RUNNING; a RESUME that waited completes. -/
def enterRunning (l : LongOp) (s : State) : State :=
  let s1 := modLong s l.handle fun o => { o with state := .running, ran := true, resumer := none }
  match l.resumer with
  | some h => complete h 0 0 [] s1
  | none => s1

/-- A queued operation leaves QUEUED (R428). -/
def startLong (l : LongOp) (s : State) : State :=
  match l.opcode with
  | 0x0101 =>
    match headLoad s with
    | some x => if x.handle = l.handle then sendLoad (enterRunning l s) else s
    | none => s
  | 0x0503 => if aloneLive s l.handle then enterRunning l s else s
  | 0x0801 =>
    if aloneLive s l.handle then beginScrub (modLong (enterRunning l s) l.handle fun o => { o with pastCommit := true }) else s
  | 0x0504 =>
    if mcRuns s && s.bb.notes.isEmpty then
      let s1 := enterRunning l (noteEvent 0x0108 (leBytes 4 l.handle) s)
      match collOf l.cmd with
      | some d => postDown { s1 with cl := { s1.cl with rsHandle := l.handle } } 4 (.collDesc l.handle d)
      | none => s1
    else s
  | 0x0802 => setSlot (otherSlot s) (slotOf s (otherSlot s)) 3 (enterRunning l s)
  | 0x0803 => modLong (enterRunning l s) l.handle fun o => { o with mark := s.bb.committed }
  | _ => enterRunning l s

/-- LONG_OP_START (R228, R407, R428, R534). -/
def execLongOpStart (handle : Nat) (s : State) : Out :=
  .next (match liveLong s handle with
    | some (_, l) =>
      if l.state == .queued && !isFencedOp s l.handle then releaseFenced (startLong l s) else s
    | none => s)

/-- PAUSE_POINT_REACHED (R425). -/
def execPausePointReached (handle : Nat) (s : State) : Out :=
  .next (match liveLong s handle with
    | some (_, l) =>
      if l.state == .suspending then
        let s1 := modLong s l.handle fun o => { o with state := .suspended, suspender := none }
        releaseFenced (match l.suspender with
          | some h => complete h 3 0 [] s1
          | none => s1)
      else s
    | none => s)

/-- What CANCEL undoes (Table 13.8): the part of an image that had been written stays in host memory without its trailer; a
FW_UPDATE's slot is marked empty. -/
def undoLong (l : LongOp) (s : State) : State :=
  if !l.ran then s
  else
    match l.cmd with
    | .checkpoint h _ _ a _ => (runCheckpoint h.port a l.ranges false s).2
    | .bbExport h a bytes fromSeq =>
      let img := (exportImage s bytes fromSeq l.mark).1
      let f := drawFree s
      hostWrite f.2 h.port a (img.take (f.1 % (img.length - 63)))
    | .fwUpdate _ _ _ => setSlot (otherSlot s) [] 0 s
    | _ => s

/-- CANCEL_UNDO_DONE (R425, R426). A re-shard that had begun ends with its caravan (R366). -/
def execCancelUndoDone (handle : Nat) (s : State) : Out :=
  .next (match liveLong s handle with
    | some (_, l) =>
      if l.state == .cancelling && !(l.opcode == 0x0504 && l.ran) then
        releaseFenced (longDone l.handle 2 0 [] (undoLong l s))
      else s
    | none => s)

/-- The work of a running operation ends (Table 13.5); a load and a re-shard end by their own rows. -/
def finishLong (l : LongOp) (tests : List SelfTest) (s : State) : State :=
  match l.cmd with
  | .checkpoint h _ _ a _ =>
    let r := runCheckpoint h.port a l.ranges true s
    longDone l.handle (if r.1.count = 0 then 0 else 0x0200) 0
      [BitVec.ofNat 64 (checkpointBytes l.ranges), BitVec.ofNat 64 (r.1.first.getD 0), BitVec.ofNat 64 r.1.count] r.2
  | .restore h a bytes flags => runRestore l.handle h.port a bytes flags s
  | .scrub _ => longDone l.handle 0 0 [] (endScrub tests s)
  | .fwUpdate h a bytes => runUpdate l.handle h.port a bytes l.pastCommit s
  | .bbExport h a bytes fromSeq =>
    let r := exportImage s bytes fromSeq l.mark
    let s1 := hostWrite s h.port a r.1
    longDone l.handle 0 0 [BitVec.ofNat 64 r.2.1] { s1 with bb := { s1.bb with counts := taddW s1.bb.counts 6 r.2.2 } }
  | _ => s

/-- Whether a running operation has come to where only its commit point is left: a RESTORE has verified its image, a FW_UPDATE its
slot (Table 13.8). -/
def commitReady (l : LongOp) (s : State) : Bool :=
  l.state == .running && !l.pastCommit &&
    match l.cmd with
    | .checkpoint .. => true
    | .restore h a bytes _ => (imageRanges s h.port a bytes).isSome
    | .fwUpdate h a bytes => updateGood h.port a bytes s
    | .bbExport .. => true
    | _ => false

/-- An operation passes its commit point (R424, Table 13.8). -/
def commitLong (l : LongOp) (s : State) : State :=
  let s1 := match l.cmd with
    | .fwUpdate h a bytes => selectSlot h.port a bytes s
    | _ => s
  modLong s1 l.handle fun o => { o with pastCommit := true }

/-- In a management period, whether each operation that is ready passes its commit point is free (log entry 1316). -/
def commitDue (s : State) : State :=
  s.cp.longops.foldl (fun st e =>
    if commitReady e.2 st then
      let r := drawFree st
      if r.1 % 2 = 1 then commitLong e.2 r.2 else r.2
    else st) s

/-- LONG_OP_WORK_END (R425): the operation passes its commit point, if it has not, and ends. -/
def execLongOpWorkEnd (handle : Nat) (tests : List SelfTest) (s : State) : Out :=
  .next (match liveLong s handle with
    | some (_, l) => if l.state == .running then releaseFenced (finishLong l tests s) else s
    | none => s)

/-! ### The steward token (R414, R415) -/

/-- The lease starts again: LEASE_MS windows of 1 ms (R415). -/
def renewLease (s : State) : State := { s with cp := { s.cp with leaseLeft := bitsOf s.cp.stewardCfg.toNat 15 0 } }

/-- STEWARD_WINDOW (R414): claims are settled; of two while the token is FREE, port A's prevails. -/
def execStewardWindow (s : State) : Out :=
  .next (
    let claims := s.cp.claims
    let s1 := { s with cp := { s.cp with claims := [], leaseLeft := s.cp.leaseLeft - 1 } }
    let winner := if claims.any fun c => c.1 == 0 then 1 else 2
    let s2 := if s.cp.holder = 0 && !claims.isEmpty then
        postEvent 0x8002 [BitVec.ofNat 64 winner, 1] (renewLease { s1 with cp := { s1.cp with holder := winner, cause := 1 } })
      else s1
    releaseFenced (claims.foldl (fun st c =>
      complete c.2 (if st.cp.holder = c.1 + 1 then 0 else 0x0013) 0 [] st) s2))

/-- CP_STEWARD_KEEPALIVE (R415): any value from the holder's port. -/
def execCpStewardKeepalive (port : Nat) (_value : W32) (s : State) : Out :=
  guardUnit (decide (port < 2)) (whenTaken ((getCp s port).linkUp && holdsToken s port) renewLease s)

/-- STEWARD_LEASE_EXPIRY (R415). -/
def execStewardLeaseExpiry (s : State) : Out :=
  .next (whenTaken (s.cp.holder != 0 && bitsOf s.cp.stewardCfg.toNat 15 0 != 0 && s.cp.leaseLeft == 0) (freeToken 5) s)

end Sys2Proof.Machine
end

