-- ==== Sys2Proof/Machine/Regs.lean ====
section
/-!
DEFINITION. What every register of BAR0 reads as (00 R8 to R13, and the block maps of 02, 04, 05, 07, 09 to 17).  Each block's
function takes an offset within the block and answers the width and value of the register that starts there; none for a
reserved offset.
-/

namespace Sys2Proof.Machine

open Sys2Proof

/-! ### Shapes -/

/-- A register: its width in bytes and its value. -/
abbrev Reg := Nat × Nat

/-- The index of an offset in an array of `n` registers from `base`, `stride` bytes apart. -/
def arrayAt (o base stride n : Nat) : Option Nat :=
  if base ≤ o && decide (o < base + stride * n) && (o - base) % stride == 0 then some ((o - base) / stride) else none

/-- A register of an array. -/
def inArray (o base width n : Nat) (f : Nat → Nat) : Option Reg := (arrayAt o base width n).map fun i => (width, f i)

/-- Counters of an array of 64-bit registers. -/
def countRegs (o base n : Nat) (t : Tbl W64) : Option Reg := inArray o base 8 n fun k => (tget 0 t k).toNat

/-- Word w of a byte string. -/
def wordOf (b : List Byte) (w : Nat) : Nat := field b (8 * w) 8

/-- The first answer of a list of parts of a map. -/
def firstReg : List (Option Reg) → Option Reg
  | [] => none
  | some r :: _ => some r
  | none :: l => firstReg l

/-- A number as a 32-bit two's complement word. -/
def word32 (v : Int) : Nat := (v % 2 ^ 32).toNat

/-! ### FB (Tables 7.19 to 7.25, 2.11, 5.3, 5.4) -/

/-- STAGE of FB_LOAD_STATUS (Table 7.21). -/
def loadStage (s : State) : Nat :=
  match headLoad s with
  | none => 0
  | some l =>
    match l.stage with
    | .accept => 1
    | .verify => 2
    | .hold => 3
    | .apply => 4
    | .report => 5

/-- FB_LOAD_STATUS. -/
def fbLoadStatus (s : State) : Nat :=
  let held := match headLoad s with
    | some l =>
      match longOpOf s l.handle with
      | some (_, o) => o.state == .suspended
      | none => false
    | none => false
  packed [(3, loadStage s), (1, b2n held), (4, 0), (8, s.fb.lastCheck), (32, hostHandle s.fb.lastHandle), (9, s.fb.loads.length - 1)]

/-- The context active on a region's cells (Table 7.25). -/
def activeCtx (s : State) (g : Region) : Nat := (getCell s (80 * g.first)).active

/-- HELD_LOAD: a load waits in HOLD on a region. -/
def holdWaits (s : State) (r : Nat) : Bool := s.fb.loads.any fun l => l.stage == .hold && l.writes r

/-- FB_REGION[r] (Table 7.25). -/
def fbRegion (s : State) (r : Nat) : Nat :=
  match regionOf s r with
  | none => b2n (holdWaits s r) * 2 ^ 10
  | some g =>
    packed [(1, 1), (4, g.ctxMask.toNat), (2, activeCtx s g), (1, b2n (regionRunning s r)), (1, b2n g.program),
            (1, b2n g.signed), (1, b2n (holdWaits s r)), (5, 0), (11, g.first), (5, 0), (11, g.count)]

/-- Word w of FB_REGION_DIGEST[r]. -/
def fbDigest (s : State) (r w : Nat) : Nat :=
  match regionOf s r with
  | none => 0
  | some g => wordOf g.digest w

/-- FB_AUTH_CTRL (Table 7.23): KEY_SET tells whether the digest is nonzero. -/
def fbAuth (s : State) : Nat :=
  packed [(1, b2n (s.fb.authCtrl.getLsbD 0)), (1, b2n !s.fb.ownerDigest.isEmpty), (29, 0), (1, b2n (s.fb.authCtrl.getLsbD 31))]

/-- The FB block. -/
def fbReg (s : State) (o : Nat) : Option Reg :=
  match o with
  | 0x0 => some (4, 0x0101)
  | 0x8 => some (8, fbLoadStatus s)
  | 0x10 => some (8, s.fb.loadFault.toNat)
  | 0x18 => some (8, s.fb.loadCount.toNat)
  | 0x20 => some (4, fbAuth s)
  | 0x80 => some (8, s.fb.job.toNat)
  | 0x88 => some (8, s.fb.jobSeed.toNat)
  | 0x1420 => some (4, s.fb.powerModule)
  | _ =>
    firstReg [
      inArray o 0x40 8 6 fun w => (tget 0 s.fb.ownerDigest w).toNat,
      inArray o 0x100 8 64 fun r => fbRegion s r,
      if o % 64 < 48 then inArray o 0x400 8 512 fun i => fbDigest s (i / 8) (i % 8) else none,
      inArray o 0x1400 4 8 fun d => tget 0 s.fb.powerDie d,
      inArray o 0x10000 4 4992 fun i => (cellRepairRead s i).toNat,
      inArray o 0x20000 4 1248 fun i => (clusterMapOf s i).toNat,
      inArray o 0x22000 4 8 fun d => (capacityOf s d).toNat]

/-! ### MC (Tables 9.4 to 9.12) -/

/-- MC_STATUS (Table 9.6). -/
def mcStatus (s : State) : Nat :=
  let copying := s.mem.retires.find? fun r => r.copying
  let ptr := match copying with
    | some r => r.ptr / 2 ^ 20
    | none => 0
  packed [(1, b2n s.mem.ready), (1, b2n s.mem.initRunning), (1, b2n s.mem.retainedValid), (1, b2n copying.isSome),
          (1, b2n (s.mem.subch.any fun w => (erasurePin w).isSome)), (1, b2n (s.mem.subch.any fun w => subState w == 6)), (10, 0),
          (13, ptr)]

/-- MC_PATROL.PASSES: passes of the slowest controller, wrapping (Table 9.9). -/
def patrolPasses (s : State) : Nat :=
  (List.range 7).foldl (fun n d => Nat.min n (tget 0 s.mem.patrolPtr (d + 1) / sectorsOfStack))
    (tget 0 s.mem.patrolPtr 0 / sectorsOfStack) % 2 ^ 16

/-- The MC block. -/
def mcReg (s : State) (o : Nat) : Option Reg :=
  match o with
  | 0x0 => some (4, 0x0401)
  | 0x8 => some (8, mcStatus s)
  | 0x10 => some (4, s.mem.gen)
  | 0x18 => some (8, s.mem.bar4Base.toNat)
  | 0x20 => some (4, s.mem.patrol.toNat % 2 ^ 16 + patrolPasses s * 2 ^ 16)
  | 0x28 => some (4, s.mem.retireCtrl.toNat)
  | 0x40 => some (8, s.mem.errLog.toNat)
  | 0x200 => some (8, s.mem.hostFault.toNat)
  | _ => firstReg [countRegs o 0x100 32 s.mem.counts, inArray o 0x1000 4 256 fun i => (lget 0 s.mem.subch i).toNat]

/-! ### LK (Tables 10.9 to 10.20) -/

/-- LK_PORT_STATUS (Table 10.10). -/
def lkPortStatus (v : Port) : Nat :=
  let used := v.lanes.filter fun x => decide (x.role ≤ 16)
  packed [(4, v.state.code), (1, b2n v.farValid), (1, b2n v.narrow), (2, 0), (4, v.dir), (4, v.farPort), (16, v.farRank),
          (4, v.farDir), (5, (used.filter fun x => decide (3 ≤ x.grade)).length),
          (3, (v.lanes.filter fun x => x.role == 16).length)]

/-- LK_LANE (Table 10.13). -/
def lkLane (x : Lane) : Nat := packed [(5, x.role), (3, x.grade), (3, x.worst), (5, 0), (16, x.moves)]

/-- The registers of one port. -/
def lkPortReg (v : Port) (o : Nat) : Option Reg :=
  match o with
  | 0x0 => some (8, lkPortStatus v)
  | 0x8 => some (4, v.cfg.toNat)
  | 0x10 => some (4, v.fault.toNat)
  | _ => firstReg [inArray o 0x100 4 20 fun l => lkLane (lget Lane.reset v.lanes l), countRegs o 0x200 9 v.cnt]

/-- Bank b of the routes (Table 10.18). -/
def bankAt (s : State) (b : Nat) : W64 := if b = 0 then s.lk.bank0 else s.lk.bank1

/-- LK_EPOCH (Table 10.16). -/
def lkEpoch (s : State) : Nat :=
  let n := (s.lk.epoch + 1) % 4
  let b := bankAt s (n % 2)
  packed [(2, s.lk.epoch), (2, s.lk.prevEpoch), (1, b2n s.lk.prevLive), (1, b2n (b.getLsbD 0 && bits64 b 2 1 == n))]

/-- LK_INFLIGHT[b]: packets of the bank's epoch (Table 10.9). -/
def lkInflight (s : State) (b : Nat) : Nat :=
  let e := bits64 (bankAt s b) 2 1
  packed [(32, inflightHeld s e), (32, inflightOut s e)]

/-- LK_DEST_STATE (Table 10.20). -/
def lkDest (s : State) : Nat :=
  let r := s.lk.destSel.toNat
  let v := getPeer s r
  let st := if isFenced s r then 2 else if v.peerErr then 1 else 0
  packed [(10, v.w), (10, v.held.length), (24, v.nextSeq), (2, st)]

/-- LK_FENCE[i] (Table 10.9). -/
def lkFence (s : State) (i : Nat) : Nat := packed ((List.range 64).map fun j => (1, b2n (isFenced s (64 * i + j))))

/-- The LK block. -/
def lkReg (s : State) (o : Nat) : Option Reg :=
  if o < 0xA0000 then lkPortReg (getPort s (o / 0x10000)) (o % 0x10000)
  else
    match o with
    | 0x100000 => some (4, s.lk.rank.toNat)
    | 0x100008 => some (4, s.lk.torus.toNat)
    | 0x100010 => some (4, lkEpoch s)
    | 0x100018 => some (8, s.lk.e2e.toNat)
    | 0x100040 => some (8, s.lk.peerErrLog.toNat)
    | 0x100048 => some (4, s.lk.destSel.toNat)
    | 0x100050 => some (8, lkDest s)
    | _ =>
      firstReg [
        inArray o 0x100020 8 2 fun b => (bankAt s b).toNat,
        inArray o 0x100030 8 2 fun b => lkInflight s b,
        countRegs o 0x100100 9 s.lk.drops,
        inArray o 0x101000 8 1024 fun i => lkFence s i]

/-! ### CL and the update engine (Tables 11.10 to 11.17, 12.6 to 12.13) -/

/-- CL_CARAVAN_STATE (Table 11.17). -/
def clCaravan (s : State) : Nat :=
  match cvOf s s.cl.sel.toNat with
  | none => 0
  | some c =>
    let st := match c.state with
      | .opening => 1
      | .running => 2
      | .waiting => 3
    packed [(3, st), (3, c.d.kind), (10, 0), (16, c.me), (16, c.m - 1)]

/-- UE_STATUS (Table 12.12). -/
def ueStatus (s : State) : Nat :=
  packed [(1, b2n s.ue.converting), (1, b2n s.ue.reinit), (1, b2n s.ue.commitFail), (1, b2n s.ue.poison), (12, 0),
          (13, missingSum s)]

/-- The CL block. -/
def clReg (s : State) (o : Nat) : Option Reg :=
  match o with
  | 0x0 => some (4, 0x0101)
  | 0x8 => some (4, s.cl.cfg.toNat)
  | 0x10 => some (8, s.cl.stagingBase.toNat)
  | 0x18 => some (8, s.cl.stagingSize.toNat)
  | 0x20 => some (8, clStatus s)
  | 0x28 => some (8, packed [(4, s.cl.rsState), (24, s.cl.rsDone), (24, s.cl.rsTotal)])
  | 0x30 => some (8, s.cl.faultLog.toNat)
  | 0x40 => some (4, s.cl.sel.toNat)
  | 0x48 => some (8, clCaravan s)
  | 0x10000 => some (4, 0x0101)
  | 0x10008 => some (8, s.ue.table.toNat)
  | 0x10010 => some (8, s.ue.recordBase.toNat)
  | 0x10018 => some (4, s.ue.recordWords.toNat)
  | 0x10020 => some (8, s.ue.codeBase.toNat)
  | 0x10028 => some (4, s.ue.codeWords.toNat)
  | 0x10030 => some (8, packed [(32, s.ue.step), (1, b2n s.ue.readCopy)])
  | 0x10038 => some (8, ueStatus s)
  | 0x10040 => some (8, s.ue.faultLog.toNat)
  | _ => firstReg [countRegs o 0x100 8 s.cl.counts, countRegs o 0x10100 8 s.ue.counts]

/-! ### TW (Tables 4.3 to 4.7) -/

/-- Word w of a record's 1 KiB (Table 4.4). -/
def twWord (r : TwRec) (w : Nat) : Nat :=
  let c := fun (i : Nat) => tget 0 r.counts i % 2 ^ 64
  match w with
  | 0 => r.seq
  | 1 => packed [(32, r.tag), (16, r.phaseId), (8, r.fmt), (8, r.flags)]
  | 2 => packed [(32, r.step), (8, r.stackSet)]
  | 3 => valuesOf r.counts % 2 ^ 64
  | 4 => c 64
  | 5 => c 65
  | 6 => c 66
  | 7 => c 67
  | 8 => c 68
  | 127 => r.seq
  | _ => if 16 ≤ w && w < 80 then c (w - 16) else 0

/-- The record in slot i of the ring (R147): the newest with that place. -/
def ringSlot (s : State) (i : Nat) : TwRec :=
  (s.tw.ring.find? fun r => (r.seq + 16383) % 16384 == i).getD TwRec.empty

/-- TW_RING_TAIL (Table 4.6). -/
def twTail (s : State) : Nat := if s.tw.head = 0 then 0 else Nat.max 1 (s.tw.head - 16383)

/-- The 56 bytes of a telemetry payload (Table 4.8). -/
def teleBytes (m : Msg) : List Byte :=
  match m.payload with
  | .counts w =>
    let g := fun (i : Nat) => lget 0 w i
    match m.kind with
    | 0x11 => ((List.range 7).map fun i => leBytes 8 (g i)).flatten
    | 0x12 => leBytes 1 (g 0) ++ leBytes 1 (g 1) ++ leBytes 6 (g 2) ++
        leBytes 48 (packed ((List.range 64).map fun i => (6, g (3 + i))))
    | 0x13 => leBytes 1 (g 0) ++ leBytes 1 (g 1) ++ leBytes 6 (g 2) ++ ((List.range 6).map fun i => leBytes 8 (g (3 + i))).flatten
    | _ => ((List.range 42).map fun i => leBytes 1 (g i)).flatten ++ [0, 0] ++ leBytes 4 (g 42) ++ leBytes 4 (g 43) ++ [0, 0, 0, 0]
  | _ => List.replicate 56 0

/-- A telemetry message's 64 bytes (Table 1.3). -/
def msgBytes (m : Msg) : List Byte :=
  leBytes 1 m.kind ++ leBytes 1 m.source ++ leBytes 1 m.coalesced ++ [0] ++ leBytes 4 m.seq ++ teleBytes m

/-- Word w of the latest image of a key: COUNTER_SNAPSHOT of stack k at k, LANE_HEALTH at 8 + k. -/
def twImage (s : State) (k w : Nat) : Nat :=
  match (s.tw.images.find? fun e => e.1 == k) with
  | none => 0
  | some (_, m) => wordOf (msgBytes m) w

/-- The TW block, from 0x100_0000: every word of its windows is a 64-bit register (R145). -/
def twReg (s : State) (o : Nat) : Option Reg :=
  match o with
  | 0x0 => some (8, s.tw.head)
  | 0x8 => some (8, twTail s)
  | 0x10 => some (8, packed [(2, s.tw.status.toNat), (6, 0), (8, Nat.min 255 (s.tw.opens.foldl (fun (n : Nat) o => n + o.formats.length) 0))])
  | _ =>
    firstReg [
      inArray o 0x1000 8 64 fun i => twImage s (i / 8) (i % 8),
      inArray o 0x1200 8 64 fun i => twImage s (8 + i / 8) (i % 8),
      inArray o 0x2000 8 2048 fun i => twWord (tget TwRec.empty s.tw.cum (i / 128)) (i % 128),
      inArray o 0x100000 8 2097152 fun i => twWord (ringSlot s (i / 128)) (i % 128)]

/-! ### MG and CP (Tables 13.12 to 13.22) -/

/-- A port's mailbox. -/
def mboxOf (s : State) (port : Nat) : Mbox := if port = 0 then s.mg.mboxA else s.mg.mboxB
def setMbox (port : Nat) (m : Mbox) (s : State) : State :=
  { s with mg := if port = 0 then { s.mg with mboxA := m } else { s.mg with mboxB := m } }

/-- The MG block; its mailbox is the accessing port's. -/
def mgReg (s : State) (port o : Nat) : Option Reg :=
  match o with
  | 0x0 => some (8, s.mg.id.toNat)
  | 0x8 => some (8, s.mg.serial.toNat)
  | 0x10 => some (8, s.mg.fw.toNat)
  | 0x1000 => some (4, (mboxOf s port).request % 256)
  | 0x1004 => some (4, (mboxOf s port).status.toNat)
  | _ => countRegs o 0x1100 16 (mboxOf s port).data

/-- CP_LONGOP[i] (Table 13.22); its PROGRESS is free (log entry 3). -/
def cpLongop (s : State) (i : Nat) : Nat :=
  match s.cp.longops.find? fun e => e.1 == i with
  | none => 0
  | some (_, l) => (longImage l s).1

/-- CP_STEWARD as a port reads it (Table 13.19). -/
def cpSteward (s : State) (port : Nat) : Nat :=
  packed [(2, s.cp.holder), (1, b2n (holdsToken s port)), (5, 0), (3, s.cp.cause)]

/-- The CP block; from 0x1000 up the accessing port's copy. -/
def cpReg (s : State) (port o : Nat) : Option Reg :=
  let c := getCp s port
  match o with
  | 0x0 => some (4, 0x0101)
  | 0x8 => some (8, cpStatus s port)
  | 0x10 => some (4, cpSteward s port)
  | 0x14 => some (4, 0)
  | 0x18 => some (4, s.cp.stewardCfg.toNat)
  | 0x1000 => some (8, c.sqNext % 2 ^ 64)
  | 0x1008 => some (8, c.cqBase.toNat)
  | 0x1010 => some (4, c.cqEntries.toNat)
  | 0x1014 => some (4, c.cqHead.toNat)
  | 0x1018 => some (4, c.cqTail.toNat)
  | 0x101C => some (4, c.eventCfg.toNat)
  | 0x9000 => some (8, c.pba.toNat)
  | _ =>
    firstReg [
      inArray o 0x100 8 16 fun i => cpLongop s i,
      countRegs o 0x1100 5 c.faultCnt,
      countRegs o 0x1200 19 c.poisonMap,
      inArray o 0x8000 8 128 fun i =>
        if i % 2 = 0 then (tget 0 c.msixAddr (i / 2)).toNat else (tget msixReset c.msixData (i / 2)).toNat]

/-! ### PW (Tables 14.7 to 14.15) -/

/-- PW_STATE (Table 14.8). -/
def pwState (s : State) : Nat :=
  packed [(3, s.pw.state.code), (3, s.pw.commanded), (3, floorOf s), (1, b2n s.pw.target.isSome), (2, portD s 0),
          (2, portD s 1), (2, 0), (12, s.pw.p1Cap)]

/-- PW_POWER (Table 14.10). -/
def pwPower (s : State) : Nat :=
  let limiting := (List.range 8).any fun d => capBy s d 1 != 0 && decide (capBy s d 1 < 2700)
  packed [(16, s.pw.meanW), (16, s.pw.peakW), (2, s.pw.loadClass), (2, s.pw.band), (1, b2n limiting), (1, b2n s.pw.excursion),
          (1, b2n s.pw.coolant)]

/-- PW_CAL_STATUS (Table 14.11). -/
def pwCal (s : State) : Nat :=
  packed [(1, b2n s.pw.guard), (1, b2n s.pw.recal), (2, s.pw.usedClass), (2, s.pw.usedBand), (9, s.pw.stored.toNat),
          (8, Nat.min 255 s.pw.periods)]

/-- PW_FCLK[d] (Table 14.12). -/
def pwFclk (s : State) (d : Nat) : Nat :=
  let c := capOf s d
  packed [(12, tget 0 s.pw.freq d), (12, c.1), (3, c.2), (5, 0), (8, (wholeC (tget 0 s.pw.hot d) % 256).toNat)]

/-- PW_SENSOR[i]; the reserved ones read 0x8000_0000 (Table 14.5). -/
def sensorWord (s : State) (i : Nat) : Nat := if 220 ≤ i then 0x80000000 else word32 (tget 0 s.pw.sensors i)

/-- PW_HEATER[p][l] (Table 14.15): the codes of the set in use (R457); WIDE under the guard band (R458); OUT_OF_RANGE as
kept. -/
def pwHeater (s : State) (p l : Nat) : Nat :=
  let c := s.pw.usedClass
  let b := s.pw.usedBand
  packed [(12, Config.heaterCode p l c b true), (4, 0), (12, Config.heaterCode p l c b false), (2, c), (2, b),
          (1, b2n (s.pw.guard || decide (0 < (getPort s p).relight))), (1, b2n (tget 0 s.pw.heater (20 * p + l) != 0))]

/-- The PW block. -/
def pwReg (s : State) (o : Nat) : Option Reg :=
  match o with
  | 0x0 => some (4, 1)
  | 0x8 => some (8, pwState s)
  | 0x10 => some (4, s.pw.limitW)
  | 0x18 => some (8, pwPower s)
  | 0x20 => some (8, pwCal s)
  | _ =>
    firstReg [
      inArray o 0x100 8 8 fun d => pwFclk s d,
      inArray o 0x200 4 37 fun i => (tget 0 s.pw.pll i).toNat,
      inArray o 0x1000 4 256 fun i => sensorWord s i,
      inArray o 0x2000 4 10 fun p => (tget 0 s.pw.laser p).toNat,
      if o % 0x100 < 160 then inArray o 0x4000 8 320 fun i => pwHeater s (i / 32) (i % 32) else none,
      countRegs o 0x8000 10 s.pw.counts]

/-! ### SF (Tables 15.9 to 15.13) -/

/-- SF_STATUS (Table 15.10). -/
def sfStatus (s : State) : Nat :=
  packed [(1, b2n s.ws.haltSm), (1, b2n (s.ws.portSm != 0)), (1, b2n s.sf.heartbeatOk), (1, b2n s.sf.selftestOk),
          (1, b2n s.sf.fuseClosed), (11, 0), (16, s.sf.smclkKhz)]

/-- SF_PORT[p] (Table 15.12): the switch is closed while the line is clear and channel B reads present (R464). -/
def sfPort (s : State) (p : Nat) : Nat :=
  let line := s.ws.portSm.getLsbD p
  let cause := ((List.range 5).find? fun c => decide (0 < c) && smHolds s p c).getD 0
  packed [(1, b2n line), (3, cause), (1, b2n (s.sf.pilotA.getLsbD p)), (1, b2n (s.sf.pilotB.getLsbD p)),
          (1, b2n (!line && s.sf.pilotB.getLsbD p && !s.sf.failed)), (1, b2n (s.sf.proof.getLsbD p)),
          (5, packed ((List.range 5).map fun f => (1, b2n (tget false s.sf.fibreHigh (8 * p + f))))), (3, 0),
          (16, tget 0 s.sf.fibreMax p)]

/-- The SF block. -/
def sfReg (s : State) (o : Nat) : Option Reg :=
  match o with
  | 0x0 => some (4, 1)
  | 0x8 => some (8, sfStatus s)
  | 0x10 => some (8, packed [(8, s.sf.tripCause), (2, s.sf.autoRestarts), (6, 0), (16, s.sf.tripValue), (3, s.sf.tripDie)])
  | 0x200 =>
    some (4, packed [(1, b2n s.sf.loopLow), (1, b2n s.sf.loopDriving), (1, b2n s.sf.loopStuck), (13, 0), (16, s.sf.loopEvents)])
  | _ => firstReg [inArray o 0x100 8 10 fun p => sfPort s p, countRegs o 0x1000 8 s.sf.counts]

/-! ### SC and DB (Tables 16.13 to 16.20) -/

/-- SC_LIFECYCLE (Table 16.14). -/
def scLifecycle (s : State) : Nat :=
  packed [(2, s.sc.lifecycle), (2, s.sc.next), (1, b2n (s.sc.next != s.sc.lifecycle)), (1, b2n s.sc.identity),
          (1, b2n !(allZero s.sc.ownerCrb)), (1, b2n !(allZero s.sc.ownerDbg)), (6, s.sc.transitions)]

/-- SC_DEBUG (Table 16.15). -/
def scDebug (s : State) : Nat :=
  packed [(2, s.sc.level), (2, s.sc.requested), (1, b2n s.sc.presenceWait), (1, b2n s.sc.scrubbing),
          (1, b2n (s.sc.level == 2)), (1, 0), (8, s.sc.lastCause), (15, s.sc.presenceLeft)]

/-- SC_FW_SLOTS (Table 16.16): INACTIVE_VERSION is FW_VERSION of the slot that does not run, when it is valid. -/
def scSlots (s : State) : Nat :=
  let o := otherSlot s
  let v := if slotState s o = 1 then field (slotOf s o) 12 4 else 0
  packed [(2, s.sc.stateA), (2, s.sc.stateB), (1, s.sc.selected), (1, s.sc.running), (26, 0), (32, v)]

/-- The SC block; SC_STAGE is the command processor's own (port 2, R486). -/
def scReg (s : State) (port o : Nat) : Option Reg :=
  match o with
  | 0x0 => some (4, 1)
  | 0x8 => some (8, scLifecycle s)
  | 0x10 => some (8, scDebug s)
  | 0x18 => some (4, b2n s.sc.nonceValid * 2)
  | 0x100 => some (8, scSlots s)
  | 0x108 => some (4, packed [(16, s.sc.rollback), (8, s.sc.fusesLeft)])
  | 0x110 => some (4, s.sc.bootFlags.toNat)
  | _ =>
    firstReg [
      inArray o 0x20 8 4 fun w => s.sc.nonce.toNat / 2 ^ (64 * w) % 2 ^ 64,
      inArray o 0x40 8 6 fun w => wordOf s.sc.vendorKey w,
      inArray o 0x70 8 6 fun w => wordOf s.sc.fwKey w,
      inArray o 0xA0 8 6 fun w => wordOf s.sc.ownerCrb w,
      inArray o 0xD0 8 6 fun w => wordOf s.sc.ownerDbg w,
      inArray o 0x400 8 128 fun i => (tget 0 s.sc.fuse i).toNat,
      countRegs o 0x1000 8 s.sc.counts,
      inArray o 0x8000 8 4096 fun w => if port = 2 then wordOf s.sc.stage w else 0]

/-- DB_STATUS (Table 16.20). -/
def dbStatus (s : State) : Nat :=
  let busy := s.ws.unacked.any fun e =>
    match e.1.payload with
    | .halt _ _ debug _ => debug
    | _ => false
  packed [(8, s.db.halted.toNat), (8, s.db.snapValid.toNat), (1, b2n busy), (1, b2n s.db.mcuHalted), (2, 0), (4, s.db.error),
          (8, 0), (32, s.db.mcuPc.toNat)]

/-- Word h of DB_TRACE[i]: sequence and period, then KIND and ARG; zero below DBG_OBSERVE (R498). -/
def dbTrace (s : State) (i h : Nat) : Nat :=
  if s.sc.level = 0 then 0
  else
    match s.db.trace.find? fun r => r.1 % 4096 == i with
    | none => 0
    | some (q, p, k, a) => if h = 0 then packed [(32, q), (32, p)] else packed [(16, k), (48, a)]

/-- The DB block. -/
def dbReg (s : State) (o : Nat) : Option Reg :=
  match o with
  | 0x0 => some (4, 1)
  | 0x8 => some (4, s.db.ctrl.toNat)
  | 0x10 => some (8, s.db.snapBase.toNat)
  | 0x18 => some (8, dbStatus s)
  | 0x20 => some (8, s.db.traceHead % 2 ^ 64)
  | _ => inArray o 0x10000 8 8192 fun i => dbTrace s (i / 2) (i % 2)

/-! ### BB (Tables 17.11 to 17.14) -/

/-- BB_STATUS (Table 17.12). -/
def bbStatus (s : State) : Nat :=
  packed [(16, firstFill s), (1, b2n s.bb.reshardOpen), (1, b2n s.bb.ctrlRebuilt), (1, b2n s.bb.repairLost),
          (1, b2n s.bb.mramFault), (1, b2n s.bb.noteLost), (11, 0), (11, s.bb.window.len)]

/-- The accessing port's record latch. -/
def latchOf (s : State) (port : Nat) : BbLatch := if port = 0 then s.bb.latchA else s.bb.latchB

/-- The BB block; BB_NOTE is the command processor's own, and reads as it was written. -/
def bbReg (s : State) (port o : Nat) : Option Reg :=
  match o with
  | 0x0 => some (4, 0x0101)
  | 0x8 => some (8, s.bb.committed % 2 ^ 64)
  | 0x10 => some (8, bbStatus s)
  | 0x20 => some (8, (latchOf s port).sel.toNat)
  | 0x28 => some (4, (latchOf s port).state.toNat)
  | 0x9100 => some (4, 0)
  | _ =>
    firstReg [
      inArray o 0x100 8 32 fun w => wordOf (latchOf s port).image w,
      countRegs o 0x1000 8 s.bb.counts,
      inArray o 0x8000 8 512 fun _ => 0,
      inArray o 0x9000 8 32 fun w => if port = 2 then wordOf s.bb.note w else 0]

/-! ### BAR0 (Table 9.2, R11, R12) -/

/-- The blocks of BAR0. -/
inductive Block where
  | mg
  | cp
  | fb
  | mc
  | lk
  | cl
  | sf
  | sc
  | bb
  | pw
  | db
  | tw
  deriving DecidableEq, Repr

/-- What a host port offers on PCI Express (R398, Table 13.1): sizes in bytes, BARs by number with size and whether prefetchable. -/
structure PcieFunction where
  classCode : Nat
  vendor : Nat
  device : Nat
  bars : List (Nat × Nat × Bool)
  payloads : List Nat
  readRequest : Nat
  outstanding : Nat
  msixVectors : Nat
  deriving DecidableEq, Repr

/-- The one function of each port; its configuration space has no row and no register here (log entry 1319). -/
def pcieFunction (s : State) : PcieFunction :=
  { classCode := 0x120000, vendor := bits64 s.mg.id 15 0, device := bits64 s.mg.id 31 16,
    bars := [(0, 2 ^ 26, false), (2, 2 ^ 20, true), (4, 2 ^ 36, true)], payloads := [128, 256, 512], readRequest := 4096,
    outstanding := 768, msixVectors := 64 }

/-- The block an offset lies in, and its base. -/
def blockAt (off : Nat) : Option (Block × Nat) :=
  if off < 0x100000 then some (.mg, 0)
  else if off < 0x200000 then some (.cp, 0x100000)
  else if off < 0x400000 then some (.fb, 0x200000)
  else if off < 0x600000 then some (.mc, 0x400000)
  else if off < 0x800000 then some (.lk, 0x600000)
  else if off < 0xA00000 then some (.cl, 0x800000)
  else if off < 0xB00000 then some (.sf, 0xA00000)
  else if off < 0xC00000 then some (.sc, 0xB00000)
  else if off < 0xD00000 then some (.bb, 0xC00000)
  else if off < 0xE00000 then some (.pw, 0xD00000)
  else if off < 0xF00000 then some (.db, 0xE00000)
  else if off < 0x1000000 then none
  else if off < 0x4000000 then some (.tw, 0x1000000)
  else none

/-- The register that starts at an offset of BAR0, as a port reads it. -/
def regAt (s : State) (port off : Nat) : Option Reg :=
  match blockAt off with
  | none => none
  | some (b, base) =>
    let o := off - base
    match b with
    | .mg => mgReg s port o
    | .cp => cpReg s port o
    | .fb => fbReg s o
    | .mc => mcReg s o
    | .lk => lkReg s o
    | .cl => clReg s o
    | .sf => sfReg s o
    | .sc => scReg s port o
    | .bb => bbReg s port o
    | .pw => pwReg s o
    | .db => dbReg s o
    | .tw => twReg s o

/-- Whether an offset lies in the MSI-X table or its pending bit array, which accept 32-bit accesses (R12). -/
def msixArea (off : Nat) : Bool := (decide (0x108000 ≤ off) && decide (off < 0x108400)) || (decide (0x109000 ≤ off) && decide (off < 0x109008))

/-- Whether an access breaks R12: it is not a 4- or 8-byte access at its natural alignment, or it touches a register without
being that register's own width and offset. -/
def accessBreaks (s : State) (port off width : Nat) : Bool :=
  if !((width == 4 || width == 8) && off % width == 0) then true
  else if msixArea off then false
  else
    let at_ := fun (o : Nat) => (regAt s port o).map Prod.fst
    match at_ off with
    | some w => w != width
    | none => (width == 4 && decide (4 ≤ off) && at_ (off - 4) == some 8) || (width == 8 && (at_ (off + 4)).isSome)

/-- What a proper read of an offset returns: reserved offsets read zero (R11). -/
def regValue (s : State) (port off width : Nat) : Nat :=
  if msixArea off && width == 4 then
    match regAt s port (off / 8 * 8) with
    | some (_, v) => if off % 8 = 0 then v % 2 ^ 32 else v / 2 ^ 32
    | none => 0
  else
    match regAt s port off with
    | some (_, v) => v
    | none => 0

/-- The read with what it draws: PROGRESS of a long operation is free (Table 13.22). -/
def regRead (port off width : Nat) (s : State) : Nat × State :=
  (regValue s port off width,
   if 0x100100 ≤ off && decide (off < 0x100180) then { s with freeCtr := s.freeCtr + 1 } else s)

end Sys2Proof.Machine
end

