-- ==== Sys2Proof/Machine/RegWrite.lean ====
section
/-!
DEFINITION. What a write of every register of BAR0 does, by access code and by the rules of the register's block (00 R9, R11;
07 R227; 09 R290; 10 R332; 11 R371; 12 R397; 13 R434, R435; 14 R460; 15 R483; 16 R498, R508; 17 R523).
-/

namespace Sys2Proof.Machine

open Sys2Proof

/-- A write's outcome: the state it leaves, and whether it was discarded (byte 4 of REG_REPLY, Table 13.11). -/
abbrev Wrote := State × Bool

/-- A write that took effect, and one that was discarded. -/
def took (s : State) : Wrote := (s, false)
def dropped (s : State) : Wrote := (s, true)

/-- A write that takes effect under a condition. -/
def tookIf (ok : Bool) (s t : State) : Wrote := if ok then took t else dropped s

/-- The bits of a write within a mask, as 32 and as 64 bits. -/
def lowOf (v : W64) (mask : W32) : W32 := v.setWidth 32 &&& mask

/-! ### FB (R227, Tables 7.23, 5.3) -/

/-- A write to the FB block. -/
def fbWrite (steward : Bool) (o : Nat) (v : W64) (s : State) : Wrote :=
  let open_ := steward && !s.fb.authCtrl.getLsbD 31
  if o = 0x20 then tookIf open_ s { s with fb := { s.fb with authCtrl := lowOf v 0x80000001 } }
  else
    match arrayAt o 0x40 8 6, arrayAt o 0x20000 4 1248 with
    | some w, _ => tookIf open_ s { s with fb := { s.fb with ownerDigest := tput 0 s.fb.ownerDigest w v } }
    | none, some i => took (setClusterMap i (clusterMapOf s i &&& ~~~(lowOf v 0x18000)) s)
    | none, none => dropped s

/-! ### MC (R290, Tables 9.8 to 9.11) -/

/-- A write to the MC block by the steward. -/
def mcOwned (o : Nat) (v : W64) (s : State) : Wrote :=
  match o with
  | 0x18 =>
    let b := v &&& 0xFFFFC0000000
    tookIf (decide (b.toNat + 2 ^ 36 ≤ registerBase)) s { s with mem := { s.mem with bar4Base := b } }
  | 0x20 => took { s with mem := { s.mem with patrol := (s.mem.patrol &&& ~~~0xFF01) ||| lowOf v 0xFF01 } }
  | 0x28 => took { s with mem := { s.mem with retireCtrl := lowOf v 0xFFFF } }
  | 0x40 => took { s with mem := { s.mem with errLog := s.mem.errLog &&& ~~~(v &&& 0x8000000000000000) } }
  | _ => dropped s

/-- A write to the MC block: from another host it is discarded and counted. -/
def mcWrite (steward : Bool) (o : Nat) (v : W64) (s : State) : Wrote :=
  if steward then mcOwned o v s else dropped (countHostFault s)

/-! ### LK (R332, Tables 10.11 to 10.20) -/

/-- Whether the fields of LK_E2E_CFG lie in their ranges (Table 10.17). -/
def e2eOk (v : W64) : Bool :=
  let f := fun (h l : Nat) => bits64 v h l
  decide (1 ≤ f 9 0) && decide (f 9 0 ≤ 512) && decide (1 ≤ f 19 10) && decide (f 19 10 ≤ 512) && decide (f 19 10 ≤ f 29 20) &&
    decide (f 29 20 ≤ 512) && decide (1 ≤ f 33 30) && decide (1 ≤ f 35 34) && decide (10 ≤ f 49 36) && decide (f 49 36 ≤ 10000) &&
    decide (1 ≤ f 53 50)

/-- Whether a port stands in READY, ACTIVE or DRAIN, so that LK_RANK and LK_TORUS do not change (R332). -/
def linkInUse (s : State) : Bool :=
  s.lk.ports.any fun v => v.state == .ready || v.state == .active || v.state == .drain

/-- A write to one port's registers. -/
def lkPortWrite (p o : Nat) (v : W64) (s : State) : Wrote :=
  match o with
  | 0x8 => took (modPort s p fun x => { x with cfg := lowOf v 0x00FF1FFF })
  | 0x10 => took (modPort s p fun x => { x with fault := x.fault &&& ~~~(lowOf v 0x7F) })
  | _ =>
    match arrayAt o 0x100 4 20 with
    | some l => took (modPort s p fun x =>
        { x with lanes := ((List.range x.lanes.length).zip x.lanes).map fun e => if e.1 = l then { e.2 with worst := 7 } else e.2 })
    | none => dropped s

/-- A write to the LK block by the steward; ports in PILOT settle again when the rank or the torus is set (R299). -/
def lkOwned (o : Nat) (v : W64) (s : State) : Wrote :=
  if o < 0xA0000 then lkPortWrite (o / 0x10000) (o % 0x10000) v s
  else
    match o with
    | 0x100000 => if linkInUse s then dropped s else took (settlePilots { s with lk := { s.lk with rank := lowOf v 0x1FFFF } })
    | 0x100008 => if linkInUse s then dropped s else took (settlePilots { s with lk := { s.lk with torus := lowOf v 0xFFFF } })
    | 0x100018 => tookIf (e2eOk v) s { s with lk := { s.lk with e2e := v &&& 0x3FFFFFFFFFFFFF } }
    | 0x100040 => took { s with lk := { s.lk with peerErrLog := s.lk.peerErrLog &&& ~~~(v &&& 0x10000) } }
    | 0x100048 => took { s with lk := { s.lk with destSel := lowOf v 0xFFFF } }
    | _ => dropped s

/-- A write to the LK block. -/
def lkWrite (steward : Bool) (o : Nat) (v : W64) (s : State) : Wrote := if steward then lkOwned o v s else dropped s

/-! ### CL and the update engine (R371, R397, Tables 11.12 to 11.17, 12.8 to 12.13) -/

/-- A write of CL_STAGING_BASE and CL_STAGING_SIZE: not while a caravan is live, nor past job memory (R371, Table 11.13). -/
def stagingWrite (base size : W64) (s : State) : Wrote :=
  tookIf (s.cl.caravans.isEmpty && decide (base.toNat + size.toNat ≤ retainedBase)) s
    { s with cl := { s.cl with stagingBase := base, stagingSize := size } }

/-- The ranges judged for the update engine's set-up stay in job memory (R397). -/
def ueRangesOk (u : Ue) : Bool :=
  decide (bits64 u.table 47 5 * 32 + 96 * bits64 u.table 60 48 ≤ retainedBase) && decide (bits64 u.table 60 48 ≤ 4096) &&
    decide (u.recordBase.toNat + 16 * u.recordWords.toNat ≤ retainedBase) && decide (u.recordWords.toNat ≤ 2 ^ 24) &&
    decide (u.codeBase.toNat + 8 * u.codeWords.toNat ≤ retainedBase) && decide (u.codeWords.toNat ≤ 2 ^ 24)

/-- A write of the update engine's set-up. -/
def ueSet (u : Ue) (s : State) : Wrote := tookIf (!ueLocked s && ueRangesOk u) s { s with ue := u }

/-- A write to the CL block by the steward. -/
def clOwned (o : Nat) (v : W64) (s : State) : Wrote :=
  let page := v &&& 0xFFFFFFFFF000
  let area := v &&& 0xFFFFFFFFFFE0
  let words := lowOf v 0x1FFFFFF
  match o with
  | 0x8 => took { s with cl := { s.cl with cfg := lowOf v 0xFFFF } }
  | 0x10 => stagingWrite page s.cl.stagingSize s
  | 0x18 => stagingWrite s.cl.stagingBase page s
  | 0x30 => took { s with cl := { s.cl with faultLog := s.cl.faultLog &&& ~~~(v &&& 0x8000000000000000) } }
  | 0x40 => took { s with cl := { s.cl with sel := lowOf v 0xFFFFF } }
  | 0x10008 => ueSet { s.ue with table := v &&& 0x1FFFFFFFFFFFFFE0 } s
  | 0x10010 => ueSet { s.ue with recordBase := area } s
  | 0x10018 => if words.toNat < 32 then dropped s else ueSet { s.ue with recordWords := words } s
  | 0x10020 => ueSet { s.ue with codeBase := area } s
  | 0x10028 => ueSet { s.ue with codeWords := words } s
  | 0x10030 => if ueLocked s then dropped s else took (writeUeStep v s)
  | 0x10038 => took { s with ue := { s.ue with commitFail := s.ue.commitFail && !v.getLsbD 2, poison := s.ue.poison && !v.getLsbD 3 } }
  | 0x10040 => took { s with ue := { s.ue with faultLog := s.ue.faultLog &&& ~~~(v &&& 0x8000000000000000) } }
  | _ => dropped s

/-- A write to the CL block. -/
def clWrite (steward : Bool) (o : Nat) (v : W64) (s : State) : Wrote := if steward then clOwned o v s else dropped s

/-! ### TW (Table 4.7) -/

/-- A write to the TW block: TW_STATUS alone has fields that a host clears. -/
def twWrite (o : Nat) (v : W64) (s : State) : Wrote :=
  if o = 0x10 then took { s with tw := { s.tw with status := s.tw.status &&& ~~~(v &&& 3) } } else dropped s

/-! ### The mailbox (R434, R454, R494) -/

/-- Ends a mailbox request: DONE, or ERROR with its CODE (Table 13.16). -/
def mboxDone (code : Nat) (m : Mbox) : Mbox :=
  let st := m.status &&& ~~~1
  if code = 0 then { m with status := st ||| 2 }
  else { m with status := BitVec.ofNat 32 (bitsOf st.toNat 2 0 + code * 2 ^ 8) ||| 4 }

/-- Serves SENSOR_READ: DATA[0] is the index, and takes the reading (Table 13.15). -/
def sensorServe (port : Nat) (s : State) : State :=
  let m := mboxOf s port
  let i := (tget 0 m.data 0).toNat
  if i < 256 then setMbox port (mboxDone 0 { m with data := tput 0 m.data 0 (BitVec.ofNat 64 (sensorWord s i)) }) s
  else setMbox port (mboxDone 2 m) s

/-- Serves IDENTITY_READ: 128 bytes of the identity record from an offset that is a multiple of 128 below 5,376; zeros in
BLANK (R494). -/
def identityServe (port : Nat) (s : State) : State :=
  let m := mboxOf s port
  let o := (tget 0 m.data 0).toNat
  if o % 128 = 0 && decide (o < 5376) then
    let b := if s.sc.lifecycle = 0 then List.replicate 128 0 else slice Config.identityRecord o 128
    let data := (List.range 16).foldl (fun (t : Tbl W64) i => tput 0 t i (BitVec.ofNat 64 (wordOf b i))) m.data
    setMbox port (mboxDone 0 { m with data := data }) s
  else setMbox port (mboxDone 2 m) s

/-- A write of MG_MBOX_CTRL: GO sends the request; a reserved one is refused (Tables 13.15, 13.16). -/
def mboxCtrl (port : Nat) (v : W64) (s : State) : Wrote :=
  let m := mboxOf s port
  let req := v.toNat % 256
  if m.status.getLsbD 0 then dropped s
  else
    let m1 := { m with request := req }
    if !v.getLsbD 31 then took (setMbox port m1 s)
    else if req = 1 || req = 2 then took (setMbox port { m1 with status := m1.status ||| 1 } s)
    else took (setMbox port (mboxDone 1 m1) s)

/-- A write to the MG block. -/
def mgWrite (port o : Nat) (v : W64) (s : State) : Wrote :=
  let m := mboxOf s port
  match o with
  | 0x1000 => mboxCtrl port v s
  | 0x1004 => took (setMbox port { m with status := m.status &&& ~~~(lowOf v 6) } s)
  | _ =>
    match arrayAt o 0x1100 8 16 with
    | some i => took (setMbox port { m with data := tput 0 m.data i v } s)
    | none => dropped s

/-! ### CP (R411, R435, Tables 13.17 to 13.21) -/

/-- Writes word w of the MSI-X table; unmasking a vector sends its pending message (R411; PCI Express). -/
def msixWrite (port w : Nat) (v : W64) (s : State) : State :=
  let c := getCp s port
  let n := w / 2
  if w % 2 = 0 then setCp s port { c with msixAddr := tput 0 c.msixAddr n (v &&& ~~~3) }
  else
    let s1 := setCp s port { c with msixData := tput msixReset c.msixData n (v &&& 0x1FFFFFFFF) }
    if c.pba.getLsbD n && !v.getLsbD 32 then
      sendMsix port n (modCp s1 port fun x => { x with pba := x.pba &&& ~~~BitVec.ofNat 64 (2 ^ n) })
    else s1

/-- A write to the CP block. -/
def cpWrite (port o : Nat) (v : W64) (s : State) : Wrote :=
  let c := getCp s port
  match o with
  | 0x14 => tookIf (holdsToken s port) s (renewLease s)
  | 0x18 => tookIf (holdsToken s port) s (renewLease { s with cp := { s.cp with stewardCfg := lowOf v 0xFFFF } })
  | 0x1008 => tookIf (!c.cqEntries.getLsbD 31) s (setCp s port { c with cqBase := v &&& ~~~0x3F })
  | 0x1010 => took (writeCqEntries port (v.setWidth 32) s)
  | 0x1014 => tookIf (decide ((c.cqTail - v.setWidth 32).toNat ≤ cqSize c)) s (writeCqHead port (v.setWidth 32) s)
  | 0x101C => took (setCp s port { c with eventCfg := lowOf v 0x13F })
  | _ =>
    match arrayAt o 0x8000 8 128 with
    | some w => took (msixWrite port w v s)
    | none => dropped s

/-! ### PW, SC, DB and BB (R460, R498, R508, R523) -/

/-- A write to the PW block: the steward's, of LIMIT_W within 800 to 2,000 W, or clearing EXCURSION (Tables 14.9, 14.10). -/
def pwWrite (steward : Bool) (o : Nat) (v : W64) (s : State) : Wrote :=
  let w := bits64 v 11 0
  if !steward then dropped s
  else
    match o with
    | 0x10 => tookIf (decide (800 ≤ w) && decide (w ≤ 2000)) s { s with pw := { s.pw with limitW := w } }
    | 0x18 => took { s with pw := { s.pw with excursion := s.pw.excursion && !v.getLsbD 37 } }
    | _ => dropped s

/-- Replaces a word of a byte string of `n` bytes. -/
def putWord (n : Nat) (b : List Byte) (w : Nat) (v : W64) : List Byte := splice (padTo n b) (8 * w) (leBytes 8 v.toNat)

/-- A discarded and counted access to SC_STAGE (R486). -/
def stageRefuse (s : State) : State := { s with sc := { s.sc with counts := taddW s.sc.counts 4 1 } }

/-- A write to the SC block: DRAW of the steward's, and SC_STAGE of the command processor's own account (R486, R508). -/
def scWrite (port : Nat) (steward : Bool) (o : Nat) (v : W64) (s : State) : Wrote :=
  if o = 0x18 then (if steward && v.getLsbD 0 then took (drawNonce s) else dropped s)
  else
    match arrayAt o 0x8000 8 4096 with
    | some w => if port = 2 then took { s with sc := { s.sc with stage := putWord 32768 s.sc.stage w v } } else dropped (stageRefuse s)
    | none => dropped s

/-- A write to the DB block other than DB_CTRL: DB_SNAP_BASE serves snapshots, a facility of DBG_INVASIVE; ERROR clears from
DBG_OBSERVE up (R496, R498, Tables 16.18, 16.20). -/
def dbOther (steward : Bool) (o : Nat) (v : W64) (s : State) : Wrote :=
  if !steward then dropped (dbRefuse 4 s)
  else if s.sc.level = 0 || (o = 0x10 && s.sc.level = 1) then dropped (dbRefuse 1 s)
  else
    match o with
    | 0x10 => took { s with db := { s.db with snapBase := v &&& 0xFFFFFFFF0000 } }
    | 0x18 => took { s with db := { s.db with error := (BitVec.ofNat 4 s.db.error &&& ~~~BitVec.ofNat 4 (bits64 v 23 20)).toNat } }
    | _ => dropped s

/-- A write to the DB block. -/
def dbWrite (steward : Bool) (o : Nat) (v : W64) (s : State) : Wrote :=
  if o = 0x8 then
    let t := dbCtrl steward (v.setWidth 32) s
    (t, tget 0 t.sc.counts 5 != tget 0 s.sc.counts 5)
  else dbOther steward o v s

/-- A write to the BB block: BB_REC_SEL from either host, the notes from the command processor's own account (R523); NOTE_LOST clears
by a written 1 (Table 17.12, log entry 1708). -/
def bbWrite (port o : Nat) (v : W64) (s : State) : Wrote :=
  if port = 2 then
    match arrayAt o 0x9000 8 32 with
    | some w => took { s with bb := { s.bb with note := putWord 256 s.bb.note w v } }
    | none => if o = 0x9100 then took (noteGo (padTo 256 s.bb.note) s) else dropped s
  else if o = 0x20 then took (bbLatch port v.toNat s)
  else if o = 0x10 && v.getLsbD 20 then took { s with bb := { s.bb with noteLost := false } }
  else dropped s

/-! ### BAR0 -/

/-- A write of the register at an offset of BAR0 by a port, with its steward mark (Table 13.11). -/
def regPut (port : Nat) (steward : Bool) (off : Nat) (v : W64) (s : State) : Wrote :=
  match blockAt off with
  | none => dropped s
  | some (b, base) =>
    let o := off - base
    match b with
    | .mg => mgWrite port o v s
    | .cp => cpWrite port o v s
    | .fb => fbWrite steward o v s
    | .mc => mcWrite steward o v s
    | .lk => lkWrite steward o v s
    | .cl => clWrite steward o v s
    | .sf => dropped s
    | .sc => scWrite port steward o v s
    | .bb => bbWrite port o v s
    | .pw => pwWrite steward o v s
    | .db => dbWrite steward o v s
    | .tw => twWrite o v s

/-- A write of proper width; a 32-bit one to the MSI-X table replaces half of a word (R12). -/
def regWrite (port : Nat) (steward : Bool) (off width : Nat) (v : W64) (s : State) : Wrote :=
  if msixArea off && width == 4 then
    let base := off / 8 * 8
    let old := match regAt s port base with
      | some r => r.2
      | none => 0
    let w := if off % 8 = 0 then old / 2 ^ 32 * 2 ^ 32 + v.toNat % 2 ^ 32 else old % 2 ^ 32 + v.toNat % 2 ^ 32 * 2 ^ 32
    regPut port steward base (BitVec.ofNat 64 w) s
  else
    match regAt s port off with
    | some _ => regPut port steward off (if width = 4 then v &&& 0xFFFFFFFF else v) s
    | none => dropped s

end Sys2Proof.Machine
end

