-- ==== Sys2Proof/Machine/Access.lean ====
section
/-!
DEFINITION. Register accesses of the hosts: locally, over the waystations, and over the standby pair; BAR4; and the mailbox
requests (01 R27, R28, R36, R37; 09 R288, R289; 13 R430 to R434).
-/

namespace Sys2Proof.Machine

open Sys2Proof

/-! ### Where an access goes (Table 13.10) -/

/-- The path of an access. -/
inductive Way where
  /-- served by the command processor -/
  | here
  | data
  | management
  deriving DecidableEq, Repr

/-- The path to an offset; reserved offsets end at the command processor. -/
def wayOf (off : Nat) : Way :=
  match blockAt off with
  | none => .here
  | some (b, base) =>
    match b with
    | .mg => if off - base < 0x1000 then .here else .management
    | .cp => .here
    | .fb => .data
    | .mc => .data
    | .lk => .data
    | .cl => .data
    | .tw => .data
    | .sf => .management
    | .sc => .management
    | .bb => .management
    | .pw => .management
    | .db => .management

/-- Whether the security engine serves an offset (16). -/
def secured (off : Nat) : Bool := decide (0xB00000 ≤ off) && decide (off < 0xC00000) || decide (0xE00000 ≤ off) && decide (off < 0xF00000)

/-- Whether the management plane serves an offset now: not in P4, and not without its controller but for the blocks of the
security engine. -/
def served (s : State) (off : Nat) : Bool := s.pw.state != .p4 && (mcRuns s || secured off)

/-- Carries out an access: whether it was discarded, the value read, and the state. Accesses to SC_STAGE that are not the
command processor's own are discarded and counted (R486). -/
def perform (a : RegAcc) (s : State) : Bool × W64 × State :=
  if a.write then
    let r := regWrite a.port a.steward a.off a.width a.value s
    (r.2, 0, r.1)
  else if decide (0xB08000 ≤ a.off) && decide (a.off < 0xC00000) && a.port != 2 then (true, 0, stageRefuse s)
  else
    let r := regRead a.port a.off a.width s
    (false, BitVec.ofNat 64 r.1, r.2)

/-- A host's read completes with a value; a write asks for none, and the command processor's own accesses are its own. -/
def answer (port : Nat) (tag : W32) (write : Bool) (v : W64) (s : State) : State :=
  if write || 2 ≤ port || !(getCp s port).linkUp then s
  else { s with env := { s.env with replies := s.env.replies ++ [(port, tag, v)] } }

/-- A read returns zero, or a write is discarded, and CP_FAULT_CNT[k] counts it (R431, R433). -/
def refuseAccess (k : Nat) (a : RegAcc) (s : State) : State :=
  answer a.port a.tag a.write 0 (if a.port < 2 then countCpFault s a.port k else s)

/-! ### Accesses without a reply (R430) -/

/-- The entry of an access that awaits its reply. -/
def awaited (s : State) (port : Nat) (tag : W32) : Option (Nat × W32 × Nat × Bool) :=
  s.ws.regsOut.find? fun e => e.1 == port && e.2.1 == tag

def forget (port : Nat) (tag : W32) (s : State) : State :=
  { s with ws := { s.ws with regsOut := lremove (fun e => e.1 == port && e.2.1 == tag) s.ws.regsOut } }

/-- The reply of an access arrives. -/
def replyTo (port : Nat) (tag : W32) (v : W64) (s : State) : State :=
  match awaited s port tag with
  | some (_, _, _, w) => answer port tag w v (forget port tag s)
  | none => s

/-- An access fails: a read returns all ones, a write is dropped, and it is counted (R430). -/
def failAccess (port : Nat) (tag : W32) (s : State) : State :=
  match awaited s port tag with
  | some (_, _, n, w) =>
    let s1 := forget port tag s
    answer port tag w (if n = 4 then 0xFFFFFFFF else 0xFFFFFFFFFFFFFFFF) (if port < 2 then countCpFault s1 port 1 else s1)
  | none => s

/-- REGISTER_ACCESS_TIMEOUT (R430). -/
def execRegisterAccessTimeout (port : Nat) (tag : W32) (s : State) : Out :=
  guardUnit (decide (port < 2)) (failAccess port tag s)

/-! ### The waystations (R27, R28) -/

/-- Enters an access among those without a reply. -/
def await (a : RegAcc) (s : State) : State :=
  { s with ws := { s.ws with regsOut := s.ws.regsOut ++ [(a.port, a.tag, a.width, a.write)] } }

/-- Sends REG_ACCESS on the command waystation. -/
def sendAccess (a : RegAcc) (s : State) : State := await a (postDown s 0x05 (.regAccess a))

/-- MGMT_REQUEST messages outstanding: on the telemetry queue, or answered on the interlock queue, or waiting for a place there
(R28). -/
def mgmtOut (s : State) : Nat :=
  (s.ws.tele.filter fun m => m.kind == 0x16).length + (s.ws.waitTele.filter fun m => m.1 == 0x16).length +
    (s.ws.inter.filter fun m => m.kind == 0x26).length + (s.ws.waitInter.filter fun m => m.1 == 0x26).length

/-- Posts REG_REPLY (Table 13.11). -/
def postReply (port : Nat) (tag : W32) (discarded : Bool) (v : W64) (s : State) : State :=
  postUp s 0x82 0x10 (.regReply port tag discarded v)

/-- REG_ACCESS at the data side: the hub serves a data-plane block, and forwards an access to a management-plane block while
fewer than 4 are outstanding (R27, R28). An access that has failed meanwhile has no effect (R430). -/
def takeAccess (s : State) : State :=
  match s.ws.down with
  | { payload := .regAccess a, .. } :: _ =>
    let s1 := popDown s
    if (awaited s a.port a.tag).isNone then s1
    else if wayOf a.off == .data then
      let p := perform a s1
      postReply a.port a.tag p.1 p.2.1 p.2.2
    else if mgmtOut s < 4 then postTele s1 0x16 0x10 (.regAccess a)
    else s
  | _ => s

/-- An access on the command waystation: it arrives when it stands at the head of the queue; otherwise it is sent, and arrives
at once where nothing stands before it. -/
def travel (a : RegAcc) (s : State) : State :=
  match s.ws.down with
  | [] => takeAccess (sendAccess a s)
  | m :: _ => if m.payload == .regAccess a then takeAccess s else sendAccess a s

/-! ### The standby pair (R37) -/

/-- Sends REG_ACCESS on the standby pair. -/
def sendStandby (a : RegAcc) (s : State) : State :=
  let m := mkMsg s 4 0x05 0x22 (.regAccess a)
  await a (bumpSeq { s with ws := { s.ws with standbyDown := s.ws.standbyDown ++ [m] } } 4)

/-- The management plane takes the access at the head of the pair and replies on it. -/
def takeStandby (s : State) : State :=
  match s.ws.standbyDown with
  | { payload := .regAccess a, .. } :: r =>
    if !served s a.off then s
    else
      let s1 := { s with ws := { s.ws with standbyDown := r } }
      if (awaited s a.port a.tag).isNone then s1
      else
        let p := perform a s1
        let m := mkMsg p.2.2 5 0x82 0x40 (.regReply a.port a.tag p.1 p.2.1)
        bumpSeq { p.2.2 with ws := { p.2.2.ws with standbyUp := p.2.2.ws.standbyUp ++ [m] } } 5
  | _ => s

/-- An access on the standby pair; at most 4 are outstanding on it. -/
def travelStandby (a : RegAcc) (s : State) : State :=
  match s.ws.standbyDown with
  | [] => if s.ws.standbyUp.length < 4 then takeStandby (sendStandby a s) else s
  | m :: _ =>
    if m.payload == .regAccess a then takeStandby s
    else if s.ws.standbyDown.length + s.ws.standbyUp.length < 4 then sendStandby a s
    else s

/-! ### The rows -/

/-- An access of a port, by its path (R27, R36, R37, R430, R431, R433). -/
def accessRow (a : RegAcc) (s : State) : State :=
  if a.port < 2 && !(getCp s a.port).linkUp then s
  else if accessBreaks s a.port a.off a.width then refuseAccess 0 a s
  else
    match wayOf a.off with
    | .here =>
      let p := perform a s
      answer a.port a.tag a.write p.2.1 p.2.2
    | .data => if s.rst.dataPlaneOn then travel a s else refuseAccess 2 a s
    | .management =>
      if s.rst.dataPlaneOn then travel a s
      else if s.pw.state == .p4 then s
      else travelStandby a s

/-- REG_ACCESS (R27): an access of port A, B, or of the command processor's own account to SC or BB (2, R486). -/
def execRegAccess (port off width : Nat) (write : Bool) (value : W64) (tag : W32) (s : State) : Out :=
  guardUnit (decide (port < 3)) <|
    if port = 2 && !(decide (0xB00000 ≤ off) && decide (off < 0xD00000)) then s
    else accessRow { off := off, width := width, write := write, port := port,
                     steward := decide (port < 2) && holdsToken s port, tag := tag, value := value } s

/-- Whether a message carries an access of the block at an offset. -/
def inBlock (off : Nat) (p : Payload) : Bool :=
  match p with
  | .regAccess a => (blockAt a.off).map Prod.fst == (blockAt off).map Prod.fst
  | _ => false

/-- Whether an earlier access of the block at an offset is still on its way to it (R28). -/
def blockBusy (s : State) (off : Nat) : Bool :=
  (s.ws.down ++ s.ws.tele ++ s.ws.standbyDown).any (fun m => inBlock off m.payload) ||
    s.ws.waitDown.any (fun m => inBlock off m.2) || s.ws.waitTele.any fun m => inBlock off m.2.2

/-- The least tag that no access of a port awaits its reply with. -/
def freshTag (s : State) (port : Nat) : W32 :=
  BitVec.ofNat 32 (((List.range (s.ws.regsOut.length + 1)).find? fun n => (awaited s port (BitVec.ofNat 32 n)).isNone).getD 0)

/-- REGISTER_WRITE (R9, R11, R12, R28): a host's write as a whole, from the port to the register; behind an earlier access of
the same block that is still on its way it is sent as REG_ACCESS, so that the accesses of a block complete in their order. -/
def execRegisterWrite (port off width : Nat) (value : W64) (s : State) : Out :=
  guardUnit (decide (port < 2)) <|
    let a : RegAcc := { off := off, width := width, write := true, port := port, steward := holdsToken s port, tag := 0,
                        value := value }
    if !(getCp s port).linkUp then s
    else if accessBreaks s port off width then refuseAccess 0 a s
    else
      match wayOf off with
      | .here => (perform a s).2.2
      | .data =>
        if !s.rst.dataPlaneOn then refuseAccess 2 a s
        else if blockBusy s off then sendAccess { a with tag := freshTag s port } s
        else (perform a s).2.2
      | .management =>
        if !served s off then countCpFault s port 1
        else if !blockBusy s off then (perform a s).2.2
        else if s.rst.dataPlaneOn then sendAccess { a with tag := freshTag s port } s
        else travelStandby { a with tag := freshTag s port } s

/-- REG_REPLY (R27): the reply at the head of the command up queue, or of the standby pair. -/
def execRegReply (s : State) : Out :=
  .next <|
    match s.ws.up, s.ws.standbyUp with
    | { payload := .regReply port tag _ v, .. } :: _, _ => replyTo port tag v (popUp s)
    | _, { payload := .regReply port tag _ v, .. } :: r => replyTo port tag v { s with ws := { s.ws with standbyUp := r } }
    | _, _ => s

/-- The MGMT_REQUEST that the management plane takes next, with its SEQ: the head of the telemetry queue; while the controller
stands still the security engine takes its own from where they stand. -/
def nextRequest (s : State) : Option (Nat × RegAcc) :=
  if mcRuns s then
    match s.ws.tele with
    | { payload := .regAccess a, seq, .. } :: _ => some (seq, a)
    | _ => none
  else
    s.ws.tele.findSome? fun m =>
      match m.payload with
      | .regAccess a => if secured a.off then some (m.seq, a) else none
      | _ => none

/-- MGMT_REQUEST (R27): the management plane carries out the access and posts MGMT_REPLY. -/
def execMgmtRequest (s : State) : Out :=
  .next <|
    match nextRequest s with
    | none => s
    | some (seq, a) =>
      if s.pw.state == .p4 then s
      else
        let s1 := traceRec 2 (0x16 + 0x10 * 2 ^ 8 + seq % 2 ^ 16 * 2 ^ 16) s
        let s2 := if mcRuns s then popTele s1
          else refillTele false { s1 with ws := { s1.ws with tele := lremove (fun m => m.payload == .regAccess a) s1.ws.tele } }
        if (awaited s a.port a.tag).isNone then s2
        else
          let p := perform a s2
          postOrder p.2.2 0x26 (.regReply a.port a.tag p.1 p.2.1)

/-- MGMT_REPLY (R27): the hub passes the reply on to the command processor. -/
def execMgmtReply (s : State) : Out :=
  .next <|
    match s.ws.inter with
    | { kind := 0x26, payload := .regReply port tag d v, .. } :: _ => postReply port tag d v (popInter s)
    | _ => s

/-! ### The mailbox -/

/-- A mailbox request as a whole: one that waits is served; otherwise the host makes it (R434). -/
def mailbox (port req : Nat) (serve : State → State) (s : State) : State :=
  let m := mboxOf s port
  if m.status.getLsbD 0 then (if m.request = req then serve s else s)
  else serve (setMbox port { m with request := req, status := m.status ||| 1 } s)

/-- SENSOR_READ (R434, R454). -/
def execSensorRead (port : Nat) (s : State) : Out :=
  guardUnit (decide (port < 2)) (whenTaken (served s 0x1000) (mailbox port 1 (sensorServe port)) s)

/-- IDENTITY_READ (R434, R494). -/
def execIdentityRead (port : Nat) (s : State) : Out :=
  guardUnit (decide (port < 2)) (whenTaken (served s 0x1000) (mailbox port 2 (identityServe port)) s)

/-! ### BAR4 (R268, R288, R289) -/

/-- The device address of an offset of BAR4. -/
def bar4Addr (s : State) (off : Nat) : Nat := s.mem.bar4Base.toNat + off % 2 ^ 36

/-- A piece of a BAR4 read: its bytes, whether it faults, whether the address is reserved. -/
def bar4Piece (s : State) (p : Nat × Nat) : List Byte × Bool × Bool :=
  if !isMemory p.1 then (List.replicate p.2 0, false, true)
  else if readFaults s p.1 then (List.replicate p.2 0xFF, true, false)
  else (readBytes s p.1 p.2, false, false)

/-- A BAR4 read: a faulting sector reads all ones and sets EP; a reserved address reads zeros and is counted. -/
def bar4Read (port off len : Nat) (s : State) : State :=
  let a := bar4Addr s off
  if s.rst.dataPlaneOn then
    let l := (sectorPieces a len len).map (bar4Piece s)
    let s0 := noteReads s a len
    let s1 := if l.any fun x => x.2.2 then countHostFault s0 else s0
    { s1 with env := { s1.env with bar4 := s1.env.bar4 ++ [(port, (l.map Prod.fst).flatten, l.any fun x => x.2.1)] } }
  else
    let r := drawFree s
    { r.2 with env := { r.2.env with bar4 := r.2.env.bar4 ++ [(port, leBytes len r.1, false)] } }

/-- BAR4_READ (R264, R288). -/
def execBar4Read (port off len : Nat) (s : State) : Out :=
  guardUnit (decide (port < 2)) (whenTaken ((getCp s port).linkUp) (bar4Read port off len) s)

/-- A BAR4 write: what falls on the retained region or on a reserved address is discarded and counted; a store may hold it
(R74, R163, R268, R288). -/
def bar4Write (off : Nat) (bytes : List Byte) (s : State) : State :=
  let a := bar4Addr s off
  let l := sectorPieces a bytes.length bytes.length
  let good := fun (p : Nat × Nat) => isMemory p.1 && addrKind p.1 != .retained
  let s1 := if l.all good then s else countHostFault s
  (l.filter good).foldl (fun st p => hostSector none p.1 (slice bytes (p.1 - a) p.2) false st) s1

/-- BAR4_WRITE (R288). -/
def execBar4Write (port off : Nat) (bytes : List Byte) (s : State) : Out :=
  guardUnit (decide (port < 2)) (whenTaken ((getCp s port).linkUp && s.rst.dataPlaneOn) (bar4Write off bytes) s)

end Sys2Proof.Machine
end

