-- ==== Sys2Proof/Machine/Drain.lean ====
section
/-!
DEFINITION. The drain unit: sources, scaling, bias, clip, rounding, counting, residuals and block encoding, and where the
results go (R65 to R72, R94 to R118, R245, R248, R254, R558).
-/

namespace Sys2Proof.Machine

open Sys2Proof

/-- A value at the drain's input: the exact value, and its forward position (R252). -/
structure DrainIn where
  v : Val
  row : Nat
  col : Nat
  deriving DecidableEq, Repr, Inhabited

/-- Steps 1 and 2 for a bank entry (Table 2.7). -/
def entryVal (int : Bool) (e : Entry) : Val :=
  if e.poison then .poison
  else if int then ofSigned (signedOf 64 (e.s.toNat + e.e.toNat * 2 ^ 32)) 0
  else finalV fp32 ⟨e.s.setWidth 64, e.e.setWidth 64⟩

/-- Bias of a column: FP32 for bank sources and FP32 results, FP64 for FP64 sources (Table 2.7, step 4). -/
def biasVal (x : Ctx) (c : Cell) (col : Nat) : Val :=
  let b := (tget 0 c.table (16 + col)).toNat
  if tget 0 c.table (48 + col) ≠ 0 then .poison
  else if x.dsrc = 3 || (x.dsrc = 2 && x.wfmt = 0) then fp64.decode b else fp32.decode (b % 2 ^ 32)

/-- Steps 3 to 5 (Table 2.7); a gated mirror context skips 3 and 4 (R254). -/
def drainForm (x : Ctx) (c : Cell) (d : DrainIn) : Val × Bool :=
  let v1 := if x.gated then d.v else gateScale x c d.row d.col d.v
  let v2 := if x.biasEn && !x.gated then addV v1 (biasVal x c d.col) else v1
  if x.clipEn then clipV x.clipLo x.clipHi v2 else (v2, false)

/-- The throw of value `n` that a cell drains in the phase (R117, Table 3.8).  The element index of a drained value and the
job-rank index of the device are implementation constants of the value's place and of the rank (log entry 34). -/
def drainThrow (s : State) (cell : Nat) (x : Ctx) (n : Nat) : Nat :=
  let core := getCore s (coreOfCell cell)
  let srAcc := s.fb.job.getLsbD 17
  let stream := if srAcc then Config.jobRankIndex s.lk.rank.toNat % 256 * 2 ^ 24 + 2 ^ 16 + x.tensorId else x.tensorId
  let step := match runOf s core.region with
    | some r => r.step
    | none => core.step
  let digest := match regionOf s core.region with
    | some g => g.digest
    | none => []
  let elem := Config.elementIndex digest x.tensorId cell (getCell s cell).active n
  let index := step % 2 ^ 24 * 2 ^ 40 + elem % 2 ^ 40
  (dice s.fb.jobSeed (BitVec.ofNat 32 stream) (BitVec.ofNat 64 index)).toNat

/-- Sends one result on: to the cell store at DEST_BASE, or along the drain output's routes with its tape bits
(R245). -/
def drainEmit (cell : Nat) (x : Ctx) (fmt n : Nat) (d : Drained) (s : State) : State :=
  let tape := x.tapeEn && !x.reverse
  let e : Elem := { bits := BitVec.ofNat 64 d.bits, fmt := fmt, poison := d.poison, clip := tape && d.mask,
                    tapePoison := tape && d.poison }
  if x.ddestStore then
    let v := storedAs e
    putStoreBits s cell x.destBase (n * fmtBits fmt) (fmtBits fmt) v.1 v.2
  else routeFrom routeFuel cell 7 e s

/-- Steps 6 to 8 for target E8: NaN is code 0xFF, what lies beyond the largest scale saturates there, and the code of any other
value is the implementation's (R97; log entry 208). -/
def drainE8 (mode throw : Nat) (v : Val) (changed : Bool) : Drained :=
  let top := Val.fin false 1 127
  match v with
  | .poison => { bits := 0, poison := true, mask := changed, counts := [67] }
  | .nan _ _ => { bits := 0xFF, poison := false, mask := changed, counts := [66] }
  | .inf _ => { bits := 0xFE, poison := false, mask := true, counts := 64 :: binCounts 11 v }
  | .fin n m e =>
    if ordV (.fin false m e) top == 1 then { bits := 0xFE, poison := false, mask := true, counts := 64 :: binCounts 11 v }
    else { bits := Config.e8Code n m e mode throw % 255, poison := false, mask := changed, counts := binCounts 11 v }

/-- One value through steps 3 to 8. -/
def drainOne (cell : Nat) (x : Ctx) (s : State) (i : DrainIn) : State :=
  let c := getCell s cell
  let f := drainForm x c i
  let throw := if x.drmode = 2 then drainThrow s cell x c.drainN else 0
  let md : RMode := if x.drmode = 2 then .sr throw else if x.drmode = 1 then .rtz else .rne
  let d := if x.dfmt = 11 then drainE8 x.drmode throw f.1 f.2 else drainTo x.dfmt md f.1 f.2
  drainEmit cell x x.dfmt c.drainN d
    (modCell s cell fun k => { k with drainN := k.drainN + 1, counts := bumpCounts k.counts d.counts })

/-- Raw word `n` leaves with no scale, rounding or counting (R65). -/
def drainRaw (cell : Nat) (x : Ctx) (fmt : Nat) (s : State) (w : Nat × Nat × Bool) : State :=
  let e : Elem := { bits := BitVec.ofNat 64 w.2.1, fmt := fmt, poison := w.2.2, clip := false, tapePoison := false,
                    raw := x.dsrc == 1 }
  if x.ddestStore then
    let v := storedAs e
    putStoreBits s cell x.destBase (w.1 * fmtBits fmt) (fmtBits fmt) v.1 v.2
  else routeFrom routeFuel cell 7 e s

/-- Raw words from word `n` on, and the values they make up noted as drained; the poisoned ones at key 69 (R260). -/
def drainRaws (cell : Nat) (x : Ctx) (fmt n vals : Nat) (ws : List (Nat × Bool)) (s : State) : State :=
  let s1 := ((List.range ws.length).zip ws).foldl (fun st w => drainRaw cell x fmt st (n + w.1, w.2)) s
  modCell s1 cell fun d =>
    { d with drainN := d.drainN + vals, counts := bumpCounts d.counts ((ws.filter Prod.snd).map fun _ => 69) }

/-- The two words of a RAW drain of an entry: a poisoned entry emits the poison encoding and +0 (R65, R130), one of a TOPK list
its element's mark and its position (R139). -/
def rawWords (e : Entry) : List (Nat × Bool) :=
  if e.poison then [(fp32.poisonBits, true), (0, false)] else [(e.s.toNat, e.mark), (e.e.toNat, false)]

/-! ### BSI blocks -/

/-- One element of a GRADIENT drain (R107): its partial, the residual's new FP32 bits, the value of step 5, and its counts. -/
structure BsiElem where
  p : Int
  resid : Nat
  v : Val
  poison : Bool
  counts : List Nat
  deriving DecidableEq, Repr, Inhabited

/-- Largest BSI48 contribution (R99). -/
def bsiMax : Int := 2147483647

/-- Forms one element's partial and residual under the block's code `xc` (R107, R108). -/
def bsiElem (x : Ctx) (xc : Nat) (v r : Val) : BsiElem :=
  let k : Int := 127 - (xc : Int)
  let up := fun (w : Val) => match w with
    | .fin n m e => Val.fin n m (e + k)
    | w => w
  let v4 := if xc = 0xFF then (if v == .poison || r == .poison then .poison else defaultNaN) else addV (up v) (up r)
  let v5 := if x.clipEn then (clipV x.clipLo x.clipHi v4).1 else v4
  match v5 with
  | .poison => { p := 0, resid := 0, v := v5, poison := true, counts := [67] }
  | .nan _ _ => { p := 0, resid := 0, v := v5, poison := false, counts := [66] }
  | _ =>
    let q := roundInt .rne (-bsiMax) bsiMax v5
    let bins := binCounts 9 v5
    let back := fun (w : Val) => match w with
      | .fin n m e => Val.fin n m (e - k)
      | w => w
    let resid := if q.2 then 0 else fp32.roundIeee .rne (back (residual v5 (ofSigned q.1 0)))
    let van := v5.nonzero && q.1 == 0
    { p := q.1, resid := resid, v := v5, poison := false,
      counts := if q.2 then 64 :: bins else if van then 65 :: bins else bins }

/-- E8 code of 2^floor(log2 |v|) for a block's largest value (R108, Table 3.4). -/
def emaxOf (xc : Nat) (es : List BsiElem) : Nat :=
  let code := fun (v : Val) => match v with
    | .fin _ m e => if m = 0 then (0 : Nat) else (ilog2 m e + (xc : Int)).toNat
    | .inf _ => 0xFE
    | _ => 0
  Nat.min 0xFE (es.foldl (fun k e => Nat.max k (code e.v)) 0)

/-- A block's 200-byte slot (Tables 3.4 and 11.2). -/
def bsiSlot (esc poison zero : Bool) (xc emax : Nat) (ps : List Int) : List Byte :=
  let n := if esc then 6 else 3
  let enc := fun (p : Int) => leBytes n (if poison then 0 else (p % (256 ^ n : Nat)).toNat)
  let flags := b2n esc + b2n poison * 2 + b2n zero * 4
  padTo 200 ((ps.map enc).flatten ++ [BitVec.ofNat 8 xc, BitVec.ofNat 8 flags, BitVec.ofNat 8 (if zero then 0 else emax), 0])

/-- A GRADIENT drain of one block: residuals at `residAddr` (R107, R108, R353).  Its code X is byte 0 of the drain table, row 0's,
whatever ROW_SCALE_EN says, for every block of the phase: DESIGN CHOICE (log entry 213).  The partials of a poisoned block are
written, or leave, poisoned; the fields after them are plain (R95). -/
def drainBlock (cell : Nat) (x : Ctx) (residAddr : Nat) (ins : List DrainIn) (s : State) : State :=
  let c := getCell s cell
  let xc := (tget 0 c.table 0).toNat
  let resid := fun (i : Nat) =>
    let a := residAddr + 4 * i
    if readFaults s a then Val.poison else fp32.decode (leNat (readBytes s a 4))
  let lost := tget 0 c.table 32 != 0
  let es := (List.range 32).map fun i => bsiElem x xc (if lost then .poison else (lget default ins i).v) (resid i)
  let poison := es.any (·.poison)
  let esc := es.any fun e => decide (127 < e.p.natAbs)
  let zero := es.all fun e => !e.v.nonzero
  let slot := bsiSlot esc poison zero xc (emaxOf xc es) (es.map (·.p))
  let s0 := noteReads s residAddr 128
  let s1 := ((List.range 32).zip es).foldl (fun st e => writeJob st (residAddr + 4 * e.1) (leBytes 4 e.2.resid)) s0
  let n := if esc then 192 else 96
  let s2 := modCell s1 cell fun d => { d with
    counts := bumpCounts d.counts ((es.map (·.counts)).flatten ++ if esc then [68] else []),
    drainN := d.drainN + 32 }
  if x.ddestStore then
    let a := cellStoreAt cell + x.destBase + 200 * (c.drainN / 32)
    writeMem (writePieces s2 a (slot.take n) poison) (a + n) (slot.drop n)
  else
    ((List.range 200).zip slot).foldl (fun st b => routeFrom routeFuel cell 7
      { bits := b.2.setWidth 64, fmt := 11, poison := poison && decide (b.1 < n), clip := false, tapePoison := false } st) s2

/-! ### Sources -/

/-- Position of value n of a wide or Q source (R252). -/
def wideAt (n : Nat) (v : Val) : DrainIn := { v := v, row := n / 8 % 4, col := n % 8 }

/-- Value of a wide result. -/
def wideVal (x : Ctx) (e : Elem) : Val := if e.poison then .poison else x.wf.decode e.bits.toNat

/-- Whether the bank a context drains is ready: its tile operation's result waits, or no tile operation writes it
(R64; log entry 35). -/
def bankReady (x : Ctx) (c : Cell) : Bool :=
  if x.tileEn && x.tileBank == x.dbank && decide (x.role ≤ 4) then drainDue x c else true

/-- Drains a bank: 32 entries, or one block. -/
def drainBank (cell residAddr : Nat) (s : State) : State :=
  let s1 := if (getCell s cell).act.redBank == (getCell s cell).act.dbank then modCell s cell closeReds else s
  let c := getCell s1 cell
  let x := c.act
  let int := x.bankInt x.dbank
  let entry := fun i => bankEntry c x.dbank i
  if x.raw then
    drainRaws cell x 1 (2 * c.drainN) 32 ((List.range 32).map fun i => rawWords (entry i)).flatten s1
  else
    let ins := (List.range 32).map fun i => ({ v := entryVal int (entry i), row := i / 8, col := i % 8 } : DrainIn)
    if x.dfmt = 9 || x.dfmt = 10 then drainBlock cell x residAddr ins s1 else ins.foldl (drainOne cell x) s1

/-- Drains wide results: the next one, or the next 32 for a block. -/
def drainWide (cell residAddr : Nat) (s : State) : State :=
  let c := getCell s cell
  let x := c.act
  let block := x.dfmt == 9 || x.dfmt == 10
  let n := if block then 32 else 1
  if c.wideq.length < n then s
  else
    let s1 := modCell s cell fun d => { d with wideq := d.wideq.drop n }
    let ins := ((List.range n).zip (c.wideq.take n)).map fun e => wideAt (c.drainN + e.1) (wideVal x e.2)
    if x.raw then drainRaws cell x x.wcode c.drainN n ((c.wideq.take n).map fun e => (e.bits.toNat, e.poison)) s1
    else if block then drainBlock cell x residAddr ins s1
    else ins.foldl (drainOne cell x) s1

/-- Drains the Q pair RED_QPAIR. -/
def drainQ (cell : Nat) (s : State) : State :=
  let s1 := modCell s cell closeReds
  let c := getCell s1 cell
  let x := c.act
  let n := 2 * x.redQpair
  let p : Pair := ⟨tget 0 c.q n, tget 0 c.q (n + 1)⟩
  let bad := qPoisoned c n
  if x.raw then
    let ws := if bad then [(fp64.poisonBits, true), (0, false)] else [(p.s.toNat, false), (p.e.toNat, false)]
    drainRaws cell x 0 (2 * c.drainN) 1 ws s1
  else drainOne cell x s1 (wideAt c.drainN (if bad then .poison else finalV fp64 p))

/-- DRAIN (R65 to R72, R107, R108). -/
def execDrain (cell residAddr : Nat) (s : State) : Out :=
  guardUnit (decide (cell < Config.numCells)) (
    let c := getCell s cell
    let x := c.act
    whenTaken (cellRuns s cell) (fun st =>
      match x.dsrc with
      | 1 => if bankReady x c then drainBank cell residAddr st else st
      | 2 => drainWide cell residAddr st
      | 3 => drainQ cell st
      | _ => st) s)

end Sys2Proof.Machine
end

