-- ==== Sys2Proof/Machine/Messages.lean ====
section
/-!
DEFINITION. The messages of the command waystation at the dies and at the command processor, telemetry of the stacks, and lost
messages (01 R24 to R26, R33; 04 R150; 07 R229, R236, R237; 13 R421).
-/

namespace Sys2Proof.Machine

open Sys2Proof

/-! ### PHASE_START, CFG_LOAD and CTX_SWITCH at the dies (R33) -/

/-- The dies that a message is for. -/
def msgDies (s : State) : Payload → BitVec 8
  | .phaseStart region _ _ _ _ _ =>
    match regionOf s region with
    | some g => g.dies
    | none => 0
  | .ctxSwitch region _ _ =>
    match regionOf s region with
    | some g => g.dies
    | none => 0
  | _ => 0xFF

/-- The cores of a region on a die. -/
def coresOn (g : Region) (die : Nat) : List Nat := g.cores.filter fun c => dieOfCore c == die

/-- A die takes PHASE_START (DESIGN CHOICE: the phase entry's CTX becomes its cores' active context and stays so, log entry 214):
its cores of the region start the phase, in its context, or the program (R67, R179, R218). -/
def phaseOnDie (die region id count handle : Nat) (program : Bool) (s : State) : State :=
  match runOf s region, regionOf s region with
  | some run, some g =>
    -- a sequencer of the region has faulted: none starts any more (R201)
    if run.handle != handle || run.seqFault.isSome then s
    else
      let s1 := modRun s region fun r => { r with started := r.started ||| BitVec.ofNat 8 (2 ^ die) }
      if program then (coresOn g die).foldl (fun st c => startProgramOn c region g.entry run st) s1
      else
        match g.phases.find? fun e => e.id == id with
        | none => s1
        | some e => (coresOn g die).foldl (fun st c =>
            startPhaseOn c { id := id, ctx := e.ctx, count := count, region := region, late := false } (switchCore c e.ctx st)) s1
  | _, _ => s

/-- A die takes CTX_SWITCH: its cores of the region switch (R76, R236). -/
def switchOnDie (die region ctx : Nat) (s : State) : State :=
  match regionOf s region with
  | some g => (coresOn g die).foldl (fun st c => switchCore c ctx st) s
  | none => s

/-- A die takes CFG_LOAD (R229). -/
def loadOnDie (die handle : Nat) (s : State) : State :=
  setLoads s (s.fb.loads.map fun l => if l.handle == handle then { l with dies := l.dies ||| BitVec.ofNat 8 (2 ^ die) } else l)

/-- What a message does at a die. -/
def onDie (die : Nat) (p : Payload) (s : State) : State :=
  match p with
  | .phaseStart region id count handle _ program => phaseOnDie die region id count handle program s
  | .ctxSwitch region ctx _ => switchOnDie die region ctx s
  | .cfgLoad handle => loadOnDie die handle s
  | _ => s

/-- A message that every die has taken: a CTX_SWITCH completes its command, without effect where its region is gone (R236). -/
def allTaken (p : Payload) (s : State) : State :=
  match p with
  | .ctxSwitch region _ handle =>
    startNextWait region (postCompletion handle (if (regionOf s region).isSome then 0 else 0x0104) 0 [] s)
  | _ => s

/-- The hub passes the message at the head of the down queue to the network interfaces of its dies. -/
def arrive (kind : Nat) (s : State) : State :=
  match s.ws.down with
  | [] => s
  | m :: _ =>
    if m.kind != kind then s
    else
      let dies := msgDies s m.payload
      let s1 := popDown s
      if dies = 0 then allTaken m.payload s1 else { s1 with ws := { s1.ws with ni := s1.ws.ni ++ [(m, dies)] } }

/-- The first message that waits for a die. -/
def niNext (s : State) (die : Nat) : Option (Msg × BitVec 8) := s.ws.ni.find? fun e => e.2.getLsbD die

/-- A die takes the first message that waits for it, if that is of the kind and the die is not halted (R33). -/
def niTake (die kind : Nat) (s : State) : State :=
  match niNext s die with
  | none => s
  | some (m, dies) =>
    if m.kind != kind || dieHalted s die then s
    else
      let left := dies &&& ~~~BitVec.ofNat 8 (2 ^ die)
      let ni := if left = 0 then lremove (fun e => e == (m, dies)) s.ws.ni
        else lupdate (fun e => e == (m, dies)) (fun e => (e.1, left)) s.ws.ni
      let s1 := onDie die m.payload { s with ws := { s.ws with ni := ni } }
      if left = 0 then allTaken m.payload s1 else s1

/-- The row of a message at a die: the one that waits there, else the one at the head of the down queue. -/
def dieRow (die kind : Nat) (s : State) : State :=
  match niNext s die with
  | some (m, _) => if m.kind == kind then niTake die kind s else arrive kind s
  | none => niTake die kind (arrive kind s)

/-- PHASE_START (R33, R218). -/
def execPhaseStart (die : Nat) (s : State) : Out := guardUnit (decide (die < 8)) (dieRow die 0x01 s)

/-- CFG_LOAD (R229, R33). -/
def execCfgLoad (die : Nat) (s : State) : Out := guardUnit (decide (die < 8)) (dieRow die 0x02 s)

/-- CTX_SWITCH (R236, R237, R33). -/
def execCtxSwitch (die : Nat) (s : State) : Out := guardUnit (decide (die < 8)) (dieRow die 0x03 s)

/-! ### Replies of the data plane -/

/-- COMPLETION (R24, R409): the command processor takes it and owes the record. -/
def execCompletion (s : State) : Out :=
  .next <|
    match s.ws.up with
    | { payload := .completion h st fl res, .. } :: _ => releaseFenced (endCommand h st fl res (popUp s))
    | _ => s

/-- A command whose down message was lost, and so had no effect, completes with ST_WAYSTATION_LOST (R421); an access fails
(R430). -/
def lostDown (p : Payload) (s : State) : State :=
  match p with
  | .phaseStart region _ _ h _ _ => startNextWait region (endCommand h 0x0016 0 [0] (dropRun s region))
  | .cfgLoad h =>
    afterLoad (sendLoad (endCommand h 0x0016 0 [0] (setLoads s (lremove (fun l => l.handle == h) s.fb.loads))))
  | .ctxSwitch region _ h => startNextWait region (endCommand h 0x0016 0 [0] s)
  | .collDesc h _ =>
    let s1 := if s.cl.rsHandle = h then { s with cl := { s.cl with rsHandle := 0 } } else s
    endCommand h 0x0016 0 [0] s1
  | .regAccess a => failAccess a.port a.tag s
  | _ => s

/-- NACK (R26, R421): the command processor knows the message by its SEQ. -/
def execNack (s : State) : Out :=
  .next <|
    match s.ws.up with
    | { payload := .nack seq, .. } :: _ =>
      let s1 := popUp s
      match s.ws.sent.find? fun e => e.1 == seq with
      | some (_, p) => releaseFenced (lostDown p s1)
      | none => s1
    | _ => s

/-! ### Telemetry of the stacks (R150) -/

/-- The optical ports on a stack's base die (Table 1.2). -/
def stackPorts (stack : Nat) : List Nat :=
  match stack with
  | 0 => [0, 3]
  | 1 => [2, 5]
  | 2 => [4, 7]
  | 3 => [6, 1]
  | 4 => [8]
  | 7 => [9]
  | _ => []

/-- The twenty lane bytes of a port: 0xFF when not in use, else grade and a logarithm of the symbols corrected (Table 4.8). -/
def laneBytes (v : Port) : List Nat :=
  (List.range 20).map fun l =>
    let x := lget Lane.reset v.lanes l
    if x.role ≤ 16 then x.grade % 8 * 32 + Nat.min 30 (Nat.log2 (tget 0 v.fec l + 1)) else 0xFF

/-- The words of a stack's LANE_HEALTH. -/
def laneHealth (s : State) (stack : Nat) : List Nat :=
  let ps := stackPorts stack
  let name := fun (i : Nat) => lget 0xFF ps i
  let lanes := fun (i : Nat) => match ps[i]? with
    | some p => laneBytes (getPort s p)
    | none => List.replicate 20 0xFF
  let un := fun (i : Nat) => match ps[i]? with
    | some p => (getPort s p).uncorr.toNat
    | none => 0
  [name 0, name 1] ++ lanes 0 ++ lanes 1 ++ [un 0, un 1]

/-- The words of a stack's COUNTER_SNAPSHOT: cycles are free (log entry 111). -/
def snapshot (s : State) (stack : Nat) : List Nat × State :=
  let f := drawFree s
  let n := fun (k unit : Nat) => tget 0 s.tw.activity (8 * stack + k) / unit % 2 ^ 64
  ([f.1 % 2 ^ 64, n 1 1024, n 2 1024, n 3 64, tget 0 s.mem.moved stack / 64 % 2 ^ 64, n 5 64, n 6 64], f.2)

/-- Posts a stack's telemetry and keeps its image (Table 4.3). -/
def sendStack (kind stack key : Nat) (w : List Nat) (s : State) : State :=
  let m := mkMsg s 2 kind stack (.counts w)
  postTele { s with tw := { s.tw with images := (s.tw.images.filter fun e => decide (e.1 < key)) ++ [(key, m)] ++
    (s.tw.images.filter fun e => decide (key < e.1)) } } kind stack (.counts w)

/-- TELEMETRY_INTERVAL (R150): a stack sends COUNTER_SNAPSHOT and LANE_HEALTH. -/
def execTelemetryInterval (stack : Nat) (s : State) : Out :=
  guardUnit (decide (stack < 8)) <|
    whenTaken (planeUp s) (fun st =>
      let r := snapshot st stack
      let s1 := sendStack 0x14 stack (8 + stack) (laneHealth st stack) (sendStack 0x11 stack stack r.1 r.2)
      (stackPorts stack).foldl (fun x p => modPort x p fun v => { v with fec := [] }) s1) s

/-! ### Lost messages (R26, Table 1.6) -/

/-- The fault report of a lost message: EXPECTED_SEQ its own, RECEIVED_SEQ the next after a gap, 0 for an uncorrectable word
(Table 4.8). -/
def reportLost (ws cause seq : Nat) (s : State) : State :=
  postTele s 0x17 0x10 (.fault ws cause seq (if cause = 1 then (seq + 1) % 2 ^ 32 else 0))

/-- The receiver of a waystation's queue discards the message at its head: 0 command down, 1 command up, 2 telemetry,
3 interlock. -/
def loseHead (ws cause : Nat) (s : State) : State :=
  match ws with
  | 0 =>
    match s.ws.down with
    | [] => s
    | m :: _ => reportLost 0 cause m.seq (postUp (popDown s) 0x83 0x10 (.nack m.seq))
  | 1 =>
    match s.ws.up with
    | [] => s
    | m :: _ =>
      let s1 := reportLost 1 cause m.seq (popUp s)
      match m.payload with
      | .regReply port tag _ _ => failAccess port tag s1
      | p => postUp s1 m.kind m.source p
  | 2 =>
    match s.ws.tele with
    | [] => s
    | m :: _ => reportLost 2 cause m.seq (popTele s)
  | _ =>
    match s.ws.inter with
    | [] => s
    | m :: _ => reportLost 3 cause m.seq (popInter s)

/-- WAYSTATION_FAULT (R26): the management plane takes the report at the head of the telemetry queue; otherwise the message at
the head of waystation `ws` is lost (cause 1 a gap in SEQ, 2 an uncorrectable word). -/
def execWaystationFault (ws cause : Nat) (s : State) : Out :=
  .next <|
    match s.ws.tele with
    | m@{ payload := .fault w c _ _, .. } :: _ =>
      if w = ws && c = cause then (if mcRuns s then popTele (traceRec 2 (0x17 + 0x10 * 2 ^ 8 + m.seq % 2 ^ 16 * 2 ^ 16) s) else s) else loseHead ws cause s
    | _ => loseHead ws cause s

end Sys2Proof.Machine
end

