-- ==== Sys2Proof/Machine/Reset.lean ====
section
/-!
DEFINITION. Resets and bring-up (18 R524 to R537; 15 R470, R471; 19 R542, R543; 01 R26, R38).
-/

namespace Sys2Proof.Machine

open Sys2Proof

/-! ### The resets -/

/-- The black box after the controller restarts: its MRAM stays (R510). -/
def Bb.afterCold (b : Bb) : Bb :=
  { Bb.reset with slots := b.slots, committed := b.committed, reshardOpen := b.reshardOpen,
                  reshardHandle := b.reshardHandle, ctrl := b.ctrl, maps := b.maps, writes := b.writes }

/-- The SC block after a cold reset: fuses and flash stay, a fused transition takes effect (R492, Table 16.4). -/
def Sc.afterCold (c : Sc) : Sc :=
  let r := { Sc.reset with
    lifecycle := c.next, next := c.next, identity := c.identity || (c.lifecycle == 0 && c.next == 1),
    transitions := c.transitions, vendorKey := c.vendorKey, fwKey := c.fwKey, ownerCrb := c.ownerCrb,
    ownerDbg := c.ownerDbg, slotA := c.slotA, slotB := c.slotB, selected := c.selected, selCount := c.selCount,
    rollback := c.rollback, fusesLeft := c.fusesLeft, fuse := c.fuse }
  if c.next = 3 then { r with ownerCrb := [], ownerDbg := [] }
  else if c.lifecycle = 1 && c.next = 2 then { r with ownerCrb := c.nextCrb, ownerDbg := c.nextDbg }
  else r

/-- The SF block after a cold reset: what the safety monitor retains (R483). -/
def Sf.afterCold (f : Sf) : Sf :=
  { Sf.reset with tripCause := f.tripCause, autoRestarts := f.autoRestarts, tripValue := f.tripValue, tripDie := f.tripDie,
                  tripped := f.tripped, loopLow := f.loopLow, loopDriving := f.loopDriving, loopStuck := f.loopStuck,
                  loopEvents := f.loopEvents, counts := f.counts, failed := f.failed }

/-- The whole module after a cold reset, but for the safety monitor, the MRAM, the fuses, flash and calibrations (R524,
Table 18.2); levels at the pins and the surroundings are as they were. -/
def coldReset (s : State) : State :=
  let port := fun (c : PortCp) => { PortCp.reset with perstLow := c.perstLow }
  let r := State.reset
  { r with
    pending := s.pending, freeCtr := s.freeCtr, cp := { r.cp with a := port s.cp.a, b := port s.cp.b },
    fb := { r.fb with fusedCell := s.fb.fusedCell, fusedCluster := s.fb.fusedCluster, failed := s.fb.failed },
    sf := s.sf.afterCold,
    sc := s.sc.afterCold, bb := s.bb.afterCold, pw := { r.pw with stored := s.pw.stored },
    mg := { r.mg with id := s.mg.id, serial := s.mg.serial }, rst := { r.rst with mateHigh := s.rst.mateHigh },
    env := s.env }

/-- COLD_RESET (R524, R525). -/
def execColdReset (s : State) : Out :=
  .next (match s.rst.bringup with
    | some (.cold, _) => s
    | _ => coldReset s)

/-- A warm reset from its trigger to the end of the quiesce (R429, R532, R535, R536, Tables 18.2, 18.5). -/
def warmReset (cause : Nat) (s : State) : State :=
  let s0 := endLevel (breakUpdate s)
  let s1 := bbEvent 0x0005 [BitVec.ofNat 8 cause] (resetPlane false s0)
  let port := fun (c : PortCp) => { PortCp.reset with perstLow := c.perstLow, d3cold := c.d3cold }
  let blank := s.sc.lifecycle == 0
  relampAll { s1 with
    cp := { Cp.reset with a := port s.cp.a, b := port s.cp.b },
    ws := { s1.ws with standbyDown := [], standbyUp := [], regsOut := [] },
    mem := { s1.mem with ready := false, selfRefresh := true },
    sc := { s1.sc with unlock := none, requested := 0, presenceWait := false, presenceLeft := 0, scrubbing := false,
                       nonceValid := false,
                       lastCause := if s1.sc.unlock.isSome then 9 else s1.sc.lastCause },
    pw := { s1.pw with state := .p0, commanded := b2n blank, p1Cap := if blank then 2000 else s1.pw.p1Cap, target := none },
    rst := { s1.rst with bringup := some (.warm, 3), quiesce := true, warmCause := cause, fromP3 := s.pw.state == .p3 } }

/-- Whether a warm reset merges with one under way (R525). -/
def warmMerges (s : State) : Bool :=
  match s.rst.bringup with
  | some (.cold, _) => true
  | some (.warm, _) => true
  | _ => s.rst.quiesce

/-- WARM_RESET: cause 0 PERST# A, 1 PERST# B, 2 the RESET command (R399, R524). -/
def execWarmReset (cause : Nat) (s : State) : Out :=
  let s1 := if cause < 2 then modCp s cause fun c => { c with perstLow := true } else s
  let due := decide (cause < 2) || (cause == 2 && s.cp.resetDue)
  .next (whenTaken (due && !warmMerges s && s.pw.state != .p4) (warmReset cause) s1)

/-- QUIESCE_END (R532). -/
def execQuiesceEnd (s : State) : Out :=
  .next (whenTaken s.rst.quiesce (fun st => { st with rst := { st.rst with quiesce := false } }) s)

/-- A fabric reset (R526, R527, R533); memory stays (Table 18.9). -/
def fabricReset (s : State) : State :=
  let s1 := bbEvent 0x0006 [] (failCommands s)
  let s2 := resetPlane false s1
  { s2 with mem := { s2.mem with retainedValid := true }, rst := { s2.rst with bringup := some (.fabric, 6) } }

/-- Takes a fabric reset, unless another reset or its bring-up is under way (R525) or the plane has no power. -/
def takeFabric (s : State) : State :=
  whenTaken (s.rst.bringup.isNone && !s.rst.quiesce && s.rst.dataPlaneOn) fabricReset s

/-- FABRIC_RESET (R524, R533): its only trigger with the plane powered is an interlock order repeated eight times. -/
def execFabricReset (s : State) : Out :=
  .next (whenTaken (s.ws.unacked.any fun e => decide (8 ≤ e.2)) takeFabric s)

/-- INTERLOCK_ORDER_REPEAT (R26, R524).  The order sent again takes the next SEQ of its queue, as every message does; the spec
does not say whether it keeps its first (log entry 113, the model's choice). -/
def execInterlockOrderRepeat (seq : Nat) (s : State) : Out :=
  .next (match s.ws.unacked.find? fun e => e.1.seq == seq with
    | none => s
    | some (m, n) =>
      if !mcRuns s || !planeUp s then s
      else if 8 ≤ n then takeFabric s
      else if 32 ≤ s.ws.inter.length then s
      else
        let s1 := { s with ws := { s.ws with unacked := s.ws.unacked.filter fun e => e.1.seq != seq } }
        enterInter s1 m.kind (n + 1) m.payload)

/-- Whether a port reset is one of its own: not in P4, and not merged into a cold or warm reset that resets the port with the
rest (R525). -/
def portResets (s : State) : Bool :=
  let own := match s.rst.bringup with
    | some (.fabric, _) => true
    | some _ => false
    | none => true
  own && !s.rst.quiesce && s.pw.state != .p4

/-- PORT_RESET (R399, R437, R525): the port is in D0 after it, which may raise the floor (R439). -/
def execPortReset (port : Nat) (kind : PortResetKind) (s : State) : Out :=
  guardUnit (decide (port < 2)) <| whenTaken (portResets s) (fun st => followPower none (resetPort port kind st)) s

/-- PERST_RELEASE (R441, R525, R529). -/
def execPerstRelease (port : Nat) (s : State) : Out :=
  guardUnit (decide (port < 2)) <|
    let s1 := modCp s port fun c => { c with perstLow := false, d3cold := false, dState := 0 }
    if s.pw.state = .p4 then (if s.pw.floorOff && !unconnected s port then coldReset s1 else s1)
    else followPower none s1

/-- PCIE_LINK_UP (R529): after step 7, on a port whose PERST# is released. -/
def execPcieLinkUp (port : Nat) (s : State) : Out :=
  guardUnit (decide (port < 2)) <|
    let admitted := match s.rst.bringup with
      | some (_, n) => decide (7 < n)
      | none => true
    whenTaken (admitted && !(getCp s port).perstLow && s.pw.state != .p4 && !s.rst.quiesce) (fun st =>
      modCp st port fun c => { c with linkUp := true }) s

/-- MATE_CHANGE (R543). -/
def execMateChange (high : Bool) (s : State) : Out := .next { s with rst := { s.rst with mateHigh := high } }

/-! ### Bring-up (Table 18.3) -/

/-- The step that follows (R528, R531): a fabric bring-up on leaving P3 runs steps 3, 4, 5, 6, 8 and 9, and a warm one out of
P3 the proof of R470. -/
def nextStep (k : ResetKind) (fromP3 recovery : Bool) (n : Nat) : Nat :=
  let skip := fun (m : Nat) =>
    match k with
    | .cold => recovery && (m == 4 || m == 5 || m == 6 || m == 8)
    | .warm => (m == 5 && !fromP3) || (recovery && (m == 4 || m == 6 || m == 8))
    | .fabric => m == 7 || (m == 5 && !fromP3)
  ((List.range 10).find? fun m => decide (n < m) && !skip m).getD 9

/-- The lines of the safety monitor are all asserted and its trip stands (R472, R473). -/
def tripLines (s : State) : State :=
  let s1 := (List.range 10).foldl (fun st p => smHold p 4 st) s
  { s1 with ws := { s1.ws with haltSm := true } }

/-- A trip's cause and count, with its black-box event (R473, Table 15.11). -/
def storeTrip (cause value die : Nat) (s : State) : State :=
  let n := taddSat s.sf.counts 0 1
  let k := if cause = 2 then taddSat n 7 1 else n
  bbEvent 0x0001 ([BitVec.ofNat 8 cause, 0] ++ leBytes 2 value ++ [BitVec.ofNat 8 die])
    { s with sf := { s.sf with tripCause := cause, tripValue := value, tripDie := die, tripped := true, counts := k } }

/-- Step 2: firmware, the control block and the repair map (R488, R514, R516). -/
def bootStep (failed : List Nat) (s : State) : State :=
  let s1 := bootFirmware failed s
  let s2 : State :=
    match (if failed.contains 2 then none else s1.bb.ctrl.current) with
    | some (_, x) =>
      { s1 with bb := { s1.bb with committed := x.committed, reshardOpen := x.reshardOpen, reshardHandle := x.reshardHandle } }
    | none =>
      let good := s1.bb.slots.filter fun e => recordGood e.2
      let x : BbCtrl := { committed := good.foldl (fun n e => Nat.max n (field e.2 0 8)) 0, reshardOpen := true, reshardHandle := 0 }
      let s' := { s1 with bb := { s1.bb with ctrl := { a := none, b := none }, ctrlRebuilt := true } }
      writeCtrl x (writeCtrl x { s' with bb := { s'.bb with committed := x.committed, reshardOpen := true, reshardHandle := 0 } })
  let torn := (s2.bb.slots.filter fun e => !recordGood e.2 || decide (s2.bb.committed < field e.2 0 8)).length
  let s2 := { s2 with bb := { s2.bb with counts := taddW s2.bb.counts 1 torn } }
  if failed.contains 3 || s2.bb.maps.current.isNone then
    { s2 with bb := { s2.bb with maps := { a := none, b := none }, repairLost := true } }
  else s2

/-- Step 3: PLL pairs locked; pairs of which both have failed (Table 14.4). -/
def lockPlls (failed : List Nat) (s : State) : State :=
  let s1 := (List.range 37).foldl (fun st i =>
    let w := tget 0 st.pw.pll i
    if w.getLsbD 1 && w.getLsbD 2 then st else { st with pw := { st.pw with pll := tput 0 st.pw.pll i (w ||| 8) } }) s
  failed.foldl (fun st i =>
    if i < 37 then pairLost i { st with pw := { st.pw with pll := tput 0 st.pw.pll i (tget 0 st.pw.pll i ||| 6) } } else st) s1

/-- A pin, or a whole sub-channel, fails training (R276 to R279).  Before initialisation a spare replaces the sub-channel, with
nothing to copy; otherwise the pin has failed, or every pin together. -/
def trainFails (cold : Bool) (i : Nat) (s : State) : State :=
  let n := if i < 256 then i else (i - 256) / 12
  let stack := n / 32
  let p := n % 32
  let w := subAt s stack p
  let pin := if i < 256 then subPin w else (i - 256) % 12
  let fails := if i < 256 then pinsFailed stack p s else pinFailed stack p pin s
  if 256 ≤ n then s
  else
    match unusedSpare s stack with
    | some q =>
      if cold && (subState w == 0 || subState w == 2) then finishRetire { waitingRetire stack p pin with spare := q } s else fails
    | none => fails

/-- MC_SUBCH_MAP at cold bring-up (R292, R516, R279): the saved map; a copy that was under way starts again. -/
def rebuildSubch (s : State) : State :=
  let m := (repairMap s).subch
  let fix := fun (w : W32) =>
    if subState w = 3 then subWord (subLogical w) 2 (subPin w) true
    else if subState w = 4 then (if subPin w < 12 then subWord 31 5 (subPin w) true else subWord 31 1 31 true) else w
  let m1 := m.map fix
  let again := (List.range 256).filter fun i => subState (lget 0 m1 i) == 2
  { s with mem := { s.mem with
      subch := m1,
      retires := again.map fun i =>
        { stack := i / 32, failing := i % 32, spare := 0, pin := subPin (lget 0 m1 i), copying := false, ptr := 0 } } }

/-- Step 4 (R285, R286). -/
def memoryStep (cold : Bool) (failed : List Nat) (s : State) : State :=
  if cold then
    let s1 := failed.foldl (fun st i => trainFails true i st) (rebuildSubch s)
    { s1 with mem := { s1.mem with bytes := [], poison := [], stale := [], scrubbed := none, gen := 1, ready := true,
                                   initRunning := false, retainedValid := false, selfRefresh := false } }
  else
    let s1 := failed.foldl (fun st i => trainFails false i st) s
    { s1 with mem := { s1.mem with ready := true, retainedValid := true, selfRefresh := false } }

/-- Step 5: the proof of both channels on every port (R468, R470, R471). -/
def proofStep (failed : List Nat) (s : State) : State :=
  let bad := (List.range 10).filter fun p => failed.contains p
  let s1 := (List.range 10).foldl (fun st p => smFree p 2 (smFree p 1 st)) s
  let ok := (List.range 10).foldl (fun (m : BitVec 10) p => if bad.contains p then m else m ||| BitVec.ofNat 10 (2 ^ p)) 0
  let s2 := { s1 with sf := { s1.sf with proof := ok, fibreHigh := [] } }
  let s3 := bad.foldl (fun st p => smHold p 1 st) s2
  if bad.isEmpty then s3
  else
    let mask := bad.foldl (fun n p => n + 2 ^ p) 0
    postEvent 0x8004 [0x12] (bbEvent 0x0103 ([0x12, 0] ++ leBytes 2 mask)
      { s3 with sf := { s3.sf with counts := taddSat s3.sf.counts 3 bad.length } })

/-- Step 7: a port whose link trains is admitted unless its PERST# is held (R525, R529). -/
def linksStep (failed : List Nat) (s : State) : State :=
  [0, 1].foldl (fun st port =>
    modCp st port fun c => { c with linkUp := !failed.contains port && !c.perstLow }) s

/-- The repair and cluster maps at cold bring-up (R516): the saved map, or the fuses. -/
def rebuildMaps (s : State) : State :=
  let m := repairMap s
  let cl := m.clusters.map fun w => putBits w 16 15 0
  let s1 := { s with fb := { s.fb with cellRepair := m.cells, clusterMap := cl, capacity := List.replicate 8 0 } }
  (List.range 8).foldl (fun st d =>
    let st' := (List.range 156).map fun p => lget 0 cl (d * 156 + p)
    let active := (st'.filter fun w => (mapState w == 0 || mapState w == 2) && decide (mapLogical w < 150)).length
    putCapacity d active (st'.filter fun w => mapState w == 1).length st) s1

/-- Dies that have lost a clock (Table 14.4). -/
def lostDies (s : State) : List Nat := (List.range 8).filter fun d => [d, d + 8, d + 16].any fun i => pairDead s i

/-- The clusters of dies that lost a clock before the maps stood (Table 14.4). -/
def loseDies (s : State) : State := (lostDies s).foldl (fun st d => dieLost d st) s

/-- The orders sent after a restart (R38): the current THROTTLE and port orders, and HALT for a lost die that is not halted. -/
def sendRestart (s : State) : State :=
  ((lostDies s).filter fun d => !s.ws.haltMc.getLsbD d).foldl (fun st d => haltLost d st) (sendCurrent s)

/-- Step 8 (R38, R87, R169, R170, R516, Table 18.2): maps, self-tests, stores zeroed on cold reset, the re-shard states, and
the waystations restarted: the data plane stays halted until the current orders are acknowledged. -/
def fabricStep (cold : Bool) (tests : List SelfTest) (s : State) : State :=
  let s0 := failCommands s
  let s1 := if cold then loseDies (rebuildMaps s0) else s0
  let s2 := findJournal cold (tests.foldl (fun st t => recordTest t st) s1)
  { s2 with ws := { s2.ws.afterReset with startHeld := true } }

/-- FB_AUTH_CTRL of a deployed module, written by the command processor (R493). -/
def lockOwner (s : State) : State :=
  if s.sc.lifecycle = 2 && !allZero s.sc.ownerCrb && !s.fb.authCtrl.getLsbD 31 then
    let d := (List.range 6).foldl (fun (t : Tbl W64) w => tput 0 t w (BitVec.ofNat 64 (field s.sc.ownerCrb (8 * w) 8))) []
    { s with fb := { s.fb with ownerDigest := d, authCtrl := 0x80000001 } }
  else s

/-- Step 9 (R490, R493, R502, R504, R530, R537, Table 18.9). -/
def finishBringup (k : ResetKind) (s : State) : State :=
  let fromP3 := k == .fabric && s.rst.fromP3
  let s1 := { s with rst := { s.rst with bringup := none, dataPlaneOn := !s.rst.recovery, lastStep := 9,
                                          fromP3 := fromP3 },
                     cp := { s.cp with accepting := true, resetDue := false } }
  let s2 := if k = .cold then
      let body := [BitVec.ofNat 8 9, BitVec.ofNat 8 (s1.sc.bootFlags.toNat % 16), 0, 0] ++ leBytes 4 s1.sc.fwVersion
      bbEvent 0x0100 body (raiseRollback s1)
    else s1
  let s3 := lockOwner s2
  let s4 := if s3.cl.held || s3.cl.lost then postEvent 0x8007 [BitVec.ofNat 64 s3.cl.rsState] s3 else s3
  let s5 := if k = .cold && s4.sf.tripped then
      postEvent 0x8004 [BitVec.ofNat 64 s4.sf.tripCause] { s4 with sf := { s4.sf with tripped := false } }
    else s4
  if k = .fabric then (if fromP3 then s5 else relampAll s5)
  else
    let s6 := blankDefault s5
    let t := if s6.pw.commanded = 1 then PowerState.p1 else .p0
    let s7 := capAll 2 (if t = .p1 then grid25 s6.pw.p1Cap else 2700) s6
    let s8 := if s7.pw.state = t then s7
              else postEvent 0x8003 [BitVec.ofNat 64 t.code] { s7 with pw := { s7.pw with state := t } }
    relampAll (followPower none s8)

/-- One step of bring-up with what it found (R528, R531). -/
def bringupStep (k : ResetKind) (n : Nat) (o : BringupObs) (s : State) : State :=
  let go := fun (st : State) =>
    { st with rst := { st.rst with lastStep := n, bringup := some (k, nextStep k st.rst.fromP3 st.rst.recovery n) } }
  match n with
  | 1 =>
    if o.ok && !s.sf.failed then
      let r := drawFree s
      go { r.2 with sf := { r.2.sf with selftestOk := true, fuseClosed := true, smclkKhz := 30400 + r.1 % 3201 } }
    else enterP4 (tripLines (storeTrip 7 0 0 s))
  | 2 => go (bootStep o.failed s)
  | 3 =>
    let s1 := if k = .cold then { s with rst := { s.rst with ncA := o.ncA, ncB := o.ncB, smbAddr := o.smbAddr % 8 } } else s
    if s.rst.mateHigh then s
    else if o.ok then go (lockPlls o.failed s1)
    else
      let body := [3, BitVec.ofNat 8 (s1.sc.bootFlags.toNat % 16), 0, 0] ++ leBytes 4 s1.sc.fwVersion
      enterP4 (bbEvent 0x0100 body { s1 with rst := { s1.rst with supplyFail := true, lastStep := 3 } })
  | 4 => go (memoryStep (k == .cold) o.failed s)
  | 5 => go (proofStep o.failed s)
  | 6 => go (settlePilots { s with rst := { s.rst with lasersPermitted := true } })
  | 7 => go (linksStep o.failed s)
  | 8 => sendRestart (go (fabricStep (k == .cold) o.tests (if k = .fabric then failCommands s else s)))
  | _ => finishBringup k s

/-- BRINGUP_STEP (R528, R531). -/
def execBringupStep (o : BringupObs) (s : State) : Out :=
  .next (match s.rst.bringup with
    | some (k, n) => if s.rst.quiesce || s.pw.state = .p4 then s else bringupStep k n o s
    | none => s)

/-- FW_BOOT_TIMEOUT (R488): the slot being tried has failed; the boot ROM goes on to the other. -/
def execFwBootTimeout (s : State) : Out :=
  .next (match s.rst.bringup with
    | some (.cold, 2) =>
      match bootSlot s [] with
      | some x => { s with sc := { s.sc with bootFlags := s.sc.bootFlags ||| BitVec.ofNat 32 (2 ^ failBit x) } }
      | none => s
    | _ => s)

/-- Whether P4 may be left for the restart of Table 15.5, and by itself (R475). -/
def restartAuto (s : State) : Bool :=
  !s.rst.supplyFail && (s.sf.tripCause == 1 || s.sf.tripCause == 3 || s.sf.tripCause == 4) && decide (s.sf.autoRestarts < 3)

/-- TRIP_RESTART (R441, R475). -/
def execTripRestart (s : State) : Out :=
  .next (whenTaken (s.pw.state == .p4 && (s.sf.tripped || s.rst.supplyFail)) (fun st =>
    let s1 := if restartAuto st then { st with sf := { st.sf with autoRestarts := st.sf.autoRestarts + 1 } } else st
    coldReset s1) s)

/-- INPUT_RESTORED (R441). -/
def execInputRestored (s : State) : Out :=
  let s1 := { s with pw := { s.pw with inputOk := true } }
  .next (if s.pw.state = .p4 && s.pw.undervolt then coldReset s1 else s1)

end Sys2Proof.Machine
end

