-- ==== Sys2Proof/Machine/Monitor.lean ====
section
/-!
DEFINITION. The rows of the safety monitor and the safety loop (15 R468, R469, R472 to R478).
-/

namespace Sys2Proof.Machine

open Sys2Proof

/-- The SAFETY event and the black-box record of a safety hold (Tables 13.4, 17.5). -/
def reportHold (cause mask : Nat) (s : State) : State :=
  postEvent 0x8004 [BitVec.ofNat 64 cause] (bbEvent 0x0103 ([BitVec.ofNat 8 cause, 0] ++ leBytes 2 mask) s)

/-- Whether any line of the safety monitor is asserted. -/
def smLine (s : State) : Bool := s.ws.haltSm || s.ws.portSm != 0

/-- The module status lamp, a level the safety monitor drives from what it holds (R482). -/
def statusLamp (s : State) : Lamp :=
  if s.pw.state == .p4 then (if s.sf.tripped then .amberFlashing else .off)
  else if smLine s then .amberSteady
  else if s.pw.state == .p0 || s.pw.state == .p1 then .greenSteady
  else .greenFlashing

/-- SMB_ALERT# is driven low (Table 19.2). -/
def smbAlertLow (s : State) : Bool := smLine s || (s.pw.state == .p4 && s.sf.tripped)

/-- HEARTBEAT_LOST (R476). -/
def execHeartbeatLost (s : State) : Out :=
  .next (whenTaken (s.pw.state != .p4 && !(List.range 10).all fun p => smHolds s p 3) (fun st =>
    let s1 := { st with sf := { st.sf with heartbeatOk := false, counts := taddSat st.sf.counts 1 1 } }
    reportHold 0x10 0x3FF (relampAll ((List.range 10).foldl (fun x p => smHold p 3 x) s1))) s)

/-- HEARTBEAT_RESTORED (R476): a port held for another cause stays held. -/
def execHeartbeatRestored (s : State) : Out :=
  .next (whenTaken (s.pw.state != .p4 && !s.sf.failed) (fun st =>
    (List.range 10).foldl (fun x p => if smHolds x p 3 then smFree p 3 x else x)
      { st with sf := { st.sf with heartbeatOk := true } }) s)

/-- FIBRE_POWER_HOLD (R468): a reading at or below 9.0 mW only raises FIBRE_MAX_UW. -/
def execFibrePowerHold (p fibre uw : Nat) (s : State) : Out :=
  guardUnit (decide (p < 10) && decide (fibre < 5)) <|
    let m := Nat.min 65535 (Nat.max uw (tget 0 s.sf.fibreMax p))
    let s1 := keepMax (4620 + p) (Nat.min 65535 uw) { s with sf := { s.sf with fibreMax := tput 0 s.sf.fibreMax p m } }
    if uw ≤ 9000 then s1
    else
      let s2 := { s1 with sf := { s1.sf with fibreHigh := tput false s1.sf.fibreHigh (8 * p + fibre) true,
                                             counts := taddSat s1.sf.counts 2 1 } }
      reportHold 0x11 (2 ^ p) (relamp p (smHold p 2 s2))

/-- A trip as far as the drive of SAFE_LOOP (R473, R477, Table 15.4). -/
def tripNow (cause value die : Nat) (s : State) : State :=
  let s1 := storeTrip cause value die (tripLines s)
  let s2 := bbEvent 0x0007 [BitVec.ofNat 8 s.pw.state.code, 4] s1
  { s2 with sf := { s2.sf with loopDriving := true, loopLow := true } }

/-- SAFETY_TRIP (R472, R473): causes 0x01 to 0x04 of Table 15.3. -/
def execSafetyTrip (cause value die : Nat) (s : State) : Out :=
  .next (whenTaken (decide (1 ≤ cause) && decide (cause ≤ 4) && s.pw.state != .p4 && !s.ws.haltSm)
    (tripNow cause (value % 65536) (if cause ≤ 2 then die % 8 else 0)) s)

/-- TRIP_POWER_OFF (R473). -/
def execTripPowerOff (s : State) : Out :=
  .next (whenTaken (s.sf.tripped && s.ws.haltSm && s.pw.state != .p4) enterP4 s)

/-- FUSE_OPEN (R474): causes 0x05 overcurrent and 0x06 overvoltage. -/
def execFuseOpen (cause value : Nat) (s : State) : Out :=
  .next (whenTaken ((cause == 5 || cause == 6) && s.sf.fuseClosed) (fun st =>
    let s1 := { st with sf := { st.sf with fuseClosed := false } }
    if s1.pw.state = .p4 || s1.ws.haltSm then s1 else tripNow cause (value % 65536) 0 s1) s)

/-- SAFETY_MONITOR_FAIL (R469): every line asserts, every supply switch opens, and the controller takes the module to P4. -/
def execSafetyMonitorFail (s : State) : Out :=
  let s1 := { s with sf := { s.sf with failed := true }, ws := { s.ws with haltSm := true, portSm := 0x3FF } }
  let s2 := (List.range 10).foldl (fun st p => lineOn p st) s1
  .next (if deepestBound s2 then s2 else beginTransition .p4 none s2)

/-- SAFE_LOOP_DRIVE_END (R477). -/
def execSafeLoopDriveEnd (s : State) : Out :=
  .next (whenTaken s.sf.loopDriving (fun st => { st with sf := { st.sf with loopDriving := false, loopLow := false } }) s)

/-- LOOP_EVENT (R477, R478). -/
def execLoopEvent (s : State) : Out :=
  .next (whenTaken (!s.sf.loopDriving && !s.sf.loopStuck) (fun st =>
    let s1 := { st with sf := { st.sf with loopLow := true, loopEvents := Nat.min 65535 (st.sf.loopEvents + 1),
                                           counts := taddSat st.sf.counts 6 1 } }
    postEvent 0x8004 [0x20] (bbEvent 0x0104 [] s1)) s)

/-- LOOP_STUCK (R478). -/
def execLoopStuck (s : State) : Out := .next { s with sf := { s.sf with loopStuck := true, loopLow := true } }

/-- LOOP_STUCK_END (R478): the line has been high for 1 s. -/
def execLoopStuckEnd (s : State) : Out :=
  .next (whenTaken s.sf.loopStuck (fun st => { st with sf := { st.sf with loopStuck := false, loopLow := false } }) s)

end Sys2Proof.Machine
end

