-- ==== Sys2Proof/Machine/Period.lean ====
section
/-!
DEFINITION. The management period: sensors, power loop, thermal responses, droop, adaptive FCLK, calibrations and guard band,
fifth lasers and heater ranges, telemetry, the black box's accounting and the heartbeat (14 R448 to R459).
-/

namespace Sys2Proof.Machine

open Sys2Proof

/-! ### Step 1: sensors (R454) -/

/-- The hottest junction of a die. -/
def hottest (sensors : List Int) (d : Nat) : Int :=
  (List.range 16).foldl (fun m j => maxInt m (lget 0 sensors (16 * d + j))) (lget 0 sensors (16 * d))

/-- Reads every sensor, and the power of the period. -/
def readSensors (r : Readings) (s : State) : State :=
  let t := (List.range 220).foldl (fun (t : Tbl Int) i => tput 0 t i (lget 0 r.sensors i)) []
  let h := (List.range 8).foldl (fun (t : Tbl Int) d => tput 0 t d (hottest r.sensors d)) []
  { s with pw := { s.pw with sensors := t, hot := h, meanW := r.meanW % 65536, peakW := r.peakW % 65536 } }

/-! ### Step 2: the power loop (R450, R451) -/

/-- The step of the loop in MHz. -/
def loopStep (mean limit : Nat) : Int :=
  let err : Int := (mean : Int) - limit
  if 0 < err then -(Int.ofNat (Nat.max 25 (grid25 (2 * (mean - limit)))))
  else if err < -100 then 25
  else 0

/-- A cap moved by a step, kept from 1,200 to 2,700 MHz. -/
def stepCap (cap : Nat) (step : Int) : Nat := Nat.min (Nat.max ((cap : Int) + step).toNat 1200) 2700

/-- The cap the loop holds for a die. -/
def loopCap (s : State) (d : Nat) : Nat := if capBy s d 1 = 0 then 2700 else capBy s d 1

/-- The power loop; it lifts the cap of R451 after one full period below the effective limit. -/
def powerLoop (r : Readings) (s : State) : State :=
  let limit := effectiveLimit s
  let step := loopStep r.meanW limit
  (List.range 8).foldl (fun st d =>
    let s1 := setCap d 1 (stepCap (loopCap st d) step) st
    if r.peakW < limit then setCap d 6 2700 s1 else s1) s

/-! ### Step 3: thermal responses (R449, R455, Table 14.6) -/

/-- The lowest cap that sources other than one impose on a die. -/
def capBut (s : State) (d src : Nat) : Nat :=
  [1, 2, 3, 4, 5, 6, 7].foldl (fun (b : Nat) k => if k != src && capBy s d k != 0 && decide (capBy s d k < b) then capBy s d k else b) 2700

/-- The thermal cap of a die. -/
def thermalDie (d : Nat) (s : State) : State :=
  let t := tget 0 s.pw.hot d
  let was := tget false s.pw.cooling d
  let cooling := decide (1600 ≤ t) || (was && decide (1552 ≤ t))
  let old := if capBy s d 3 = 0 then 2700 else capBy s d 3
  let from_ := if capBy s d 3 = 0 then (capOf s d).1 else old
  let new := if 1680 ≤ t then 1200 else if cooling then Nat.max 1200 (from_ - 100) else old + 25
  let n := if new < old then 1 else 0
  let s1 := setCap d 3 new s
  { s1 with pw := { s1.pw with cooling := tput false s1.pw.cooling d cooling, counts := taddW s1.pw.counts 8 n } }

/-- A die that recorded more than 1,000 stretches has its cap lowered by 100 MHz for the next 16 periods (R449). -/
def droopDie (d : Nat) (s : State) : State :=
  let n := tget 0 s.pw.stretches d
  let left := tget 0 s.pw.droopHold d
  let s1 := if 1000 < n then
      setCap d 7 (Nat.max 1200 (capBut s d 7 - 100)) { s with pw := { s.pw with droopHold := tput 0 s.pw.droopHold d 16 } }
    else
      let s2 := { s with pw := { s.pw with droopHold := tput 0 s.pw.droopHold d (left - 1) } }
      if left = 1 then setCap d 7 2700 s2 else s2
  { s1 with pw := { s1.pw with stretches := tput 0 s1.pw.stretches d 0 } }

/-- DRAM packages: doubled refresh and halved bandwidth, by package. -/
def dramHeat (s : State) : State :=
  (List.range 32).foldl (fun st i =>
    let t := tget 0 st.pw.sensors (160 + i)
    let half := decide (1520 ≤ t) || (tget false st.pw.bwHalf i && decide (1440 ≤ t))
    { st with pw := { st.pw with refreshDouble := tput false st.pw.refreshDouble i (decide (1360 ≤ t)),
                                 bwHalf := tput false st.pw.bwHalf i half } }) s

/-- The coolant condition: the limit of 1,500 W stands until both readings have been in range for 10 periods. -/
def coolantCheck (s : State) : State :=
  let bad := decide (720 < tget 0 s.pw.sensors 212) || decide (tget 0 s.pw.sensors 214 < 6000)
  if bad then { s with pw := { s.pw with coolant := true, coolantGood := 0 } }
  else if s.pw.coolant then
    let n := s.pw.coolantGood + 1
    { s with pw := { s.pw with coolant := decide (n < 10), coolantGood := if n < 10 then n else 0 } }
  else s

/-- The thermal responses. -/
def thermal (s : State) : State :=
  let s1 := (List.range 8).foldl (fun st d => droopDie d (thermalDie d st)) s
  coolantCheck (dramHeat s1)

/-! ### Step 4: calibrations and the guard band (R456 to R458) -/

/-- Load class of a mean power, and temperature band of a coolant inlet (R456). -/
def classOf (w : Nat) : Nat := if w < 800 then 0 else if w ≤ 1500 then 1 else 2
def bandOf (inlet : Int) : Nat := if inlet ≤ 560 then 0 else if inlet ≤ 640 then 1 else 2

/-- Whether the set of a class and band is stored. -/
def setStored (s : State) (c b : Nat) : Bool := s.pw.stored.getLsbD (3 * c + b)

/-- The set used when none is stored for a class and band: the heaviest class not above, then the nearest band; between two
bands as near, a free one. -/
def nearestSet (s : State) (c b free : Nat) : Nat × Nat :=
  let cs := (List.range 3).filter fun k => decide (k ≤ c) && (List.range 3).any fun j => setStored s k j
  let k := cs.foldl Nat.max 0
  let dist := fun (j : Nat) => if j ≤ b then b - j else j - b
  let order := if free % 2 = 0 then [0, 1, 2] else [2, 1, 0]
  let best := order.foldl (fun (m : Option Nat) j =>
    if !setStored s k j then m
    else
      match m with
      | none => some j
      | some i => if dist j < dist i then some j else m) none
  (k, best.getD b)

/-- Lifts the guard band. -/
def liftGuard (s : State) : State :=
  let s1 := (List.range 8).foldl (fun st d => setCap d 4 2700 st) s
  { s1 with pw := { s1.pw with guard := false, recal := false } }

/-- Imposes the guard band and starts to recalibrate at a tag (R457). -/
def enterGuard (tag : Nat × Nat) (s : State) : State :=
  let s1 := (List.range 8).foldl (fun st d => setCap d 4 2600 st) s
  { s1 with pw := { s1.pw with guard := true, recal := true, recalTag := tag, periods := 0, counts := taddW s1.pw.counts 6 1 } }

/-- A recalibration that has completed stores its set under its tag (R457). -/
def storeSet (s : State) : State :=
  let t := s.pw.recalTag
  { s with pw := { s.pw with stored := s.pw.stored ||| BitVec.ofNat 9 (2 ^ (3 * t.1 + t.2)), recal := false } }

/-- Selects the set of the current class and band (R457, R458). -/
def selectSet (s : State) : State :=
  let c := s.pw.loadClass
  let b := s.pw.band
  if setStored s c b then
    let s1 := { s with pw := { s.pw with usedClass := c, usedBand := b } }
    let gone := s1.pw.guard && s1.pw.recal
    let s2 := if gone then { s1 with pw := { s1.pw with counts := taddW s1.pw.counts 7 1 } } else s1
    if s2.pw.guard then liftGuard s2 else s2
  else
    let r := drawFree s
    let u := nearestSet s c b r.1
    let s1 := { r.2 with pw := { r.2.pw with usedClass := u.1, usedBand := u.2 } }
    if !s1.pw.guard then enterGuard (c, b) s1
    else if s1.pw.recalTag != (c, b) then
      { s1 with pw := { s1.pw with recal := true, recalTag := (c, b), counts := taddW s1.pw.counts 7 1 } }
    else { s1 with pw := { s1.pw with recal := true } }

/-- Checks and advances calibrations. -/
def calibrate (r : Readings) (s : State) : State :=
  let s1 := if s.pw.guard then { s with pw := { s.pw with periods := Nat.min 255 (s.pw.periods + 1) } } else s
  let s2 := { s1 with pw := { s1.pw with loadClass := classOf r.meanW, band := bandOf (tget 0 s1.pw.sensors 212) } }
  selectSet (if r.recalDone && s2.pw.recal then storeSet s2 else s2)

/-- Sets each die's FCLK: the lower of its cap and its AVFS limit, on the grid from 1,200 to 2,700 MHz (R448). -/
def adaptClocks (s : State) : State :=
  if s.pw.state == .p0 || s.pw.state == .p1 then
    (List.range 8).foldl (fun st d =>
      let a := Config.avfsLimitMHz st.pw.usedClass st.pw.usedBand d (tget 0 st.pw.sensors 215) (tget 0 st.pw.hot d)
      let f := Nat.min 2700 (Nat.max 1200 (grid25 (Nat.min (capOf st d).1 a)))
      { st with pw := { st.pw with freq := tput 0 st.pw.freq d f } }) s
  else s

/-! ### Step 5: fifth lasers and heater ranges (R458, R459) -/

/-- A laser of lane l of a port fails: its group's fifth laser is switched in, or the lane stays dark. -/
def laserFails (p l : Nat) (s : State) : State :=
  let w := tget 0 s.pw.laser p
  let f := l / 4
  if 10 ≤ p || 20 ≤ l || w.getLsbD (10 + l) then s
  else
    let w1 := w ||| BitVec.ofNat 32 (2 ^ (10 + l))
    let put := fun (x : W32) (n : Nat) => { s with pw := { s.pw with laser := tput 0 s.pw.laser p x, counts := taddW s.pw.counts 9 n } }
    if w.getLsbD f then put (w1 ||| BitVec.ofNat 32 (2 ^ (5 + f))) 0 else put (w1 ||| BitVec.ofNat 32 (2 ^ f)) 1

/-- A ring of lane l of a port leaves its heater's range: the lane's margin is gone, and it moves (R308, R458). -/
def ringOut (p l : Nat) (s : State) : State :=
  if 10 ≤ p || 20 ≤ l then s
  else
    let s1 := { s with pw := { s.pw with heater := tput 0 s.pw.heater (20 * p + l) 1 } }
    let lanes := fun (v : Port) => ((List.range v.lanes.length).zip v.lanes).map fun e =>
      if e.1 = l then { e.2 with grade := 0, worst := 0 } else e.2
    moveLanes p (modPort s1 p fun v => { v with lanes := lanes v })

/-- Supervises lasers and heaters. -/
def supervise (r : Readings) (s : State) : State :=
  let s1 := r.laserBad.foldl (fun st e => laserFails e.1 e.2 st) s
  r.ringsOut.foldl (fun st e => ringOut e.1 e.2 st) s1

/-! ### Steps 6 to 8 -/

/-- Drains the telemetry queue up to a request that waits for the management plane (R25, R453). -/
def drainTele : Nat → State → State
  | 0, s => s
  | n + 1, s =>
    match s.ws.tele with
    | [] => s
    | m :: _ => if m.kind = 0x16 then s else drainTele n (takeTele m (popTele s))

/-- One period of a refused press's flashes goes by, and of the retraining that follows P2 (Table 15.7, R305). -/
def stepLamps (s0 : State) : State :=
  let s := (List.range 10).foldl (fun st p => modPort st p fun v => { v with relight := v.relight - 1 }) s0
  (List.range 10).foldl (fun st p =>
    if (getPort st p).flash = 0 then st else relamp p (modPort st p fun v => { v with flash := v.flash - 1 })) s

/-- The period's count, and the periods left for a press of the service button. -/
def countPeriod (overrun : Bool) (s : State) : State :=
  let n := taddW s.pw.counts 0 1
  { s with pw := { s.pw with counts := if overrun then taddW n 1 1 else n },
           sc := { s.sc with presenceLeft := s.sc.presenceLeft - 1 } }

/-- The controller records the loss of the reference clock, and the module goes to P4 (R447). -/
def referenceLost (s : State) : State :=
  if s.pw.refLost then
    enterP4 (bbEvent 0x0003 [] { s with rst := { s.rst with supplyFail := true }, pw := { s.pw with refLost := false } })
  else s

/-- Whether the controller runs its periods: its firmware has booted, it is neither restarting nor halted, and the module is not
in P4. -/
def periodRuns (s : State) : Bool :=
  mcRuns s && s.pw.state != .p4 &&
    (match s.rst.bringup with
     | some (.cold, n) => decide (3 ≤ n)
     | _ => true)

/-- The code of the store words meets what befalls them in a period: a corrected error is counted, and an uncorrectable one sets the
poison flag of its sector (R73, R95; log entry 220). -/
def upsetStores (s : State) : State :=
  if !s.rst.dataPlaneOn then s
  else
    match Config.storeUpset (tget 0 s.pw.counts 0).toNat with
    | 0 => s
    | 1 => { s with mem := { s.mem with corrected := s.mem.corrected + 1 } }
    | a + 2 => if isMemory a && !isDram a then setSectorPoison s a true else s

/-- One management period, in the order of R453. -/
def runPeriod (r : Readings) (s : State) : State :=
  let s1 := withCaps (fun st => calibrate r (thermal (powerLoop r (readSensors r st)))) s
  let s2 := supervise r (adaptClocks s1)
  let s3 := if r.overrun then s2 else drainTele (s2.ws.tele.length + s2.ws.held.length) s2
  let s4 := copyOn (accountPeriod r (drainNotes s3))
  let s5 := { s4 with sf := { s4.sf with heartbeatOk := true } }
  referenceLost (countPeriod r.overrun (commitDue (stepLamps (crossAll (upsetStores s5)))))

/-- MANAGEMENT_PERIOD (R453). -/
def execManagementPeriod (r : Readings) (s : State) : Out := .next (whenTaken (periodRuns s) (runPeriod r) s)

end Sys2Proof.Machine
end

