-- ==== Sys2Proof/Machine/SeqCode.lean ====
section
/-!
DEFINITION. The encodings of the sequencer's instructions (R183, R184): the word of each format, and which words are
legal.
-/

namespace Sys2Proof.Machine

open Sys2Proof

/-- Places a field of `w` bits at bit `lo`. -/
def putField {w : Nat} (x : BitVec w) (lo : Nat) : W32 := x.setWidth 32 <<< lo

/-- Format T: op d a b fn (Table 6.2). -/
def encT (op : Nat) (d a b : RField) (fn : Nat) : W32 :=
  BitVec.ofNat 32 (op * 2 ^ 26) ||| putField d 20 ||| putField a 14 ||| putField b 8 ||| BitVec.ofNat 32 (fn % 256)

/-- Format Q: op d a b c fn. -/
def encQ (op : Nat) (d a b c : RField) (fn : Nat) : W32 :=
  BitVec.ofNat 32 (op * 2 ^ 26) ||| putField d 20 ||| putField a 14 ||| putField b 8 ||| putField c 2 |||
    BitVec.ofNat 32 (fn % 4)

/-- Format I: op d a imm14. -/
def encI (op : Nat) (d a : RField) (imm : BitVec 14) : W32 :=
  BitVec.ofNat 32 (op * 2 ^ 26) ||| putField d 20 ||| putField a 14 ||| putField imm 0

/-- Format U: op d imm20; format J has the same places. -/
def encU (op : Nat) (d : RField) (imm : BitVec 20) : W32 :=
  BitVec.ofNat 32 (op * 2 ^ 26) ||| putField d 20 ||| putField imm 0

/-- Format B: op a b off14. -/
def encB (op : Nat) (a b : RField) (off : BitVec 14) : W32 :=
  BitVec.ofNat 32 (op * 2 ^ 26) ||| putField a 20 ||| putField b 14 ||| putField off 0

/-- Format S: op d a w inc fmask off7. -/
def encS (op : Nat) (d a : RField) (w : BitVec 2) (inc : Bool) (fmask : BitVec 4) (off : BitVec 7) : W32 :=
  BitVec.ofNat 32 (op * 2 ^ 26) ||| putField d 20 ||| putField a 14 ||| putField w 12 |||
    BitVec.ofNat 32 (b2n inc * 2 ^ 11) ||| putField fmask 7 ||| putField off 0

/-- Function code of the lane moves: operation in 2:0, lane width in 5:4. -/
def laneFn (op : Nat) (w : BitVec 2) : Nat := op + w.toNat * 16

/-- Function code of the vector operations: operation in 5:0, lane width in 7:6. -/
def vecFn (op : Nat) (w : BitVec 2) : Nat := op + w.toNat * 64

/-- Function code of PTAB: n - 1 in 1:0, grain in 3:2. -/
def ptabFn (n1 g : BitVec 2) : Nat := n1.toNat + g.toNat * 4

/-- Whether a structure access is legal (R189): a nonzero mask within the record, and registers up to W15. -/
def structLegal (n d fmask : Nat) : Bool :=
  let c := b2n (fmask.testBit 0) + b2n (fmask.testBit 1) + b2n (fmask.testBit 2) + b2n (fmask.testBit 3)
  fmask != 0 && decide (fmask < 2 ^ n) && decide (d + c ≤ 16)

/-- Whether a word is a legal instruction (R183, R184, R188 to R190, R193, R194). -/
def seqLegal (word : W32) : Bool :=
  let v := word.toNat
  let op := bitsOf v 31 26
  let d := bitsOf v 25 20
  let a := bitsOf v 19 14
  let b := bitsOf v 13 8
  let fn := bitsOf v 7 0
  let imm := bitsOf v 13 0
  let g := fun x => decide (x ≤ 31)
  let w := fun x => decide (x ≤ 15)
  match op with
  | 0x00 => g d && g a && g b &&
      (decide (fn ≤ 0x0D) || decide (0x10 ≤ fn && fn ≤ 0x13) || (decide (0x14 ≤ fn && fn ≤ 0x15) && b == 0))
  | 0x01 => g d && g a
  | 0x02 => g d && g a
  | 0x03 => g d && g a
  | 0x04 => g d && g a
  | 0x05 => g d && g a
  | 0x06 => g d && g a
  | 0x07 => g d && g a && decide (bitsOf imm 7 6 ≤ 2) && bitsOf imm 13 8 == 0
  | 0x08 => g d
  | 0x10 => g d && g a
  | 0x11 => g d && g a
  | 0x12 => g d && g a
  | 0x13 => g d && g a
  | 0x14 => g d && g a
  | 0x15 => g d && g a
  | 0x16 => g d && g a
  | 0x18 => g d && g a
  | 0x19 => g d && g a
  | 0x1A => g d && g a
  | 0x1B => g d && g a
  | 0x1C => g a
  | 0x1D => g a
  | 0x1E => w d && g a
  | 0x1F => w d && g a
  | 0x20 => g d && g a
  | 0x21 => g d && g a
  | 0x22 => g d && g a
  | 0x23 => g d && g a
  | 0x24 => g d && g a
  | 0x25 => g d && g a
  | 0x26 => g d
  | 0x27 => g d && g a
  | 0x28 =>
      decide (fn ≤ 4) || (decide (5 ≤ fn && fn ≤ 6) && b == 0) || (decide (8 ≤ fn && fn ≤ 0xE) && g d) ||
        (fn == 0x10 && g a && b == 0) || (fn == 0x11 && g d && b == 0)
  | 0x29 => if bitsOf v 1 0 = 3 then g (bitsOf v 7 2) else true
  | 0x2A => w d && w a && w b &&
      (decide (bitsOf fn 5 0 ≤ 0x0A) || (decide (0x10 ≤ bitsOf fn 5 0 && bitsOf fn 5 0 ≤ 0x17) && bitsOf fn 7 6 == 3))
  | 0x2B => w d && w a && w b && w (bitsOf v 7 2) && bitsOf v 1 0 == 0
  | 0x2C => w d && w a && w b && bitsOf fn 7 4 == 0 && decide (a + bitsOf fn 1 0 ≤ 15)
  | 0x2D => bitsOf fn 3 3 == 0 && bitsOf fn 7 6 == 0 &&
      (match bitsOf fn 2 0 with
        | 0 => w d && g a && b == 0
        | 1 => g d && w a && decide (b < 32 / 2 ^ bitsOf fn 5 4)
        | 2 => w d && g a && decide (b < 32 / 2 ^ bitsOf fn 5 4)
        | _ => false)
  | 0x30 => w d && g a && structLegal 2 d (bitsOf v 10 7)
  | 0x31 => w d && g a && structLegal 3 d (bitsOf v 10 7)
  | 0x32 => w d && g a && structLegal 4 d (bitsOf v 10 7)
  | 0x34 => w d && g a && structLegal 2 d (bitsOf v 10 7)
  | 0x35 => w d && g a && structLegal 3 d (bitsOf v 10 7)
  | 0x36 => w d && g a && structLegal 4 d (bitsOf v 10 7)
  | 0x38 => w a && d == 0 && b == 0 && fn == 0
  | 0x39 => w a && d == 0 && b == 0 && fn == 0
  | 0x3A => d == 0 && bitsOf v 19 16 == 0
  | 0x3B => g d && a == 0
  | 0x3C => g d && a == 0
  | 0x3D => d == 0 && a == 0 &&
      (if fn = 1 then decide (b ≤ 3) else decide (fn ≤ 3) && b == 0)
  | 0x3E => d == 0 && g a
  | _ => false

end Sys2Proof.Machine
end

