-- ==== Sys2Proof/Machine/SeqBase.lean ====
section
/-!
DEFINITION. Running one sequencer instruction: when it is taken, the fetch, the program counter, stalls, and taking a
sequencer fault (R179, R200, R201).
-/

namespace Sys2Proof.Machine

open Sys2Proof

/-- What an instruction's own effect answers. -/
inductive SeqRes where
  /-- the core's new state; the program counter moves to the next instruction -/
  | next (c : Core)
  /-- the core's new state and its next program counter -/
  | jump (c : Core) (pc : W64)
  /-- the module's new state; the program counter moves to the next instruction -/
  | whole (s : State)
  /-- the module's new state; the program counter stays -/
  | stay (s : State)
  /-- a sequencer fault with its cause (Table 6.9) -/
  | trap (cause : Nat)
  /-- the instruction waits -/
  | stall

/-- Takes a sequencer fault (R201): the instruction has no effect, every sequencer of the region stops, the run is marked
with the first fault, and its command completes once the phases already running have ended. -/
def seqFault (core cause : Nat) (s : State) : State :=
  let c := getCore s core
  let s1 := setCore s core { c with running := false, fault := some (cause, c.pc) }
  let s2 := match regionOf s1 c.region with
    | some g => g.cores.foldl (fun st i => modCore st i fun k => { k with running := false }) s1
    | none => s1
  let s3 := modRun s2 c.region fun r =>
    if r.seqFault.isSome then r else { r with seqFault := some (clusterOf core, core, cause, c.pc) }
  finishFaulted c.region s3

/-- Whether the core's sequencer executes an instruction now: a program runs, it does not wait at a barrier, and no halt
holds its die (R194, R200). -/
def seqReady (s : State) (core : Nat) : Bool :=
  let c := getCore s core
  c.running && !c.psyncWait && !dieHalted s (dieOfCore core)

/-- Whether the program counter lies in the core's program section, at an instruction (R201). -/
def pcInSection (c : Core) : Bool :=
  decide (c.section_.1 ≤ c.pc.toNat) && decide (c.pc.toNat + 4 ≤ c.section_.2) && decide (c.pc.toNat % 4 = 0)

/-- The word at the program counter (R183). -/
def fetchWord (c : Core) : W32 := BitVec.ofNat 32 (leNat ((List.range 4).map fun i => tget 0 c.imem (c.pc.toNat + i)))

/-- The effect of an answer. -/
def seqApply (core : Nat) (r : SeqRes) (s : State) : State :=
  match r with
  | .next c => setCore s core { c with pc := c.pc + 4 }
  | .jump c pc => setCore s core { c with pc := pc }
  | .whole t => modCore t core fun c => { c with pc := c.pc + 4 }
  | .stay t => t
  | .trap cause => seqFault core cause s
  | .stall => s

/-- One step of a core's sequencer by the instruction whose word is `word`: outside the section a FETCH fault, an illegal
word an ILLEGAL fault, another legal word at the program counter leaves the state as it is (log entry 21), and the
instruction's own effect else. -/
def seqStep (core : Nat) (word : W32) (body : State → Core → SeqRes) (s : State) : Out :=
  guardUnit (decide (core < Config.numCores)) (
    if seqReady s core then
      let c := getCore s core
      if !pcInSection c then seqFault core 4 s
      else if !seqLegal (fetchWord c) then seqFault core 1 s
      else if fetchWord c ≠ word then s
      else seqApply core (body s c) s
    else s)

/-- A form that touches only its own core. -/
def onCore (f : Core → SeqRes) : State → Core → SeqRes := fun _ c => f c

end Sys2Proof.Machine
end

