-- ==== Sys2Proof/Machine/SeqFp.lean ====
section
/-!
DEFINITION. The sequencer's FP64 instructions (R186, R187, Tables 6.3, 6.5).
-/

namespace Sys2Proof.Machine

open Sys2Proof

/-- A register value as an operand. -/
def opndOf (v : PV) : Opnd := ⟨v.1.toNat, v.2⟩
/-- A result back into a register value. -/
def pvOf (x : Opnd) : PV := (BitVec.ofNat 64 x.bits, x.poison)

/-- FP64 add, subtract, multiply, minimum, maximum of two operands (R186); a NaN operand of a difference keeps its own sign
(R59, R94). -/
def fAdd (a b : PV) : PV := pvOf (elemAdd fp64 .rne (opndOf a) (opndOf b))
def fSub (a b : PV) : PV :=
  let x := opndOf a
  let y := opndOf b
  pvOf (opResult fp64 [x, y] (addV (x.val fp64) (negV (y.val fp64))) (fp64.roundElem .rne))
def fMul (a b : PV) : PV := pvOf (elemMul fp64 .rne (opndOf a) (opndOf b))
def fMin (a b : PV) : PV := pvOf (elemMinMax fp64 false (opndOf a) (opndOf b))
def fMax (a b : PV) : PV := pvOf (elemMinMax fp64 true (opndOf a) (opndOf b))

/-- a × b + c, a × b - c and -(a × b) + c with one rounding (R186). -/
def fFma (a b c : PV) : PV := pvOf (elemFma fp64 .rne (opndOf a) (opndOf b) (opndOf c))
def fFms (a b c : PV) : PV :=
  let x := opndOf a
  let y := opndOf b
  let z := opndOf c
  pvOf (opResult fp64 [x, y, z] (fmaV (x.val fp64) (y.val fp64) (negV (z.val fp64))) (fp64.roundElem .rne))
def fFnma (a b c : PV) : PV :=
  let x := opndOf a
  let y := opndOf b
  let z := opndOf c
  pvOf (opResult fp64 [x, y, z] (fmaV (negV (x.val fp64)) (y.val fp64) (z.val fp64)) (fp64.roundElem .rne))

/-- Comparison mask, all ones or zero, with the poison mark of R119. -/
def fCmp (p : Nat) (a b : PV) : PV :=
  let r := elemCmp fp64 p (opndOf a) (opndOf b)
  (if r.1 then BitVec.allOnes 64 else 0, r.2)

/-- Fd ← Fa op Fb. -/
def fpBin (d a b : RField) (op : PV → PV → PV) (c : Core) : SeqRes :=
  .next (writeF c d.toNat (op (readF c a.toNat) (readF c b.toNat)))

/-- Fd ← op Fa. -/
def fpUn (d a : RField) (op : W64 → W64) (c : Core) : SeqRes :=
  let x := readF c a.toNat
  .next (writeF c d.toNat (op x.1, x.2))

/-- Gd ← Fa p Fb. -/
def fpCmp (d a b : RField) (p : Nat) (c : Core) : SeqRes :=
  .next (writeG c d (fCmp p (readF c a.toNat) (readF c b.toNat)))

/-- Fd ← op Fa Fb Fc. -/
def fpTri (d a b x : RField) (op : PV → PV → PV → PV) (c : Core) : SeqRes :=
  .next (writeF c d.toNat (op (readF c a.toNat) (readF c b.toNat) (readF c x.toNat)))

/-- FADD: Fd ← Fa op Fb in FP64, to nearest even (R186). -/
def execFadd (core : Nat) (d a b : RField) (s : State) : Out :=
  seqStep core (encT 0x28 d a b 0) (onCore (fpBin d a b fAdd)) s

/-- FSUB: Fd ← Fa op Fb in FP64, to nearest even (R186). -/
def execFsub (core : Nat) (d a b : RField) (s : State) : Out :=
  seqStep core (encT 0x28 d a b 1) (onCore (fpBin d a b fSub)) s

/-- FMUL: Fd ← Fa op Fb in FP64, to nearest even (R186). -/
def execFmul (core : Nat) (d a b : RField) (s : State) : Out :=
  seqStep core (encT 0x28 d a b 2) (onCore (fpBin d a b fMul)) s

/-- FMIN: Fd ← Fa op Fb in FP64, to nearest even (R186). -/
def execFmin (core : Nat) (d a b : RField) (s : State) : Out :=
  seqStep core (encT 0x28 d a b 3) (onCore (fpBin d a b fMin)) s

/-- FMAX: Fd ← Fa op Fb in FP64, to nearest even (R186). -/
def execFmax (core : Nat) (d a b : RField) (s : State) : Out :=
  seqStep core (encT 0x28 d a b 4) (onCore (fpBin d a b fMax)) s

/-- FNEG: Fd ← Fa with its sign bit inverted, NaNs included (R186). -/
def execFneg (core : Nat) (d a : RField) (s : State) : Out :=
  seqStep core (encT 0x28 d a 0 5) (onCore (fpUn d a fun x => x ^^^ (1 <<< 63))) s

/-- FABS: Fd ← Fa with its sign bit cleared, NaNs included (R186). -/
def execFabs (core : Nat) (d a : RField) (s : State) : Out :=
  seqStep core (encT 0x28 d a 0 6) (onCore (fpUn d a fun x => x &&& ~~~ ((1 : W64) <<< 63))) s

/-- FCMP.EQ: Gd ← all ones if Fa p Fb, else zero (R184, R186). -/
def execFcmpEq (core : Nat) (d a b : RField) (s : State) : Out :=
  seqStep core (encT 0x28 d a b 0x8) (onCore (fpCmp d a b 0)) s

/-- FCMP.NE: Gd ← all ones if Fa p Fb, else zero (R184, R186). -/
def execFcmpNe (core : Nat) (d a b : RField) (s : State) : Out :=
  seqStep core (encT 0x28 d a b 0x9) (onCore (fpCmp d a b 1)) s

/-- FCMP.LT: Gd ← all ones if Fa p Fb, else zero (R184, R186). -/
def execFcmpLt (core : Nat) (d a b : RField) (s : State) : Out :=
  seqStep core (encT 0x28 d a b 0xa) (onCore (fpCmp d a b 2)) s

/-- FCMP.LE: Gd ← all ones if Fa p Fb, else zero (R184, R186). -/
def execFcmpLe (core : Nat) (d a b : RField) (s : State) : Out :=
  seqStep core (encT 0x28 d a b 0xb) (onCore (fpCmp d a b 3)) s

/-- FCMP.GT: Gd ← all ones if Fa p Fb, else zero (R184, R186). -/
def execFcmpGt (core : Nat) (d a b : RField) (s : State) : Out :=
  seqStep core (encT 0x28 d a b 0xc) (onCore (fpCmp d a b 4)) s

/-- FCMP.GE: Gd ← all ones if Fa p Fb, else zero (R184, R186). -/
def execFcmpGe (core : Nat) (d a b : RField) (s : State) : Out :=
  seqStep core (encT 0x28 d a b 0xd) (onCore (fpCmp d a b 5)) s

/-- FCMP.UN: Gd ← all ones if Fa p Fb, else zero (R184, R186). -/
def execFcmpUn (core : Nat) (d a b : RField) (s : State) : Out :=
  seqStep core (encT 0x28 d a b 0xe) (onCore (fpCmp d a b 6)) s

/-- FMA: Fd ← Fa × Fb + Fc, one rounding (R184, R186). -/
def execFma (core : Nat) (d a b c : RField) (s : State) : Out :=
  seqStep core (encQ 0x29 d a b c 0) (onCore (fpTri d a b c fFma)) s

/-- FMS: Fd ← Fa × Fb - Fc, one rounding (R184, R186). -/
def execFms (core : Nat) (d a b c : RField) (s : State) : Out :=
  seqStep core (encQ 0x29 d a b c 1) (onCore (fpTri d a b c fFms)) s

/-- FNMA: Fd ← -(Fa × Fb) + Fc, one rounding (R184, R186). -/
def execFnma (core : Nat) (d a b c : RField) (s : State) : Out :=
  seqStep core (encQ 0x29 d a b c 2) (onCore (fpTri d a b c fFnma)) s

/-- FMVGF: Fd ← bits of Ga (R187). -/
def execFmvgf (core : Nat) (d a : RField) (s : State) : Out :=
  seqStep core (encT 0x28 d a 0 0x10) (onCore fun c => .next (writeF c d.toNat (readG c a))) s

/-- FMVFG: Gd ← bits of Fa (R187). -/
def execFmvfg (core : Nat) (d a : RField) (s : State) : Out :=
  seqStep core (encT 0x28 d a 0 0x11) (onCore fun c => .next (writeG c d (readF c a.toNat))) s

/-- FSEL: Fd ← Fa where Gc ≠ 0, else Fb; a poisoned selector poisons the result (R119, R178, R184). -/
def execFsel (core : Nat) (d a b c : RField) (s : State) : Out :=
  seqStep core (encQ 0x29 d a b c 3) (onCore fun k =>
    let m := readG k c
    let v := if m.1 ≠ 0 then readF k a.toNat else readF k b.toNat
    .next (writeF k d.toNat (if m.2 then (BitVec.ofNat 64 fp64.poisonBits, true) else v))) s

end Sys2Proof.Machine
end

