-- ==== Sys2Proof/Machine/SeqInt.lean ====
section
/-!
DEFINITION. The sequencer's integer instructions, branches and jumps (R184, R185, Tables 6.3, 6.4).
-/

namespace Sys2Proof.Machine

open Sys2Proof

/-- Gd ← Ga op Gb; poison of either operand passes on (R178, R184). -/
def aluG (d a b : RField) (op : W64 → W64 → W64) (c : Core) : SeqRes :=
  let x := readG c a
  let y := readG c b
  .next (writeG c d (op x.1 y.1, x.2 || y.2))

/-- Gd ← op Ga. -/
def aluG1 (d a : RField) (op : W64 → W64) (c : Core) : SeqRes :=
  let x := readG c a
  .next (writeG c d (op x.1, x.2))

/-- A Boolean as 1 or 0. -/
def w64OfBool (b : Bool) : W64 := if b then 1 else 0

/-- Leading zeros of a 64-bit word, 0 to 64. -/
def clz64 (x : W64) : W64 := if x = 0 then 64 else BitVec.ofNat 64 (63 - Nat.log2 x.toNat)

/-- Set bits of a 64-bit word. -/
def popc64 (x : W64) : W64 := BitVec.ofNat 64 ((List.range 64).foldl (fun n i => n + b2n (x.getLsbD i)) 0)

/-- Shift amount: bits 5:0 (R185). -/
def shamt (x : W64) : Nat := bits64 x 5 0

/-- ADD: Gd ← Ga + Gb modulo 2^64 (R185). -/
def execAdd (core : Nat) (d a b : RField) (s : State) : Out :=
  seqStep core (encT 0 d a b 0x0) (onCore (aluG d a b fun x y => x + y)) s

/-- SUB: Gd ← Ga - Gb (R185). -/
def execSub (core : Nat) (d a b : RField) (s : State) : Out :=
  seqStep core (encT 0 d a b 0x1) (onCore (aluG d a b fun x y => x - y)) s

/-- AND: bitwise AND (R184). -/
def execAnd (core : Nat) (d a b : RField) (s : State) : Out :=
  seqStep core (encT 0 d a b 0x2) (onCore (aluG d a b fun x y => x &&& y)) s

/-- OR: bitwise OR (R184). -/
def execOr (core : Nat) (d a b : RField) (s : State) : Out :=
  seqStep core (encT 0 d a b 0x3) (onCore (aluG d a b fun x y => x ||| y)) s

/-- XOR: bitwise XOR (R184). -/
def execXor (core : Nat) (d a b : RField) (s : State) : Out :=
  seqStep core (encT 0 d a b 0x4) (onCore (aluG d a b fun x y => x ^^^ y)) s

/-- SLL: shift left by bits 5:0 of Gb (R185). -/
def execSll (core : Nat) (d a b : RField) (s : State) : Out :=
  seqStep core (encT 0 d a b 0x5) (onCore (aluG d a b fun x y => x <<< shamt y)) s

/-- SRL: logical shift right (R185). -/
def execSrl (core : Nat) (d a b : RField) (s : State) : Out :=
  seqStep core (encT 0 d a b 0x6) (onCore (aluG d a b fun x y => x >>> shamt y)) s

/-- SRA: arithmetic shift right (R185). -/
def execSra (core : Nat) (d a b : RField) (s : State) : Out :=
  seqStep core (encT 0 d a b 0x7) (onCore (aluG d a b fun x y => x.sshiftRight (shamt y))) s

/-- SLT: 1 if Ga < Gb signed, else 0 (R184). -/
def execSlt (core : Nat) (d a b : RField) (s : State) : Out :=
  seqStep core (encT 0 d a b 0x8) (onCore (aluG d a b fun x y => w64OfBool (x.slt y))) s

/-- SLTU: unsigned set-less-than (R184). -/
def execSltu (core : Nat) (d a b : RField) (s : State) : Out :=
  seqStep core (encT 0 d a b 0x9) (onCore (aluG d a b fun x y => w64OfBool (x.ult y))) s

/-- MIN: signed minimum (R184). -/
def execMin (core : Nat) (d a b : RField) (s : State) : Out :=
  seqStep core (encT 0 d a b 0xa) (onCore (aluG d a b fun x y => if y.slt x then y else x)) s

/-- MAX: signed maximum (R184). -/
def execMax (core : Nat) (d a b : RField) (s : State) : Out :=
  seqStep core (encT 0 d a b 0xb) (onCore (aluG d a b fun x y => if x.slt y then y else x)) s

/-- MINU: unsigned minimum (R184). -/
def execMinu (core : Nat) (d a b : RField) (s : State) : Out :=
  seqStep core (encT 0 d a b 0xc) (onCore (aluG d a b fun x y => if y.ult x then y else x)) s

/-- MAXU: unsigned maximum (R184). -/
def execMaxu (core : Nat) (d a b : RField) (s : State) : Out :=
  seqStep core (encT 0 d a b 0xd) (onCore (aluG d a b fun x y => if x.ult y then y else x)) s

/-- MUL: low 64 bits of the product (R184). -/
def execMul (core : Nat) (d a b : RField) (s : State) : Out :=
  seqStep core (encT 0 d a b 0x10) (onCore (aluG d a b fun x y => x * y)) s

/-- MULHU: high 64 bits of the unsigned product (R184). -/
def execMulhu (core : Nat) (d a b : RField) (s : State) : Out :=
  seqStep core (encT 0 d a b 0x11) (onCore (aluG d a b fun x y => BitVec.ofNat 64 (x.toNat * y.toNat / 2 ^ 64))) s

/-- DIVU: unsigned divide; by zero, all ones (R185). -/
def execDivu (core : Nat) (d a b : RField) (s : State) : Out :=
  seqStep core (encT 0 d a b 0x12) (onCore (aluG d a b fun x y => if y = 0 then BitVec.allOnes 64 else x.udiv y)) s

/-- REMU: unsigned remainder; by zero, Ga (R185). -/
def execRemu (core : Nat) (d a b : RField) (s : State) : Out :=
  seqStep core (encT 0 d a b 0x13) (onCore (aluG d a b fun x y => if y = 0 then x else x.umod y)) s

/-- CLZ: leading zeros of Ga, 0 to 64 (R184). -/
def execClz (core : Nat) (d a : RField) (s : State) : Out :=
  seqStep core (encT 0 d a 0 0x14) (onCore (aluG1 d a clz64)) s

/-- POPC: set bits of Ga (R184). -/
def execPopc (core : Nat) (d a : RField) (s : State) : Out :=
  seqStep core (encT 0 d a 0 0x15) (onCore (aluG1 d a popc64)) s

/-- ADDI: Gd ← Ga + sext(imm14) (R184). -/
def execAddi (core : Nat) (d a : RField) (imm : BitVec 14) (s : State) : Out :=
  seqStep core (encI 1 d a imm) (onCore (aluG1 d a fun x => x + sext64 imm)) s

/-- ANDI: Gd ← Ga AND sext(imm14) (R184). -/
def execAndi (core : Nat) (d a : RField) (imm : BitVec 14) (s : State) : Out :=
  seqStep core (encI 2 d a imm) (onCore (aluG1 d a fun x => x &&& sext64 imm)) s

/-- ORI: Gd ← Ga OR sext(imm14) (R184). -/
def execOri (core : Nat) (d a : RField) (imm : BitVec 14) (s : State) : Out :=
  seqStep core (encI 3 d a imm) (onCore (aluG1 d a fun x => x ||| sext64 imm)) s

/-- XORI: Gd ← Ga XOR sext(imm14) (R184). -/
def execXori (core : Nat) (d a : RField) (imm : BitVec 14) (s : State) : Out :=
  seqStep core (encI 4 d a imm) (onCore (aluG1 d a fun x => x ^^^ sext64 imm)) s

/-- SLTI: Gd ← 1 if Ga < sext(imm14) signed, else 0 (R184). -/
def execSlti (core : Nat) (d a : RField) (imm : BitVec 14) (s : State) : Out :=
  seqStep core (encI 5 d a imm) (onCore (aluG1 d a fun x => w64OfBool (x.slt (sext64 imm)))) s

/-- SLTIU: Gd ← 1 if Ga < sext(imm14) unsigned, else 0 (R184). -/
def execSltiu (core : Nat) (d a : RField) (imm : BitVec 14) (s : State) : Out :=
  seqStep core (encI 6 d a imm) (onCore (aluG1 d a fun x => w64OfBool (x.ult (sext64 imm)))) s

/-- SLLI: SHI with imm[7:6] = 0: Gd ← Ga, shift left by imm[5:0] (R184). -/
def execSlli (core : Nat) (d a : RField) (sh : BitVec 6) (s : State) : Out :=
  seqStep core (encI 7 d a (BitVec.ofNat 14 (0 * 64) ||| sh.setWidth 14)) (onCore (aluG1 d a fun x => x <<< sh.toNat)) s

/-- SRLI: SHI with imm[7:6] = 1: Gd ← Ga, logical shift right by imm[5:0] (R184). -/
def execSrli (core : Nat) (d a : RField) (sh : BitVec 6) (s : State) : Out :=
  seqStep core (encI 7 d a (BitVec.ofNat 14 (1 * 64) ||| sh.setWidth 14)) (onCore (aluG1 d a fun x => x >>> sh.toNat)) s

/-- SRAI: SHI with imm[7:6] = 2: Gd ← Ga, arithmetic shift right by imm[5:0] (R184). -/
def execSrai (core : Nat) (d a : RField) (sh : BitVec 6) (s : State) : Out :=
  seqStep core (encI 7 d a (BitVec.ofNat 14 (2 * 64) ||| sh.setWidth 14)) (onCore (aluG1 d a fun x => x.sshiftRight sh.toNat)) s

/-- LUI: Gd ← sext(imm20) << 14 (R184). -/
def execLui (core : Nat) (d : RField) (imm : BitVec 20) (s : State) : Out :=
  seqStep core (encU 8 d imm) (onCore fun c => .next (writeG c d (sext64 imm <<< 14, false))) s

/-- A branch: if Ga cond Gb, PC ← PC + 4 × off14; a poisoned condition operand is a fault (R184, R201). -/
def branch (a b : RField) (off : BitVec 14) (cond : W64 → W64 → Bool) (c : Core) : SeqRes :=
  let x := readG c a
  let y := readG c b
  if x.2 || y.2 then .trap 5
  else if cond x.1 y.1 then .jump c (c.pc + 4 * sext64 off)
  else .next c

/-- BEQ (R184). -/
def execBeq (core : Nat) (a b : RField) (off : BitVec 14) (s : State) : Out :=
  seqStep core (encB 0x20 a b off) (onCore (branch a b off fun x y => x == y)) s

/-- BNE (R184). -/
def execBne (core : Nat) (a b : RField) (off : BitVec 14) (s : State) : Out :=
  seqStep core (encB 0x21 a b off) (onCore (branch a b off fun x y => x != y)) s

/-- BLT (R184). -/
def execBlt (core : Nat) (a b : RField) (off : BitVec 14) (s : State) : Out :=
  seqStep core (encB 0x22 a b off) (onCore (branch a b off fun x y => x.slt y)) s

/-- BGE (R184). -/
def execBge (core : Nat) (a b : RField) (off : BitVec 14) (s : State) : Out :=
  seqStep core (encB 0x23 a b off) (onCore (branch a b off fun x y => !x.slt y)) s

/-- BLTU (R184). -/
def execBltu (core : Nat) (a b : RField) (off : BitVec 14) (s : State) : Out :=
  seqStep core (encB 0x24 a b off) (onCore (branch a b off fun x y => x.ult y)) s

/-- BGEU (R184). -/
def execBgeu (core : Nat) (a b : RField) (off : BitVec 14) (s : State) : Out :=
  seqStep core (encB 0x25 a b off) (onCore (branch a b off fun x y => !x.ult y)) s

/-- JAL (R184): Gd ← PC + 4; PC ← PC + 4 × off20. -/
def execJal (core : Nat) (d : RField) (off : BitVec 20) (s : State) : Out :=
  seqStep core (encU 0x26 d off) (onCore fun c =>
    .jump (writeG c d (c.pc + 4, false)) (c.pc + 4 * sext64 off)) s

/-- JALR (R184): Gd ← PC + 4; PC ← (Ga + imm14) with bits 1:0 cleared; a poisoned target is a fault (R201). -/
def execJalr (core : Nat) (d a : RField) (imm : BitVec 14) (s : State) : Out :=
  seqStep core (encI 0x27 d a imm) (onCore fun c =>
    let t := seqAddr c a (sext64 imm)
    if t.2 then .trap 5
    else .jump (writeG c d (c.pc + 4, false)) (t.1 &&& ~~~ (3 : W64))) s

end Sys2Proof.Machine
end

