-- ==== Sys2Proof/Machine/SeqMem.lean ====
section
/-!
DEFINITION. The sequencer's loads and stores, scalar, vector and structure (R178, R180 to R182, R185, R189, R196, R198).
-/

namespace Sys2Proof.Machine

open Sys2Proof

/-- Where an access lands, or why it does not (R181, R185, R198, R201). -/
inductive Access where
  | at_ (m : SeqMem) (off : Nat)
  | trap (cause : Nat)
  | stall
  deriving DecidableEq, Repr

/-- Checks an access of `n` bytes that must be aligned to `al`: a poisoned base, then alignment, then the address map, the
windows and instruction memory, then the wait of R198. -/
def seqAccess (s : State) (c : Core) (addr : PV) (n al : Nat) (write : Bool) : Access :=
  if addr.2 then .trap 5
  else if addr.1.toNat % al ≠ 0 then .trap 2
  else
    match seqMemOf addr.1 n with
    | none => .trap 3
    | some (m, off) =>
      match m with
      | .imem => if write then .trap 3 else .at_ m off
      | .cstore =>
        match regionOf s c.region with
        | none => .trap 3
        | some r =>
          if !inProgramWindow r write off n then .trap 3
          else if mustWait c write off n then .stall
          else .at_ m off
      | _ => .at_ m off

/-- Runs `f` where the access lands. -/
def withAccess (a : Access) (f : SeqMem → Nat → SeqRes) : SeqRes :=
  match a with
  | .at_ m off => f m off
  | .trap n => .trap n
  | .stall => .stall

/-- A scalar load of `n` bytes, sign- or zero-extended by `ext` (R184, R185). -/
def loadG (core n : Nat) (d a : RField) (imm : BitVec 14) (ext : Nat → W64) (s : State) (c : Core) : SeqRes :=
  withAccess (seqAccess s c (seqAddr c a (sext64 imm)) n n false) fun m off =>
    let v := bytesPV (seqRead s core c m off n)
    .next (writeG c d (ext v.1, v.2))

/-- A scalar store of the low `n` bytes of Gd (R178, R184). -/
def storeG (core n : Nat) (d a : RField) (imm : BitVec 14) (s : State) (c : Core) : SeqRes :=
  withAccess (seqAccess s c (seqAddr c a (sext64 imm)) n n true) fun m off =>
    let v := readG c d
    .whole (seqWrite s core m off (leBytes n v.1.toNat) v.2)

/-- Sign extension from `n` bytes. -/
def sextBytes (n v : Nat) : W64 := BitVec.ofInt 64 (signedOf (8 * n) v)
/-- Zero extension. -/
def zextBytes (v : Nat) : W64 := BitVec.ofNat 64 v

/-- LB: 1 byte at Ga + imm14, sign-extended (R184, R196). -/
def execLb (core : Nat) (d a : RField) (imm : BitVec 14) (s : State) : Out :=
  seqStep core (encI 0x10 d a imm) (loadG core 1 d a imm (sextBytes 1)) s

/-- LBU: 1 byte at Ga + imm14, zero-extended (R184, R196). -/
def execLbu (core : Nat) (d a : RField) (imm : BitVec 14) (s : State) : Out :=
  seqStep core (encI 0x11 d a imm) (loadG core 1 d a imm zextBytes) s

/-- LH: 2 bytes at Ga + imm14, sign-extended (R184, R196). -/
def execLh (core : Nat) (d a : RField) (imm : BitVec 14) (s : State) : Out :=
  seqStep core (encI 0x12 d a imm) (loadG core 2 d a imm (sextBytes 2)) s

/-- LHU: 2 bytes at Ga + imm14, zero-extended (R184, R196). -/
def execLhu (core : Nat) (d a : RField) (imm : BitVec 14) (s : State) : Out :=
  seqStep core (encI 0x13 d a imm) (loadG core 2 d a imm zextBytes) s

/-- LW: 4 bytes at Ga + imm14, sign-extended (R184, R196). -/
def execLw (core : Nat) (d a : RField) (imm : BitVec 14) (s : State) : Out :=
  seqStep core (encI 0x14 d a imm) (loadG core 4 d a imm (sextBytes 4)) s

/-- LWU: 4 bytes at Ga + imm14, zero-extended (R184, R196). -/
def execLwu (core : Nat) (d a : RField) (imm : BitVec 14) (s : State) : Out :=
  seqStep core (encI 0x15 d a imm) (loadG core 4 d a imm zextBytes) s

/-- LD: 8 bytes at Ga + imm14, zero-extended (R184, R196). -/
def execLd (core : Nat) (d a : RField) (imm : BitVec 14) (s : State) : Out :=
  seqStep core (encI 0x16 d a imm) (loadG core 8 d a imm zextBytes) s

/-- SB: low 1 byte of Gd at Ga + imm14 (R184, R196). -/
def execSb (core : Nat) (d a : RField) (imm : BitVec 14) (s : State) : Out :=
  seqStep core (encI 0x18 d a imm) (storeG core 1 d a imm) s

/-- SH: low 2 bytes of Gd at Ga + imm14 (R184, R196). -/
def execSh (core : Nat) (d a : RField) (imm : BitVec 14) (s : State) : Out :=
  seqStep core (encI 0x19 d a imm) (storeG core 2 d a imm) s

/-- SW: low 4 bytes of Gd at Ga + imm14 (R184, R196). -/
def execSw (core : Nat) (d a : RField) (imm : BitVec 14) (s : State) : Out :=
  seqStep core (encI 0x1a d a imm) (storeG core 4 d a imm) s

/-- SD: low 8 bytes of Gd at Ga + imm14 (R184, R196). -/
def execSd (core : Nat) (d a : RField) (imm : BitVec 14) (s : State) : Out :=
  seqStep core (encI 0x1b d a imm) (storeG core 8 d a imm) s

/-- FLD: 8 bytes into Fd (R178, R184). -/
def execFld (core : Nat) (d a : RField) (imm : BitVec 14) (s : State) : Out :=
  seqStep core (encI 0x1C d a imm) (fun s c =>
    withAccess (seqAccess s c (seqAddr c a (sext64 imm)) 8 8 false) fun m off =>
      let v := bytesPV (seqRead s core c m off 8)
      .next (writeF c d.toNat (zextBytes v.1, v.2))) s

/-- FSD: Fd as 8 bytes; a poisoned value is stored as the FP64 poison encoding (R178). -/
def execFsd (core : Nat) (d a : RField) (imm : BitVec 14) (s : State) : Out :=
  seqStep core (encI 0x1D d a imm) (fun s c =>
    withAccess (seqAccess s c (seqAddr c a (sext64 imm)) 8 8 true) fun m off =>
      let v := readF c d.toNat
      let bits := if v.2 then fp64.poisonBits else v.1.toNat
      .whole (seqWrite s core m off (leBytes 8 bits) false)) s

/-- VLD: 32 bytes at Ga + 32 × imm14 into Wd, each lane with the poison of its bytes (R178, R184). -/
def execVld (core : Nat) (d a : RField) (imm : BitVec 14) (s : State) : Out :=
  seqStep core (encI 0x1E d a imm) (fun s c =>
    withAccess (seqAccess s c (seqAddr c a (32 * sext64 imm)) 32 32 false) fun m off =>
      .next (writeW c d.toNat ((List.range 4).map fun k =>
        let v := bytesPV (seqRead s core c m (off + 8 * k) 8)
        (zextBytes v.1, v.2)))) s

/-- VST: Wd as 32 bytes; a poisoned lane poisons the sector written (R178, R184). -/
def execVst (core : Nat) (d a : RField) (imm : BitVec 14) (s : State) : Out :=
  seqStep core (encI 0x1F d a imm) (fun s c =>
    withAccess (seqAccess s c (seqAddr c a (32 * sext64 imm)) 32 32 true) fun m off =>
      let vs := readW c d.toNat
      .whole (seqWrite s core m off (leBytes 32 (wNat vs)) (vs.any Prod.snd))) s

/-! ### Structure accesses (R189) -/

/-- Fields a mask selects, ascending. -/
def maskFields (fmask : BitVec 4) : List Nat := (List.range 4).filter fun i => fmask.getLsbD i

/-- Offset in the group of field `k` of record `j`, with `n` fields of `e` bytes. -/
def structOff (n e j k : Nat) : Nat := (j * n + k) * e

/-- One field over all records of a group, as a W register. -/
def structField (s : State) (core : Nat) (c : Core) (m : SeqMem) (off n e k : Nat) : List PV :=
  let els := (List.range (32 / e)).map fun j => bytesPV (seqRead s core c m (off + structOff n e j k) e)
  let x := els.foldr (fun v acc => v.1 + 2 ^ (8 * e) * acc) 0
  wLanes x fun lane => (List.range (8 / e)).any fun i => (lget (0, false) els (lane * (8 / e) + i)).2

/-- Loads the selected fields into W registers from `r` up. -/
def structLoad (s : State) (core : Nat) (m : SeqMem) (off n e : Nat) : Nat → List Nat → Core → Core
  | _, [], c => c
  | r, k :: ks, c => structLoad s core m off n e (r + 1) ks (writeW c r (structField s core c m off n e k))

/-- Bytes a structure store writes: offset in the group, the element's bytes, its lane's poison. -/
def structItems (c : Core) (n e : Nat) : Nat → List Nat → List (Nat × List Byte × Bool)
  | _, [] => []
  | r, k :: ks =>
    let vs := readW c r
    ((List.range (32 / e)).map fun j =>
      (structOff n e j k, leBytes e (wNat vs / 2 ^ (8 * e * j)), laneP vs (j * e / 8))) ++ structItems c n e (r + 1) ks

/-- Writes the items that fall in one sector: a sector whose 32 bytes are all written is written whole (R262). -/
def writeSectorItems (s : State) (core : Nat) (m : SeqMem) (off sec : Nat) (items : List (Nat × List Byte × Bool)) : State :=
  let mine := items.filter fun x => (off + x.1) / 32 == sec
  if mine.foldl (fun n x => n + x.2.1.length) 0 = 32 then
    let bytes := mine.foldl (fun (b : List Byte) x => splice b ((off + x.1) % 32) x.2.1) (List.replicate 32 0)
    seqWrite s core m (sec * 32) bytes (mine.any fun x => x.2.2)
  else mine.foldl (fun st x => seqWrite st core m (off + x.1) x.2.1 x.2.2) s

/-- Base write-back after the access (R189). -/
def structInc (inc : Bool) (a : RField) (n : Nat) (c : Core) : Core :=
  if inc then
    let v := readG c a
    writeG c a (v.1 + BitVec.ofNat 64 (32 * n), v.2)
  else c

/-- SLDV.n. -/
def sldv (core op n : Nat) (d a : RField) (w : BitVec 2) (inc : Bool) (fmask : BitVec 4) (off : BitVec 7) (s : State) : Out :=
  seqStep core (encS op d a w inc fmask off) (fun s c =>
    let e := 2 ^ w.toNat
    withAccess (seqAccess s c (seqAddr c a (BitVec.ofNat 64 (32 * n) * sext64 off)) (32 * n) e false) fun m o =>
      .next (structInc inc a n (structLoad s core m o n e d.toNat (maskFields fmask) c))) s

/-- SSTV.n. -/
def sstv (core op n : Nat) (d a : RField) (w : BitVec 2) (inc : Bool) (fmask : BitVec 4) (off : BitVec 7) (s : State) : Out :=
  seqStep core (encS op d a w inc fmask off) (fun s c =>
    let e := 2 ^ w.toNat
    withAccess (seqAccess s c (seqAddr c a (BitVec.ofNat 64 (32 * n) * sext64 off)) (32 * n) e true) fun m o =>
      let items := structItems c n e d.toNat (maskFields fmask)
      let secs := (List.range (n + 1)).map fun i => o / 32 + i
      let t := secs.foldl (fun st sec => writeSectorItems st core m o sec items) s
      .whole (modCore t core (structInc inc a n))) s

/-- SLDV.2 (R189). -/
def execSldv2 (core : Nat) (d a : RField) (w : BitVec 2) (inc : Bool) (fmask : BitVec 4) (off : BitVec 7)
    (s : State) : Out :=
  sldv core 0x30 2 d a w inc fmask off s

/-- SLDV.3 (R189). -/
def execSldv3 (core : Nat) (d a : RField) (w : BitVec 2) (inc : Bool) (fmask : BitVec 4) (off : BitVec 7)
    (s : State) : Out :=
  sldv core 0x31 3 d a w inc fmask off s

/-- SLDV.4 (R189). -/
def execSldv4 (core : Nat) (d a : RField) (w : BitVec 2) (inc : Bool) (fmask : BitVec 4) (off : BitVec 7)
    (s : State) : Out :=
  sldv core 0x32 4 d a w inc fmask off s

/-- SSTV.2 (R189). -/
def execSstv2 (core : Nat) (d a : RField) (w : BitVec 2) (inc : Bool) (fmask : BitVec 4) (off : BitVec 7)
    (s : State) : Out :=
  sstv core 0x34 2 d a w inc fmask off s

/-- SSTV.3 (R189). -/
def execSstv3 (core : Nat) (d a : RField) (w : BitVec 2) (inc : Bool) (fmask : BitVec 4) (off : BitVec 7)
    (s : State) : Out :=
  sstv core 0x35 3 d a w inc fmask off s

/-- SSTV.4 (R189). -/
def execSstv4 (core : Nat) (d a : RField) (w : BitVec 2) (inc : Bool) (fmask : BitVec 4) (off : BitVec 7)
    (s : State) : Out :=
  sstv core 0x36 4 d a w inc fmask off s

end Sys2Proof.Machine
end

