-- ==== Sys2Proof/Machine/Streams.lean ====
section
/-!
DEFINITION. The stream controller, the permute network and the move engine: descriptors, the start and the completion of
streams and moves (R151 to R159, R164, R191, R192, R197 to R199, R246, R247, R280 to R283).
-/

namespace Sys2Proof.Machine

open Sys2Proof

/-! ### Descriptors -/

/-- Whether cell (row r, column c) of a core lies on the edge of port `p` (R80: 0 north, 1 east, 2 south, 3 west). -/
def onEdge (p r c : Nat) : Bool :=
  decide (r ≤ 3) && decide (c ≤ 4) &&
    match p with
    | 0 => r == 0
    | 1 => c == 4
    | 2 => r == 3
    | _ => c == 0

/-- EDGE[i] fields of a stream descriptor, the first `m` of them (Table 6.7). -/
def descEdges (x m : Nat) : List Nat := (List.range m).map fun i => bitsOf x (104 + 5 * i + 4) (104 + 5 * i)

/-- A signed field of a descriptor. -/
def descSigned (x hi lo : Nat) : Int := signedOf (hi + 1 - lo) (bitsOf x hi lo)

/-- The stream a descriptor describes (Table 6.7). -/
def streamOf (x ord : Nat) : Stream :=
  { ord := ord, port := bitsOf x 1 0, dir := bitsOf x 3 2, fmt := bitsOf x 7 4, perm := bitsOf x 11 8,
    param := bitsOf x 13 12, count := bitsOf x 28 16 + 1, base := bitsOf x 52 32, stride := descSigned x 84 64,
    edges := descEdges x (bitsOf x 98 96 + 1), tag := bitsOf x 135 132, tape := false, started := false }

/-- Bits of a stream descriptor outside its fields. -/
def streamRsv (x : Nat) : Bool :=
  bitsOf x 15 14 != 0 || bitsOf x 31 29 != 0 || bitsOf x 63 53 != 0 || bitsOf x 95 85 != 0 || bitsOf x 103 99 != 0 ||
    bitsOf x 131 129 != 0 || bitsOf x 255 136 != 0

/-- Whether an interval of the cluster store lies inside a TAPE window of a list. -/
def insideTape (ws : List Window) (lo hi : Int) : Bool :=
  ws.any fun w => w.kind == 1 && decide ((w.base : Int) ≤ lo) && decide (hi ≤ ((w.base + w.len : Nat) : Int))

/-- Whether an interval of the cluster store meets a TAPE window of a list. -/
def meetsTape (ws : List Window) (lo hi : Int) : Bool :=
  ws.any fun w => w.kind == 1 && overlaps (lo, hi) ((w.base : Int), ((w.base + w.len : Nat) : Int))

/-- Whether alignment and stride fit the element size (Table 5.1).  An E2M1 element takes half a byte; its unit stride is written
as 1 (DESIGN CHOICE, log entry 510). -/
def plainStride (st : Stream) : Bool :=
  if st.fmt = 6 then st.stride == 1
  else decide (st.base % elemBytes st.fmt = 0) && decide (st.stride % (elemBytes st.fmt : Int) = 0)

/-- Whether the stride is one tape entry up or down (R246). -/
def entryStride (st : Stream) : Bool :=
  st.stride == (tapeEntryBytes st.fmt : Int) || st.stride == -(tapeEntryBytes st.fmt : Int)

/-- Whether a stream is a tape stream among windows: its span lies inside a TAPE window, whatever its stride (R246), or its
stride is that of tape entries and it meets a TAPE window or fits no plain stream (R249; log entry 506). -/
def isTapeStream (ws : List Window) (st : Stream) : Bool :=
  decide (st.dir < 2) && decide (tapeEntryBytes st.fmt ≠ 0) && ws.any (fun w => w.kind == 1) &&
    match streamSpan st, streamSpan { st with tape := true } with
    | some x, some y =>
      insideTape ws x.1 x.2 || (entryStride st && (meetsTape ws y.1 y.2 || !plainStride st))
    | _, _ => false

/-- Whether PARAM fits PERM (Table 6.7). -/
def paramOk (perm param : Nat) : Bool :=
  match perm with
  | 2 => decide (param ≤ 2)
  | 3 => decide (param ≤ 2)
  | 4 => decide (param ≤ 1)
  | 5 => decide (param ≤ 1)
  | _ => param == 0

/-- Whether every EDGE entry is an edge cell, of the named port for IN and OUT (R191). -/
def edgesOk (st : Stream) : Bool :=
  st.edges.all fun e =>
    let r := e / 8
    let c := e % 8
    if st.dir = 2 then (List.range 4).any fun p => onEdge p r c else onEdge st.port r c

/-- Whether alignment and stride fit the element size, or for a tape stream the entry size (Table 5.1, R246). -/
def strideOk (st : Stream) : Bool := if st.tape then entryStride st else plainStride st

/-- Whether R151 and R191 accept a descriptor. -/
def streamOk (x : Nat) (st : Stream) : Bool :=
  !streamRsv x && decide (st.dir ≤ 2) && decide (fmtBits st.fmt ≠ 0) && decide (st.perm ≤ 6) &&
    paramOk st.perm st.param && decide (st.edges.length ≤ 5) &&
    ((descEdges x 5).drop st.edges.length).all (· == 0) && edgesOk st && strideOk st

/-- The move a descriptor describes (Table 6.8). -/
def moveOf (x ord core : Nat) : Move :=
  { ord := ord, core := core, dev := bitsOf x 47 0, toDevice := x.testBit 48, cstore := bitsOf x 84 64,
    len := bitsOf x 127 96, tag := bitsOf x 131 128, started := false }

/-- Whether R192 accepts a move descriptor; register space is refused (R164). -/
def moveOk (x : Nat) (m : Move) : Bool :=
  bitsOf x 63 49 == 0 && bitsOf x 95 85 == 0 && bitsOf x 255 132 == 0 && decide (m.dev % 32 = 0) &&
    decide (m.cstore % 32 = 0) && decide (m.len % 32 = 0) && decide (0 < m.len) && decide (m.len ≤ 0x200000) &&
    decide (m.cstore + m.len ≤ 0x200000) &&
    !(decide (m.dev < registerEnd) && decide (registerBase < m.dev + m.len))

/-! ### Windows of the running phase -/

/-- Windows in force on a core: those of the running phase's mask; without a phase none apply (R155, R280). -/
def windowsNow (s : State) (c : Core) : Option (List Window) :=
  c.phase.map fun p =>
    match regionOf s c.region with
    | none => []
    | some r =>
      match r.phases.find? fun e => e.id == p.id with
      | none => []
      | some e => ((List.range r.windows.length).zip r.windows).filterMap fun x =>
          if e.windowMask.getLsbD x.1 then some x.2 else none

/-- Windows among which a stream's issue looks for its TAPE window: those in force, or all of the region's before its phase has
started (log entry 506). -/
def issueWindows (s : State) (c : Core) : List Window :=
  (windowsNow s c).getD (match regionOf s c.region with
    | none => []
    | some r => r.windows)

/-- Whether bytes lie in one window of the kinds given with the access asked. -/
def inWindows (ws : List Window) (kinds : List Nat) (write : Bool) (lo hi : Int) : Bool :=
  ws.any fun w => kinds.contains w.kind && (if write then w.access / 2 % 2 == 1 else w.access % 2 == 1) &&
    decide ((w.base : Int) ≤ lo) && decide (hi ≤ ((w.base + w.len : Nat) : Int))

/-- Bytes of element `n` of a stream: first byte, and one beyond the last. -/
def elemSpan (st : Stream) (n : Nat) : Int × Int :=
  if st.fmt = 6 && !st.tape then (st.base + (n / 2 : Nat), st.base + (n / 2 : Nat) + 1)
  else
    let a : Int := st.base + (n : Int) * st.stride
    (a, a + (if st.tape then tapeEntryBytes st.fmt else elemBytes st.fmt : Nat))

/-- Whether element `n` may be accessed (R155): tape entries in TAPE windows alone (R246, R249). -/
def elemInRange (ws : Option (List Window)) (st : Stream) (n : Nat) : Bool :=
  let x := elemSpan st n
  decide (0 ≤ x.1) && decide (x.2 ≤ 0x200000) &&
    match ws with
    | none => true
    | some l => inWindows l (if st.tape then [1] else [0, 1]) (st.dir == 1) x.1 x.2

/-! ### Elements -/

/-- The poison value of a format on a stream (R281). -/
def poisonElem (fmt : Nat) : Elem :=
  let bits := match fpFmt fmt with
    | some f => if hasPoisonCode fmt then f.poisonBits else 0
    | none => 0
  { bits := BitVec.ofNat 64 bits, fmt := fmt, poison := true, clip := false, tapePoison := false }

/-- Whether some byte of a range lies in a flagged sector. -/
def rangePoison (s : State) (a n : Nat) : Bool := (sectorPieces a n n).any fun p => sectorPoison s p.1

/-- Reads element `n` of a stream from the cluster store (R92, R95, R246, R247). -/
def readElem (s : State) (core : Nat) (st : Stream) (n : Nat) : Elem :=
  let cs := clusterStoreAt (clusterOf core)
  let a := cs + (elemSpan st n).1.toNat
  if st.tape then
    let k := tapeEntryBytes st.fmt
    let b := readBytes s a k
    let sec := rangePoison s a k
    let v := if st.fmt = 6 then field b 0 1 % 16 else field b 0 (k - 1)
    let flags := if st.fmt = 6 then field b 0 1 / 16 else field b (k - 1) 1
    let p := flags.testBit 1 || sec
    { bits := BitVec.ofNat 64 v, fmt := st.fmt, poison := p, clip := flags.testBit 0, tapePoison := p }
  else if st.fmt = 9 || st.fmt = 10 then
    -- a BSI element bears its block's code; the block's other fields follow its 32 partials (R98; log entry 207)
    let w := elemBytes st.fmt
    let first := n / 32 * 32 + (if st.stride < 0 then 31 else 0)
    let x := cs + (elemSpan st first).1.toNat + 32 * w
    let p := rangePoison s a w || rangePoison s x 2 || (readByte s (x + 1)).getLsbD 1
    { bits := BitVec.ofNat 64 (leNat (readBytes s a w) + (readByte s x).toNat * 256 ^ w), fmt := st.fmt, poison := p,
      clip := false, tapePoison := false }
  else if st.fmt = 6 then
    { bits := BitVec.ofNat 64 ((readByte s a).toNat / 2 ^ (4 * (n % 2)) % 16), fmt := 6, poison := sectorPoison s a,
      clip := false, tapePoison := false }
  else
    let k := elemBytes st.fmt
    { bits := BitVec.ofNat 64 (leNat (readBytes s a k)), fmt := st.fmt, poison := rangePoison s a k, clip := false,
      tapePoison := false }

/-- The bytes of a tape entry (Table 8.3, R247). -/
def tapeEntry (e : Elem) : List Byte :=
  let v := (storedAs e).1
  let p := e.poison || e.tapePoison
  if e.fmt = 6 then [BitVec.ofNat 8 (v % 16 + b2n e.clip * 16 + b2n p * 32)]
  else leBytes (tapeEntryBytes e.fmt - 1) v ++ [BitVec.ofNat 8 (b2n e.clip + b2n p * 2)]

/-- Writes element `n` of an OUT stream into the cluster store (R92, R95, R246). -/
def writeElem (s : State) (core : Nat) (st : Stream) (n : Nat) (e0 : Elem) : State :=
  let a := clusterStoreAt (clusterOf core) + (elemSpan st n).1.toNat
  let e := { e0 with fmt := st.fmt }
  if st.tape then writePieces s a (tapeEntry e) false
  else
    let v := storedAs e
    if st.fmt = 6 then
      let old := (readByte s a).toNat
      let b := if n % 2 = 0 then old / 16 * 16 + v.1 % 16 else old % 16 + v.1 % 16 * 16
      writeSector s a [BitVec.ofNat 8 b] v.2
    else writePieces s a (leBytes (elemBytes st.fmt) v.1) v.2

/-! ### The permute network -/

/-- Four bits on a permute lane, with the sidebands of the element they come from (R158). -/
structure Nib where
  v : Nat
  poison : Bool
  clip : Bool
  tape : Bool
  deriving DecidableEq, Repr, Inhabited

/-- A zero nibble. -/
def Nib.zero : Nib := { v := 0, poison := false, clip := false, tape := false }

/-- The nibbles of an element of `k` nibbles. -/
def elemNibs (k : Nat) (e : Elem) : List Nib :=
  (List.range k).map fun i =>
    { v := e.bits.toNat / 16 ^ i % 16, poison := e.poison, clip := e.clip, tape := e.tapePoison }

/-- An element from its nibbles: its sidebands are the OR of theirs (R158). -/
def nibsElem (fmt : Nat) (l : List Nib) : Elem :=
  { bits := BitVec.ofNat 64 (l.foldr (fun x acc => x.v + 16 * acc) 0), fmt := fmt, poison := l.any (·.poison),
    clip := l.any (·.clip), tapePoison := l.any (·.tape) }

/-- Cuts a list into groups of `n`, the last padded with `z`, with fuel for their number. -/
def groupsOf {α : Type} (n : Nat) (z : α) : Nat → List α → List (List α)
  | 0, _ => []
  | _, [] => []
  | k + 1, l => ((l ++ List.replicate n z).take n) :: groupsOf n z k (l.drop n)

/-- Groups of a list. -/
def groups {α : Type} (n : Nat) (z : α) (l : List α) : List (List α) := groupsOf n z l.length l

/-- SHUFFLE of n vectors of `k` elements: element i of vector j leaves at position n i + j. -/
def shuffle {α : Type} (z : α) (n k : Nat) (l : List α) : List α :=
  (List.range (n * k)).map fun o => lget z l (o % n * k + o / n)

/-- The inverse of SHUFFLE. -/
def unshuffle {α : Type} (z : α) (n k : Nat) (l : List α) : List α :=
  (List.range (n * k)).map fun o => lget z l (o % k * n + o / k)

/-- The 64 indices of PERMUTE, and L, W, BASE_ROW of TABLE, in the number that the context holds for them (R156, R157; log entry
501). -/
def permIdx (f i : Nat) : Nat := f / 64 ^ i % 64
def tableW (f : Nat) : Nat := f % 9 + 1
def tableL (f : Nat) : Nat := f / 9 % 64
def tableRow (f : Nat) : Nat := f / 576 % 512

/-- Row of the live table store as nibbles, each with the row's sector flag and the index element's sidebands (R157, R158). -/
def tableNibs (c : Core) (f : Nat) (e : Elem) : List Nib :=
  let row := (tableRow f + e.bits.toNat / 2 ^ tableL f % 2 ^ tableW f) % 512
  let p := e.poison || tget false c.tliveP row
  (List.range 64).map fun i =>
    { v := (tget 0 c.tlive (32 * row + i / 2)).toNat / 16 ^ (i % 2) % 16, poison := p, clip := e.clip,
      tape := e.tapePoison }

/-- One permute lane over the elements of a stream (Table 5.2); `f` holds its parameters. -/
def permute (c : Core) (fmt perm param f : Nat) (es : List Elem) : List Elem :=
  let k := fmtBits fmt / 4
  let nibs := (es.map (elemNibs k)).flatten
  let regroup := fun (l : List Nib) => (groups k Nib.zero l).map (nibsElem fmt)
  let z : Elem := { bits := 0, fmt := fmt, poison := false, clip := false, tapePoison := false }
  let n := 2 ^ (param + 1)
  let kv := 128 / k
  match perm with
  | 1 =>
    regroup ((((groups 128 Nib.zero nibs).map fun v =>
      ((List.range 64).map fun i =>
        [lget Nib.zero v (2 * permIdx f i), lget Nib.zero v (2 * permIdx f i + 1)]).flatten).flatten).take nibs.length)
  | 2 => (((groups (n * kv) z es).map fun g => shuffle z n kv g).flatten).take es.length
  | 3 => (((groups (n * kv) z es).map fun g => unshuffle z n kv g).flatten).take es.length
  | 4 =>
    let w := param + 1
    regroup (((groups (2 * w) Nib.zero nibs).map fun x => x.take w).flatten)
  | 5 =>
    let w := param + 1
    regroup (((groups w Nib.zero nibs).map fun x => x ++ List.replicate w Nib.zero).flatten)
  | 6 => regroup ((es.map (tableNibs c f)).flatten)
  | _ => es

/-- Elements that an OUT or LOOP stream of `count` elements takes from the cells before its permute. -/
def inputsFor (fmt perm count : Nat) : Nat :=
  match perm with
  | 4 => 2 * count
  | 5 => (count + 1) / 2
  | 6 => (count * fmtBits fmt + 255) / 256
  | _ => count

/-! ### Queues of the stream controller -/

/-- Whether a stream is of the outbound class of its port (R154: IN and LOOP share one class). -/
def Stream.isOut (st : Stream) : Bool := st.dir == 1

/-- Streams of a port not yet started. -/
def queuedOn (c : Core) (port : Nat) : Nat := (c.streams.filter fun t => t.port == port && !t.started).length

/-- Moves not yet started. -/
def queuedMoves (c : Core) : Nat := (c.moves.filter fun m => !m.started).length

/-- Next place in a core's issue order. -/
def nextOrd (c : Core) : Nat :=
  (c.moves.map Move.ord ++ c.streams.map Stream.ord).foldl (fun n o => Nat.max n (o + 1)) 0

/-- Span of a move in the cluster store. -/
def moveSpan (m : Move) : Int × Int := ((m.cstore : Int), ((m.cstore + m.len : Nat) : Int))

/-- Whether an earlier incomplete stream or move must complete before one with this order, span and direction starts
(R199). -/
def blockedBy (c : Core) (ord : Nat) (span : Option (Int × Int)) (writes : Bool) : Bool :=
  match span with
  | none => false
  | some x =>
    (c.streams.any fun t => decide (t.ord < ord) && (writes || t.isOut) &&
      (match streamSpan t with
        | some y => overlaps x y
        | none => false)) ||
    c.moves.any fun m => decide (m.ord < ord) && (writes || !m.toDevice) && overlaps x (moveSpan m)

/-- The stream that STREAM_START starts on a port: the oldest queued one of its class, when none of the class runs and
nothing earlier blocks it (R154, R199). -/
def streamToStart (c : Core) (port : Nat) (out : Bool) : Option Stream :=
  let mine := c.streams.filter fun t => t.port == port && t.isOut == out
  if mine.any (·.started) then none
  else
    match mine with
    | [] => none
    | t :: _ => if blockedBy c t.ord (streamSpan t) t.isOut then none else some t

/-- The running stream of a class on a port. -/
def streamRunning (c : Core) (port : Nat) (out : Bool) : Option Stream :=
  c.streams.find? fun t => t.port == port && t.isOut == out && t.started

/-- Hands elements to the edge cells of a stream's EDGE list, element n to entry n mod m, at the port each entry is on
(R152, R159). -/
def deliverAt (core : Nat) (edges : List Nat) (portFor : Nat → Nat) : Nat → List Elem → State → State
  | _, [], s => s
  | n, e :: r, s =>
    let x := lget 0 edges (n % edges.length)
    let cell := cellAt core (x / 8) (x % 8)
    deliverAt core edges portFor (n + 1) r (routeFrom routeFuel cell (portFor x + 1) e s)

/-- Port at which a LOOP's EDGE entry enters: the stream's own where the cell is on it, else the lowest port it is on. -/
def loopPort (port e : Nat) : Nat :=
  if onEdge port (e / 8) (e % 8) then port
  else (((List.range 4).filter fun p => onEdge p (e / 8) (e % 8)).head?).getD port

/-- Edge cell of a port from which a LOOP takes what returns at an entry: the entry's row or column on that port. -/
def loopSource (port e : Nat) : Nat :=
  match port with
  | 0 => e % 8
  | 1 => e / 8 * 8 + 4
  | 2 => 24 + e % 8
  | _ => e / 8 * 8

/-- Takes `n` elements from the queues of edge cells in turn, element i from entry i mod m; none where they do not hold
enough. -/
def takeOut (keys : List Nat) : Nat → Nat → Core → Option (List Elem × Core)
  | 0, _, c => some ([], c)
  | n + 1, i, c =>
    let k := lget 0 keys (i % keys.length)
    match tget [] c.portOut k with
    | [] => none
    | e :: r =>
      match takeOut keys n (i + 1) { c with portOut := tput [] c.portOut k r } with
      | none => none
      | some (es, c') => some (e :: es, c')

/-- Bytes a stream moves to or from the cluster store. -/
def bytesOf (t : Stream) : Nat := (t.count * fmtBits t.fmt + 7) / 8

/-- The permute parameters of a core's active context. -/
def permuteNow (s : State) (core : Nat) (c : Core) : Nat := tget 0 c.perm (getCell s (core * 20)).active

/-- A stream starts: an IN stream reads its elements and delivers them (R155, R197). -/
def startStream (core : Nat) (t : Stream) (s00 : State) : State :=
  let s0 := if t.dir = 0 then countAct (dieOfCore core) 3 (bytesOf t) s00 else s00
  let s := modCore s0 core fun c => { c with streams := lupdate (fun u => u.ord == t.ord) (fun u => { u with started := true }) c.streams }
  if t.dir ≠ 0 then s
  else
    let c := getCore s core
    let ws := windowsNow s c
    let oks := (List.range t.count).map (elemInRange ws t)
    let es := (List.range t.count).map fun n => if lget false oks n then readElem s core t n else poisonElem t.fmt
    let bad := (oks.filter not).length
    let first := (oks.takeWhile id).length
    let out := permute c t.fmt t.perm t.param (permuteNow s core c) es
    let s2 := coreFault core 0 first bad s
    deliverAt core t.edges (fun _ => t.port) 0 out s2

/-- Removes a stream that is complete. -/
def dropStream (core : Nat) (t : Stream) (s : State) : State :=
  modCore s core fun c => { c with streams := lremove (fun u => u.ord == t.ord) c.streams }

/-- Writes the elements of an OUT stream from index `n` on; those out of range are discarded. -/
def writeOut (core : Nat) (ws : Option (List Window)) (t : Stream) : Nat → List Elem → State → State
  | _, [], s => s
  | n, e :: r, s => writeOut core ws t (n + 1) r (if elemInRange ws t n then writeElem s core t n e else s)

/-- A stream's last element is written at its destination (R155, R193); a stream whose elements have not all arrived goes
on. -/
def streamDone (core : Nat) (t : Stream) (s : State) : State :=
  match t.dir with
  | 0 => dropStream core t s
  | 1 =>
    let c := getCore s core
    let keys := t.edges.map fun e => 64 * t.port + e
    match takeOut keys (inputsFor t.fmt t.perm t.count) 0 c with
    | none => s
    | some (es, c1) =>
      let ws := windowsNow s c
      let s1 := setCore s core c1
      let out := (permute c1 t.fmt t.perm t.param (permuteNow s core c) (es.map fun e => { e with fmt := t.fmt })).take t.count
      let oks := (List.range out.length).map (elemInRange ws t)
      let s2 := coreFault core 0 (oks.takeWhile id).length (oks.filter not).length s1
      dropStream core t (countAct (dieOfCore core) 3 (bytesOf t) (writeOut core ws t 0 out s2))
  | _ =>
    let c := getCore s core
    let keys := t.edges.map fun e => 64 * t.port + loopSource t.port e
    match takeOut keys t.count 0 c with
    | none => s
    | some (es, c1) =>
      let out := permute c1 t.fmt t.perm t.param (permuteNow s core c) (es.map fun e => { e with fmt := t.fmt })
      deliverAt core t.edges (loopPort t.port) 0 out (dropStream core t (setCore s core c1))

/-- STREAM_COMPLETE of a running stream; a faulted run may have waited for it (R201). -/
def completeStream (core : Nat) (t : Stream) (s : State) : State :=
  finishFaulted (getCore s core).region (streamDone core t s)

/-! ### Moves -/

/-- The move a cluster's engine starts: round robin, of the cores whose oldest queued move nothing blocks the next after the one
served last (R164). -/
def moveToStart (s : State) (cluster : Nat) : Option (Nat × Move) :=
  ((List.range 4).filterMap fun i =>
    let core := 4 * cluster + (tget 0 s.mem.moveTurn cluster + i) % 4
    let c := getCore s core
    match c.moves.filter fun m => !m.started with
    | [] => none
    | m :: _ => if blockedBy c m.ord (some (moveSpan m)) (!m.toDevice) then none else some (core, m)).head?

/-- The oldest running move of a cluster. -/
def moveRunning (s : State) (cluster : Nat) : Option (Nat × Move) :=
  ((List.range 4).filterMap fun i =>
    let core := 4 * cluster + i
    ((getCore s core).moves.find? (·.started)).map fun m => (core, m)).head?

/-- Whether a move's device sector lies inside the DEVICE_MEMORY windows of the running phase; without a phase the windows
do not apply (R280). -/
def moveWindow (ws : Option (List Window)) (toDevice : Bool) (a : Nat) : Bool :=
  match ws with
  | none => true
  | some l => inWindows l [2] toDevice (a : Int) (a + 32 : Nat)

/-- Carries sector `i` of a move; answers whether the element faulted (R280 to R282).  The retained region takes no write
(R268); what a running cell holds of its store waits (R74). -/
def moveSector (cs : Nat) (ws : Option (List Window)) (m : Move) (i : Nat) (s : State) : Bool × State :=
  let d := m.dev + 32 * i
  let l := cs + m.cstore + 32 * i
  if m.toDevice then
    let srcBad := sectorPoison s l
    let dstBad := !isMemory d || deadSub s d || !moveWindow ws true d
    if dstBad then (true, if deadSub s d then countMem s (subOf d).1 3 1 else s)
    else if addrKind d = .retained then (srcBad, s)
    else (srcBad, outerSector d (readBytes s l 32) srcBad s)
  else
    let bad := readFaults s d || !moveWindow ws false d
    (bad, writeSector (noteRead s d) l (readBytes s d 32) bad)

/-- Carries the sectors of a move from `i` on, gathering the first faulting index and the count. -/
def moveAll (cs : Nat) (ws : Option (List Window)) (m : Move) : Nat → Nat → Option Nat × Nat × State →
    Option Nat × Nat × State
  | 0, _, acc => acc
  | n + 1, i, (first, k, s) =>
    let r := moveSector cs ws m i s
    moveAll cs ws m n (i + 1)
      (if r.1 then (if first.isNone then some i else first, k + 1, r.2) else (first, k, r.2))

/-- A move's last element is written, and its faults enter the core's record (R193, R283). -/
def completeMove (core : Nat) (m : Move) (s : State) : State :=
  let c := getCore s core
  let r := moveAll (clusterStoreAt (clusterOf core)) (windowsNow s c) m (m.len / 32) 0 (none, 0, s)
  let s1 := countAct (dieOfCore core) 3 m.len (coreFault core 1 (r.1.getD 0) r.2.1 r.2.2)
  finishFaulted c.region (modCore s1 core fun c => { c with moves := lremove (fun u => u.ord == m.ord) c.moves })

end Sys2Proof.Machine
end

