-- ==== Sys2Proof/Machine/SeqSys.lean ====
section
/-!
DEFINITION. The sequencer's stream, move, CSR and phase instructions, and the steps of streams, moves, phases and programs
(R143, R144, R191 to R202).
-/

namespace Sys2Proof.Machine

open Sys2Proof

/-! ### Streams and moves -/

/-- SISS (R154, R191). -/
def execSiss (core : Nat) (a : RField) (s : State) : Out :=
  seqStep core (encT 0x38 0 a 0 0) (fun s c =>
    let w := readW c a.toNat
    if w.any Prod.snd then .trap 5
    else
      let x := wNat w
      let t0 := streamOf x (nextOrd c)
      let t := { t0 with tape := isTapeStream (issueWindows s c) t0 }
      if !streamOk x t then .trap 6
      else if 8 ≤ queuedOn c t.port then .stall
      else .next { c with streams := c.streams ++ [t] }) s

/-- MVIS (R164, R192). -/
def execMvis (core : Nat) (a : RField) (s : State) : Out :=
  seqStep core (encT 0x39 0 a 0 0) (onCore fun c =>
    let w := readW c a.toNat
    if w.any Prod.snd then .trap 5
    else
      let x := wNat w
      let m := moveOf x (nextOrd c) core
      if !moveOk x m then .trap 6
      else if 4 ≤ queuedMoves c then .stall
      else .next { c with moves := c.moves ++ [m] }) s

/-- Whether some stream or move of the core with a tag in the mask is incomplete (R193). -/
def tagsBusy (c : Core) (mask : BitVec 16) : Bool :=
  (c.streams.any fun t => mask.getLsbD t.tag) || c.moves.any fun m => mask.getLsbD m.tag

/-- SWAIT (R193). -/
def execSwait (core : Nat) (mask : BitVec 16) (s : State) : Out :=
  seqStep core (encU 0x3A 0 (mask.setWidth 20)) (onCore fun c =>
    if tagsBusy c mask then .stall else .next c) s

/-- STREAM_START (R154, R197, R199). -/
def execStreamStart (core port : Nat) (out : Bool) (s : State) : Out :=
  guardUnit (decide (core < Config.numCores) && decide (port < 4)) (
    match streamToStart (getCore s core) port out with
    | none => s
    | some t => if dieHalted s (dieOfCore core) then s else startStream core t s)

/-- STREAM_COMPLETE (R155, R193). -/
def execStreamComplete (core port : Nat) (out : Bool) (s : State) : Out :=
  guardUnit (decide (core < Config.numCores) && decide (port < 4)) (
    match streamRunning (getCore s core) port out with
    | none => s
    | some t => if dieHalted s (dieOfCore core) then s else completeStream core t s)

/-- MOVE_START (R164, R199). -/
def execMoveStart (cluster : Nat) (s : State) : Out :=
  guardUnit (decide (cluster < Config.numClusters)) (
    match moveToStart s cluster with
    | none => s
    | some (core, m) =>
      if dieHalted s (dieOfCluster cluster) then s
      else modCore { s with mem := { s.mem with moveTurn := tput 0 s.mem.moveTurn cluster ((core + 1) % 4) } } core fun c =>
        { c with moves := lupdate (fun u => u.ord == m.ord) (fun u => { u with started := true }) c.moves })

/-- MOVE_COMPLETE (R193, R280 to R283). -/
def execMoveComplete (cluster : Nat) (s : State) : Out :=
  guardUnit (decide (cluster < Config.numClusters)) (
    match moveRunning s cluster with
    | none => s
    | some (core, m) => if dieHalted s (dieOfCluster cluster) then s else completeMove core m s)

/-! ### Control and status registers (R202) -/

/-- SEQ_QUEUE: pending descriptors of the ports and pending moves. -/
def seqQueue (c : Core) : Nat :=
  queuedOn c 0 + queuedOn c 1 * 2 ^ 4 + queuedOn c 2 * 2 ^ 8 + queuedOn c 3 * 2 ^ 12 + queuedMoves c * 2 ^ 16

/-- The value of a CSR (Table 6.10); SEQ_CYCLE, a count of time, is the free value `free` (log entry 24). -/
def csrValue (core : Nat) (c : Core) (n : Nat) (free : Nat) : Nat :=
  if n = 0 then core
  else if n = 1 then c.step
  else if n = 2 then c.tag % 2 ^ 32
  else if n = 3 then free
  else if n = 0x10 then c.sfCause.toNat
  else if n = 0x11 then c.sfIndex.toNat
  else if n = 0x12 then c.sfCount.toNat
  else if n = 0x20 then seqQueue c
  else if n = 0x30 then b2n c.phase.isSome + b2n c.lastPoisoned * 2 + c.lastPhase * 2 ^ 16
  else if 0x400 ≤ n && n < 0x400 + 72 * 16 && (n - 0x400) % 72 < 69 then tget 0 c.tot (n - 0x400)
  else 0

/-- CSRR (R202). -/
def execCsrr (core : Nat) (d : RField) (imm : BitVec 14) (s : State) : Out :=
  seqStep core (encI 0x3B d 0 imm) (fun s c =>
    let r := if imm.toNat = 3 then drawFree s else (0, s)
    .whole (setCore r.2 core (writeG c d (BitVec.ofNat 64 (csrValue core c imm.toNat r.1), false)))) s

/-- CSRW (R202): ones clear SEQ_SFAULT_CAUSE and SEQ_SFAULT_COUNT; every other write is discarded. -/
def execCsrw (core : Nat) (d : RField) (imm : BitVec 14) (s : State) : Out :=
  seqStep core (encI 0x3C d 0 imm) (onCore fun c =>
    let v := readG c d
    if v.2 then .trap 5
    else if imm.toNat = 0x10 then .next { c with sfCause := c.sfCause &&& ~~~v.1 }
    else if imm.toNat = 0x12 then .next { c with sfCount := c.sfCount &&& ~~~v.1 }
    else .next c) s

/-! ### Phases -/

/-- The phase entry of an identifier in the core's region. -/
def phaseEntry (s : State) (region id : Nat) : Option PhaseEntry :=
  (regionOf s region).bind fun r => r.phases.find? fun e => e.id == id

/-- PRUN (R194, R218): the active context runs. -/
def execPrun (core : Nat) (a : RField) (imm : BitVec 14) (s : State) : Out :=
  seqStep core (encI 0x3E 0 a imm) (fun s c =>
    let n := readG c a
    if n.2 then .trap 5
    else if n.1 = 0 || 2 ^ 48 ≤ n.1.toNat || 8192 ≤ imm.toNat then .trap 7
    else
      match phaseEntry s c.region imm.toNat with
      | none => .trap 7
      | some e =>
        if e.maxCount < n.1.toNat then .trap 7
        else if c.phase.isSome then .stall
        else .whole (startPhaseOn core
          { id := imm.toNat, ctx := (getCell s (core * 20)).active, count := n.1.toNat, region := c.region, late := false } s)) s

/-- PWAIT (R194). -/
def execPwait (core : Nat) (s : State) : Out :=
  seqStep core (encT 0x3D 0 0 0 0) (onCore fun c => if c.phase.isSome then .stall else .next c) s

/-- CSW (R76, R194). -/
def execCsw (core : Nat) (b : RField) (s : State) : Out :=
  seqStep core (encT 0x3D 0 0 b 1) (fun s c =>
    if c.phase.isSome then .stall else .whole (switchCore core b.toNat s)) s

/-- Whether an OUT stream or a move of the core is incomplete. -/
def outOpen (c : Core) : Bool := (c.streams.any fun t => t.isOut) || !c.moves.isEmpty

/-- PSYNC (R194): the core arrives at the barrier and waits there; the release moves its program counter on. -/
def execPsync (core : Nat) (s : State) : Out :=
  seqStep core (encT 0x3D 0 0 0 2) (fun s c =>
    if outOpen c then .stall
    else .stay (setCore s core { c with psync := c.psync + 1, psyncWait := true })) s

/-- END (R194). -/
def execEndProgram (core : Nat) (s : State) : Out :=
  seqStep core (encT 0x3D 0 0 0 3) (onCore fun c =>
    if !c.streams.isEmpty || !c.moves.isEmpty || c.phase.isSome then .stall
    else .next { c with running := false, ended := true }) s

/-- PSYNC_RELEASE (R194): every core of the region stands at the barrier with the same count, and no halt holds one. -/
def execPsyncRelease (region : Nat) (s : State) : Out :=
  .next (
    match regionOf s region with
    | none => s
    | some r =>
      let n := (getCore s (4 * r.first)).psync
      let arrived := r.cores.all fun i =>
        let c := getCore s i
        c.running && c.psyncWait && c.psync == n && !dieHalted s (dieOfCore i)
      whenTaken arrived (fun st => r.cores.foldl (fun t i => modCore t i fun c =>
        { c with psyncWait := false, pc := c.pc + 4 }) st) s)

/-- PROGRAM_END (R194, R419). -/
def execProgramEnd (region : Nat) (s : State) : Out :=
  .next (
    match runOf s region, regionOf s region with
    | some r, some g =>
      let all := g.cores.all fun i => (getCore s i).ended && (getCore s i).region == region
      whenTaken (r.program && r.seqFault.isNone && all) (fun st => finishRun region r (closeRegion region r st)) s
    | _, _ => s)

/-- PHASE_END (R141 to R143). -/
def execPhaseEnd (core : Nat) (s : State) : Out :=
  guardUnit (decide (core < Config.numCores)) (
    match (getCore s core).phase with
    | none => s
    | some p => if dieHalted s (dieOfCore core) then s else releaseWrites (endPhaseOn core p s))

/-- TOTALS_TIMEOUT (R144): the record of the region's oldest phase with totals missing from a die closes without any of that
die's. -/
def execTotalsTimeout (region die : Nat) (s : State) : Out :=
  guardUnit (decide (die < Config.numDies)) (
    match runOf s region, regionOf s region with
    | some run, some g =>
      let missing := fun (o : OpenRec) => o.region == region &&
        g.cores.any fun i => dieOfCore i == die && !o.cores.contains i
      match s.tw.opens.find? missing with
      | none => s
      | some o =>
        let left := g.cores.filter fun i => dieOfCore i == die && !o.cores.contains i
        let o1 := { dropDie o die with cores := left.foldl (fun l i => insertNat i l) o.cores }
        let mark := fun (st : State) (i : Nat) => modCore st i fun c =>
          { c with phase := c.phase.map fun p => if p.id == o.phaseId then { p with late := true } else p }
        let opens := lupdate missing (fun _ => o1) s.tw.opens
        let s1 := left.foldl mark { s with tw := { s.tw with opens := opens } }
        if g.cores.all fun i => o1.cores.contains i then
          let s2 := closeOpen o1 run s1
          if run.program then finishFaulted region s2 else finishRun region run s2
        else s1
    | _, _ => s)

end Sys2Proof.Machine
end

