-- ==== Sys2Proof/Machine/SeqVec.lean ====
section
/-!
DEFINITION. The sequencer's vector, lane-move and table-permute instructions (R188, R190, Table 6.6).
-/

namespace Sys2Proof.Machine

open Sys2Proof

/-- Element `i` of `e` bits of a 256-bit number. -/
def elemOf (x e i : Nat) : Nat := x / 2 ^ (e * i) % 2 ^ e

/-- Assembles elements of `e` bits. -/
def ofElems (e : Nat) (l : List Nat) : Nat := l.foldr (fun v acc => v % 2 ^ e + 2 ^ e * acc) 0

/-- Lane-wise operation on elements of 8 × 2^w bits; each 64-bit lane is poisoned when either source lane is (R178, R188). -/
def vecBin (d a b : RField) (w : BitVec 2) (op : Nat → Nat → Nat → Nat) (c : Core) : SeqRes :=
  let e := 8 * 2 ^ w.toNat
  let va := readW c a.toNat
  let vb := readW c b.toNat
  let r := ofElems e ((List.range (256 / e)).map fun i => op e (elemOf (wNat va) e i) (elemOf (wNat vb) e i))
  .next (writeW c d.toNat (wLanes r fun k => laneP va k || laneP vb k))

/-- Lane-wise FP64 operation. -/
def vecFp (d a b : RField) (op : PV → PV → PV) (c : Core) : SeqRes :=
  let va := readW c a.toNat
  let vb := readW c b.toNat
  .next (writeW c d.toNat ((List.range 4).map fun k => op (lget (0, false) va k) (lget (0, false) vb k)))

/-- VADD: lane-wise add (R188). -/
def execVadd (core : Nat) (d a b : RField) (w : BitVec 2) (s : State) : Out :=
  seqStep core (encT 0x2A d a b (vecFn 0 w)) (onCore (vecBin d a b w fun _ x y => x + y)) s

/-- VSUB: lane-wise subtract (R188). -/
def execVsub (core : Nat) (d a b : RField) (w : BitVec 2) (s : State) : Out :=
  seqStep core (encT 0x2A d a b (vecFn 1 w)) (onCore (vecBin d a b w fun e x y => x + 2 ^ e - y)) s

/-- VAND: lane-wise AND (R188). -/
def execVand (core : Nat) (d a b : RField) (w : BitVec 2) (s : State) : Out :=
  seqStep core (encT 0x2A d a b (vecFn 2 w)) (onCore (vecBin d a b w fun _ x y => x &&& y)) s

/-- VOR: lane-wise OR (R188). -/
def execVor (core : Nat) (d a b : RField) (w : BitVec 2) (s : State) : Out :=
  seqStep core (encT 0x2A d a b (vecFn 3 w)) (onCore (vecBin d a b w fun _ x y => x ||| y)) s

/-- VXOR: lane-wise XOR (R188). -/
def execVxor (core : Nat) (d a b : RField) (w : BitVec 2) (s : State) : Out :=
  seqStep core (encT 0x2A d a b (vecFn 4 w)) (onCore (vecBin d a b w fun _ x y => x ^^^ y)) s

/-- VMIN: lane-wise signed minimum (R188). -/
def execVmin (core : Nat) (d a b : RField) (w : BitVec 2) (s : State) : Out :=
  seqStep core (encT 0x2A d a b (vecFn 5 w)) (onCore (vecBin d a b w fun e x y => if signedOf e y < signedOf e x then y else x)) s

/-- VMAX: lane-wise signed maximum (R188). -/
def execVmax (core : Nat) (d a b : RField) (w : BitVec 2) (s : State) : Out :=
  seqStep core (encT 0x2A d a b (vecFn 6 w)) (onCore (vecBin d a b w fun e x y => if signedOf e x < signedOf e y then y else x)) s

/-- VMINU: lane-wise unsigned minimum (R188). -/
def execVminu (core : Nat) (d a b : RField) (w : BitVec 2) (s : State) : Out :=
  seqStep core (encT 0x2A d a b (vecFn 7 w)) (onCore (vecBin d a b w fun _ x y => if y < x then y else x)) s

/-- VMAXU: lane-wise unsigned maximum (R188). -/
def execVmaxu (core : Nat) (d a b : RField) (w : BitVec 2) (s : State) : Out :=
  seqStep core (encT 0x2A d a b (vecFn 8 w)) (onCore (vecBin d a b w fun _ x y => if x < y then y else x)) s

/-- VCMPEQ: lane-wise equality mask (R188). -/
def execVcmpeq (core : Nat) (d a b : RField) (w : BitVec 2) (s : State) : Out :=
  seqStep core (encT 0x2A d a b (vecFn 9 w)) (onCore (vecBin d a b w fun e x y => if x = y then 2 ^ e - 1 else 0)) s

/-- VCMPGT: lane-wise signed greater-than mask (R188). -/
def execVcmpgt (core : Nat) (d a b : RField) (w : BitVec 2) (s : State) : Out :=
  seqStep core (encT 0x2A d a b (vecFn 10 w)) (onCore (vecBin d a b w fun e x y => if signedOf e y < signedOf e x then 2 ^ e - 1 else 0)) s

/-- VfaddD: lane-wise FP64 add (R188). -/
def execVfaddD (core : Nat) (d a b : RField) (s : State) : Out :=
  seqStep core (encT 0x2A d a b (vecFn 0x10 3)) (onCore (vecFp d a b fAdd)) s

/-- VfsubD: lane-wise FP64 subtract (R188). -/
def execVfsubD (core : Nat) (d a b : RField) (s : State) : Out :=
  seqStep core (encT 0x2A d a b (vecFn 0x11 3)) (onCore (vecFp d a b fSub)) s

/-- VfmulD: lane-wise FP64 multiply (R188). -/
def execVfmulD (core : Nat) (d a b : RField) (s : State) : Out :=
  seqStep core (encT 0x2A d a b (vecFn 0x12 3)) (onCore (vecFp d a b fMul)) s

/-- VfminD: lane-wise FP64 minimum (R188). -/
def execVfminD (core : Nat) (d a b : RField) (s : State) : Out :=
  seqStep core (encT 0x2A d a b (vecFn 0x13 3)) (onCore (vecFp d a b fMin)) s

/-- VfmaxD: lane-wise FP64 maximum (R188). -/
def execVfmaxD (core : Nat) (d a b : RField) (s : State) : Out :=
  seqStep core (encT 0x2A d a b (vecFn 0x14 3)) (onCore (vecFp d a b fMax)) s

/-- VfcmpEqD: lane-wise FP64 equality mask (R188). -/
def execVfcmpEqD (core : Nat) (d a b : RField) (s : State) : Out :=
  seqStep core (encT 0x2A d a b (vecFn 0x15 3)) (onCore (vecFp d a b (fCmp 0))) s

/-- VfcmpLtD: lane-wise FP64 less-than mask (R188). -/
def execVfcmpLtD (core : Nat) (d a b : RField) (s : State) : Out :=
  seqStep core (encT 0x2A d a b (vecFn 0x16 3)) (onCore (vecFp d a b (fCmp 2))) s

/-- VfcmpUnD: lane-wise FP64 unordered mask (R188). -/
def execVfcmpUnD (core : Nat) (d a b : RField) (s : State) : Out :=
  seqStep core (encT 0x2A d a b (vecFn 0x17 3)) (onCore (vecFp d a b (fCmp 6))) s

/-- VFMA.D: each FP64 lane Wa × Wb + Wc (R184). -/
def execVfmaD (core : Nat) (d a b c : RField) (s : State) : Out :=
  seqStep core (encQ 0x2B d a b c 0) (onCore fun k =>
    let va := readW k a.toNat
    let vb := readW k b.toNat
    let vc := readW k c.toNat
    .next (writeW k d.toNat ((List.range 4).map fun i =>
      fFma (lget (0, false) va i) (lget (0, false) vb i) (lget (0, false) vc i)))) s

/-- PTAB (R190): unit i of Wd is unit x of the table, x the byte i of Wi; zero when x is beyond the table. -/
def execPtab (core : Nat) (d a b : RField) (n1 g : BitVec 2) (s : State) : Out :=
  seqStep core (encT 0x2C d a b (ptabFn n1 g)) (onCore fun c =>
    let n := n1.toNat + 1
    let u := 2 ^ g.toNat
    let units := 32 * n / u
    let tab := ((List.range n).map fun i => readW c (a.toNat + i)).flatten
    let tn := wNat tab
    let idx := readW c b.toNat
    let ix := fun i => elemOf (wNat idx) 8 i
    let pick := fun i => if ix i < units then elemOf tn (8 * u) (ix i) else 0
    let r := ofElems (8 * u) ((List.range (32 / u)).map pick)
    let perLane := 8 / u
    .next (writeW c d.toNat (wLanes r fun lane => (List.range perLane).any fun j =>
      let i := lane * perLane + j
      laneP idx (i / 8) || (decide (ix i < units) && laneP tab (ix i * u / 8))))) s

/-- VSPLAT: every lane of Wd ← low bits of Ga (R184). -/
def execVsplat (core : Nat) (d a : RField) (w : BitVec 2) (s : State) : Out :=
  seqStep core (encT 0x2D d a 0 (laneFn 0 w)) (onCore fun c =>
    let e := 8 * 2 ^ w.toNat
    let v := readG c a
    let r := ofElems e (List.replicate (256 / e) v.1.toNat)
    .next (writeW c d.toNat (wLanes r fun _ => v.2))) s

/-- VEXT: Gd ← lane b of Wa, zero-extended (R188). -/
def execVext (core : Nat) (d a b : RField) (w : BitVec 2) (s : State) : Out :=
  seqStep core (encT 0x2D d a b (laneFn 1 w)) (onCore fun c =>
    let e := 8 * 2 ^ w.toNat
    let v := readW c a.toNat
    .next (writeG c d (BitVec.ofNat 64 (elemOf (wNat v) e b.toNat), laneP v (b.toNat * e / 64)))) s

/-- VINS: lane b of Wd ← low bits of Ga; the other lanes keep their bits.  The 64-bit lane takes the poison of Ga, and keeps
its own where it keeps bytes (R177, R178, R188). -/
def execVins (core : Nat) (d a b : RField) (w : BitVec 2) (s : State) : Out :=
  seqStep core (encT 0x2D d a b (laneFn 2 w)) (onCore fun c =>
    let e := 8 * 2 ^ w.toNat
    let v := readG c a
    let old := readW c d.toNat
    let r := ofElems e ((List.range (256 / e)).map fun i =>
      if i = b.toNat then v.1.toNat else elemOf (wNat old) e i)
    let lane := b.toNat * e / 64
    .next (writeW c d.toNat (wLanes r fun k =>
      if k = lane then v.2 || (decide (e < 64) && laneP old k) else laneP old k))) s

end Sys2Proof.Machine
end

