-- ==== Sys2Proof/Machine/Sideband.lean ====
section
/-!
DEFINITION. The status bus and the JTAG port of the host connector (19 R544; 16 R497).
-/

namespace Sys2Proof.Machine

open Sys2Proof

/-- The 64-byte status block (Table 19.3). -/
def statusBlock (s : State) : List Byte :=
  let sen := fun (i : Nat) => tget 0 s.pw.sensors i
  let hot := (List.range 8).foldl (fun m d => maxInt m (tget 0 s.pw.hot d)) (tget 0 s.pw.hot 0)
  padTo 64 (leBytes 8 s.mg.id.toNat ++ leBytes 8 s.mg.serial.toNat ++ leBytes 1 s.pw.state.code ++ leBytes 1 s.sf.tripCause ++
    leBytes 2 s.pw.meanW ++ intBytes 2 (sen 212) ++ intBytes 2 (sen 213) ++ intBytes 2 (sen 214 / 10) ++
    leBytes 1 (sfStatus s) ++ intBytes 1 (wholeC hot))

/-- A transaction at the module's address: an offset write, reads from there on, or both. -/
def smbusRun (writeBytes : List Byte) (readLen : Nat) (s : State) : State :=
  let off := match writeBytes with
    | [] => s.rst.smbOff
    | b :: _ => b.toNat % 64
  let data := (List.range readLen).map fun i => lget 0 (statusBlock s) ((off + i) % 64)
  let s1 := { s with rst := { s.rst with smbOff := (off + readLen) % 64 } }
  if readLen = 0 then s1 else { s1 with env := { s1.env with smbus := s1.env.smbus ++ [data] } }

/-- SMBUS_ACCESS (R544): not answered in P4, during a management restart, or at another address; a write of more than the
offset byte is not acknowledged. -/
def execSmbusAccess (addr : Nat) (writeBytes : List Byte) (readLen : Nat) (s : State) : Out :=
  .next (whenTaken (periodRuns s && addr == 0x58 + s.rst.smbAddr && decide (writeBytes.length ≤ 1)) (smbusRun writeBytes readLen) s)

/-- A DBACC read or write at an offset of BAR0: the level checks stand, the steward check does not (R497). -/
def dbacc (off : Nat) (write : Bool) (value : W64) (s : State) : State :=
  match regAt s 0 off with
  | none => if write then s else { s with env := { s.env with jtag := s.env.jtag ++ [0] } }
  | some (w, _) =>
    let p := perform { off := off, width := w, write := write, port := 0, steward := true, tag := 0, value := value } s
    if write then p.2.2 else { p.2.2 with env := { p.2.2.env with jtag := p.2.2.env.jtag ++ [p.2.1] } }

/-- JTAG_DBACC (R497): it reaches the DB and SC blocks alone. -/
def execJtagDbacc (off : Nat) (write : Bool) (value : W64) (s : State) : Out :=
  .next (whenTaken (s.pw.state != .p4 && secured off) (dbacc off write value) s)

end Sys2Proof.Machine
end

