-- ==== Sys2Proof/Machine/Dispatch.lean ====
section
/-! DEFINITION. The dispatch: one arm for each command, each a direct call of its meaning. -/

namespace Sys2Proof.Machine

open Sys2Proof

def exec (i : Instr) (s : State) : Host.Outcome State Fault Refusal :=
  match i with
  | .commandSlotWrite port off bytes => Sys2Proof.Machine.execCommandSlotWrite port off bytes s
  | .loadConfig h addr bytes => Sys2Proof.Machine.execLoadConfig h addr bytes s
  | .switchContext h region ctx => Sys2Proof.Machine.execSwitchContext h region ctx s
  | .runPhase h region phase count => Sys2Proof.Machine.execRunPhase h region phase count s
  | .runProgram h region => Sys2Proof.Machine.execRunProgram h region s
  | .allReduce h d => Sys2Proof.Machine.execAllReduce h d s
  | .reduceScatter h d => Sys2Proof.Machine.execReduceScatter h d s
  | .allGather h d => Sys2Proof.Machine.execAllGather h d s
  | .multicast h d => Sys2Proof.Machine.execMulticast h d s
  | .topkGather h d => Sys2Proof.Machine.execTopkGather h d s
  | .fencePeer h rank => Sys2Proof.Machine.execFencePeer h rank s
  | .unfencePeer h rank => Sys2Proof.Machine.execUnfencePeer h rank s
  | .setRoutes h epoch down detour => Sys2Proof.Machine.execSetRoutes h epoch down detour s
  | .setRouteEpoch h epoch => Sys2Proof.Machine.execSetRouteEpoch h epoch s
  | .copy h src dst len dir => Sys2Proof.Machine.execCopy h src dst len dir s
  | .checkpoint h listAddr entries hostAddr hostBytes => Sys2Proof.Machine.execCheckpoint h listAddr entries hostAddr hostBytes s
  | .restore h hostAddr hostBytes flags => Sys2Proof.Machine.execRestore h hostAddr hostBytes flags s
  | .reshard h d => Sys2Proof.Machine.execReshard h d s
  | .reshardResume h d => Sys2Proof.Machine.execReshardResume h d s
  | .reshardRollback h d => Sys2Proof.Machine.execReshardRollback h d s
  | .suspend h handle => Sys2Proof.Machine.execSuspend h handle s
  | .resume h handle => Sys2Proof.Machine.execResume h handle s
  | .cancel h handle => Sys2Proof.Machine.execCancel h handle s
  | .queryDevice h => Sys2Proof.Machine.execQueryDevice h s
  | .queryLongOp h handle => Sys2Proof.Machine.execQueryLongOp h handle s
  | .scrub h => Sys2Proof.Machine.execScrub h s
  | .fwUpdate h addr bytes => Sys2Proof.Machine.execFwUpdate h addr bytes s
  | .bbExport h hostAddr hostBytes fromSeq => Sys2Proof.Machine.execBbExport h hostAddr hostBytes fromSeq s
  | .portRelease h p => Sys2Proof.Machine.execPortRelease h p s
  | .portReleaseForce h p => Sys2Proof.Machine.execPortReleaseForce h p s
  | .portAdmit h p => Sys2Proof.Machine.execPortAdmit h p s
  | .reset h => Sys2Proof.Machine.execReset h s
  | .attest h nonce hostAddr hostBytes => Sys2Proof.Machine.execAttest h nonce hostAddr hostBytes s
  | .debugUnlock h tokenAddr tokenBytes level => Sys2Proof.Machine.execDebugUnlock h tokenAddr tokenBytes level s
  | .lcProvision h tokenAddr tokenBytes => Sys2Proof.Machine.execLcProvision h tokenAddr tokenBytes s
  | .lcDeploy h tokenAddr tokenBytes => Sys2Proof.Machine.execLcDeploy h tokenAddr tokenBytes s
  | .lcReturn h tokenAddr tokenBytes => Sys2Proof.Machine.execLcReturn h tokenAddr tokenBytes s
  | .setPowerState h st cap => Sys2Proof.Machine.execSetPowerState h st cap s
  | .stewardClaim h => Sys2Proof.Machine.execStewardClaim h s
  | .stewardYield h => Sys2Proof.Machine.execStewardYield h s
  | .longOpStart handle => Sys2Proof.Machine.execLongOpStart handle s
  | .pausePointReached handle => Sys2Proof.Machine.execPausePointReached handle s
  | .cancelUndoDone handle => Sys2Proof.Machine.execCancelUndoDone handle s
  | .longOpWorkEnd handle tests => Sys2Proof.Machine.execLongOpWorkEnd handle tests s
  | .completionRecordWrite port => Sys2Proof.Machine.execCompletionRecordWrite port s
  | .cpCqHeadWrite port value => Sys2Proof.Machine.execCpCqHeadWrite port value s
  | .cqEnable port value => Sys2Proof.Machine.execCqEnable port value s
  | .cpStewardKeepalive port value => Sys2Proof.Machine.execCpStewardKeepalive port value s
  | .stewardWindow => Sys2Proof.Machine.execStewardWindow s
  | .stewardLeaseExpiry => Sys2Proof.Machine.execStewardLeaseExpiry s
  | .registerWrite port off width value => Sys2Proof.Machine.execRegisterWrite port off width value s
  | .registerAccessTimeout port tag => Sys2Proof.Machine.execRegisterAccessTimeout port tag s
  | .bar4Read port off len => Sys2Proof.Machine.execBar4Read port off len s
  | .bar4Write port off bytes => Sys2Proof.Machine.execBar4Write port off bytes s
  | .sensorRead port => Sys2Proof.Machine.execSensorRead port s
  | .identityRead port => Sys2Proof.Machine.execIdentityRead port s
  | .nonceDraw port => Sys2Proof.Machine.execNonceDraw port s
  | .debugHalt port value => Sys2Proof.Machine.execDebugHalt port value s
  | .debugRelease port value => Sys2Proof.Machine.execDebugRelease port value s
  | .mcuHalt port value => Sys2Proof.Machine.execMcuHalt port value s
  | .mcuStep port value => Sys2Proof.Machine.execMcuStep port value s
  | .bbRecSel port seq => Sys2Proof.Machine.execBbRecSel port seq s
  | .bbNoteGo note => Sys2Proof.Machine.execBbNoteGo note s
  | .ueStepWrite port value => Sys2Proof.Machine.execUeStepWrite port value s
  | .attemptStart => Sys2Proof.Machine.execAttemptStart s
  | .phaseStart die => Sys2Proof.Machine.execPhaseStart die s
  | .cfgLoad die => Sys2Proof.Machine.execCfgLoad die s
  | .ctxSwitch die => Sys2Proof.Machine.execCtxSwitch die s
  | .collDesc => Sys2Proof.Machine.execCollDesc s
  | .regAccess port off width write value tag => Sys2Proof.Machine.execRegAccess port off width write value tag s
  | .completion => Sys2Proof.Machine.execCompletion s
  | .regReply => Sys2Proof.Machine.execRegReply s
  | .nack => Sys2Proof.Machine.execNack s
  | .telemetryInterval stack => Sys2Proof.Machine.execTelemetryInterval stack s
  | .counterSnapshot => Sys2Proof.Machine.execCounterSnapshot s
  | .expHistogram => Sys2Proof.Machine.execExpHistogram s
  | .satVanish => Sys2Proof.Machine.execSatVanish s
  | .laneHealth => Sys2Proof.Machine.execLaneHealth s
  | .orderAck => Sys2Proof.Machine.execOrderAck s
  | .mgmtRequest => Sys2Proof.Machine.execMgmtRequest s
  | .waystationFault ws cause => Sys2Proof.Machine.execWaystationFault ws cause s
  | .throttle dies mhz => Sys2Proof.Machine.execThrottle dies mhz s
  | .halt dies snapshot debug base => Sys2Proof.Machine.execHalt dies snapshot debug base s
  | .haltRelease dies restore debug base => Sys2Proof.Machine.execHaltRelease dies restore debug base s
  | .portShutdown mask => Sys2Proof.Machine.execPortShutdown mask s
  | .portRestore mask => Sys2Proof.Machine.execPortRestore mask s
  | .mgmtReply => Sys2Proof.Machine.execMgmtReply s
  | .interlockOrderRepeat seq => Sys2Proof.Machine.execInterlockOrderRepeat seq s
  | .fetch => Sys2Proof.Machine.execFetch s
  | .verify => Sys2Proof.Machine.execVerify s
  | .apply => Sys2Proof.Machine.execApply s
  | .report => Sys2Proof.Machine.execReport s
  | .prun core a imm => Sys2Proof.Machine.execPrun core a imm s
  | .pwait core => Sys2Proof.Machine.execPwait core s
  | .csw core b => Sys2Proof.Machine.execCsw core b s
  | .psync core => Sys2Proof.Machine.execPsync core s
  | .psyncRelease region => Sys2Proof.Machine.execPsyncRelease region s
  | .endProgram core => Sys2Proof.Machine.execEndProgram core s
  | .programEnd region => Sys2Proof.Machine.execProgramEnd region s
  | .phaseEnd core => Sys2Proof.Machine.execPhaseEnd core s
  | .totalsTimeout region die => Sys2Proof.Machine.execTotalsTimeout region die s
  | .add core d a b => Sys2Proof.Machine.execAdd core d a b s
  | .sub core d a b => Sys2Proof.Machine.execSub core d a b s
  | .and core d a b => Sys2Proof.Machine.execAnd core d a b s
  | .or core d a b => Sys2Proof.Machine.execOr core d a b s
  | .xor core d a b => Sys2Proof.Machine.execXor core d a b s
  | .sll core d a b => Sys2Proof.Machine.execSll core d a b s
  | .srl core d a b => Sys2Proof.Machine.execSrl core d a b s
  | .sra core d a b => Sys2Proof.Machine.execSra core d a b s
  | .slt core d a b => Sys2Proof.Machine.execSlt core d a b s
  | .sltu core d a b => Sys2Proof.Machine.execSltu core d a b s
  | .min core d a b => Sys2Proof.Machine.execMin core d a b s
  | .max core d a b => Sys2Proof.Machine.execMax core d a b s
  | .minu core d a b => Sys2Proof.Machine.execMinu core d a b s
  | .maxu core d a b => Sys2Proof.Machine.execMaxu core d a b s
  | .mul core d a b => Sys2Proof.Machine.execMul core d a b s
  | .mulhu core d a b => Sys2Proof.Machine.execMulhu core d a b s
  | .divu core d a b => Sys2Proof.Machine.execDivu core d a b s
  | .remu core d a b => Sys2Proof.Machine.execRemu core d a b s
  | .clz core d a => Sys2Proof.Machine.execClz core d a s
  | .popc core d a => Sys2Proof.Machine.execPopc core d a s
  | .addi core d a imm => Sys2Proof.Machine.execAddi core d a imm s
  | .andi core d a imm => Sys2Proof.Machine.execAndi core d a imm s
  | .ori core d a imm => Sys2Proof.Machine.execOri core d a imm s
  | .xori core d a imm => Sys2Proof.Machine.execXori core d a imm s
  | .slti core d a imm => Sys2Proof.Machine.execSlti core d a imm s
  | .sltiu core d a imm => Sys2Proof.Machine.execSltiu core d a imm s
  | .slli core d a sh => Sys2Proof.Machine.execSlli core d a sh s
  | .srli core d a sh => Sys2Proof.Machine.execSrli core d a sh s
  | .srai core d a sh => Sys2Proof.Machine.execSrai core d a sh s
  | .lui core d imm => Sys2Proof.Machine.execLui core d imm s
  | .lb core d a imm => Sys2Proof.Machine.execLb core d a imm s
  | .lbu core d a imm => Sys2Proof.Machine.execLbu core d a imm s
  | .lh core d a imm => Sys2Proof.Machine.execLh core d a imm s
  | .lhu core d a imm => Sys2Proof.Machine.execLhu core d a imm s
  | .lw core d a imm => Sys2Proof.Machine.execLw core d a imm s
  | .lwu core d a imm => Sys2Proof.Machine.execLwu core d a imm s
  | .ld core d a imm => Sys2Proof.Machine.execLd core d a imm s
  | .sb core d a imm => Sys2Proof.Machine.execSb core d a imm s
  | .sh core d a imm => Sys2Proof.Machine.execSh core d a imm s
  | .sw core d a imm => Sys2Proof.Machine.execSw core d a imm s
  | .sd core d a imm => Sys2Proof.Machine.execSd core d a imm s
  | .fld core d a imm => Sys2Proof.Machine.execFld core d a imm s
  | .fsd core d a imm => Sys2Proof.Machine.execFsd core d a imm s
  | .vld core d a imm => Sys2Proof.Machine.execVld core d a imm s
  | .vst core d a imm => Sys2Proof.Machine.execVst core d a imm s
  | .beq core a b off => Sys2Proof.Machine.execBeq core a b off s
  | .bne core a b off => Sys2Proof.Machine.execBne core a b off s
  | .blt core a b off => Sys2Proof.Machine.execBlt core a b off s
  | .bge core a b off => Sys2Proof.Machine.execBge core a b off s
  | .bltu core a b off => Sys2Proof.Machine.execBltu core a b off s
  | .bgeu core a b off => Sys2Proof.Machine.execBgeu core a b off s
  | .jal core d off => Sys2Proof.Machine.execJal core d off s
  | .jalr core d a imm => Sys2Proof.Machine.execJalr core d a imm s
  | .fadd core d a b => Sys2Proof.Machine.execFadd core d a b s
  | .fsub core d a b => Sys2Proof.Machine.execFsub core d a b s
  | .fmul core d a b => Sys2Proof.Machine.execFmul core d a b s
  | .fmin core d a b => Sys2Proof.Machine.execFmin core d a b s
  | .fmax core d a b => Sys2Proof.Machine.execFmax core d a b s
  | .fneg core d a => Sys2Proof.Machine.execFneg core d a s
  | .fabs core d a => Sys2Proof.Machine.execFabs core d a s
  | .fcmpEq core d a b => Sys2Proof.Machine.execFcmpEq core d a b s
  | .fcmpNe core d a b => Sys2Proof.Machine.execFcmpNe core d a b s
  | .fcmpLt core d a b => Sys2Proof.Machine.execFcmpLt core d a b s
  | .fcmpLe core d a b => Sys2Proof.Machine.execFcmpLe core d a b s
  | .fcmpGt core d a b => Sys2Proof.Machine.execFcmpGt core d a b s
  | .fcmpGe core d a b => Sys2Proof.Machine.execFcmpGe core d a b s
  | .fcmpUn core d a b => Sys2Proof.Machine.execFcmpUn core d a b s
  | .fmvgf core d a => Sys2Proof.Machine.execFmvgf core d a s
  | .fmvfg core d a => Sys2Proof.Machine.execFmvfg core d a s
  | .fma core d a b c => Sys2Proof.Machine.execFma core d a b c s
  | .fms core d a b c => Sys2Proof.Machine.execFms core d a b c s
  | .fnma core d a b c => Sys2Proof.Machine.execFnma core d a b c s
  | .fsel core d a b c => Sys2Proof.Machine.execFsel core d a b c s
  | .vadd core d a b w => Sys2Proof.Machine.execVadd core d a b w s
  | .vsub core d a b w => Sys2Proof.Machine.execVsub core d a b w s
  | .vand core d a b w => Sys2Proof.Machine.execVand core d a b w s
  | .vor core d a b w => Sys2Proof.Machine.execVor core d a b w s
  | .vxor core d a b w => Sys2Proof.Machine.execVxor core d a b w s
  | .vmin core d a b w => Sys2Proof.Machine.execVmin core d a b w s
  | .vmax core d a b w => Sys2Proof.Machine.execVmax core d a b w s
  | .vminu core d a b w => Sys2Proof.Machine.execVminu core d a b w s
  | .vmaxu core d a b w => Sys2Proof.Machine.execVmaxu core d a b w s
  | .vcmpeq core d a b w => Sys2Proof.Machine.execVcmpeq core d a b w s
  | .vcmpgt core d a b w => Sys2Proof.Machine.execVcmpgt core d a b w s
  | .vfaddD core d a b => Sys2Proof.Machine.execVfaddD core d a b s
  | .vfsubD core d a b => Sys2Proof.Machine.execVfsubD core d a b s
  | .vfmulD core d a b => Sys2Proof.Machine.execVfmulD core d a b s
  | .vfminD core d a b => Sys2Proof.Machine.execVfminD core d a b s
  | .vfmaxD core d a b => Sys2Proof.Machine.execVfmaxD core d a b s
  | .vfcmpEqD core d a b => Sys2Proof.Machine.execVfcmpEqD core d a b s
  | .vfcmpLtD core d a b => Sys2Proof.Machine.execVfcmpLtD core d a b s
  | .vfcmpUnD core d a b => Sys2Proof.Machine.execVfcmpUnD core d a b s
  | .vfmaD core d a b c => Sys2Proof.Machine.execVfmaD core d a b c s
  | .ptab core d a b n1 g => Sys2Proof.Machine.execPtab core d a b n1 g s
  | .vsplat core d a w => Sys2Proof.Machine.execVsplat core d a w s
  | .vext core d a b w => Sys2Proof.Machine.execVext core d a b w s
  | .vins core d a b w => Sys2Proof.Machine.execVins core d a b w s
  | .sldv2 core d a w inc fmask off => Sys2Proof.Machine.execSldv2 core d a w inc fmask off s
  | .sldv3 core d a w inc fmask off => Sys2Proof.Machine.execSldv3 core d a w inc fmask off s
  | .sldv4 core d a w inc fmask off => Sys2Proof.Machine.execSldv4 core d a w inc fmask off s
  | .sstv2 core d a w inc fmask off => Sys2Proof.Machine.execSstv2 core d a w inc fmask off s
  | .sstv3 core d a w inc fmask off => Sys2Proof.Machine.execSstv3 core d a w inc fmask off s
  | .sstv4 core d a w inc fmask off => Sys2Proof.Machine.execSstv4 core d a w inc fmask off s
  | .siss core a => Sys2Proof.Machine.execSiss core a s
  | .mvis core a => Sys2Proof.Machine.execMvis core a s
  | .swait core mask => Sys2Proof.Machine.execSwait core mask s
  | .csrr core d imm => Sys2Proof.Machine.execCsrr core d imm s
  | .csrw core d imm => Sys2Proof.Machine.execCsrw core d imm s
  | .streamStart core port out => Sys2Proof.Machine.execStreamStart core port out s
  | .streamComplete core port out => Sys2Proof.Machine.execStreamComplete core port out s
  | .moveStart cluster => Sys2Proof.Machine.execMoveStart cluster s
  | .moveComplete cluster => Sys2Proof.Machine.execMoveComplete cluster s
  | .streamedOperand cell => Sys2Proof.Machine.execStreamedOperand cell s
  | .reductionTerm cell entry => Sys2Proof.Machine.execReductionTerm cell entry s
  | .topkElement cell => Sys2Proof.Machine.execTopkElement cell s
  | .bankLoad cell => Sys2Proof.Machine.execBankLoad cell s
  | .elementChain cell => Sys2Proof.Machine.execElementChain cell s
  | .drain cell residAddr => Sys2Proof.Machine.execDrain cell residAddr s
  | .pilotFrame p f => Sys2Proof.Machine.execPilotFrame p f s
  | .pilotLost p => Sys2Proof.Machine.execPilotLost p s
  | .pilotDetectorLost p chanB => Sys2Proof.Machine.execPilotDetectorLost p chanB s
  | .rampDone p lanes => Sys2Proof.Machine.execRampDone p lanes s
  | .trainDone p lanes => Sys2Proof.Machine.execTrainDone p lanes s
  | .laneGradeInterval p lanes corrected uncorr => Sys2Proof.Machine.execLaneGradeInterval p lanes corrected uncorr s
  | .laneMoveSwitch p => Sys2Proof.Machine.execLaneMoveSwitch p s
  | .releaseButton p => Sys2Proof.Machine.execReleaseButton p s
  | .latchTouch p => Sys2Proof.Machine.execLatchTouch p s
  | .latchHoldEnd p => Sys2Proof.Machine.execLatchHoldEnd p s
  | .latchSensorFault p => Sys2Proof.Machine.execLatchSensorFault p s
  | .laserDarkReading p dark => Sys2Proof.Machine.execLaserDarkReading p dark s
  | .drainEnd p => Sys2Proof.Machine.execDrainEnd p s
  | .drainTimeout p => Sys2Proof.Machine.execDrainTimeout p s
  | .creditReturn p vc flits => Sys2Proof.Machine.execCreditReturn p vc flits s
  | .packetInject dest => Sys2Proof.Machine.execPacketInject dest s
  | .packetRoute p k badHeader badFlit => Sys2Proof.Machine.execPacketRoute p k badHeader badFlit s
  | .dataPacketReceive => Sys2Proof.Machine.execDataPacketReceive s
  | .ack => Sys2Proof.Machine.execAck s
  | .packetNack => Sys2Proof.Machine.execPacketNack s
  | .fenced => Sys2Proof.Machine.execFenced s
  | .ackTimer src => Sys2Proof.Machine.execAckTimer src s
  | .resendTimeout dest seq => Sys2Proof.Machine.execResendTimeout dest seq s
  | .epochRetire => Sys2Proof.Machine.execEpochRetire s
  | .caravanOpen id => Sys2Proof.Machine.execCaravanOpen id s
  | .data => Sys2Proof.Machine.execData s
  | .ready => Sys2Proof.Machine.execReady s
  | .done => Sys2Proof.Machine.execDone s
  | .commit => Sys2Proof.Machine.execCommit s
  | .abort => Sys2Proof.Machine.execAbort s
  | .statusReq => Sys2Proof.Machine.execStatusReq s
  | .cycle => Sys2Proof.Machine.execCycle s
  | .readyResend id => Sys2Proof.Machine.execReadyResend id s
  | .caravanTimeout id => Sys2Proof.Machine.execCaravanTimeout id s
  | .parkedTimeout id => Sys2Proof.Machine.execParkedTimeout id s
  | .workingCopyDone => Sys2Proof.Machine.execWorkingCopyDone s
  | .dramRead addr errs => Sys2Proof.Machine.execDramRead addr errs s
  | .dramWrite addr bytes poison => Sys2Proof.Machine.execDramWrite addr bytes poison s
  | .patrolRead stack errs => Sys2Proof.Machine.execPatrolRead stack errs s
  | .retirementStart stack => Sys2Proof.Machine.execRetirementStart stack s
  | .retirementComplete stack => Sys2Proof.Machine.execRetirementComplete stack s
  | .managementPeriod r => Sys2Proof.Machine.execManagementPeriod r s
  | .powerSample mv ma mw => Sys2Proof.Machine.execPowerSample mv ma mw s
  | .lockMonitorWindow bad refLost => Sys2Proof.Machine.execLockMonitorWindow bad refLost s
  | .droop core => Sys2Proof.Machine.execDroop core s
  | .recalTimeout => Sys2Proof.Machine.execRecalTimeout s
  | .lockstepMismatch => Sys2Proof.Machine.execLockstepMismatch s
  | .mcRestartDone => Sys2Proof.Machine.execMcRestartDone s
  | .heartbeatLost => Sys2Proof.Machine.execHeartbeatLost s
  | .heartbeatRestored => Sys2Proof.Machine.execHeartbeatRestored s
  | .fibrePowerHold p fibre uw => Sys2Proof.Machine.execFibrePowerHold p fibre uw s
  | .safetyTrip cause value die => Sys2Proof.Machine.execSafetyTrip cause value die s
  | .tripPowerOff => Sys2Proof.Machine.execTripPowerOff s
  | .fuseOpen cause value => Sys2Proof.Machine.execFuseOpen cause value s
  | .tripRestart => Sys2Proof.Machine.execTripRestart s
  | .safetyMonitorFail => Sys2Proof.Machine.execSafetyMonitorFail s
  | .safeLoopDriveEnd => Sys2Proof.Machine.execSafeLoopDriveEnd s
  | .loopEvent => Sys2Proof.Machine.execLoopEvent s
  | .loopStuck => Sys2Proof.Machine.execLoopStuck s
  | .serviceButton => Sys2Proof.Machine.execServiceButton s
  | .presenceTimeout => Sys2Proof.Machine.execPresenceTimeout s
  | .mateChange high => Sys2Proof.Machine.execMateChange high s
  | .undervoltage mv => Sys2Proof.Machine.execUndervoltage mv s
  | .inputRestored => Sys2Proof.Machine.execInputRestored s
  | .dStateChange port d => Sys2Proof.Machine.execDStateChange port d s
  | .perstHoldTimeout port => Sys2Proof.Machine.execPerstHoldTimeout port s
  | .powerTransitionDone => Sys2Proof.Machine.execPowerTransitionDone s
  | .coldReset => Sys2Proof.Machine.execColdReset s
  | .warmReset cause => Sys2Proof.Machine.execWarmReset cause s
  | .quiesceEnd => Sys2Proof.Machine.execQuiesceEnd s
  | .fabricReset => Sys2Proof.Machine.execFabricReset s
  | .portReset port kind => Sys2Proof.Machine.execPortReset port kind s
  | .bringupStep o => Sys2Proof.Machine.execBringupStep o s
  | .fwBootTimeout => Sys2Proof.Machine.execFwBootTimeout s
  | .windowClose => Sys2Proof.Machine.execWindowClose s
  | .perstRelease port => Sys2Proof.Machine.execPerstRelease port s
  | .pcieLinkUp port => Sys2Proof.Machine.execPcieLinkUp port s
  | .pilotDetectorPresent p chanB => Sys2Proof.Machine.execPilotDetectorPresent p chanB s
  | .droopRecovery core => Sys2Proof.Machine.execDroopRecovery core s
  | .loopStuckEnd => Sys2Proof.Machine.execLoopStuckEnd s
  | .unlockScrubDone tests => Sys2Proof.Machine.execUnlockScrubDone tests s
  | .smbusAccess addr writeBytes readLen => Sys2Proof.Machine.execSmbusAccess addr writeBytes readLen s
  | .jtagDbacc off write value => Sys2Proof.Machine.execJtagDbacc off write value s

end Sys2Proof.Machine
end

