-- ==== Sys2Proof/WellFormed.lean ====
section
/-!
DEFINITION. Which commands are well formed: they name units the module has, and their numbers fit the fields that carry
them (R5, Table 0.3; 13 Table 13.2, 13.5; 11 Table 11.1; 10 Tables 10.2, 10.5).
-/

namespace Sys2Proof

/-- The fields of a command slot's head fit (Table 13.2). -/
def CmdHdr.wf (h : CmdHdr) : Bool := decide (h.vec < 256)

/-- The fields of a descriptor fit their bytes (Table 11.1). -/
def CollDesc.wf (d : CollDesc) : Bool :=
  decide (d.kind < 256) && decide (d.mode < 256) && decide (d.flags < 256) && decide (d.param < 256) &&
    decide (d.caravan < 2 ^ 32) && decide (d.src < 2 ^ 64) && decide (d.dst < 2 ^ 64) && decide (d.group < 2 ^ 64) &&
    decide (d.count < 2 ^ 32) && decide (d.members < 2 ^ 32) && decide (d.root < 2 ^ 16) && decide (d.unitLog2 < 256) &&
    decide (d.step < 2 ^ 32) && decide (d.aux < 2 ^ 64)

/-- The fields of a pilot frame fit (Table 10.2). -/
def PilotFrame.wf (f : PilotFrame) : Bool :=
  decide (f.rank < 2 ^ 16) && decide (f.physPort < 16) && decide (f.dir < 16) && decide (f.state < 16) &&
    (match f.move with
      | some n => decide (n < 20)
      | none => true) && decide (f.moveTo < 32)

/-- The fields of a packet fit, and its payload is no longer than 2,048 bytes (R310, Table 10.5). -/
def Packet.wf (k : Packet) : Bool :=
  decide (k.dest < 2 ^ 16) && decide (k.src < 2 ^ 16) && decide (k.typ < 16) && decide (k.epoch < 4) && decide (k.layer < 4) &&
    decide (k.caravan < 2 ^ 20) && decide (k.seq < 2 ^ 24) && decide (k.ackSeq < 2 ^ 24) && decide (k.sub < 16) &&
    decide (k.stage < 16) && decide (k.offset < 2 ^ 24) && decide (k.endUnit < 2 ^ 24) && decide (k.payload.length ≤ 2048)

/-- A register access is 4 or 8 bytes wide (R12). -/
def widthOk (width : Nat) : Bool := width == 4 || width == 8

/-- Whether a command names only units the module has (Table 0.3). -/
def Instr.unitsOk : Instr → Bool
  | .commandSlotWrite port _ _ => decide (port < 2)
  | .loadConfig h _ _ => decide (h.port < 2)
  | .switchContext h _ _ => decide (h.port < 2)
  | .runPhase h _ _ _ => decide (h.port < 2)
  | .runProgram h _ => decide (h.port < 2)
  | .allReduce h _ => decide (h.port < 2)
  | .reduceScatter h _ => decide (h.port < 2)
  | .allGather h _ => decide (h.port < 2)
  | .multicast h _ => decide (h.port < 2)
  | .topkGather h _ => decide (h.port < 2)
  | .fencePeer h _ => decide (h.port < 2)
  | .unfencePeer h _ => decide (h.port < 2)
  | .setRoutes h _ _ _ => decide (h.port < 2)
  | .setRouteEpoch h _ => decide (h.port < 2)
  | .copy h _ _ _ _ => decide (h.port < 2)
  | .checkpoint h _ _ _ _ => decide (h.port < 2)
  | .restore h _ _ _ => decide (h.port < 2)
  | .reshard h _ => decide (h.port < 2)
  | .reshardResume h _ => decide (h.port < 2)
  | .reshardRollback h _ => decide (h.port < 2)
  | .suspend h _ => decide (h.port < 2)
  | .resume h _ => decide (h.port < 2)
  | .cancel h _ => decide (h.port < 2)
  | .queryDevice h => decide (h.port < 2)
  | .queryLongOp h _ => decide (h.port < 2)
  | .scrub h => decide (h.port < 2)
  | .fwUpdate h _ _ => decide (h.port < 2)
  | .bbExport h _ _ _ => decide (h.port < 2)
  | .portRelease h _ => decide (h.port < 2)
  | .portReleaseForce h _ => decide (h.port < 2)
  | .portAdmit h _ => decide (h.port < 2)
  | .reset h => decide (h.port < 2)
  | .attest h _ _ _ => decide (h.port < 2)
  | .debugUnlock h _ _ _ => decide (h.port < 2)
  | .lcProvision h _ _ => decide (h.port < 2)
  | .lcDeploy h _ _ => decide (h.port < 2)
  | .lcReturn h _ _ => decide (h.port < 2)
  | .setPowerState h _ _ => decide (h.port < 2)
  | .stewardClaim h => decide (h.port < 2)
  | .stewardYield h => decide (h.port < 2)
  | .longOpStart _ => true
  | .pausePointReached _ => true
  | .cancelUndoDone _ => true
  | .longOpWorkEnd _ _ => true
  | .completionRecordWrite port => decide (port < 2)
  | .cpCqHeadWrite port _ => decide (port < 2)
  | .cqEnable port _ => decide (port < 2)
  | .cpStewardKeepalive port _ => decide (port < 2)
  | .stewardWindow => true
  | .stewardLeaseExpiry => true
  | .registerWrite port _ _ _ => decide (port < 2)
  | .registerAccessTimeout port _ => decide (port < 2)
  | .bar4Read port _ _ => decide (port < 2)
  | .bar4Write port _ _ => decide (port < 2)
  | .sensorRead port => decide (port < 2)
  | .identityRead port => decide (port < 2)
  | .nonceDraw port => decide (port < 2)
  | .debugHalt port _ => decide (port < 2)
  | .debugRelease port _ => decide (port < 2)
  | .mcuHalt port _ => decide (port < 2)
  | .mcuStep port _ => decide (port < 2)
  | .bbRecSel port _ => decide (port < 2)
  | .bbNoteGo _ => true
  | .ueStepWrite port _ => decide (port < 2)
  | .attemptStart => true
  | .phaseStart die => decide (die < 8)
  | .cfgLoad die => decide (die < 8)
  | .ctxSwitch die => decide (die < 8)
  | .collDesc => true
  | .regAccess port _ _ _ _ _ => decide (port < 3)
  | .completion => true
  | .regReply => true
  | .nack => true
  | .telemetryInterval stack => decide (stack < 8)
  | .counterSnapshot => true
  | .expHistogram => true
  | .satVanish => true
  | .laneHealth => true
  | .orderAck => true
  | .mgmtRequest => true
  | .waystationFault _ _ => true
  | .throttle _ _ => true
  | .halt _ _ _ _ => true
  | .haltRelease _ _ _ _ => true
  | .portShutdown _ => true
  | .portRestore _ => true
  | .mgmtReply => true
  | .interlockOrderRepeat _ => true
  | .fetch => true
  | .verify => true
  | .apply => true
  | .report => true
  | .prun core _ _ => decide (core < Config.numCores)
  | .pwait core => decide (core < Config.numCores)
  | .csw core _ => decide (core < Config.numCores)
  | .psync core => decide (core < Config.numCores)
  | .psyncRelease _ => true
  | .endProgram core => decide (core < Config.numCores)
  | .programEnd _ => true
  | .phaseEnd core => decide (core < Config.numCores)
  | .totalsTimeout _ die => decide (die < Config.numDies)
  | .add core _ _ _ => decide (core < Config.numCores)
  | .sub core _ _ _ => decide (core < Config.numCores)
  | .and core _ _ _ => decide (core < Config.numCores)
  | .or core _ _ _ => decide (core < Config.numCores)
  | .xor core _ _ _ => decide (core < Config.numCores)
  | .sll core _ _ _ => decide (core < Config.numCores)
  | .srl core _ _ _ => decide (core < Config.numCores)
  | .sra core _ _ _ => decide (core < Config.numCores)
  | .slt core _ _ _ => decide (core < Config.numCores)
  | .sltu core _ _ _ => decide (core < Config.numCores)
  | .min core _ _ _ => decide (core < Config.numCores)
  | .max core _ _ _ => decide (core < Config.numCores)
  | .minu core _ _ _ => decide (core < Config.numCores)
  | .maxu core _ _ _ => decide (core < Config.numCores)
  | .mul core _ _ _ => decide (core < Config.numCores)
  | .mulhu core _ _ _ => decide (core < Config.numCores)
  | .divu core _ _ _ => decide (core < Config.numCores)
  | .remu core _ _ _ => decide (core < Config.numCores)
  | .clz core _ _ => decide (core < Config.numCores)
  | .popc core _ _ => decide (core < Config.numCores)
  | .addi core _ _ _ => decide (core < Config.numCores)
  | .andi core _ _ _ => decide (core < Config.numCores)
  | .ori core _ _ _ => decide (core < Config.numCores)
  | .xori core _ _ _ => decide (core < Config.numCores)
  | .slti core _ _ _ => decide (core < Config.numCores)
  | .sltiu core _ _ _ => decide (core < Config.numCores)
  | .slli core _ _ _ => decide (core < Config.numCores)
  | .srli core _ _ _ => decide (core < Config.numCores)
  | .srai core _ _ _ => decide (core < Config.numCores)
  | .lui core _ _ => decide (core < Config.numCores)
  | .lb core _ _ _ => decide (core < Config.numCores)
  | .lbu core _ _ _ => decide (core < Config.numCores)
  | .lh core _ _ _ => decide (core < Config.numCores)
  | .lhu core _ _ _ => decide (core < Config.numCores)
  | .lw core _ _ _ => decide (core < Config.numCores)
  | .lwu core _ _ _ => decide (core < Config.numCores)
  | .ld core _ _ _ => decide (core < Config.numCores)
  | .sb core _ _ _ => decide (core < Config.numCores)
  | .sh core _ _ _ => decide (core < Config.numCores)
  | .sw core _ _ _ => decide (core < Config.numCores)
  | .sd core _ _ _ => decide (core < Config.numCores)
  | .fld core _ _ _ => decide (core < Config.numCores)
  | .fsd core _ _ _ => decide (core < Config.numCores)
  | .vld core _ _ _ => decide (core < Config.numCores)
  | .vst core _ _ _ => decide (core < Config.numCores)
  | .beq core _ _ _ => decide (core < Config.numCores)
  | .bne core _ _ _ => decide (core < Config.numCores)
  | .blt core _ _ _ => decide (core < Config.numCores)
  | .bge core _ _ _ => decide (core < Config.numCores)
  | .bltu core _ _ _ => decide (core < Config.numCores)
  | .bgeu core _ _ _ => decide (core < Config.numCores)
  | .jal core _ _ => decide (core < Config.numCores)
  | .jalr core _ _ _ => decide (core < Config.numCores)
  | .fadd core _ _ _ => decide (core < Config.numCores)
  | .fsub core _ _ _ => decide (core < Config.numCores)
  | .fmul core _ _ _ => decide (core < Config.numCores)
  | .fmin core _ _ _ => decide (core < Config.numCores)
  | .fmax core _ _ _ => decide (core < Config.numCores)
  | .fneg core _ _ => decide (core < Config.numCores)
  | .fabs core _ _ => decide (core < Config.numCores)
  | .fcmpEq core _ _ _ => decide (core < Config.numCores)
  | .fcmpNe core _ _ _ => decide (core < Config.numCores)
  | .fcmpLt core _ _ _ => decide (core < Config.numCores)
  | .fcmpLe core _ _ _ => decide (core < Config.numCores)
  | .fcmpGt core _ _ _ => decide (core < Config.numCores)
  | .fcmpGe core _ _ _ => decide (core < Config.numCores)
  | .fcmpUn core _ _ _ => decide (core < Config.numCores)
  | .fmvgf core _ _ => decide (core < Config.numCores)
  | .fmvfg core _ _ => decide (core < Config.numCores)
  | .fma core _ _ _ _ => decide (core < Config.numCores)
  | .fms core _ _ _ _ => decide (core < Config.numCores)
  | .fnma core _ _ _ _ => decide (core < Config.numCores)
  | .fsel core _ _ _ _ => decide (core < Config.numCores)
  | .vadd core _ _ _ _ => decide (core < Config.numCores)
  | .vsub core _ _ _ _ => decide (core < Config.numCores)
  | .vand core _ _ _ _ => decide (core < Config.numCores)
  | .vor core _ _ _ _ => decide (core < Config.numCores)
  | .vxor core _ _ _ _ => decide (core < Config.numCores)
  | .vmin core _ _ _ _ => decide (core < Config.numCores)
  | .vmax core _ _ _ _ => decide (core < Config.numCores)
  | .vminu core _ _ _ _ => decide (core < Config.numCores)
  | .vmaxu core _ _ _ _ => decide (core < Config.numCores)
  | .vcmpeq core _ _ _ _ => decide (core < Config.numCores)
  | .vcmpgt core _ _ _ _ => decide (core < Config.numCores)
  | .vfaddD core _ _ _ => decide (core < Config.numCores)
  | .vfsubD core _ _ _ => decide (core < Config.numCores)
  | .vfmulD core _ _ _ => decide (core < Config.numCores)
  | .vfminD core _ _ _ => decide (core < Config.numCores)
  | .vfmaxD core _ _ _ => decide (core < Config.numCores)
  | .vfcmpEqD core _ _ _ => decide (core < Config.numCores)
  | .vfcmpLtD core _ _ _ => decide (core < Config.numCores)
  | .vfcmpUnD core _ _ _ => decide (core < Config.numCores)
  | .vfmaD core _ _ _ _ => decide (core < Config.numCores)
  | .ptab core _ _ _ _ _ => decide (core < Config.numCores)
  | .vsplat core _ _ _ => decide (core < Config.numCores)
  | .vext core _ _ _ _ => decide (core < Config.numCores)
  | .vins core _ _ _ _ => decide (core < Config.numCores)
  | .sldv2 core _ _ _ _ _ _ => decide (core < Config.numCores)
  | .sldv3 core _ _ _ _ _ _ => decide (core < Config.numCores)
  | .sldv4 core _ _ _ _ _ _ => decide (core < Config.numCores)
  | .sstv2 core _ _ _ _ _ _ => decide (core < Config.numCores)
  | .sstv3 core _ _ _ _ _ _ => decide (core < Config.numCores)
  | .sstv4 core _ _ _ _ _ _ => decide (core < Config.numCores)
  | .siss core _ => decide (core < Config.numCores)
  | .mvis core _ => decide (core < Config.numCores)
  | .swait core _ => decide (core < Config.numCores)
  | .csrr core _ _ => decide (core < Config.numCores)
  | .csrw core _ _ => decide (core < Config.numCores)
  | .streamStart core port _ => decide (core < Config.numCores) && decide (port < 4)
  | .streamComplete core port _ => decide (core < Config.numCores) && decide (port < 4)
  | .moveStart cluster => decide (cluster < Config.numClusters)
  | .moveComplete cluster => decide (cluster < Config.numClusters)
  | .streamedOperand cell => decide (cell < Config.numCells)
  | .reductionTerm cell _ => decide (cell < Config.numCells)
  | .topkElement cell => decide (cell < Config.numCells)
  | .bankLoad cell => decide (cell < Config.numCells)
  | .elementChain cell => decide (cell < Config.numCells)
  | .drain cell _ => decide (cell < Config.numCells)
  | .pilotFrame p _ => decide (p < 10)
  | .pilotLost p => decide (p < 10)
  | .pilotDetectorLost p _ => decide (p < 10)
  | .rampDone p _ => decide (p < 10)
  | .trainDone p _ => decide (p < 10)
  | .laneGradeInterval p _ _ _ => decide (p < 10)
  | .laneMoveSwitch p => decide (p < 10)
  | .releaseButton p => decide (p < 10)
  | .latchTouch p => decide (p < 10)
  | .latchHoldEnd p => decide (p < 10)
  | .latchSensorFault p => decide (p < 10)
  | .laserDarkReading p _ => decide (p < 10)
  | .drainEnd p => decide (p < 10)
  | .drainTimeout p => decide (p < 10)
  | .creditReturn p _ _ => decide (p < 10)
  | .packetInject _ => true
  | .packetRoute p _ _ _ => decide (p < 10)
  | .dataPacketReceive => true
  | .ack => true
  | .packetNack => true
  | .fenced => true
  | .ackTimer _ => true
  | .resendTimeout _ _ => true
  | .epochRetire => true
  | .caravanOpen _ => true
  | .data => true
  | .ready => true
  | .done => true
  | .commit => true
  | .abort => true
  | .statusReq => true
  | .cycle => true
  | .readyResend _ => true
  | .caravanTimeout _ => true
  | .parkedTimeout _ => true
  | .workingCopyDone => true
  | .dramRead _ _ => true
  | .dramWrite _ _ _ => true
  | .patrolRead stack _ => decide (stack < Config.numDies)
  | .retirementStart stack => decide (stack < Config.numDies)
  | .retirementComplete stack => decide (stack < Config.numDies)
  | .managementPeriod _ => true
  | .powerSample _ _ _ => true
  | .lockMonitorWindow _ _ => true
  | .droop core => decide (core < Config.numCores)
  | .recalTimeout => true
  | .lockstepMismatch => true
  | .mcRestartDone => true
  | .heartbeatLost => true
  | .heartbeatRestored => true
  | .fibrePowerHold p fibre _ => decide (p < 10) && decide (fibre < 5)
  | .safetyTrip _ _ _ => true
  | .tripPowerOff => true
  | .fuseOpen _ _ => true
  | .tripRestart => true
  | .safetyMonitorFail => true
  | .safeLoopDriveEnd => true
  | .loopEvent => true
  | .loopStuck => true
  | .serviceButton => true
  | .presenceTimeout => true
  | .mateChange _ => true
  | .undervoltage _ => true
  | .inputRestored => true
  | .dStateChange port _ => decide (port < 2)
  | .perstHoldTimeout port => decide (port < 2)
  | .powerTransitionDone => true
  | .coldReset => true
  | .warmReset _ => true
  | .quiesceEnd => true
  | .fabricReset => true
  | .portReset port _ => decide (port < 2)
  | .bringupStep _ => true
  | .fwBootTimeout => true
  | .windowClose => true
  | .perstRelease port => decide (port < 2)
  | .pcieLinkUp port => decide (port < 2)
  | .pilotDetectorPresent p _ => decide (p < 10)
  | .droopRecovery core => decide (core < Config.numCores)
  | .loopStuckEnd => true
  | .unlockScrubDone _ => true
  | .smbusAccess _ _ _ => true
  | .jtagDbacc _ _ _ => true

/-- Whether the numbers of a command fit the fields that carry them. -/
def Instr.fieldsOk : Instr → Bool
  | .commandSlotWrite _ off bytes => decide (off + bytes.length ≤ 0x100000)
  | .loadConfig h addr bytes => h.wf && decide (addr < 2 ^ 64) && decide (bytes < 2 ^ 32)
  | .switchContext h region ctx => h.wf && decide (region < 256) && decide (ctx < 256)
  | .runPhase h region phase count => h.wf && decide (region < 256) && decide (phase < 2 ^ 16) && decide (count < 2 ^ 64)
  | .runProgram h region => h.wf && decide (region < 256)
  | .allReduce h d => h.wf && d.wf
  | .reduceScatter h d => h.wf && d.wf
  | .allGather h d => h.wf && d.wf
  | .multicast h d => h.wf && d.wf
  | .topkGather h d => h.wf && d.wf
  | .fencePeer h rank => h.wf && decide (rank < 2 ^ 16)
  | .unfencePeer h rank => h.wf && decide (rank < 2 ^ 16)
  | .setRoutes h epoch down detour => h.wf && decide (epoch < 256) && decide (down < 256) && decide (detour < 2 ^ 32)
  | .setRouteEpoch h epoch => h.wf && decide (epoch < 256)
  | .copy h src dst len dir => h.wf && decide (src < 2 ^ 64) && decide (dst < 2 ^ 64) && decide (len < 2 ^ 64) && decide (dir < 256)
  | .checkpoint h listAddr entries hostAddr hostBytes => h.wf && decide (listAddr < 2 ^ 64) && decide (entries < 2 ^ 16) && decide (hostAddr < 2 ^ 64) && decide (hostBytes < 2 ^ 64)
  | .restore h hostAddr hostBytes flags => h.wf && decide (hostAddr < 2 ^ 64) && decide (hostBytes < 2 ^ 64) && decide (flags < 256)
  | .reshard h d => h.wf && d.wf
  | .reshardResume h d => h.wf && d.wf
  | .reshardRollback h d => h.wf && d.wf
  | .suspend h handle => h.wf && decide (handle < 2 ^ 32)
  | .resume h handle => h.wf && decide (handle < 2 ^ 32)
  | .cancel h handle => h.wf && decide (handle < 2 ^ 32)
  | .queryDevice h => h.wf
  | .queryLongOp h handle => h.wf && decide (handle < 2 ^ 32)
  | .scrub h => h.wf
  | .fwUpdate h addr bytes => h.wf && decide (addr < 2 ^ 64) && decide (bytes < 2 ^ 32)
  | .bbExport h hostAddr hostBytes fromSeq => h.wf && decide (hostAddr < 2 ^ 64) && decide (hostBytes < 2 ^ 64) && decide (fromSeq < 2 ^ 64)
  | .portRelease h p => h.wf && decide (p < 256)
  | .portReleaseForce h p => h.wf && decide (p < 256)
  | .portAdmit h p => h.wf && decide (p < 256)
  | .reset h => h.wf
  | .attest h _ hostAddr hostBytes => h.wf && decide (hostAddr < 2 ^ 64) && decide (hostBytes < 2 ^ 32)
  | .debugUnlock h tokenAddr tokenBytes level => h.wf && decide (tokenAddr < 2 ^ 64) && decide (tokenBytes < 2 ^ 32) && decide (level < 256)
  | .lcProvision h tokenAddr tokenBytes => h.wf && decide (tokenAddr < 2 ^ 64) && decide (tokenBytes < 2 ^ 32)
  | .lcDeploy h tokenAddr tokenBytes => h.wf && decide (tokenAddr < 2 ^ 64) && decide (tokenBytes < 2 ^ 32)
  | .lcReturn h tokenAddr tokenBytes => h.wf && decide (tokenAddr < 2 ^ 64) && decide (tokenBytes < 2 ^ 32)
  | .setPowerState h st cap => h.wf && decide (st < 256) && decide (cap < 2 ^ 16)
  | .stewardClaim h => h.wf
  | .stewardYield h => h.wf
  | .longOpStart _ => true
  | .pausePointReached _ => true
  | .cancelUndoDone _ => true
  | .longOpWorkEnd _ _ => true
  | .completionRecordWrite _ => true
  | .cpCqHeadWrite _ _ => true
  | .cqEnable _ _ => true
  | .cpStewardKeepalive _ _ => true
  | .stewardWindow => true
  | .stewardLeaseExpiry => true
  | .registerWrite _ off width _ => decide (off < 2 ^ 26) && widthOk width
  | .registerAccessTimeout _ _ => true
  | .bar4Read _ off len => decide (off + len ≤ 2 ^ 36)
  | .bar4Write _ off bytes => decide (off + bytes.length ≤ 2 ^ 36)
  | .sensorRead _ => true
  | .identityRead _ => true
  | .nonceDraw _ => true
  | .debugHalt _ _ => true
  | .debugRelease _ _ => true
  | .mcuHalt _ _ => true
  | .mcuStep _ _ => true
  | .bbRecSel _ seq => decide (seq < 2 ^ 64)
  | .bbNoteGo note => decide (note.length ≤ 256)
  | .ueStepWrite _ _ => true
  | .attemptStart => true
  | .phaseStart _ => true
  | .cfgLoad _ => true
  | .ctxSwitch _ => true
  | .collDesc => true
  | .regAccess _ off width _ _ _ => decide (off < 2 ^ 26) && widthOk width
  | .completion => true
  | .regReply => true
  | .nack => true
  | .telemetryInterval _ => true
  | .counterSnapshot => true
  | .expHistogram => true
  | .satVanish => true
  | .laneHealth => true
  | .orderAck => true
  | .mgmtRequest => true
  | .waystationFault _ _ => true
  | .throttle dies mhz => decide (dies < 256) && decide (mhz < 2 ^ 16)
  | .halt _ _ _ _ => true
  | .haltRelease _ _ _ _ => true
  | .portShutdown _ => true
  | .portRestore _ => true
  | .mgmtReply => true
  | .interlockOrderRepeat _ => true
  | .fetch => true
  | .verify => true
  | .apply => true
  | .report => true
  | .prun _ _ _ => true
  | .pwait _ => true
  | .csw _ _ => true
  | .psync _ => true
  | .psyncRelease _ => true
  | .endProgram _ => true
  | .programEnd _ => true
  | .phaseEnd _ => true
  | .totalsTimeout _ _ => true
  | .add _ _ _ _ => true
  | .sub _ _ _ _ => true
  | .and _ _ _ _ => true
  | .or _ _ _ _ => true
  | .xor _ _ _ _ => true
  | .sll _ _ _ _ => true
  | .srl _ _ _ _ => true
  | .sra _ _ _ _ => true
  | .slt _ _ _ _ => true
  | .sltu _ _ _ _ => true
  | .min _ _ _ _ => true
  | .max _ _ _ _ => true
  | .minu _ _ _ _ => true
  | .maxu _ _ _ _ => true
  | .mul _ _ _ _ => true
  | .mulhu _ _ _ _ => true
  | .divu _ _ _ _ => true
  | .remu _ _ _ _ => true
  | .clz _ _ _ => true
  | .popc _ _ _ => true
  | .addi _ _ _ _ => true
  | .andi _ _ _ _ => true
  | .ori _ _ _ _ => true
  | .xori _ _ _ _ => true
  | .slti _ _ _ _ => true
  | .sltiu _ _ _ _ => true
  | .slli _ _ _ _ => true
  | .srli _ _ _ _ => true
  | .srai _ _ _ _ => true
  | .lui _ _ _ => true
  | .lb _ _ _ _ => true
  | .lbu _ _ _ _ => true
  | .lh _ _ _ _ => true
  | .lhu _ _ _ _ => true
  | .lw _ _ _ _ => true
  | .lwu _ _ _ _ => true
  | .ld _ _ _ _ => true
  | .sb _ _ _ _ => true
  | .sh _ _ _ _ => true
  | .sw _ _ _ _ => true
  | .sd _ _ _ _ => true
  | .fld _ _ _ _ => true
  | .fsd _ _ _ _ => true
  | .vld _ _ _ _ => true
  | .vst _ _ _ _ => true
  | .beq _ _ _ _ => true
  | .bne _ _ _ _ => true
  | .blt _ _ _ _ => true
  | .bge _ _ _ _ => true
  | .bltu _ _ _ _ => true
  | .bgeu _ _ _ _ => true
  | .jal _ _ _ => true
  | .jalr _ _ _ _ => true
  | .fadd _ _ _ _ => true
  | .fsub _ _ _ _ => true
  | .fmul _ _ _ _ => true
  | .fmin _ _ _ _ => true
  | .fmax _ _ _ _ => true
  | .fneg _ _ _ => true
  | .fabs _ _ _ => true
  | .fcmpEq _ _ _ _ => true
  | .fcmpNe _ _ _ _ => true
  | .fcmpLt _ _ _ _ => true
  | .fcmpLe _ _ _ _ => true
  | .fcmpGt _ _ _ _ => true
  | .fcmpGe _ _ _ _ => true
  | .fcmpUn _ _ _ _ => true
  | .fmvgf _ _ _ => true
  | .fmvfg _ _ _ => true
  | .fma _ _ _ _ _ => true
  | .fms _ _ _ _ _ => true
  | .fnma _ _ _ _ _ => true
  | .fsel _ _ _ _ _ => true
  | .vadd _ _ _ _ _ => true
  | .vsub _ _ _ _ _ => true
  | .vand _ _ _ _ _ => true
  | .vor _ _ _ _ _ => true
  | .vxor _ _ _ _ _ => true
  | .vmin _ _ _ _ _ => true
  | .vmax _ _ _ _ _ => true
  | .vminu _ _ _ _ _ => true
  | .vmaxu _ _ _ _ _ => true
  | .vcmpeq _ _ _ _ _ => true
  | .vcmpgt _ _ _ _ _ => true
  | .vfaddD _ _ _ _ => true
  | .vfsubD _ _ _ _ => true
  | .vfmulD _ _ _ _ => true
  | .vfminD _ _ _ _ => true
  | .vfmaxD _ _ _ _ => true
  | .vfcmpEqD _ _ _ _ => true
  | .vfcmpLtD _ _ _ _ => true
  | .vfcmpUnD _ _ _ _ => true
  | .vfmaD _ _ _ _ _ => true
  | .ptab _ _ _ _ _ _ => true
  | .vsplat _ _ _ _ => true
  | .vext _ _ _ _ _ => true
  | .vins _ _ _ _ _ => true
  | .sldv2 _ _ _ _ _ _ _ => true
  | .sldv3 _ _ _ _ _ _ _ => true
  | .sldv4 _ _ _ _ _ _ _ => true
  | .sstv2 _ _ _ _ _ _ _ => true
  | .sstv3 _ _ _ _ _ _ _ => true
  | .sstv4 _ _ _ _ _ _ _ => true
  | .siss _ _ => true
  | .mvis _ _ => true
  | .swait _ _ => true
  | .csrr _ _ _ => true
  | .csrw _ _ _ => true
  | .streamStart _ _ _ => true
  | .streamComplete _ _ _ => true
  | .moveStart _ => true
  | .moveComplete _ => true
  | .streamedOperand _ => true
  | .reductionTerm _ _ => true
  | .topkElement _ => true
  | .bankLoad _ => true
  | .elementChain _ => true
  | .drain _ _ => true
  | .pilotFrame _ f => f.wf
  | .pilotLost _ => true
  | .pilotDetectorLost _ _ => true
  | .rampDone _ _ => true
  | .trainDone _ _ => true
  | .laneGradeInterval _ _ _ _ => true
  | .laneMoveSwitch _ => true
  | .releaseButton _ => true
  | .latchTouch _ => true
  | .latchHoldEnd _ => true
  | .latchSensorFault _ => true
  | .laserDarkReading _ _ => true
  | .drainEnd _ => true
  | .drainTimeout _ => true
  | .creditReturn _ vc _ => decide (vc < 20)
  | .packetInject dest => decide (dest < 2 ^ 16)
  | .packetRoute _ k _ _ => k.wf
  | .dataPacketReceive => true
  | .ack => true
  | .packetNack => true
  | .fenced => true
  | .ackTimer src => decide (src < 2 ^ 16)
  | .resendTimeout dest _ => decide (dest < 2 ^ 16)
  | .epochRetire => true
  | .caravanOpen _ => true
  | .data => true
  | .ready => true
  | .done => true
  | .commit => true
  | .abort => true
  | .statusReq => true
  | .cycle => true
  | .readyResend _ => true
  | .caravanTimeout _ => true
  | .parkedTimeout _ => true
  | .workingCopyDone => true
  | .dramRead addr _ => addr % 32 == 0
  | .dramWrite addr bytes _ => bytes.length == 32 && addr % 32 == 0
  | .patrolRead _ _ => true
  | .retirementStart _ => true
  | .retirementComplete _ => true
  | .managementPeriod _ => true
  | .powerSample _ _ _ => true
  | .lockMonitorWindow _ _ => true
  | .droop _ => true
  | .recalTimeout => true
  | .lockstepMismatch => true
  | .mcRestartDone => true
  | .heartbeatLost => true
  | .heartbeatRestored => true
  | .fibrePowerHold _ _ _ => true
  | .safetyTrip _ _ _ => true
  | .tripPowerOff => true
  | .fuseOpen _ _ => true
  | .tripRestart => true
  | .safetyMonitorFail => true
  | .safeLoopDriveEnd => true
  | .loopEvent => true
  | .loopStuck => true
  | .serviceButton => true
  | .presenceTimeout => true
  | .mateChange _ => true
  | .undervoltage _ => true
  | .inputRestored => true
  | .dStateChange _ d => decide (d < 4)
  | .perstHoldTimeout _ => true
  | .powerTransitionDone => true
  | .coldReset => true
  | .warmReset _ => true
  | .quiesceEnd => true
  | .fabricReset => true
  | .portReset _ _ => true
  | .bringupStep _ => true
  | .fwBootTimeout => true
  | .windowClose => true
  | .perstRelease _ => true
  | .pcieLinkUp _ => true
  | .pilotDetectorPresent _ _ => true
  | .droopRecovery _ => true
  | .loopStuckEnd => true
  | .unlockScrubDone _ => true
  | .smbusAccess addr _ _ => decide (addr < 128)
  | .jtagDbacc off _ _ => decide (off < 2 ^ 26)

/-- A well-formed command. -/
def Instr.wf (i : Instr) : Bool := i.unitsOk && i.fieldsOk

end Sys2Proof
end

