-- ==== Sys2Proof/Safety.lean ====
section
/-!
DEFINITION. The terms that claims about the machine use: when a command runs, what it answers, and what a safe run is.
-/

namespace Sys2Proof.Machine

open Sys2Proof

/-! ### Answers -/

/-- The command answers a next state, and that state satisfies `P`. -/
def Answers (i : Instr) (s : State) (P : State → Prop) : Prop := ∃ t, exec i s = .next t ∧ P t

/-- A safe run: `n` steps that stop nowhere. -/
def SafeFor : Nat → State → Prop
  | 0, _ => True
  | n + 1, s => ∃ t, step s = .next t ∧ SafeFor n t

/-! ### Sequencer instructions -/

/-- The core's sequencer executes the legal word `w` at its program counter now (R183, R194, R200, R201): a program
runs, it stands at no barrier, no halt holds its die, and the program counter lies in the program section. -/
abbrev SeqRuns (s : State) (core : Nat) (w : W32) : Prop :=
  core < Config.numCores ∧ seqReady s core = true ∧ pcInSection (getCore s core) = true ∧ seqLegal w = true ∧
    fetchWord (getCore s core) = w

/-- The state in which the core has become `c` and its program counter has moved to the next instruction. -/
def seqNext (core : Nat) (c : Core) (s : State) : State := setCore s core { c with pc := c.pc + 4 }

/-- The instruction writes `v` to Gd and moves on; nothing else changes. -/
def GivesG (i : Instr) (w : W32) (core : Nat) (d : RField) (v : PV) (s : State) : Prop :=
  SeqRuns s core w → exec i s = .next (seqNext core (writeG (getCore s core) d v) s)

/-- The instruction writes `v` to Fd and moves on; nothing else changes. -/
def GivesF (i : Instr) (w : W32) (core : Nat) (d : RField) (v : PV) (s : State) : Prop :=
  SeqRuns s core w → exec i s = .next (seqNext core (writeF (getCore s core) d.toNat v) s)

/-- The instruction writes the four lanes `vs` to Wd and moves on; nothing else changes. -/
def GivesW (i : Instr) (w : W32) (core : Nat) (d : RField) (vs : List PV) (s : State) : Prop :=
  SeqRuns s core w → exec i s = .next (seqNext core (writeW (getCore s core) d.toNat vs) s)

/-- A result of Ga and Gb: poison of either passes on (R178). -/
def ofGG (c : Core) (a b : RField) (f : W64 → W64 → W64) : PV :=
  (f (readG c a).1 (readG c b).1, (readG c a).2 || (readG c b).2)

/-- A result of Ga: its poison passes on (R178). -/
def ofG (c : Core) (a : RField) (f : W64 → W64) : PV := (f (readG c a).1, (readG c a).2)

/-- The element-wise result of Wa and Wb with elements of 8 × 2^w bits; a lane is poisoned when that lane of either
source is (R178, R188). -/
def ofWW (c : Core) (a b : RField) (w : BitVec 2) (f : Nat → Nat → Nat) : List PV :=
  let e := 8 * 2 ^ w.toNat
  let x := wNat (readW c a.toNat)
  let y := wNat (readW c b.toNat)
  wLanes (ofElems e ((List.range (256 / e)).map fun i => f (elemOf x e i) (elemOf y e i)))
    fun k => laneP (readW c a.toNat) k || laneP (readW c b.toNat) k

/-- The FP64 lane-wise result of Wa and Wb. -/
def ofWWD (c : Core) (a b : RField) (f : PV → PV → PV) : List PV :=
  (List.range 4).map fun k => f (readF c (4 * a.toNat + k)) (readF c (4 * b.toNat + k))

/-- The most bits of an element of width code `w`. -/
def widthBits (w : BitVec 2) : Nat := 8 * 2 ^ w.toNat

/-- Where an access of `n` bytes at `addr`, aligned to `al`, lands without a fault or a wait (R180, R181, R185, R198,
Table 6.1): the base is not poisoned, the address is aligned and in the map, instruction memory is not written, and the
cluster store is reached inside a window of the program's region with no stream or move in the way. -/
abbrev SeqReaches (s : State) (c : Core) (addr : PV) (n al : Nat) (write : Bool) (m : SeqMem) (off : Nat) : Prop :=
  addr.2 = false ∧ addr.1.toNat % al = 0 ∧ seqMemOf addr.1 n = some (m, off) ∧ (m = .imem → write = false) ∧
    (m = .cstore → (∃ r ∈ regionOf s c.region, inProgramWindow r write off n = true) ∧ mustWait c write off n = false)

/-! ### Host commands -/

/-- A host command as its slot spells it: a collective or re-shard row names the KIND and the RESUME and ROLLBACK flags of its
descriptor (Table 11.1). -/
def slotForm : Instr → Instr
  | .allReduce h d => .allReduce h { d with kind := 1 }
  | .reduceScatter h d => .reduceScatter h { d with kind := 2 }
  | .allGather h d => .allGather h { d with kind := 3 }
  | .multicast h d => .multicast h { d with kind := 4 }
  | .topkGather h d => .topkGather h { d with kind := 6 }
  | .reshard h d => .reshard h { d with kind := 5, flags := d.flags &&& 0xE7 }
  | .reshardResume h d => .reshardResume h { d with kind := 5, flags := d.flags &&& 0xE7 ||| 8 }
  | .reshardRollback h d => .reshardRollback h { d with kind := 5, flags := d.flags &&& 0xE7 ||| 16 }
  | i => i

/-- The slot whose turn comes after a port's next command does not hold that command yet, so that no second one is accepted with
it (R402). -/
def nextSlotEmpty (s : State) (port : Nat) : Bool :=
  let n := (getCp s port).sqNext + 1
  field (slotBytes s port (n % 1024)) 248 8 != n

/-- A port takes the command as its next and nothing holds it back (R402, R405 to R408): the port exists and can accept a
command, no outstanding command and no live long operation bears the handle it will have, every check passes, no FENCE makes it
wait or keeps another command waiting, and the slot after it is empty. -/
abbrev HostRuns (s : State) (i : Instr) (h : CmdHdr) (op token : Nat) : Prop :=
  h.port < 2 ∧ hostCmd i = some (h, op, token) ∧ canAccept s h.port = true ∧
    (∀ p ∈ (getCp s h.port).pend, p.handle ≠ nextHandle s h.port) ∧ longOpOf s (nextHandle s h.port) = none ∧
    refusal (enroll h op s) i h op token (nextHandle s h.port) = 0 ∧
    (h.fence = true → (getCp s h.port).runsOn = [] ∧ ∀ p ∈ (getCp s h.port).pend, p.done = true) ∧ (getCp s 0).fenced = [] ∧
    (getCp s 1).fenced = [] ∧ nextSlotEmpty s h.port = true

/-- The command's completion record waits at its port, last of all, with this status and these result words, and NEXT has
advanced by one (R402, R405, Table 13.3). -/
abbrev Completed (s t : State) (h : CmdHdr) (op status : Nat) (result : List W64) : Prop :=
  (getCp t h.port).records = (getCp s h.port).records ++
    [{ seq := (getCp s h.port).sqNext, handle := nextHandle s h.port, status := status, opcode := op, tag := h.tag, flags := 0,
       result := (result ++ List.replicate 4 0).take 4, vec := h.vec % 64, noIrq := h.noIrq }] ∧
  (getCp t h.port).sqNext = (getCp s h.port).sqNext + 1

/-- The command is accepted and not yet complete: NEXT has advanced, a completion is owed for its handle, and no record has been
added (R402, R405). -/
abbrev Owed (s t : State) (h : CmdHdr) (op : Nat) : Prop :=
  (getCp t h.port).records = (getCp s h.port).records ∧ (getCp t h.port).sqNext = (getCp s h.port).sqNext + 1 ∧
    { seq := (getCp s h.port).sqNext, handle := nextHandle s h.port, opcode := op, tag := h.tag, vec := h.vec % 64,
      noIrq := h.noIrq, done := false } ∈ (getCp t h.port).pend

/-! ### Messages -/

/-- The payloads sent on the command up queue and not yet taken, in order: those in the queue, then those whose sender waits for a
place (R24). -/
def sentUp (s : State) : List Payload := s.ws.up.map Msg.payload ++ s.ws.waitUp.map fun e => e.2.2

/-- Likewise on the command down queue. -/
def sentDown (s : State) : List Payload := s.ws.down.map Msg.payload ++ s.ws.waitDown.map fun e => e.2

/-- Likewise on the interlock queue, each with its kind. -/
def sentInter (s : State) : List (Nat × Payload) := s.ws.inter.map (fun m => (m.kind, m.payload)) ++ s.ws.waitInter

/-- Likewise on the telemetry queue, those of the reserved share that wait for their place behind the others (R25). -/
def sentTele (s : State) : List (Nat × Payload) :=
  s.ws.tele.map (fun m => (m.kind, m.payload)) ++ s.ws.waitTele.map fun e => (e.1, e.2.2)

/-! ### Links -/

/-- The module's ten ports stand, each with its twenty lanes (R293, R295). -/
abbrev TenPorts (s : State) : Prop := s.lk.ports.length = 10 ∧ ∀ v ∈ s.lk.ports, v.lanes.length = 20

/-- What every step keeps: memory in its canonical form, the module's ten ports of twenty lanes, a steward token that port A, port B
or neither holds (Table 13.4), and no enabled completion ring with more records unread than it has room for (R411). -/
abbrev InForm (s : State) : Prop :=
  Memory.wf s.mem.bytes = true ∧ TenPorts s ∧ s.cp.holder ≤ 2 ∧
    ∀ port, (getCp s port).cqEntries.getLsbD 31 = true →
      ((getCp s port).cqTail - (getCp s port).cqHead).toNat ≤ cqSize (getCp s port)

/-- No port's data lasers are commanded on while a copy of its shutdown line is asserted (R300, Table 10.3). -/
abbrev HeldPortsDark (s : State) : Prop := ∀ p, p < 10 → lineHeld s p = true → (getPort s p).state.lit = false

/-- No port but `p` has changed. -/
def OnlyPort (p : Nat) (s t : State) : Prop := ∀ q, q ≠ p → getPort t q = getPort s q

/-- No caravan of this module has the ID. -/
abbrev NoCaravan (s : State) (id : Nat) : Prop := cvOf s id = none

end Sys2Proof.Machine
end

