-- ==== Sys2Proof/Certificates/Slice0/Obligations.lean ====
section
/-!
DEFINITION. The statements about the model, for the provers: each formalises rules of spec/, cited by number.
-/

open Sys2Proof Sys2Proof.Machine

/-! ### The block's step -/

/-- The command at the front of the queue runs on the state with the queue's rest (log entry 10).

On an empty queue the block idles (log entry 10, a choice of the model). -/
def Obligations.FrontCommandRunsAndEmptyQueueIdles : Prop :=
  (∀ (c : Instr) (rest : List Instr) (s : State),
     s.pending = c :: rest → step s = exec c { s with pending := rest }) ∧
  (∀ s : State, s.pending = [] → step s = .next s)

/-- A command stops the model exactly when it names a unit that Table 0.3 does not give the module, and no command is
refused (R5). -/
def Obligations.OnlyUnknownUnitsStop : Prop :=
  ∀ (i : Instr) (s : State),
    (i.unitsOk = true → ∃ t, exec i s = .next t) ∧ (i.unitsOk = false → exec i s = .fault .noSuchUnit)

/-! ### The sequencer -/

/-- The integer rows: Gd takes the result of Ga and Gb, or of Ga and the immediate, as arithmetic modulo 2^64 gives it, with
the poison of the operands; the program counter moves on and nothing else changes (R178, R184, R185). -/
def Obligations.IntegerInstructionsWriteGd : Prop :=
  ∀ (s : State) (core : Nat) (d a b : RField) (imm : BitVec 14) (sh : BitVec 6) (imm20 : BitVec 20),
    let c := getCore s core
    GivesG (.add core d a b) (encT 0 d a b 0x00) core d (ofGG c a b fun x y => BitVec.ofNat 64 (x.toNat + y.toNat)) s ∧
    GivesG (.sub core d a b) (encT 0 d a b 0x01) core d (ofGG c a b fun x y => BitVec.ofInt 64 (x.toInt - y.toInt)) s ∧
    GivesG (.and core d a b) (encT 0 d a b 0x02) core d (ofGG c a b fun x y => BitVec.ofNat 64 (x.toNat &&& y.toNat)) s ∧
    GivesG (.or core d a b) (encT 0 d a b 0x03) core d (ofGG c a b fun x y => BitVec.ofNat 64 (x.toNat ||| y.toNat)) s ∧
    GivesG (.xor core d a b) (encT 0 d a b 0x04) core d (ofGG c a b fun x y => BitVec.ofNat 64 (x.toNat ^^^ y.toNat)) s ∧
    GivesG (.sll core d a b) (encT 0 d a b 0x05) core d
      (ofGG c a b fun x y => BitVec.ofNat 64 (x.toNat * 2 ^ (y.toNat % 64))) s ∧
    GivesG (.srl core d a b) (encT 0 d a b 0x06) core d
      (ofGG c a b fun x y => BitVec.ofNat 64 (x.toNat / 2 ^ (y.toNat % 64))) s ∧
    GivesG (.sra core d a b) (encT 0 d a b 0x07) core d
      (ofGG c a b fun x y => BitVec.ofInt 64 (x.toInt / 2 ^ (y.toNat % 64))) s ∧
    GivesG (.slt core d a b) (encT 0 d a b 0x08) core d (ofGG c a b fun x y => if x.toInt < y.toInt then 1 else 0) s ∧
    GivesG (.sltu core d a b) (encT 0 d a b 0x09) core d (ofGG c a b fun x y => if x.toNat < y.toNat then 1 else 0) s ∧
    GivesG (.min core d a b) (encT 0 d a b 0x0A) core d
      (ofGG c a b fun x y => BitVec.ofInt 64 (Min.min x.toInt y.toInt)) s ∧
    GivesG (.max core d a b) (encT 0 d a b 0x0B) core d
      (ofGG c a b fun x y => BitVec.ofInt 64 (Max.max x.toInt y.toInt)) s ∧
    GivesG (.minu core d a b) (encT 0 d a b 0x0C) core d
      (ofGG c a b fun x y => BitVec.ofNat 64 (Min.min x.toNat y.toNat)) s ∧
    GivesG (.maxu core d a b) (encT 0 d a b 0x0D) core d
      (ofGG c a b fun x y => BitVec.ofNat 64 (Max.max x.toNat y.toNat)) s ∧
    GivesG (.mul core d a b) (encT 0 d a b 0x10) core d (ofGG c a b fun x y => BitVec.ofNat 64 (x.toNat * y.toNat)) s ∧
    GivesG (.mulhu core d a b) (encT 0 d a b 0x11) core d
      (ofGG c a b fun x y => BitVec.ofNat 64 (x.toNat * y.toNat / 2 ^ 64)) s ∧
    GivesG (.divu core d a b) (encT 0 d a b 0x12) core d
      (ofGG c a b fun x y => if y = 0 then BitVec.ofNat 64 (2 ^ 64 - 1) else BitVec.ofNat 64 (x.toNat / y.toNat)) s ∧
    GivesG (.remu core d a b) (encT 0 d a b 0x13) core d
      (ofGG c a b fun x y => if y = 0 then x else BitVec.ofNat 64 (x.toNat % y.toNat)) s ∧
    GivesG (.clz core d a) (encT 0 d a 0 0x14) core d
      (ofG c a fun x => BitVec.ofNat 64 ((List.range 64).countP fun k => decide (x.toNat < 2 ^ k))) s ∧
    GivesG (.popc core d a) (encT 0 d a 0 0x15) core d
      (ofG c a fun x => BitVec.ofNat 64 ((List.range 64).countP fun k => x.getLsbD k)) s ∧
    GivesG (.addi core d a imm) (encI 0x01 d a imm) core d (ofG c a fun x => BitVec.ofInt 64 (x.toInt + imm.toInt)) s ∧
    GivesG (.andi core d a imm) (encI 0x02 d a imm) core d (ofG c a fun x => x &&& BitVec.ofInt 64 imm.toInt) s ∧
    GivesG (.ori core d a imm) (encI 0x03 d a imm) core d (ofG c a fun x => x ||| BitVec.ofInt 64 imm.toInt) s ∧
    GivesG (.xori core d a imm) (encI 0x04 d a imm) core d (ofG c a fun x => x ^^^ BitVec.ofInt 64 imm.toInt) s ∧
    GivesG (.slti core d a imm) (encI 0x05 d a imm) core d (ofG c a fun x => if x.toInt < imm.toInt then 1 else 0) s ∧
    GivesG (.sltiu core d a imm) (encI 0x06 d a imm) core d
      (ofG c a fun x => if x.toNat < (BitVec.ofInt 64 imm.toInt).toNat then 1 else 0) s ∧
    GivesG (.slli core d a sh) (encI 0x07 d a (BitVec.ofNat 14 sh.toNat)) core d
      (ofG c a fun x => BitVec.ofNat 64 (x.toNat * 2 ^ sh.toNat)) s ∧
    GivesG (.srli core d a sh) (encI 0x07 d a (BitVec.ofNat 14 (64 + sh.toNat))) core d
      (ofG c a fun x => BitVec.ofNat 64 (x.toNat / 2 ^ sh.toNat)) s ∧
    GivesG (.srai core d a sh) (encI 0x07 d a (BitVec.ofNat 14 (128 + sh.toNat))) core d
      (ofG c a fun x => BitVec.ofInt 64 (x.toInt / 2 ^ sh.toNat)) s ∧
    GivesG (.lui core d imm20) (encU 0x08 d imm20) core d (BitVec.ofInt 64 (imm20.toInt * 2 ^ 14), false) s

/-- G0 reads as zero without poison whatever the file holds, and a write to G0 changes nothing; any other register
reads as written and the others stay (R176).

The floating-point file is one array under two names: Wn is the quad of F4n to F4n + 3, a write under either name is seen
under the other, and a scalar write leaves the other lanes of its quad (R177). -/
def Obligations.RegisterFilesHoldWhatIsWritten : Prop :=
  (∀ (c : Core) (v : PV),
     readG c 0 = (0, false) ∧ writeG c 0 v = c ∧
       ∀ d a : RField, d ≠ 0 → readG (writeG c d v) a = if a = d then v else readG c a) ∧
  (∀ (c : Core) (n k : Nat) (v : PV) (vs : List PV), k < 4 →
     (readW c n)[k]? = some (readF c (4 * n + k)) ∧
     (∀ j, j < 4 → (readW (writeF c (4 * n + k) v) n)[j]? = if j = k then some v else some (readF c (4 * n + j))) ∧
     (vs.length = 4 → readF (writeW c n vs) (4 * n + k) = vs.getD k (0, false)) ∧
     (vs.length = 4 → ∀ i, i / 4 ≠ n → readF (writeW c n vs) i = readF c i))

/-- The FP64 rows, scalar: Fd takes the result of the FP64 operation rounded to nearest even (the operations of R59, R119 and
Table 2.6), a comparison writes all ones or zero into Gd, FNEG and FABS change the sign bit alone, and FMVGF and FMVFG copy
bits and poison; nothing else changes but the program counter (R184, R186, R187). -/
def Obligations.FloatInstructionsWriteTheirRegister : Prop :=
  ∀ (s : State) (core : Nat) (d a b c : RField),
    let k := getCore s core
    let x := readF k a.toNat
    let y := readF k b.toNat
    let z := readF k c.toNat
    GivesF (.fadd core d a b) (encT 0x28 d a b 0) core d (pvOf (elemAdd fp64 .rne (opndOf x) (opndOf y))) s ∧
    GivesF (.fsub core d a b) (encT 0x28 d a b 1) core d (fSub x y) s ∧
    GivesF (.fmul core d a b) (encT 0x28 d a b 2) core d (pvOf (elemMul fp64 .rne (opndOf x) (opndOf y))) s ∧
    GivesF (.fmin core d a b) (encT 0x28 d a b 3) core d (pvOf (elemMinMax fp64 false (opndOf x) (opndOf y))) s ∧
    GivesF (.fmax core d a b) (encT 0x28 d a b 4) core d (pvOf (elemMinMax fp64 true (opndOf x) (opndOf y))) s ∧
    GivesF (.fneg core d a) (encT 0x28 d a 0 5) core d
      (BitVec.ofNat 64 (if x.1.toNat < 2 ^ 63 then x.1.toNat + 2 ^ 63 else x.1.toNat - 2 ^ 63), x.2) s ∧
    GivesF (.fabs core d a) (encT 0x28 d a 0 6) core d (BitVec.ofNat 64 (x.1.toNat % 2 ^ 63), x.2) s ∧
    GivesG (.fcmpEq core d a b) (encT 0x28 d a b 0x8) core d (fCmp 0 x y) s ∧
    GivesG (.fcmpNe core d a b) (encT 0x28 d a b 0x9) core d (fCmp 1 x y) s ∧
    GivesG (.fcmpLt core d a b) (encT 0x28 d a b 0xA) core d (fCmp 2 x y) s ∧
    GivesG (.fcmpLe core d a b) (encT 0x28 d a b 0xB) core d (fCmp 3 x y) s ∧
    GivesG (.fcmpGt core d a b) (encT 0x28 d a b 0xC) core d (fCmp 4 x y) s ∧
    GivesG (.fcmpGe core d a b) (encT 0x28 d a b 0xD) core d (fCmp 5 x y) s ∧
    GivesG (.fcmpUn core d a b) (encT 0x28 d a b 0xE) core d (fCmp 6 x y) s ∧
    GivesF (.fmvgf core d a) (encT 0x28 d a 0 0x10) core d (readG k a) s ∧
    GivesG (.fmvfg core d a) (encT 0x28 d a 0 0x11) core d x s ∧
    GivesF (.fma core d a b c) (encQ 0x29 d a b c 0) core d
      (pvOf (elemFma fp64 .rne (opndOf x) (opndOf y) (opndOf z))) s ∧
    GivesF (.fms core d a b c) (encQ 0x29 d a b c 1) core d (fFms x y z) s ∧
    GivesF (.fnma core d a b c) (encQ 0x29 d a b c 2) core d (fFnma x y z) s ∧
    ((readG k c).2 = false →
      GivesF (.fsel core d a b c) (encQ 0x29 d a b c 3) core d (if (readG k c).1 = 0 then y else x) s) ∧
    ((readG k c).2 = true →
      GivesF (.fsel core d a b c) (encQ 0x29 d a b c 3) core d (BitVec.ofNat 64 fp64.poisonBits, true) s)

/-- FADD, FMUL and FMA of numbers give the FP64 rounding, to nearest even, of the exact sum, product or fused sum; and where the
first operand of FADD or FMUL is a NaN and neither is poison, the result is that NaN made quiet, its sign and payload kept
(R59, R186). -/
def Obligations.FloatSumsAndProductsRoundOnce : Prop :=
  ∀ x y z : W64,
    let a := fp64.decode x.toNat
    let b := fp64.decode y.toNat
    let c := fp64.decode z.toNat
    (a.isFin = true → b.isFin = true → c.isFin = true →
      fAdd (x, false) (y, false) = (BitVec.ofNat 64 (fp64.roundIeee .rne (addNum a b)), false) ∧
      fMul (x, false) (y, false) = (BitVec.ofNat 64 (fp64.roundIeee .rne (mulNum a b)), false) ∧
      fFma (x, false) (y, false) (z, false) = (BitVec.ofNat 64 (fp64.roundIeee .rne (addNum (mulNum a b) c)), false)) ∧
    (fp64.isNaN x.toNat = true → a ≠ .poison → b ≠ .poison →
      fAdd (x, false) (y, false) = (x ||| 0x0008000000000000, false) ∧
      fMul (x, false) (y, false) = (x ||| 0x0008000000000000, false))

/-- Sums in progress keep the reference order: the running sum to which the terms are given one by one ends with the very pair
that the procedure ref_order of R127 gives for the whole list, in every format. -/
def Obligations.RunningSumIsReferenceOrder : Prop :=
  ∀ (f : FpFmt) (xs : List Val), (xs.foldl (fun a x => a.term f x) AccRun.empty).result f = refOrder f xs

/-- The vector rows act element by element on elements of 8 × 2^w bits; a 64-bit lane of the result is poisoned when that lane
of a source is (R178, R184, R188).

The FP64 vector rows, the lane moves and PTAB: each lane takes the scalar operation's result; VSPLAT fills every lane with
the low bits of Ga, VEXT reads one lane zero-extended, VINS changes one lane and leaves the others, PTAB looks each index up in
the table and gives zero beyond it (R184, R188, R190). -/
def Obligations.VectorInstructionsActPerElement : Prop :=
  (∀ (s : State) (core : Nat) (d a b : RField) (w : BitVec 2),
     let c := getCore s core
     let e := widthBits w
     GivesW (.vadd core d a b w) (encT 0x2A d a b (w.toNat * 64 + 0)) core d (ofWW c a b w fun x y => (x + y) % 2 ^ e) s ∧
     GivesW (.vsub core d a b w) (encT 0x2A d a b (w.toNat * 64 + 1)) core d
       (ofWW c a b w fun x y => (x + 2 ^ e - y) % 2 ^ e) s ∧
     GivesW (.vand core d a b w) (encT 0x2A d a b (w.toNat * 64 + 2)) core d (ofWW c a b w fun x y => x &&& y) s ∧
     GivesW (.vor core d a b w) (encT 0x2A d a b (w.toNat * 64 + 3)) core d (ofWW c a b w fun x y => x ||| y) s ∧
     GivesW (.vxor core d a b w) (encT 0x2A d a b (w.toNat * 64 + 4)) core d (ofWW c a b w fun x y => x ^^^ y) s ∧
     GivesW (.vmin core d a b w) (encT 0x2A d a b (w.toNat * 64 + 5)) core d
       (ofWW c a b w fun x y => if signedOf e x ≤ signedOf e y then x else y) s ∧
     GivesW (.vmax core d a b w) (encT 0x2A d a b (w.toNat * 64 + 6)) core d
       (ofWW c a b w fun x y => if signedOf e x ≤ signedOf e y then y else x) s ∧
     GivesW (.vminu core d a b w) (encT 0x2A d a b (w.toNat * 64 + 7)) core d (ofWW c a b w fun x y => Min.min x y) s ∧
     GivesW (.vmaxu core d a b w) (encT 0x2A d a b (w.toNat * 64 + 8)) core d (ofWW c a b w fun x y => Max.max x y) s ∧
     GivesW (.vcmpeq core d a b w) (encT 0x2A d a b (w.toNat * 64 + 9)) core d
       (ofWW c a b w fun x y => if x = y then 2 ^ e - 1 else 0) s ∧
     GivesW (.vcmpgt core d a b w) (encT 0x2A d a b (w.toNat * 64 + 10)) core d
       (ofWW c a b w fun x y => if signedOf e y < signedOf e x then 2 ^ e - 1 else 0) s) ∧
  (∀ (s : State) (core : Nat) (d a b c : RField) (w n1 g : BitVec 2),
     let k := getCore s core
     let e := widthBits w
     let old := readW k d.toNat
     let tab := ((List.range (n1.toNat + 1)).map fun i => readW k (a.toNat + i)).flatten
     let u := 2 ^ g.toNat
     let ix := fun i => elemOf (wNat (readW k b.toNat)) 8 i
     let inTab := fun i => ix i < 32 * (n1.toNat + 1) / u
     GivesW (.vfaddD core d a b) (encT 0x2A d a b 0xD0) core d (ofWWD k a b fAdd) s ∧
     GivesW (.vfsubD core d a b) (encT 0x2A d a b 0xD1) core d (ofWWD k a b fSub) s ∧
     GivesW (.vfmulD core d a b) (encT 0x2A d a b 0xD2) core d (ofWWD k a b fMul) s ∧
     GivesW (.vfminD core d a b) (encT 0x2A d a b 0xD3) core d (ofWWD k a b fMin) s ∧
     GivesW (.vfmaxD core d a b) (encT 0x2A d a b 0xD4) core d (ofWWD k a b fMax) s ∧
     GivesW (.vfcmpEqD core d a b) (encT 0x2A d a b 0xD5) core d (ofWWD k a b (fCmp 0)) s ∧
     GivesW (.vfcmpLtD core d a b) (encT 0x2A d a b 0xD6) core d (ofWWD k a b (fCmp 2)) s ∧
     GivesW (.vfcmpUnD core d a b) (encT 0x2A d a b 0xD7) core d (ofWWD k a b (fCmp 6)) s ∧
     GivesW (.vfmaD core d a b c) (encQ 0x2B d a b c 0) core d ((List.range 4).map fun i =>
       fFma (readF k (4 * a.toNat + i)) (readF k (4 * b.toNat + i)) (readF k (4 * c.toNat + i))) s ∧
     GivesW (.vsplat core d a w) (encT 0x2D d a 0 (w.toNat * 16)) core d
       (wLanes (ofElems e (List.replicate (256 / e) ((readG k a).1.toNat % 2 ^ e))) fun _ => (readG k a).2) s ∧
     GivesG (.vext core d a b w) (encT 0x2D d a b (w.toNat * 16 + 1)) core d
       (BitVec.ofNat 64 (elemOf (wNat (readW k a.toNat)) e b.toNat), laneP (readW k a.toNat) (b.toNat * e / 64)) s ∧
     GivesW (.vins core d a b w) (encT 0x2D d a b (w.toNat * 16 + 2)) core d
       (wLanes (ofElems e ((List.range (256 / e)).map fun i =>
           if i = b.toNat then (readG k a).1.toNat % 2 ^ e else elemOf (wNat old) e i))
         fun l => if l = b.toNat * e / 64 then (readG k a).2 || (decide (e < 64) && laneP old l) else laneP old l) s ∧
     GivesW (.ptab core d a b n1 g) (encT 0x2C d a b (n1.toNat + 4 * g.toNat)) core d
       (wLanes (ofElems (8 * u) ((List.range (32 / u)).map fun i => if inTab i then elemOf (wNat tab) (8 * u) (ix i) else 0))
         fun l => (List.range (8 / u)).any fun j => let i := l * (8 / u) + j
           laneP (readW k b.toNat) (i / 8) || (decide (inTab i) && laneP tab (ix i * u / 8))) s)


/-! ### Loads, stores and structure accesses -/

/-- Scalar loads: where the access lands, Gd takes the bytes there, least significant first, sign-extended by LB, LH and LW and
zero-extended by the others, poisoned when a byte comes from a poisoned sector; FLD gives the 8 bytes to Fd and VLD the 32
bytes to the lanes of Wd, each lane with the poison of its own bytes. Nothing else changes but the program counter
(R178, R180, R184, R185). -/
def Obligations.LoadsReadLittleEndianBytes : Prop :=
  ∀ (s : State) (core : Nat) (d a : RField) (imm : BitVec 14) (m : SeqMem) (off : Nat),
    let c := getCore s core
    let addr : PV := ((readG c a).1 + BitVec.ofInt 64 imm.toInt, (readG c a).2)
    let addrV : PV := ((readG c a).1 + BitVec.ofInt 64 (32 * imm.toInt), (readG c a).2)
    let at_ := fun (o n : Nat) => leNat ((List.range n).map fun i => (seqReadByte s core c m (o + i)).1)
    let bad := fun (o n : Nat) => (List.range n).any fun i => (seqReadByte s core c m (o + i)).2
    (SeqReaches s c addr 1 1 false m off →
      GivesG (.lb core d a imm) (encI 0x10 d a imm) core d (BitVec.ofInt 64 (signedOf 8 (at_ off 1)), bad off 1) s ∧
      GivesG (.lbu core d a imm) (encI 0x11 d a imm) core d (BitVec.ofNat 64 (at_ off 1), bad off 1) s) ∧
    (SeqReaches s c addr 2 2 false m off →
      GivesG (.lh core d a imm) (encI 0x12 d a imm) core d (BitVec.ofInt 64 (signedOf 16 (at_ off 2)), bad off 2) s ∧
      GivesG (.lhu core d a imm) (encI 0x13 d a imm) core d (BitVec.ofNat 64 (at_ off 2), bad off 2) s) ∧
    (SeqReaches s c addr 4 4 false m off →
      GivesG (.lw core d a imm) (encI 0x14 d a imm) core d (BitVec.ofInt 64 (signedOf 32 (at_ off 4)), bad off 4) s ∧
      GivesG (.lwu core d a imm) (encI 0x15 d a imm) core d (BitVec.ofNat 64 (at_ off 4), bad off 4) s) ∧
    (SeqReaches s c addr 8 8 false m off →
      GivesG (.ld core d a imm) (encI 0x16 d a imm) core d (BitVec.ofNat 64 (at_ off 8), bad off 8) s ∧
      GivesF (.fld core d a imm) (encI 0x1C d a imm) core d (BitVec.ofNat 64 (at_ off 8), bad off 8) s) ∧
    (SeqReaches s c addrV 32 32 false m off →
      GivesW (.vld core d a imm) (encI 0x1E d a imm) core d
        ((List.range 4).map fun k => (BitVec.ofNat 64 (at_ (off + 8 * k) 8), bad (off + 8 * k) 8)) s)

/-- Stores: where the access lands, the low bytes of Gd, or the 8 bytes of Fd or the 32 of Wd, are written there and the
program counter moves on. A poisoned Fd is stored as the FP64 poison encoding, a poisoned Gd or lane of Wd poisons the sector
(R178, R180, R184). -/
def Obligations.StoresWriteTheirBytes : Prop :=
  ∀ (s : State) (core : Nat) (d a : RField) (imm : BitVec 14) (m : SeqMem) (off : Nat),
    let c := getCore s core
    let addr : PV := ((readG c a).1 + BitVec.ofInt 64 imm.toInt, (readG c a).2)
    let addrV : PV := ((readG c a).1 + BitVec.ofInt 64 (32 * imm.toInt), (readG c a).2)
    let v := readG c d
    let x := readF c d.toNat
    let w := readW c d.toNat
    let stored := fun (bs : List Byte) (p : Bool) =>
      modCore (seqWrite s core m off bs p) core fun c => { c with pc := c.pc + 4 }
    (SeqReaches s c addr 1 1 true m off → SeqRuns s core (encI 0x18 d a imm) →
      exec (.sb core d a imm) s = .next (stored (leBytes 1 v.1.toNat) v.2)) ∧
    (SeqReaches s c addr 2 2 true m off → SeqRuns s core (encI 0x19 d a imm) →
      exec (.sh core d a imm) s = .next (stored (leBytes 2 v.1.toNat) v.2)) ∧
    (SeqReaches s c addr 4 4 true m off → SeqRuns s core (encI 0x1A d a imm) →
      exec (.sw core d a imm) s = .next (stored (leBytes 4 v.1.toNat) v.2)) ∧
    (SeqReaches s c addr 8 8 true m off → SeqRuns s core (encI 0x1B d a imm) →
      exec (.sd core d a imm) s = .next (stored (leBytes 8 v.1.toNat) v.2)) ∧
    (SeqReaches s c addr 8 8 true m off → SeqRuns s core (encI 0x1D d a imm) →
      exec (.fsd core d a imm) s = .next (stored (leBytes 8 (if x.2 then fp64.poisonBits else x.1.toNat)) false)) ∧
    (SeqReaches s c addrV 32 32 true m off → SeqRuns s core (encI 0x1F d a imm) →
      exec (.vst core d a imm) s = .next (stored (leBytes 32 (wNat w)) (w.any Prod.snd)))

/-- What a sequencer store of `n` bytes within one sector leaves in the cluster store (Table 6.1, R262): read again, the bytes
stored, or zeros when the value is poisoned; every other byte of device memory as before; the sector is poisoned exactly when the
value is or a part of a poisoned sector was written; registers, program counters and the other memories of every core stay.

What a sequencer store of `n` bytes within one sector leaves in the table store's shadow and in data memory (R182): the
bytes stored, every other byte of both as before, the live table copy, the registers and device memory unchanged. -/
def Obligations.SequencerStoresChangeNothingElse : Prop :=
  (∀ (s : State) (core off : Nat) (bs : List Byte) (poison : Bool),
     core < Config.numCores → 0 < bs.length → off % 32 + bs.length ≤ 32 → off + bs.length ≤ 0x200000 →
     let t := seqWrite s core .cstore off bs poison
     let at_ := 0x010000000000 + core / 4 * 0x200000 + off
     let whole := off % 32 = 0 ∧ bs.length = 32
     (∀ i, i < bs.length → readByte t (at_ + i) = if poison then 0 else bs.getD i 0) ∧
     (∀ a, (a < at_ ∨ at_ + bs.length ≤ a) → readByte t a = readByte s a) ∧
     (sectorPoison t at_ = true ↔ poison = true ∨ (sectorPoison s at_ = true ∧ ¬ whole)) ∧
     (∀ a, a / 32 ≠ at_ / 32 → sectorPoison t a = sectorPoison s a) ∧
     t.cores = s.cores ∧ t.cells = s.cells) ∧
  (∀ (s : State) (core off : Nat) (bs : List Byte),
     let c := getCore s core
     let t := seqWrite s core .table off bs false
     let u := seqWrite s core .data off bs false
     (∀ i, tget 0 (getCore t core).tshadow i = if off ≤ i ∧ i < off + bs.length then bs.getD (i - off) 0 else tget 0 c.tshadow i) ∧
     (∀ i, tget 0 (getCore u core).dmem i = if off ≤ i ∧ i < off + bs.length then bs.getD (i - off) 0 else tget 0 c.dmem i) ∧
     (getCore t core).dmem = c.dmem ∧ (getCore t core).tlive = c.tlive ∧
     (getCore u core).tshadow = c.tshadow ∧ (getCore u core).tlive = c.tlive ∧
     (∀ k, k ≠ core → getCore t k = getCore s k ∧ getCore u k = getCore s k) ∧
     t.mem = s.mem ∧ u.mem = s.mem ∧ (getCore t core).g = c.g ∧ (getCore u core).f = c.f)

/-- SLDV.n: element j of field k of the group is the field's bytes in record j, least significant first; the fields the mask
selects, in ascending order, fill the W registers from Wd on, each lane poisoned when a byte delivered to it is; with inc the
base then moves on by the group's 32n bytes, and a base of G0 stays zero. Nothing else changes but the program counter
(R178, R189).

SSTV.n on unpoisoned registers and sectors: it goes on, element j of the W register of each selected field stands in record
j, every other byte of that memory reads as before, the base moves on as in a load, and the core changes in nothing else but
its program counter (R189). -/
def Obligations.StructureAccessesMoveTheirFields : Prop :=
  (∀ (s : State) (core n : Nat) (d a : RField) (w : BitVec 2) (inc : Bool) (fmask : BitVec 4) (off : BitVec 7)
     (m : SeqMem) (o : Nat),
     let c := getCore s core
     let e := 2 ^ w.toNat
     let addr : PV := ((readG c a).1 + BitVec.ofInt 64 (32 * n * off.toInt), (readG c a).2)
     let el := fun (k j : Nat) => leNat ((List.range e).map fun b => (seqReadByte s core c m (o + (j * n + k) * e + b)).1)
     let bad := fun (k j : Nat) => (List.range e).any fun b => (seqReadByte s core c m (o + (j * n + k) * e + b)).2
     let lanes := fun (k : Nat) => wLanes (ofElems (8 * e) ((List.range (32 / e)).map fun j => el k j))
       fun l => (List.range (8 / e)).any fun i => bad k (l * (8 / e) + i)
     let loaded := ((List.range 4).filter fun k => fmask.getLsbD k).zipIdx.foldl
       (fun (st : Core) x => writeW st (d.toNat + x.2) (lanes x.1)) c
     let moved := if inc then writeG loaded a ((readG c a).1 + BitVec.ofNat 64 (32 * n), (readG c a).2) else loaded
     SeqReaches s c addr (32 * n) e false m o → SeqRuns s core (encS (0x2E + n) d a w inc fmask off) →
       (n = 2 → exec (.sldv2 core d a w inc fmask off) s = .next (seqNext core moved s)) ∧
       (n = 3 → exec (.sldv3 core d a w inc fmask off) s = .next (seqNext core moved s)) ∧
       (n = 4 → exec (.sldv4 core d a w inc fmask off) s = .next (seqNext core moved s))) ∧
  (∀ (s : State) (core n : Nat) (d a : RField) (w : BitVec 2) (inc : Bool) (fmask : BitVec 4) (off : BitVec 7)
     (m : SeqMem) (o : Nat),
     let c := getCore s core
     let e := 2 ^ w.toNat
     let addr : PV := ((readG c a).1 + BitVec.ofInt 64 (32 * n * off.toInt), (readG c a).2)
     let fields := (List.range 4).filter fun k => fmask.getLsbD k
     let rd := fun (u : State) (x : Nat) => seqReadByte u core (getCore u core) m x
     let stores := fun (i : Instr) => Answers i s fun t =>
       (∀ (r k j b : Nat), fields[r]? = some k → j < 32 / e → b < e →
         rd t (o + (j * n + k) * e + b) = (BitVec.ofNat 8 (elemOf (wNat (readW c (d.toNat + r))) (8 * e) j / 256 ^ b), false)) ∧
       (∀ x, (∀ (r k j b : Nat), fields[r]? = some k → j < 32 / e → b < e → x ≠ o + (j * n + k) * e + b) → rd t x = rd s x) ∧
       readG (getCore t core) a =
         (if inc && a != 0 then ((readG c a).1 + BitVec.ofNat 64 (32 * n), (readG c a).2) else readG c a) ∧
       (∀ i, i ≠ a → readG (getCore t core) i = readG c i) ∧ (getCore t core).f = c.f ∧ (getCore t core).pc = c.pc + 4
     SeqReaches s c addr (32 * n) e true m o → SeqRuns s core (encS (0x32 + n) d a w inc fmask off) →
     (∀ (r k : Nat), fields[r]? = some k → (readW c (d.toNat + r)).any Prod.snd = false) →
     (∀ x, o / 32 ≤ x / 32 → x ≤ o + 32 * n → (rd s x).2 = false) →
       (n = 2 → stores (.sstv2 core d a w inc fmask off)) ∧
       (n = 3 → stores (.sstv3 core d a w inc fmask off)) ∧
       (n = 4 → stores (.sstv4 core d a w inc fmask off)))


/-! ### Branches, descriptors, control registers and phases -/

/-- Branches and jumps: a branch whose condition holds moves the program counter by four times its offset, one that fails to the
next instruction; JAL and JALR leave the address of the next instruction in Gd, and JALR goes to Ga plus its immediate with bits
1 and 0 cleared, Ga read before Gd is written. No other register and no memory changes (R184). -/
def Obligations.BranchesAndJumpsMoveThePc : Prop :=
  ∀ (s : State) (core : Nat) (d a b : RField) (off : BitVec 14) (off20 : BitVec 20),
    let c := getCore s core
    let x := readG c a
    let y := readG c b
    let goes := fun (i : Instr) (w : W32) (p : Bool) => SeqRuns s core w → x.2 = false → y.2 = false →
      exec i s = .next (setCore s core { c with pc := if p then c.pc + BitVec.ofInt 64 (4 * off.toInt) else c.pc + 4 })
    goes (.beq core a b off) (encB 0x20 a b off) (decide (x.1 = y.1)) ∧
    goes (.bne core a b off) (encB 0x21 a b off) (decide (x.1 ≠ y.1)) ∧
    goes (.blt core a b off) (encB 0x22 a b off) (decide (x.1.toInt < y.1.toInt)) ∧
    goes (.bge core a b off) (encB 0x23 a b off) (decide (y.1.toInt ≤ x.1.toInt)) ∧
    goes (.bltu core a b off) (encB 0x24 a b off) (decide (x.1.toNat < y.1.toNat)) ∧
    goes (.bgeu core a b off) (encB 0x25 a b off) (decide (y.1.toNat ≤ x.1.toNat)) ∧
    (SeqRuns s core (encU 0x26 d off20) → exec (.jal core d off20) s =
      .next (setCore s core { writeG c d (c.pc + 4, false) with pc := c.pc + BitVec.ofInt 64 (4 * off20.toInt) })) ∧
    (SeqRuns s core (encI 0x27 d a off) → x.2 = false → exec (.jalr core d a off) s =
      .next (setCore s core { writeG c d (c.pc + 4, false) with
        pc := BitVec.ofNat 64 ((x.1 + BitVec.ofInt 64 off.toInt).toNat / 4 * 4) }))

/-- SISS and MVIS: a descriptor without poison that its rules accept joins the core's streams or moves, as the last issued and not
started, when its port has fewer than eight streams waiting or the core fewer than four moves; with a full queue the
instruction waits and nothing changes (R191, R192, R197). -/
def Obligations.DescriptorsJoinTheirQueues : Prop :=
  ∀ (s : State) (core : Nat) (a : RField),
    let c := getCore s core
    let x := wNat (readW c a.toNat)
    let t0 := streamOf x (nextOrd c)
    let t := { t0 with tape := isTapeStream (issueWindows s c) t0 }
    let m := moveOf x (nextOrd c) core
    ((readW c a.toNat).any Prod.snd = false → streamOk x t = true → SeqRuns s core (encT 0x38 0 a 0 0) →
      exec (.siss core a) s =
        .next (if 8 ≤ queuedOn c t.port then s else seqNext core { c with streams := c.streams ++ [t] } s)) ∧
    ((readW c a.toNat).any Prod.snd = false → moveOk x m = true → SeqRuns s core (encT 0x39 0 a 0 0) →
      exec (.mvis core a) s =
        .next (if 4 ≤ queuedMoves c then s else seqNext core { c with moves := c.moves ++ [m] } s)) ∧
    t.started = false ∧ m.started = false

/-- SWAIT, PWAIT and END wait, changing nothing, while a stream or move with a tag in the mask is incomplete, while a phase runs,
or while any of these is; else SWAIT and PWAIT only move on, and END moves on, stops the sequencer and marks the program ended
(R193, R194).

CSW makes context b active on every cell of the core once no phase runs there, and PSYNC, once no OUT stream and no move is
incomplete, counts the arrival and stands at the barrier with the program counter unmoved (R76, R194). -/
def Obligations.WaitsSwitchesAndBarrierArrival : Prop :=
  (∀ (s : State) (core : Nat) (mask : BitVec 16),
     let c := getCore s core
     let tagged := (c.streams.any fun t => mask.getLsbD t.tag) || c.moves.any fun m => mask.getLsbD m.tag
     let busy := !c.streams.isEmpty || !c.moves.isEmpty || c.phase.isSome
     (SeqRuns s core (encU 0x3A 0 (BitVec.ofNat 20 mask.toNat)) →
       exec (.swait core mask) s = .next (if tagged then s else seqNext core c s)) ∧
     (SeqRuns s core (encT 0x3D 0 0 0 0) →
       exec (.pwait core) s = .next (if c.phase.isSome then s else seqNext core c s)) ∧
     (SeqRuns s core (encT 0x3D 0 0 0 3) →
       exec (.endProgram core) s = .next (if busy then s else seqNext core { c with running := false, ended := true } s))) ∧
  (∀ (s : State) (core : Nat) (b : RField),
     let c := getCore s core
     (SeqRuns s core (encT 0x3D 0 0 b 1) → c.phase = none → Answers (.csw core b) s fun t =>
       (∀ i, getCell t i = if i / 20 = core then { getCell s i with active := b.toNat } else getCell s i) ∧
       getCore t core = { c with pc := c.pc + 4 }) ∧
     (SeqRuns s core (encT 0x3D 0 0 b 1) → c.phase.isSome = true → exec (.csw core b) s = .next s) ∧
     (SeqRuns s core (encT 0x3D 0 0 0 2) → (c.streams.any fun t => t.isOut) = false → c.moves = [] →
       exec (.psync core) s = .next (setCore s core { c with psync := c.psync + 1, psyncWait := true })))

/-- PSYNC_RELEASE: when every core of the region runs and stands at the barrier with one count and no halt holds it, each of them
leaves the barrier with its program counter at the next instruction; no other core changes. While one is missing, nothing
happens (R194). -/
def Obligations.BarrierReleasesTheWholeRegion : Prop :=
  ∀ (s : State) (region : Nat) (r : Region),
    regionOf s region = some r →
    let n := (getCore s (4 * r.first)).psync
    let there := fun i => (getCore s i).running = true ∧ (getCore s i).psyncWait = true ∧ (getCore s i).psync = n ∧
      dieHalted s (dieOfCore i) = false
    let mine := fun i => 4 * r.first ≤ i ∧ i < 4 * (r.first + r.count)
    ((∀ i, mine i → there i) → Answers (.psyncRelease region) s fun t =>
      (∀ i, mine i → getCore t i = { getCore s i with psyncWait := false, pc := (getCore s i).pc + 4 }) ∧
      (∀ i, ¬ mine i → getCore t i = getCore s i)) ∧
    ((∃ i, mine i ∧ ¬ there i) → exec (.psyncRelease region) s = .next s)

/-- CSRR gives Gd the register of Table 6.10, unpoisoned, an unnamed number reading zero; SEQ_CYCLE, a count of time, gives the
next free value (log entry 24). CSRW with an unpoisoned Gd clears the bits of SEQ_SFAULT_CAUSE or SEQ_SFAULT_COUNT that are ones
in it, and a write of any other register is discarded (R202). -/
def Obligations.ControlRegistersReadAndClear : Prop :=
  ∀ (s : State) (core : Nat) (d : RField) (imm : BitVec 14),
    let c := getCore s core
    let v := readG c d
    let n := imm.toNat
    let queues := queuedOn c 0 + 16 * queuedOn c 1 + 256 * queuedOn c 2 + 4096 * queuedOn c 3 + 65536 * queuedMoves c
    let val : Nat :=
      if n = 0 then core else if n = 1 then c.step else if n = 2 then c.tag % 2 ^ 32
      else if n = 0x10 then c.sfCause.toNat else if n = 0x11 then c.sfIndex.toNat else if n = 0x12 then c.sfCount.toNat
      else if n = 0x20 then queues
      else if n = 0x30 then (if c.phase.isSome then 1 else 0) + (if c.lastPoisoned then 2 else 0) + 65536 * c.lastPhase
      else if 0x400 ≤ n ∧ n < 0x400 + 1152 ∧ (n - 0x400) % 72 < 69 then tget 0 c.tot (n - 0x400) else 0
    (n ≠ 3 → GivesG (.csrr core d imm) (encI 0x3B d 0 imm) core d (BitVec.ofNat 64 val, false) s) ∧
    (n = 3 → SeqRuns s core (encI 0x3B d 0 imm) → exec (.csrr core d imm) s =
      .next { seqNext core (writeG c d (BitVec.ofNat 64 (Config.freeNat s.freeCtr), false)) s with freeCtr := s.freeCtr + 1 }) ∧
    (v.2 = false → SeqRuns s core (encI 0x3C d 0 imm) → exec (.csrw core d imm) s = .next (seqNext core
      (if n = 0x10 then { c with sfCause := c.sfCause &&& ~~~v.1 }
       else if n = 0x12 then { c with sfCount := c.sfCount &&& ~~~v.1 } else c) s))

/-- PRUN of a phase the region has, with a count from 1 to the phase's maximum and no phase running on the core: the phase runs
there, the shadow of the table store becomes the live copy, every cell of the core clears its drain counters and keeps its
Q registers and banks, and the program counter moves on; while a phase runs, PRUN waits (R71, R182, R194, R218). -/
def Obligations.PrunStartsAPhase : Prop :=
  ∀ (s : State) (core : Nat) (a : RField) (imm : BitVec 14) (e : PhaseEntry),
    let c := getCore s core
    let n := (readG c a).1.toNat
    SeqRuns s core (encI 0x3E 0 a imm) → (readG c a).2 = false → imm.toNat < 8192 →
    phaseEntry s c.region imm.toNat = some e → 1 ≤ n → n ≤ e.maxCount → n < 2 ^ 48 →
      (c.phase.isSome = true → exec (.prun core a imm) s = .next s) ∧
      (c.phase = none → Answers (.prun core a imm) s fun t =>
        (getCore t core).phase = some ⟨imm.toNat, (getCell s (core * 20)).active, n, c.region, false⟩ ∧
        (getCore t core).tlive = c.tshadow ∧ (getCore t core).tshadow = c.tshadow ∧ (getCore t core).g = c.g ∧
        (getCore t core).f = c.f ∧ (getCore t core).pc = c.pc + 4 ∧
        (∀ i, i / 20 = core → (getCell s i).act.isIdle = false →
          (getCell t i).counts = [] ∧ (getCell t i).q = (getCell s i).q ∧ (getCell t i).banks = (getCell s i).banks ∧
            (getCell t i).active = (getCell s i).active ∧ (getCell t i).drainN = 0) ∧
        (∀ i, i / 20 = core → (getCell s i).act.isIdle = true → getCell t i = { getCell s i with counts := [] }) ∧
        (∀ i, i / 20 ≠ core → getCell t i = getCell s i) ∧
        (∀ k, k ≠ core → getCore t k = getCore s k))

/-- Sequencer faults (R201, Table 6.9): fetching outside the program section is FETCH, an illegal word ILLEGAL, a misaligned
access MISALIGNED, an address outside the map or a store to instruction memory ADDRESS, a poisoned condition, base, target or
descriptor POISONED. The step then takes the fault with that cause, whatever the instruction.

Taking a sequencer fault: the faulting core holds the cause and the program counter of the instruction, whose registers and
memories it has not touched; every sequencer of its region stops, and no phase already running on a core ends by it (R201). -/
def Obligations.SequencerFaultsStopTheRegion : Prop :=
  (∀ (s : State) (core : Nat) (d a b : RField) (imm : BitVec 14),
     let c := getCore s core
     let x := readG c a
     let addr := x.1 + BitVec.ofInt 64 imm.toInt
     core < Config.numCores → seqReady s core = true →
     (pcInSection c = false → exec (.add core d a b) s = .next (seqFault core 4 s)) ∧
     (pcInSection c = true → seqLegal (fetchWord c) = false → exec (.add core d a b) s = .next (seqFault core 1 s)) ∧
     (SeqRuns s core (encI 0x16 d a imm) → x.2 = true → exec (.ld core d a imm) s = .next (seqFault core 5 s)) ∧
     (SeqRuns s core (encI 0x16 d a imm) → x.2 = false → addr.toNat % 8 ≠ 0 →
       exec (.ld core d a imm) s = .next (seqFault core 2 s)) ∧
     (SeqRuns s core (encI 0x1B d a imm) → x.2 = false → addr.toNat % 8 = 0 → 0xC00000 ≤ addr.toNat →
       exec (.sd core d a imm) s = .next (seqFault core 3 s)) ∧
     (SeqRuns s core (encB 0x20 a b imm) → x.2 = true ∨ (readG c b).2 = true →
       exec (.beq core a b imm) s = .next (seqFault core 5 s)) ∧
     (SeqRuns s core (encI 0x27 d a imm) → x.2 = true → exec (.jalr core d a imm) s = .next (seqFault core 5 s)) ∧
     (SeqRuns s core (encT 0x38 0 a 0 0) → (readW c a.toNat).any Prod.snd = true →
       exec (.siss core a) s = .next (seqFault core 5 s))) ∧
  (∀ (s : State) (core cause : Nat) (g : Region),
     let c := getCore s core
     let t := seqFault core cause s
     regionOf s c.region = some g → 4 * g.first ≤ core → core < 4 * (g.first + g.count) →
       (getCore t core).fault = some (cause, c.pc) ∧ (getCore t core).g = c.g ∧ (getCore t core).f = c.f ∧
       (getCore t core).pc = c.pc ∧ (getCore t core).dmem = c.dmem ∧ (getCore t core).tshadow = c.tshadow ∧
       (∀ i, 4 * g.first ≤ i → i < 4 * (g.first + g.count) → (getCore t i).running = false) ∧
       (∀ i, (getCore t i).phase = (getCore s i).phase) ∧
       (∀ i, ¬ (4 * g.first ≤ i ∧ i < 4 * (g.first + g.count)) → getCore t i = getCore s i) ∧
       t.mem.bytes = s.mem.bytes)


/-! ### Optical ports -/

/-- RAMP_DONE and TRAIN_DONE (R301, R304, R306, Table 10.3): with fewer than 16 lanes of grade 3 or better the port goes to FAULT
with its lane fault bit; else RAMP goes to TRAIN, and TRAIN to ACTIVE when the port may admit itself and faces the identity it
last had, and to READY otherwise. The lanes take their grades, which Table 10.4 gives by the measured symbol error ratio; after
training exactly the chosen lanes carry logical numbers, and no other port changes.

Lane grades and moves (R307, R308): an interval's grades enter every lane, WORST falls with them, the run of intervals at grade
2 or worse counts up or restarts, and the error counters grow by the interval's symbols and codewords; at the marker the lane
asked for takes the logical number, the lane that had it is failed, the transmitter's lane for its own move is the one named, and
both sides' moves have ended. -/
def Obligations.LanesRampTrainAndMove : Prop :=
  (∀ m : LaneMeasure,
     (m.locked = false → gradeOf m = 0) ∧
     (m.locked = true → m.symbols < m.errors * 10 ^ 3 → gradeOf m = 1) ∧
     (m.locked = true → ∀ k, k < 6 → m.errors * 10 ^ (3 + k) ≤ m.symbols → (k = 5 ∨ m.symbols < m.errors * 10 ^ (4 + k)) →
       gradeOf m = 2 + k)) ∧
  (∀ (s : State) (p : Nat) (measured : List LaneMeasure), TenPorts s → p < 10 →
     let g := measured.map gradeOf
     let v := getPort s p
     let good := ((List.range 20).filter fun i => decide (3 ≤ g.getD i 0)).length
     let same := v.lastId = some (v.farRank, v.farPort, v.dir)
     (v.state = .ramp → Answers (.rampDone p measured) s fun t => OnlyPort p s t ∧
       (16 ≤ good → (getPort t p).state = .train ∧ ∀ i, i < 20 →
         ((getPort t p).lanes.getD i Lane.reset).grade = g.getD i 0) ∧
       (good < 16 → (getPort t p).state = .fault ∧ (getPort t p).fault.getLsbD 1 = true)) ∧
     (v.state = .train → Answers (.trainDone p measured) s fun t => OnlyPort p s t ∧
       (good < 16 → (getPort t p).state = .fault ∧ (getPort t p).fault.getLsbD 1 = true) ∧
       (16 ≤ good → v.autoAdmit = true → same → (getPort t p).state = .active) ∧
       (16 ≤ good → (v.autoAdmit = false ∨ ¬ same) → (getPort t p).state = .ready) ∧
       (16 ≤ good → ∀ i, i < 20 → (((getPort t p).lanes.getD i Lane.reset).role < 16 ↔ i ∈ takeLanes g)))) ∧
  (∀ (s : State) (p : Nat) (measured : List LaneMeasure) (fixed : List Nat) (bad : Nat), TenPorts s → p < 10 →
     let g := measured.map gradeOf
     let v := getPort s p
     let lane := fun (u : State) (i : Nat) => (getPort u p).lanes.getD i Lane.reset
     (Answers (.laneGradeInterval p measured fixed bad) s fun t => OnlyPort p s t ∧
       (∀ i, i < 20 → (lane t i).grade = g.getD i 0 ∧
         (lane t i).worst = Min.min (lane s i).worst (g.getD i 0) ∧
         (lane t i).low = if g.getD i 0 ≤ 2 then (lane s i).low + 1 else 0) ∧
       tget 0 (getPort t p).cnt 3 = tget 0 v.cnt 3 + BitVec.ofNat 64 bad ∧
       (getPort t p).uncorr = v.uncorr + BitVec.ofNat 32 bad) ∧
     (∀ m n, v.state = .active → v.move = some (m, n) → m < 16 → n < 20 → (lane s n).role = 16 →
       Answers (.laneMoveSwitch p) s fun t => OnlyPort p s t ∧ (getPort t p).txMove = none ∧
         (lane t n).moves = Min.min 65535 ((lane s n).moves + 1) ∧
         ((getPort t p).state ≠ .fault → (lane t n).role = m ∧
           (∀ i, i < 20 → i ≠ n → (lane t i).role = if (lane s i).role = m then 17 else (lane s i).role) ∧
           (getPort t p).txLanes = (match v.txMove with
             | some (x, y) => v.txLanes.set x y
             | none => v.txLanes))))

/-- Pilot frames and their loss (R297 to R299, Table 10.3): every frame is followed by the port's own, with this module's rank, the
port's number and its state; beside that an invalid frame only marks the port; the first valid frame at a DARK
port of a module that knows its rank gives the far identity and the direction, and the port stands in PILOT, or in RAMP when
both ends are ready for data, or in FAULT as MISCABLED when no direction fits; losing the pilot makes any port DARK with no far
identity, its queued flits discarded; a detector's loss or return changes one channel's bit. -/
def Obligations.PilotFramesAndLoss : Prop :=
  ∀ (s : State) (p : Nat) (f : PilotFrame) (chanB : Bool), TenPorts s → p < 10 →
    let v := getPort s p
    let ready := s.rst.lasersPermitted = true ∧ s.sf.proof.getLsbD p = true ∧ lineHeld s p = false ∧ f.dataReady = true
    (frameValid f = false → exec (.pilotFrame p f) s = .next (sendFrame p (setPort s p { v with badFrame := true }))) ∧
    (Answers (.pilotFrame p f) s fun t => ∃ g : PilotFrame, frameValid g = true ∧ g.rankValid = rankValid s ∧ g.rank = ownRank s ∧
      g.physPort = p ∧ g.state = (getPort t p).state.code ∧ g.lasersOn = (getPort t p).state.lit ∧
      (g.draining = true ↔ (getPort t p).state = .drain) ∧ (g.hold = true ↔ (getPort t p).state = .hold) ∧
      g.count = v.frameCount ∧ (getPort t p).frameCount = v.frameCount + 1 ∧
      t.env.pilots = s.env.pilots ++ [(p, frameBody g ++ leBytes 2 g.crc.toNat)]) ∧
    (frameValid f = true → f.rankValid = true → rankValid s = true → v.state = .dark → v.farValid = false → v.dir = 0xF →
      Answers (.pilotFrame p f) s fun t => OnlyPort p s t ∧
        (getPort t p).farValid = true ∧ (getPort t p).farRank = f.rank ∧ (getPort t p).farPort = f.physPort ∧
        match directionFor s p f.rank f.dir with
        | none => (getPort t p).state = .fault ∧ (getPort t p).fault.getLsbD 0 = true
        | some d => (getPort t p).dir = d ∧ (ready → (getPort t p).state = .ramp) ∧
            (¬ ready → (getPort t p).state = .pilot)) ∧
    (v.state ≠ .dark → Answers (.pilotLost p) s fun t => OnlyPort p s t ∧ (getPort t p).state = .dark ∧
      (getPort t p).farValid = false ∧ (getPort t p).dir = 0xF ∧ (getPort t p).pilotLosses = v.pilotLosses + 1 ∧
      ((v.state = .active ∨ v.state = .drain) → (getPort t p).egress = [])) ∧
    (Answers (.pilotDetectorPresent p chanB) s fun t => t.lk = s.lk ∧
      (if chanB then t.sf.pilotB else t.sf.pilotA).getLsbD p = true ∧
      (if chanB then t.sf.pilotA else t.sf.pilotB) = (if chanB then s.sf.pilotA else s.sf.pilotB)) ∧
    ((if chanB then s.sf.pilotB else s.sf.pilotA).getLsbD p = true → Answers (.pilotDetectorLost p chanB) s fun t =>
      t.lk = s.lk ∧ emits t p = false ∧ (if chanB then t.sf.pilotB else t.sf.pilotA).getLsbD p = false ∧
      (if chanB then t.sf.pilotA else t.sf.pilotB) = (if chanB then s.sf.pilotA else s.sf.pilotB))

/-- The release button and the latch (R303, R330, R480, R481): a press on an ACTIVE port whose direction has no other route is
refused, shows the refused lamp and changes no state; else it starts the drain. A touch asserts the management copy of the line,
so that a port carrying data goes to HOLD and a draining one to RELEASED, unless the sensor is ignored; the end of the hold
time, or a stuck sensor, lets the line go, and a held port with no other line ramps again.

The end of a drain (R331, R556): once the queue is empty, or at the time limit with what remains discarded and counted, the port
is RELEASED, and every PORT_RELEASE that waited is answered with ST_OK; before that, an unfinished drain changes nothing. -/
def Obligations.ButtonsLatchesAndDrainsMoveThePort : Prop :=
  (∀ (s : State) (p : Nat), TenPorts s → p < 10 →
     let v := getPort s p
     let free := s.ws.portMc.getLsbD p = false ∧ s.ws.portSm.getLsbD p = false
     (v.state = .active → lastRoute s p = true → Answers (.releaseButton p) s fun t => OnlyPort p s t ∧
       (getPort t p).state = .active ∧ (getPort t p).flash = 750 ∧ (getPort t p).presses = v.presses + 1) ∧
     (v.state = .active → lastRoute s p = false → Answers (.releaseButton p) s fun t => OnlyPort p s t ∧
       (getPort t p).state = .drain ∧ (getPort t p).pressed = true ∧ (getPort t p).egress = v.egress) ∧
     (v.touchIgnored = true → exec (.latchTouch p) s = .next (setPort s p { v with touches := v.touches + 1 })) ∧
     (v.touchIgnored = false → Answers (.latchTouch p) s fun t => OnlyPort p s t ∧ lineHeld t p = true ∧
       (getPort t p).touched = true ∧ (getPort t p).touches = v.touches + 1 ∧
       ((v.state = .ramp ∨ v.state = .train ∨ v.state = .ready ∨ v.state = .active) → (getPort t p).state = .hold) ∧
       (v.state = .drain → (getPort t p).state = .released)) ∧
     (v.touched = true → v.state = .hold → free → Answers (.latchHoldEnd p) s fun t => OnlyPort p s t ∧
       (getPort t p).touched = false ∧ (getPort t p).state = .ramp ∧ (getPort t p).autoAdmit = true) ∧
     (v.touched = true → v.state = .hold → free → Answers (.latchSensorFault p) s fun t => OnlyPort p s t ∧
       (getPort t p).touched = false ∧ (getPort t p).touchIgnored = true ∧ (getPort t p).state = .ramp ∧
       t.bb.latchFaults = s.bb.latchFaults + 1) ∧
     ((v.state = .released ∨ v.state = .hold) → smHolds s p 1 = false → smHolds s p 2 = false → smHolds s p 3 = false →
       s.pw.state ≠ .p4 → v.flash = 0 → Answers (.laserDarkReading p true) s fun t => OnlyPort p s t ∧
         (getPort t p).darkRead = true ∧ (getPort t p).lamp = .amberSteady ∧ (getPort t p).state = v.state)) ∧
  (∀ (s : State) (p : Nat), TenPorts s → p < 10 → (getPort s p).state = .drain → (getPort s p).fromP3 = false →
     let v := getPort s p
     let answered := fun (t : State) => (getPort t p).waiters = [] ∧
       sentUp t = sentUp s ++ v.waiters.map fun h => Payload.completion h 0 0 []
     (v.egress = [] → Answers (.drainEnd p) s fun t => OnlyPort p s t ∧ (getPort t p).state = .released ∧ answered t) ∧
     (v.egress ≠ [] → exec (.drainEnd p) s = .next s) ∧
     (Answers (.drainTimeout p) s fun t => OnlyPort p s t ∧ (getPort t p).state = .released ∧ (getPort t p).egress = [] ∧
       (getPort t p).fault.getLsbD 3 = true ∧ answered t ∧
       tget 0 (getPort t p).cnt 8 = tget 0 v.cnt 8 + BitVec.ofNat 64 v.egress.length))


/-! ### Packets -/

/-- PACKET_ROUTE (R311 to R319, R325, R327, R552): a packet that arrives on an ACTIVE or DRAIN port is counted in flits; a bad header, a
fenced source, a destination outside the torus, a stale epoch, a fenced destination or a missing next hop drop it and count it
each in its own counter, and their room's credits go back; a packet that finds another of its virtual channel waiting to cross, or
no room in its egress channel's staging buffer, waits behind it; else a packet for this module goes to its network interface, and any
other stands in the egress queue of its next hop's port, or has left there, marked at most as congested. -/
def Obligations.ArrivingPacketsAreRoutedOrCounted : Prop :=
  ∀ (s : State) (p : Nat) (k : Packet) (badHeader badFlit : Bool), TenPorts s → p < 10 →
    let v := getPort s p
    let own := ownRank s
    let k1 := if k.layer = 1 then { k with layer := 2 } else k
    let drop := fun (t : State) (n : Nat) => tget 0 t.lk.drops n = tget 0 s.lk.drops n + 1
    let freed := fun (t : State) => t.env.credits = s.env.credits ++ [(p, pktVc k, pktFlits k)]
    let x : Crossing := ⟨p, pktVc k, some (v.dir / 2), k1, badFlit⟩
    let behind := s.lk.crossing.any fun y => y.ingress == p && y.vc == pktVc k
    let waits := fun (t : State) => t.lk.crossing = s.lk.crossing ++ [x] ∧ t.lk.rxq = s.lk.rxq ∧ t.env = s.env
    (v.state = .active ∨ v.state = .drain) → Answers (.packetRoute p k badHeader badFlit) s fun t =>
      tget 0 (getPort t p).cnt 1 = tget 0 v.cnt 1 + BitVec.ofNat 64 (pktFlits k) ∧
      (badHeader = true → tget 0 (getPort t p).cnt 4 = tget 0 v.cnt 4 + 1 ∧ freed t ∧ t.lk.drops = s.lk.drops ∧ t.lk.rxq = s.lk.rxq ∧
        t.env.wire = s.env.wire) ∧
      (badHeader = false →
        (isFenced s k.src = true → drop t 3 ∧ freed t ∧ t.lk.rxq = s.lk.rxq ∧ t.env.wire = s.env.wire) ∧
        (isFenced s k.src = false →
          (inTorus s k.dest = false → drop t 1 ∧ freed t ∧ t.lk.rxq = s.lk.rxq ∧ t.env.wire = s.env.wire) ∧
          (inTorus s k.dest = true →
            (routeBank s k.epoch = none → drop t 0 ∧ freed t ∧ t.lk.rxq = s.lk.rxq ∧ t.env.wire = s.env.wire) ∧
            (∀ bank, routeBank s k.epoch = some bank →
              (behind = true → (k.dest = own ∨ isFenced s k.dest = false) → waits t) ∧
              (behind = false → k.dest = own → pktReserved k = false →
                t.lk.rxq = s.lk.rxq ++ [(k1, badFlit)] ∧ freed t ∧ t.env.wire = s.env.wire) ∧
              (behind = false → k.dest = own → pktReserved k = true → drop t 7 ∧ freed t ∧ t.lk.rxq = s.lk.rxq) ∧
              (k.dest ≠ own → isFenced s k.dest = true →
                drop t 2 ∧ (pktData k = false → t.lk.rxq = s.lk.rxq ∧ t.env.wire = s.env.wire)) ∧
              (behind = false → k.dest ≠ own → isFenced s k.dest = false →
                (nextHop s bank (some (v.dir / 2)) k1 = none → drop t 1 ∧ freed t ∧ t.env.wire = s.env.wire) ∧
                (∀ q k2, nextHop s bank (some (v.dir / 2)) k1 = some (q, k2) → q < 10 ∧
                  (stagingRoom s q k2 = false → waits t) ∧
                  (stagingRoom s q k2 = true → freed t ∧ ∃ k3, (k3 = k2 ∨ k3 = { k2 with cmark := true }) ∧
                    (⟨pktVc k3, k3, badFlit⟩ ∈ (getPort t q).egress ∨ (q, k3, badFlit, (getPort s q).wireLanes) ∈ t.env.wire))))))))

/-- A data packet at the head of the delivery queue (R312, R322, R323): with a bad CRC or a bad flit it is not delivered and counted;
new and within 511 of the next expected number it goes to its engine once; one already received is counted as a duplicate; one
beyond the window is counted and ignored. Its own rank's packets apart, the queue loses just that packet. -/
def Obligations.DataPacketsReachTheirEngineOnce : Prop :=
  ∀ (s : State) (k : Packet) (bad : Bool) (rest : List (Packet × Bool)),
    s.lk.rxq = (k, bad) :: rest → pktData k = true → k.src ≠ ownRank s →
    let v := getPeer s k.src
    let dist := (k.seq + 2 ^ 24 - v.rxNext) % 2 ^ 24
    let seen := v.rxSeen.contains k.seq
    let count := fun (t : State) (n : Nat) => tget 0 t.lk.drops n = tget 0 s.lk.drops n + 1
    Answers .dataPacketReceive s fun t => t.lk.rxq = rest ∧
      ((bad = true ∨ crcHolds k = false) → t.lk.engq = s.lk.engq ∧ count t 4 ∧ (getPeer t k.src).rxNext = v.rxNext) ∧
      (bad = false → crcHolds k = true →
        (dist ≤ 511 → seen = false → t.lk.engq = s.lk.engq ++ [k] ∧ (getPeer t k.src).lastSeq = k.seq) ∧
        (dist ≤ 511 → seen = true → t.lk.engq = s.lk.engq ∧ count t 5) ∧
        (2 ^ 23 ≤ dist → t.lk.engq = s.lk.engq ∧ count t 5) ∧
        (511 < dist → dist < 2 ^ 23 → t.lk.engq = s.lk.engq ∧ count t 8))

/-- Injection and the window (R318, R321, R326, R327): the oldest packet that waits for a rank is numbered with the pair's next SEQ, held
and launched while fewer packets are held than the window allows; with the window full nothing happens; toward a fenced rank it
leaves the queue uninjected, as does one toward a rank outside the torus, which is counted, or toward one in peer error.

Credits (R314, R318): returned flits free their virtual channel's share and no other's; with nothing queued nothing else happens, and a
queued packet alone leaves as soon as its channel's credits cover its flits, and not before; a packet that waits to cross the module
does so once its egress channel's staging buffer has room, and its own input buffer's credits then return. -/
def Obligations.InjectionAndCreditsGatePackets : Prop :=
  (∀ (s : State) (dest : Nat) (k : Packet) (rest : List Packet),
     let v := getPeer s dest
     v.waiting = k :: rest → inTorus s dest = true → k.dest = dest →
     (isFenced s dest = false → v.peerErr = false → v.held.length < windowOf s v → Answers (.packetInject dest) s fun t =>
       (getPeer t dest).waiting = rest ∧ (getPeer t dest).nextSeq = (v.nextSeq + 1) % 2 ^ 24 ∧
       (getPeer t dest).held = v.held ++ [⟨{ k with seq := v.nextSeq, src := ownRank s, epoch := s.lk.epoch }, 0⟩] ∧
       (getPeer t dest).peerErr = false ∧ (∀ r, r ≠ dest → getPeer t r = getPeer s r)) ∧
     (isFenced s dest = false → v.peerErr = false → windowOf s v ≤ v.held.length → exec (.packetInject dest) s = .next s) ∧
     (isFenced s dest = true → NoCaravan s k.caravan →
       exec (.packetInject dest) s = .next (setPeer s dest { v with waiting := rest })) ∧
     (isFenced s dest = false → v.peerErr = true → NoCaravan s k.caravan →
       exec (.packetInject dest) s = .next (setPeer s dest { v with waiting := rest }))) ∧
  (∀ (s : State) (dest : Nat) (k : Packet) (rest : List Packet),
     let v := getPeer s dest
     v.waiting = k :: rest → inTorus s dest = false → NoCaravan s k.caravan → Answers (.packetInject dest) s fun t =>
       (getPeer t dest).waiting = rest ∧ (getPeer t dest).held = v.held ∧ tget 0 t.lk.drops 1 = tget 0 s.lk.drops 1 + 1) ∧
  (∀ (s : State) (p vc flits : Nat), TenPorts s → p < 10 →
     let v := getPort s p
     let used := tput 0 v.used vc (tget 0 v.used vc - flits)
     (∀ x bank q k, v.egress = [] → s.lk.crossing = [x] → x.pkt.dest ≠ ownRank s → routeBank s x.pkt.epoch = some bank →
       nextHop s bank x.prev x.pkt = some (q, k) → Answers (.creditReturn p vc flits) s fun t =>
         (stagingRoom s q k = false → t.lk.crossing = [x] ∧ t.env = s.env) ∧
         (stagingRoom s q k = true → t.lk.crossing = [] ∧
           (x.ingress < 10 → t.env.credits = s.env.credits ++ [(x.ingress, x.vc, pktFlits x.pkt)]) ∧
           ∃ k3, (k3 = k ∨ k3 = { k with cmark := true }) ∧
             (⟨pktVc k3, k3, x.bad⟩ ∈ (getPort t q).egress ∨ (q, k3, x.bad, (getPort s q).wireLanes) ∈ t.env.wire))) ∧
     (v.egress = [] → s.lk.crossing = [] → Answers (.creditReturn p vc flits) s fun t => OnlyPort p s t ∧ t.env = s.env ∧
       (getPort t p).egress = [] ∧ (getPort t p).used = used) ∧
     (∀ q, v.egress = [q] → s.lk.crossing = [] → Answers (.creditReturn p vc flits) s fun t => OnlyPort p s t ∧
       (pktFlits q.pkt ≤ creditsFor used q.vc → (getPort t p).egress = [] ∧ t.env.wire = s.env.wire ++ [(p, q.pkt, q.bad, v.wireLanes)] ∧
         tget 0 (getPort t p).used q.vc = tget 0 used q.vc + pktFlits q.pkt) ∧
       (creditsFor used q.vc < pktFlits q.pkt → (getPort t p).egress = [q] ∧ t.env.wire = s.env.wire ∧
         (getPort t p).used = used)))

/-- ACK, NACK and FENCED (R323, R324, R328), for packets of no live caravan: an ACK releases the packets before its ACK_SEQ and the one it
names; a NACK releases those before its ACK_SEQ but never the one it names, which it resends, unless the rank now lies outside the
torus, where it leaves the queue and is counted; FENCED removes the one it names; a control packet
with a bad CRC is dropped and counted. Each leaves the delivery queue, and other pairs stay. -/
def Obligations.AcknowledgementsReleaseHeldPackets : Prop :=
  ∀ (s : State) (k : Packet) (bad : Bool) (rest : List (Packet × Bool)),
    s.lk.rxq = (k, bad) :: rest →
    let v := getPeer s k.src
    let w := getPeer s k.offset
    let early := fun (h : HeldPkt) => seqLater k.ackSeq h.pkt.seq
    (∀ h ∈ v.held, NoCaravan s h.pkt.caravan) → (∀ h ∈ w.held, NoCaravan s h.pkt.caravan) →
    ((bad = true ∨ crcHolds k = false) → ∀ i, (k.typ = 3 ∧ i = Instr.ack) ∨ (k.typ = 4 ∧ i = Instr.packetNack) ∨ (k.typ = 5 ∧ i = Instr.fenced) →
      Answers i s fun t => t.lk.rxq = rest ∧ t.lk.peers = s.lk.peers ∧ tget 0 t.lk.drops 4 = tget 0 s.lk.drops 4 + 1) ∧
    (bad = false → crcHolds k = true → k.typ = 3 → Answers .ack s fun t => t.lk.rxq = rest ∧
      (getPeer t k.src).held = v.held.filter (fun h => !(early h || h.pkt.seq == k.seq)) ∧
      (∀ r, r ≠ k.src → getPeer t r = getPeer s r)) ∧
    (bad = false → crcHolds k = true → k.typ = 4 → inTorus s k.src = false → Answers .packetNack s fun t => t.lk.rxq = rest ∧
      (getPeer t k.src).held = lremove (fun h => h.pkt.seq == k.seq) (v.held.filter fun h => h.pkt.seq == k.seq || !early h) ∧
      (∀ h ∈ v.held, h.pkt.seq = k.seq → tget 0 t.lk.drops 1 = tget 0 s.lk.drops 1 + 1) ∧
      (∀ r, r ≠ k.src → getPeer t r = getPeer s r)) ∧
    (bad = false → crcHolds k = true → k.typ = 4 → inTorus s k.src = true → (∀ h ∈ v.held, h.pkt.dest ≠ ownRank s) →
      Answers .packetNack s fun t => t.lk.rxq = rest ∧
        (∀ h, h ∈ (getPeer t k.src).held → h.pkt.seq ≠ k.seq → h ∈ v.held ∧ early h = false) ∧
        (∀ h, h ∈ v.held → early h = false → h.pkt.seq ≠ k.seq → h ∈ (getPeer t k.src).held) ∧
        ((getPeer t k.src).held.filter fun h => h.pkt.seq == k.seq).map HeldPkt.resends =
          (v.held.filter fun h => h.pkt.seq == k.seq).map (fun h => h.resends + 1) ∧
        (∀ r, r ≠ k.src → getPeer t r = getPeer s r)) ∧
    (bad = false → crcHolds k = true → k.typ = 5 → Answers .fenced s fun t => t.lk.rxq = rest ∧
      (getPeer t k.offset).held = lremove (fun h => h.pkt.seq == k.seq) w.held ∧
      (∀ r, r ≠ k.offset → getPeer t r = getPeer s r))

/-- The timers of a pair (R323, R324, R326): ACK_TIMER answers what stands unacknowledged and only then; a resend time-out halves the window
down to WMIN and counts one more resend of that packet, and after the seventh it declares a peer error: both queues are emptied and
LK_PEER_ERR and the event name the rank. Toward a rank that now lies outside the torus the packet leaves the queue instead, counted,
with no peer error (R552). -/
def Obligations.PairTimersResendOrGiveUp : Prop :=
  ∀ (s : State) (r seq : Nat) (h : HeldPkt), r < 65536 →
    let v := getPeer s r
    (v.unacked = 0 → exec (.ackTimer r) s = .next s) ∧
    (0 < v.unacked → Answers (.ackTimer r) s fun t => (getPeer t r).unacked = 0 ∧ (getPeer t r).echo = false ∧
      (getPeer t r).held = v.held ∧ (∀ q, q ≠ r → getPeer t q = getPeer s q)) ∧
    ((v.held.find? fun x => x.pkt.seq == seq) = none → exec (.resendTimeout r seq) s = .next s) ∧
    ((v.held.find? fun x => x.pkt.seq == seq) = some h → inTorus s r = false → NoCaravan s h.pkt.caravan →
      Answers (.resendTimeout r seq) s fun t =>
        (getPeer t r).held = lremove (fun x => x.pkt.seq == seq) v.held ∧ (getPeer t r).waiting = v.waiting ∧
        (getPeer t r).w = Max.max (cfgWmin s) (v.w / 2) ∧ (getPeer t r).peerErr = v.peerErr ∧
        tget 0 t.lk.drops 1 = tget 0 s.lk.drops 1 + 1 ∧ t.lk.peerErrLog = s.lk.peerErrLog) ∧
    ((v.held.find? fun x => x.pkt.seq == seq) = some h → inTorus s r = true → h.resends < 7 → Answers (.resendTimeout r seq) s fun t =>
      (getPeer t r).w = Max.max (cfgWmin s) (v.w / 2) ∧ (getPeer t r).waiting = v.waiting ∧
      (getPeer t r).held.length = v.held.length ∧
      (∃ x ∈ (getPeer t r).held, x.pkt.seq = seq ∧ x.resends = h.resends + 1 ∧ x.pkt.epoch = s.lk.epoch) ∧
      (∀ q, q ≠ r → getPeer t q = getPeer s q)) ∧
    ((v.held.find? fun x => x.pkt.seq == seq) = some h → inTorus s r = true → 7 ≤ h.resends →
      (∀ x ∈ v.held, NoCaravan s x.pkt.caravan) → (∀ x ∈ v.waiting, NoCaravan s x.caravan) →
      Answers (.resendTimeout r seq) s fun t =>
        (getPeer t r).held = [] ∧ (getPeer t r).waiting = [] ∧ (getPeer t r).peerErr = true ∧
        (getPeer t r).w = Max.max (cfgWmin s) (v.w / 2) ∧
        t.lk.peerErrLog.getLsbD 16 = true ∧
        (s.lk.peerErrLog.getLsbD 16 = false → bits64 t.lk.peerErrLog 15 0 = r))


/-! ### Host commands -/

/-- The first check of R408 that a command fails answers it: with nothing waiting behind a FENCE, a command the port can accept whose
checks give a status completes at once with that status, is counted in CP_FAULT_CNT[4] of its port, and has no other effect: NEXT
advances, and memory, links, configuration and the long operations stay as they were.

Long operations enter QUEUED in a free entry of CP_LONGOP and change nothing else but their port's account, and a CHECKPOINT, whose
list is read then, the memory controllers' counts (R424, R436): the eight commands that always are long. -/
def Obligations.CommandsAreRefusedOrEnterQueued : Prop :=
  (∀ (s : State) (i : Instr) (h : CmdHdr) (op token : Nat),
     let st := refusal (enroll h op s) (slotForm i) h op token (nextHandle s h.port)
     h.port < 2 → hostCmd i = some (h, op, token) → canAccept s h.port = true → st ≠ 0 →
     (∀ p ∈ (getCp s h.port).pend, p.handle ≠ nextHandle s h.port) → nextSlotEmpty s h.port = true →
     (getCp s 0).fenced = [] → (getCp s 1).fenced = [] → Answers i s fun t =>
       Completed s t h op st [] ∧ tget 0 (getCp t h.port).faultCnt 4 = tget 0 (getCp s h.port).faultCnt 4 + 1 ∧
       t.mem = s.mem ∧ t.lk = s.lk ∧ t.fb = s.fb ∧ t.ws = s.ws ∧ t.cl = s.cl ∧ t.sc = s.sc ∧ t.pw = s.pw ∧
       t.cp.longops = s.cp.longops ∧ t.cp.holder = s.cp.holder) ∧
  (∀ (s : State) (h : CmdHdr) (d : CollDesc) (a b n x y : Nat),
     let queues := fun (i c : Instr) (op token : Nat) => HostRuns s c h op token → Answers i s fun t =>
       Owed s t h op ∧ t.fb = s.fb ∧ (op ≠ 0x0502 → t.mem = s.mem) ∧ t.mem.bytes = s.mem.bytes ∧ t.mem.poison = s.mem.poison ∧
       t.ws = s.ws ∧ t.cl = s.cl ∧ t.sc = s.sc ∧
       ∃ e l, e < 16 ∧ (∀ z ∈ s.cp.longops, z.1 ≠ e) ∧ t.cp.longops = s.cp.longops ++ [(e, l)] ∧
         l.handle = nextHandle s h.port ∧ l.opcode = op ∧ l.cmd = c ∧ l.state = .queued ∧ l.ran = false ∧ l.pastCommit = false
     let form := fun (f : Nat) => { d with kind := 5, flags := d.flags &&& 0xE7 ||| f }
     queues (.checkpoint h a n x y) (.checkpoint h a n x y) 0x0502 0 ∧
     queues (.restore h a b n) (.restore h a b n) 0x0503 0 ∧
     queues (.reshard h d) (.reshard h (form 0)) 0x0504 0 ∧
     queues (.reshardResume h d) (.reshardResume h (form 8)) 0x0504 0 ∧
     queues (.reshardRollback h d) (.reshardRollback h (form 16)) 0x0504 0 ∧
     queues (.scrub h) (.scrub h) 0x0801 1 ∧
     queues (.fwUpdate h a n) (.fwUpdate h a n) 0x0802 1 ∧
     queues (.bbExport h a b n) (.bbExport h a b n) 0x0803 0)

/-- SET_ROUTES writes the bank of the next epoch with VALID, EPOCH, DOWN and DETOUR, and SET_ROUTE_EPOCH switches injection to it, its
command owed until the previous bank retires; EPOCH_RETIRE waits for the last packet of the previous epoch, and then clears that
bank's VALID and answers the command (R320, R553, Tables 10.7, 10.18).

FENCE_PEER and UNFENCE_PEER, with no caravan live: the fence of that rank alone is set or cleared and its pair state starts from
zero, its window at WINIT once the fence is cleared, and the command completes (R327, R329). -/
def Obligations.RouteBanksAndFencesChangeByCommand : Prop :=
  (∀ (s : State) (h : CmdHdr) (e down detour : Nat),
     let bank := fun (u : State) (n : Nat) => if n % 2 = 0 then u.lk.bank0 else u.lk.bank1
     let idle := inflightHeld s s.lk.prevEpoch = 0 ∧ inflightOut s s.lk.prevEpoch = 0
     (HostRuns s (.setRoutes h e down detour) h 0x0403 1 → Answers (.setRoutes h e down detour) s fun t =>
       Completed s t h 0x0403 0 [] ∧ bank t (e + 1) = bank s (e + 1) ∧ t.lk.epoch = s.lk.epoch ∧
       bank t e = BitVec.ofNat 64 (1 + 2 * (e % 4) + 256 * (down % 256) + 65536 * (detour % 2 ^ 32))) ∧
     (HostRuns s (.setRouteEpoch h e) h 0x0404 1 → Answers (.setRouteEpoch h e) s fun t =>
       Owed s t h 0x0404 ∧ t.lk.epoch = e ∧ t.lk.prevEpoch = s.lk.epoch ∧ t.lk.prevLive = true ∧
       t.lk.epochWaiter = some (nextHandle s h.port) ∧ t.lk.bank0 = s.lk.bank0 ∧ t.lk.bank1 = s.lk.bank1) ∧
     (s.lk.prevLive = true → idle → Answers .epochRetire s fun t =>
       t.lk.prevLive = false ∧ t.lk.epochWaiter = none ∧ (bank t s.lk.prevEpoch).getLsbD 0 = false ∧
       bank t (s.lk.prevEpoch + 1) = bank s (s.lk.prevEpoch + 1) ∧
       sentUp t = sentUp s ++ (s.lk.epochWaiter.toList.map fun w => Payload.completion w 0 0 [])) ∧
     ((s.lk.prevLive = false ∨ ¬ idle) → exec .epochRetire s = .next s)) ∧
  (∀ (s : State) (h : CmdHdr) (r : Nat),
     (HostRuns s (.fencePeer h r) h 0x0401 1 → s.cl.caravans = [] → Answers (.fencePeer h r) s fun t =>
       Completed s t h 0x0401 0 [] ∧ isFenced t r = true ∧ getPeer t r = Peer.fresh ∧
       ∀ q, q ≠ r → isFenced t q = isFenced s q ∧ getPeer t q = getPeer s q) ∧
     (HostRuns s (.unfencePeer h r) h 0x0402 1 → Answers (.unfencePeer h r) s fun t =>
       Completed s t h 0x0402 0 [] ∧ isFenced t r = false ∧
       (isFenced s r = true → getPeer t r = { Peer.fresh with started := true, w := cfgWinit s }) ∧
       (isFenced s r = false → getPeer t r = getPeer s r) ∧
       ∀ q, q ≠ r → isFenced t q = isFenced s q ∧ getPeer t q = getPeer s q))

/-- PORT_RELEASE, PORT_RELEASE_FORCE and PORT_ADMIT (R300, R330, R556): a release starts the drain of an ACTIVE port and waits for it,
joins a drain under way, takes a RELEASED port back to its pilot, and any other port but a DARK one to RELEASED at once, answered by a COMPLETION message; the forced form,
with no caravan live, first fences every rank whose first hop is the port's direction; PORT_ADMIT takes a READY port to ACTIVE and
completes. Other ports stay.

COLLECTIVE commands are handed to the data plane: each of the five kinds posts one COLL_DESC message with its handle and its
descriptor, the kind filled in, and its completion is owed (R334, R421). -/
def Obligations.PortAndCollectiveCommandsAct : Prop :=
  (∀ (s : State) (h : CmdHdr) (p : Nat), TenPorts s →
     let v := getPort s p
     let told := fun (t : State) => sentUp t = sentUp s ++
       ((v.waiters ++ [nextHandle s h.port]).map fun w => Payload.completion w 0 0 [])
     let released := fun (t : State) => OnlyPort p s t ∧ Owed s t h 0x0804 ∧
       (v.state = .active → (getPort t p).state = .drain ∧ (getPort t p).waiters = v.waiters ++ [nextHandle s h.port]) ∧
       (v.state = .drain → (getPort t p).state = .drain ∧ (getPort t p).waiters = v.waiters ++ [nextHandle s h.port]) ∧
       (v.state = .released → (getPort t p).state ∈ [.pilot, .ramp, .fault] ∧
         sentUp t = sentUp s ++ [.completion (nextHandle s h.port) 0 0 []]) ∧
       (v.state ∉ [.active, .drain, .released, .dark] → (getPort t p).state = .released ∧ told t)
     (HostRuns s (.portRelease h p) h 0x0804 1 → Answers (.portRelease h p) s released) ∧
     (HostRuns s (.portReleaseForce h p) h 0x0804 1 → s.cl.caravans = [] → Answers (.portReleaseForce h p) s fun t =>
       released t ∧ (v.state = .active → ∀ r, r < 65536 → inTorus s r = true → orderDir s r = some v.dir → isFenced t r = true)) ∧
     (HostRuns s (.portAdmit h p) h 0x0805 1 → Answers (.portAdmit h p) s fun t =>
       OnlyPort p s t ∧ Completed s t h 0x0805 0 [] ∧ (getPort t p).state = .active)) ∧
  (∀ (s : State) (h : CmdHdr) (d : CollDesc),
     let posts := fun (i : Instr) (c : Instr) (k : Nat) => HostRuns s c h 0x0301 0 → Answers i s fun t =>
       Owed s t h 0x0301 ∧ t.cl = s.cl ∧
       sentDown t = sentDown s ++ [.collDesc (nextHandle s h.port) { d with kind := k }]
     posts (.allReduce h d) (.allReduce h { d with kind := 1 }) 1 ∧
     posts (.reduceScatter h d) (.reduceScatter h { d with kind := 2 }) 2 ∧
     posts (.allGather h d) (.allGather h { d with kind := 3 }) 3 ∧
     posts (.multicast h d) (.multicast h { d with kind := 4 }) 4 ∧
     posts (.topkGather h d) (.topkGather h { d with kind := 6 }) 6)

/-- RUN_PHASE, RUN_PROGRAM, SWITCH_CONTEXT and LOAD_CONFIG (R228, R229, R236, R237, R419): on an idle region a run opens and its
PHASE_START is posted, on a busy one it waits in arrival order; a switch is posted at once, or waits for a load past its commit
point; a load joins the queue, and its CFG_LOAD is posted when it is the only one and not a long operation. -/
def Obligations.RunsSwitchesAndLoadsAreHandedOn : Prop :=
  ∀ (s : State) (h : CmdHdr) (region phase count ctx addr bytes : Nat),
    let H := nextHandle s h.port
    let under := ∀ x, headLoad s = some x → x.sent = true ∨ ∃ e, longOpOf s x.handle = some e ∧ e.2.state = .queued
    let down := fun (t : State) (l : List Payload) => sentDown t = sentDown s ++ l
    let runs := fun (i : Instr) (prog : Bool) (ph n : Nat) => HostRuns s i h 0x0201 0 → Answers i s fun t =>
      Owed s t h 0x0201 ∧
      (runWaits s region = false → down t [.phaseStart region ph n H h.step.toNat prog] ∧
        ∃ r, runOf t region = some r ∧ r.handle = H ∧ r.program = prog ∧ r.phaseId = ph ∧ r.count = n ∧ r.started = 0) ∧
      (runWaits s region = true → down t [] ∧ t.fb.waits = s.fb.waits ++ [(region, H, i)] ∧ runOf t region = runOf s region)
    runs (.runPhase h region phase count) false phase count ∧
    runs (.runProgram h region) true 0 0 ∧
    (HostRuns s (.switchContext h region ctx) h 0x0102 1 → Answers (.switchContext h region ctx) s fun t =>
      (committedOn s region = false → Owed s t h 0x0102 ∧ down t [.ctxSwitch region ctx H]) ∧
      (committedOn s region = true → Owed s t h 0x0102 ∧ down t [] ∧
        t.fb.switchWaits = s.fb.switchWaits ++ [(region, ctx, H)])) ∧
    (HostRuns s (.loadConfig h addr bytes) h 0x0101 1 → under → Answers (.loadConfig h addr bytes) s fun t =>
      Owed s t h 0x0101 ∧ ∃ l, t.fb.loads = s.fb.loads ++ [l] ∧ l.handle = H ∧ l.addr = addr ∧ l.bytes = bytes ∧
        l.stage = .accept ∧ (l.sent = true ↔ s.fb.loads = [] ∧ bytes ≤ 0x100000) ∧
        (s.fb.loads = [] → bytes ≤ 0x100000 → down t [.cfgLoad H]))

/-- SUSPEND, RESUME and CANCEL of a long operation other than a re-shard or a load (R425 to R427, Table 13.9): SUSPEND pauses a queued
one at once and lets a running one go on to its pause point; RESUME puts a paused one back to RUNNING, or to QUEUED when it never
ran; CANCEL of one that ran makes it CANCELLING, and of one past its commit point answers ST_COMPLETED_BEFORE_CANCEL. The states'
ends are the rows PAUSE_POINT_REACHED and CANCEL_UNDO_DONE.

The long operation's own steps (R424 to R428, Tables 13.8, 13.9): a queued one that no FENCE holds starts to run, but a SCRUB or RESTORE
only while no other work is live; at its pause point a suspending one is SUSPENDED and its SUSPEND completes; a cancelled one leaves
with ST_CANCELLED, and a CHECKPOINT at the end of its work with ST_OK or ST_POISON: its entry is free and its outcome remembered. -/
def Obligations.LongOperationsAreControlled : Prop :=
  (∀ (s : State) (h : CmdHdr) (t0 e : Nat) (l : LongOp),
     let H := nextHandle s h.port
     liveLong s t0 = some (e, l) → l.opcode ≠ 0x0504 → l.opcode ≠ 0x0101 → s.fb.loads = [] →
     (HostRuns s (.suspend h t0) h 0x0601 2 → l.pastCommit = false → l.resumer = none → Answers (.suspend h t0) s fun t =>
       (l.state = .queued → Completed s t h 0x0601 3 [] ∧ (e, { l with state := .suspended }) ∈ t.cp.longops) ∧
       (l.state = .running → Owed s t h 0x0601 ∧
         (e, { l with state := .suspending, suspender := some H }) ∈ t.cp.longops)) ∧
     (HostRuns s (.resume h t0) h 0x0602 2 → l.state = .suspended → l.resumer = none → Answers (.resume h t0) s fun t =>
       (l.ran = true → Completed s t h 0x0602 0 [] ∧ (e, { l with state := .running }) ∈ t.cp.longops) ∧
       (l.ran = false → Owed s t h 0x0602 ∧ (e, { l with state := .queued, resumer := some H }) ∈ t.cp.longops)) ∧
     (HostRuns s (.cancel h t0) h 0x0603 2 → Answers (.cancel h t0) s fun t =>
       (l.pastCommit = true → Completed s t h 0x0603 1 [0] ∧ t.cp.longops = s.cp.longops) ∧
       (l.pastCommit = false → l.state = .running → l.suspender = none → Owed s t h 0x0603 ∧
         (e, { l with state := .cancelling, canceller := some H }) ∈ t.cp.longops) ∧
       (l.pastCommit = false → l.state = .queued → longOpOf t l.handle = none ∧ t.cp.remembered.head? = some (l.handle, 2)))) ∧
  (∀ (s : State) (n e : Nat) (l : LongOp) (tests : List SelfTest) (h : CmdHdr) (a m x y : Nat),
     liveLong s n = some (e, l) → (getCp s 0).fenced = [] → (getCp s 1).fenced = [] →
     (l.state = .queued → l.opcode = 0x0502 → Answers (.longOpStart n) s fun t =>
       (e, { l with state := .running, ran := true, resumer := none }) ∈ t.cp.longops) ∧
     (l.state = .queued → (l.opcode = 0x0801 ∨ l.opcode = 0x0503) → aloneLive s l.handle = false →
       exec (.longOpStart n) s = .next s) ∧
     (l.state = .suspending → Answers (.pausePointReached n) s fun t =>
       (e, { l with state := .suspended, suspender := none }) ∈ t.cp.longops) ∧
     (l.state = .cancelling → l.opcode ≠ 0x0504 → Answers (.cancelUndoDone n) s fun t =>
       longOpOf t l.handle = none ∧ t.cp.remembered.head? = some (l.handle, 2)) ∧
     (l.state = .running → l.cmd = .checkpoint h a m x y → Answers (.longOpWorkEnd n tests) s fun t =>
       longOpOf t l.handle = none ∧
       (t.cp.remembered.head? = some (l.handle, 0) ∨ t.cp.remembered.head? = some (l.handle, 0x0200)) ∧
       hostRead t h.port x 4 = [0x43, 0x4B, 0x50, 0x31]))

/-- QUERY, RESET and ATTEST complete at once (R416, R495, R524): QUERY returns CP_STATUS, CL_STATUS and FB_JOB, the latter two zero while the data
plane has no power, or a long operation's remembered status; ATTEST leaves its report in host memory. -/
def Obligations.QueriesAndAttestation : Prop :=
  ∀ (s : State) (h : CmdHdr) (n : Nat) (nonce : BitVec 256) (a bytes : Nat),
    let b := rememberPlain (nextHandle s h.port) (enroll h 0x0701 s)
    let c := rememberPlain (nextHandle s h.port) (enroll h 0x0901 s)
    (HostRuns s (.queryDevice h) h 0x0701 0 → Answers (.queryDevice h) s fun t =>
      Completed s t h 0x0701 0 [BitVec.ofNat 64 (cpStatus b h.port),
        if s.rst.dataPlaneOn then BitVec.ofNat 64 (clStatus s) else 0, if s.rst.dataPlaneOn then s.fb.job else 0]) ∧
    (∀ st, liveLong s n = none → pastLong s n = some st → HostRuns s (.queryLongOp h n) h 0x0701 0 →
      Answers (.queryLongOp h n) s fun t => Completed s t h 0x0701 0 [0, BitVec.ofNat 64 st]) ∧
    (∀ e l, liveLong s n = some (e, l) → l.ran = false → HostRuns s (.queryLongOp h n) h 0x0701 0 →
      Answers (.queryLongOp h n) s fun t => Completed s t h 0x0701 0
        [BitVec.ofNat 64 (l.handle % 2 ^ 32 + l.opcode * 2 ^ 32 + l.state.code * 2 ^ 48 + (if l.pastCommit then 2 ^ 51 else 0) + 2 ^ 52), 0]) ∧
    (HostRuns s (.reset h) h 0x0806 1 → Answers (.reset h) s fun t =>
      Completed s t h 0x0806 0 [] ∧ t.cp.resetDue = s.cp.resetDue ∧ t.mem = s.mem) ∧
    (HostRuns s (.attest h nonce a bytes) h 0x0901 0 → Answers (.attest h nonce a bytes) s fun t =>
      Completed s t h 0x0901 0 [] ∧ hostRead t h.port a (attestReport nonce c).length = attestReport nonce c)

/-- COPY between sound DRAM and host memory (R280, R418): with the ranges apart, no faulting sector at the source and no dead sub-channel
at the destination, every byte of the destination reads as its source did, every other byte of device memory stays, and the
command completes with ST_OK and no fault counted. -/
def Obligations.CopyMovesEveryByte : Prop :=
  ∀ (s : State) (h : CmdHdr) (src dst len : Nat),
    let host := fun (u : State) (a : Nat) => tget 0 (if h.port = 0 then u.env.hostA else u.env.hostB) a
    let sound := fun (a : Nat) => ∀ i, i < len → readFaults s (a + i) = false
    let alive := fun (a : Nat) => ∀ i, i < len → deadSub s (a + i) = false
    s.mem.heldWrites = [] → s.mem.copies = [] → s.env.hostPoison = [] → src % 32 = 0 → dst % 32 = 0 →
    (HostRuns s (.copy h src dst len 0) h 0x0501 0 → src + len ≤ 0x00EF00000000 → dst + len ≤ 0x00EF00000000 →
      (src + len ≤ dst ∨ dst + len ≤ src) → sound src → alive dst → Answers (.copy h src dst len 0) s fun t =>
        Completed s t h 0x0501 0 [0, 0] ∧ (∀ i, i < len → readByte t (dst + i) = readByte s (src + i)) ∧
        ∀ a, (a < dst ∨ dst + len ≤ a) → readByte t a = readByte s a) ∧
    (HostRuns s (.copy h src dst len 1) h 0x0501 0 → dst + len ≤ 0x00EF00000000 → alive dst →
      Answers (.copy h src dst len 1) s fun t =>
        Completed s t h 0x0501 0 [0, 0] ∧ (∀ i, i < len → readByte t (dst + i) = host s (src + i)) ∧
        ∀ a, (a < dst ∨ dst + len ≤ a) → readByte t a = readByte s a) ∧
    (HostRuns s (.copy h src dst len 2) h 0x0501 0 → src + len ≤ 0x00EF00000000 → sound src →
      Answers (.copy h src dst len 2) s fun t =>
        Completed s t h 0x0501 0 [0, 0] ∧ (∀ i, i < len → host t (dst + i) = readByte s (src + i)) ∧ t.mem.bytes = s.mem.bytes)

/-! ### Rings and the steward token -/

/-- The command ring: a write stores its bytes and accepts nothing until it covers the last byte of the next command's SEQ; a slot that
then bears SEQ = NEXT is one command, which runs as the command's own row does; an unknown opcode completes with ST_BAD_OPCODE, and
a flag or body byte the command does not use with ST_BAD_FIELD (R400 to R404, R408). -/
def Obligations.CommandSlotsSpellCommands : Prop :=
  ∀ (s : State) (port off : Nat) (b : List Byte), port < 2 → (getCp s port).linkUp = true →
    let n := (getCp s port).sqNext
    let seqEnd := 256 * (n % 1024) + 255
    let u := writeSlots port off b s
    let op := field b 0 2
    let fl := field b 2 1
    let h : CmdHdr := { port := port, fence := fl.testBit 0, noIrq := fl.testBit 1, vec := field b 3 1,
                        tag := BitVec.ofNat 32 (field b 4 4), step := BitVec.ofNat 32 (field b 8 4) }
    let got := parseBody h op (fl.testBit 2) (slice b 16 232)
    let noNext := fun (v : State) => field (slotBytes v port ((getCp v port).sqNext % 1024)) 248 8 ≠ (getCp v port).sqNext
    let whole := off = 256 * (n % 1024) ∧ b.length = 256 ∧ field b 248 8 = n ∧ canAccept s port = true
    let fresh := (∀ p ∈ (getCp s port).pend, p.handle ≠ nextHandle s port) ∧ (getCp s 0).fenced = [] ∧ (getCp s 1).fenced = []
    (∀ i, i < b.length → off + i < 0x40000 → (slotBytes u port ((off + i) / 256))[(off + i) % 256]? = b[i]?) ∧
    ((off + b.length ≤ seqEnd ∨ seqEnd < off) → exec (.commandSlotWrite port off b) s = .next u) ∧
    (∀ c used token, whole → got = some (c, used) → hostCmd c = some (h, op, token) → op ≠ 0x0301 → op ≠ 0x0504 → fl < 8 →
      (fl.testBit 2 = true → op = 0x0804) → allZero (slice b 12 4) = true → restZero (slice b 16 232) used = true →
      noNext (accept h op token c u) → exec (.commandSlotWrite port off b) s = exec c u) ∧
    (whole → fresh → noNext (enroll h op u) → (got = none ∨ ∃ x, got = some x ∧ isLong x.1 = false ∧ 8 ≤ fl) →
      Answers (.commandSlotWrite port off b) s fun t =>
        Completed u t h op (if got = none then 0x0010 else 0x0011) [] ∧ t.mem = s.mem ∧ t.fb = s.fb ∧ t.lk = s.lk)

/-- The completion ring (R410 to R412, Tables 13.3, 13.17, 13.21): with room, the oldest waiting completion is written at TAIL as its 64
bytes, or the oldest event where none waits, TAIL advances by one, and a record without NO_IRQ sends its MSI-X message or sets the
pending bit of a masked vector; without room nothing is written, and the up queue is still served. A HEAD outside TAIL − SIZE to TAIL is discarded; ENABLE's rise zeroes
HEAD and TAIL, and LOG2_SIZE changes only while ENABLE was 0. -/
def Obligations.CompletionRingHoldsRecords : Prop :=
  ∀ (s : State) (port : Nat) (v : W32), port < 2 → (getCp s port).linkUp = true →
    let c := getCp s port
    let a := c.cqBase.toNat / 64 * 64 + 64 * (c.cqTail.toNat % cqSize c)
    let masked := fun (k : Nat) => (tget 0x100000000 c.msixData k).getLsbD 32
    let written := fun (t : State) (r : Record) => hostRead t port a 64 = recordBytes r c.cqTail.toNat ∧
      (getCp t port).cqTail = c.cqTail + 1 ∧ t.mem = s.mem ∧
      t.env.msix = (if r.noIrq || masked r.vec then s.env.msix else s.env.msix ++ [(port, r.vec)]) ∧
      (getCp t port).pba = (if !r.noIrq && masked r.vec then c.pba ||| BitVec.ofNat 64 (2 ^ r.vec) else c.pba)
    let quiet := field (slotBytes s port (c.sqNext % 1024)) 248 8 ≠ c.sqNext ∧ (getCp s 0).fenced = [] ∧ (getCp s 1).fenced = []
    (∀ r rest, quiet → c.records = r :: rest → r.result.length = 4 → r.vec < 64 → cqRoom c = true →
      Answers (.completionRecordWrite port) s fun t => written t r ∧ (getCp t port).records = rest ∧
        (getCp t port).events = c.events) ∧
    (∀ r rest, quiet → c.records = [] → c.events = r :: rest → r.result.length = 4 → c.eventCfg.getLsbD 8 = true → cqRoom c = true →
      Answers (.completionRecordWrite port) s fun t =>
        written t { r with flags := 1 + (if c.lost then 2 else 0), vec := c.eventCfg.toNat % 64 } ∧
          (getCp t port).events = rest ∧ (getCp t port).lost = false) ∧
    (∀ m rest h st fl res, s.ws.up = m :: rest → m.payload = .completion h st fl res → (getCp s 0).fenced = [] →
      (getCp s 1).fenced = [] → Answers .completion s fun t => sentUp t = (sentUp s).drop 1) ∧
    ((cqRoom c = false ∨ (c.records = [] ∧ (c.events = [] ∨ c.eventCfg.getLsbD 8 = false))) →
      exec (.completionRecordWrite port) s = .next s) ∧
    exec (.cpCqHeadWrite port v) s =
      .next (if (c.cqTail - v).toNat ≤ cqSize c then setCp s port { c with cqHead := v } else s) ∧
    Answers (.cqEnable port v) s (fun t =>
      (getCp t port).cqEntries.getLsbD 31 = v.getLsbD 31 ∧
      (getCp t port).cqEntries.toNat % 32 = (if c.cqEntries.getLsbD 31 then c.cqEntries.toNat % 32 else v.toNat % 32) ∧
      (getCp t port).cqHead = (if v.getLsbD 31 && !c.cqEntries.getLsbD 31 then 0 else c.cqHead) ∧
      (getCp t port).cqTail = (if v.getLsbD 31 && !c.cqEntries.getLsbD 31 then 0 else c.cqTail) ∧
      (getCp t port).records = c.records ∧ (getCp t port).cqBase = c.cqBase)

/-- The steward token (R413 to R415, Table 13.4): STEWARD_CLAIM waits for the window; at its end a FREE token goes to port A if A
claims, else to B, with cause 1 and a fresh lease, and each claim completes with ST_OK for the holder and ST_STEWARD_HELD for another;
STEWARD_YIELD frees the token and completes; the holder's CP_STEWARD_KEEPALIVE renews the lease, another's is nothing; a lease that
has run out frees the token, with cause 5. -/
def Obligations.StewardTokenMoves : Prop :=
  ∀ (s : State) (h : CmdHdr) (port : Nat) (v : W32),
    let lease := s.cp.stewardCfg.toNat % 65536
    (HostRuns s (.stewardClaim h) h 0x0A01 0 → Answers (.stewardClaim h) s fun t =>
      Owed s t h 0x0A01 ∧ t.cp.claims = s.cp.claims ++ [(h.port, nextHandle s h.port)] ∧ t.cp.holder = s.cp.holder) ∧
    (HostRuns s (.stewardYield h) h 0x0A02 1 → Answers (.stewardYield h) s fun t =>
      Completed s t h 0x0A02 0 [] ∧ t.cp.holder = 0 ∧ t.cp.cause = 2) ∧
    ((getCp s 0).fenced = [] → (getCp s 1).fenced = [] → Answers .stewardWindow s fun t => t.cp.claims = [] ∧
      (s.cp.holder ≠ 0 ∨ s.cp.claims = [] → t.cp.holder = s.cp.holder ∧ t.cp.leaseLeft = s.cp.leaseLeft - 1) ∧
      (s.cp.holder = 0 → s.cp.claims ≠ [] → t.cp.cause = 1 ∧ t.cp.leaseLeft = lease ∧
        t.cp.holder = (if ∃ c ∈ s.cp.claims, c.1 = 0 then 1 else 2)) ∧
      ((∀ c ∈ s.cp.claims, c.1 < 2 ∧ portOfHandle c.2 = c.1 ∧
          ((getCp s c.1).pend.find? fun q => q.handle == c.2 && !q.done).isSome = true) → s.cp.claims.Nodup → ∀ p, p < 2 →
        (getCp t p).records.map (fun r => (r.handle, r.status)) = (getCp s p).records.map (fun r => (r.handle, r.status)) ++
          (s.cp.claims.filter fun c => c.1 == p).map fun c => (c.2, if t.cp.holder = p + 1 then 0 else 0x0013))) ∧
    (port < 2 → exec (.cpStewardKeepalive port v) s =
      .next (if (getCp s port).linkUp && s.cp.holder == port + 1 then { s with cp := { s.cp with leaseLeft := lease } } else s)) ∧
    (s.cp.holder ≠ 0 → lease ≠ 0 → s.cp.leaseLeft = 0 → Answers .stewardLeaseExpiry s fun t =>
      t.cp.holder = 0 ∧ t.cp.cause = 5 ∧ t.cp.claims = s.cp.claims) ∧
    (s.cp.holder = 0 ∨ lease = 0 ∨ s.cp.leaseLeft ≠ 0 → exec .stewardLeaseExpiry s = .next s)

/-! ### Security and debug -/

/-- Levels, transitions and their tokens (R492, R500 to R504): DEBUG_UNLOCK to the level in force or below needs no token; a BLANK
module raises its level without one; any other request answers the first check of R502 that its token fails, counted, with the nonce
void from the nonce check on, or waits for the button where Table 16.9 asks for presence, or takes effect. The button, the end of the
time for it and the end of the scrub carry the request on, and a draw makes a new nonce of a free value. -/
def Obligations.UnlocksFollowTheirTokens : Prop :=
  ∀ (s : State) (h : CmdHdr) (a n l : Nat) (tests : List SelfTest),
    let H := nextHandle s h.port
    let token := hostRead s h.port a (Nat.min n 5617)
    let same := fun (t : State) => t.sc.level = s.sc.level ∧ t.sc.lifecycle = s.sc.lifecycle ∧ t.sc.next = s.sc.next
    let granted := fun (t : State) (code : Nat) => t.sc.unlock = none ∧ t.sc.lifecycle = s.sc.lifecycle ∧
      (if code < 16 then t.sc.level = code ∧ t.sc.next = s.sc.next
       else t.sc.level = s.sc.level ∧ t.sc.next = transitionTo code ∧ t.sc.transitions = s.sc.transitions + 1)
    let asks := fun (i : Instr) (code : Nat) => HostRuns s i h 0x0902 1 → s.sc.level < code →
      ¬ (s.sc.lifecycle = 0 ∧ code < 16) → floorOf s = 0 → Answers i s fun t =>
        let c := tokenCause s code token
        let r := (requirement s.sc.lifecycle code).getD (0, false, false)
        (c ≠ 0 → Completed s t h 0x0902 0x0503 [BitVec.ofNat 64 c] ∧ same t ∧ t.sc.lastCause = c ∧
          t.sc.nonceValid = (s.sc.nonceValid && decide (c < 4)) ∧ tget 0 t.sc.counts 1 = tget 0 s.sc.counts 1 + 1) ∧
        (c = 0 → r.2.1 = true → Owed s t h 0x0902 ∧ same t ∧ t.sc.presenceWait = true ∧
          t.sc.unlock = some (H, code, r.1, token, r.2.2)) ∧
        (c = 0 → r.2.1 = false → r.2.2 = false → Completed s t h 0x0902 0 [] ∧ granted t code)
    asks (.debugUnlock h a n l) l ∧ asks (.lcProvision h a n) 0x10 ∧ asks (.lcDeploy h a n) 0x11 ∧ asks (.lcReturn h a n) 0x12 ∧
    (HostRuns s (.debugUnlock h a n l) h 0x0902 1 → l ≤ s.sc.level → Answers (.debugUnlock h a n l) s fun t =>
      Completed s t h 0x0902 0 [] ∧ t.sc.level = l ∧ t.sc.lifecycle = s.sc.lifecycle) ∧
    (HostRuns s (.debugUnlock h a n l) h 0x0902 1 → s.sc.lifecycle = 0 → s.sc.level < l → l < 16 → floorOf s = 0 →
      Answers (.debugUnlock h a n l) s fun t => Completed s t h 0x0902 0 [] ∧ t.sc.level = l) ∧
    (∀ u code auth tok scrub, s.sc.unlock = some (u, code, auth, tok, scrub) →
      (s.sc.presenceWait = true → Answers .serviceButton s fun t => t.sc.presenceWait = false ∧
        (scrub = true → t.sc.scrubbing = true ∧ t.sc.level = s.sc.level) ∧ (scrub = false → granted t code)) ∧
      (s.sc.presenceWait = true → Answers .presenceTimeout s fun t =>
        same t ∧ t.sc.unlock = none ∧ t.sc.presenceWait = false ∧ t.sc.lastCause = 8 ∧ t.sc.nonceValid = false) ∧
      (s.sc.scrubbing = true → workLive s = false → Answers (.unlockScrubDone tests) s fun t =>
        granted t code ∧ t.sc.scrubbing = false ∧ t.mem.bytes = [] ∧ t.mem.poison = [] ∧ t.cells = [] ∧ t.fb.regions = [])) ∧
    (s.sc.presenceWait = false → exec .serviceButton s = .next s ∧ exec .presenceTimeout s = .next s) ∧
    (s.sc.scrubbing = false → exec (.unlockScrubDone tests) s = .next s) ∧
    (∀ p, p < 2 → exec (.nonceDraw p) s = .next (if s.cp.holder = p + 1 ∧ s.pw.state ≠ .p4 then
      { s with freeCtr := s.freeCtr + 1,
               sc := { s.sc with nonceValid := true, nonce := BitVec.ofNat 256 (Config.freeNat s.freeCtr) } } else s))

/-- Writes of DB_CTRL (R496 to R498, R506, Tables 16.13, 16.19): HALT, RELEASE, MCU_HALT and MCU_STEP act only from the steward's port at
DBG_INVASIVE; any other write is discarded and counted, with its cause in ERROR; an order is refused while the controller is
halted, and one with memory while the snapshots do not fit. HALT and RELEASE post their interlock order for the dies named; the
controller's program counter after a halt or a step is free. -/
def Obligations.DebugControlNeedsItsLevel : Prop :=
  ∀ (s : State) (port : Nat) (v : W32), port < 2 → s.pw.state ≠ .p4 → s.db.ctrl &&& 0x20500 = 0 →
    let off := fun (t : State) (cause : Nat) => t.db = { s.db with error := cause } ∧
      tget 0 t.sc.counts 5 = tget 0 s.sc.counts 5 + 1 ∧ t.ws = s.ws ∧ t.mem = s.mem
    let guarded := fun (i : Instr) (bit : Nat) =>
      (v.getLsbD bit = false → exec i s = .next s) ∧
      (v.getLsbD bit = true → s.cp.holder ≠ port + 1 → Answers i s fun t => off t 4) ∧
      (v.getLsbD bit = true → s.cp.holder = port + 1 → s.sc.level = 0 → Answers i s fun t => off t 1)
    let may := s.cp.holder = port + 1 ∧ s.sc.level = 2
    let orders := fun (i : Instr) (bit kind : Nat) =>
      (v.getLsbD bit = true → s.cp.holder = port + 1 → s.sc.level = 1 → Answers i s fun t => off t 1) ∧
      (may → v.getLsbD bit = true → s.db.mcuHalted = true → Answers i s fun t => off t 2) ∧
      (may → v.getLsbD bit = true → v.getLsbD (bit + 1) = true → s.db.mcuHalted = false → retainedBase < s.db.snapBase.toNat + 150 * 2 ^ 20 →
        Answers i s fun t => off t 3) ∧
      (may → v.getLsbD bit = true → v.getLsbD (18 - bit) = false → v.getLsbD 16 = false → s.db.mcuHalted = false → planeUp s = true →
        (v.getLsbD (bit + 1) = true → s.db.snapBase.toNat + 150 * 2 ^ 20 ≤ retainedBase) → Answers i s fun t =>
          t.db.ctrl = v &&& dbRwMask ∧ t.db.mcuHalted = false ∧ t.mem = s.mem ∧
          sentInter t = sentInter s ++ [(kind, .halt (v.setWidth 8) (v.getLsbD (bit + 1)) true s.db.snapBase.toNat)])
    guarded (.debugHalt port v) 8 ∧ guarded (.debugRelease port v) 10 ∧ guarded (.mcuHalt port v) 16 ∧ guarded (.mcuStep port v) 17 ∧
    orders (.debugHalt port v) 8 0x22 ∧ orders (.debugRelease port v) 10 0x23 ∧
    (may → v.getLsbD 8 = false → v.getLsbD 10 = false → v.getLsbD 16 = true → s.db.mcuHalted = false →
      Answers (.mcuHalt port v) s fun t => t.db.mcuHalted = true ∧ t.db.ctrl = v &&& dbRwMask ∧
        t.db.mcuPc = BitVec.ofNat 32 (Config.freeNat s.freeCtr) ∧ t.ws = s.ws ∧ t.mem = s.mem) ∧
    (may → v.getLsbD 8 = false → v.getLsbD 10 = false → v.getLsbD 16 = true → v.getLsbD 17 = true → s.db.mcuHalted = true →
      Answers (.mcuStep port v) s fun t => t.db.mcuHalted = true ∧ t.freeCtr = s.freeCtr + 1 ∧
        t.db.mcuPc = BitVec.ofNat 32 (Config.freeNat s.freeCtr) ∧ t.ws = s.ws ∧ t.mem = s.mem)

/-! ### Power states, resets and bring-up -/

/-- The power state follows the deeper of the commanded state and the port floor (R439 to R444, Tables 14.2, 14.3): SET_POWER_STATE
commands a state and completes when it is reached; a change of a port's D-state, PERST# held for its time, and its release move the
floor; a P3 that the floor forces ends all work; a low input starts the way to P4, and its return, or the release of a port's PERST#, is
a cold reset where that was the cause. POWER_TRANSITION_DONE reaches the target: P4 puts out links and ports, P3 waits until no port
emits and leaves memory in self-refresh, P2 narrows the ACTIVE ports to logical lane 0, and leaving it retrains their other lanes. -/
def Obligations.PowerStateIsTheDeeperOfCommandAndFloor : Prop :=
  ∀ (s : State) (h : CmdHdr) (n cap port d mv : Nat) (x : PowerState) (w : List Nat),
    let H := nextHandle s h.port
    let cp := fun (f : PortCp → PortCp) => modCp s port f
    let moves := fun (u t : State) => (s.pw.state ≠ .p4 → s.pw.target = none →
      (wantedState u ≠ s.pw.state → t.pw.target = some (wantedState u, [])) ∧
      (wantedState u = s.pw.state → t.pw.target = none ∧ t.fb.runs = s.fb.runs ∧ t.cp.longops = s.cp.longops) ∧
      (wantedState u = .p3 → s.pw.state ≠ .p3 → s.pw.commanded < 3 →
        t.fb.runs = [] ∧ t.fb.loads = [] ∧ t.cl.caravans = [] ∧ t.cp.longops = [])) ∧ t.pw.state = s.pw.state
    let runs := x = .p0 ∨ x = .p1 ∨ x = .p2
    (HostRuns s (.setPowerState h n cap) h 0x0903 1 → s.pw.state ≠ .p4 → s.pw.state ≠ .p3 → s.pw.target = none → floorOf s = 0 →
      Answers (.setPowerState h n cap) s fun t =>
        t.pw.commanded = n ∧ t.pw.p1Cap = (if n = 1 then cap else s.pw.p1Cap) ∧ t.pw.state = s.pw.state ∧
        (s.pw.state.code = n → Completed s t h 0x0903 0 [] ∧ t.pw.target = none) ∧
        (s.pw.state.code ≠ n → Owed s t h 0x0903 ∧ t.pw.target = some (PowerState.ofCode n, [H]))) ∧
    (port < 2 → (d = 0 ∨ d = 1 ∨ d = 3) → Answers (.dStateChange port d) s fun t =>
      (getCp t port).dState = d ∧ moves (cp fun c => { c with dState := d }) t) ∧
    (port < 2 → (getCp s port).perstLow = true → s.rst.bringup = none → s.rst.quiesce = false →
      Answers (.perstHoldTimeout port) s fun t => (getCp t port).d3cold = true ∧ moves (cp fun c => { c with d3cold := true }) t) ∧
    (port < 2 → (getCp s port).perstLow = false → exec (.perstHoldTimeout port) s = .next s) ∧
    (port < 2 → Answers (.perstRelease port) s fun t =>
      let u := cp fun c => { c with perstLow := false, d3cold := false, dState := 0 }
      (s.pw.state ≠ .p4 → (getCp t port).perstLow = false ∧ (getCp t port).dState = 0 ∧ moves u t) ∧
      (s.pw.state = .p4 → t = if s.pw.floorOff && !unconnected s port then coldReset u else u)) ∧
    Answers (.undervoltage mv) s (fun t => t.pw.inputOk = false ∧ t.pw.state = s.pw.state ∧
      (s.pw.state ≠ .p4 → ∃ y, t.pw.target = some (.p4, y)) ∧
      (s.pw.state ≠ .p4 → (∀ y, s.pw.target ≠ some (.p4, y)) → t.pw.undervolt = true)) ∧
    Answers .inputRestored s (fun t =>
      let u := { s with pw := { s.pw with inputOk := true } }
      t = if s.pw.state = .p4 ∧ s.pw.undervolt = true then coldReset u else u) ∧
    (s.pw.target = none → exec .powerTransitionDone s = .next s) ∧
    (s.pw.target = some (.p4, w) → Answers .powerTransitionDone s fun t => t.pw.state = .p4 ∧ t.pw.target = none ∧
      t.cp.accepting = false ∧ t.cp.a.linkUp = false ∧ t.cp.b.linkUp = false ∧ t.rst.dataPlaneOn = false ∧
      t.sc.level = 0 ∧ t.mem.ready = false ∧ ∀ p, p < 10 → (getPort t p).state = .dark) ∧
    (s.pw.target = some (.p3, w) → (∃ p, p < 10 ∧ (getPort s p).state.lit = true) → exec .powerTransitionDone s = .next s) ∧
    (s.pw.target = some (.p3, w) → (∀ p, p < 10 → (getPort s p).state.lit = false) → Answers .powerTransitionDone s fun t =>
      t.pw.state = .p3 ∧ t.pw.target = none ∧ t.mem.selfRefresh = true ∧ t.mem.ready = false ∧ t.rst.dataPlaneOn = false ∧
      t.sc.level = 0 ∧ t.fb.regions = []) ∧
    (runs → s.pw.target = some (x, w) → s.pw.state ≠ .p3 → TenPorts s → Answers .powerTransitionDone s fun t =>
      t.pw.state = x ∧ t.pw.target = none ∧ t.mem = s.mem ∧ t.fb = s.fb ∧
      (x = .p2 → ∀ p, p < 10 → (getPort t p).narrow = ((getPort s p).narrow || (getPort s p).state == .active) ∧
        ((getPort s p).state = .active → (getPort s p).narrow = false → ∀ l ∈ (getPort t p).lanes, l.role < 16 → l.role = 0)) ∧
      (s.pw.state = .p2 → x ≠ .p2 → ∀ p, p < 10 → (getPort t p).narrow = false ∧
        ((getPort s p).narrow = true → (getPort t p).relight = 5))) ∧
    (runs → s.pw.target = some (x, w) → s.pw.state = .p3 → s.rst.bringup = none → s.rst.dataPlaneOn = true → s.sc.lifecycle ≠ 0 →
      Answers .powerTransitionDone s fun t => t.pw.state = x ∧ t.pw.target = none ∧ t.rst.fromP3 = false)

/-- The resets (R399, R437, R475, R524 to R527, R532, R533, R535, Tables 18.1, 18.2): what each of them leaves. A cold reset leaves the
module at its reset values but for the black box, the fuses and flash, the safety monitor's record and the surroundings; a trip is
followed by one, counted where it is automatic. A warm reset keeps memory, drops both ports' queues and quiesces before bring-up
step 3; one under way takes no second. An interlock order is resent up to eight times, and then causes a fabric reset. A port reset
returns the port's banked registers and queues and frees the token it held; the port is then in D0, and where that changes no power
state the shared state and the other port stay. -/
def Obligations.ResetsLeaveTheirState : Prop :=
  ∀ (s : State) (cause port seq : Nat) (kind : PortResetKind) (m : Msg) (n : Nat),
    let cold := fun (u t : State) => t.cells = [] ∧ t.cores = [] ∧ t.mem = Mem.reset ∧ t.lk = Lk.reset ∧ t.cl = Cl.reset ∧
      t.ue = Ue.reset ∧ t.tw = Tw.reset ∧ t.ws = Ws.reset ∧ t.db = Db.reset ∧ t.rst.bringup = some (.cold, 1) ∧
      t.pw.state = .p0 ∧ t.sc.level = 0 ∧ t.sc.lifecycle = u.sc.next ∧ t.sc.rollback = u.sc.rollback ∧
      t.sc.slotA = u.sc.slotA ∧ t.sc.slotB = u.sc.slotB ∧ t.sc.fuse = u.sc.fuse ∧ t.bb.slots = u.bb.slots ∧
      t.bb.committed = u.bb.committed ∧ t.sf.tripCause = u.sf.tripCause ∧ t.sf.counts = u.sf.counts ∧
      t.sf.autoRestarts = u.sf.autoRestarts ∧ t.mg.serial = u.mg.serial ∧ t.env = u.env ∧ t.cp.longops = [] ∧ t.fb.regions = []
    let inCold := ∃ k, s.rst.bringup = some (.cold, k)
    let due := cause < 2 ∨ (cause = 2 ∧ s.cp.resetDue = true)
    let fabric := fun (t : State) => t.rst.bringup = some (.fabric, 6) ∧ t.fb.regions = [] ∧ t.cells = [] ∧ t.ws.inter = [] ∧
      t.rst.dataPlaneOn = false ∧ (s.mem.scrubbed = none → t.mem.bytes = s.mem.bytes)
    let mayFabric := s.rst.bringup = none ∧ s.rst.quiesce = false ∧ s.rst.dataPlaneOn = true
    (inCold → exec .coldReset s = .next s) ∧ (¬ inCold → Answers .coldReset s (cold s)) ∧
    (s.pw.state = .p4 → (s.sf.tripped = true ∨ s.rst.supplyFail = true) → Answers .tripRestart s
      (cold (if restartAuto s then { s with sf := { s.sf with autoRestarts := s.sf.autoRestarts + 1 } } else s))) ∧
    ((s.pw.state ≠ .p4 ∨ (s.sf.tripped = false ∧ s.rst.supplyFail = false)) → exec .tripRestart s = .next s) ∧
    (due → warmMerges s = false → s.pw.state ≠ .p4 → Answers (.warmReset cause) s fun t =>
      t.rst.bringup = some (.warm, 3) ∧ t.rst.quiesce = true ∧ t.rst.warmCause = cause ∧ t.rst.dataPlaneOn = false ∧
      t.pw.state = .p0 ∧ t.pw.target = none ∧
      (s.mem.scrubbed = none → t.mem.bytes = s.mem.bytes ∧ t.mem.poison = s.mem.poison) ∧ t.mem.selfRefresh = true ∧
      t.cp.longops = [] ∧ t.cp.a.pend = [] ∧ t.cp.b.pend = [] ∧ t.cp.a.sqNext = 0 ∧ t.cp.b.sqNext = 0 ∧ t.cp.holder = 0 ∧
      t.cp.accepting = false ∧ t.cells = [] ∧ t.fb.regions = [] ∧ t.sc.level = 0 ∧ t.sc.unlock = none ∧
      (cause < 2 → (getCp t cause).perstLow = true)) ∧
    (warmMerges s = true → Answers (.warmReset cause) s fun t =>
      t = if cause < 2 then modCp s cause (fun c => { c with perstLow := true }) else s) ∧
    (2 < cause → exec (.warmReset cause) s = .next s) ∧
    exec .quiesceEnd s = .next { s with rst := { s.rst with quiesce := false } } ∧
    ((∃ e ∈ s.ws.unacked, 8 ≤ e.2) → mayFabric → Answers .fabricReset s fabric) ∧
    (((∀ e ∈ s.ws.unacked, e.2 < 8) ∨ ¬ mayFabric) → exec .fabricReset s = .next s) ∧
    (s.ws.unacked.find? (fun e => e.1.seq == seq) = some (m, n) → mcRuns s = true → planeUp s = true →
      (n < 8 → s.ws.inter.length < 32 → Answers (.interlockOrderRepeat seq) s fun t =>
        let again : Msg := { kind := m.kind, source := 0x40, coalesced := 0, seq := nextSeq s 3, payload := m.payload }
        t.ws.inter = s.ws.inter ++ [again] ∧ (m.kind ≠ 0x26 → (again, n + 1) ∈ t.ws.unacked) ∧
        t.ws.unacked.length ≤ s.ws.unacked.length) ∧
      (n < 8 → 32 ≤ s.ws.inter.length → exec (.interlockOrderRepeat seq) s = .next s) ∧
      (8 ≤ n → mayFabric → Answers (.interlockOrderRepeat seq) s fabric)) ∧
    (port < 2 → (s.rst.bringup = none ∨ ∃ k, s.rst.bringup = some (.fabric, k)) → s.rst.quiesce = false → s.pw.state ≠ .p4 →
      Answers (.portReset port kind) s fun t =>
      (getCp t port).pend = [] ∧ (getCp t port).records = [] ∧ (getCp t port).sqNext = 0 ∧ (getCp t port).cqBase = 0 ∧
      (getCp t port).linkUp = ((getCp s port).linkUp && kind == .flr) ∧
      (s.cp.holder = port + 1 → t.cp.holder = 0 ∧ t.cp.cause = (if kind = .linkDown then 3 else 4)) ∧
      (s.cp.holder ≠ port + 1 → t.cp.holder = s.cp.holder) ∧
      (s.pw.target = none → wantedState (modCp s port fun c => { c with dState := 0 }) = s.pw.state →
        t.cp.longops = s.cp.longops ∧ t.fb = s.fb ∧ t.mem = s.mem ∧
          (s.cp.holder ≠ port + 1 → getCp t (1 - port) = getCp s (1 - port))))

/-- Bring-up (R488, R528 to R531, R543, Table 18.3): a step that passes leads to the next step of its kind of reset; during the quiesce, in
P4 and while MATE# is high before step 3 none is taken; a step 1 that fails is a trip with cause 7, and supplies that fail step 3
leave P4. Memory is zero after step 4 of a cold one, data lasers are permitted from step 6, links that train are up from step 7 on,
and commands are accepted from step 9 on. -/
def Obligations.BringupStepsInOrder : Prop :=
  ∀ (s : State) (k : ResetKind) (n port : Nat) (o : BringupObs) (high : Bool),
    (s.rst.bringup = some (k, n) → s.rst.quiesce = false → s.pw.state ≠ .p4 →
      (2 ≤ n → n ≤ 8 → (n = 3 → o.ok = true ∧ s.rst.mateHigh = false) → Answers (.bringupStep o) s fun t =>
        t.rst.lastStep = n ∧ t.rst.bringup = some (k, nextStep k t.rst.fromP3 t.rst.recovery n) ∧
        (n = 4 → t.mem.ready = true ∧ (k = .cold → t.mem.bytes = [] ∧ t.mem.gen = 1)) ∧
        (n = 6 → t.rst.lasersPermitted = true) ∧
        (n = 7 → ∀ p, p < 2 → (getCp t p).linkUp = (!o.failed.contains p && !(getCp s p).perstLow)) ∧
        (n = 8 → t.ws.startHeld = true)) ∧
      (n = 1 → o.ok = true → s.sf.failed = false → Answers (.bringupStep o) s fun t =>
        t.sf.selftestOk = true ∧ t.sf.fuseClosed = true ∧ 30400 ≤ t.sf.smclkKhz ∧ t.sf.smclkKhz ≤ 33600 ∧
        t.rst.bringup = some (k, nextStep k s.rst.fromP3 s.rst.recovery 1)) ∧
      (n = 1 → o.ok = false → Answers (.bringupStep o) s fun t => t.pw.state = .p4 ∧ t.sf.tripCause = 7 ∧ t.sf.tripped = true) ∧
      (n = 3 → s.rst.mateHigh = true → exec (.bringupStep o) s = .next s) ∧
      (n = 3 → s.rst.mateHigh = false → o.ok = false → Answers (.bringupStep o) s fun t =>
        t.pw.state = .p4 ∧ t.rst.supplyFail = true ∧ t.rst.lastStep = 3) ∧
      (n = 9 → Answers (.bringupStep o) s fun t => t.rst.bringup = none ∧ t.rst.lastStep = 9 ∧ t.cp.accepting = true ∧
        t.rst.dataPlaneOn = !s.rst.recovery)) ∧
    ((s.rst.bringup = none ∨ s.rst.quiesce = true ∨ s.pw.state = .p4) → exec (.bringupStep o) s = .next s) ∧
    Answers .fwBootTimeout s (fun t => t.rst = s.rst ∧ t.sc.bootFlags =
      (match s.rst.bringup, bootSlot s [] with
       | some (.cold, 2), some x => s.sc.bootFlags ||| BitVec.ofNat 32 (2 ^ (2 + x))
       | _, _ => s.sc.bootFlags)) ∧
    (port < 2 → (s.rst.bringup = none ∨ ∃ r m, s.rst.bringup = some (r, m) ∧ 7 < m) → (getCp s port).perstLow = false →
      s.pw.state ≠ .p4 → s.rst.quiesce = false →
      exec (.pcieLinkUp port) s = .next (modCp s port fun c => { c with linkUp := true })) ∧
    (port < 2 → (getCp s port).perstLow = true → exec (.pcieLinkUp port) s = .next s) ∧
    exec (.mateChange high) s = .next { s with rst := { s.rst with mateHigh := high } }

/-! ### Management and safety -/

/-- The management controller's period and the clocks' events (R446 to R458, Tables 14.4, 14.6): a period takes the readings, moves the
power loop's cap by the loop's step, imposes 1,200 MHz on a die at 105 °C, takes the coolant condition, leaves every die's FCLK on
the 25 MHz grid within 1,200 to 2,700 MHz and its cap, counts itself and toggles the heartbeat; a power sample beyond the
limits orders 1,200 MHz; a PLL that fails is replaced by its spare, and a die that has lost a pair is halted; a droop stretches its
core's clock; a lost lockstep restarts the controller. -/
def Obligations.PeriodsAndClockEventsControlPower : Prop :=
  ∀ (s : State) (r : Readings) (core mv ma mw i : Nat) (lost : Bool),
    let limit := if s.pw.coolant then 1500 else s.pw.limitW
    let cap := fun (u : State) (d k : Nat) => tget 0 u.pw.caps (8 * d + k)
    let loop := fun (u : State) (d : Nat) => if cap u d 1 = 0 then 2700 else cap u d 1
    let up := fun (c : Nat) => Nat.min 2700 (Nat.max 1200 c)
    let orders := fun (t : State) (l : List (Nat × Payload)) => sentInter t = sentInter s ++ l
    let pll := fun (u : State) => tget 0 u.pw.pll i
    let above := 2400000 < mw ∨ (limit * 1000 < mw ∧ 99 ≤ s.pw.overSamples)
    (periodRuns s = false → exec (.managementPeriod r) s = .next s) ∧
    (periodRuns s = true → s.pw.refLost = false → Answers (.managementPeriod r) s fun t =>
      t.pw.meanW = r.meanW % 65536 ∧ t.pw.peakW = r.peakW % 65536 ∧ t.sf.heartbeatOk = true ∧ t.pw.state = s.pw.state ∧
      tget 0 t.pw.counts 0 = tget 0 s.pw.counts 0 + 1 ∧ (∀ k, k < 220 → tget 0 t.pw.sensors k = lget 0 r.sensors k) ∧
      (720 < lget 0 r.sensors 212 ∨ lget 0 r.sensors 214 < 6000 → t.pw.coolant = true) ∧
      ∀ d, d < 8 →
        loop t d = (if limit < r.meanW then up (loop s d - Nat.max 25 (2 * (r.meanW - limit) / 25 * 25))
                    else if r.meanW + 100 < limit then up (loop s d + 25) else up (loop s d)) ∧
        ((∃ j, j < 16 ∧ 1680 ≤ lget 0 r.sensors (16 * d + j)) → cap t d 3 = 1200) ∧
        (s.pw.state = .p0 ∨ s.pw.state = .p1 → tget 0 t.pw.freq d % 25 = 0 ∧ 1200 ≤ tget 0 t.pw.freq d ∧
          tget 0 t.pw.freq d ≤ Nat.max 1200 (capOf t d).1)) ∧
    (mw ≤ 2400000 → mw ≤ limit * 1000 → exec (.powerSample mv ma mw) s = .next { s with pw := { s.pw with overSamples := 0 } }) ∧
    (mw ≤ 2400000 → limit * 1000 < mw → s.pw.overSamples < 99 →
      exec (.powerSample mv ma mw) s = .next { s with pw := { s.pw with overSamples := s.pw.overSamples + 1 } }) ∧
    (above → (∃ d, d < 8 ∧ cap s d 6 ≠ 1200) → Answers (.powerSample mv ma mw) s fun t =>
      t.pw.excursion = true ∧ (∀ d, d < 8 → cap t d 6 = 1200) ∧ tget 0 t.pw.counts 5 = tget 0 s.pw.counts 5 + 1 ∧
      (planeUp s = true → orders t [(0x21, .throttle 255 1200)])) ∧
    exec (.lockMonitorWindow [] lost) s = .next (if lost then { s with pw := { s.pw with refLost := true } } else s) ∧
    (i < 37 → (pll s).getLsbD 1 = false → (pll s).getLsbD 2 = false → Answers (.lockMonitorWindow [(i, false)] false) s fun t =>
      (pll t).getLsbD 0 = true ∧ (pll t).getLsbD 1 = true ∧ (pll t).getLsbD 2 = false ∧
      tget 0 t.pw.counts 3 = tget 0 s.pw.counts 3 + 1 ∧ t.ws = s.ws ∧ t.lk = s.lk) ∧
    (i < 24 → (pll s).getLsbD 1 = false → (pll s).getLsbD 2 = true → planeUp s = true →
      Answers (.lockMonitorWindow [(i, false)] false) s fun t =>
        (pll t).getLsbD 1 = true ∧ (pll t).getLsbD 3 = false ∧ orders t [(0x22, .halt (BitVec.ofNat 8 (2 ^ (i % 8))) false false 0)]) ∧
    (core < Config.numCores → (getCore s core).stretched = false → Answers (.droop core) s fun t =>
      getCore t core = { getCore s core with stretched := true } ∧ (∀ k, k ≠ core → getCore t k = getCore s k) ∧
      tget 0 t.pw.stretches (core / 600) = tget 0 s.pw.stretches (core / 600) + 1 ∧
      tget 0 t.pw.counts 4 = tget 0 s.pw.counts 4 + 1) ∧
    (core < Config.numCores → Answers (.droopRecovery core) s fun t =>
      getCore t core = { getCore s core with stretched := false } ∧ (∀ k, k ≠ core → getCore t k = getCore s k) ∧ t.pw = s.pw) ∧
    Answers .recalTimeout s (fun t => t.ws = s.ws ∧ t.pw.guard = s.pw.guard ∧
      tget 0 t.pw.counts 7 = tget 0 s.pw.counts 7 + (if s.pw.recal then 1 else 0)) ∧
    (s.pw.state ≠ .p4 → exec .lockstepMismatch s = .next { s with pw := { s.pw with mcRestarting := true } }) ∧
    (s.pw.mcRestarting = true → ((tget 0 s.pw.pll 36).getLsbD 1 = false ∨ (tget 0 s.pw.pll 36).getLsbD 2 = false) →
      Answers .mcRestartDone s fun t => t.pw.mcRestarting = false ∧ t.db.mcuHalted = false ∧
        tget 0 t.pw.counts 2 = tget 0 s.pw.counts 2 + 1) ∧
    (s.pw.mcRestarting = false → exec .mcRestartDone s = .next s)

/-- The safety monitor (R468 to R478, Tables 15.3, 15.4, 15.12): a lost heartbeat shuts every port until it returns, and a port held for
another cause stays held; more than 9.0 mW on a fibre shuts its port; a trip halts the dies, shuts every port, stores its cause and
drives SAFE_LOOP, and power goes after it; an opened fuse is a trip; a failed monitor shuts everything and the module goes to P4; the
safety loop's events and a stuck loop show in LOW. -/
def Obligations.SafetyMonitorShutsPorts : Prop :=
  ∀ (s : State) (p fibre uw cause value die : Nat), TenPorts s →
    let held := fun (t : State) (q k : Nat) => smHolds t q k = true ∧ t.ws.portSm.getLsbD q = true ∧ (getPort t q).state.lit = false
    let tripped := fun (t : State) (c v : Nat) => t.ws.haltSm = true ∧ t.sf.tripCause = c ∧ t.sf.tripValue = v ∧
      t.sf.tripped = true ∧ t.sf.loopDriving = true ∧ t.sf.loopLow = true ∧ t.pw.state = s.pw.state ∧ t.mem = s.mem ∧
      ∀ q, q < 10 → held t q 4
    (s.pw.state ≠ .p4 → (∃ q, q < 10 ∧ smHolds s q 3 = false) → Answers .heartbeatLost s fun t =>
      t.sf.heartbeatOk = false ∧ ∀ q, q < 10 → held t q 3 ∧ (getPort t q).lamp = .off) ∧
    ((∀ q, q < 10 → smHolds s q 3 = true) → exec .heartbeatLost s = .next s) ∧
    (s.pw.state ≠ .p4 → s.sf.failed = false → Answers .heartbeatRestored s fun t => t.sf.heartbeatOk = true ∧ ∀ q, q < 10 →
      smHolds t q 3 = false ∧ t.ws.portSm.getLsbD q =
        (s.ws.portSm.getLsbD q && !(smHolds s q 3 && (List.range 8).all fun k => k == 3 || !smHolds s q k))) ∧
    (s.pw.state = .p4 ∨ s.sf.failed = true → exec .heartbeatRestored s = .next s) ∧
    (p < 10 → fibre < 5 → Answers (.fibrePowerHold p fibre uw) s fun t =>
      tget 0 t.sf.fibreMax p = Nat.min 65535 (Nat.max uw (tget 0 s.sf.fibreMax p)) ∧ OnlyPort p s t ∧
      (uw ≤ 9000 → t.lk = s.lk ∧ t.ws = s.ws) ∧
      (9000 < uw → held t p 2 ∧ tget false t.sf.fibreHigh (8 * p + fibre) = true)) ∧
    (1 ≤ cause → cause ≤ 4 → s.pw.state ≠ .p4 → s.ws.haltSm = false →
      Answers (.safetyTrip cause value die) s fun t => tripped t cause (value % 65536)) ∧
    (cause = 0 ∨ 4 < cause ∨ s.pw.state = .p4 ∨ s.ws.haltSm = true → exec (.safetyTrip cause value die) s = .next s) ∧
    (s.sf.tripped = true → s.ws.haltSm = true → s.pw.state ≠ .p4 → Answers .tripPowerOff s fun t =>
      t.pw.state = .p4 ∧ t.sf.tripCause = s.sf.tripCause ∧ t.rst.dataPlaneOn = false) ∧
    (s.sf.tripped = false ∨ s.ws.haltSm = false ∨ s.pw.state = .p4 → exec .tripPowerOff s = .next s) ∧
    ((cause = 5 ∨ cause = 6) → s.sf.fuseClosed = true → Answers (.fuseOpen cause value) s fun t => t.sf.fuseClosed = false ∧
      (s.pw.state ≠ .p4 → s.ws.haltSm = false → tripped t cause (value % 65536))) ∧
    (s.sf.fuseClosed = false → exec (.fuseOpen cause value) s = .next s) ∧
    Answers .safetyMonitorFail s (fun t => t.sf.failed = true ∧ t.ws.haltSm = true ∧ t.ws.portSm = 0x3FF ∧
      (∀ q, q < 10 → (getPort t q).state.lit = false) ∧ (s.pw.state ≠ .p4 → ∃ y, t.pw.target = some (.p4, y))) ∧
    exec .safeLoopDriveEnd s =
      .next (if s.sf.loopDriving then { s with sf := { s.sf with loopDriving := false, loopLow := false } } else s) ∧
    (s.sf.loopDriving = false → s.sf.loopStuck = false → Answers .loopEvent s fun t =>
      t.sf.loopLow = true ∧ t.sf.loopEvents = Nat.min 65535 (s.sf.loopEvents + 1) ∧ t.ws = s.ws ∧ t.lk = s.lk) ∧
    (s.sf.loopDriving = true ∨ s.sf.loopStuck = true → exec .loopEvent s = .next s) ∧
    exec .loopStuck s = .next { s with sf := { s.sf with loopStuck := true, loopLow := true } } ∧
    exec .loopStuckEnd s =
      .next (if s.sf.loopStuck then { s with sf := { s.sf with loopStuck := false, loopLow := false } } else s)

/-- Interlock orders (R24, R26, R29 to R36, Table 4.8): an order is posted behind those before it, and nothing else changes; a full queue keeps its
sender waiting; where it arrives, THROTTLE sets the cap of its dies and lowers a faster clock at once, HALT and HALT_RELEASE raise and clear the management
copy of the halt line (a debug release only of the dies that debug halted), PORT_SHUTDOWN and PORT_RESTORE that of the ports' lines;
its acknowledgement is posted, and ends the wait for it where it is taken. Without a powered data side nothing happens. -/
def Obligations.InterlockOrdersActAndAreAcknowledged : Prop :=
  ∀ (s : State) (dies mhz base : Nat) (m : BitVec 8) (f dbg : Bool) (ports : BitVec 10), TenPorts s → planeUp s = true →
    let post := fun (kind : Nat) (p : Payload) (t : State) =>
      sentInter t = sentInter s ++ [(kind, p)] ∧
      (s.ws.inter.length < 32 → s.ws.waitInter = [] → t.ws.inter = s.ws.inter ++
        [{ kind := kind, source := 0x40, coalesced := 0, seq := nextSeq s 3, payload := p }]) ∧
      (32 ≤ s.ws.inter.length → t.ws.inter = s.ws.inter ∧ t.ws.unacked = s.ws.unacked) ∧
      t.ws.haltMc = s.ws.haltMc ∧ t.ws.portMc = s.ws.portMc ∧ t.pw = s.pw ∧ t.lk = s.lk ∧ t.mem = s.mem
    let row := fun (i : Instr) (kind : Nat) (p : Payload) (does : State → Prop) =>
      (∀ x rest, s.ws.inter = x :: rest → (x.kind, x.payload) ≠ (kind, p) → Answers i s (post kind p)) ∧
      (s.ws.inter = [] → s.ws.waitInter = [] → Answers i s fun t => does t ∧ sentInter t = [] ∧
        sentTele t = sentTele s ++ [(0x15, .orderAck (nextSeq s 3) kind)]) ∧
      (∀ x rest, s.ws.inter = x :: rest → x.kind = kind → x.payload = p → Answers i s fun t => does t ∧
        sentInter t = (sentInter s).drop 1 ∧ sentTele t = sentTele s ++ [(0x15, .orderAck x.seq kind)])
    row (.throttle dies mhz) 0x21 (.throttle (dies % 256) mhz) (fun t => ∀ d, d < 8 →
      tget 0 t.pw.ordered d = (if dies.testBit d then (if mhz < 2700 then mhz else 0) else tget 0 s.pw.ordered d) ∧
      tget 0 t.pw.freq d = (if dies.testBit d then Nat.min (tget 0 s.pw.freq d) (Nat.max 1200 (mhz / 25 * 25)) else tget 0 s.pw.freq d)) ∧
    row (.halt m f dbg base) 0x22 (.halt m f dbg base) (fun t =>
      t.ws.haltMc = s.ws.haltMc ||| m ∧ t.ws.haltSm = s.ws.haltSm ∧ (f = false → t.mem = s.mem) ∧
      t.ws.haltDebug = (if dbg then s.ws.haltDebug ||| (m &&& ~~~s.ws.haltMc) else s.ws.haltDebug &&& ~~~m)) ∧
    row (.haltRelease m f dbg base) 0x23 (.halt m f dbg base) (fun t => t.mem.bytes = s.mem.bytes ∧
      t.ws.haltMc = (if dbg then s.ws.haltMc &&& ~~~(m &&& s.ws.haltDebug) else s.ws.haltMc &&& ~~~(m &&& s.ws.haltMc)) ∧
      (f = false → t.cells = s.cells ∧ t.cores = s.cores ∧ t.mem = s.mem)) ∧
    row (.portShutdown ports) 0x24 (.ports ports) (fun t => t.ws.portMc = s.ws.portMc ||| ports ∧ t.ws.portSm = s.ws.portSm ∧
      ∀ p, p < 10 → ports.getLsbD p = true → (getPort t p).state.lit = false) ∧
    row (.portRestore ports) 0x25 (.ports ports) (fun t => t.ws.portMc = s.ws.portMc &&& ~~~ports ∧ t.ws.portSm = s.ws.portSm ∧
      ∀ p, p < 10 → ports.getLsbD p = true → s.ws.portMc.getLsbD p = true → (getPort s p).state = .hold →
        (getPort t p).state = (if s.ws.portSm.getLsbD p || (getPort s p).touched then .hold else .ramp)) ∧
    (∀ x rest q k, s.ws.tele = x :: rest → x.kind = 0x15 → x.payload = .orderAck q k → mcRuns s = true →
      Answers .orderAck s fun t => sentTele t = (sentTele s).drop 1 ∧ t.ws.unacked = s.ws.unacked.filter (fun e => e.1.seq != q))

/-! ### Messages and registers -/

/-- The command waystation (R24, R26, R33, R218, R229, R236, R421, R427): PHASE_START, CFG_LOAD and CTX_SWITCH at the head of the down
queue wait for every die of theirs, each die takes them in order while it is not halted, and CTX_SWITCH's last die answers it;
COMPLETION and NACK at the head of the up queue end their commands, a NACK with ST_WAYSTATION_LOST; a message that a receiver loses
is reported, a down one by a NACK; a stack sends its two telemetry messages. -/
def Obligations.WaystationMessagesArriveInOrder : Prop :=
  ∀ (s : State) (die stack ws cause : Nat) (m : Msg) (rest : List Msg) (p : Payload),
    let msgs := fun (l : List Msg) => l.map fun x => (x.kind, x.payload)
    let clear := s.ws.ni = [] ∧ s.ws.down = m :: rest ∧ m.payload = p
    let noReport := ∀ x l, s.ws.tele = x :: l → ∀ w c a b, x.payload ≠ .fault w c a b
    let report := fun (w seq : Nat) => (0x17, Payload.fault w cause seq (if cause = 1 then (seq + 1) % 2 ^ 32 else 0))
    let upHead := s.ws.up = m :: rest ∧ m.payload = p ∧ (getCp s 0).fenced = [] ∧ (getCp s 1).fenced = []
    let bit := fun (d : Nat) => BitVec.ofNat 8 (2 ^ d)
    let left := msgDies s p &&& ~~~bit die
    let ended := fun (t : State) (h st : Nat) (res : List W64) => ∀ x,
      (getCp s (portOfHandle h)).pend.find? (fun q => q.handle == h && !q.done) = some x → longOpOf s h = none →
      (getCp t (portOfHandle h)).records.map (fun r => (r.seq, r.handle, r.status, r.result)) =
        (getCp s (portOfHandle h)).records.map (fun r => (r.seq, r.handle, r.status, r.result)) ++
          [(x.seq, h, st, (res ++ List.replicate 4 0).take 4)]
    let takes := fun (i : Instr) (kind : Nat) => die < 8 → clear → m.kind = kind → (msgDies s p).getLsbD die = true →
      (dieHalted s die = true → Answers i s fun t => sentDown t = (sentDown s).drop 1 ∧ t.ws.ni = [(m, msgDies s p)] ∧
        t.cores = s.cores ∧ t.fb = s.fb) ∧
      (dieHalted s die = false → Answers i s fun t => t.ws.ni = (if left = 0 then [] else [(m, left)]) ∧
        (kind ≠ 0x03 ∨ left ≠ 0 ∨ s.fb.waits = [] → sentDown t = (sentDown s).drop 1))
    takes (.phaseStart die) 0x01 ∧ takes (.cfgLoad die) 0x02 ∧ takes (.ctxSwitch die) 0x03 ∧
    (∀ region id n h st prog g r, die < 8 → clear → m.kind = 0x01 → p = .phaseStart region id n h st prog → dieHalted s die = false →
      regionOf s region = some g → g.dies.getLsbD die = true → runOf s region = some r → r.handle = h →
      (r.seqFault ≠ none → Answers (.phaseStart die) s fun t => t.cores = s.cores ∧ t.cells = s.cells ∧ t.fb = s.fb) ∧
      (r.seqFault = none → Answers (.phaseStart die) s fun t =>
        (∃ r2, runOf t region = some r2 ∧ r2 = { r with started := r.started ||| bit die }) ∧
        (prog = true → ∀ c ∈ g.cores, dieOfCore c = die → (getCore t c).running = true ∧ (getCore t c).pc = BitVec.ofNat 64 g.entry ∧
          (getCore t c).region = region) ∧
        (prog = false → ∀ e, g.phases.find? (fun e => e.id == id) = some e → ∀ c ∈ g.cores, dieOfCore c = die →
          (getCore t c).phase = some { id := id, ctx := e.ctx, count := n, region := region, late := false }))) ∧
    (∀ h, die < 8 → clear → m.kind = 0x02 → p = .cfgLoad h → dieHalted s die = false → Answers (.cfgLoad die) s fun t =>
      t.fb.loads = s.fb.loads.map fun l => if l.handle == h then { l with dies := l.dies ||| bit die } else l) ∧
    (∀ region ctx h g, die < 8 → clear → m.kind = 0x03 → p = .ctxSwitch region ctx h → dieHalted s die = false →
      regionOf s region = some g → g.dies.getLsbD die = true → Answers (.ctxSwitch die) s fun t =>
        (∀ c ∈ g.cores, dieOfCore c = die → ∀ k ∈ cellsOf c, (getCell t k).active = ctx) ∧
        (left = 0 → sentUp t = sentUp s ++ [.completion h 0 0 []])) ∧
    (∀ h st fl res, upHead → p = .completion h st fl res → Answers .completion s fun t =>
      sentUp t = (sentUp s).drop 1 ∧ ended t h st res) ∧
    (∀ q y h d, upHead → p = .nack q → s.ws.sent.find? (fun e => e.1 == q) = some y → y.2 = .collDesc h d → Answers .nack s fun t =>
      sentUp t = (sentUp s).drop 1 ∧ t.cl.caravans = s.cl.caravans ∧ ended t h 0x0016 [0]) ∧
    (noReport → s.ws.down = m :: rest → Answers (.waystationFault 0 cause) s fun t => sentDown t = (sentDown s).drop 1 ∧
      sentUp t = sentUp s ++ [.nack m.seq] ∧ sentTele t = sentTele s ++ [report 0 m.seq] ∧ t.cores = s.cores) ∧
    (noReport → s.ws.up = m :: rest → m.payload = p → (∀ port tag d v, p ≠ .regReply port tag d v) →
      Answers (.waystationFault 1 cause) s fun t => sentUp t = (sentUp s).drop 1 ++ [p] ∧
        sentTele t = sentTele s ++ [report 1 m.seq] ∧ t.cp = s.cp) ∧
    (noReport → s.ws.tele = m :: rest → s.ws.held = [] → s.ws.waitTele = [] → Answers (.waystationFault 2 cause) s fun t =>
      sentTele t = (sentTele s).drop 1 ++ [report 2 m.seq] ∧ t.bb = s.bb) ∧
    (noReport → s.ws.inter = m :: rest → Answers (.waystationFault 3 cause) s fun t => sentInter t = (sentInter s).drop 1 ∧
      sentTele t = sentTele s ++ [report 3 m.seq] ∧ (s.ws.waitInter = [] → t.ws.unacked = s.ws.unacked) ∧
      t.ws.haltMc = s.ws.haltMc ∧ t.ws.portMc = s.ws.portMc) ∧
    (∀ x y, s.ws.tele = m :: rest → p = .fault ws cause x y → m.payload = p → mcRuns s = true → s.ws.held = [] →
      s.ws.waitTele = [] → Answers (.waystationFault ws cause) s fun t =>
        t.ws.tele = rest ∧ t.ws.down = s.ws.down ∧ t.ws.up = s.ws.up) ∧
    (stack < 8 → planeUp s = true → teleUsed s true < 239 → Answers (.telemetryInterval stack) s fun t =>
      ∃ a, msgs t.ws.tele = msgs s.ws.tele ++ [(0x11, .counts a), (0x14, .counts (laneHealth s stack))] ∧
        a.length = 7 ∧ a[3]? = some (tget 0 s.tw.activity (8 * stack + 3) / 64 % 2 ^ 64) ∧
        a[4]? = some (tget 0 s.mem.moved stack / 64 % 2 ^ 64)) ∧
    (planeUp s = false → stack < 8 → exec (.telemetryInterval stack) s = .next s)

/-- Register accesses (R9, R11, R12, R27, R36, R430, R431, R433, Table 13.10): an access of a width or alignment its register does not have
is discarded and counted; the command processor's registers answer at once; a data-plane block is reached over the command
waystation and refused while the plane has no power; a management-plane block is reached through MGMT_REQUEST and MGMT_REPLY; a
reply completes its read, and an access without one in time fails; a write behind an earlier access of its block goes after it. Device memory is read and written through BAR4. -/
def Obligations.RegisterAndBar4Accesses : Prop :=
  ∀ (s : State) (port off width len : Nat) (v : W64) (tag : W32) (m : Msg) (rest : List Msg) (bs : List Byte), port < 2 →
    let up := (getCp s port).linkUp = true
    let tokenOf := s.cp.holder == port + 1
    let acc := fun (w : Bool) => ({ off := off, width := width, write := w, port := port, steward := tokenOf, tag := tag, value := v } : RegAcc)
    let sound := accessBreaks s port off width = false
    let replied := fun (t : State) (x : Nat) => t.env.replies = s.env.replies ++ [(port, tag, BitVec.ofNat 64 x)]
    let a := s.mem.bar4Base.toNat + off % 2 ^ 36
    let good := fun (n : Nat) => a + n ≤ retainedBase ∧ (∀ i, i < n → readFaults s (a + i) = false) ∧
      s.mem.heldWrites = [] ∧ up ∧ s.rst.dataPlaneOn = true
    let wsFree := ∀ w : Ws, regValue { s with ws := w } port off width = regValue s port off width
    (up → accessBreaks s port off width = true → exec (.registerWrite port off width v) s = .next (countCpFault s port 0)) ∧
    (up → sound → (wayOf off = .here ∨ (blockBusy s off = false ∧ ((wayOf off = .data ∧ s.rst.dataPlaneOn = true) ∨
        (wayOf off = .management ∧ served s off = true)))) →
      exec (.registerWrite port off width v) s = .next (regWrite port tokenOf off width v s).1) ∧
    (up → sound → blockBusy s off = true → s.rst.dataPlaneOn = true →
      (wayOf off = .data ∨ (wayOf off = .management ∧ served s off = true)) → Answers (.registerWrite port off width v) s fun t =>
        (∃ y, sentDown t = sentDown s ++ [.regAccess { acc true with tag := y }]) ∧ t.lk = s.lk ∧ t.mem = s.mem ∧ t.cp = s.cp) ∧
    (up → s.rst.dataPlaneOn = true → s.cp.holder = port + 1 → blockBusy s 0x700048 = false →
      exec (.registerWrite port 0x700048 4 v) s = .next { s with lk := { s.lk with destSel := v.setWidth 32 &&& 0xFFFF } }) ∧
    (up → sound → wayOf off = .data → s.rst.dataPlaneOn = false →
      exec (.registerWrite port off width v) s = .next (countCpFault s port 2) ∧
      Answers (.regAccess port off width false v tag) s fun t => replied t 0) ∧
    (up → sound → wayOf off = .here → Answers (.regAccess port off width false v tag) s fun t =>
      replied t (regValue s port off width) ∧ t.cp = s.cp ∧ t.ws = s.ws) ∧
    (up → sound → wayOf off = .data → s.rst.dataPlaneOn = true → s.ws.down = [] → s.ws.waitDown = [] → wsFree →
      Answers (.regAccess port off width false v tag) s fun t =>
        sentUp t = sentUp s ++ [.regReply port tag false (BitVec.ofNat 64 (regValue s port off width))] ∧
        sentDown t = [] ∧ (port, tag, width, false) ∈ t.ws.regsOut) ∧
    (up → sound → wayOf off = .management → s.rst.dataPlaneOn = true → s.ws.down = [] → s.ws.waitDown = [] → mgmtOut s < 4 →
      Answers (.regAccess port off width false v tag) s fun t =>
        sentTele t = sentTele s ++ [(0x16, .regAccess (acc false))] ∧ (port, tag, width, false) ∈ t.ws.regsOut) ∧
    (s.ws.tele = m :: rest → m.payload = .regAccess (acc false) → mcRuns s = true → s.pw.state ≠ .p4 → s.ws.held = [] →
      s.ws.waitTele = [] → awaited s port tag ≠ none → ¬ (0xB08000 ≤ off ∧ off < 0xC00000) → s.db.ctrl.getLsbD 12 = false →
      wsFree → Answers .mgmtRequest s fun t => t.ws.tele = rest ∧
        sentInter t = sentInter s ++ [(0x26, .regReply port tag false (BitVec.ofNat 64 (regValue s port off width)))]) ∧
    (∀ d, s.ws.inter = m :: rest → m.kind = 0x26 → m.payload = .regReply port tag d v → Answers .mgmtReply s fun t =>
      sentInter t = (sentInter s).drop 1 ∧ sentUp t = sentUp s ++ [.regReply port tag d v]) ∧
    (∀ d n, s.ws.up = m :: rest → m.payload = .regReply port tag d v → awaited s port tag = some (port, tag, n, false) → up →
      Answers .regReply s fun t => sentUp t = (sentUp s).drop 1 ∧ t.env.replies = s.env.replies ++ [(port, tag, v)]) ∧
    (∀ n, awaited s port tag = some (port, tag, n, false) → up → Answers (.registerAccessTimeout port tag) s fun t =>
      replied t (if n = 4 then 0xFFFFFFFF else 0xFFFFFFFFFFFFFFFF) ∧
      tget 0 (getCp t port).faultCnt 1 = tget 0 (getCp s port).faultCnt 1 + 1) ∧
    (awaited s port tag = none → exec (.registerAccessTimeout port tag) s = .next s) ∧
    (good len → Answers (.bar4Read port off len) s fun t => t = { s with
      env := { s.env with bar4 := s.env.bar4 ++ [(port, readBytes s a len, false)] }, mem := { s.mem with moved := t.mem.moved } }) ∧
    (good bs.length → Answers (.bar4Write port off bs) s fun t => t.mem.hostFault = s.mem.hostFault ∧
      (∀ i, i < bs.length → some (readByte t (a + i)) = bs[i]?) ∧ ∀ x, (x < a ∨ a + bs.length ≤ x) → readByte t x = readByte s x)

/-! ### Memory, loads, phases and cells -/

/-- The memory controllers (R262, R270 to R279, R292, Tables 9.11, 9.12): a read without errors, or with one symbol in error on a sound
sub-channel, leaves every byte as it was and counts the correction; an error the code detects leaves the sector zero and poisoned,
counted; a dead sub-channel is counted; a write lands where it is sound; the patrol reads its next sector as a read does; and a
retirement copies to the lowest unused spare, which then takes the failing sub-channel's logical number, in erasure mode where a pin of it failed meanwhile; the map is saved, unless the
black box abandons the write. -/
def Obligations.MemoryControllersCorrectAndRetire : Prop :=
  ∀ (s : State) (addr stack j q : Nat) (e : Byte) (errs : List (Nat × Byte)) (bs : List Byte) (bad : Bool) (r : Retire) (rest : List Retire),
    let base := addr / 32 * 32
    let ctl := (subOf addr).1
    let live := isDram addr = true ∧ s.mem.ready = true ∧ s.mem.selfRefresh = false
    let sound := live ∧ deadSub s addr = false ∧ tagFault s addr = false
    let count := fun (u : State) (k : Nat) => tget 0 u.mem.counts (4 * ctl + k)
    let bytesSame := fun (t : State) => ∀ x, readByte t x = readByte s x
    let failing := fun (u : State) (p : Nat) => (lget 0 u.mem.subch (stack * 32 + p)).toNat
    let on := s.mem.ready = true ∧ s.mem.selfRefresh = false ∧ stack < 8 ∧ s.mem.subch.length = 256
    let saved := fun (t : State) => writeLost s.bb.writes = false → (repairMap t).subch = t.mem.subch
    (sound → (∃ p, subEntry s ctl (subOf addr).2 = some p) → Answers (.dramRead addr []) s fun t =>
      bytesSame t ∧ sectorPoison t addr = sectorPoison s addr ∧ (∀ k, k < 4 → count t k = count s k) ∧ t.mem.errLog = s.mem.errLog) ∧
    (sound → (∃ p, serving s addr = some p ∧ erasurePin (subAt s ctl p) = none) → j < 36 → e ≠ 0 →
      Answers (.dramRead addr [(j, e)]) s fun t => bytesSame t ∧ sectorPoison t addr = sectorPoison s addr ∧
        count t 0 = count s 0 + 1 ∧ count t 1 = count s 1) ∧
    (sound → (∃ p, serving s addr = some p ∧ rsDecode (erasurePin (subAt s ctl p)) (errSymbols errs) = none) →
      Answers (.dramRead addr errs) s fun t => sectorPoison t addr = true ∧ count t 1 = count s 1 + 1 ∧
        ∀ x, readByte t x = (if base ≤ x ∧ x < base + 32 then 0 else readByte s x)) ∧
    (live → deadSub s addr = true → Answers (.dramRead addr errs) s fun t => t.mem.bytes = s.mem.bytes ∧ count t 3 = count s 3 + 1) ∧
    (s.mem.ready = false ∨ s.mem.selfRefresh = true → exec (.dramRead addr errs) s = .next s ∧ exec (.dramWrite addr bs bad) s = .next s) ∧
    (s.mem.ready = true → s.mem.selfRefresh = false → bs ≠ [] → addr + bs.length ≤ dramEnd →
      (∀ i, i < bs.length → readFaults s (addr + i) = false) → Answers (.dramWrite addr bs false) s fun t =>
        (∀ i, i < bs.length → some (readByte t (addr + i)) = bs[i]? ∧ sectorPoison t (addr + i) = false) ∧
        ∀ x, (x < addr ∨ addr + bs.length ≤ x) → readByte t x = readByte s x) ∧
    (live → deadSub s addr = false → addr % 32 = 0 → bs.length = 32 → Answers (.dramWrite addr bs true) s fun t =>
      sectorPoison t addr = true ∧ ∀ x, readByte t x = (if addr ≤ x ∧ x < addr + 32 then 0 else readByte s x)) ∧
    (on → s.mem.patrol.getLsbD 0 = true → s.mem.patrol.toNat / 256 % 256 ≠ 0 → ∃ u,
      exec (.dramRead (patrolAddr stack (tget 0 s.mem.patrolPtr stack % sectorsOfStack)) errs) s = .next u ∧
      exec (.patrolRead stack errs) s = .next { u with mem := { u.mem with patrolPtr := tadd u.mem.patrolPtr stack 1 } }) ∧
    (stack < 8 → s.mem.patrol.getLsbD 0 = false → exec (.patrolRead stack errs) s = .next s) ∧
    (on → s.mem.retires.filter (fun x => x.stack == stack) = r :: rest → (∀ x ∈ r :: rest, x.copying = false) →
      unusedSpare s stack = some q → r.failing < 32 → bitsOf (failing s r.failing) 7 5 = 2 → Answers (.retirementStart stack) s fun t =>
        bitsOf (failing t r.failing) 7 5 = 3 ∧ bitsOf (failing t r.failing) 4 0 = bitsOf (failing s r.failing) 4 0 ∧
        bitsOf (failing t q) 7 5 = 4 ∧ t.mem.bytes = s.mem.bytes ∧ saved t ∧
        { r with spare := q, copying := true } ∈ t.mem.retires) ∧
    (on → s.mem.retires.find? (fun x => x.stack == stack && x.copying) = some r → r.failing < 32 → r.spare < 32 →
      r.spare ≠ r.failing → Answers (.retirementComplete stack) s fun t =>
        bitsOf (failing t r.spare) 7 5 = (if subPin (subAt s stack r.spare) < 12 then 2 else 0) ∧ bitsOf (failing t r.spare) 4 0 = bitsOf (failing s r.failing) 4 0 ∧
        bitsOf (failing t r.failing) 7 5 = 5 ∧ t.mem.bytes = s.mem.bytes ∧ saved t)

/-- The stages of a configuration load (R228, R229, R233, R237, R239, Tables 7.16, 7.22): FETCH reads the whole image once every die has the
message, and judges it against the state it finds; VERIFY reports the first failing check or leaves the load to wait; APPLY waits for
running work, its start is the commit point, and each die's part waits while a halt holds that die; REPORT replaces the regions and counts a load that succeeded, or leaves the failed check, its fault word and the
regions as they were, and answers the command. -/
def Obligations.LoadStagesFollowOneAnother : Prop :=
  ∀ (s : State) (l : Load) (rest : List Load), s.fb.loads = l :: rest →
    let runs := loadRuns s l = true
    let head := fun (t : State) (n : Load) => t.fb.loads = n :: rest ∧ t.fb.regions = s.fb.regions ∧ t.fb.loadCount = s.fb.loadCount
    let said := fun (t : State) (st : Nat) (res : List W64) => sentUp t = sentUp s ++ [.completion l.handle st 0 res]
    let img := fetchImage s l.addr l.bytes
    let found := (verdict img.1 l.bytes img.2 s).getD (0, (0, 0))
    let fault := BitVec.ofNat 64 (l.offset % 2 ^ 32 + l.cell % 2 ^ 32 * 2 ^ 32)
    (l.stage = .accept → l.dies = 0xFF → runs → Answers .fetch s fun t =>
      head t { l with stage := .verify, image := img.1, digest := crbDigest img.1, check := found.1, offset := found.2.1,
                      cell := found.2.2 } ∧ t.mem.bytes = s.mem.bytes ∧
      ((∀ i, i < l.bytes → readFaults s (l.addr + i) = false) → img = (readBytes s l.addr l.bytes, none))) ∧
    (l.stage ≠ .accept ∨ l.dies ≠ 0xFF → exec .fetch s = .next s) ∧
    (l.stage = .verify → runs → Answers .verify s fun t =>
      head t (if l.check = 0 then { l with stage := .hold, signed := crbSigned l.image } else { l with stage := .report })) ∧
    (l.stage ≠ .verify → exec .verify s = .next s) ∧
    ((l.stage = .hold ∧ runs ∧ loadBlocked (imgOf l.image) s = false) ∨ l.stage = .apply → Answers .apply s fun t =>
      (∃ k d x, head t { l with stage := x, remaps := k, applied := d } ∧ (x = .apply ∨ x = .report) ∧
        ((∀ d, d < 8 → dieHalted s d = false) → x = .report) ∧
        ∀ i, i < 8 → dieHalted s i = true → d.getLsbD i = l.applied.getLsbD i) ∧
      ((∀ d, d < 8 → dieHalted s d = true) → t.cells = s.cells ∧ t.cores = s.cores) ∧
      (l.stage = .hold → ∀ e ∈ t.cp.longops, e.2.handle = l.handle → e.2.pastCommit = true)) ∧
    ((l.stage ≠ .hold ∧ l.stage ≠ .apply) ∨ (l.stage = .hold ∧ (¬ runs ∨ loadBlocked (imgOf l.image) s = true)) →
      exec .apply s = .next s) ∧
    (l.stage = .report → l.check = 0 → (∀ x ∈ rest, x.handle ≠ l.handle) → Answers .report s fun t =>
      t.fb.regions = regionsAfter l s ∧ t.fb.loadCount = s.fb.loadCount + 1 ∧ t.fb.lastCheck = 0 ∧ t.fb.lastHandle = l.handle ∧
      t.fb.loads.map (·.handle) = rest.map (·.handle) ∧ said t 0 []) ∧
    (l.stage = .report → l.check ≠ 0 → runs → (∀ x ∈ rest, x.handle ≠ l.handle) → Answers .report s fun t =>
      t.fb.regions = s.fb.regions ∧ t.fb.loadCount = s.fb.loadCount ∧ t.fb.lastCheck = l.check ∧ t.fb.lastHandle = l.handle ∧
      t.fb.loadFault = fault ∧ t.fb.loads.map (·.handle) = rest.map (·.handle) ∧ said t (0x0100 + l.check) [fault]) ∧
    (l.stage ≠ .report → exec .report s = .next s)

/-- Phases, programs, streams and moves end and start (R141 to R144, R154, R155, R164, R193, R194, R199, R280, R282, R419): the oldest
stream of a class and move of a cluster that nothing blocks starts; an IN stream leaves its core when it completes, an OUT or LOOP
stream not before its elements have arrived; a move carries every byte between its cluster store and device memory; the last core
to end a phase, and the last program, end the run, whose completion is posted. Nothing of it happens on a halted die. -/
def Obligations.StreamsMovesAndPhasesComplete : Prop :=
  ∀ (s : State) (core port cluster region die : Nat) (out : Bool) (t0 : Stream) (m : Move) (p : CorePhase) (run : Run) (g : Region),
    let c := getCore s core
    let still := dieHalted s (core / 600) = false
    let posted := fun (t : State) (h st : Nat) => ∃ f res, sentUp t = sentUp s ++ [.completion h st f res]
    let mine := fun (o : OpenRec) => o.region == p.region && o.phaseId == p.id && !o.cores.contains core
    let cs := clusterStoreAt (core / 4)
    (core < Config.numCores → port < 4 → (streamToStart c port out = none ∨ dieHalted s (core / 600) = true) →
      exec (.streamStart core port out) s = .next s) ∧
    (core < Config.numCores → port < 4 → still → streamToStart c port out = some t0 → Answers (.streamStart core port out) s fun t =>
      (getCore t core).streams = lupdate (fun u => u.ord == t0.ord) (fun u => { u with started := true }) c.streams ∧
      (getCore t core).moves = c.moves ∧ (t0.dir ≠ 0 → t.cells = s.cells ∧ t.mem = s.mem)) ∧
    (core < Config.numCores → port < 4 → (streamRunning c port out = none ∨ dieHalted s (core / 600) = true) →
      exec (.streamComplete core port out) s = .next s) ∧
    (core < Config.numCores → port < 4 → still → streamRunning c port out = some t0 → t0.dir = 0 →
      Answers (.streamComplete core port out) s fun t => t.mem = s.mem ∧
        getCore t core = { c with streams := lremove (fun u => u.ord == t0.ord) c.streams }) ∧
    (core < Config.numCores → port < 4 → still → streamRunning c port out = some t0 → t0.dir = 1 →
      takeOut (t0.edges.map fun e => 64 * t0.port + e) (inputsFor t0.fmt t0.perm t0.count) 0 c = none →
      (∀ g2, regionOf s c.region = some g2 → core ∈ g2.cores) → exec (.streamComplete core port out) s = .next s) ∧
    (cluster < Config.numClusters → dieHalted s (cluster / 150) = false → moveToStart s cluster = some (core, m) →
      Answers (.moveStart cluster) s fun t => t.mem = { s.mem with moveTurn := t.mem.moveTurn } ∧
        tget 0 t.mem.moveTurn cluster = (core + 1) % 4 ∧ getCore t core = { c with moves := lupdate (fun u => u.ord == m.ord) (fun u => { u with started := true }) c.moves }) ∧
    (cluster < Config.numClusters → (moveToStart s cluster = none ∨ dieHalted s (cluster / 150) = true) →
      exec (.moveStart cluster) s = .next s) ∧
    (cluster < Config.numClusters → dieHalted s (cluster / 150) = false → moveRunning s cluster = some (core, m) → c.phase = none →
      m.len % 32 = 0 → m.cstore % 32 = 0 → m.dev % 32 = 0 → m.dev + m.len ≤ retainedBase → m.cstore + m.len ≤ 0x200000 → s.mem.heldWrites = [] →
      (∀ i, i < m.len → readFaults s (m.dev + i) = false ∧ readFaults s (cs + m.cstore + i) = false) →
      Answers (.moveComplete cluster) s fun t =>
        let src := if m.toDevice then cs + m.cstore else m.dev
        let dst := if m.toDevice then m.dev else cs + m.cstore
        (∀ i, i < m.len → readByte t (dst + i) = readByte s (src + i)) ∧
        (∀ x, (x < dst ∨ dst + m.len ≤ x) → readByte t x = readByte s x) ∧
        getCore t core = { c with moves := lremove (fun u => u.ord == m.ord) c.moves }) ∧
    (cluster < Config.numClusters → (moveRunning s cluster = none ∨ dieHalted s (cluster / 150) = true) →
      exec (.moveComplete cluster) s = .next s) ∧
    (runOf s region = some run → regionOf s region = some g → run.program = true → run.seqFault = none → s.fb.waits = [] →
      run.poisoned = [] → (∀ i ∈ g.cores, (getCore s i).ended = true ∧ (getCore s i).region = region) →
      Answers (.programEnd region) s fun t => runOf t region = none ∧
        sentUp t = sentUp s ++ [.completion run.handle 0 0 [0, 0, 0, BitVec.ofNat 64 t.tw.head]] ∧ s.tw.head ≤ t.tw.head ∧
        (∀ o ∈ t.tw.opens, o.region ≠ region) ∧ ((∀ o ∈ s.tw.opens, o.region ≠ region) → t.tw.head = s.tw.head)) ∧
    (runOf s region = some run → regionOf s region = some g →
      (run.program = false ∨ ∃ i ∈ g.cores, (getCore s i).ended = false) → exec (.programEnd region) s = .next s) ∧
    (core < Config.numCores → (c.phase = none ∨ dieHalted s (core / 600) = true) → exec (.phaseEnd core) s = .next s) ∧
    (core < Config.numCores → still → c.phase = some p → Answers (.phaseEnd core) s fun t =>
      (getCore t core).phase = none ∧ (getCore t core).lastPhase = p.id ∧
      (∀ o, runOf s p.region = some run → regionOf s p.region = some g → run.program = false → run.seqFault = none → p.late = false →
        s.fb.waits = [] → c.region = p.region → s.tw.opens.find? mine = some o → (∀ i ∈ g.cores, i ≠ core → i ∈ o.cores) → core ∈ g.cores →
        runOf t p.region = none ∧ s.tw.head ≤ t.tw.head ∧ (posted t run.handle 0 ∨ posted t run.handle 0x0200))) ∧
    (die < 8 → runOf s region = some run → regionOf s region = some g →
      (∀ o ∈ s.tw.opens, o.region = region → ∀ i ∈ g.cores, i / 600 = die → i ∈ o.cores) → exec (.totalsTimeout region die) s = .next s) ∧
    (∀ o, die < 8 → runOf s region = some run → regionOf s region = some g → run.program = false → s.fb.waits = [] →
      s.tw.opens.find? (fun x => x.region == region && g.cores.any fun i => i / 600 == die && !x.cores.contains i) = some o →
      (∀ i ∈ g.cores, i / 600 ≠ die → i ∈ o.cores) → (∃ f ∈ o.fmts, f / 16 ≠ die) → Answers (.totalsTimeout region die) s fun t =>
        s.tw.head < t.tw.head ∧ t.tw.status.getLsbD 0 = true ∧ runOf t region = none)

/-- The cells (R48, R54, R56 to R62, R65, R67 to R72, R124, R127, R130, R137 to R140): a streamed element of A adds one product to each of
its eight positions, a BANK_LOAD word pair fills the next entry bit for bit, a reduction's next term enters the sum of its entry, the
first element of a top-k stage, or the first pair of a list that comes as pairs, leads an otherwise blank list, one word's elements run the chain to OUT and RED, and a drained value is
formed, rounded, counted and stored. A cell works only while a phase runs and no halt holds its die. -/
def Obligations.CellsWorkElementByElement : Prop :=
  ∀ (s : State) (cell entry resid : Nat) (e a b : Elem) (r : List Elem) (ins : List LaneIn) (u : State), cell < Config.numCells →
    let c := getCell s cell
    let x := c.act
    let works := cellRuns s cell = true
    let q := fun (k : Nat) => tget [] c.inq k
    let n := c.kDone % (x.kLen * 4)
    let sum := fun (w : Cell) (k : Nat) => tget AccRun.empty w.red k
    let topFirst := x.red = 3 ∧ c.topkSeen = 0 ∧ x.redAdd = false ∧ 0 < x.topkK ∧ x.topkK ≤ 32
    let leads := fun (t : State) (n : Entry) => (getCell t cell).topkSeen = 1 ∧ (getCell t cell).topkHeld = 1 ∧
      bankEntry (getCell t cell) x.redBank 0 = n ∧ ∀ i, 0 < i → i < x.topkK → bankEntry (getCell t cell) x.redBank i = Entry.blank
    (cellRuns s cell = false → exec (.streamedOperand cell) s = .next s ∧ exec (.bankLoad cell) s = .next s ∧
      exec (.reductionTerm cell entry) s = .next s ∧ exec (.topkElement cell) s = .next s ∧ exec (.elementChain cell) s = .next s ∧
      exec (.drain cell resid) s = .next s) ∧
    (works → x.tileEn = true → (x.role = 0 ∨ x.role = 1) → x.transposed = false → x.streamFromStore = false → q 0 = e :: r →
      n + 1 < x.kLen * 4 → Answers (.streamedOperand cell) s fun t =>
        (getCell t cell).kDone = c.kDone + 1 ∧ tget [] (getCell t cell).inq 0 = r ∧ (getCell t cell).banks = c.banks ∧
        ∀ p, p < 32 → tget AccRun.empty (getCell t cell).tile p =
          if p / 8 = n % 4 then tileTerm x.intTile (tget AccRun.empty c.tile p)
            (mulV (tileVal x.fmtA { bits := e.bits.toNat, poison := e.poison })
              (tileVal x.fmtB (storeOp s cell x.statBase x.fmtB (if x.role = 0 then 8 * (n / 4) + p % 8 else p % 8 * x.kLen + n / 4))))
          else tget AccRun.empty c.tile p) ∧
    (works → x.tileEn = true → x.role = 5 → x.streamFromStore = false → q 0 = a :: b :: r → Answers (.bankLoad cell) s fun t =>
      bankEntry (getCell t cell) x.tileBank (c.kDone % 32) =
        { s := a.bits.setWidth 32, e := b.bits.setWidth 32, poison := rawPoison a } ∧
      (getCell t cell).kDone = c.kDone + 1 ∧ tget [] (getCell t cell).inq 0 = r) ∧
    (works → c.redq = e :: r → (x.red = 1 ∨ x.red = 2) → Answers (.reductionTerm cell entry) s fun t =>
      (getCell t cell).redq = r ∧ (∀ k, k ≠ (if x.red = 2 then 32 else entry % 32) → sum (getCell t cell) k = sum c k) ∧
      sum (getCell t cell) (if x.red = 2 then 32 else entry % 32) =
        (sum c (if x.red = 2 then 32 else entry % 32)).term (if x.red = 2 then fp64 else fp32) (termVal e)) ∧
    (works → c.redq = a :: b :: r → x.red = 4 → Answers (.reductionTerm cell entry) s fun t => (getCell t cell).redq = r ∧
      sum (getCell t cell) (entry % 32) =
        (sum c (entry % 32)).leaf fp32 ⟨if rawPoison a then BitVec.ofNat 64 fp32.poisonBits else a.bits, b.bits⟩) ∧
    (works → c.redq = e :: r → e.raw = false → topFirst → Answers (.topkElement cell) s fun t => (getCell t cell).redq = r ∧
      leads t { s := e.bits.setWidth 32, e := BitVec.ofNat 32 x.topkOffset, poison := false, mark := e.poison }) ∧
    (works → c.redq = a :: b :: r → a.raw = true → topFirst → Answers (.topkElement cell) s fun t =>
      let n : Entry := { s := a.bits.setWidth 32, e := b.bits.setWidth 32, poison := false, mark := a.poison }
      (getCell t cell).redq = r ∧ (n ≠ Entry.blank → leads t n) ∧
      (n = Entry.blank → (getCell t cell).topkSeen = 0 ∧ (getCell t cell).banks = c.banks)) ∧
    (works → x.chainLen ≠ 0 → (∀ l ∈ x.legs, l.src ≠ 6) → takeWide s cell x = some (ins, u) → Answers (.elementChain cell) s fun t =>
      let z := runChain x (getCell u cell) ins
      (getCell t cell).q = z.cell.q ∧ (getCell t cell).chainN = (getCell u cell).chainN ∧
      (getCell t cell).redq = z.cell.redq ++ (if x.red = 0 then [] else (z.red.getD []).map (laneElem x)) ∧
      (getCell t cell).wideq = (if x.dsrc = 2 then z.cell.wideq ++ (z.out.getD []).map (laneElem x) else z.cell.wideq)) ∧
    (works → x.chainLen ≠ 0 → takeWide s cell x = none → exec (.elementChain cell) s = .next s) ∧
    (works → x.dsrc = 2 → x.raw = false → x.dfmt ≤ 5 → x.drmode = 0 → x.ddestStore = true → c.wideq = e :: r → fmtBits x.dfmt % 8 = 0 →
      x.destBase % 8 = 0 → x.destBase + (c.drainN + 1) * 8 ≤ 16384 → sectorPoison s (cellStoreAt cell + x.destBase + c.drainN * (fmtBits x.dfmt / 8)) = false →
      Answers (.drain cell resid) s fun t =>
        let f := drainForm x c (wideAt c.drainN (wideVal x e))
        let d := drainTo x.dfmt .rne f.1 f.2
        (getCell t cell).drainN = c.drainN + 1 ∧ (getCell t cell).wideq = r ∧
        (getCell t cell).counts = bumpCounts c.counts d.counts ∧
        leNat (readBytes t (cellStoreAt cell + x.destBase + c.drainN * (fmtBits x.dfmt / 8)) (fmtBits x.dfmt / 8)) =
          (if d.poison then (if (fpFmt x.dfmt).any (fun w => w.isPoison (d.bits % 2 ^ 64)) then d.bits else ((fpFmt x.dfmt).map (·.poisonBits)).getD 0) else d.bits) % 2 ^ fmtBits x.dfmt)

/-! ### The black box, the mailbox and the side channels -/

/-- The black box (R517 to R521, Tables 17.6, 17.14): a record selected is latched with its 256 bytes only where it is committed, its
slot holds its SEQ and its CRC is valid; a note becomes the next record, or waits in order, at most 16, while the controller cannot
take it; a window closes after 1,024 periods, or with a closing event, as one burst: a record for every format that counted, one for
every port that showed a lamp, the summary, and the event. A record whose writes read back is committed; where one is abandoned
nothing is committed, the fault is counted and MRAM_FAULT stands. -/
def Obligations.BlackBoxRecordsWindowsAndNotes : Prop :=
  ∀ (s : State) (port seq code : Nat) (note body : List Byte),
    let n := seq % 2 ^ 64
    let slot := tget [] s.bb.slots (bbSlot n)
    let latch := fun (u : State) (p : Nat) => if p = 0 then u.bb.latchA else u.bb.latchB
    let latched := fun (st : W32) (image : List Byte) => Answers (.bbRecSel port seq) s fun t =>
      latch t port = { sel := BitVec.ofNat 64 n, state := st, image := image } ∧ latch t (1 - port) = latch s (1 - port) ∧
      t.bb.slots = s.bb.slots ∧ t.bb.committed = s.bb.committed
    let runs := mcRuns s = true ∧ s.pw.state ≠ .p4
    let img := padTo 256 note
    let type := field img 8 2
    let cause := field img 10 2
    let last := fun (t : State) (ty c : Nat) (b : List Byte) =>
      tget [] t.bb.slots (bbSlot t.bb.committed) = bbRecord t.bb.committed ty c s.bb.window.len b
    let kept := fun (i : Nat) => writeLost (s.bb.writes + i) = false
    let w := s.bb.window
    let burst := ((List.range 16).filter fun f => (List.range 6).any fun k => totalOf s (16 * f + 16 + k) != 0).length +
      ((List.range 10).filter fun p => w.lampSeen.getLsbD p).length
    (port < 2 → runs → 1 ≤ n → n ≤ s.bb.committed → field slot 0 8 = n → field slot 252 4 = (crc32c (slot.take 252)).toNat →
      latched 3 slot) ∧
    (port < 2 → runs → 1 ≤ n → n ≤ s.bb.committed → n < field slot 0 8 → latched 9 []) ∧
    (port < 2 → runs → (n = 0 ∨ s.bb.committed < n) → latched 17 []) ∧
    (port < 2 → ¬ runs → exec (.bbRecSel port seq) s = .next s) ∧
    (runs → s.bb.notes = [] → (type ≠ 5 ∨ 0x100 ≤ cause) → Answers (.bbNoteGo note) s fun t => t.bb.notes = [] ∧
      (kept 0 → kept 1 → t.bb.committed = s.bb.committed + 1 ∧ last t type cause (slice img 16 236) ∧
        t.bb.writes = s.bb.writes + 2 ∧ tget 0 t.bb.counts 5 = tget 0 s.bb.counts 5) ∧
      (¬ kept 0 ∨ ¬ kept 1 → t.bb.committed = s.bb.committed ∧ t.bb.mramFault = true ∧
        tget 0 t.bb.counts 5 = tget 0 s.bb.counts 5 + 1)) ∧
    (runs → s.bb.notes = [] → type = 5 → cause < 0x100 → Answers (.bbNoteGo note) s fun t =>
      t.bb.window.events = w.events ++ [(cause, slice img 16 236)] ∧ t.bb.slots = s.bb.slots) ∧
    (s.pw.state ≠ .p4 → (mcRuns s = false ∨ s.bb.notes ≠ []) → s.bb.notes.length < 16 → Answers (.bbNoteGo note) s fun t =>
      t.bb.notes = s.bb.notes ++ [img] ∧ t.bb.slots = s.bb.slots ∧ t.bb.committed = s.bb.committed) ∧
    (s.pw.state ≠ .p4 → 16 ≤ s.bb.notes.length → Answers (.bbNoteGo note) s fun t =>
      t.bb.noteLost = true ∧ t.bb.notes = s.bb.notes ∧ t.bb.committed = s.bb.committed) ∧
    (s.pw.state = .p4 → exec (.bbNoteGo note) s = .next s) ∧
    (mcRuns s = true → 1024 ≤ w.len → w.events = [] → Answers .windowClose s fun t => t.bb.window.len = 0 ∧ t.bb.window.events = [] ∧
      ((∀ i, i < 2 * burst + 2 → kept i) → t.bb.committed = s.bb.committed + burst + 1 ∧ last t 1 0 (windowBody s)) ∧
      ∀ q, (∀ i, i ≤ burst → bbSlot q ≠ bbSlot (s.bb.committed + 1 + i)) →
        tget [] t.bb.slots (bbSlot q) = tget [] s.bb.slots (bbSlot q)) ∧
    (mcRuns s = true → w.events = [(code, body)] → 1 ≤ code → code < 0x100 → Answers .windowClose s fun t =>
      t.bb.window.len = 0 ∧ t.bb.window.events = [] ∧
      ((∀ i, i < 2 * burst + 4 → kept i) → t.bb.committed = s.bb.committed + burst + 2 ∧ last t 5 code body)) ∧
    (mcRuns s = false ∨ (w.len < 1024 ∧ ∀ e ∈ w.events, 0x100 ≤ e.1) → exec .windowClose s = .next s)

/-- Telemetry as the running controller takes it (R150, Table 4.8): COUNTER_SNAPSHOT adds the rise of its seven counts since the last
from that stack, SAT_VANISH that of its format's six totals, EXP_HISTOGRAM keeps its format's flags, newest RUN_SEQ and 64 bins, and
LANE_HEALTH each lane's worst margin grade and highest FEC reading and the rise of the uncorrectable count. -/
def Obligations.TelemetryReachesTheBlackBox : Prop :=
  ∀ (s : State) (m : Msg) (rest : List Msg) (w : List Nat) (k l i : Nat),
    let f := lget 0 w 0
    let p := lget 0xFF w 0
    let b := lget 0xFF w (2 + l)
    let worst := totalOf s (4000 + 20 * p + l)
    let rise := fun (prev new : Nat) => if totalOf s prev ≤ new then new - totalOf s prev else new
    let takes := fun (c : Instr) (kind : Nat) (does : State → Prop) =>
      (mcRuns s = true → s.ws.tele = m :: rest → m.kind = kind → m.payload = .counts w → s.ws.held = [] →
        Answers c s fun t => t.ws.tele = rest ∧ t.bb.slots = s.bb.slots ∧ does t) ∧
      ((mcRuns s = false ∨ s.ws.tele = []) → exec c s = .next s)
    takes .counterSnapshot 0x11 (fun t => k < 7 →
      totalOf t k = totalOf s k + rise (10000 + 8 * m.source + k) (lget 0 w k) ∧
      totalOf t (10000 + 8 * m.source + k) = lget 0 w k) ∧
    takes .satVanish 0x13 (fun t => (k < 6 →
        totalOf t (16 * f + 16 + k) = totalOf s (16 * f + 16 + k) + rise (20000 + 16 * f + k) (lget 0 w (3 + k))) ∧
      totalOf t (16 * f + 24) = totalOf s (16 * f + 24) ||| lget 0 w 1) ∧
    takes .expHistogram 0x12 (fun t => totalOf t (16 * f + 24) = totalOf s (16 * f + 24) ||| lget 0 w 1 ∧
      totalOf t (16 * f + 25) = Nat.max (totalOf s (16 * f + 25)) (lget 0 w 2) ∧
      (i < 64 → totalOf t (16 * f + 26) / 2 ^ (6 * i) % 64 = lget 0 w (3 + i) % 64)) ∧
    takes .laneHealth 0x14 (fun t => p < 10 → lget 0xFF w 1 ≠ p → l < 20 →
      totalOf t (4600 + p) = totalOf s (4600 + p) + rise (30000 + p) (lget 0 w 42) ∧
      (b = 0xFF → totalOf t (4000 + 20 * p + l) = worst) ∧
      (b ≠ 0xFF → totalOf t (4300 + 20 * p + l) = Nat.max (totalOf s (4300 + 20 * p + l)) (b % 32) ∧
        totalOf t (4000 + 20 * p + l) = (if worst = 0 ∨ b / 32 + 1 < worst then b / 32 + 1 else worst)))

/-- The mailbox, the status bus and JTAG (R434, R454, R494, R497, R544): SENSOR_READ answers the reading of its index, and IDENTITY_READ
128 bytes of the identity record, zeros in BLANK, or an error of code 2 outside the range; the status block is read from its offset on
and wraps at 64; DBACC reads and writes the DB and SC blocks alone. -/
def Obligations.MailboxStatusBusAndJtag : Prop :=
  ∀ (s : State) (port addr n off : Nat) (b : Byte) (l : List Byte) (v : W64) (wr : Bool),
    let data := fun (u : State) (k : Nat) => tget 0 (mboxOf u port).data k
    let i := (data s 0).toNat
    let st := fun (t : State) => (mboxOf t port).status
    let ready := port < 2 ∧ served s 0x1000 = true ∧ (mboxOf s port).status.getLsbD 0 = false
    let other := fun (t : State) => mboxOf t (1 - port) = mboxOf s (1 - port) ∧ (st t).getLsbD 0 = false
    let failed := fun (t : State) => other t ∧ (st t).getLsbD 2 = true ∧ (st t).toNat / 256 % 256 = 2 ∧ ∀ k, data t k = data s k
    let answers := periodRuns s = true ∧ addr = 0x58 + s.rst.smbAddr
    let gives := fun (at_ : Nat) (t : State) => t.rst.smbOff = (at_ + n) % 64 ∧ t.mg = s.mg ∧
      t.env.smbus = s.env.smbus ++ [(List.range n).map fun j => lget 0 (statusBlock s) ((at_ + j) % 64)]
    (ready → i < 256 → Answers (.sensorRead port) s fun t => other t ∧ (st t).getLsbD 1 = true ∧
      data t 0 = BitVec.ofNat 64 (if i < 220 then word32 (tget 0 s.pw.sensors i) else 0x80000000) ∧ ∀ k, k ≠ 0 → data t k = data s k) ∧
    (ready → 256 ≤ i → Answers (.sensorRead port) s failed) ∧
    (ready → i % 128 = 0 → i < 5376 → Answers (.identityRead port) s fun t => other t ∧ (st t).getLsbD 1 = true ∧
      ∀ k, k < 16 → data t k = (if s.sc.lifecycle = 0 then 0 else BitVec.ofNat 64 (field Config.identityRecord (i + 8 * k) 8))) ∧
    (ready → (i % 128 ≠ 0 ∨ 5376 ≤ i) → Answers (.identityRead port) s failed) ∧
    (port < 2 → served s 0x1000 = false → exec (.sensorRead port) s = .next s ∧ exec (.identityRead port) s = .next s) ∧
    (answers → 1 ≤ n → Answers (.smbusAccess addr [b] n) s (gives (b.toNat % 64)) ∧
      Answers (.smbusAccess addr [] n) s (gives s.rst.smbOff)) ∧
    (¬ answers ∨ 2 ≤ l.length → exec (.smbusAccess addr l n) s = .next s) ∧
    (∀ wd x, s.pw.state ≠ .p4 → secured off = true → regAt s 0 off = some (wd, x) →
      exec (.jtagDbacc off true v) s = .next (regWrite 0 true off wd v s).1 ∧
      (off < 0xB08000 ∨ 0xC00000 ≤ off → exec (.jtagDbacc off false v) s =
        .next { s with env := { s.env with jtag := s.env.jtag ++ [BitVec.ofNat 64 x] } })) ∧
    (s.pw.state = .p4 ∨ secured off = false → exec (.jtagDbacc off wr v) s = .next s)

/-! ### Caravans -/

/-- Packets of a caravan at the engines (R342 to R348, R356, R363, R365, R557, Tables 11.3, 11.5): DATA is written to its place of the
output, or combined with this member's own units; READY lets the units that wait for its sender leave, once; DONE adds its sums, and the
last one carries this member on; COMMIT, ABORT and a coordinator's STATUS_REQ end the caravan and pass on down the tree; CYCLE notes a
cycle done. What comes before its time is parked, a packet that fits no caravan is counted, and one that fits an ended caravan's
coordinator is answered. -/
def Obligations.CaravanPacketsActByTheTable : Prop :=
  ∀ (s : State) (k : Packet) (r : List Packet) (c : Caravan) (j : Nat),
    let id := k.caravan
    let row : Nat → Instr := fun n => if n = 1 then .data else if n = 2 then .ready else if n = 3 then .done else if n = 4 then .commit
      else if n = 5 then .abort else if n = 6 then .statusReq else .cycle
    let head := fun (n : Nat) => s.lk.engq = k :: r ∧ k.sub = n
    let from_ := cvOf s id = some c ∧ c.ranks.findIdx? (fun x => x == k.src) = some j ∧ c.perm = none
    let live := fun (n : Nat) (st : CvState) => head n ∧ from_ ∧ k.check = c.check ∧ c.state = st
    let calm := c.role = .plain ∧ c.d.kind ≠ 5 ∧ ∀ q ∈ s.cl.parked, q.caravan ≠ id
    let now := fun (t : State) (c2 : Caravan) => t.lk.engq = r ∧ cvOf t id = some c2
    let ended := fun (t : State) (ok : Bool) (cause st esc poi : Nat) => t.lk.engq = r ∧ cvOf t id = none ∧
      (∃ e rest, t.cl.ended = e :: rest ∧ e.id = id ∧ e.check = c.check ∧ e.committed = ok ∧ e.cause = cause) ∧
      tget 0 t.cl.counts (if ok then 0 else 1) = tget 0 s.cl.counts (if ok then 0 else 1) + 1 ∧
      sentUp t = sentUp s ++
        [.completion c.handle st 0 [BitVec.ofNat 64 esc, BitVec.ofNat 64 poi, BitVec.ofNat 64 c.me]]
    let parks := fun (t : State) => t.cl.parked = s.cl.parked ++ [k] ∧ t.cl.caravans = s.cl.caravans ∧ t.lk.engq = r
    let counted := fun (t : State) => tget 0 t.cl.counts 4 = tget 0 s.cl.counts 4 + 1 ∧ t.cl.caravans = s.cl.caravans ∧
      t.cl.parked = s.cl.parked ∧ t.mem = s.mem
    let sends := fun (t : State) (rank : Nat) (ok : Packet → Prop) => ∃ q,
      (getPeer t rank).waiting = (getPeer s rank).waiting ++ [q] ∧ q.caravan = id ∧ q.dest = rank ∧ q.check = k.check ∧ ok q
    let only := fun (sub : Nat) (b : List Byte) (q : Packet) => q.sub = sub ∧ q.payload = b
    let unknown := cvOf s id = none ∧ ∀ e ∈ s.cl.ended, e.id ≠ id ∨ e.check ≠ k.check
    let off := dataFrom k
    let n := dataTo k - off
    let at_ := fun (a i : Nat) => a + 32 * off + i
    let fits := fun (a : Nat) => isMemory a = true ∧ deadSub s a = false
    let word := fun (l : List Byte) => leNat (l.take 8)
    let u := lget default c.contrib off
    let place := c.d.dst + 8 * (off - segStart c.d c.m c.me)
    let st := fun (b : List Byte) => if (field b 0 1).testBit 0 then 0x0200 else if (field b 0 1).testBit 1 then 4 else 0
    (∀ x, x = 1 ∨ x = 3 ∨ x = 4 → head x → unknown → Answers (row x) s counted) ∧
    (∀ x, x = 2 ∨ x = 5 ∨ x = 6 → head x → unknown → (x = 5 ∨ s.cl.lost = false) → s.cl.parked.length < 4096 →
      Answers (row x) s parks) ∧
    (∀ x, x = 1 ∨ x = 3 ∨ x = 4 ∨ x = 5 ∨ x = 6 → head x → cvOf s id = some c → k.check ≠ c.check → Answers (row x) s counted) ∧
    (head 2 → from_ → k.check ≠ c.check → calm → Answers .ready s fun t =>
      ended t false 3 (if isFenced s (lget 0 c.ranks c.coord) then 0x0300 else 0x0302) 0 0) ∧
    (∀ x, x = 2 ∨ x = 4 ∨ x = 6 → live x .opening → s.cl.parked.length < 4096 → Answers (row x) s parks) ∧
    (live 1 .running → c.role = .plain → 0 < n → k.payload.length = 32 * n → k.poison = [] → c.d.dst % 32 = 0 →
      (c.d.kind = 3 ∧ k.stage = 1 ∨ c.d.kind = 4 ∧ k.stage = 2) → (∀ i, i < 32 * n → fits (at_ c.d.dst i)) →
      Answers .data s fun t => t.lk.engq = r ∧ (∀ i, i < 32 * n → some (readByte t (at_ c.d.dst i)) = k.payload[i]?) ∧
        ∀ a, (a < at_ c.d.dst 0 ∨ at_ c.d.dst (32 * n) ≤ a) → readByte t a = readByte s a) ∧
    (live 1 .running → c.role = .plain → c.d.kind = 2 → (c.d.mode = 1 ∨ c.d.mode = 2) → k.stage = 0 → n = 1 →
      segOf c.d c.m off = c.me → k.payload.length = 8 → k.poison = [] → u.present = true → u.poison = false → u.bytes.length = 8 →
      c.d.dst % 32 = 0 → fits place → Answers .data s fun t => t.lk.engq = r ∧
        leNat (readBytes t place 8) = (if c.d.mode = 1 then (word k.payload + word u.bytes) % 2 ^ 64
                                       else Nat.max (word k.payload) (word u.bytes))) ∧
    (live 2 .running → c.toWrite ≠ 0 → j ∈ c.readyFrom → Answers .ready s fun t => now t c ∧ t.lk.peers = s.lk.peers) ∧
    (live 2 .running → c.toWrite ≠ 0 → j ∉ c.readyFrom → c.sends = [] → Answers .ready s fun t =>
      now t { c with readyFrom := c.readyFrom ++ [j] } ∧ t.lk.peers = s.lk.peers) ∧
    (∀ x v, live 2 .running → c.toWrite ≠ 0 → j ∉ c.readyFrom → c.sends = [x] → x.dst = j → x.units = [v] →
      x.off = unitBase c x.seg + tget 0 c.sent (sentKey j x.stage x.seg) → Answers .ready s fun t =>
        (∃ c2, now t c2 ∧ c2.sends = [] ∧ c2.unacked = c.unacked + 1 ∧ c2.toSend = c.toSend - 1) ∧
        sends t k.src fun q => q.sub = 1 ∧ q.stage = x.stage ∧ dataFrom q = x.off ∧ dataTo q = x.off + 1 ∧
          (isBsi c.d = false → q.payload = v.bytes)) ∧
    (live 3 .running → c.toWrite ≠ 0 → j ∈ c.children → Answers .done s fun t => t.lk.peers = s.lk.peers ∧
      now t (if j ∈ c.doneFrom then c
             else { c with doneFrom := c.doneFrom ++ [j], sums := TreeSum.add c.sums (sumOf k.payload) })) ∧
    (live 3 .running → calm → c.toWrite = 0 → c.toSend = 0 → c.sends = [] → c.unacked = 0 → c.children = [j] → c.doneFrom = [] →
      isFenced s k.src = false →
      let total := TreeSum.add c.sums (sumOf k.payload)
      (c.isCoord = true → Answers .done s fun t =>
        ended t true 0 (if total.poison then 0x0200 else if total.esc then 4 else 0) total.escBlocks total.poisonUnits ∧
        sends t k.src (only 4 (sumBytes total))) ∧
      (c.isCoord = false → Answers .done s fun t =>
        now t { c with doneFrom := [j], sums := total, state := .waiting } ∧ t.ws = s.ws ∧
        sends t (lget 0 c.ranks c.parent) (only 3 (sumBytes total)))) ∧
    (live 4 .waiting → calm → Answers .commit s fun t => ended t true 0 (st k.payload) (field k.payload 8 8) (field k.payload 16 8) ∧
      ∀ x, c.children = [x] → isFenced s (lget 0 c.ranks x) = false → sends t (lget 0 c.ranks x) (only 4 k.payload)) ∧
    (live 4 .running → c.toWrite ≠ 0 → Answers .commit s fun t => now t c ∧ t.ws = s.ws ∧ t.mem = s.mem) ∧
    (∀ state, live 5 state → calm → (j = c.parent ∨ c.isCoord = true) → Answers .abort s fun t =>
      ended t false (field k.payload 0 2) (abortStatus (field k.payload 0 2) (isFenced s (lget 0 c.ranks c.coord))) 0 0 ∧
      ∀ x, c.children = [x] → isFenced s (lget 0 c.ranks x) = false → sends t (lget 0 c.ranks x) (only 5 k.payload)) ∧
    (live 6 .running → calm → c.isCoord = true → Answers .statusReq s fun t =>
      ended t false (field k.payload 0 2) (abortStatus (field k.payload 0 2) (isFenced s (lget 0 c.ranks c.coord))) 0 0) ∧
    (live 6 .running → c.isCoord = false → c.toWrite ≠ 0 → Answers .statusReq s fun t => now t c ∧ t.ws = s.ws ∧ t.mem = s.mem) ∧
    (∀ e, head 6 → cvOf s id = none → s.cl.ended.find? (fun x => x.id == id && x.check == k.check) = some e → e.coordinator = true →
      e.ranks.findIdx? (fun x => x == k.src) = some j → Answers .statusReq s fun t => t.lk.engq = r ∧ t.cl.ended = s.cl.ended ∧
        sends t k.src fun q => q.sub = (if e.committed then 4 else 5) ∧ (e.committed = true → q.payload = sumBytes e.sums)) ∧
    (∀ p, head 7 → cvOf s id = some c → c.ranks.findIdx? (fun x => x == k.src) = some j → k.check = c.check → c.state = .running →
      c.perm = some p → p.rolling = false → c.isCoord = false → c.unacked ≠ 0 → p.waitStart = [] → k.offset < p.cycles.length →
      k.payload ≠ [] → askStage k ≠ 4 → k.offset ∉ p.done → k.offset ∉ p.undone → Answers .cycle s fun t => t.lk.engq = r ∧
        t.cl.rsDone = p.done.length + 1 ∧ ∃ c2 p2, cvOf t id = some c2 ∧ c2.perm = some p2 ∧ p2.done = p.done ++ [k.offset] ∧
          p2.saved = p.saved.filter (fun x => x != k.offset)) ∧
    (∀ n, 1 ≤ n → n ≤ 7 → s.lk.engq = [] → exec (row n) s = .next s)

/-- Posting, opening and timers of a caravan (R336, R337, R344 to R348, Tables 11.4, 11.5): a descriptor that passes every check is
live in OPENING, any other completes with its status and changes nothing else; a caravan opens in its order once its staging fits,
sends its READYs, and on a single member ends at once; READY is sent again to those whose DATA has not come; a timeout ends a caravan,
and in WAITING asks the coordinator first; the oldest parked packet of an ID is discarded. -/
def Obligations.CaravansOpenAndTimeOut : Prop :=
  ∀ (s : State) (id : Nat) (c : Caravan) (m : Msg) (rest : List Msg) (h : Nat) (d : CollDesc),
    let completes := fun (t : State) (handle st : Nat) (res : List W64) => sentUp t = sentUp s ++ [.completion handle st 0 res]
    let live := cvOf s id = some c
    let quiet := ∀ q ∈ s.cl.parked, q.caravan ≠ id
    let calm := c.role = .plain ∧ c.d.kind ≠ 5 ∧ c.perm = none ∧ quiet
    let sends := fun (t : State) (rank sub : Nat) => ∃ q, (getPeer t rank).waiting = (getPeer s rank).waiting ++ [q] ∧
      q.sub = sub ∧ q.caravan = id ∧ q.dest = rank ∧ q.check = c.check
    let ended := fun (t : State) (ok : Bool) (cause : Nat) => cvOf t id = none ∧
      ∃ e r, t.cl.ended = e :: r ∧ e.id = id ∧ e.committed = ok ∧ e.cause = cause
    let dead := fun (t : State) => ended t false 2 ∧ tget 0 t.cl.counts 1 = tget 0 s.cl.counts 1 + 1 ∧
      completes t c.handle (abortStatus 2 (isFenced s (lget 0 c.ranks c.coord))) [0, 0, BitVec.ofNat 64 c.me]
    let desc := s.ws.down = m :: rest ∧ m.kind = 4 ∧ m.payload = .collDesc h d ∧ longOpOf s h = none
    let refused := fun (st : Nat) => Answers .collDesc s fun t => sentDown t = (sentDown s).drop 1 ∧ completes t h st [] ∧
      t.cl = s.cl ∧ t.lk = s.lk ∧ t.mem.bytes = s.mem.bytes ∧ t.mem.poison = s.mem.poison
    let ready := live ∧ c.state = .opening ∧ id ∈ s.cl.order ∧ engaged s id = true
    let size := s.cl.stagingSize.toNat
    let fits := ready ∧ c.staging ≤ size ∧ c.staging + stagingBefore s id ≤ stagingFree s
    let len := 32 * c.d.count
    (∀ ranks me role, desc → checkDesc s d false = some (ranks, me) → ueClassify s d ranks.length = .inr role → cvOf s d.caravan = none →
      s.cl.caravans.length < 512 → (∀ q ∈ s.cl.parked, q.caravan ≠ d.caravan) → Answers .collDesc s fun t =>
        sentDown t = (sentDown s).drop 1 ∧ sentUp t = sentUp s ∧ t.lk = s.lk ∧ t.mem.bytes = s.mem.bytes ∧ ∃ c2, t.cl.caravans = s.cl.caravans ++ [c2] ∧ c2.d = d ∧ c2.handle = h ∧
          c2.ranks = ranks ∧ c2.me = me ∧ c2.role = role ∧ c2.state = .opening ∧ c2.check = cvCheck s d ranks) ∧
    (desc → checkDesc s d false = none → refused 0x0304) ∧
    (∀ ranks me st, desc → checkDesc s d false = some (ranks, me) → ueClassify s d ranks.length = .inl st → refused st) ∧
    (∀ ranks me role, desc → checkDesc s d false = some (ranks, me) → ueClassify s d ranks.length = .inr role →
      (cvOf s d.caravan ≠ none ∨ 512 ≤ s.cl.caravans.length) → refused 0x0305) ∧
    (s.ws.down = [] → exec .collDesc s = .next s) ∧
    (live → (c.state ≠ .opening ∨ id ∉ s.cl.order ∨ engaged s id = false) → exec (.caravanOpen id) s = .next s) ∧
    (ready → size < c.staging → c.d.kind ≠ 5 → Answers (.caravanOpen id) s fun t => cvOf t id = none ∧
      completes t c.handle 0x0306 [] ∧ t.cl.counts = s.cl.counts ∧ t.lk = s.lk ∧ t.mem = s.mem) ∧
    (ready → c.staging ≤ size → stagingFree s < c.staging + stagingBefore s id → exec (.caravanOpen id) s = .next s) ∧
    (fits → calm → c.d.kind = 4 → c.isCoord = false → c.d.count ≠ 0 → Answers (.caravanOpen id) s fun t =>
      (∃ c2, cvOf t id = some c2 ∧ c2.state = .running ∧ c2.toWrite = c.d.count ∧ c2.readySent = c.readySent ++ [c.parent]) ∧
      id ∉ t.cl.order ∧ sends t (lget 0 c.ranks c.parent) 2 ∧ t.mem = s.mem ∧ sentUp t = sentUp s) ∧
    (fits → calm → c.d.kind = 3 → c.ranks.length = 1 → c.me = 0 → c.sends = [] → c.unacked = 0 → c.sums = TreeSum.zero →
      c.d.src % 32 = 0 → c.d.dst % 32 = 0 → (c.d.src + len ≤ c.d.dst ∨ c.d.dst + len ≤ c.d.src) →
      (∀ i, i < len → readFaults s (c.d.src + i) = false) →
      (∀ i, i < len → isMemory (c.d.dst + i) = true ∧ deadSub s (c.d.dst + i) = false) →
      Answers (.caravanOpen id) s fun t => ended t true 0 ∧ completes t c.handle 0 [0, 0, 0] ∧ t.lk = s.lk ∧
        (∀ i, i < len → readByte t (c.d.dst + i) = readByte s (c.d.src + i)) ∧
        ∀ a, (a < c.d.dst ∨ c.d.dst + len ≤ a) → readByte t a = readByte s a) ∧
    (∀ j, live → c.state ≠ .opening → c.perm = none → c.readySent.filter (fun x => !c.dataFrom.contains x) = [j] →
      Answers (.readyResend id) s fun t => sends t (lget 0 c.ranks j) 2 ∧ t.cl.caravans = s.cl.caravans ∧
        tget 0 t.cl.counts 6 = tget 0 s.cl.counts 6 + 1) ∧
    (live → (c.state = .opening ∨ c.perm = none ∧ ∀ x ∈ c.readySent, x ∈ c.dataFrom) → exec (.readyResend id) s = .next s) ∧
    (live → calm → c.state = .opening → Answers (.caravanTimeout id) s fun t => dead t ∧ t.lk = s.lk) ∧
    (live → calm → c.state = .running → c.isCoord = false → Answers (.caravanTimeout id) s fun t => dead t ∧
      sends t (lget 0 c.ranks c.coord) 5) ∧
    (live → c.state = .waiting → c.statusAsked = false → Answers (.caravanTimeout id) s fun t =>
      cvOf t id = some { c with statusAsked := true } ∧ sends t (lget 0 c.ranks c.coord) 6 ∧ sentUp t = sentUp s) ∧
    (live → calm → c.state = .waiting → c.statusAsked = true → Answers (.caravanTimeout id) s dead) ∧
    (cvOf s id = none → exec (.caravanOpen id) s = .next s ∧ exec (.readyResend id) s = .next s ∧
      exec (.caravanTimeout id) s = .next s) ∧
    (∀ a k b, s.cl.parked = a ++ k :: b → (∀ q ∈ a, q.caravan ≠ id) → k.caravan = id → Answers (.parkedTimeout id) s fun t =>
      t.cl.parked = a ++ b ∧ tget 0 t.cl.counts 5 = tget 0 s.cl.counts 5 + 1 ∧ t.cl.caravans = s.cl.caravans) ∧
    (quiet → exec (.parkedTimeout id) s = .next s)

/-- The update engine (R385, R386, R392, R397, Table 12.3): the holder's write of UE_STEP starts an attempt unless a bucket, commit or
code caravan is live or the engine is busy; the attempt's start writes n, its complement and the MISSING counts to the step record and
zeros to the rest and to the code area, once no live caravan still has to read them; the end of the conversion leaves the code of every
channel in the scale array. -/
def Obligations.UpdateEngineStartsAttempts : Prop :=
  ∀ (s : State) (port : Nat) (v : W64) (b : Nat × Nat × Nat),
    let base := ueRecordBase s
    let words := ueRecordWords s
    let code := ueCodeBase s
    let codeLen := 8 * ueCodeWords s
    let word := fun (t : State) (i : Nat) => memWord t (base + 8 * i)
    let waits := ∃ c ∈ s.cl.caravans, c.state = .opening ∧ c.d.caravan ∈ s.ue.waitFor
    let k := bktAt s b.1
    let scales := k.scaleAddr + k.first / k.rowLen
    (port < 2 → s.cp.holder = port + 1 → ueLocked s = false → Answers (.ueStepWrite port v) s fun t =>
      t.ue.step = v.toNat % 2 ^ 32 ∧ t.ue.readCopy = v.getLsbD 32 ∧ t.ue.reinit = true ∧ t.ue.committed = [] ∧
      t.ue.codePosted = false ∧ t.mem = s.mem ∧ t.cl.caravans = s.cl.caravans) ∧
    (port < 2 → (s.cp.holder ≠ port + 1 ∨ ueLocked s = true) → exec (.ueStepWrite port v) s = .next s) ∧
    (s.ue.reinit = true → ¬ waits → base % 32 = 0 → code % 32 = 0 → 10 ≤ words → s.ue.step < 2 ^ 32 →
      (∀ j, fullMissing s j < 2 ^ 64) → (base + 8 * words ≤ code ∨ code + codeLen ≤ base) →
      (∀ i, i < 8 * words → readFaults s (base + i) = false) →
      (∀ i, i < codeLen → isMemory (code + i) = true ∧ deadSub s (code + i) = false) →
      Answers .attemptStart s fun t => t.ue = { s.ue with reinit := false, waitFor := [], chan := [] } ∧ word t 0 = s.ue.step ∧
        word t 1 = 2 ^ 64 - 1 - s.ue.step ∧ (∀ j, j < 8 → word t (2 + j) = fullMissing s j) ∧
        (∀ i, 10 ≤ i → i < words → word t i = 0) ∧ ∀ i, i < codeLen → readByte t (code + i) = 0) ∧
    (s.ue.reinit = false ∨ waits → exec .attemptStart s = .next s) ∧
    (s.ue.converting = true → s.ue.convert = [b] → scales + k.channels ≤ retainedBase → (∀ i, i < k.channels → deadSub s (scales + i) = false) →
      Answers .workingCopyDone s fun t => t.ue.converting = false ∧ t.ue.convert = [] ∧ t.ue.step = s.ue.step ∧
        t.ue.readCopy = s.ue.readCopy ∧ ∀ i, i < k.channels →
          readByte t (scales + i) = BitVec.ofNat 8 (weightScale k.fmt (reducedWord s k i) + 127).toNat) ∧
    (s.ue.converting = false → exec .workingCopyDone s = .next s)

/-! ### The whole machine -/

/-- Whatever command runs and whatever state it finds, a step keeps memory in its canonical form, the ten ports and their lanes, a
steward token with at most one holder, and a completion ring that never holds more unread records than its size (R262, R293, R410,
R413). -/
def Obligations.EveryStepKeepsTheForm : Prop := ∀ s t : State, InForm s → step s = .next t → InForm t

/-- Whatever command runs, no step leaves a port's data lasers commanded on while a copy of its shutdown line is asserted: the management
controller's, the safety monitor's or the latch's (R300, Table 10.3). -/
def Obligations.HeldPortsStayDark : Prop := ∀ s t : State, TenPorts s → HeldPortsDark s → step s = .next t → HeldPortsDark t

/-- Right after a cold reset the module is in that form, with no command waiting, bring-up before its step 1, the data plane off and
every data laser off, no steward, no port able to accept a command, memory as zeros, every port in DARK, the
registers named here at the Reset column of their tables, and the interfaces silent (R524, R528, Tables 10.10 to 10.18, 11.10, 13.17 to 13.20, 14.7 to 14.15, 18.2). -/
def Obligations.ResetStateIsAsTheSpecSays : Prop :=
  let r := State.reset
  InForm r ∧ HeldPortsDark r ∧ r.pending = [] ∧ r.rst.bringup = some (.cold, 1) ∧ r.rst.dataPlaneOn = false ∧
  r.rst.lasersPermitted = false ∧ (∀ a, readByte r a = 0) ∧ r.mem.ready = false ∧
  (∀ p, p < 10 → (getPort r p).state = .dark ∧ emits r p = false ∧ (getPort r p).cfg = 0x00641100 ∧ (getPort r p).egress = []) ∧
  (∀ port, canAccept r port = false ∧ (getCp r port).records = [] ∧ (getCp r port).events = [] ∧ (getCp r port).pend = [] ∧
    (getCp r port).cqEntries = 6 ∧ (getCp r port).cqTail = 0) ∧
  r.cp.holder = 0 ∧ r.lk.torus = 0xFFFF ∧ r.lk.e2e = 0x0010_0644_6000_0440 ∧ r.lk.epoch = 0 ∧ r.cl.cfg = 1000 ∧
  r.cl.caravans = [] ∧ r.ue.reinit = false ∧ r.ue.step = 0 ∧ r.pw.state = .p0 ∧ r.pw.commanded = 0 ∧ r.pw.limitW = 2000 ∧
  r.sf.failed = false ∧ r.sc.level = 0 ∧ r.db.ctrl = 0 ∧ r.fb.regions = [] ∧ r.env.replies = [] ∧ r.env.wire = [] ∧ r.env.msix = []
end

