-- ==== Sys2Proof/Laws/Bytes.lean ====
section
/-!
SUPPORT. Little-endian bytes: the length of a byte string written, and reading back what was written.
-/

namespace Sys2Proof.Machine

open Sys2Proof

@[simp] theorem leBytes_length : ∀ n v, (leBytes n v).length = n
  | 0, _ => rfl
  | n + 1, v => by simp [leBytes, leBytes_length n]

/-- A number read back from the bytes it was written in, less what they have no room for. -/
@[simp] theorem leNat_leBytes : ∀ n v, leNat (leBytes n v) = v % 256 ^ n
  | 0, v => by simp [leBytes, leNat, Nat.mod_one]
  | n + 1, v => by
    simp only [leBytes, leNat, leNat_leBytes n, BitVec.toNat_ofNat]
    have e : v % 256 ^ (n + 1) = v % 256 + 256 * (v / 256 % 256 ^ n) := by
      rw [Nat.pow_succ, Nat.mul_comm (256 ^ n)]
      exact Nat.mod_mul
    rw [e]

/-- A byte string is below 256 to its length. -/
theorem leNat_lt : ∀ l : List Byte, leNat l < 256 ^ l.length
  | [] => by simp [leNat]
  | b :: r => by
    have h := leNat_lt r
    have hb := b.isLt
    simp only [leNat, List.length_cons, Nat.pow_succ]
    omega

/-- The bytes of a number read from a byte string are the string. -/
@[simp] theorem leBytes_leNat : ∀ l : List Byte, leBytes l.length (leNat l) = l
  | [] => rfl
  | b :: r => by
    have hb := b.isLt
    simp only [leBytes, leNat, List.length_cons]
    have h1 : (b.toNat + 256 * leNat r) / 256 = leNat r := by omega
    rw [h1, leBytes_leNat r]
    congr 1
    apply BitVec.eq_of_toNat_eq
    simp only [BitVec.toNat_ofNat]
    omega

theorem padTo_length (n : Nat) (l : List Byte) : (padTo n l).length = n := by simp [padTo]

theorem slice_length (l : List Byte) (o n : Nat) : (slice l o n).length = n := padTo_length n _

/-- A field that follows `h` and stands in full reads as it was written. -/
theorem field_append (h : List Byte) (n v : Nat) : field (h ++ leBytes n v) h.length n = v % 256 ^ n := by
  simp [field, slice, padTo]

end Sys2Proof.Machine
end

