-- ==== Sys2Proof/Laws/State.lean ====
section
/-!
SUPPORT. Each named update of the state beside each field of it: what an update leaves alone.
-/

namespace Sys2Proof.Machine

open Sys2Proof

/-! ### `setCell` writes `cells` -/

@[simp] theorem setCell_pending (s : State) (i : Nat) (c : Cell) : (setCell s i c).pending = s.pending := rfl
@[simp] theorem setCell_freeCtr (s : State) (i : Nat) (c : Cell) : (setCell s i c).freeCtr = s.freeCtr := rfl
@[simp] theorem setCell_cores (s : State) (i : Nat) (c : Cell) : (setCell s i c).cores = s.cores := rfl
@[simp] theorem setCell_mem (s : State) (i : Nat) (c : Cell) : (setCell s i c).mem = s.mem := rfl
@[simp] theorem setCell_fb (s : State) (i : Nat) (c : Cell) : (setCell s i c).fb = s.fb := rfl
@[simp] theorem setCell_ws (s : State) (i : Nat) (c : Cell) : (setCell s i c).ws = s.ws := rfl
@[simp] theorem setCell_cp (s : State) (i : Nat) (c : Cell) : (setCell s i c).cp = s.cp := rfl
@[simp] theorem setCell_lk (s : State) (i : Nat) (c : Cell) : (setCell s i c).lk = s.lk := rfl
@[simp] theorem setCell_cl (s : State) (i : Nat) (c : Cell) : (setCell s i c).cl = s.cl := rfl
@[simp] theorem setCell_ue (s : State) (i : Nat) (c : Cell) : (setCell s i c).ue = s.ue := rfl
@[simp] theorem setCell_tw (s : State) (i : Nat) (c : Cell) : (setCell s i c).tw = s.tw := rfl
@[simp] theorem setCell_pw (s : State) (i : Nat) (c : Cell) : (setCell s i c).pw = s.pw := rfl
@[simp] theorem setCell_sf (s : State) (i : Nat) (c : Cell) : (setCell s i c).sf = s.sf := rfl
@[simp] theorem setCell_sc (s : State) (i : Nat) (c : Cell) : (setCell s i c).sc = s.sc := rfl
@[simp] theorem setCell_db (s : State) (i : Nat) (c : Cell) : (setCell s i c).db = s.db := rfl
@[simp] theorem setCell_bb (s : State) (i : Nat) (c : Cell) : (setCell s i c).bb = s.bb := rfl
@[simp] theorem setCell_mg (s : State) (i : Nat) (c : Cell) : (setCell s i c).mg = s.mg := rfl
@[simp] theorem setCell_rst (s : State) (i : Nat) (c : Cell) : (setCell s i c).rst = s.rst := rfl
@[simp] theorem setCell_env (s : State) (i : Nat) (c : Cell) : (setCell s i c).env = s.env := rfl

/-! ### `modCell` writes `cells` -/

@[simp] theorem modCell_pending (s : State) (i : Nat) (f : Cell → Cell) : (modCell s i f).pending = s.pending := rfl
@[simp] theorem modCell_freeCtr (s : State) (i : Nat) (f : Cell → Cell) : (modCell s i f).freeCtr = s.freeCtr := rfl
@[simp] theorem modCell_cores (s : State) (i : Nat) (f : Cell → Cell) : (modCell s i f).cores = s.cores := rfl
@[simp] theorem modCell_mem (s : State) (i : Nat) (f : Cell → Cell) : (modCell s i f).mem = s.mem := rfl
@[simp] theorem modCell_fb (s : State) (i : Nat) (f : Cell → Cell) : (modCell s i f).fb = s.fb := rfl
@[simp] theorem modCell_ws (s : State) (i : Nat) (f : Cell → Cell) : (modCell s i f).ws = s.ws := rfl
@[simp] theorem modCell_cp (s : State) (i : Nat) (f : Cell → Cell) : (modCell s i f).cp = s.cp := rfl
@[simp] theorem modCell_lk (s : State) (i : Nat) (f : Cell → Cell) : (modCell s i f).lk = s.lk := rfl
@[simp] theorem modCell_cl (s : State) (i : Nat) (f : Cell → Cell) : (modCell s i f).cl = s.cl := rfl
@[simp] theorem modCell_ue (s : State) (i : Nat) (f : Cell → Cell) : (modCell s i f).ue = s.ue := rfl
@[simp] theorem modCell_tw (s : State) (i : Nat) (f : Cell → Cell) : (modCell s i f).tw = s.tw := rfl
@[simp] theorem modCell_pw (s : State) (i : Nat) (f : Cell → Cell) : (modCell s i f).pw = s.pw := rfl
@[simp] theorem modCell_sf (s : State) (i : Nat) (f : Cell → Cell) : (modCell s i f).sf = s.sf := rfl
@[simp] theorem modCell_sc (s : State) (i : Nat) (f : Cell → Cell) : (modCell s i f).sc = s.sc := rfl
@[simp] theorem modCell_db (s : State) (i : Nat) (f : Cell → Cell) : (modCell s i f).db = s.db := rfl
@[simp] theorem modCell_bb (s : State) (i : Nat) (f : Cell → Cell) : (modCell s i f).bb = s.bb := rfl
@[simp] theorem modCell_mg (s : State) (i : Nat) (f : Cell → Cell) : (modCell s i f).mg = s.mg := rfl
@[simp] theorem modCell_rst (s : State) (i : Nat) (f : Cell → Cell) : (modCell s i f).rst = s.rst := rfl
@[simp] theorem modCell_env (s : State) (i : Nat) (f : Cell → Cell) : (modCell s i f).env = s.env := rfl

/-! ### `setCore` writes `cores` -/

@[simp] theorem setCore_pending (s : State) (i : Nat) (c : Core) : (setCore s i c).pending = s.pending := rfl
@[simp] theorem setCore_freeCtr (s : State) (i : Nat) (c : Core) : (setCore s i c).freeCtr = s.freeCtr := rfl
@[simp] theorem setCore_cells (s : State) (i : Nat) (c : Core) : (setCore s i c).cells = s.cells := rfl
@[simp] theorem setCore_mem (s : State) (i : Nat) (c : Core) : (setCore s i c).mem = s.mem := rfl
@[simp] theorem setCore_fb (s : State) (i : Nat) (c : Core) : (setCore s i c).fb = s.fb := rfl
@[simp] theorem setCore_ws (s : State) (i : Nat) (c : Core) : (setCore s i c).ws = s.ws := rfl
@[simp] theorem setCore_cp (s : State) (i : Nat) (c : Core) : (setCore s i c).cp = s.cp := rfl
@[simp] theorem setCore_lk (s : State) (i : Nat) (c : Core) : (setCore s i c).lk = s.lk := rfl
@[simp] theorem setCore_cl (s : State) (i : Nat) (c : Core) : (setCore s i c).cl = s.cl := rfl
@[simp] theorem setCore_ue (s : State) (i : Nat) (c : Core) : (setCore s i c).ue = s.ue := rfl
@[simp] theorem setCore_tw (s : State) (i : Nat) (c : Core) : (setCore s i c).tw = s.tw := rfl
@[simp] theorem setCore_pw (s : State) (i : Nat) (c : Core) : (setCore s i c).pw = s.pw := rfl
@[simp] theorem setCore_sf (s : State) (i : Nat) (c : Core) : (setCore s i c).sf = s.sf := rfl
@[simp] theorem setCore_sc (s : State) (i : Nat) (c : Core) : (setCore s i c).sc = s.sc := rfl
@[simp] theorem setCore_db (s : State) (i : Nat) (c : Core) : (setCore s i c).db = s.db := rfl
@[simp] theorem setCore_bb (s : State) (i : Nat) (c : Core) : (setCore s i c).bb = s.bb := rfl
@[simp] theorem setCore_mg (s : State) (i : Nat) (c : Core) : (setCore s i c).mg = s.mg := rfl
@[simp] theorem setCore_rst (s : State) (i : Nat) (c : Core) : (setCore s i c).rst = s.rst := rfl
@[simp] theorem setCore_env (s : State) (i : Nat) (c : Core) : (setCore s i c).env = s.env := rfl

/-! ### `modCore` writes `cores` -/

@[simp] theorem modCore_pending (s : State) (i : Nat) (f : Core → Core) : (modCore s i f).pending = s.pending := rfl
@[simp] theorem modCore_freeCtr (s : State) (i : Nat) (f : Core → Core) : (modCore s i f).freeCtr = s.freeCtr := rfl
@[simp] theorem modCore_cells (s : State) (i : Nat) (f : Core → Core) : (modCore s i f).cells = s.cells := rfl
@[simp] theorem modCore_mem (s : State) (i : Nat) (f : Core → Core) : (modCore s i f).mem = s.mem := rfl
@[simp] theorem modCore_fb (s : State) (i : Nat) (f : Core → Core) : (modCore s i f).fb = s.fb := rfl
@[simp] theorem modCore_ws (s : State) (i : Nat) (f : Core → Core) : (modCore s i f).ws = s.ws := rfl
@[simp] theorem modCore_cp (s : State) (i : Nat) (f : Core → Core) : (modCore s i f).cp = s.cp := rfl
@[simp] theorem modCore_lk (s : State) (i : Nat) (f : Core → Core) : (modCore s i f).lk = s.lk := rfl
@[simp] theorem modCore_cl (s : State) (i : Nat) (f : Core → Core) : (modCore s i f).cl = s.cl := rfl
@[simp] theorem modCore_ue (s : State) (i : Nat) (f : Core → Core) : (modCore s i f).ue = s.ue := rfl
@[simp] theorem modCore_tw (s : State) (i : Nat) (f : Core → Core) : (modCore s i f).tw = s.tw := rfl
@[simp] theorem modCore_pw (s : State) (i : Nat) (f : Core → Core) : (modCore s i f).pw = s.pw := rfl
@[simp] theorem modCore_sf (s : State) (i : Nat) (f : Core → Core) : (modCore s i f).sf = s.sf := rfl
@[simp] theorem modCore_sc (s : State) (i : Nat) (f : Core → Core) : (modCore s i f).sc = s.sc := rfl
@[simp] theorem modCore_db (s : State) (i : Nat) (f : Core → Core) : (modCore s i f).db = s.db := rfl
@[simp] theorem modCore_bb (s : State) (i : Nat) (f : Core → Core) : (modCore s i f).bb = s.bb := rfl
@[simp] theorem modCore_mg (s : State) (i : Nat) (f : Core → Core) : (modCore s i f).mg = s.mg := rfl
@[simp] theorem modCore_rst (s : State) (i : Nat) (f : Core → Core) : (modCore s i f).rst = s.rst := rfl
@[simp] theorem modCore_env (s : State) (i : Nat) (f : Core → Core) : (modCore s i f).env = s.env := rfl

/-! ### `setPort` writes `lk` -/

@[simp] theorem setPort_pending (s : State) (p : Nat) (v : Port) : (setPort s p v).pending = s.pending := rfl
@[simp] theorem setPort_freeCtr (s : State) (p : Nat) (v : Port) : (setPort s p v).freeCtr = s.freeCtr := rfl
@[simp] theorem setPort_cells (s : State) (p : Nat) (v : Port) : (setPort s p v).cells = s.cells := rfl
@[simp] theorem setPort_cores (s : State) (p : Nat) (v : Port) : (setPort s p v).cores = s.cores := rfl
@[simp] theorem setPort_mem (s : State) (p : Nat) (v : Port) : (setPort s p v).mem = s.mem := rfl
@[simp] theorem setPort_fb (s : State) (p : Nat) (v : Port) : (setPort s p v).fb = s.fb := rfl
@[simp] theorem setPort_ws (s : State) (p : Nat) (v : Port) : (setPort s p v).ws = s.ws := rfl
@[simp] theorem setPort_cp (s : State) (p : Nat) (v : Port) : (setPort s p v).cp = s.cp := rfl
@[simp] theorem setPort_cl (s : State) (p : Nat) (v : Port) : (setPort s p v).cl = s.cl := rfl
@[simp] theorem setPort_ue (s : State) (p : Nat) (v : Port) : (setPort s p v).ue = s.ue := rfl
@[simp] theorem setPort_tw (s : State) (p : Nat) (v : Port) : (setPort s p v).tw = s.tw := rfl
@[simp] theorem setPort_pw (s : State) (p : Nat) (v : Port) : (setPort s p v).pw = s.pw := rfl
@[simp] theorem setPort_sf (s : State) (p : Nat) (v : Port) : (setPort s p v).sf = s.sf := rfl
@[simp] theorem setPort_sc (s : State) (p : Nat) (v : Port) : (setPort s p v).sc = s.sc := rfl
@[simp] theorem setPort_db (s : State) (p : Nat) (v : Port) : (setPort s p v).db = s.db := rfl
@[simp] theorem setPort_bb (s : State) (p : Nat) (v : Port) : (setPort s p v).bb = s.bb := rfl
@[simp] theorem setPort_mg (s : State) (p : Nat) (v : Port) : (setPort s p v).mg = s.mg := rfl
@[simp] theorem setPort_rst (s : State) (p : Nat) (v : Port) : (setPort s p v).rst = s.rst := rfl
@[simp] theorem setPort_env (s : State) (p : Nat) (v : Port) : (setPort s p v).env = s.env := rfl

/-! ### `modPort` writes `lk` -/

@[simp] theorem modPort_pending (s : State) (p : Nat) (f : Port → Port) : (modPort s p f).pending = s.pending := rfl
@[simp] theorem modPort_freeCtr (s : State) (p : Nat) (f : Port → Port) : (modPort s p f).freeCtr = s.freeCtr := rfl
@[simp] theorem modPort_cells (s : State) (p : Nat) (f : Port → Port) : (modPort s p f).cells = s.cells := rfl
@[simp] theorem modPort_cores (s : State) (p : Nat) (f : Port → Port) : (modPort s p f).cores = s.cores := rfl
@[simp] theorem modPort_mem (s : State) (p : Nat) (f : Port → Port) : (modPort s p f).mem = s.mem := rfl
@[simp] theorem modPort_fb (s : State) (p : Nat) (f : Port → Port) : (modPort s p f).fb = s.fb := rfl
@[simp] theorem modPort_ws (s : State) (p : Nat) (f : Port → Port) : (modPort s p f).ws = s.ws := rfl
@[simp] theorem modPort_cp (s : State) (p : Nat) (f : Port → Port) : (modPort s p f).cp = s.cp := rfl
@[simp] theorem modPort_cl (s : State) (p : Nat) (f : Port → Port) : (modPort s p f).cl = s.cl := rfl
@[simp] theorem modPort_ue (s : State) (p : Nat) (f : Port → Port) : (modPort s p f).ue = s.ue := rfl
@[simp] theorem modPort_tw (s : State) (p : Nat) (f : Port → Port) : (modPort s p f).tw = s.tw := rfl
@[simp] theorem modPort_pw (s : State) (p : Nat) (f : Port → Port) : (modPort s p f).pw = s.pw := rfl
@[simp] theorem modPort_sf (s : State) (p : Nat) (f : Port → Port) : (modPort s p f).sf = s.sf := rfl
@[simp] theorem modPort_sc (s : State) (p : Nat) (f : Port → Port) : (modPort s p f).sc = s.sc := rfl
@[simp] theorem modPort_db (s : State) (p : Nat) (f : Port → Port) : (modPort s p f).db = s.db := rfl
@[simp] theorem modPort_bb (s : State) (p : Nat) (f : Port → Port) : (modPort s p f).bb = s.bb := rfl
@[simp] theorem modPort_mg (s : State) (p : Nat) (f : Port → Port) : (modPort s p f).mg = s.mg := rfl
@[simp] theorem modPort_rst (s : State) (p : Nat) (f : Port → Port) : (modPort s p f).rst = s.rst := rfl
@[simp] theorem modPort_env (s : State) (p : Nat) (f : Port → Port) : (modPort s p f).env = s.env := rfl

/-! ### `setPeer` writes `lk` -/

@[simp] theorem setPeer_pending (s : State) (r : Nat) (v : Peer) : (setPeer s r v).pending = s.pending := rfl
@[simp] theorem setPeer_freeCtr (s : State) (r : Nat) (v : Peer) : (setPeer s r v).freeCtr = s.freeCtr := rfl
@[simp] theorem setPeer_cells (s : State) (r : Nat) (v : Peer) : (setPeer s r v).cells = s.cells := rfl
@[simp] theorem setPeer_cores (s : State) (r : Nat) (v : Peer) : (setPeer s r v).cores = s.cores := rfl
@[simp] theorem setPeer_mem (s : State) (r : Nat) (v : Peer) : (setPeer s r v).mem = s.mem := rfl
@[simp] theorem setPeer_fb (s : State) (r : Nat) (v : Peer) : (setPeer s r v).fb = s.fb := rfl
@[simp] theorem setPeer_ws (s : State) (r : Nat) (v : Peer) : (setPeer s r v).ws = s.ws := rfl
@[simp] theorem setPeer_cp (s : State) (r : Nat) (v : Peer) : (setPeer s r v).cp = s.cp := rfl
@[simp] theorem setPeer_cl (s : State) (r : Nat) (v : Peer) : (setPeer s r v).cl = s.cl := rfl
@[simp] theorem setPeer_ue (s : State) (r : Nat) (v : Peer) : (setPeer s r v).ue = s.ue := rfl
@[simp] theorem setPeer_tw (s : State) (r : Nat) (v : Peer) : (setPeer s r v).tw = s.tw := rfl
@[simp] theorem setPeer_pw (s : State) (r : Nat) (v : Peer) : (setPeer s r v).pw = s.pw := rfl
@[simp] theorem setPeer_sf (s : State) (r : Nat) (v : Peer) : (setPeer s r v).sf = s.sf := rfl
@[simp] theorem setPeer_sc (s : State) (r : Nat) (v : Peer) : (setPeer s r v).sc = s.sc := rfl
@[simp] theorem setPeer_db (s : State) (r : Nat) (v : Peer) : (setPeer s r v).db = s.db := rfl
@[simp] theorem setPeer_bb (s : State) (r : Nat) (v : Peer) : (setPeer s r v).bb = s.bb := rfl
@[simp] theorem setPeer_mg (s : State) (r : Nat) (v : Peer) : (setPeer s r v).mg = s.mg := rfl
@[simp] theorem setPeer_rst (s : State) (r : Nat) (v : Peer) : (setPeer s r v).rst = s.rst := rfl
@[simp] theorem setPeer_env (s : State) (r : Nat) (v : Peer) : (setPeer s r v).env = s.env := rfl

/-! ### `modPeer` writes `lk` -/

@[simp] theorem modPeer_pending (s : State) (r : Nat) (f : Peer → Peer) : (modPeer s r f).pending = s.pending := rfl
@[simp] theorem modPeer_freeCtr (s : State) (r : Nat) (f : Peer → Peer) : (modPeer s r f).freeCtr = s.freeCtr := rfl
@[simp] theorem modPeer_cells (s : State) (r : Nat) (f : Peer → Peer) : (modPeer s r f).cells = s.cells := rfl
@[simp] theorem modPeer_cores (s : State) (r : Nat) (f : Peer → Peer) : (modPeer s r f).cores = s.cores := rfl
@[simp] theorem modPeer_mem (s : State) (r : Nat) (f : Peer → Peer) : (modPeer s r f).mem = s.mem := rfl
@[simp] theorem modPeer_fb (s : State) (r : Nat) (f : Peer → Peer) : (modPeer s r f).fb = s.fb := rfl
@[simp] theorem modPeer_ws (s : State) (r : Nat) (f : Peer → Peer) : (modPeer s r f).ws = s.ws := rfl
@[simp] theorem modPeer_cp (s : State) (r : Nat) (f : Peer → Peer) : (modPeer s r f).cp = s.cp := rfl
@[simp] theorem modPeer_cl (s : State) (r : Nat) (f : Peer → Peer) : (modPeer s r f).cl = s.cl := rfl
@[simp] theorem modPeer_ue (s : State) (r : Nat) (f : Peer → Peer) : (modPeer s r f).ue = s.ue := rfl
@[simp] theorem modPeer_tw (s : State) (r : Nat) (f : Peer → Peer) : (modPeer s r f).tw = s.tw := rfl
@[simp] theorem modPeer_pw (s : State) (r : Nat) (f : Peer → Peer) : (modPeer s r f).pw = s.pw := rfl
@[simp] theorem modPeer_sf (s : State) (r : Nat) (f : Peer → Peer) : (modPeer s r f).sf = s.sf := rfl
@[simp] theorem modPeer_sc (s : State) (r : Nat) (f : Peer → Peer) : (modPeer s r f).sc = s.sc := rfl
@[simp] theorem modPeer_db (s : State) (r : Nat) (f : Peer → Peer) : (modPeer s r f).db = s.db := rfl
@[simp] theorem modPeer_bb (s : State) (r : Nat) (f : Peer → Peer) : (modPeer s r f).bb = s.bb := rfl
@[simp] theorem modPeer_mg (s : State) (r : Nat) (f : Peer → Peer) : (modPeer s r f).mg = s.mg := rfl
@[simp] theorem modPeer_rst (s : State) (r : Nat) (f : Peer → Peer) : (modPeer s r f).rst = s.rst := rfl
@[simp] theorem modPeer_env (s : State) (r : Nat) (f : Peer → Peer) : (modPeer s r f).env = s.env := rfl

/-! ### `countDrop` writes `lk` -/

@[simp] theorem countDrop_pending (k : Nat) (s : State) : (countDrop k s).pending = s.pending := rfl
@[simp] theorem countDrop_freeCtr (k : Nat) (s : State) : (countDrop k s).freeCtr = s.freeCtr := rfl
@[simp] theorem countDrop_cells (k : Nat) (s : State) : (countDrop k s).cells = s.cells := rfl
@[simp] theorem countDrop_cores (k : Nat) (s : State) : (countDrop k s).cores = s.cores := rfl
@[simp] theorem countDrop_mem (k : Nat) (s : State) : (countDrop k s).mem = s.mem := rfl
@[simp] theorem countDrop_fb (k : Nat) (s : State) : (countDrop k s).fb = s.fb := rfl
@[simp] theorem countDrop_ws (k : Nat) (s : State) : (countDrop k s).ws = s.ws := rfl
@[simp] theorem countDrop_cp (k : Nat) (s : State) : (countDrop k s).cp = s.cp := rfl
@[simp] theorem countDrop_cl (k : Nat) (s : State) : (countDrop k s).cl = s.cl := rfl
@[simp] theorem countDrop_ue (k : Nat) (s : State) : (countDrop k s).ue = s.ue := rfl
@[simp] theorem countDrop_tw (k : Nat) (s : State) : (countDrop k s).tw = s.tw := rfl
@[simp] theorem countDrop_pw (k : Nat) (s : State) : (countDrop k s).pw = s.pw := rfl
@[simp] theorem countDrop_sf (k : Nat) (s : State) : (countDrop k s).sf = s.sf := rfl
@[simp] theorem countDrop_sc (k : Nat) (s : State) : (countDrop k s).sc = s.sc := rfl
@[simp] theorem countDrop_db (k : Nat) (s : State) : (countDrop k s).db = s.db := rfl
@[simp] theorem countDrop_bb (k : Nat) (s : State) : (countDrop k s).bb = s.bb := rfl
@[simp] theorem countDrop_mg (k : Nat) (s : State) : (countDrop k s).mg = s.mg := rfl
@[simp] theorem countDrop_rst (k : Nat) (s : State) : (countDrop k s).rst = s.rst := rfl
@[simp] theorem countDrop_env (k : Nat) (s : State) : (countDrop k s).env = s.env := rfl

/-! ### `popRx` writes `lk` -/

@[simp] theorem popRx_pending (s : State) : (popRx s).pending = s.pending := rfl
@[simp] theorem popRx_freeCtr (s : State) : (popRx s).freeCtr = s.freeCtr := rfl
@[simp] theorem popRx_cells (s : State) : (popRx s).cells = s.cells := rfl
@[simp] theorem popRx_cores (s : State) : (popRx s).cores = s.cores := rfl
@[simp] theorem popRx_mem (s : State) : (popRx s).mem = s.mem := rfl
@[simp] theorem popRx_fb (s : State) : (popRx s).fb = s.fb := rfl
@[simp] theorem popRx_ws (s : State) : (popRx s).ws = s.ws := rfl
@[simp] theorem popRx_cp (s : State) : (popRx s).cp = s.cp := rfl
@[simp] theorem popRx_cl (s : State) : (popRx s).cl = s.cl := rfl
@[simp] theorem popRx_ue (s : State) : (popRx s).ue = s.ue := rfl
@[simp] theorem popRx_tw (s : State) : (popRx s).tw = s.tw := rfl
@[simp] theorem popRx_pw (s : State) : (popRx s).pw = s.pw := rfl
@[simp] theorem popRx_sf (s : State) : (popRx s).sf = s.sf := rfl
@[simp] theorem popRx_sc (s : State) : (popRx s).sc = s.sc := rfl
@[simp] theorem popRx_db (s : State) : (popRx s).db = s.db := rfl
@[simp] theorem popRx_bb (s : State) : (popRx s).bb = s.bb := rfl
@[simp] theorem popRx_mg (s : State) : (popRx s).mg = s.mg := rfl
@[simp] theorem popRx_rst (s : State) : (popRx s).rst = s.rst := rfl
@[simp] theorem popRx_env (s : State) : (popRx s).env = s.env := rfl

/-! ### `setCp` writes `cp` -/

@[simp] theorem setCp_pending (s : State) (p : Nat) (v : PortCp) : (setCp s p v).pending = s.pending := rfl
@[simp] theorem setCp_freeCtr (s : State) (p : Nat) (v : PortCp) : (setCp s p v).freeCtr = s.freeCtr := rfl
@[simp] theorem setCp_cells (s : State) (p : Nat) (v : PortCp) : (setCp s p v).cells = s.cells := rfl
@[simp] theorem setCp_cores (s : State) (p : Nat) (v : PortCp) : (setCp s p v).cores = s.cores := rfl
@[simp] theorem setCp_mem (s : State) (p : Nat) (v : PortCp) : (setCp s p v).mem = s.mem := rfl
@[simp] theorem setCp_fb (s : State) (p : Nat) (v : PortCp) : (setCp s p v).fb = s.fb := rfl
@[simp] theorem setCp_ws (s : State) (p : Nat) (v : PortCp) : (setCp s p v).ws = s.ws := rfl
@[simp] theorem setCp_lk (s : State) (p : Nat) (v : PortCp) : (setCp s p v).lk = s.lk := rfl
@[simp] theorem setCp_cl (s : State) (p : Nat) (v : PortCp) : (setCp s p v).cl = s.cl := rfl
@[simp] theorem setCp_ue (s : State) (p : Nat) (v : PortCp) : (setCp s p v).ue = s.ue := rfl
@[simp] theorem setCp_tw (s : State) (p : Nat) (v : PortCp) : (setCp s p v).tw = s.tw := rfl
@[simp] theorem setCp_pw (s : State) (p : Nat) (v : PortCp) : (setCp s p v).pw = s.pw := rfl
@[simp] theorem setCp_sf (s : State) (p : Nat) (v : PortCp) : (setCp s p v).sf = s.sf := rfl
@[simp] theorem setCp_sc (s : State) (p : Nat) (v : PortCp) : (setCp s p v).sc = s.sc := rfl
@[simp] theorem setCp_db (s : State) (p : Nat) (v : PortCp) : (setCp s p v).db = s.db := rfl
@[simp] theorem setCp_bb (s : State) (p : Nat) (v : PortCp) : (setCp s p v).bb = s.bb := rfl
@[simp] theorem setCp_mg (s : State) (p : Nat) (v : PortCp) : (setCp s p v).mg = s.mg := rfl
@[simp] theorem setCp_rst (s : State) (p : Nat) (v : PortCp) : (setCp s p v).rst = s.rst := rfl
@[simp] theorem setCp_env (s : State) (p : Nat) (v : PortCp) : (setCp s p v).env = s.env := rfl

/-! ### `modCp` writes `cp` -/

@[simp] theorem modCp_pending (s : State) (p : Nat) (f : PortCp → PortCp) : (modCp s p f).pending = s.pending := rfl
@[simp] theorem modCp_freeCtr (s : State) (p : Nat) (f : PortCp → PortCp) : (modCp s p f).freeCtr = s.freeCtr := rfl
@[simp] theorem modCp_cells (s : State) (p : Nat) (f : PortCp → PortCp) : (modCp s p f).cells = s.cells := rfl
@[simp] theorem modCp_cores (s : State) (p : Nat) (f : PortCp → PortCp) : (modCp s p f).cores = s.cores := rfl
@[simp] theorem modCp_mem (s : State) (p : Nat) (f : PortCp → PortCp) : (modCp s p f).mem = s.mem := rfl
@[simp] theorem modCp_fb (s : State) (p : Nat) (f : PortCp → PortCp) : (modCp s p f).fb = s.fb := rfl
@[simp] theorem modCp_ws (s : State) (p : Nat) (f : PortCp → PortCp) : (modCp s p f).ws = s.ws := rfl
@[simp] theorem modCp_lk (s : State) (p : Nat) (f : PortCp → PortCp) : (modCp s p f).lk = s.lk := rfl
@[simp] theorem modCp_cl (s : State) (p : Nat) (f : PortCp → PortCp) : (modCp s p f).cl = s.cl := rfl
@[simp] theorem modCp_ue (s : State) (p : Nat) (f : PortCp → PortCp) : (modCp s p f).ue = s.ue := rfl
@[simp] theorem modCp_tw (s : State) (p : Nat) (f : PortCp → PortCp) : (modCp s p f).tw = s.tw := rfl
@[simp] theorem modCp_pw (s : State) (p : Nat) (f : PortCp → PortCp) : (modCp s p f).pw = s.pw := rfl
@[simp] theorem modCp_sf (s : State) (p : Nat) (f : PortCp → PortCp) : (modCp s p f).sf = s.sf := rfl
@[simp] theorem modCp_sc (s : State) (p : Nat) (f : PortCp → PortCp) : (modCp s p f).sc = s.sc := rfl
@[simp] theorem modCp_db (s : State) (p : Nat) (f : PortCp → PortCp) : (modCp s p f).db = s.db := rfl
@[simp] theorem modCp_bb (s : State) (p : Nat) (f : PortCp → PortCp) : (modCp s p f).bb = s.bb := rfl
@[simp] theorem modCp_mg (s : State) (p : Nat) (f : PortCp → PortCp) : (modCp s p f).mg = s.mg := rfl
@[simp] theorem modCp_rst (s : State) (p : Nat) (f : PortCp → PortCp) : (modCp s p f).rst = s.rst := rfl
@[simp] theorem modCp_env (s : State) (p : Nat) (f : PortCp → PortCp) : (modCp s p f).env = s.env := rfl

/-! ### `countCpFault` writes `cp` -/

@[simp] theorem countCpFault_pending (s : State) (p k : Nat) : (countCpFault s p k).pending = s.pending := rfl
@[simp] theorem countCpFault_freeCtr (s : State) (p k : Nat) : (countCpFault s p k).freeCtr = s.freeCtr := rfl
@[simp] theorem countCpFault_cells (s : State) (p k : Nat) : (countCpFault s p k).cells = s.cells := rfl
@[simp] theorem countCpFault_cores (s : State) (p k : Nat) : (countCpFault s p k).cores = s.cores := rfl
@[simp] theorem countCpFault_mem (s : State) (p k : Nat) : (countCpFault s p k).mem = s.mem := rfl
@[simp] theorem countCpFault_fb (s : State) (p k : Nat) : (countCpFault s p k).fb = s.fb := rfl
@[simp] theorem countCpFault_ws (s : State) (p k : Nat) : (countCpFault s p k).ws = s.ws := rfl
@[simp] theorem countCpFault_lk (s : State) (p k : Nat) : (countCpFault s p k).lk = s.lk := rfl
@[simp] theorem countCpFault_cl (s : State) (p k : Nat) : (countCpFault s p k).cl = s.cl := rfl
@[simp] theorem countCpFault_ue (s : State) (p k : Nat) : (countCpFault s p k).ue = s.ue := rfl
@[simp] theorem countCpFault_tw (s : State) (p k : Nat) : (countCpFault s p k).tw = s.tw := rfl
@[simp] theorem countCpFault_pw (s : State) (p k : Nat) : (countCpFault s p k).pw = s.pw := rfl
@[simp] theorem countCpFault_sf (s : State) (p k : Nat) : (countCpFault s p k).sf = s.sf := rfl
@[simp] theorem countCpFault_sc (s : State) (p k : Nat) : (countCpFault s p k).sc = s.sc := rfl
@[simp] theorem countCpFault_db (s : State) (p k : Nat) : (countCpFault s p k).db = s.db := rfl
@[simp] theorem countCpFault_bb (s : State) (p k : Nat) : (countCpFault s p k).bb = s.bb := rfl
@[simp] theorem countCpFault_mg (s : State) (p k : Nat) : (countCpFault s p k).mg = s.mg := rfl
@[simp] theorem countCpFault_rst (s : State) (p k : Nat) : (countCpFault s p k).rst = s.rst := rfl
@[simp] theorem countCpFault_env (s : State) (p k : Nat) : (countCpFault s p k).env = s.env := rfl

/-! ### `rememberLong` writes `cp` -/

@[simp] theorem rememberLong_pending (h st : Nat) (s : State) : (rememberLong h st s).pending = s.pending := rfl
@[simp] theorem rememberLong_freeCtr (h st : Nat) (s : State) : (rememberLong h st s).freeCtr = s.freeCtr := rfl
@[simp] theorem rememberLong_cells (h st : Nat) (s : State) : (rememberLong h st s).cells = s.cells := rfl
@[simp] theorem rememberLong_cores (h st : Nat) (s : State) : (rememberLong h st s).cores = s.cores := rfl
@[simp] theorem rememberLong_mem (h st : Nat) (s : State) : (rememberLong h st s).mem = s.mem := rfl
@[simp] theorem rememberLong_fb (h st : Nat) (s : State) : (rememberLong h st s).fb = s.fb := rfl
@[simp] theorem rememberLong_ws (h st : Nat) (s : State) : (rememberLong h st s).ws = s.ws := rfl
@[simp] theorem rememberLong_lk (h st : Nat) (s : State) : (rememberLong h st s).lk = s.lk := rfl
@[simp] theorem rememberLong_cl (h st : Nat) (s : State) : (rememberLong h st s).cl = s.cl := rfl
@[simp] theorem rememberLong_ue (h st : Nat) (s : State) : (rememberLong h st s).ue = s.ue := rfl
@[simp] theorem rememberLong_tw (h st : Nat) (s : State) : (rememberLong h st s).tw = s.tw := rfl
@[simp] theorem rememberLong_pw (h st : Nat) (s : State) : (rememberLong h st s).pw = s.pw := rfl
@[simp] theorem rememberLong_sf (h st : Nat) (s : State) : (rememberLong h st s).sf = s.sf := rfl
@[simp] theorem rememberLong_sc (h st : Nat) (s : State) : (rememberLong h st s).sc = s.sc := rfl
@[simp] theorem rememberLong_db (h st : Nat) (s : State) : (rememberLong h st s).db = s.db := rfl
@[simp] theorem rememberLong_bb (h st : Nat) (s : State) : (rememberLong h st s).bb = s.bb := rfl
@[simp] theorem rememberLong_mg (h st : Nat) (s : State) : (rememberLong h st s).mg = s.mg := rfl
@[simp] theorem rememberLong_rst (h st : Nat) (s : State) : (rememberLong h st s).rst = s.rst := rfl
@[simp] theorem rememberLong_env (h st : Nat) (s : State) : (rememberLong h st s).env = s.env := rfl

/-! ### `modLong` writes `cp` -/

@[simp] theorem modLong_pending (s : State) (h : Nat) (f : LongOp → LongOp) : (modLong s h f).pending = s.pending := rfl
@[simp] theorem modLong_freeCtr (s : State) (h : Nat) (f : LongOp → LongOp) : (modLong s h f).freeCtr = s.freeCtr := rfl
@[simp] theorem modLong_cells (s : State) (h : Nat) (f : LongOp → LongOp) : (modLong s h f).cells = s.cells := rfl
@[simp] theorem modLong_cores (s : State) (h : Nat) (f : LongOp → LongOp) : (modLong s h f).cores = s.cores := rfl
@[simp] theorem modLong_mem (s : State) (h : Nat) (f : LongOp → LongOp) : (modLong s h f).mem = s.mem := rfl
@[simp] theorem modLong_fb (s : State) (h : Nat) (f : LongOp → LongOp) : (modLong s h f).fb = s.fb := rfl
@[simp] theorem modLong_ws (s : State) (h : Nat) (f : LongOp → LongOp) : (modLong s h f).ws = s.ws := rfl
@[simp] theorem modLong_lk (s : State) (h : Nat) (f : LongOp → LongOp) : (modLong s h f).lk = s.lk := rfl
@[simp] theorem modLong_cl (s : State) (h : Nat) (f : LongOp → LongOp) : (modLong s h f).cl = s.cl := rfl
@[simp] theorem modLong_ue (s : State) (h : Nat) (f : LongOp → LongOp) : (modLong s h f).ue = s.ue := rfl
@[simp] theorem modLong_tw (s : State) (h : Nat) (f : LongOp → LongOp) : (modLong s h f).tw = s.tw := rfl
@[simp] theorem modLong_pw (s : State) (h : Nat) (f : LongOp → LongOp) : (modLong s h f).pw = s.pw := rfl
@[simp] theorem modLong_sf (s : State) (h : Nat) (f : LongOp → LongOp) : (modLong s h f).sf = s.sf := rfl
@[simp] theorem modLong_sc (s : State) (h : Nat) (f : LongOp → LongOp) : (modLong s h f).sc = s.sc := rfl
@[simp] theorem modLong_db (s : State) (h : Nat) (f : LongOp → LongOp) : (modLong s h f).db = s.db := rfl
@[simp] theorem modLong_bb (s : State) (h : Nat) (f : LongOp → LongOp) : (modLong s h f).bb = s.bb := rfl
@[simp] theorem modLong_mg (s : State) (h : Nat) (f : LongOp → LongOp) : (modLong s h f).mg = s.mg := rfl
@[simp] theorem modLong_rst (s : State) (h : Nat) (f : LongOp → LongOp) : (modLong s h f).rst = s.rst := rfl
@[simp] theorem modLong_env (s : State) (h : Nat) (f : LongOp → LongOp) : (modLong s h f).env = s.env := rfl

/-! ### `drawFree` writes `freeCtr` -/

@[simp] theorem drawFree_pending (s : State) : (drawFree s).2.pending = s.pending := rfl
@[simp] theorem drawFree_cells (s : State) : (drawFree s).2.cells = s.cells := rfl
@[simp] theorem drawFree_cores (s : State) : (drawFree s).2.cores = s.cores := rfl
@[simp] theorem drawFree_mem (s : State) : (drawFree s).2.mem = s.mem := rfl
@[simp] theorem drawFree_fb (s : State) : (drawFree s).2.fb = s.fb := rfl
@[simp] theorem drawFree_ws (s : State) : (drawFree s).2.ws = s.ws := rfl
@[simp] theorem drawFree_cp (s : State) : (drawFree s).2.cp = s.cp := rfl
@[simp] theorem drawFree_lk (s : State) : (drawFree s).2.lk = s.lk := rfl
@[simp] theorem drawFree_cl (s : State) : (drawFree s).2.cl = s.cl := rfl
@[simp] theorem drawFree_ue (s : State) : (drawFree s).2.ue = s.ue := rfl
@[simp] theorem drawFree_tw (s : State) : (drawFree s).2.tw = s.tw := rfl
@[simp] theorem drawFree_pw (s : State) : (drawFree s).2.pw = s.pw := rfl
@[simp] theorem drawFree_sf (s : State) : (drawFree s).2.sf = s.sf := rfl
@[simp] theorem drawFree_sc (s : State) : (drawFree s).2.sc = s.sc := rfl
@[simp] theorem drawFree_db (s : State) : (drawFree s).2.db = s.db := rfl
@[simp] theorem drawFree_bb (s : State) : (drawFree s).2.bb = s.bb := rfl
@[simp] theorem drawFree_mg (s : State) : (drawFree s).2.mg = s.mg := rfl
@[simp] theorem drawFree_rst (s : State) : (drawFree s).2.rst = s.rst := rfl
@[simp] theorem drawFree_env (s : State) : (drawFree s).2.env = s.env := rfl

/-! ### `writeByte` writes `mem` -/

@[simp] theorem writeByte_pending (s : State) (a : Nat) (b : Byte) : (writeByte s a b).pending = s.pending := rfl
@[simp] theorem writeByte_freeCtr (s : State) (a : Nat) (b : Byte) : (writeByte s a b).freeCtr = s.freeCtr := rfl
@[simp] theorem writeByte_cells (s : State) (a : Nat) (b : Byte) : (writeByte s a b).cells = s.cells := rfl
@[simp] theorem writeByte_cores (s : State) (a : Nat) (b : Byte) : (writeByte s a b).cores = s.cores := rfl
@[simp] theorem writeByte_fb (s : State) (a : Nat) (b : Byte) : (writeByte s a b).fb = s.fb := rfl
@[simp] theorem writeByte_ws (s : State) (a : Nat) (b : Byte) : (writeByte s a b).ws = s.ws := rfl
@[simp] theorem writeByte_cp (s : State) (a : Nat) (b : Byte) : (writeByte s a b).cp = s.cp := rfl
@[simp] theorem writeByte_lk (s : State) (a : Nat) (b : Byte) : (writeByte s a b).lk = s.lk := rfl
@[simp] theorem writeByte_cl (s : State) (a : Nat) (b : Byte) : (writeByte s a b).cl = s.cl := rfl
@[simp] theorem writeByte_ue (s : State) (a : Nat) (b : Byte) : (writeByte s a b).ue = s.ue := rfl
@[simp] theorem writeByte_tw (s : State) (a : Nat) (b : Byte) : (writeByte s a b).tw = s.tw := rfl
@[simp] theorem writeByte_pw (s : State) (a : Nat) (b : Byte) : (writeByte s a b).pw = s.pw := rfl
@[simp] theorem writeByte_sf (s : State) (a : Nat) (b : Byte) : (writeByte s a b).sf = s.sf := rfl
@[simp] theorem writeByte_sc (s : State) (a : Nat) (b : Byte) : (writeByte s a b).sc = s.sc := rfl
@[simp] theorem writeByte_db (s : State) (a : Nat) (b : Byte) : (writeByte s a b).db = s.db := rfl
@[simp] theorem writeByte_bb (s : State) (a : Nat) (b : Byte) : (writeByte s a b).bb = s.bb := rfl
@[simp] theorem writeByte_mg (s : State) (a : Nat) (b : Byte) : (writeByte s a b).mg = s.mg := rfl
@[simp] theorem writeByte_rst (s : State) (a : Nat) (b : Byte) : (writeByte s a b).rst = s.rst := rfl
@[simp] theorem writeByte_env (s : State) (a : Nat) (b : Byte) : (writeByte s a b).env = s.env := rfl

/-! ### `setSectorPoison` writes `mem` -/

@[simp] theorem setSectorPoison_pending (s : State) (a : Nat) (v : Bool) : (setSectorPoison s a v).pending = s.pending := rfl
@[simp] theorem setSectorPoison_freeCtr (s : State) (a : Nat) (v : Bool) : (setSectorPoison s a v).freeCtr = s.freeCtr := rfl
@[simp] theorem setSectorPoison_cells (s : State) (a : Nat) (v : Bool) : (setSectorPoison s a v).cells = s.cells := rfl
@[simp] theorem setSectorPoison_cores (s : State) (a : Nat) (v : Bool) : (setSectorPoison s a v).cores = s.cores := rfl
@[simp] theorem setSectorPoison_fb (s : State) (a : Nat) (v : Bool) : (setSectorPoison s a v).fb = s.fb := rfl
@[simp] theorem setSectorPoison_ws (s : State) (a : Nat) (v : Bool) : (setSectorPoison s a v).ws = s.ws := rfl
@[simp] theorem setSectorPoison_cp (s : State) (a : Nat) (v : Bool) : (setSectorPoison s a v).cp = s.cp := rfl
@[simp] theorem setSectorPoison_lk (s : State) (a : Nat) (v : Bool) : (setSectorPoison s a v).lk = s.lk := rfl
@[simp] theorem setSectorPoison_cl (s : State) (a : Nat) (v : Bool) : (setSectorPoison s a v).cl = s.cl := rfl
@[simp] theorem setSectorPoison_ue (s : State) (a : Nat) (v : Bool) : (setSectorPoison s a v).ue = s.ue := rfl
@[simp] theorem setSectorPoison_tw (s : State) (a : Nat) (v : Bool) : (setSectorPoison s a v).tw = s.tw := rfl
@[simp] theorem setSectorPoison_pw (s : State) (a : Nat) (v : Bool) : (setSectorPoison s a v).pw = s.pw := rfl
@[simp] theorem setSectorPoison_sf (s : State) (a : Nat) (v : Bool) : (setSectorPoison s a v).sf = s.sf := rfl
@[simp] theorem setSectorPoison_sc (s : State) (a : Nat) (v : Bool) : (setSectorPoison s a v).sc = s.sc := rfl
@[simp] theorem setSectorPoison_db (s : State) (a : Nat) (v : Bool) : (setSectorPoison s a v).db = s.db := rfl
@[simp] theorem setSectorPoison_bb (s : State) (a : Nat) (v : Bool) : (setSectorPoison s a v).bb = s.bb := rfl
@[simp] theorem setSectorPoison_mg (s : State) (a : Nat) (v : Bool) : (setSectorPoison s a v).mg = s.mg := rfl
@[simp] theorem setSectorPoison_rst (s : State) (a : Nat) (v : Bool) : (setSectorPoison s a v).rst = s.rst := rfl
@[simp] theorem setSectorPoison_env (s : State) (a : Nat) (v : Bool) : (setSectorPoison s a v).env = s.env := rfl

/-! ### `countMem` writes `mem` -/

@[simp] theorem countMem_pending (s : State) (d k n : Nat) : (countMem s d k n).pending = s.pending := rfl
@[simp] theorem countMem_freeCtr (s : State) (d k n : Nat) : (countMem s d k n).freeCtr = s.freeCtr := rfl
@[simp] theorem countMem_cells (s : State) (d k n : Nat) : (countMem s d k n).cells = s.cells := rfl
@[simp] theorem countMem_cores (s : State) (d k n : Nat) : (countMem s d k n).cores = s.cores := rfl
@[simp] theorem countMem_fb (s : State) (d k n : Nat) : (countMem s d k n).fb = s.fb := rfl
@[simp] theorem countMem_ws (s : State) (d k n : Nat) : (countMem s d k n).ws = s.ws := rfl
@[simp] theorem countMem_cp (s : State) (d k n : Nat) : (countMem s d k n).cp = s.cp := rfl
@[simp] theorem countMem_lk (s : State) (d k n : Nat) : (countMem s d k n).lk = s.lk := rfl
@[simp] theorem countMem_cl (s : State) (d k n : Nat) : (countMem s d k n).cl = s.cl := rfl
@[simp] theorem countMem_ue (s : State) (d k n : Nat) : (countMem s d k n).ue = s.ue := rfl
@[simp] theorem countMem_tw (s : State) (d k n : Nat) : (countMem s d k n).tw = s.tw := rfl
@[simp] theorem countMem_pw (s : State) (d k n : Nat) : (countMem s d k n).pw = s.pw := rfl
@[simp] theorem countMem_sf (s : State) (d k n : Nat) : (countMem s d k n).sf = s.sf := rfl
@[simp] theorem countMem_sc (s : State) (d k n : Nat) : (countMem s d k n).sc = s.sc := rfl
@[simp] theorem countMem_db (s : State) (d k n : Nat) : (countMem s d k n).db = s.db := rfl
@[simp] theorem countMem_bb (s : State) (d k n : Nat) : (countMem s d k n).bb = s.bb := rfl
@[simp] theorem countMem_mg (s : State) (d k n : Nat) : (countMem s d k n).mg = s.mg := rfl
@[simp] theorem countMem_rst (s : State) (d k n : Nat) : (countMem s d k n).rst = s.rst := rfl
@[simp] theorem countMem_env (s : State) (d k n : Nat) : (countMem s d k n).env = s.env := rfl

/-! ### `retag` writes `mem` -/

@[simp] theorem retag_pending (s : State) (a : Nat) : (retag s a).pending = s.pending := rfl
@[simp] theorem retag_freeCtr (s : State) (a : Nat) : (retag s a).freeCtr = s.freeCtr := rfl
@[simp] theorem retag_cells (s : State) (a : Nat) : (retag s a).cells = s.cells := rfl
@[simp] theorem retag_cores (s : State) (a : Nat) : (retag s a).cores = s.cores := rfl
@[simp] theorem retag_fb (s : State) (a : Nat) : (retag s a).fb = s.fb := rfl
@[simp] theorem retag_ws (s : State) (a : Nat) : (retag s a).ws = s.ws := rfl
@[simp] theorem retag_cp (s : State) (a : Nat) : (retag s a).cp = s.cp := rfl
@[simp] theorem retag_lk (s : State) (a : Nat) : (retag s a).lk = s.lk := rfl
@[simp] theorem retag_cl (s : State) (a : Nat) : (retag s a).cl = s.cl := rfl
@[simp] theorem retag_ue (s : State) (a : Nat) : (retag s a).ue = s.ue := rfl
@[simp] theorem retag_tw (s : State) (a : Nat) : (retag s a).tw = s.tw := rfl
@[simp] theorem retag_pw (s : State) (a : Nat) : (retag s a).pw = s.pw := rfl
@[simp] theorem retag_sf (s : State) (a : Nat) : (retag s a).sf = s.sf := rfl
@[simp] theorem retag_sc (s : State) (a : Nat) : (retag s a).sc = s.sc := rfl
@[simp] theorem retag_db (s : State) (a : Nat) : (retag s a).db = s.db := rfl
@[simp] theorem retag_bb (s : State) (a : Nat) : (retag s a).bb = s.bb := rfl
@[simp] theorem retag_mg (s : State) (a : Nat) : (retag s a).mg = s.mg := rfl
@[simp] theorem retag_rst (s : State) (a : Nat) : (retag s a).rst = s.rst := rfl
@[simp] theorem retag_env (s : State) (a : Nat) : (retag s a).env = s.env := rfl

/-! ### `countHostFault` writes `mem` -/

@[simp] theorem countHostFault_pending (s : State) : (countHostFault s).pending = s.pending := rfl
@[simp] theorem countHostFault_freeCtr (s : State) : (countHostFault s).freeCtr = s.freeCtr := rfl
@[simp] theorem countHostFault_cells (s : State) : (countHostFault s).cells = s.cells := rfl
@[simp] theorem countHostFault_cores (s : State) : (countHostFault s).cores = s.cores := rfl
@[simp] theorem countHostFault_fb (s : State) : (countHostFault s).fb = s.fb := rfl
@[simp] theorem countHostFault_ws (s : State) : (countHostFault s).ws = s.ws := rfl
@[simp] theorem countHostFault_cp (s : State) : (countHostFault s).cp = s.cp := rfl
@[simp] theorem countHostFault_lk (s : State) : (countHostFault s).lk = s.lk := rfl
@[simp] theorem countHostFault_cl (s : State) : (countHostFault s).cl = s.cl := rfl
@[simp] theorem countHostFault_ue (s : State) : (countHostFault s).ue = s.ue := rfl
@[simp] theorem countHostFault_tw (s : State) : (countHostFault s).tw = s.tw := rfl
@[simp] theorem countHostFault_pw (s : State) : (countHostFault s).pw = s.pw := rfl
@[simp] theorem countHostFault_sf (s : State) : (countHostFault s).sf = s.sf := rfl
@[simp] theorem countHostFault_sc (s : State) : (countHostFault s).sc = s.sc := rfl
@[simp] theorem countHostFault_db (s : State) : (countHostFault s).db = s.db := rfl
@[simp] theorem countHostFault_bb (s : State) : (countHostFault s).bb = s.bb := rfl
@[simp] theorem countHostFault_mg (s : State) : (countHostFault s).mg = s.mg := rfl
@[simp] theorem countHostFault_rst (s : State) : (countHostFault s).rst = s.rst := rfl
@[simp] theorem countHostFault_env (s : State) : (countHostFault s).env = s.env := rfl

/-! ### `hostWrite` writes `env` -/

@[simp] theorem hostWrite_pending (s : State) (p a : Nat) (l : List Byte) : (hostWrite s p a l).pending = s.pending := rfl
@[simp] theorem hostWrite_freeCtr (s : State) (p a : Nat) (l : List Byte) : (hostWrite s p a l).freeCtr = s.freeCtr := rfl
@[simp] theorem hostWrite_cells (s : State) (p a : Nat) (l : List Byte) : (hostWrite s p a l).cells = s.cells := rfl
@[simp] theorem hostWrite_cores (s : State) (p a : Nat) (l : List Byte) : (hostWrite s p a l).cores = s.cores := rfl
@[simp] theorem hostWrite_mem (s : State) (p a : Nat) (l : List Byte) : (hostWrite s p a l).mem = s.mem := rfl
@[simp] theorem hostWrite_fb (s : State) (p a : Nat) (l : List Byte) : (hostWrite s p a l).fb = s.fb := rfl
@[simp] theorem hostWrite_ws (s : State) (p a : Nat) (l : List Byte) : (hostWrite s p a l).ws = s.ws := rfl
@[simp] theorem hostWrite_cp (s : State) (p a : Nat) (l : List Byte) : (hostWrite s p a l).cp = s.cp := rfl
@[simp] theorem hostWrite_lk (s : State) (p a : Nat) (l : List Byte) : (hostWrite s p a l).lk = s.lk := rfl
@[simp] theorem hostWrite_cl (s : State) (p a : Nat) (l : List Byte) : (hostWrite s p a l).cl = s.cl := rfl
@[simp] theorem hostWrite_ue (s : State) (p a : Nat) (l : List Byte) : (hostWrite s p a l).ue = s.ue := rfl
@[simp] theorem hostWrite_tw (s : State) (p a : Nat) (l : List Byte) : (hostWrite s p a l).tw = s.tw := rfl
@[simp] theorem hostWrite_pw (s : State) (p a : Nat) (l : List Byte) : (hostWrite s p a l).pw = s.pw := rfl
@[simp] theorem hostWrite_sf (s : State) (p a : Nat) (l : List Byte) : (hostWrite s p a l).sf = s.sf := rfl
@[simp] theorem hostWrite_sc (s : State) (p a : Nat) (l : List Byte) : (hostWrite s p a l).sc = s.sc := rfl
@[simp] theorem hostWrite_db (s : State) (p a : Nat) (l : List Byte) : (hostWrite s p a l).db = s.db := rfl
@[simp] theorem hostWrite_bb (s : State) (p a : Nat) (l : List Byte) : (hostWrite s p a l).bb = s.bb := rfl
@[simp] theorem hostWrite_mg (s : State) (p a : Nat) (l : List Byte) : (hostWrite s p a l).mg = s.mg := rfl
@[simp] theorem hostWrite_rst (s : State) (p a : Nat) (l : List Byte) : (hostWrite s p a l).rst = s.rst := rfl

/-! ### `bumpSeq` writes `ws` -/

@[simp] theorem bumpSeq_pending (s : State) (q : Nat) : (bumpSeq s q).pending = s.pending := rfl
@[simp] theorem bumpSeq_freeCtr (s : State) (q : Nat) : (bumpSeq s q).freeCtr = s.freeCtr := rfl
@[simp] theorem bumpSeq_cells (s : State) (q : Nat) : (bumpSeq s q).cells = s.cells := rfl
@[simp] theorem bumpSeq_cores (s : State) (q : Nat) : (bumpSeq s q).cores = s.cores := rfl
@[simp] theorem bumpSeq_mem (s : State) (q : Nat) : (bumpSeq s q).mem = s.mem := rfl
@[simp] theorem bumpSeq_fb (s : State) (q : Nat) : (bumpSeq s q).fb = s.fb := rfl
@[simp] theorem bumpSeq_cp (s : State) (q : Nat) : (bumpSeq s q).cp = s.cp := rfl
@[simp] theorem bumpSeq_lk (s : State) (q : Nat) : (bumpSeq s q).lk = s.lk := rfl
@[simp] theorem bumpSeq_cl (s : State) (q : Nat) : (bumpSeq s q).cl = s.cl := rfl
@[simp] theorem bumpSeq_ue (s : State) (q : Nat) : (bumpSeq s q).ue = s.ue := rfl
@[simp] theorem bumpSeq_tw (s : State) (q : Nat) : (bumpSeq s q).tw = s.tw := rfl
@[simp] theorem bumpSeq_pw (s : State) (q : Nat) : (bumpSeq s q).pw = s.pw := rfl
@[simp] theorem bumpSeq_sf (s : State) (q : Nat) : (bumpSeq s q).sf = s.sf := rfl
@[simp] theorem bumpSeq_sc (s : State) (q : Nat) : (bumpSeq s q).sc = s.sc := rfl
@[simp] theorem bumpSeq_db (s : State) (q : Nat) : (bumpSeq s q).db = s.db := rfl
@[simp] theorem bumpSeq_bb (s : State) (q : Nat) : (bumpSeq s q).bb = s.bb := rfl
@[simp] theorem bumpSeq_mg (s : State) (q : Nat) : (bumpSeq s q).mg = s.mg := rfl
@[simp] theorem bumpSeq_rst (s : State) (q : Nat) : (bumpSeq s q).rst = s.rst := rfl
@[simp] theorem bumpSeq_env (s : State) (q : Nat) : (bumpSeq s q).env = s.env := rfl

/-! ### `postDown` writes `ws` -/

@[simp] theorem postDown_pending (s : State) (k : Nat) (p : Payload) : (postDown s k p).pending = s.pending := rfl
@[simp] theorem postDown_freeCtr (s : State) (k : Nat) (p : Payload) : (postDown s k p).freeCtr = s.freeCtr := rfl
@[simp] theorem postDown_cells (s : State) (k : Nat) (p : Payload) : (postDown s k p).cells = s.cells := rfl
@[simp] theorem postDown_cores (s : State) (k : Nat) (p : Payload) : (postDown s k p).cores = s.cores := rfl
@[simp] theorem postDown_mem (s : State) (k : Nat) (p : Payload) : (postDown s k p).mem = s.mem := rfl
@[simp] theorem postDown_fb (s : State) (k : Nat) (p : Payload) : (postDown s k p).fb = s.fb := rfl
@[simp] theorem postDown_cp (s : State) (k : Nat) (p : Payload) : (postDown s k p).cp = s.cp := rfl
@[simp] theorem postDown_lk (s : State) (k : Nat) (p : Payload) : (postDown s k p).lk = s.lk := rfl
@[simp] theorem postDown_cl (s : State) (k : Nat) (p : Payload) : (postDown s k p).cl = s.cl := rfl
@[simp] theorem postDown_ue (s : State) (k : Nat) (p : Payload) : (postDown s k p).ue = s.ue := rfl
@[simp] theorem postDown_tw (s : State) (k : Nat) (p : Payload) : (postDown s k p).tw = s.tw := rfl
@[simp] theorem postDown_pw (s : State) (k : Nat) (p : Payload) : (postDown s k p).pw = s.pw := rfl
@[simp] theorem postDown_sf (s : State) (k : Nat) (p : Payload) : (postDown s k p).sf = s.sf := rfl
@[simp] theorem postDown_sc (s : State) (k : Nat) (p : Payload) : (postDown s k p).sc = s.sc := rfl
@[simp] theorem postDown_db (s : State) (k : Nat) (p : Payload) : (postDown s k p).db = s.db := rfl
@[simp] theorem postDown_bb (s : State) (k : Nat) (p : Payload) : (postDown s k p).bb = s.bb := rfl
@[simp] theorem postDown_mg (s : State) (k : Nat) (p : Payload) : (postDown s k p).mg = s.mg := rfl
@[simp] theorem postDown_rst (s : State) (k : Nat) (p : Payload) : (postDown s k p).rst = s.rst := rfl
@[simp] theorem postDown_env (s : State) (k : Nat) (p : Payload) : (postDown s k p).env = s.env := rfl

/-! ### `postUp` writes `ws` -/

@[simp] theorem postUp_pending (s : State) (k src : Nat) (p : Payload) : (postUp s k src p).pending = s.pending := rfl
@[simp] theorem postUp_freeCtr (s : State) (k src : Nat) (p : Payload) : (postUp s k src p).freeCtr = s.freeCtr := rfl
@[simp] theorem postUp_cells (s : State) (k src : Nat) (p : Payload) : (postUp s k src p).cells = s.cells := rfl
@[simp] theorem postUp_cores (s : State) (k src : Nat) (p : Payload) : (postUp s k src p).cores = s.cores := rfl
@[simp] theorem postUp_mem (s : State) (k src : Nat) (p : Payload) : (postUp s k src p).mem = s.mem := rfl
@[simp] theorem postUp_fb (s : State) (k src : Nat) (p : Payload) : (postUp s k src p).fb = s.fb := rfl
@[simp] theorem postUp_cp (s : State) (k src : Nat) (p : Payload) : (postUp s k src p).cp = s.cp := rfl
@[simp] theorem postUp_lk (s : State) (k src : Nat) (p : Payload) : (postUp s k src p).lk = s.lk := rfl
@[simp] theorem postUp_cl (s : State) (k src : Nat) (p : Payload) : (postUp s k src p).cl = s.cl := rfl
@[simp] theorem postUp_ue (s : State) (k src : Nat) (p : Payload) : (postUp s k src p).ue = s.ue := rfl
@[simp] theorem postUp_tw (s : State) (k src : Nat) (p : Payload) : (postUp s k src p).tw = s.tw := rfl
@[simp] theorem postUp_pw (s : State) (k src : Nat) (p : Payload) : (postUp s k src p).pw = s.pw := rfl
@[simp] theorem postUp_sf (s : State) (k src : Nat) (p : Payload) : (postUp s k src p).sf = s.sf := rfl
@[simp] theorem postUp_sc (s : State) (k src : Nat) (p : Payload) : (postUp s k src p).sc = s.sc := rfl
@[simp] theorem postUp_db (s : State) (k src : Nat) (p : Payload) : (postUp s k src p).db = s.db := rfl
@[simp] theorem postUp_bb (s : State) (k src : Nat) (p : Payload) : (postUp s k src p).bb = s.bb := rfl
@[simp] theorem postUp_mg (s : State) (k src : Nat) (p : Payload) : (postUp s k src p).mg = s.mg := rfl
@[simp] theorem postUp_rst (s : State) (k src : Nat) (p : Payload) : (postUp s k src p).rst = s.rst := rfl
@[simp] theorem postUp_env (s : State) (k src : Nat) (p : Payload) : (postUp s k src p).env = s.env := rfl

/-! ### `enterDown` writes `ws` -/

@[simp] theorem enterDown_pending (s : State) (k : Nat) (p : Payload) : (enterDown s k p).pending = s.pending := rfl
@[simp] theorem enterDown_freeCtr (s : State) (k : Nat) (p : Payload) : (enterDown s k p).freeCtr = s.freeCtr := rfl
@[simp] theorem enterDown_cells (s : State) (k : Nat) (p : Payload) : (enterDown s k p).cells = s.cells := rfl
@[simp] theorem enterDown_cores (s : State) (k : Nat) (p : Payload) : (enterDown s k p).cores = s.cores := rfl
@[simp] theorem enterDown_mem (s : State) (k : Nat) (p : Payload) : (enterDown s k p).mem = s.mem := rfl
@[simp] theorem enterDown_fb (s : State) (k : Nat) (p : Payload) : (enterDown s k p).fb = s.fb := rfl
@[simp] theorem enterDown_cp (s : State) (k : Nat) (p : Payload) : (enterDown s k p).cp = s.cp := rfl
@[simp] theorem enterDown_lk (s : State) (k : Nat) (p : Payload) : (enterDown s k p).lk = s.lk := rfl
@[simp] theorem enterDown_cl (s : State) (k : Nat) (p : Payload) : (enterDown s k p).cl = s.cl := rfl
@[simp] theorem enterDown_ue (s : State) (k : Nat) (p : Payload) : (enterDown s k p).ue = s.ue := rfl
@[simp] theorem enterDown_tw (s : State) (k : Nat) (p : Payload) : (enterDown s k p).tw = s.tw := rfl
@[simp] theorem enterDown_pw (s : State) (k : Nat) (p : Payload) : (enterDown s k p).pw = s.pw := rfl
@[simp] theorem enterDown_sf (s : State) (k : Nat) (p : Payload) : (enterDown s k p).sf = s.sf := rfl
@[simp] theorem enterDown_sc (s : State) (k : Nat) (p : Payload) : (enterDown s k p).sc = s.sc := rfl
@[simp] theorem enterDown_db (s : State) (k : Nat) (p : Payload) : (enterDown s k p).db = s.db := rfl
@[simp] theorem enterDown_bb (s : State) (k : Nat) (p : Payload) : (enterDown s k p).bb = s.bb := rfl
@[simp] theorem enterDown_mg (s : State) (k : Nat) (p : Payload) : (enterDown s k p).mg = s.mg := rfl
@[simp] theorem enterDown_rst (s : State) (k : Nat) (p : Payload) : (enterDown s k p).rst = s.rst := rfl
@[simp] theorem enterDown_env (s : State) (k : Nat) (p : Payload) : (enterDown s k p).env = s.env := rfl

/-! ### `enterUp` writes `ws` -/

@[simp] theorem enterUp_pending (s : State) (k src : Nat) (p : Payload) : (enterUp s k src p).pending = s.pending := rfl
@[simp] theorem enterUp_freeCtr (s : State) (k src : Nat) (p : Payload) : (enterUp s k src p).freeCtr = s.freeCtr := rfl
@[simp] theorem enterUp_cells (s : State) (k src : Nat) (p : Payload) : (enterUp s k src p).cells = s.cells := rfl
@[simp] theorem enterUp_cores (s : State) (k src : Nat) (p : Payload) : (enterUp s k src p).cores = s.cores := rfl
@[simp] theorem enterUp_mem (s : State) (k src : Nat) (p : Payload) : (enterUp s k src p).mem = s.mem := rfl
@[simp] theorem enterUp_fb (s : State) (k src : Nat) (p : Payload) : (enterUp s k src p).fb = s.fb := rfl
@[simp] theorem enterUp_cp (s : State) (k src : Nat) (p : Payload) : (enterUp s k src p).cp = s.cp := rfl
@[simp] theorem enterUp_lk (s : State) (k src : Nat) (p : Payload) : (enterUp s k src p).lk = s.lk := rfl
@[simp] theorem enterUp_cl (s : State) (k src : Nat) (p : Payload) : (enterUp s k src p).cl = s.cl := rfl
@[simp] theorem enterUp_ue (s : State) (k src : Nat) (p : Payload) : (enterUp s k src p).ue = s.ue := rfl
@[simp] theorem enterUp_tw (s : State) (k src : Nat) (p : Payload) : (enterUp s k src p).tw = s.tw := rfl
@[simp] theorem enterUp_pw (s : State) (k src : Nat) (p : Payload) : (enterUp s k src p).pw = s.pw := rfl
@[simp] theorem enterUp_sf (s : State) (k src : Nat) (p : Payload) : (enterUp s k src p).sf = s.sf := rfl
@[simp] theorem enterUp_sc (s : State) (k src : Nat) (p : Payload) : (enterUp s k src p).sc = s.sc := rfl
@[simp] theorem enterUp_db (s : State) (k src : Nat) (p : Payload) : (enterUp s k src p).db = s.db := rfl
@[simp] theorem enterUp_bb (s : State) (k src : Nat) (p : Payload) : (enterUp s k src p).bb = s.bb := rfl
@[simp] theorem enterUp_mg (s : State) (k src : Nat) (p : Payload) : (enterUp s k src p).mg = s.mg := rfl
@[simp] theorem enterUp_rst (s : State) (k src : Nat) (p : Payload) : (enterUp s k src p).rst = s.rst := rfl
@[simp] theorem enterUp_env (s : State) (k src : Nat) (p : Payload) : (enterUp s k src p).env = s.env := rfl

/-! ### `enterTele` writes `ws` -/

@[simp] theorem enterTele_pending (s : State) (k src n : Nat) (p : Payload) : (enterTele s k src n p).pending = s.pending := rfl
@[simp] theorem enterTele_freeCtr (s : State) (k src n : Nat) (p : Payload) : (enterTele s k src n p).freeCtr = s.freeCtr := rfl
@[simp] theorem enterTele_cells (s : State) (k src n : Nat) (p : Payload) : (enterTele s k src n p).cells = s.cells := rfl
@[simp] theorem enterTele_cores (s : State) (k src n : Nat) (p : Payload) : (enterTele s k src n p).cores = s.cores := rfl
@[simp] theorem enterTele_mem (s : State) (k src n : Nat) (p : Payload) : (enterTele s k src n p).mem = s.mem := rfl
@[simp] theorem enterTele_fb (s : State) (k src n : Nat) (p : Payload) : (enterTele s k src n p).fb = s.fb := rfl
@[simp] theorem enterTele_cp (s : State) (k src n : Nat) (p : Payload) : (enterTele s k src n p).cp = s.cp := rfl
@[simp] theorem enterTele_lk (s : State) (k src n : Nat) (p : Payload) : (enterTele s k src n p).lk = s.lk := rfl
@[simp] theorem enterTele_cl (s : State) (k src n : Nat) (p : Payload) : (enterTele s k src n p).cl = s.cl := rfl
@[simp] theorem enterTele_ue (s : State) (k src n : Nat) (p : Payload) : (enterTele s k src n p).ue = s.ue := rfl
@[simp] theorem enterTele_tw (s : State) (k src n : Nat) (p : Payload) : (enterTele s k src n p).tw = s.tw := rfl
@[simp] theorem enterTele_pw (s : State) (k src n : Nat) (p : Payload) : (enterTele s k src n p).pw = s.pw := rfl
@[simp] theorem enterTele_sf (s : State) (k src n : Nat) (p : Payload) : (enterTele s k src n p).sf = s.sf := rfl
@[simp] theorem enterTele_sc (s : State) (k src n : Nat) (p : Payload) : (enterTele s k src n p).sc = s.sc := rfl
@[simp] theorem enterTele_db (s : State) (k src n : Nat) (p : Payload) : (enterTele s k src n p).db = s.db := rfl
@[simp] theorem enterTele_bb (s : State) (k src n : Nat) (p : Payload) : (enterTele s k src n p).bb = s.bb := rfl
@[simp] theorem enterTele_mg (s : State) (k src n : Nat) (p : Payload) : (enterTele s k src n p).mg = s.mg := rfl
@[simp] theorem enterTele_rst (s : State) (k src n : Nat) (p : Payload) : (enterTele s k src n p).rst = s.rst := rfl
@[simp] theorem enterTele_env (s : State) (k src n : Nat) (p : Payload) : (enterTele s k src n p).env = s.env := rfl

/-! ### `mramWrite` writes `bb` -/

@[simp] theorem mramWrite_pending (s : State) : (mramWrite s).pending = s.pending := rfl
@[simp] theorem mramWrite_freeCtr (s : State) : (mramWrite s).freeCtr = s.freeCtr := rfl
@[simp] theorem mramWrite_cells (s : State) : (mramWrite s).cells = s.cells := rfl
@[simp] theorem mramWrite_cores (s : State) : (mramWrite s).cores = s.cores := rfl
@[simp] theorem mramWrite_mem (s : State) : (mramWrite s).mem = s.mem := rfl
@[simp] theorem mramWrite_fb (s : State) : (mramWrite s).fb = s.fb := rfl
@[simp] theorem mramWrite_ws (s : State) : (mramWrite s).ws = s.ws := rfl
@[simp] theorem mramWrite_cp (s : State) : (mramWrite s).cp = s.cp := rfl
@[simp] theorem mramWrite_lk (s : State) : (mramWrite s).lk = s.lk := rfl
@[simp] theorem mramWrite_cl (s : State) : (mramWrite s).cl = s.cl := rfl
@[simp] theorem mramWrite_ue (s : State) : (mramWrite s).ue = s.ue := rfl
@[simp] theorem mramWrite_tw (s : State) : (mramWrite s).tw = s.tw := rfl
@[simp] theorem mramWrite_pw (s : State) : (mramWrite s).pw = s.pw := rfl
@[simp] theorem mramWrite_sf (s : State) : (mramWrite s).sf = s.sf := rfl
@[simp] theorem mramWrite_sc (s : State) : (mramWrite s).sc = s.sc := rfl
@[simp] theorem mramWrite_db (s : State) : (mramWrite s).db = s.db := rfl
@[simp] theorem mramWrite_mg (s : State) : (mramWrite s).mg = s.mg := rfl
@[simp] theorem mramWrite_rst (s : State) : (mramWrite s).rst = s.rst := rfl
@[simp] theorem mramWrite_env (s : State) : (mramWrite s).env = s.env := rfl

/-! ### `writeSlot` writes `bb` -/

@[simp] theorem writeSlot_pending (seq : Nat) (rec : List Byte) (s : State) : (writeSlot seq rec s).pending = s.pending := rfl
@[simp] theorem writeSlot_freeCtr (seq : Nat) (rec : List Byte) (s : State) : (writeSlot seq rec s).freeCtr = s.freeCtr := rfl
@[simp] theorem writeSlot_cells (seq : Nat) (rec : List Byte) (s : State) : (writeSlot seq rec s).cells = s.cells := rfl
@[simp] theorem writeSlot_cores (seq : Nat) (rec : List Byte) (s : State) : (writeSlot seq rec s).cores = s.cores := rfl
@[simp] theorem writeSlot_mem (seq : Nat) (rec : List Byte) (s : State) : (writeSlot seq rec s).mem = s.mem := rfl
@[simp] theorem writeSlot_fb (seq : Nat) (rec : List Byte) (s : State) : (writeSlot seq rec s).fb = s.fb := rfl
@[simp] theorem writeSlot_ws (seq : Nat) (rec : List Byte) (s : State) : (writeSlot seq rec s).ws = s.ws := rfl
@[simp] theorem writeSlot_cp (seq : Nat) (rec : List Byte) (s : State) : (writeSlot seq rec s).cp = s.cp := rfl
@[simp] theorem writeSlot_lk (seq : Nat) (rec : List Byte) (s : State) : (writeSlot seq rec s).lk = s.lk := rfl
@[simp] theorem writeSlot_cl (seq : Nat) (rec : List Byte) (s : State) : (writeSlot seq rec s).cl = s.cl := rfl
@[simp] theorem writeSlot_ue (seq : Nat) (rec : List Byte) (s : State) : (writeSlot seq rec s).ue = s.ue := rfl
@[simp] theorem writeSlot_tw (seq : Nat) (rec : List Byte) (s : State) : (writeSlot seq rec s).tw = s.tw := rfl
@[simp] theorem writeSlot_pw (seq : Nat) (rec : List Byte) (s : State) : (writeSlot seq rec s).pw = s.pw := rfl
@[simp] theorem writeSlot_sf (seq : Nat) (rec : List Byte) (s : State) : (writeSlot seq rec s).sf = s.sf := rfl
@[simp] theorem writeSlot_sc (seq : Nat) (rec : List Byte) (s : State) : (writeSlot seq rec s).sc = s.sc := rfl
@[simp] theorem writeSlot_db (seq : Nat) (rec : List Byte) (s : State) : (writeSlot seq rec s).db = s.db := rfl
@[simp] theorem writeSlot_mg (seq : Nat) (rec : List Byte) (s : State) : (writeSlot seq rec s).mg = s.mg := rfl
@[simp] theorem writeSlot_rst (seq : Nat) (rec : List Byte) (s : State) : (writeSlot seq rec s).rst = s.rst := rfl
@[simp] theorem writeSlot_env (seq : Nat) (rec : List Byte) (s : State) : (writeSlot seq rec s).env = s.env := rfl

/-! ### `postCompletion` writes `ws` -/

@[simp] theorem postCompletion_pending (h st fl : Nat) (l : List W64) (s : State) : (postCompletion h st fl l s).pending = s.pending := rfl
@[simp] theorem postCompletion_freeCtr (h st fl : Nat) (l : List W64) (s : State) : (postCompletion h st fl l s).freeCtr = s.freeCtr := rfl
@[simp] theorem postCompletion_cells (h st fl : Nat) (l : List W64) (s : State) : (postCompletion h st fl l s).cells = s.cells := rfl
@[simp] theorem postCompletion_cores (h st fl : Nat) (l : List W64) (s : State) : (postCompletion h st fl l s).cores = s.cores := rfl
@[simp] theorem postCompletion_mem (h st fl : Nat) (l : List W64) (s : State) : (postCompletion h st fl l s).mem = s.mem := rfl
@[simp] theorem postCompletion_fb (h st fl : Nat) (l : List W64) (s : State) : (postCompletion h st fl l s).fb = s.fb := rfl
@[simp] theorem postCompletion_cp (h st fl : Nat) (l : List W64) (s : State) : (postCompletion h st fl l s).cp = s.cp := rfl
@[simp] theorem postCompletion_lk (h st fl : Nat) (l : List W64) (s : State) : (postCompletion h st fl l s).lk = s.lk := rfl
@[simp] theorem postCompletion_cl (h st fl : Nat) (l : List W64) (s : State) : (postCompletion h st fl l s).cl = s.cl := rfl
@[simp] theorem postCompletion_ue (h st fl : Nat) (l : List W64) (s : State) : (postCompletion h st fl l s).ue = s.ue := rfl
@[simp] theorem postCompletion_tw (h st fl : Nat) (l : List W64) (s : State) : (postCompletion h st fl l s).tw = s.tw := rfl
@[simp] theorem postCompletion_pw (h st fl : Nat) (l : List W64) (s : State) : (postCompletion h st fl l s).pw = s.pw := rfl
@[simp] theorem postCompletion_sf (h st fl : Nat) (l : List W64) (s : State) : (postCompletion h st fl l s).sf = s.sf := rfl
@[simp] theorem postCompletion_sc (h st fl : Nat) (l : List W64) (s : State) : (postCompletion h st fl l s).sc = s.sc := rfl
@[simp] theorem postCompletion_db (h st fl : Nat) (l : List W64) (s : State) : (postCompletion h st fl l s).db = s.db := rfl
@[simp] theorem postCompletion_bb (h st fl : Nat) (l : List W64) (s : State) : (postCompletion h st fl l s).bb = s.bb := rfl
@[simp] theorem postCompletion_mg (h st fl : Nat) (l : List W64) (s : State) : (postCompletion h st fl l s).mg = s.mg := rfl
@[simp] theorem postCompletion_rst (h st fl : Nat) (l : List W64) (s : State) : (postCompletion h st fl l s).rst = s.rst := rfl
@[simp] theorem postCompletion_env (h st fl : Nat) (l : List W64) (s : State) : (postCompletion h st fl l s).env = s.env := rfl

/-! ### `countAct` writes `tw` -/

@[simp] theorem countAct_pending (d k n : Nat) (s : State) : (countAct d k n s).pending = s.pending := rfl
@[simp] theorem countAct_freeCtr (d k n : Nat) (s : State) : (countAct d k n s).freeCtr = s.freeCtr := rfl
@[simp] theorem countAct_cells (d k n : Nat) (s : State) : (countAct d k n s).cells = s.cells := rfl
@[simp] theorem countAct_cores (d k n : Nat) (s : State) : (countAct d k n s).cores = s.cores := rfl
@[simp] theorem countAct_mem (d k n : Nat) (s : State) : (countAct d k n s).mem = s.mem := rfl
@[simp] theorem countAct_fb (d k n : Nat) (s : State) : (countAct d k n s).fb = s.fb := rfl
@[simp] theorem countAct_ws (d k n : Nat) (s : State) : (countAct d k n s).ws = s.ws := rfl
@[simp] theorem countAct_cp (d k n : Nat) (s : State) : (countAct d k n s).cp = s.cp := rfl
@[simp] theorem countAct_lk (d k n : Nat) (s : State) : (countAct d k n s).lk = s.lk := rfl
@[simp] theorem countAct_cl (d k n : Nat) (s : State) : (countAct d k n s).cl = s.cl := rfl
@[simp] theorem countAct_ue (d k n : Nat) (s : State) : (countAct d k n s).ue = s.ue := rfl
@[simp] theorem countAct_pw (d k n : Nat) (s : State) : (countAct d k n s).pw = s.pw := rfl
@[simp] theorem countAct_sf (d k n : Nat) (s : State) : (countAct d k n s).sf = s.sf := rfl
@[simp] theorem countAct_sc (d k n : Nat) (s : State) : (countAct d k n s).sc = s.sc := rfl
@[simp] theorem countAct_db (d k n : Nat) (s : State) : (countAct d k n s).db = s.db := rfl
@[simp] theorem countAct_bb (d k n : Nat) (s : State) : (countAct d k n s).bb = s.bb := rfl
@[simp] theorem countAct_mg (d k n : Nat) (s : State) : (countAct d k n s).mg = s.mg := rfl
@[simp] theorem countAct_rst (d k n : Nat) (s : State) : (countAct d k n s).rst = s.rst := rfl
@[simp] theorem countAct_env (d k n : Nat) (s : State) : (countAct d k n s).env = s.env := rfl

/-! ### `modCv` writes `cl` -/

@[simp] theorem modCv_pending (id : Nat) (f : Caravan → Caravan) (s : State) : (modCv id f s).pending = s.pending := rfl
@[simp] theorem modCv_freeCtr (id : Nat) (f : Caravan → Caravan) (s : State) : (modCv id f s).freeCtr = s.freeCtr := rfl
@[simp] theorem modCv_cells (id : Nat) (f : Caravan → Caravan) (s : State) : (modCv id f s).cells = s.cells := rfl
@[simp] theorem modCv_cores (id : Nat) (f : Caravan → Caravan) (s : State) : (modCv id f s).cores = s.cores := rfl
@[simp] theorem modCv_mem (id : Nat) (f : Caravan → Caravan) (s : State) : (modCv id f s).mem = s.mem := rfl
@[simp] theorem modCv_fb (id : Nat) (f : Caravan → Caravan) (s : State) : (modCv id f s).fb = s.fb := rfl
@[simp] theorem modCv_ws (id : Nat) (f : Caravan → Caravan) (s : State) : (modCv id f s).ws = s.ws := rfl
@[simp] theorem modCv_cp (id : Nat) (f : Caravan → Caravan) (s : State) : (modCv id f s).cp = s.cp := rfl
@[simp] theorem modCv_lk (id : Nat) (f : Caravan → Caravan) (s : State) : (modCv id f s).lk = s.lk := rfl
@[simp] theorem modCv_ue (id : Nat) (f : Caravan → Caravan) (s : State) : (modCv id f s).ue = s.ue := rfl
@[simp] theorem modCv_tw (id : Nat) (f : Caravan → Caravan) (s : State) : (modCv id f s).tw = s.tw := rfl
@[simp] theorem modCv_pw (id : Nat) (f : Caravan → Caravan) (s : State) : (modCv id f s).pw = s.pw := rfl
@[simp] theorem modCv_sf (id : Nat) (f : Caravan → Caravan) (s : State) : (modCv id f s).sf = s.sf := rfl
@[simp] theorem modCv_sc (id : Nat) (f : Caravan → Caravan) (s : State) : (modCv id f s).sc = s.sc := rfl
@[simp] theorem modCv_db (id : Nat) (f : Caravan → Caravan) (s : State) : (modCv id f s).db = s.db := rfl
@[simp] theorem modCv_bb (id : Nat) (f : Caravan → Caravan) (s : State) : (modCv id f s).bb = s.bb := rfl
@[simp] theorem modCv_mg (id : Nat) (f : Caravan → Caravan) (s : State) : (modCv id f s).mg = s.mg := rfl
@[simp] theorem modCv_rst (id : Nat) (f : Caravan → Caravan) (s : State) : (modCv id f s).rst = s.rst := rfl
@[simp] theorem modCv_env (id : Nat) (f : Caravan → Caravan) (s : State) : (modCv id f s).env = s.env := rfl

/-! ### `countCl` writes `cl` -/

@[simp] theorem countCl_pending (k n : Nat) (s : State) : (countCl k n s).pending = s.pending := rfl
@[simp] theorem countCl_freeCtr (k n : Nat) (s : State) : (countCl k n s).freeCtr = s.freeCtr := rfl
@[simp] theorem countCl_cells (k n : Nat) (s : State) : (countCl k n s).cells = s.cells := rfl
@[simp] theorem countCl_cores (k n : Nat) (s : State) : (countCl k n s).cores = s.cores := rfl
@[simp] theorem countCl_mem (k n : Nat) (s : State) : (countCl k n s).mem = s.mem := rfl
@[simp] theorem countCl_fb (k n : Nat) (s : State) : (countCl k n s).fb = s.fb := rfl
@[simp] theorem countCl_ws (k n : Nat) (s : State) : (countCl k n s).ws = s.ws := rfl
@[simp] theorem countCl_cp (k n : Nat) (s : State) : (countCl k n s).cp = s.cp := rfl
@[simp] theorem countCl_lk (k n : Nat) (s : State) : (countCl k n s).lk = s.lk := rfl
@[simp] theorem countCl_ue (k n : Nat) (s : State) : (countCl k n s).ue = s.ue := rfl
@[simp] theorem countCl_tw (k n : Nat) (s : State) : (countCl k n s).tw = s.tw := rfl
@[simp] theorem countCl_pw (k n : Nat) (s : State) : (countCl k n s).pw = s.pw := rfl
@[simp] theorem countCl_sf (k n : Nat) (s : State) : (countCl k n s).sf = s.sf := rfl
@[simp] theorem countCl_sc (k n : Nat) (s : State) : (countCl k n s).sc = s.sc := rfl
@[simp] theorem countCl_db (k n : Nat) (s : State) : (countCl k n s).db = s.db := rfl
@[simp] theorem countCl_bb (k n : Nat) (s : State) : (countCl k n s).bb = s.bb := rfl
@[simp] theorem countCl_mg (k n : Nat) (s : State) : (countCl k n s).mg = s.mg := rfl
@[simp] theorem countCl_rst (k n : Nat) (s : State) : (countCl k n s).rst = s.rst := rfl
@[simp] theorem countCl_env (k n : Nat) (s : State) : (countCl k n s).env = s.env := rfl

/-! ### `setCap` writes `pw` -/

@[simp] theorem setCap_pending (d src mhz : Nat) (s : State) : (setCap d src mhz s).pending = s.pending := rfl
@[simp] theorem setCap_freeCtr (d src mhz : Nat) (s : State) : (setCap d src mhz s).freeCtr = s.freeCtr := rfl
@[simp] theorem setCap_cells (d src mhz : Nat) (s : State) : (setCap d src mhz s).cells = s.cells := rfl
@[simp] theorem setCap_cores (d src mhz : Nat) (s : State) : (setCap d src mhz s).cores = s.cores := rfl
@[simp] theorem setCap_mem (d src mhz : Nat) (s : State) : (setCap d src mhz s).mem = s.mem := rfl
@[simp] theorem setCap_fb (d src mhz : Nat) (s : State) : (setCap d src mhz s).fb = s.fb := rfl
@[simp] theorem setCap_ws (d src mhz : Nat) (s : State) : (setCap d src mhz s).ws = s.ws := rfl
@[simp] theorem setCap_cp (d src mhz : Nat) (s : State) : (setCap d src mhz s).cp = s.cp := rfl
@[simp] theorem setCap_lk (d src mhz : Nat) (s : State) : (setCap d src mhz s).lk = s.lk := rfl
@[simp] theorem setCap_cl (d src mhz : Nat) (s : State) : (setCap d src mhz s).cl = s.cl := rfl
@[simp] theorem setCap_ue (d src mhz : Nat) (s : State) : (setCap d src mhz s).ue = s.ue := rfl
@[simp] theorem setCap_tw (d src mhz : Nat) (s : State) : (setCap d src mhz s).tw = s.tw := rfl
@[simp] theorem setCap_sf (d src mhz : Nat) (s : State) : (setCap d src mhz s).sf = s.sf := rfl
@[simp] theorem setCap_sc (d src mhz : Nat) (s : State) : (setCap d src mhz s).sc = s.sc := rfl
@[simp] theorem setCap_db (d src mhz : Nat) (s : State) : (setCap d src mhz s).db = s.db := rfl
@[simp] theorem setCap_bb (d src mhz : Nat) (s : State) : (setCap d src mhz s).bb = s.bb := rfl
@[simp] theorem setCap_mg (d src mhz : Nat) (s : State) : (setCap d src mhz s).mg = s.mg := rfl
@[simp] theorem setCap_rst (d src mhz : Nat) (s : State) : (setCap d src mhz s).rst = s.rst := rfl
@[simp] theorem setCap_env (d src mhz : Nat) (s : State) : (setCap d src mhz s).env = s.env := rfl

/-! ### Of device memory, `writeByte` writes `bytes` -/

@[simp] theorem writeByte_mem_poison (s : State) (a : Nat) (b : Byte) : (writeByte s a b).mem.poison = s.mem.poison := rfl
@[simp] theorem writeByte_mem_stale (s : State) (a : Nat) (b : Byte) : (writeByte s a b).mem.stale = s.mem.stale := rfl
@[simp] theorem writeByte_mem_scrubbed (s : State) (a : Nat) (b : Byte) : (writeByte s a b).mem.scrubbed = s.mem.scrubbed := rfl
@[simp] theorem writeByte_mem_ready (s : State) (a : Nat) (b : Byte) : (writeByte s a b).mem.ready = s.mem.ready := rfl
@[simp] theorem writeByte_mem_initRunning (s : State) (a : Nat) (b : Byte) : (writeByte s a b).mem.initRunning = s.mem.initRunning := rfl
@[simp] theorem writeByte_mem_retainedValid (s : State) (a : Nat) (b : Byte) : (writeByte s a b).mem.retainedValid = s.mem.retainedValid := rfl
@[simp] theorem writeByte_mem_gen (s : State) (a : Nat) (b : Byte) : (writeByte s a b).mem.gen = s.mem.gen := rfl
@[simp] theorem writeByte_mem_bar4Base (s : State) (a : Nat) (b : Byte) : (writeByte s a b).mem.bar4Base = s.mem.bar4Base := rfl
@[simp] theorem writeByte_mem_patrol (s : State) (a : Nat) (b : Byte) : (writeByte s a b).mem.patrol = s.mem.patrol := rfl
@[simp] theorem writeByte_mem_retireCtrl (s : State) (a : Nat) (b : Byte) : (writeByte s a b).mem.retireCtrl = s.mem.retireCtrl := rfl
@[simp] theorem writeByte_mem_errLog (s : State) (a : Nat) (b : Byte) : (writeByte s a b).mem.errLog = s.mem.errLog := rfl
@[simp] theorem writeByte_mem_counts (s : State) (a : Nat) (b : Byte) : (writeByte s a b).mem.counts = s.mem.counts := rfl
@[simp] theorem writeByte_mem_hostFault (s : State) (a : Nat) (b : Byte) : (writeByte s a b).mem.hostFault = s.mem.hostFault := rfl
@[simp] theorem writeByte_mem_subch (s : State) (a : Nat) (b : Byte) : (writeByte s a b).mem.subch = s.mem.subch := rfl
@[simp] theorem writeByte_mem_pinLog (s : State) (a : Nat) (b : Byte) : (writeByte s a b).mem.pinLog = s.mem.pinLog := rfl
@[simp] theorem writeByte_mem_retires (s : State) (a : Nat) (b : Byte) : (writeByte s a b).mem.retires = s.mem.retires := rfl
@[simp] theorem writeByte_mem_patrolPtr (s : State) (a : Nat) (b : Byte) : (writeByte s a b).mem.patrolPtr = s.mem.patrolPtr := rfl
@[simp] theorem writeByte_mem_selfRefresh (s : State) (a : Nat) (b : Byte) : (writeByte s a b).mem.selfRefresh = s.mem.selfRefresh := rfl
@[simp] theorem writeByte_mem_heldWrites (s : State) (a : Nat) (b : Byte) : (writeByte s a b).mem.heldWrites = s.mem.heldWrites := rfl
@[simp] theorem writeByte_mem_copies (s : State) (a : Nat) (b : Byte) : (writeByte s a b).mem.copies = s.mem.copies := rfl
@[simp] theorem writeByte_mem_moved (s : State) (a : Nat) (b : Byte) : (writeByte s a b).mem.moved = s.mem.moved := rfl
@[simp] theorem writeByte_mem_moveTurn (s : State) (a : Nat) (b : Byte) : (writeByte s a b).mem.moveTurn = s.mem.moveTurn := rfl

/-! ### Of device memory, `setSectorPoison` writes `poison` -/

@[simp] theorem setSectorPoison_mem_bytes (s : State) (a : Nat) (v : Bool) : (setSectorPoison s a v).mem.bytes = s.mem.bytes := rfl
@[simp] theorem setSectorPoison_mem_stale (s : State) (a : Nat) (v : Bool) : (setSectorPoison s a v).mem.stale = s.mem.stale := rfl
@[simp] theorem setSectorPoison_mem_scrubbed (s : State) (a : Nat) (v : Bool) : (setSectorPoison s a v).mem.scrubbed = s.mem.scrubbed := rfl
@[simp] theorem setSectorPoison_mem_ready (s : State) (a : Nat) (v : Bool) : (setSectorPoison s a v).mem.ready = s.mem.ready := rfl
@[simp] theorem setSectorPoison_mem_initRunning (s : State) (a : Nat) (v : Bool) : (setSectorPoison s a v).mem.initRunning = s.mem.initRunning := rfl
@[simp] theorem setSectorPoison_mem_retainedValid (s : State) (a : Nat) (v : Bool) : (setSectorPoison s a v).mem.retainedValid = s.mem.retainedValid := rfl
@[simp] theorem setSectorPoison_mem_gen (s : State) (a : Nat) (v : Bool) : (setSectorPoison s a v).mem.gen = s.mem.gen := rfl
@[simp] theorem setSectorPoison_mem_bar4Base (s : State) (a : Nat) (v : Bool) : (setSectorPoison s a v).mem.bar4Base = s.mem.bar4Base := rfl
@[simp] theorem setSectorPoison_mem_patrol (s : State) (a : Nat) (v : Bool) : (setSectorPoison s a v).mem.patrol = s.mem.patrol := rfl
@[simp] theorem setSectorPoison_mem_retireCtrl (s : State) (a : Nat) (v : Bool) : (setSectorPoison s a v).mem.retireCtrl = s.mem.retireCtrl := rfl
@[simp] theorem setSectorPoison_mem_errLog (s : State) (a : Nat) (v : Bool) : (setSectorPoison s a v).mem.errLog = s.mem.errLog := rfl
@[simp] theorem setSectorPoison_mem_counts (s : State) (a : Nat) (v : Bool) : (setSectorPoison s a v).mem.counts = s.mem.counts := rfl
@[simp] theorem setSectorPoison_mem_hostFault (s : State) (a : Nat) (v : Bool) : (setSectorPoison s a v).mem.hostFault = s.mem.hostFault := rfl
@[simp] theorem setSectorPoison_mem_subch (s : State) (a : Nat) (v : Bool) : (setSectorPoison s a v).mem.subch = s.mem.subch := rfl
@[simp] theorem setSectorPoison_mem_pinLog (s : State) (a : Nat) (v : Bool) : (setSectorPoison s a v).mem.pinLog = s.mem.pinLog := rfl
@[simp] theorem setSectorPoison_mem_retires (s : State) (a : Nat) (v : Bool) : (setSectorPoison s a v).mem.retires = s.mem.retires := rfl
@[simp] theorem setSectorPoison_mem_patrolPtr (s : State) (a : Nat) (v : Bool) : (setSectorPoison s a v).mem.patrolPtr = s.mem.patrolPtr := rfl
@[simp] theorem setSectorPoison_mem_selfRefresh (s : State) (a : Nat) (v : Bool) : (setSectorPoison s a v).mem.selfRefresh = s.mem.selfRefresh := rfl
@[simp] theorem setSectorPoison_mem_heldWrites (s : State) (a : Nat) (v : Bool) : (setSectorPoison s a v).mem.heldWrites = s.mem.heldWrites := rfl
@[simp] theorem setSectorPoison_mem_copies (s : State) (a : Nat) (v : Bool) : (setSectorPoison s a v).mem.copies = s.mem.copies := rfl
@[simp] theorem setSectorPoison_mem_moved (s : State) (a : Nat) (v : Bool) : (setSectorPoison s a v).mem.moved = s.mem.moved := rfl
@[simp] theorem setSectorPoison_mem_moveTurn (s : State) (a : Nat) (v : Bool) : (setSectorPoison s a v).mem.moveTurn = s.mem.moveTurn := rfl

/-! ### Of device memory, `countMem` writes `counts` -/

@[simp] theorem countMem_mem_bytes (s : State) (d k n : Nat) : (countMem s d k n).mem.bytes = s.mem.bytes := rfl
@[simp] theorem countMem_mem_poison (s : State) (d k n : Nat) : (countMem s d k n).mem.poison = s.mem.poison := rfl
@[simp] theorem countMem_mem_stale (s : State) (d k n : Nat) : (countMem s d k n).mem.stale = s.mem.stale := rfl
@[simp] theorem countMem_mem_scrubbed (s : State) (d k n : Nat) : (countMem s d k n).mem.scrubbed = s.mem.scrubbed := rfl
@[simp] theorem countMem_mem_ready (s : State) (d k n : Nat) : (countMem s d k n).mem.ready = s.mem.ready := rfl
@[simp] theorem countMem_mem_initRunning (s : State) (d k n : Nat) : (countMem s d k n).mem.initRunning = s.mem.initRunning := rfl
@[simp] theorem countMem_mem_retainedValid (s : State) (d k n : Nat) : (countMem s d k n).mem.retainedValid = s.mem.retainedValid := rfl
@[simp] theorem countMem_mem_gen (s : State) (d k n : Nat) : (countMem s d k n).mem.gen = s.mem.gen := rfl
@[simp] theorem countMem_mem_bar4Base (s : State) (d k n : Nat) : (countMem s d k n).mem.bar4Base = s.mem.bar4Base := rfl
@[simp] theorem countMem_mem_patrol (s : State) (d k n : Nat) : (countMem s d k n).mem.patrol = s.mem.patrol := rfl
@[simp] theorem countMem_mem_retireCtrl (s : State) (d k n : Nat) : (countMem s d k n).mem.retireCtrl = s.mem.retireCtrl := rfl
@[simp] theorem countMem_mem_errLog (s : State) (d k n : Nat) : (countMem s d k n).mem.errLog = s.mem.errLog := rfl
@[simp] theorem countMem_mem_hostFault (s : State) (d k n : Nat) : (countMem s d k n).mem.hostFault = s.mem.hostFault := rfl
@[simp] theorem countMem_mem_subch (s : State) (d k n : Nat) : (countMem s d k n).mem.subch = s.mem.subch := rfl
@[simp] theorem countMem_mem_pinLog (s : State) (d k n : Nat) : (countMem s d k n).mem.pinLog = s.mem.pinLog := rfl
@[simp] theorem countMem_mem_retires (s : State) (d k n : Nat) : (countMem s d k n).mem.retires = s.mem.retires := rfl
@[simp] theorem countMem_mem_patrolPtr (s : State) (d k n : Nat) : (countMem s d k n).mem.patrolPtr = s.mem.patrolPtr := rfl
@[simp] theorem countMem_mem_selfRefresh (s : State) (d k n : Nat) : (countMem s d k n).mem.selfRefresh = s.mem.selfRefresh := rfl
@[simp] theorem countMem_mem_heldWrites (s : State) (d k n : Nat) : (countMem s d k n).mem.heldWrites = s.mem.heldWrites := rfl
@[simp] theorem countMem_mem_copies (s : State) (d k n : Nat) : (countMem s d k n).mem.copies = s.mem.copies := rfl
@[simp] theorem countMem_mem_moved (s : State) (d k n : Nat) : (countMem s d k n).mem.moved = s.mem.moved := rfl
@[simp] theorem countMem_mem_moveTurn (s : State) (d k n : Nat) : (countMem s d k n).mem.moveTurn = s.mem.moveTurn := rfl

/-! ### Of device memory, `retag` writes `stale` -/

@[simp] theorem retag_mem_bytes (s : State) (a : Nat) : (retag s a).mem.bytes = s.mem.bytes := rfl
@[simp] theorem retag_mem_poison (s : State) (a : Nat) : (retag s a).mem.poison = s.mem.poison := rfl
@[simp] theorem retag_mem_scrubbed (s : State) (a : Nat) : (retag s a).mem.scrubbed = s.mem.scrubbed := rfl
@[simp] theorem retag_mem_ready (s : State) (a : Nat) : (retag s a).mem.ready = s.mem.ready := rfl
@[simp] theorem retag_mem_initRunning (s : State) (a : Nat) : (retag s a).mem.initRunning = s.mem.initRunning := rfl
@[simp] theorem retag_mem_retainedValid (s : State) (a : Nat) : (retag s a).mem.retainedValid = s.mem.retainedValid := rfl
@[simp] theorem retag_mem_gen (s : State) (a : Nat) : (retag s a).mem.gen = s.mem.gen := rfl
@[simp] theorem retag_mem_bar4Base (s : State) (a : Nat) : (retag s a).mem.bar4Base = s.mem.bar4Base := rfl
@[simp] theorem retag_mem_patrol (s : State) (a : Nat) : (retag s a).mem.patrol = s.mem.patrol := rfl
@[simp] theorem retag_mem_retireCtrl (s : State) (a : Nat) : (retag s a).mem.retireCtrl = s.mem.retireCtrl := rfl
@[simp] theorem retag_mem_errLog (s : State) (a : Nat) : (retag s a).mem.errLog = s.mem.errLog := rfl
@[simp] theorem retag_mem_counts (s : State) (a : Nat) : (retag s a).mem.counts = s.mem.counts := rfl
@[simp] theorem retag_mem_hostFault (s : State) (a : Nat) : (retag s a).mem.hostFault = s.mem.hostFault := rfl
@[simp] theorem retag_mem_subch (s : State) (a : Nat) : (retag s a).mem.subch = s.mem.subch := rfl
@[simp] theorem retag_mem_pinLog (s : State) (a : Nat) : (retag s a).mem.pinLog = s.mem.pinLog := rfl
@[simp] theorem retag_mem_retires (s : State) (a : Nat) : (retag s a).mem.retires = s.mem.retires := rfl
@[simp] theorem retag_mem_patrolPtr (s : State) (a : Nat) : (retag s a).mem.patrolPtr = s.mem.patrolPtr := rfl
@[simp] theorem retag_mem_selfRefresh (s : State) (a : Nat) : (retag s a).mem.selfRefresh = s.mem.selfRefresh := rfl
@[simp] theorem retag_mem_heldWrites (s : State) (a : Nat) : (retag s a).mem.heldWrites = s.mem.heldWrites := rfl
@[simp] theorem retag_mem_copies (s : State) (a : Nat) : (retag s a).mem.copies = s.mem.copies := rfl
@[simp] theorem retag_mem_moved (s : State) (a : Nat) : (retag s a).mem.moved = s.mem.moved := rfl
@[simp] theorem retag_mem_moveTurn (s : State) (a : Nat) : (retag s a).mem.moveTurn = s.mem.moveTurn := rfl

/-! ### Of device memory, `countHostFault` writes `hostFault` -/

@[simp] theorem countHostFault_mem_bytes (s : State) : (countHostFault s).mem.bytes = s.mem.bytes := rfl
@[simp] theorem countHostFault_mem_poison (s : State) : (countHostFault s).mem.poison = s.mem.poison := rfl
@[simp] theorem countHostFault_mem_stale (s : State) : (countHostFault s).mem.stale = s.mem.stale := rfl
@[simp] theorem countHostFault_mem_scrubbed (s : State) : (countHostFault s).mem.scrubbed = s.mem.scrubbed := rfl
@[simp] theorem countHostFault_mem_ready (s : State) : (countHostFault s).mem.ready = s.mem.ready := rfl
@[simp] theorem countHostFault_mem_initRunning (s : State) : (countHostFault s).mem.initRunning = s.mem.initRunning := rfl
@[simp] theorem countHostFault_mem_retainedValid (s : State) : (countHostFault s).mem.retainedValid = s.mem.retainedValid := rfl
@[simp] theorem countHostFault_mem_gen (s : State) : (countHostFault s).mem.gen = s.mem.gen := rfl
@[simp] theorem countHostFault_mem_bar4Base (s : State) : (countHostFault s).mem.bar4Base = s.mem.bar4Base := rfl
@[simp] theorem countHostFault_mem_patrol (s : State) : (countHostFault s).mem.patrol = s.mem.patrol := rfl
@[simp] theorem countHostFault_mem_retireCtrl (s : State) : (countHostFault s).mem.retireCtrl = s.mem.retireCtrl := rfl
@[simp] theorem countHostFault_mem_errLog (s : State) : (countHostFault s).mem.errLog = s.mem.errLog := rfl
@[simp] theorem countHostFault_mem_counts (s : State) : (countHostFault s).mem.counts = s.mem.counts := rfl
@[simp] theorem countHostFault_mem_subch (s : State) : (countHostFault s).mem.subch = s.mem.subch := rfl
@[simp] theorem countHostFault_mem_pinLog (s : State) : (countHostFault s).mem.pinLog = s.mem.pinLog := rfl
@[simp] theorem countHostFault_mem_retires (s : State) : (countHostFault s).mem.retires = s.mem.retires := rfl
@[simp] theorem countHostFault_mem_patrolPtr (s : State) : (countHostFault s).mem.patrolPtr = s.mem.patrolPtr := rfl
@[simp] theorem countHostFault_mem_selfRefresh (s : State) : (countHostFault s).mem.selfRefresh = s.mem.selfRefresh := rfl
@[simp] theorem countHostFault_mem_heldWrites (s : State) : (countHostFault s).mem.heldWrites = s.mem.heldWrites := rfl
@[simp] theorem countHostFault_mem_copies (s : State) : (countHostFault s).mem.copies = s.mem.copies := rfl
@[simp] theorem countHostFault_mem_moved (s : State) : (countHostFault s).mem.moved = s.mem.moved := rfl
@[simp] theorem countHostFault_mem_moveTurn (s : State) : (countHostFault s).mem.moveTurn = s.mem.moveTurn := rfl

end Sys2Proof.Machine
end

