-- ==== Sys2Proof/Laws/Tables.lean ====
section
/-!
SUPPORT. Laws of sparse tables: reading after writing, whatever the table, and the canonical form that every write keeps.
-/

namespace Sys2Proof.Machine

open Sys2Proof

section Reading

variable {α : Type}

@[simp] theorem tget_nil (d : α) (k : Nat) : tget d ([] : Tbl α) k = d := rfl

/-- Reading a table of two parts reads the first part that has the key. -/
theorem tget_append_absent {d : α} {k : Nat} : ∀ {t u : Tbl α}, (∀ e ∈ t, e.1 ≠ k) → tget d (t ++ u) k = tget d u k
  | [], _, _ => rfl
  | (j, w) :: r, u, h => by
    have hj : j ≠ k := h (j, w) (by simp)
    simp only [List.cons_append, tget, hj, if_false]
    exact tget_append_absent fun e he => h e (by simp [he])

/-- A filter that keeps the key does not change what it reads as. -/
theorem tget_filter_keep {d : α} {k : Nat} {p : Nat → Bool} (hp : p k = true) :
    ∀ t : Tbl α, tget d (t.filter fun e => p e.1) k = tget d t k
  | [] => rfl
  | (j, w) :: r => by
    by_cases hj : j = k
    · subst hj; simp [hp, tget]
    · by_cases hpj : p j = true
      · simp only [List.filter_cons, hpj, if_true, tget, hj, if_false]
        exact tget_filter_keep hp r
      · simp only [List.filter_cons, hpj, tget, hj, if_false, Bool.false_eq_true]
        exact tget_filter_keep hp r

/-- A table without the key reads as the default. -/
theorem tget_absent {d : α} {k : Nat} : ∀ {t : Tbl α}, (∀ e ∈ t, e.1 ≠ k) → tget d t k = d
  | [], _ => rfl
  | (j, w) :: r, h => by
    have hj : j ≠ k := h (j, w) (by simp)
    simp only [tget, hj, if_false]
    exact tget_absent fun e he => h e (by simp [he])

/-- Appending entries of other keys does not change what a key reads as. -/
theorem tget_append_right {d : α} {k : Nat} : ∀ {t u : Tbl α}, (∀ e ∈ u, e.1 ≠ k) → tget d (t ++ u) k = tget d t k
  | [], _, h => tget_absent h
  | (j, w) :: r, u, h => by
    by_cases hj : j = k
    · simp [tget, hj]
    · simp only [List.cons_append, tget, hj, if_false]
      exact tget_append_right h

/-- Dropping keys reads the kept ones as before and the dropped ones as the default. -/
theorem tget_tfilter {d : α} (keep : Nat → Bool) (t : Tbl α) (k : Nat) :
    tget d (tfilter keep t) k = if keep k = true then tget d t k else d := by
  unfold tfilter
  split
  · rename_i h
    exact tget_filter_keep h t
  · rename_i h
    refine tget_absent fun e he => ?_
    have := (List.mem_filter.mp he).2
    intro hk
    subst hk
    exact h this

end Reading

variable {α : Type} [DecidableEq α]

/-- Reading after a write: the key written reads as written, every other key as before. -/
@[simp] theorem tget_tput (d : α) (t : Tbl α) (k i : Nat) (v : α) :
    tget d (tput d t k v) i = if i = k then v else tget d t i := by
  unfold tput
  by_cases hik : i = k
  · subst hik
    have hlow : ∀ e ∈ t.filter (fun e => decide (e.1 < i)), e.1 ≠ i := by
      intro e he
      have := (List.mem_filter.mp he).2
      simp only [decide_eq_true_eq] at this
      omega
    have hhigh : ∀ e ∈ t.filter (fun e => decide (i < e.1)), e.1 ≠ i := by
      intro e he
      have := (List.mem_filter.mp he).2
      simp only [decide_eq_true_eq] at this
      omega
    rw [tget_append_absent hlow]
    by_cases hv : v = d
    · subst hv
      simp only [if_true, List.nil_append]
      exact tget_absent hhigh
    · simp [hv, tget]
  · have hmid : ∀ e ∈ (if v = d then ([] : Tbl α) else [(k, v)]), e.1 ≠ i := by
      intro e he
      split at he
      · simp at he
      · simp only [List.mem_singleton] at he
        subst he
        exact Ne.symm hik
    simp only [hik, if_false]
    rcases Nat.lt_or_ge i k with hlt | hge
    · have hhigh : ∀ e ∈ (if v = d then ([] : Tbl α) else [(k, v)]) ++ t.filter (fun e => decide (k < e.1)), e.1 ≠ i := by
        intro e he
        rcases List.mem_append.mp he with h1 | h1
        · exact hmid e h1
        · have := (List.mem_filter.mp h1).2
          simp only [decide_eq_true_eq] at this
          omega
      rw [tget_append_right hhigh]
      exact tget_filter_keep (p := fun j => decide (j < k)) (by simpa using hlt) t
    · have hlow : ∀ e ∈ t.filter (fun e => decide (e.1 < k)), e.1 ≠ i := by
        intro e he
        have := (List.mem_filter.mp he).2
        simp only [decide_eq_true_eq] at this
        omega
      rw [tget_append_absent hlow, tget_append_absent hmid]
      have hki : k < i := by omega
      exact tget_filter_keep (p := fun j => decide (k < j)) (by simpa using hki) t

theorem twfFrom_mono {d : α} : ∀ {t : Tbl α} {lo hi : Nat}, lo ≤ hi → twfFrom d hi t = true → twfFrom d lo t = true
  | [], _, _, _, _ => rfl
  | (k, v) :: r, lo, hi, hle, h => by
    simp only [twfFrom, Bool.and_eq_true, decide_eq_true_eq] at h ⊢
    exact ⟨⟨Nat.le_trans hle h.1.1, h.1.2⟩, h.2⟩

/-- Dropping entries keeps the canonical form. -/
theorem twfFrom_filter {d : α} {p : Nat × α → Bool} :
    ∀ {t : Tbl α} {lo : Nat}, twfFrom d lo t = true → twfFrom d lo (t.filter p) = true
  | [], _, _ => rfl
  | (k, v) :: r, lo, h => by
    simp only [twfFrom, Bool.and_eq_true, decide_eq_true_eq] at h
    have ih := twfFrom_filter (p := p) h.2
    by_cases hp : p (k, v) = true
    · simp only [List.filter_cons, hp, if_true, twfFrom, Bool.and_eq_true, decide_eq_true_eq]
      exact ⟨h.1, ih⟩
    · simp only [List.filter_cons, hp, Bool.false_eq_true, if_false]
      exact twfFrom_mono (Nat.le_succ_of_le h.1.1) ih

/-- Two canonical tables, the second from a bound above the first's keys, make a canonical table. -/
theorem twfFrom_append {d : α} : ∀ {t u : Tbl α} {lo m : Nat}, lo ≤ m → twfFrom d lo t = true →
    (∀ e ∈ t, e.1 < m) → twfFrom d m u = true → twfFrom d lo (t ++ u) = true
  | [], _, _, _, hle, _, _, hu => twfFrom_mono hle hu
  | (k, v) :: r, u, lo, m, _, ht, hk, hu => by
    simp only [twfFrom, Bool.and_eq_true, decide_eq_true_eq] at ht
    simp only [List.cons_append, twfFrom, Bool.and_eq_true, decide_eq_true_eq]
    exact ⟨ht.1, twfFrom_append (hk (k, v) (by simp)) ht.2 (fun e he => hk e (by simp [he])) hu⟩

theorem twfFrom_above {d : α} {k : Nat} :
    ∀ {t : Tbl α} {lo : Nat}, twfFrom d lo t = true → twfFrom d (k + 1) (t.filter fun e => decide (k < e.1)) = true
  | [], _, _ => rfl
  | (j, v) :: r, lo, h => by
    simp only [twfFrom, Bool.and_eq_true, decide_eq_true_eq] at h
    by_cases hj : k < j
    · simp only [List.filter_cons, hj, decide_true, if_true, twfFrom, Bool.and_eq_true, decide_eq_true_eq]
      exact ⟨⟨hj, h.1.2⟩, twfFrom_filter h.2⟩
    · simp only [List.filter_cons, hj, decide_false, Bool.false_eq_true, if_false]
      exact twfFrom_above h.2

/-- Writing keeps the canonical form. -/
theorem twf_tput {d : α} {t : Tbl α} {k : Nat} {v : α} (h : twf d t = true) : twf d (tput d t k v) = true := by
  unfold twf at h ⊢
  unfold tput
  refine twfFrom_append (Nat.zero_le k) (twfFrom_filter h) ?_ ?_
  · intro e he
    simpa using (List.mem_filter.mp he).2
  · by_cases hv : v = d
    · simp only [hv, if_true, List.nil_append]
      exact twfFrom_mono (Nat.le_succ k) (twfFrom_above h)
    · simp only [hv, if_false, List.singleton_append, twfFrom, Bool.and_eq_true, decide_eq_true_eq]
      exact ⟨⟨Nat.le_refl k, hv⟩, twfFrom_above h⟩

/-- Dropping keys keeps the canonical form. -/
theorem twf_tfilter {d : α} {t : Tbl α} {keep : Nat → Bool} (h : twf d t = true) : twf d (tfilter keep t) = true :=
  twfFrom_filter h

end Sys2Proof.Machine
end

