-- ==== Sys2Proof/Laws/Memory.lean ====
section
/-!
SUPPORT. Device memory: reading after writing, that a memory operation changes nothing but memory, and that every memory operation
keeps the canonical form.
-/

namespace Sys2Proof.Machine

open Sys2Proof

/-! ### Reading after writing -/

@[simp] theorem readByte_writeByte (s : State) (a x : Nat) (b : Byte) :
    readByte (writeByte s a b) x = if x = a then b else readByte s x := by simp [readByte, writeByte]

theorem readByte_congr {s t : State} (h : t.mem.bytes = s.mem.bytes) (x : Nat) : readByte t x = readByte s x := by
  simp [readByte, h]

/-- A range written reads as what was written; every other byte stays. -/
theorem readByte_writeBytes (x : Nat) : ∀ (l : List Byte) (s : State) (a : Nat),
    readByte (writeBytes s a l) x = if a ≤ x ∧ x < a + l.length then l.getD (x - a) 0 else readByte s x
  | [], s, a => by
    have h : ¬ (a ≤ x ∧ x < a + ([] : List Byte).length) := by simp
    rw [if_neg h]
    rfl
  | b :: r, s, a => by
    simp only [writeBytes]
    rw [readByte_writeBytes x r, readByte_writeByte, List.length_cons]
    by_cases h1 : x = a
    · subst h1
      rw [if_neg (by omega), if_pos rfl, if_pos (by omega)]
      simp
    · rw [if_neg h1]
      by_cases h2 : a + 1 ≤ x ∧ x < a + 1 + r.length
      · rw [if_pos h2, if_pos (by omega)]
        have h3 : x - a = (x - (a + 1)) + 1 := by omega
        rw [h3, List.getD_cons_succ]
      · rw [if_neg h2, if_neg (by omega)]

/-! ### Memory operations change memory alone -/

/-- Nothing but device memory differs. -/
def OnlyMem (s t : State) : Prop := t = { s with mem := t.mem }

theorem OnlyMem.refl (s : State) : OnlyMem s s := rfl

theorem OnlyMem.trans {s t u : State} (h : OnlyMem s t) (g : OnlyMem t u) : OnlyMem s u := by
  unfold OnlyMem at *
  rw [g, h]

theorem onlyMem_ite {s t u : State} {p : Prop} [Decidable p] (ht : OnlyMem s t) (hu : OnlyMem s u) :
    OnlyMem s (if p then t else u) := by
  by_cases h : p
  · rw [if_pos h]; exact ht
  · rw [if_neg h]; exact hu

theorem writeByte_onlyMem (s : State) (a : Nat) (b : Byte) : OnlyMem s (writeByte s a b) := rfl
theorem countMem_onlyMem (s : State) (d k n : Nat) : OnlyMem s (countMem s d k n) := rfl
theorem retag_onlyMem (s : State) (a : Nat) : OnlyMem s (retag s a) := rfl
theorem setSectorPoison_onlyMem (s : State) (a : Nat) (v : Bool) : OnlyMem s (setSectorPoison s a v) := rfl

theorem logMemError_onlyMem (s : State) (a kind : Nat) : OnlyMem s (logMemError s a kind) := by
  unfold logMemError; split <;> rfl

theorem countLine_onlyMem (s : State) (a : Nat) : OnlyMem s (countLine s a) := by
  unfold countLine; split <;> rfl

theorem noteRead_onlyMem (s : State) (a : Nat) : OnlyMem s (noteRead s a) := by
  unfold noteRead
  refine (countLine_onlyMem s a).trans ?_
  exact onlyMem_ite ((countMem_onlyMem ..).trans (logMemError_onlyMem ..))
    (onlyMem_ite ((countMem_onlyMem ..).trans (logMemError_onlyMem ..)) (OnlyMem.refl _))

theorem writeBytes_onlyMem : ∀ (l : List Byte) (s : State) (a : Nat), OnlyMem s (writeBytes s a l)
  | [], _, _ => rfl
  | b :: r, s, a => (writeByte_onlyMem s a b).trans (writeBytes_onlyMem r _ _)

theorem writeSector_onlyMem (s : State) (a : Nat) (bs : List Byte) (p : Bool) : OnlyMem s (writeSector s a bs p) := by
  have body : ∀ (c d : Bool) (l m : List Byte) (q : Bool),
      OnlyMem s (setSectorPoison (writeBytes (if c then (if d then s else noteRead s a)
        else writeBytes (if d then s else noteRead s a) (a / 32 * 32) m) a l) a q) := fun c d l m q =>
    have h : OnlyMem s (if d then s else noteRead s a) := onlyMem_ite (OnlyMem.refl s) (noteRead_onlyMem ..)
    ((onlyMem_ite h (h.trans (writeBytes_onlyMem ..))).trans (writeBytes_onlyMem ..)).trans (setSectorPoison_onlyMem ..)
  unfold writeSector
  exact onlyMem_ite (countMem_onlyMem ..) (onlyMem_ite (OnlyMem.refl s) (onlyMem_ite
    (((body _ _ _ _ _).trans (retag_onlyMem ..)).trans (countLine_onlyMem ..)) (body _ _ _ _ _)))

theorem writeMem_onlyMem (s : State) (a : Nat) (bs : List Byte) : OnlyMem s (writeMem s a bs) := by
  unfold writeMem
  generalize sectorPieces a bs.length bs.length = l
  induction l generalizing s with
  | nil => rfl
  | cons p r ih => exact (writeSector_onlyMem ..).trans (ih _)

theorem noteReads_onlyMem (s : State) (a n : Nat) : OnlyMem s (noteReads s a n) := by
  unfold noteReads
  generalize sectorPieces a n n = l
  induction l generalizing s with
  | nil => rfl
  | cons p r ih => exact (noteRead_onlyMem ..).trans (ih _)

/-! ### Every memory operation keeps the canonical form -/

/-- Memory is in its canonical form. -/
abbrev MemWf (s : State) : Prop := Memory.wf s.mem.bytes = true

theorem reset_memWf : MemWf State.reset := rfl

theorem memWf_ite {t u : State} {p : Prop} [Decidable p] (ht : MemWf t) (hu : MemWf u) : MemWf (if p then t else u) := by
  by_cases h : p
  · rw [if_pos h]; exact ht
  · rw [if_neg h]; exact hu

theorem writeByte_memWf {s : State} (h : MemWf s) (a : Nat) (b : Byte) : MemWf (writeByte s a b) := twf_tput h
theorem countMem_memWf {s : State} (h : MemWf s) (d k n : Nat) : MemWf (countMem s d k n) := h
theorem retag_memWf {s : State} (h : MemWf s) (a : Nat) : MemWf (retag s a) := h
theorem setSectorPoison_memWf {s : State} (h : MemWf s) (a : Nat) (v : Bool) : MemWf (setSectorPoison s a v) := h

/-- The log's value kept apart: the kernel must not evaluate it to see that the bytes stand. -/
theorem withErrLog_bytes (s : State) (v : W64) : ({ s with mem := { s.mem with errLog := v } } : State).mem.bytes = s.mem.bytes := rfl

@[simp] theorem logMemError_bytes (s : State) (a kind : Nat) : (logMemError s a kind).mem.bytes = s.mem.bytes := by
  unfold logMemError
  split
  · rfl
  · exact withErrLog_bytes s _

theorem logMemError_memWf {s : State} (h : MemWf s) (a kind : Nat) : MemWf (logMemError s a kind) := by
  unfold MemWf
  rw [logMemError_bytes]
  exact h

theorem countLine_memWf {s : State} (h : MemWf s) (a : Nat) : MemWf (countLine s a) := memWf_ite h h

theorem noteRead_memWf {s : State} (h : MemWf s) (a : Nat) : MemWf (noteRead s a) := by
  have h0 := countLine_memWf h a
  unfold noteRead
  exact memWf_ite (logMemError_memWf (countMem_memWf h0 ..) ..) (memWf_ite (logMemError_memWf (countMem_memWf h0 ..) ..) h0)

theorem writeBytes_memWf : ∀ (l : List Byte) {s : State} (a : Nat), MemWf s → MemWf (writeBytes s a l)
  | [], _, _, h => h
  | b :: r, _, a, h => writeBytes_memWf r (a + 1) (writeByte_memWf h a b)

theorem writeSector_memWf {s : State} (h : MemWf s) (a : Nat) (bs : List Byte) (p : Bool) : MemWf (writeSector s a bs p) := by
  have body : ∀ (c d : Bool) (l m : List Byte) (q : Bool),
      MemWf (setSectorPoison (writeBytes (if c then (if d then s else noteRead s a)
        else writeBytes (if d then s else noteRead s a) (a / 32 * 32) m) a l) a q) := fun c d l m q =>
    have h0 : MemWf (if d then s else noteRead s a) := memWf_ite h (noteRead_memWf h a)
    setSectorPoison_memWf (writeBytes_memWf _ _ (memWf_ite h0 (writeBytes_memWf _ _ h0))) _ _
  unfold writeSector
  exact memWf_ite (countMem_memWf h ..) (memWf_ite h (memWf_ite
    (countLine_memWf (retag_memWf (body _ _ _ _ _) _) _) (body _ _ _ _ _)))

theorem writeMem_memWf {s : State} (h : MemWf s) (a : Nat) (bs : List Byte) : MemWf (writeMem s a bs) := by
  unfold writeMem
  generalize sectorPieces a bs.length bs.length = l
  induction l generalizing s with
  | nil => exact h
  | cons p r ih => exact ih (writeSector_memWf h ..)

/-- Free bytes of a store stand in their order, none of them zero. -/
theorem twfFrom_freeBytes (a n v : Nat) : twfFrom 0 a (freeBytes a n v) = true := by
  have key : ∀ (l : List Nat) (lo : Nat), List.IsChain (· < ·) l → (∀ i ∈ l, lo ≤ i) →
      twfFrom (0 : Byte) (a + lo) (l.filterMap fun i =>
        let b := BitVec.ofNat 8 (v / 256 ^ i)
        if b = 0 then none else some (a + i, b)) = true := by
    intro l
    induction l with
    | nil => intros; rfl
    | cons i r ih =>
      intro lo hc hlo
      have hr : ∀ j ∈ r, i + 1 ≤ j := by
        intro j hj
        have := (List.isChain_iff_pairwise.1 hc)
        rw [List.pairwise_cons] at this
        exact this.1 j hj
      have hc' : List.IsChain (· < ·) r := by
        have := (List.isChain_iff_pairwise.1 hc)
        rw [List.pairwise_cons] at this
        exact List.isChain_iff_pairwise.2 this.2
      have hi := hlo i (by simp)
      by_cases hb : BitVec.ofNat 8 (v / 256 ^ i) = 0
      · simp only [List.filterMap_cons, hb, if_true]
        exact ih lo hc' fun j hj => by have := hr j hj; omega
      · simp only [List.filterMap_cons, hb, if_false]
        simp only [twfFrom, Bool.and_eq_true, decide_eq_true_eq]
        exact ⟨⟨by omega, hb⟩, ih (i + 1) hc' hr⟩
  exact key (List.range n) 0 (List.isChain_iff_pairwise.2 (List.pairwise_lt_range)) (fun _ _ => Nat.zero_le _)

/-- Every key of free bytes lies in their range. -/
theorem freeBytes_keys {a n v : Nat} {e : Nat × Byte} (h : e ∈ freeBytes a n v) : a ≤ e.1 ∧ e.1 < a + n := by
  simp only [freeBytes, List.mem_filterMap, List.mem_range] at h
  obtain ⟨i, hi, he⟩ := h
  split at he
  · cases he
  · cases he
    simp
    exact hi

/-- Canonical bytes below `a`, with free bytes from `a` and from `b` on. -/
theorem twf_withFree {l : Tbl Byte} {a b n m v w : Nat} (h : twf 0 l = true) (hl : ∀ e ∈ l, e.1 < a) (hab : a + n ≤ b) :
    twf 0 (l ++ (freeBytes a n v ++ freeBytes b m w)) = true :=
  twfFrom_append (Nat.zero_le a) h hl
    (twfFrom_append (Nat.le_trans (Nat.le_add_right a n) hab) (twfFrom_freeBytes a n v)
      (fun _ he => Nat.lt_of_lt_of_le (freeBytes_keys he).2 hab) (twfFrom_freeBytes b m w))

theorem loseStores_memWf {s : State} (h : MemWf s) : MemWf (loseStores s) := by
  unfold loseStores MemWf Memory.wf
  refine twf_withFree (twfFrom_filter h) ?_ ?_
  · intro e he
    have := (List.mem_filter.mp he).2
    simp only [decide_eq_true_eq] at this
    exact Nat.lt_of_lt_of_le this (by decide)
  · decide

theorem breakScrub_memWf {s : State} (h : MemWf s) : MemWf (breakScrub s) := by
  unfold breakScrub
  split
  · exact h
  · exact h
  · exact twfFrom_filter h

end Sys2Proof.Machine
end

