-- ==== Sys2Proof/Laws/Seq.lean ====
section
/-!
SUPPORT. Laws of the sequencer's shared operations: what one step of a core does, and the registers.
-/

namespace Sys2Proof.Machine

open Sys2Proof

/-- Where the sequencer executes a word, its step is the instruction's own effect. -/
theorem seqStep_runs {s : State} {core : Nat} {w : W32} (h : SeqRuns s core w) (body : State → Core → SeqRes) :
    seqStep core w body s = .next (seqApply core (body s (getCore s core)) s) := by
  obtain ⟨hc, hr, hp, hl, hf⟩ := h
  have hc' : decide (core < Config.numCores) = true := by simpa using hc
  unfold seqStep guardUnit
  simp [hc', hr, hp, hf, hl]

/-- A result for the core alone. -/
theorem seqStep_next {s : State} {core : Nat} {w : W32} (h : SeqRuns s core w) {f : Core → SeqRes} {c : Core}
    (hf : f (getCore s core) = .next c) : seqStep core w (onCore f) s = .next (seqNext core c s) := by
  rw [seqStep_runs h]
  simp [onCore, hf, seqApply, seqNext]

@[simp] theorem getCore_setCore (s : State) (i j : Nat) (c : Core) :
    getCore (setCore s i c) j = if j = i then c else getCore s j := by simp [getCore, setCore]

@[simp] theorem getCore_modCore (s : State) (i j : Nat) (f : Core → Core) :
    getCore (modCore s i f) j = if j = i then f (getCore s i) else getCore s j := by simp [modCore]

end Sys2Proof.Machine
end

