-- ==== Sys2Proof/Laws/Shared.lean ====
section
/-!
SUPPORT. The shared operations: what reads back after an update of a port, a host port, a cell or a peer, what completing a command and
queueing an event or a message do, and how a command's guard, acceptance and the queue of commands stand to the step.
-/

namespace Sys2Proof.Machine

open Sys2Proof

/-! ### Guards -/

@[simp] theorem guardUnit_true (s : State) : guardUnit true s = .next s := rfl
@[simp] theorem guardUnit_false (s : State) : guardUnit false s = .fault .noSuchUnit := rfl
@[simp] theorem whenTaken_true (f : State → State) (s : State) : whenTaken true f s = f s := rfl
@[simp] theorem whenTaken_false (f : State → State) (s : State) : whenTaken false f s = s := rfl

/-- A guarded row answers a next state exactly where its unit exists. -/
theorem guardUnit_next {ok : Bool} {s t : State} : guardUnit ok s = .next t ↔ ok = true ∧ t = s := by
  cases ok <;> simp [guardUnit, eq_comm]

/-- The front command runs on the state with the rest of the queue. -/
theorem step_cons {s : State} {i : Instr} {r : List Instr} (h : s.pending = i :: r) :
    step s = exec i { s with pending := r } := by
  unfold step
  rw [h]

theorem step_nil {s : State} (h : s.pending = []) : step s = .next s := by
  unfold step
  rw [h]

/-! ### Reading back -/

@[simp] theorem getCell_setCell (s : State) (i j : Nat) (c : Cell) :
    getCell (setCell s i c) j = if j = i then c else getCell s j := by simp [getCell, setCell]

@[simp] theorem getPeer_setPeer (s : State) (r q : Nat) (v : Peer) :
    getPeer (setPeer s r v) q = if q = r then v else getPeer s q := by simp [getPeer, setPeer]

theorem getCp_setCp (s : State) (p q : Nat) (v : PortCp) :
    getCp (setCp s p v) q = if (p = 0) = (q = 0) then v else getCp s q := by
  unfold getCp setCp
  by_cases hp : p = 0 <;> by_cases hq : q = 0 <;> simp [hp, hq]

@[simp] theorem getCp_setCp_same (s : State) (p : Nat) (v : PortCp) : getCp (setCp s p v) p = v := by simp [getCp_setCp]

@[simp] theorem setPort_length (s : State) (p : Nat) (v : Port) : (setPort s p v).lk.ports.length = s.lk.ports.length := by
  simp [setPort]

theorem getPort_setPort (s : State) (p q : Nat) (v : Port) (h : p < s.lk.ports.length) :
    getPort (setPort s p v) q = if q = p then v else getPort s q := by
  unfold getPort setPort lget
  by_cases hq : q = p
  · subst hq
    simp [h]
  · rw [if_neg hq]
    simp [List.getElem?_set_ne (Ne.symm hq)]

/-- A port beyond the list is not written. -/
theorem setPort_absent (s : State) (p : Nat) (v : Port) (h : s.lk.ports.length ≤ p) : setPort s p v = s := by
  unfold setPort
  rw [List.set_eq_of_length_le h]

/-! ### Completions and events -/

/-- A command that its port awaits nowhere is not completed. -/
theorem complete_unknown {h st fl : Nat} {l : List W64} {s : State}
    (hn : (getCp s (portOfHandle h)).pend.find? (fun p => p.handle == h && !p.done) = none)
    (hr : (getCp s (portOfHandle h)).runsOn.contains h = false) : complete h st fl l s = s := by
  unfold complete
  dsimp only
  rw [hn, hr]
  rfl

/-- A command that ran on over its port's reset has no record; it is struck off (R399, R407). -/
theorem complete_runsOn {h st fl : Nat} {l : List W64} {s : State}
    (hn : (getCp s (portOfHandle h)).pend.find? (fun p => p.handle == h && !p.done) = none)
    (hr : (getCp s (portOfHandle h)).runsOn.contains h = true) :
    complete h st fl l s = modCp s (portOfHandle h) fun c => { c with runsOn := c.runsOn.filter fun x => x != h } := by
  unfold complete
  dsimp only
  rw [hn, hr]
  rfl

/-- A command that its port awaits is marked done, and its record waits last. -/
theorem complete_known {h st fl : Nat} {l : List W64} {s : State} {p : Pending}
    (hp : (getCp s (portOfHandle h)).pend.find? (fun p => p.handle == h && !p.done) = some p) :
    complete h st fl l s = modCp s (portOfHandle h) fun c =>
      { c with pend := lupdate (fun q => q.handle == h && !q.done) (fun q => { q with done := true }) c.pend,
               records := c.records ++
                 [{ seq := p.seq, handle := h, status := st, opcode := p.opcode, tag := p.tag, flags := fl,
                    result := (l ++ List.replicate 4 0).take 4, vec := p.vec, noIrq := p.noIrq }] } := by
  unfold complete
  dsimp only
  rw [hp]
  rfl

/-- Completing a command writes the command processor's account and nothing else. -/
theorem complete_onlyCp (h st fl : Nat) (l : List W64) (s : State) :
    complete h st fl l s = { s with cp := (complete h st fl l s).cp } := by
  cases hf : (getCp s (portOfHandle h)).pend.find? fun p => p.handle == h && !p.done with
  | none =>
    cases hr : (getCp s (portOfHandle h)).runsOn.contains h
    · rw [complete_unknown hf hr]
    · rw [complete_runsOn hf hr]; rfl
  | some p => rw [complete_known hf]; rfl

/-- Nor does it touch the long operations, the token or the queue of claims. -/
theorem complete_shared (h st fl : Nat) (l : List W64) (s : State) :
    (complete h st fl l s).cp.longops = s.cp.longops ∧ (complete h st fl l s).cp.holder = s.cp.holder ∧
      (complete h st fl l s).cp.claims = s.cp.claims ∧ (complete h st fl l s).cp.remembered = s.cp.remembered ∧
      (complete h st fl l s).cp.accepting = s.cp.accepting := by
  cases hf : (getCp s (portOfHandle h)).pend.find? fun p => p.handle == h && !p.done with
  | none =>
    cases hr : (getCp s (portOfHandle h)).runsOn.contains h
    · rw [complete_unknown hf hr]; exact ⟨rfl, rfl, rfl, rfl, rfl⟩
    · rw [complete_runsOn hf hr]
      unfold modCp setCp
      dsimp only
      split <;> exact ⟨rfl, rfl, rfl, rfl, rfl⟩
  | some p =>
    rw [complete_known hf]
    unfold modCp setCp
    dsimp only
    split <;> exact ⟨rfl, rfl, rfl, rfl, rfl⟩

/-- An event goes to one port's queue alone. -/
theorem eventOn_onlyCp (p code : Nat) (l : List W64) (s : State) : eventOn p code l s = { s with cp := (eventOn p code l s).cp } := by
  unfold eventOn
  dsimp only
  split <;> rfl

/-- A trace record goes to the trace ring alone. -/
theorem traceRec_onlyDb (k a : Nat) (s : State) : traceRec k a s = { s with db := (traceRec k a s).db } := by
  unfold traceRec
  split <;> rfl

/-! ### Messages -/

/-- A queue with a place and no sender waiting takes the message at its tail; any other makes the sender wait (R24). -/
theorem postDown_enters {s : State} {k : Nat} {p : Payload} (hl : s.ws.down.length < 64) (hw : s.ws.waitDown = []) :
    postDown s k p = enterDown s k p := by
  unfold postDown
  rw [hw]
  simp [hl]
  rfl

theorem postDown_waits {s : State} {k : Nat} {p : Payload} (h : 64 ≤ s.ws.down.length ∨ s.ws.waitDown ≠ []) :
    postDown s k p = { s with ws := { s.ws with waitDown := s.ws.waitDown ++ [(k, p)] } } := by
  unfold postDown
  rw [if_neg]
  simp
  intro hl
  exact h.resolve_left (by omega)

theorem postUp_enters {s : State} {k src : Nat} {p : Payload} (hl : s.ws.up.length < 128) (hw : s.ws.waitUp = []) :
    postUp s k src p = enterUp s k src p := by
  unfold postUp
  rw [hw]
  simp [hl]
  rfl

theorem postUp_waits {s : State} {k src : Nat} {p : Payload} (h : 128 ≤ s.ws.up.length ∨ s.ws.waitUp ≠ []) :
    postUp s k src p = { s with ws := { s.ws with waitUp := s.ws.waitUp ++ [(k, src, p)] } } := by
  unfold postUp
  rw [if_neg]
  simp
  intro hl
  exact h.resolve_left (by omega)

theorem enterDown_down (s : State) (k : Nat) (p : Payload) : (enterDown s k p).ws.down = s.ws.down ++ [mkMsg s 0 k 0x22 p] := rfl
theorem enterUp_up (s : State) (k src : Nat) (p : Payload) : (enterUp s k src p).ws.up = s.ws.up ++ [mkMsg s 1 k src p] := rfl

theorem refillTele_onlyWs (b : Bool) (s : State) : refillTele b s = { s with ws := (refillTele b s).ws } := by
  unfold refillTele
  split <;> split <;> rfl

/-- Telemetry touches the waystations alone. -/
theorem postTele_onlyWs (s : State) (k src : Nat) (p : Payload) : postTele s k src p = { s with ws := (postTele s k src p).ws } := by
  unfold postTele
  split
  · split <;> rfl
  · split <;> rfl

theorem popTele_onlyWs (s : State) : popTele s = { s with ws := (popTele s).ws } := by
  unfold popTele
  split
  · rfl
  · rw [refillTele_onlyWs]

/-- A message of the interlock queue goes behind those before it; an order then waits for its acknowledgement (R26). -/
theorem enterInter_inter (s : State) (k n : Nat) (p : Payload) :
    (enterInter s k n p).ws.inter = s.ws.inter ++ [mkMsg s 3 k 0x40 p] := by
  unfold enterInter
  dsimp only
  split
  · rfl
  · rw [traceRec_onlyDb]
    rfl

theorem enterInter_unacked {s : State} {k : Nat} (n : Nat) (p : Payload) (hk : k ≠ 0x26) :
    (enterInter s k n p).ws.unacked = s.ws.unacked ++ [(mkMsg s 3 k 0x40 p, n)] := by
  unfold enterInter
  dsimp only
  rw [if_neg hk, traceRec_onlyDb]
  rfl

theorem postOrder_enters {s : State} {k : Nat} {p : Payload} (hl : s.ws.inter.length < 32) (hw : s.ws.waitInter = []) :
    postOrder s k p = enterInter s k 0 p := by
  unfold postOrder
  rw [hw]
  simp [hl]

end Sys2Proof.Machine
end

