-- ==== Sys2Proof/Tests/Slice0.lean ====
section
/-!
SUPPORT. Tests: well-formedness refuses what it should, words written out from the spec's encodings, and witnesses: a concrete
state and operands that meet the hypotheses of each statement.
-/

namespace Sys2Proof.Tests

set_option Elab.async false

open Sys2Proof Sys2Proof.Machine

/-- A property of every entry of a list, decided entry by entry. -/
abbrev Each {α : Type} (l : List α) (p : α → Prop) [∀ x, Decidable (p x)] : Prop := (l.all fun x => decide (p x)) = true

/-! ### Well-formedness -/

/-- A command slot's head of port A. -/
def hdrA : CmdHdr := { port := 0, fence := false, noIrq := false, vec := 0, tag := 0, step := 0 }

/-- A descriptor of an ALL_REDUCE among two members. -/
def descA : CollDesc :=
  { kind := 1, mode := 0, flags := 0, param := 0, caravan := 1, src := 0, dst := 0x1000, group := 0x2000, count := 16,
    members := 2, root := 0, unitLog2 := 0, rsv := false, step := 0, aux := 0 }

/-- A packet to rank 1 with no payload; its CRC field holds nothing yet. -/
def pktZ : Packet :=
  { dest := 1, src := 2, typ := 1, epoch := 0, cmark := false, layer := 0, dateline := false, echo := false, caravan := 0, seq := 0,
    ackSeq := 0, sub := 0, stage := 0, offset := 0, check := 0, endUnit := 0, payload := [], poison := [], crc := 0, more := 0 }

/-- A packet with the CRC that R311 asks of it. -/
def signed (k : Packet) : Packet := { k with crc := pktCrc k }

/-- A packet to rank 1 that passes its CRC. -/
def pktA : Packet := signed pktZ

/-- A pilot frame from port 1 of rank 0 that faces our port 0, its CRC field empty. -/
def frameZ : PilotFrame :=
  { magic := 0xC7, crc := 0, rankValid := true, dataReady := true, draining := false, hold := false, lasersOn := false, rank := 0,
    physPort := 1, dir := 1, state := 1, rxActive := 0, move := none, moveTo := 0, count := 0 }

/-- A frame with the CRC that R297 asks of it. -/
def sealed (f : PilotFrame) : PilotFrame := { f with crc := crc16 (frameBody f) }

/-- The frame from port 1 of rank 0, valid. -/
def frameA : PilotFrame := sealed frameZ

theorem test_wf_accepts :
    (Instr.queryDevice hdrA).wf ∧ (Instr.allReduce hdrA descA).wf ∧ (Instr.packetRoute 9 pktA false false).wf ∧
      (Instr.pilotFrame 9 frameA).wf ∧ (Instr.registerWrite 1 0x100018 4 0).wf ∧ (Instr.dramWrite 0x40 (List.replicate 32 0) false).wf := by
  decide
theorem test_wf_refuses_port : (Instr.queryDevice { hdrA with port := 2 }).wf = false := by decide
theorem test_wf_refuses_vector : (Instr.queryDevice { hdrA with vec := 256 }).wf = false := by decide
theorem test_wf_refuses_descriptor : (Instr.allReduce hdrA { descA with root := 65536 }).wf = false := by decide
theorem test_wf_refuses_frame : (Instr.pilotFrame 0 { frameA with dir := 16 }).wf = false := by decide
theorem test_wf_refuses_lane : (Instr.pilotFrame 0 { frameA with move := some 20 }).wf = false := by decide
theorem test_wf_refuses_packet : (Instr.packetRoute 0 { pktA with epoch := 4 } false false).wf = false := by decide
theorem test_wf_refuses_width : (Instr.registerWrite 0 0x100018 2 0).wf = false := by decide
theorem test_wf_refuses_optical_port : (Instr.pilotLost 10).wf = false := by decide
theorem test_wf_refuses_core : (Instr.pwait 4800).wf = false := by decide
theorem test_wf_refuses_cluster : (Instr.moveStart 1200).wf = false := by decide
theorem test_wf_refuses_cell : (Instr.bankLoad 96000).wf = false := by decide
theorem test_wf_refuses_die : (Instr.phaseStart 8).wf = false := by decide
theorem test_wf_refuses_stack : (Instr.telemetryInterval 8).wf = false := by decide
theorem test_wf_refuses_stream_port : (Instr.streamStart 0 4 false).wf = false := by decide
theorem test_wf_refuses_fibre : (Instr.fibrePowerHold 0 5 9001).wf = false := by decide
theorem test_wf_refuses_sector : (Instr.dramWrite 0x41 (List.replicate 32 0) false).wf = false := by decide
theorem test_wf_refuses_slot : (Instr.commandSlotWrite 0 0xFFFFF [0, 0]).wf = false := by decide
theorem test_wf_refuses_offset : (Instr.registerWrite 0 0x4000000 8 0).wf = false := by decide
theorem test_wf_refuses_channel : (Instr.creditReturn 0 20 1).wf = false := by decide

/-! ### Words of the spec (06) -/

/-- The words of the examples of the sequencer's chapter: sldv.4 w4, [g7]+, 64, 0xF; vfma.d w8, w5, w5, w8; sstv.2 w7, [g8]+, 64,
0x3; bne g10, g0, -7; and the two words of the table look-up. -/
theorem test_words_of_the_examples :
    encS 0x32 4 7 3 true 0xF 0 = 0xC841FF80 ∧ encQ 0x2B 8 5 5 8 0 = 0xAC814520 ∧ encS 0x34 7 8 3 true 0x3 0 = 0xD0723980 ∧
      encB 0x21 10 0 0x3FF9 = 0x84A03FF9 := by decide
theorem test_words_of_the_table_look_up :
    encT 0x2C 15 10 14 0x03 = 0xB0F28E03 ∧ encT 0x2C 15 10 14 0x0F = 0xB0F28E0F := by decide

/-! ### Witnesses: the sequencer -/

/-- Core 0 runs a program whose word at the program counter is `w`. -/
def seqAt (w : W32) (f : Core → Core) : State :=
  setCore State.reset 0 (f { Core.reset with
    running := true, section_ := (0, 64),
    imem := (List.range 4).foldl (fun t i => tput 0 t i (BitVec.ofNat 8 (w.toNat / 256 ^ i))) [] })

/-- A region of cluster 0 with one phase and one window over the whole cluster store. -/
def regA : Region :=
  { ctxMask := 1, program := true, first := 0, count := 1, entry := 0,
    phases := [{ id := 7, ctx := 0, windowMask := 1, maxCount := 5, tapeBytes := 0 }],
    windows := [{ kind := 0, access := 3, base := 0, len := 0x200000 }], signed := false, digest := [] }

/-- The same with region 3 resident, which core 0 belongs to. -/
def seqIn (w : W32) (f : Core → Core) : State :=
  let s := seqAt w fun c => { f c with region := 3 }
  { s with fb := { s.fb with regions := [(3, regA)] } }

theorem witness_integer_instructions :
    (Each [0, 1, 2, 3, 4, 5, 6, 7, 8, 9, 10, 11, 12, 13, 16, 17, 18, 19, 20, 21] fun n =>
      SeqRuns (seqAt (encT 0 1 2 (if n < 20 then 3 else 0) n) id) 0 (encT 0 1 2 (if n < 20 then 3 else 0) n)) ∧
    (Each [1, 2, 3, 4, 5, 6] fun n => SeqRuns (seqAt (encI n 1 2 0x1FFF) id) 0 (encI n 1 2 0x1FFF)) ∧
    (Each [63, 127, 191] fun k => SeqRuns (seqAt (encI 7 1 2 (BitVec.ofNat 14 k)) id) 0 (encI 7 1 2 (BitVec.ofNat 14 k))) ∧
    SeqRuns (seqAt (encU 8 1 0x80000) id) 0 (encU 8 1 0x80000) := by decide +kernel

theorem witness_register_files :
    (1 : RField) ≠ 0 ∧ (3 : Nat) < 4 ∧ ([(0, false), (1, true), (2, false), (3, false)] : List PV).length = 4 ∧ (64 / 4 : Nat) ≠ 15 := by
  decide

theorem witness_float_instructions :
    (Each [0, 1, 2, 3, 4, 8, 9, 10, 11, 12, 13, 14] fun n => SeqRuns (seqAt (encT 0x28 1 2 3 n) id) 0 (encT 0x28 1 2 3 n)) ∧
    (Each [5, 6, 16, 17] fun n => SeqRuns (seqAt (encT 0x28 1 2 0 n) id) 0 (encT 0x28 1 2 0 n)) ∧
    (Each [0, 1, 2, 3] fun n => SeqRuns (seqAt (encQ 0x29 1 2 3 4 n) id) 0 (encQ 0x29 1 2 3 4 n)) ∧
    (readG (getCore (seqAt (encQ 0x29 1 2 3 4 3) id) 0) 4).2 = false ∧
    (let s := seqAt (encQ 0x29 1 2 3 4 3) fun c => writeG c 4 (1, true)
     SeqRuns s 0 (encQ 0x29 1 2 3 4 3) ∧ (readG (getCore s 0) 4).2 = true) := by decide +kernel

theorem witness_float_sums :
    (fp64.decode 0x3FF0000000000000).isFin = true ∧ (fp64.decode 0).isFin = true ∧ (fp64.decode 0x7FEFFFFFFFFFFFFF).isFin = true ∧
    fp64.isNaN 0x7FF0000000000001 = true ∧ fp64.decode 0x7FF0000000000001 ≠ .poison ∧ fp64.decode 0x3FF0000000000000 ≠ .poison := by
  decide +kernel

theorem witness_vector_instructions :
    (Each [0, 1, 2, 3] fun w => Each [0, 1, 2, 3, 4, 5, 6, 7, 8, 9, 10] fun n =>
      SeqRuns (seqAt (encT 0x2A 1 2 3 (w * 64 + n)) id) 0 (encT 0x2A 1 2 3 (w * 64 + n))) ∧
    (Each [0xD0, 0xD1, 0xD2, 0xD3, 0xD4, 0xD5, 0xD6, 0xD7] fun n =>
      SeqRuns (seqAt (encT 0x2A 1 2 3 n) id) 0 (encT 0x2A 1 2 3 n)) ∧
    SeqRuns (seqAt (encQ 0x2B 1 2 3 4 0) id) 0 (encQ 0x2B 1 2 3 4 0) ∧
    (Each [0, 1, 2, 3] fun w =>
      SeqRuns (seqAt (encT 0x2D 1 2 0 (w * 16)) id) 0 (encT 0x2D 1 2 0 (w * 16)) ∧
      SeqRuns (seqAt (encT 0x2D 1 2 3 (w * 16 + 1)) id) 0 (encT 0x2D 1 2 3 (w * 16 + 1)) ∧
      SeqRuns (seqAt (encT 0x2D 1 2 3 (w * 16 + 2)) id) 0 (encT 0x2D 1 2 3 (w * 16 + 2))) ∧
    (Each [0, 3, 12, 15] fun n => SeqRuns (seqAt (encT 0x2C 1 2 3 n) id) 0 (encT 0x2C 1 2 3 n)) := by decide +kernel

/-- Addresses in the words of an access: the base register 2 holds `a`. -/
def based (a : W64) (c : Core) : Core := writeG c 2 (a, false)

/-- The access of `n` bytes aligned to `al` at the address in G2 lands in each memory of Table 6.1, at its last place. -/
def landsEverywhere (w : W32) (n al : Nat) (write : Bool) : Bool :=
  let addr := fun (m : SeqMem) =>
    match m with
    | .cstore => 0x200000 - n
    | .table => 0x404000 - n
    | .data => 0x804000 - n
    | .imem => 0xC10000 - n
  let off := fun (m : SeqMem) =>
    match m with
    | .cstore => 0x200000 - n
    | .table => 0x4000 - n
    | .data => 0x4000 - n
    | .imem => 0x10000 - n
  (([.cstore, .table, .data] : List SeqMem) ++ (if write then [] else [SeqMem.imem])).all fun m =>
    let s := seqIn w (based (BitVec.ofNat 64 (addr m)))
    decide (SeqReaches s (getCore s 0) (BitVec.ofNat 64 (addr m), false) n al write m (off m) ∧ SeqRuns s 0 w ∧
      readG (getCore s 0) 2 = (BitVec.ofNat 64 (addr m), false))

theorem witness_loads :
    landsEverywhere (encI 0x10 1 2 0) 1 1 false ∧ landsEverywhere (encI 0x11 1 2 0) 1 1 false ∧
    landsEverywhere (encI 0x12 1 2 0) 2 2 false ∧ landsEverywhere (encI 0x13 1 2 0) 2 2 false ∧
    landsEverywhere (encI 0x14 1 2 0) 4 4 false ∧ landsEverywhere (encI 0x15 1 2 0) 4 4 false ∧
    landsEverywhere (encI 0x16 1 2 0) 8 8 false ∧ landsEverywhere (encI 0x1C 1 2 0) 8 8 false ∧
    landsEverywhere (encI 0x1E 1 2 0) 32 32 false := by decide +kernel

theorem witness_stores :
    landsEverywhere (encI 0x18 1 2 0) 1 1 true ∧ landsEverywhere (encI 0x19 1 2 0) 2 2 true ∧
    landsEverywhere (encI 0x1A 1 2 0) 4 4 true ∧ landsEverywhere (encI 0x1B 1 2 0) 8 8 true ∧
    landsEverywhere (encI 0x1D 1 2 0) 8 8 true ∧ landsEverywhere (encI 0x1F 1 2 0) 32 32 true := by decide +kernel

/-- The last byte of the last core's cluster store; a sector that is poisoned and another that is not. -/
theorem witness_sequencer_stores :
    (4799 : Nat) < Config.numCores ∧ 0 < ([5] : List Byte).length ∧ 0x1FFFFF % 32 + ([5] : List Byte).length ≤ 32 ∧
    0x1FFFFF + ([5] : List Byte).length ≤ 0x200000 ∧
    sectorPoison (setSectorPoison State.reset 0x010000000000 true) 0x010000000000 = true ∧
    sectorPoison State.reset 0x010000000000 = false := by decide +kernel

theorem witness_structure_accesses :
    (Each [(2, 0x30, false), (3, 0x31, false), (4, 0x32, false), (2, 0x34, true), (3, 0x35, true), (4, 0x36, true)] fun x =>
      landsEverywhere (encS x.2.1 1 2 3 true 0x3 0) (32 * x.1) 8 x.2.2) ∧
    (let s := seqIn (encS 0x36 1 2 3 true 0x3 0) (based 0x800000)
     (Each [0, 1, 2, 3] fun r => (readW (getCore s 0) (1 + r)).any Prod.snd = false) ∧
     (Each (List.range 160) fun x => (seqReadByte s 0 (getCore s 0) .data x).2 = false)) := by decide +kernel

theorem witness_branches_and_jumps :
    (Each [0x20, 0x21, 0x22, 0x23, 0x24, 0x25] fun n =>
      let s := seqAt (encB n 1 2 0x3FFF) id
      SeqRuns s 0 (encB n 1 2 0x3FFF) ∧ (readG (getCore s 0) 1).2 = false ∧ (readG (getCore s 0) 2).2 = false) ∧
    SeqRuns (seqAt (encU 0x26 1 0xFFFFF) id) 0 (encU 0x26 1 0xFFFFF) ∧
    (let s := seqAt (encI 0x27 1 2 0x3FFF) id
     SeqRuns s 0 (encI 0x27 1 2 0x3FFF) ∧ (readG (getCore s 0) 2).2 = false) := by decide +kernel

/-- A stream descriptor of one FP64 element at edge 0 and a move of 32 bytes, as words of W2. -/
def descIn (w : W32) (x : Nat) (f : Core → Core) : State :=
  seqIn w fun c => writeW (f c) 2 ((List.range 4).map fun k => (BitVec.ofNat 64 (x / 2 ^ (64 * k)), false))

def moveWord : Nat := 32 * 2 ^ 96

theorem witness_descriptors :
    (let s := descIn (encT 0x38 0 2 0 0) (7 * 2 ^ 4) id
     let x := wNat (readW (getCore s 0) 2)
     (readW (getCore s 0) 2).any Prod.snd = false ∧ SeqRuns s 0 (encT 0x38 0 2 0 0) ∧
       streamOk x { streamOf x (nextOrd (getCore s 0)) with tape := isTapeStream (issueWindows s (getCore s 0)) (streamOf x 0) } = true) ∧
    (let s := descIn (encT 0x39 0 2 0 0) moveWord id
     let x := wNat (readW (getCore s 0) 2)
     (readW (getCore s 0) 2).any Prod.snd = false ∧ SeqRuns s 0 (encT 0x39 0 2 0 0) ∧
       moveOk x (moveOf x (nextOrd (getCore s 0)) 0) = true) := by decide +kernel

theorem witness_waits :
    (Each [encU 0x3A 0 0xFFFF, encT 0x3D 0 0 0 0, encT 0x3D 0 0 0 3, encT 0x3D 0 0 3 1, encT 0x3D 0 0 0 2] fun x =>
      SeqRuns (seqAt x id) 0 x) ∧
    (let s := seqAt (encT 0x3D 0 0 3 1) id
     (getCore s 0).phase = none ∧ ((getCore s 0).streams.any fun t => t.isOut) = false ∧ (getCore s 0).moves = []) ∧
    (let s := seqAt (encT 0x3D 0 0 3 1) fun c => { c with phase := some ⟨7, 0, 1, 3, false⟩ }
     SeqRuns s 0 (encT 0x3D 0 0 3 1) ∧ (getCore s 0).phase.isSome = true) := by decide +kernel

/-- Cores `l` of cluster 0 run and stand at the barrier of region 3. -/
def atBarrier (l : List Nat) : State :=
  l.foldl (fun st i => setCore st i { Core.reset with running := true, psyncWait := true, psync := 1, region := 3 })
    { State.reset with fb := { Fb.reset with regions := [(3, regA)] } }

theorem witness_barrier :
    regionOf (atBarrier [0, 1, 2, 3]) 3 = some regA ∧
    (Each [0, 1, 2, 3] fun i => (getCore (atBarrier [0, 1, 2, 3]) i).running = true ∧ (getCore (atBarrier [0, 1, 2, 3]) i).psyncWait = true ∧
      (getCore (atBarrier [0, 1, 2, 3]) i).psync = (getCore (atBarrier [0, 1, 2, 3]) 0).psync ∧
      dieHalted (atBarrier [0, 1, 2, 3]) (dieOfCore i) = false) ∧
    regionOf (atBarrier [0, 1, 2]) 3 = some regA ∧ (getCore (atBarrier [0, 1, 2]) 3).psyncWait = false := by decide +kernel

theorem witness_control_registers :
    (Each ([0, 1, 2, 3, 0x10, 0x11, 0x12, 0x20, 0x30, 0x400, 0x87F, 0x3FFF] : List (BitVec 14)) fun n =>
      SeqRuns (seqAt (encI 0x3B 1 0 n) id) 0 (encI 0x3B 1 0 n) ∧ SeqRuns (seqAt (encI 0x3C 1 0 n) id) 0 (encI 0x3C 1 0 n)) ∧
    (readG (getCore (seqAt (encI 0x3C 1 0 0x10) id) 0) 1).2 = false := by decide +kernel

/-- PRUN of phase 7 with count `n` in G2. -/
def prunAt (n : W64) (f : Core → Core) : State := seqIn (encI 0x3E 0 2 7) fun c => f (writeG c 2 (n, false))

theorem witness_prun :
    (Each [1, 5] fun n => Each [none, some (⟨7, 0, 1, 3, false⟩ : CorePhase)] fun f =>
      let s := prunAt (BitVec.ofNat 64 n) fun c => { c with phase := f }
      SeqRuns s 0 (encI 0x3E 0 2 7) ∧ readG (getCore s 0) 2 = (BitVec.ofNat 64 n, false) ∧ (getCore s 0).phase = f ∧
        phaseEntry s (getCore s 0).region 7 = some { id := 7, ctx := 0, windowMask := 1, maxCount := 5, tapeBytes := 0 }) := by
  decide +kernel

theorem witness_sequencer_faults :
    (let s := seqAt (encT 0 1 2 3 0) fun c => { c with pc := 64 }
     seqReady s 0 = true ∧ pcInSection (getCore s 0) = false) ∧
    (let s := seqAt 0xFFFFFFFF id
     seqReady s 0 = true ∧ pcInSection (getCore s 0) = true ∧ seqLegal (fetchWord (getCore s 0)) = false) ∧
    (Each [encI 0x16 1 2 0, encB 0x20 2 3 0, encI 0x27 1 2 0] fun w =>
      let s := seqAt w fun c => writeG c 2 (0, true)
      SeqRuns s 0 w ∧ (readG (getCore s 0) 2).2 = true) ∧
    SeqRuns (seqAt (encI 0x16 1 2 1) id) 0 (encI 0x16 1 2 1) ∧
    SeqRuns (seqAt (encI 0x1B 1 2 0) (based 0xC00000)) 0 (encI 0x1B 1 2 0) ∧
    (let s := seqAt (encT 0x38 0 2 0 0) fun c => writeW c 2 [(0, true), (0, false), (0, false), (0, false)]
     SeqRuns s 0 (encT 0x38 0 2 0 0) ∧ (readW (getCore s 0) 2).any Prod.snd = true) ∧
    regionOf (seqIn 0 id) (getCore (seqIn 0 id) 0).region = some regA := by decide +kernel

/-! ### Witnesses: ports and packets -/

/-- Port `p` of the reset module in a state, changed by `f`. -/
def portIn (p : Nat) (st : PState) (f : Port → Port) : State := modPort State.reset p fun v => f { v with state := st }

/-- Measurements: `n` lanes of grade 3, at its threshold, the rest of grade 2. -/
def measuresOf (n : Nat) : List LaneMeasure := (List.range 20).map fun i => ⟨true, if i < n then 1 else 2, 10000⟩

/-- Lanes of grade 3 or better. -/
def goodOf (g : List Nat) : Nat := ((List.range 20).filter fun i => decide (3 ≤ g.getD i 0)).length

theorem witness_lanes :
    (Each [PState.ramp, .train, .active] fun st => TenPorts (portIn 9 st id) ∧ (getPort (portIn 9 st id) 9).state = st) ∧
    goodOf ((measuresOf 16).map gradeOf) = 16 ∧ goodOf ((measuresOf 15).map gradeOf) = 15 ∧
    (⟨false, 0, 0⟩ : LaneMeasure).locked = false ∧ (999 < 1 * 10 ^ 3) ∧
    (Each [0, 1, 2, 3, 4] fun k => 1 * 10 ^ (3 + k) ≤ 10 ^ (3 + k) ∧ 10 ^ (3 + k) < 1 * 10 ^ (4 + k)) ∧ (1 * 10 ^ (3 + 5) ≤ 10 ^ 8) ∧
    (let s := portIn 9 .train fun v => { v with autoAdmit := true, lastId := some (0, 0, 15) }
     let v := getPort s 9
     TenPorts s ∧ v.state = .train ∧ v.autoAdmit = true ∧ v.lastId = some (v.farRank, v.farPort, v.dir)) ∧
    (let s := portIn 9 .train fun v => { v with autoAdmit := true }
     let v := getPort s 9
     v.state = .train ∧ ¬ v.lastId = some (v.farRank, v.farPort, v.dir)) ∧
    (let s := portIn 0 .active fun v => { v with move := some (15, 19), lanes := v.lanes.set 19 { Lane.reset with role := 16 } }
     let v := getPort s 0
     TenPorts s ∧ v.state = .active ∧ v.move = some (15, 19) ∧ (v.lanes.getD 19 Lane.reset).role = 16) ∧
    (getPort (portIn 0 .active fun v => { v with move := some (15, 19), txMove := some (2, 18) }) 0).txMove = some (2, 18) := by decide +kernel

/-- A module of rank 0x1234 in a torus of 16 by 16 by 16 by 16. -/
def ranked (s : State) : State := { s with lk := { s.lk with rank := 0x11234, torus := 0xFFFF } }

/-- Data lasers permitted, and every port proved. -/
def readyForData (s : State) : State :=
  { s with rst := { s.rst with lasersPermitted := true }, sf := { s.sf with proof := 0x3FF } }

/-- The frame of the neighbour in direction 0: rank 0x1235, port 1, direction 1. -/
def frameB : PilotFrame := sealed { frameZ with rank := 0x1235 }

theorem witness_pilot_frames :
    frameValid frameZ = false ∧ frameValid { frameB with magic := 0xC6 } = false ∧ frameValid frameB = true ∧ frameB.rankValid = true ∧ frameB.dataReady = true ∧
    (let s := ranked State.reset
     TenPorts s ∧ rankValid s = true ∧ (getPort s 0).state = .dark ∧ (getPort s 0).farValid = false ∧ (getPort s 0).dir = 0xF ∧
       directionFor s 0 frameB.rank frameB.dir = some 0 ∧ directionFor s 0 0x1236 1 = none ∧ s.rst.lasersPermitted = false ∧
       lineHeld s 0 = false) ∧
    (let s := readyForData (ranked State.reset)
     TenPorts s ∧ rankValid s = true ∧ (getPort s 0).state = .dark ∧ s.rst.lasersPermitted = true ∧ s.sf.proof.getLsbD 0 = true ∧
       lineHeld s 0 = false) ∧
    (Each [PState.active, .drain, .pilot] fun st => (getPort (portIn 9 st id) 9).state ≠ .dark) ∧
    ({ State.reset.sf with pilotA := 1, pilotB := 0x200 }.pilotA.getLsbD 0 = true ∧
     { State.reset.sf with pilotA := 1, pilotB := 0x200 }.pilotB.getLsbD 9 = true) := by decide +kernel

theorem witness_buttons_and_latches :
    (let s := portIn 0 .active fun v => { v with dir := 0 }
     TenPorts s ∧ (getPort s 0).state = .active ∧ lastRoute s 0 = true ∧ (getPort s 0).touchIgnored = false) ∧
    (let s := modPort (portIn 0 .active fun v => { v with dir := 0 }) 1 fun v => { v with state := .active, dir := 1 }
     let t := { s with lk := { s.lk with bank0 := 0xFFFFFFFFFFF10001 } }
     TenPorts t ∧ (getPort t 0).state = .active ∧ lastRoute t 0 = false) ∧
    (getPort (portIn 9 .drain fun v => { v with touchIgnored := true }) 9).touchIgnored = true ∧
    (Each [PState.ramp, .train, .ready, .active, .drain] fun st => (getPort (portIn 9 st id) 9).touchIgnored = false ∧
      (getPort (portIn 9 st id) 9).state = st) ∧
    (let s := portIn 9 .hold fun v => { v with touched := true }
     TenPorts s ∧ (getPort s 9).touched = true ∧ (getPort s 9).state = .hold ∧ s.ws.portMc.getLsbD 9 = false ∧
       s.ws.portSm.getLsbD 9 = false) ∧
    (Each [PState.released, .hold] fun st => let s := portIn 9 st id
      TenPorts s ∧ (getPort s 9).state = st ∧ smHolds s 9 1 = false ∧ smHolds s 9 2 = false ∧ smHolds s 9 3 = false ∧
        s.pw.state ≠ .p4 ∧ (getPort s 9).flash = 0) := by decide +kernel

theorem witness_drains :
    (let s := portIn 9 .drain id
     TenPorts s ∧ (getPort s 9).state = .drain ∧ (getPort s 9).fromP3 = false ∧ (getPort s 9).egress = []) ∧
    (let s := portIn 9 .drain fun v => { v with egress := [⟨0, pktA, false⟩], waiters := [5] }
     TenPorts s ∧ (getPort s 9).state = .drain ∧ (getPort s 9).fromP3 = false ∧ (getPort s 9).egress ≠ []) := by decide +kernel

/-- Rank 0x1234 with port 0 ACTIVE in direction 0 and up, and bank 0 valid for epoch 0 with no direction down. -/
def linked : State :=
  let s := modPort (ranked State.reset) 0 fun v => { v with state := .active, dir := 0, farState := 5 }
  { s with lk := { s.lk with bank0 := 0xFFFFFFFFFFFF0001 } }

theorem witness_routing :
    (let s := linked
     TenPorts s ∧ (getPort s 0).state = .active ∧ isFenced s 2 = false ∧ inTorus s 1 = true ∧ routeBank s 0 = some s.lk.bank0 ∧
       routeBank s 1 = none ∧ ownRank s = 0x1234 ∧ pktReserved { pktA with dest := 0x1234 } = false ∧
       pktReserved { pktA with dest := 0x1234, typ := 6 } = true ∧
       (s.lk.crossing.any fun y => y.ingress == 0 && y.vc == pktVc pktA) = false ∧
       isFenced s 0x1235 = false ∧ (nextHop s s.lk.bank0 (some 0) { pktA with dest := 0x1235 }).isSome = true ∧
       nextHop s s.lk.bank0 (some 0) { pktA with dest := 0x1244 } = none) ∧
    (let s := { linked with lk := { linked.lk with torus := 0x0, fences := [(2, true), (0x1235, true)] } }
     isFenced s 2 = true ∧ inTorus s 0x1235 = false) ∧
    (let s := { linked with lk := { linked.lk with fences := [(0x1235, true)] } }
     isFenced s 2 = false ∧ inTorus s 0x1235 = true ∧ isFenced s 0x1235 = true) ∧
    (let x : Crossing := ⟨0, pktVc pktA, some 0, pktA, false⟩
     let s := { linked with lk := { linked.lk with crossing := [x] } }
     (s.lk.crossing.any fun y => y.ingress == 0 && y.vc == pktVc pktA) = true ∧ isFenced s 0x1235 = false) ∧
    (getPort (portIn 9 .drain id) 9).state = .drain := by decide +kernel

/-- A delivery queue with one packet at its head. -/
def arrived (k : Packet) (bad : Bool) (s : State) : State := { s with lk := { s.lk with rxq := [(k, bad)] } }

theorem witness_data_packets :
    (let s := arrived pktA false linked
     s.lk.rxq = [(pktA, false)] ∧ pktData pktA = true ∧ pktA.src ≠ ownRank s ∧ crcHolds pktA = true ∧
       (pktA.seq + 2 ^ 24 - (getPeer s 2).rxNext) % 2 ^ 24 ≤ 511 ∧ (getPeer s 2).rxSeen.contains 0 = false) ∧
    (let s := setPeer linked 2 { getPeer linked 2 with rxNext := 1, rxSeen := [512] }
     (getPeer s 2).rxSeen.contains 512 = true ∧ (512 + 2 ^ 24 - (getPeer s 2).rxNext) % 2 ^ 24 = 511 ∧
       (513 + 2 ^ 24 - (getPeer s 2).rxNext) % 2 ^ 24 = 512 ∧ (0 + 2 ^ 24 - (getPeer s 2).rxNext) % 2 ^ 24 = 2 ^ 24 - 1 ∧
       crcHolds pktZ = false) := by decide +kernel

/-- The pair with rank 1 of the linked module, changed by `f`. -/
def pairIn (f : Peer → Peer) : State := setPeer linked 1 (f (getPeer linked 1))

/-- `n` held packets, with SEQ from 0 up. -/
def heldOf (n r : Nat) : List HeldPkt := (List.range n).map fun i => ⟨{ pktA with seq := i }, r⟩

/-- The linked module with a torus of one node. -/
def alone (s : State) : State := { s with lk := { s.lk with torus := 0 } }

theorem witness_injection :
    (let s := pairIn fun v => { v with waiting := [pktA] }
     (getPeer s 1).waiting = [pktA] ∧ inTorus s 1 = true ∧ pktA.dest = 1 ∧ isFenced s 1 = false ∧ (getPeer s 1).peerErr = false ∧
       (getPeer s 1).held.length < windowOf s (getPeer s 1) ∧ NoCaravan s pktA.caravan) ∧
    (let s := pairIn fun v => { v with waiting := [pktA], held := heldOf (windowOf linked v) 0 }
     (getPeer s 1).waiting = [pktA] ∧ isFenced s 1 = false ∧ (getPeer s 1).peerErr = false ∧
       windowOf s (getPeer s 1) ≤ (getPeer s 1).held.length) ∧
    (let s := pairIn fun v => { v with waiting := [pktA] }
     let t := { s with lk := { s.lk with fences := [(1, true)] } }
     (getPeer t 1).waiting = [pktA] ∧ isFenced t 1 = true ∧ inTorus t 1 = true ∧ NoCaravan t pktA.caravan) ∧
    (let s := pairIn fun v => { v with waiting := [pktA], peerErr := true }
     (getPeer s 1).waiting = [pktA] ∧ isFenced s 1 = false ∧ (getPeer s 1).peerErr = true ∧ inTorus s 1 = true) ∧
    (let s := alone (pairIn fun v => { v with waiting := [pktA] })
     (getPeer s 1).waiting = [pktA] ∧ inTorus s 1 = false ∧ NoCaravan s pktA.caravan) := by decide +kernel

theorem witness_credits :
    (TenPorts linked ∧ (getPort linked 0).egress = [] ∧ linked.lk.crossing = []) ∧
    (let k := { pktA with dest := 0x1235 }
     let x : Crossing := ⟨1, pktVc k, some 0, k, false⟩
     let s := { linked with lk := { linked.lk with crossing := [x] } }
     TenPorts s ∧ (getPort s 0).egress = [] ∧ s.lk.crossing = [x] ∧ x.pkt.dest ≠ ownRank s ∧ routeBank s x.pkt.epoch = some s.lk.bank0 ∧
       (nextHop s s.lk.bank0 x.prev x.pkt).isSome = true ∧ x.ingress < 10) ∧
    (let s := modPort linked 0 fun v => { v with egress := [⟨19, pktA, false⟩] }
     TenPorts s ∧ (getPort s 0).egress = [⟨19, pktA, false⟩] ∧ s.lk.crossing = [] ∧
       pktFlits pktA ≤ creditsFor (tput 0 (getPort s 0).used 19 0) 19) ∧
    (let s := modPort linked 0 fun v => { v with egress := [⟨19, pktA, false⟩], used := [(19, 1000000)] }
     (getPort s 0).egress = [⟨19, pktA, false⟩] ∧
       creditsFor (tput 0 (getPort s 0).used 19 (tget 0 (getPort s 0).used 19 - 0)) 19 < pktFlits pktA) := by decide +kernel

/-- A control packet of rank 2, with its CRC or without. -/
def controlPkt (typ : Nat) (crc : Bool) : Packet :=
  let k := { pktZ with typ := typ, seq := 1, ackSeq := 1, offset := 2 }
  if crc then signed k else k

/-- Packets 0 to 2 held toward rank 2, and a control packet of rank 2 at the head of the delivery queue. -/
def controlIn (typ : Nat) (crc : Bool) : State :=
  arrived (controlPkt typ crc) false
    (setPeer linked 2 { getPeer linked 2 with held := heldOf 3 0 })

theorem witness_acknowledgements :
    (Each [(3, true), (4, true), (5, true), (3, false), (4, false), (5, false)] fun x =>
      let s := controlIn x.1 x.2
      s.lk.rxq = [(controlPkt x.1 x.2, false)] ∧ crcHolds (controlPkt x.1 x.2) = x.2 ∧ inTorus s 2 = true ∧ inTorus (alone s) 2 = false ∧
        (∀ h ∈ (getPeer s 2).held, NoCaravan s h.pkt.caravan) ∧ (∀ h ∈ (getPeer s 2).held, h.pkt.dest ≠ ownRank s)) := by
  decide +kernel

theorem witness_pair_timers :
    (getPeer linked 1).unacked = 0 ∧ 0 < (getPeer (pairIn fun v => { v with unacked := 1 }) 1).unacked ∧
    ((getPeer linked 1).held.find? fun x => x.pkt.seq == 0) = none ∧
    (let s := pairIn fun v => { v with held := heldOf 2 6 }
     ((getPeer s 1).held.find? fun x => x.pkt.seq == 1) = some ⟨{ pktA with seq := 1 }, 6⟩ ∧ inTorus s 1 = true ∧
       inTorus (alone s) 1 = false ∧ NoCaravan (alone s) pktA.caravan) ∧
    (let s := pairIn fun v => { v with held := heldOf 2 7, waiting := [pktA] }
     ((getPeer s 1).held.find? fun x => x.pkt.seq == 1) = some ⟨{ pktA with seq := 1 }, 7⟩ ∧
       (∀ x ∈ (getPeer s 1).held, NoCaravan s x.pkt.caravan) ∧ (∀ x ∈ (getPeer s 1).waiting, NoCaravan s x.caravan) ∧
       s.lk.peerErrLog.getLsbD 16 = false) := by decide +kernel

/-! ### Witnesses: host commands -/

/-- Port A is up, accepts commands, holds the token, and the data plane has power. -/
def hostUp : State :=
  let s := linked
  { s with rst := { s.rst with dataPlaneOn := true }, cp := { s.cp with accepting := true, holder := 1, a := { s.cp.a with linkUp := true } } }

/-- The same with region 3 resident, active phase 7 and a program. -/
def hostReg : State := { hostUp with fb := { hostUp.fb with regions := [(3, regA)] } }

/-- A long operation with handle 5 in entry 2, changed by `f`. -/
def longA (op : Nat) (st : LoState) (f : LongOp → LongOp) : LongOp :=
  f { handle := 5, opcode := op, cmd := .checkpoint hdrA 0 1 0x40 0x2000, state := st, ran := false, pastCommit := false, mark := 0,
      ranges := [(0, 0)], suspender := none, resumer := none, canceller := none }

/-- It is live. -/
def hostLong (op : Nat) (st : LoState) (f : LongOp → LongOp) : State :=
  { hostUp with cp := { hostUp.cp with longops := [(2, longA op st f)] } }

/-- A port takes each command of the list as its next, from the state beside it. -/
abbrev AllRun (l : List (State × Instr × Nat × Nat)) : Prop :=
  Each l fun x => HostRuns x.1 x.2.1 hdrA x.2.2.1 x.2.2.2

theorem witness_refused_commands :
    (let s := { hostUp with cp := { hostUp.cp with holder := 0 } }
     refusal (enroll hdrA 0x0801 s) (slotForm (.scrub hdrA)) hdrA 0x0801 1 (nextHandle s 0) = 0x0012 ∧ canAccept s 0 = true ∧
       hostCmd (.scrub hdrA) = some (hdrA, 0x0801, 1) ∧ (getCp s 0).pend = [] ∧ (getCp s 0).fenced = [] ∧
       (getCp s 1).fenced = [] ∧ nextSlotEmpty s 0 = true) ∧
    refusal (enroll { hdrA with vec := 64 } 0x0701 hostUp) (.queryDevice hdrA) { hdrA with vec := 64 } 0x0701 0 0 = 0x0011 := by
  decide +kernel

theorem witness_long_commands :
    AllRun [(hostUp, .checkpoint hdrA 0 1 0x40 0x2000, 0x0502, 0), (hostUp, .restore hdrA 0x40 0x2000 1, 0x0503, 0),
      (hostUp, .reshard hdrA { descA with kind := 5, flags := 0 }, 0x0504, 0),
      (hostUp, .reshardResume hdrA { descA with kind := 5, flags := 8 }, 0x0504, 0),
      (hostUp, .reshardRollback hdrA { descA with kind := 5, flags := 16 }, 0x0504, 0),
      (hostUp, .scrub hdrA, 0x0801, 1), (hostUp, .fwUpdate hdrA 0x40 0x2000, 0x0802, 1),
      (hostUp, .bbExport hdrA 0x40 384 0, 0x0803, 0)] := by decide +kernel

/-- Bank 1 loaded for epoch 1. -/
def banked (s : State) : State := { s with lk := { s.lk with bank1 := 0xFFFFFFFF0003 } }

/-- The previous epoch 3 is still live, with `n` of its packets in flight toward rank 1. -/
def retiring (n : Nat) : State :=
  let s := setPeer hostUp 1 { getPeer hostUp 1 with held := (List.range n).map fun i => ⟨{ pktA with seq := i, epoch := 3 }, 0⟩ }
  { s with lk := { s.lk with prevEpoch := 3, prevLive := true, epochWaiter := some 9 } }

/-- Rank 0x1235 is fenced. -/
def fencedUp : State := { hostUp with lk := { hostUp.lk with fences := [(0x1235, true)] } }

theorem witness_route_commands :
    AllRun [(hostUp, .setRoutes hdrA 1 0x80 0xFFFFFFF7, 0x0403, 1), (banked hostUp, .setRouteEpoch hdrA 1, 0x0404, 1),
      (hostUp, .fencePeer hdrA 0x1235, 0x0401, 1), (hostUp, .unfencePeer hdrA 0x1235, 0x0402, 1),
      (fencedUp, .unfencePeer hdrA 0x1235, 0x0402, 1)] ∧
    (let s := retiring 0
     s.lk.prevLive = true ∧ inflightHeld s s.lk.prevEpoch = 0 ∧ inflightOut s s.lk.prevEpoch = 0) ∧
    inflightOut (retiring 1) 3 ≠ 0 ∧ hostUp.lk.prevLive = false ∧ hostUp.cl.caravans = [] ∧ isFenced fencedUp 0x1235 = true := by
  decide +kernel

/-- Port 9 of the host's module in a state, port 0 active beside it. -/
def hostPort (st : PState) : State := modPort hostUp 9 fun v => { v with state := st, dir := 1 }

/-- Direction 1 has a detour by direction 0. -/
def detoured (s : State) : State := { s with lk := { s.lk with bank0 := 0xFFFFFFFFFF0F0001 } }

theorem witness_port_commands :
    (Each [PState.active, .drain, .released, .pilot, .ramp, .train, .ready, .hold, .fault] fun st => let s := hostPort st
      TenPorts s ∧ (getPort s 9).state = st ∧ HostRuns s (.portReleaseForce hdrA 9) hdrA 0x0804 1) ∧
    (Each [PState.drain, .released, .pilot, .ramp, .train, .ready, .hold, .fault] fun st =>
      HostRuns (hostPort st) (.portRelease hdrA 9) hdrA 0x0804 1) ∧
    AllRun [(detoured (hostPort .active), .portRelease hdrA 9, 0x0804, 1),
      (hostPort .ready, .portAdmit hdrA 9, 0x0805, 1)] ∧
    (hostPort .active).cl.caravans = [] := by decide +kernel

theorem witness_collective_commands :
    AllRun [(hostUp, .allReduce hdrA { descA with kind := 1 }, 0x0301, 0), (hostUp, .reduceScatter hdrA { descA with kind := 2 }, 0x0301, 0),
      (hostUp, .allGather hdrA { descA with kind := 3 }, 0x0301, 0), (hostUp, .multicast hdrA { descA with kind := 4 }, 0x0301, 0),
      (hostUp, .topkGather hdrA { descA with kind := 6 }, 0x0301, 0)] := by decide +kernel

/-- An image that names region 3 and nothing else. -/
def imageA : List Byte :=
  padTo 12 [] ++ padTo 116 [1] ++ [2, 0, 0, 0] ++ leBytes 4 144 ++ leBytes 4 32 ++ padTo 4 [] ++ padTo 32 [3, 1, 0, 0, 0, 0, 1]

/-- A load of region 3 at a stage. -/
def loadA (st : LoadStage) : Load :=
  { handle := 6, addr := 0x40, bytes := 0x1000, stage := st, sent := true, dies := 0xFF, check := 0, offset := 0, cell := 0,
    image := imageA, digest := [], signed := false, remaps := 0, applied := 0 }

/-- The load stands at the stage. -/
def hostLoad (st : LoadStage) : State := { hostReg with fb := { hostReg.fb with loads := [loadA st] } }

/-- A run of phase 7 in region 3. -/
def runA : Run :=
  { handle := 4, step := 0, program := false, phaseId := 7, count := 5, started := 0, endedCores := [], poisoned := [], seqFault := none }

/-- The run is under way. -/
def hostRunning : State := { hostReg with fb := { hostReg.fb with runs := [(3, runA)] } }

theorem witness_runs_and_loads :
    AllRun [(hostReg, .runPhase hdrA 3 7 5, 0x0201, 0), (hostReg, .runProgram hdrA 3, 0x0201, 0), (hostRunning, .runPhase hdrA 3 7 5, 0x0201, 0),
      (hostRunning, .runProgram hdrA 3, 0x0201, 0), (hostReg, .switchContext hdrA 3 0, 0x0102, 1),
      (hostLoad .report, .switchContext hdrA 3 0, 0x0102, 1), (hostReg, .loadConfig hdrA 0x40 0x100000, 0x0101, 1),
      (hostReg, .loadConfig hdrA 0x40 0x100001, 0x0101, 1), (hostLoad .hold, .loadConfig hdrA 0x40 0x1000, 0x0101, 1)] ∧
    HostRuns hostReg (.runPhase { hdrA with step := 9 } 3 7 5) { hdrA with step := 9 } 0x0201 0 ∧
    runWaits hostReg 3 = false ∧ runWaits hostRunning 3 = true ∧ committedOn hostReg 3 = false ∧ committedOn (hostLoad .report) 3 = true ∧
    hostReg.fb.loads = [] ∧ headLoad (hostLoad .hold) = some (loadA .hold) ∧ (loadA .hold).sent = true := by decide +kernel

theorem witness_long_controls :
    (Each [LoState.queued, .running, .suspended, .suspending, .cancelling] fun st => Each [true, false] fun ran =>
      let l := longA 0x0502 st fun l => { l with ran := ran }
      let s := hostLong 0x0502 st fun l => { l with ran := ran }
      liveLong s 5 = some (2, l) ∧ s.fb.loads = [] ∧ l.pastCommit = false ∧ l.resumer = none ∧ l.suspender = none) ∧
    AllRun [(hostLong 0x0502 .queued id, .suspend hdrA 5, 0x0601, 2), (hostLong 0x0502 .running id, .suspend hdrA 5, 0x0601, 2),
      (hostLong 0x0502 .suspended id, .resume hdrA 5, 0x0602, 2),
      (hostLong 0x0502 .suspended fun l => { l with ran := true }, .resume hdrA 5, 0x0602, 2),
      (hostLong 0x0801 .running fun l => { l with pastCommit := true }, .cancel hdrA 5, 0x0603, 2),
      (hostLong 0x0502 .running id, .cancel hdrA 5, 0x0603, 2), (hostLong 0x0502 .queued id, .cancel hdrA 5, 0x0603, 2)] ∧
    liveLong (hostLong 0x0801 .running fun l => { l with pastCommit := true }) 5 =
      some (2, longA 0x0801 .running fun l => { l with pastCommit := true }) := by decide +kernel

theorem witness_long_steps :
    (let s := { hostLong 0x0801 .queued id with fb := hostRunning.fb }
     liveLong s 5 = some (2, longA 0x0801 .queued id) ∧ aloneLive s 5 = false) ∧
    (let s := { hostLong 0x0503 .queued id with fb := hostRunning.fb }
     liveLong s 5 = some (2, longA 0x0503 .queued id) ∧ aloneLive s 5 = false) ∧
    (hostLong 0x0502 .running id).cp.a.fenced = [] ∧ (hostLong 0x0502 .running id).cp.b.fenced = [] ∧
    (longA 0x0502 .running id).cmd = .checkpoint hdrA 0 1 0x40 0x2000 := by decide +kernel

theorem witness_queries :
    AllRun [(hostUp, .queryDevice hdrA, 0x0701, 0), (hostLong 0x0502 .queued id, .queryLongOp hdrA 5, 0x0701, 0),
      ({ hostUp with cp := { hostUp.cp with remembered := [(5, 2)] } }, .queryLongOp hdrA 5, 0x0701, 0),
      (hostUp, .reset hdrA, 0x0806, 1), (hostUp, .attest hdrA 7 0x40 7792, 0x0901, 0)] ∧
    (let s := { hostUp with cp := { hostUp.cp with remembered := [(5, 2)] } }
     liveLong s 5 = none ∧ pastLong s 5 = some 2) := by decide +kernel

theorem witness_copies :
    AllRun [(hostUp, .copy hdrA 0x40 0x80 64 0, 0x0501, 0), (hostUp, .copy hdrA 0x40 0x00EEFFFFFFE0 32 0, 0x0501, 0),
      (hostUp, .copy hdrA 0x20 0x80 64 1, 0x0501, 0), (hostUp, .copy hdrA 0x20 0x80 64 2, 0x0501, 0)] ∧
    hostUp.mem.heldWrites = [] ∧ hostUp.mem.copies = [] ∧ hostUp.env.hostPoison = [] ∧
    (Each (List.range 64) fun i => readFaults hostUp (0x40 + i) = false ∧ deadSub hostUp (0x80 + i) = false) ∧
    (Each (List.range 32) fun i => deadSub hostUp (0x00EEFFFFFFE0 + i) = false) := by decide +kernel

/-! ### Witnesses: command slots, the completion ring and the steward token -/

/-- The 256 bytes of a slot with OPCODE, FLAGS and SEQ, and a body of zeros. -/
def slotOf (op fl seq : Nat) : List Byte := leBytes 2 op ++ [BitVec.ofNat 8 fl] ++ padTo 245 [] ++ leBytes 8 seq

theorem witness_command_slots :
    hostUp.cp.a.linkUp = true ∧ (slotOf 0x0701 0 0).length = 256 ∧ field (slotOf 0x0701 0 0) 248 8 = (getCp hostUp 0).sqNext ∧
    canAccept hostUp 0 = true ∧
    (Each [(0x0701, 0, Instr.queryDevice hdrA, 0), (0x0804, 4, .portReleaseForce hdrA 1, 1)] fun x =>
      let b := if x.1 = 0x0804 then splice (slotOf x.1 x.2.1 0) 16 [1] else slotOf x.1 x.2.1 0
      let u := writeSlots 0 0 b hostUp
      parseBody hdrA x.1 (x.2.1.testBit 2) (slice b 16 232) = some (x.2.2.1, if x.1 = 0x0701 then [(0, 1), (4, 4)] else [(0, 1)]) ∧
        hostCmd x.2.2.1 = some (hdrA, x.1, x.2.2.2) ∧ allZero (slice b 12 4) = true ∧
        restZero (slice b 16 232) [(0, 1)] = true ∧
        (let v := accept hdrA x.1 x.2.2.2 x.2.2.1 u
         field (slotBytes v 0 ((getCp v 0).sqNext % 1024)) 248 8 ≠ (getCp v 0).sqNext)) ∧
    (Each [(0x0001, 0), (0x0701, 8)] fun x =>
      let v := enroll hdrA x.1 (writeSlots 0 0 (slotOf x.1 x.2 0) hostUp)
      field (slotBytes v 0 ((getCp v 0).sqNext % 1024)) 248 8 ≠ (getCp v 0).sqNext) ∧
    parseBody hdrA 0x0001 false (slice (slotOf 0x0001 0 0) 16 232) = none ∧ isLong (.queryDevice hdrA) = false := by decide +kernel

/-- A record with handle 0. -/
def recA (noIrq : Bool) : Record :=
  { seq := 0, handle := 0, status := 0, opcode := 0x0701, tag := 0, flags := 0, result := [1, 2, 3, 4], vec := 63, noIrq := noIrq }

/-- The ring of port A is enabled with 64 records and `n` unread, and holds these records and events. -/
def ringed (n : W32) (r e : List Record) : State :=
  modCp hostUp 0 fun c => { c with cqEntries := 0x80000006, cqTail := n, eventCfg := 0x10F, records := r, events := e }

theorem witness_completion_ring :
    (Each [true, false] fun q => let s := ringed 63 [recA q] [recA q]
      (getCp s 0).linkUp = true ∧ (getCp s 0).records = [recA q] ∧ (recA q).result.length = 4 ∧ (recA q).vec < 64 ∧ cqRoom (getCp s 0) = true ∧
        field (slotBytes s 0 ((getCp s 0).sqNext % 1024)) 248 8 ≠ (getCp s 0).sqNext ∧ (getCp s 0).fenced = [] ∧ (getCp s 1).fenced = []) ∧
    (let s := ringed 63 [] [recA false]
     (getCp s 0).records = [] ∧ (getCp s 0).events = [recA false] ∧ (getCp s 0).eventCfg.getLsbD 8 = true ∧ cqRoom (getCp s 0) = true) ∧
    cqRoom (getCp (ringed 64 [recA true] []) 0) = false ∧ (getCp (ringed 0 [] []) 0).records = [] ∧
    (let s := { hostUp with ws := { hostUp.ws with up := [⟨6, 0, 0, 0, .completion 9 0 0 []⟩] } }
     s.ws.up = [⟨6, 0, 0, 0, .completion 9 0 0 []⟩] ∧ (getCp s 0).fenced = []) := by decide +kernel

/-- The token is held by `h`, both ports have claimed it, and the lease has `n` windows left. -/
def claimed (h n : Nat) : State :=
  let pend := fun (k : Nat) => ({ seq := 0, handle := k, opcode := 0x0A01, tag := 0, vec := 0, noIrq := false, done := false } : Pending)
  { hostUp with cp :=
    { hostUp.cp with
        holder := h, stewardCfg := 5, leaseLeft := n, claims := [(1, 2 ^ 31), (0, 0)],
        a := { hostUp.cp.a with pend := [pend 0] }, b := { hostUp.cp.b with pend := [pend (2 ^ 31)] } } }

theorem witness_steward_token :
    AllRun [(hostUp, .stewardClaim hdrA, 0x0A01, 0), (hostUp, .stewardYield hdrA, 0x0A02, 1)] ∧
    (Each [0, 1, 2] fun h => let s := claimed h 0
      (getCp s 0).fenced = [] ∧ (getCp s 1).fenced = [] ∧ s.cp.holder = h ∧ s.cp.claims ≠ [] ∧ s.cp.claims.Nodup ∧
        (∀ c ∈ s.cp.claims, c.1 < 2 ∧ portOfHandle c.2 = c.1 ∧
          ((getCp s c.1).pend.find? fun q => q.handle == c.2 && !q.done).isSome = true)) ∧
    hostUp.cp.claims = [] ∧ hostUp.cp.holder ≠ 0 ∧ (claimed 1 0).cp.holder ≠ 0 ∧ (claimed 1 0).cp.stewardCfg.toNat % 65536 ≠ 0 ∧
    (claimed 1 0).cp.leaseLeft = 0 ∧ (claimed 0 0).cp.holder = 0 ∧ (claimed 1 1).cp.leaseLeft ≠ 0 := by decide +kernel

/-! ### Witnesses: security and debug -/

/-- The part of the security state that the witnesses set. -/
def scUp (f : Sc → Sc) : State := { hostUp with sc := f hostUp.sc }

/-- A token of 5,616 bytes for the code at 0x40 of host memory, with an owner digest named. -/
def tokenAt (code : Byte) : List Host.Cell := [(64, 0x44), (65, 0x42), (66, 0x54), (67, 0x31), (68, 1), (70, code), (160, 1)]

/-- A provisioned module with a drawn nonce of zero, and that token. -/
def withToken (code : Byte) : State :=
  let s := { scUp fun c => { c with lifecycle := 1, nonceValid := true } with env := { hostUp.env with hostA := tokenAt code } }
  { s with sc := { s.sc with vendorKey := sha3_384 (slice (hostRead s 0 0x40 5616) 256 1984) } }

/-- The signed part of that token. -/
def tokenMsg (code : Byte) : List Byte := signedMessage dbtPrefix ((hostRead (withToken code) 0 0x40 5616).take 2240)

theorem witness_unlock_commands :
    AllRun [(withToken 1, .debugUnlock hdrA 0x40 5616 1, 0x0902, 1), (withToken 0x11, .lcDeploy hdrA 0x40 5616, 0x0902, 1),
      (hostUp, .debugUnlock hdrA 0x40 0 2, 0x0902, 1), (scUp fun c => { c with lifecycle := 0 }, .lcProvision hdrA 0x40 0, 0x0902, 1),
      (hostUp, .lcReturn hdrA 0x40 0, 0x0902, 1), (hostUp, .debugUnlock hdrA 0 0 0, 0x0902, 1),
      (scUp fun c => { c with lifecycle := 0 }, .debugUnlock hdrA 0 0 2, 0x0902, 1)] ∧
    floorOf hostUp = 0 ∧ hostUp.sc.level = 0 ∧ hostUp.sc.lifecycle = 1 ∧ (withToken 1).sc.lifecycle = 1 ∧ floorOf (withToken 1) = 0 ∧
    tokenCause hostUp 2 (hostRead hostUp 0 0x40 0) = 1 ∧ requirement 1 1 = some (0, false, false) ∧
    requirement 1 0x11 = some (0, true, false) := by decide +kernel

theorem witness_passing_tokens :
    Each [1, 0x11] fun code =>
      let t := hostRead (withToken (BitVec.ofNat 8 code)) 0 0x40 5616
      t.take 4 = [0x44, 0x42, 0x54, 0x31] ∧ field t 4 2 = 1 ∧ field t 6 1 = code ∧ field t 7 1 = 0 ∧ field t 8 8 = 0 ∧ field t 16 32 = 0 ∧
        allZero (slice t 96 48) = false := by decide +kernel

/-- Where the two signatures verify, the token passes every check: the outcome rests on the verification alone. -/
theorem witness_token_passes (code : Nat) (hc : code = 1 ∨ code = 0x11)
    (he : ed25519Verify (slice (hostRead (withToken (BitVec.ofNat 8 code)) 0 0x40 5616) 256 32) (tokenMsg (BitVec.ofNat 8 code))
      (slice (hostRead (withToken (BitVec.ofNat 8 code)) 0 0x40 5616) 2240 64) = true)
    (hm : mldsa65Verify (slice (hostRead (withToken (BitVec.ofNat 8 code)) 0 0x40 5616) 288 1952) (tokenMsg (BitVec.ofNat 8 code))
      (slice (hostRead (withToken (BitVec.ofNat 8 code)) 0 0x40 5616) 2304 3309) = true) :
    tokenCause (withToken (BitVec.ofNat 8 code)) code (hostRead (withToken (BitVec.ofNat 8 code)) 0 0x40 5616) = 0 := by
  have hl : (hostRead (withToken (BitVec.ofNat 8 code)) 0 0x40 5616).length = 5616 := by simp [hostRead]
  have hf := witness_passing_tokens
  have hk : sha3_384 (slice (hostRead (withToken (BitVec.ofNat 8 code)) 0 0x40 5616) 256 1984) =
      (withToken (BitVec.ofNat 8 code)).sc.vendorKey := rfl
  have hs : (withToken (BitVec.ofNat 8 code)).sc.lifecycle = 1 ∧ (withToken (BitVec.ofNat 8 code)).mg.serial.toNat = 0 ∧
      (withToken (BitVec.ofNat 8 code)).sc.nonceValid = true ∧ (withToken (BitVec.ofNat 8 code)).sc.nonce.toNat = 0 ∧
      (withToken (BitVec.ofNat 8 code)).sc.transitions = 0 := ⟨rfl, rfl, rfl, rfl, rfl⟩
  obtain ⟨h1, h2, h3, h4, h5⟩ := hs
  simp only [Each, List.all_cons, List.all_nil, Bool.and_true, Bool.and_eq_true, decide_eq_true_eq] at hf
  unfold tokenMsg at he hm
  rcases hc with rfl | rfl
  · obtain ⟨⟨g1, g2, g3, g4, g5, g6, g7⟩, -⟩ := hf
    simp only [tokenCause, hl, g1, g2, g3, g4, g5, g6, h1, h2, h3, h4, hk, he, hm, requirement]
    simp
  · obtain ⟨-, g1, g2, g3, g4, g5, g6, g7⟩ := hf
    simp only [tokenCause, hl, g1, g2, g3, g4, g5, g6, g7, h1, h2, h3, h4, h5, hk, he, hm, requirement]
    simp

/-- An unlock in progress. -/
def unlocking (code : Nat) (scrub : Bool) : State :=
  scUp fun c => { c with unlock := some (5, code, 1, [], scrub), presenceWait := true, scrubbing := true }

theorem witness_unlocks_in_progress (code : Nat) (scrub : Bool) :
    (unlocking code scrub).sc.unlock = some (5, code, 1, [], scrub) ∧ (unlocking code scrub).sc.presenceWait = true ∧
      (unlocking code scrub).sc.scrubbing = true ∧ workLive (unlocking code scrub) = false := ⟨rfl, rfl, rfl, rfl⟩

theorem witness_no_unlock :
    hostUp.sc.presenceWait = false ∧ hostUp.sc.scrubbing = false ∧ hostUp.cp.holder = 0 + 1 ∧ hostUp.pw.state ≠ .p4 := by decide +kernel

/-- The debug state: the level, and whether the controller is halted. -/
def debugAt (level : Nat) (halted : Bool) (base : W64) : State :=
  let s := scUp fun c => { c with level := level }
  { s with rst := { s.rst with bringup := none }, db := { s.db with mcuHalted := halted, snapBase := base } }

theorem witness_debug_control :
    (Each [0, 1, 2] fun l => let s := debugAt l false 0
      s.pw.state ≠ .p4 ∧ s.db.ctrl &&& 0x20500 = 0 ∧ s.cp.holder = 0 + 1 ∧ s.sc.level = l ∧ planeUp s = true ∧ s.db.mcuHalted = false ∧
        s.db.snapBase.toNat + 150 * 2 ^ 20 ≤ retainedBase) ∧
    retainedBase < (debugAt 2 false 0xEEF6A00001).db.snapBase.toNat + 150 * 2 ^ 20 ∧
    (debugAt 2 false 0xEEF6A00000).db.snapBase.toNat + 150 * 2 ^ 20 ≤ retainedBase ∧
    (debugAt 2 true 0).db.mcuHalted = true ∧ (debugAt 2 true 0).cp.holder ≠ 1 + 1 ∧
    (Each [((0x300 : W32), (8 : Nat)), (0xC00, 10)] fun x => x.1.getLsbD x.2 = true ∧ x.1.getLsbD (x.2 + 1) = true ∧ x.1.getLsbD (18 - x.2) = false ∧
      x.1.getLsbD 16 = false) ∧
    (0x30000 : W32).getLsbD 16 = true ∧ (0x30000 : W32).getLsbD 17 = true ∧ (0x30000 : W32).getLsbD 8 = false := by decide +kernel

/-! ### Witnesses: power states, resets and bring-up -/

/-- A transition to `x` is under way from state `st`, and bring-up has ended. -/
def moving (st : PowerState) (x : Option PowerState) : State :=
  let s := { hostUp with pw := { hostUp.pw with state := st, target := x.map fun y => (y, [5]) } }
  { s with rst := { s.rst with bringup := none } }

theorem witness_power_states :
    AllRun [(moving .p0 none, .setPowerState hdrA 0 0, 0x0903, 1), (moving .p0 none, .setPowerState hdrA 1 1200, 0x0903, 1),
      (moving .p1 none, .setPowerState hdrA 1 2700, 0x0903, 1), (moving .p2 none, .setPowerState hdrA 3 0, 0x0903, 1)] ∧
    (Each [PowerState.p0, .p1, .p2] fun st => (moving st none).pw.state ≠ .p4 ∧ (moving st none).pw.state ≠ .p3 ∧
      (moving st none).pw.target = none ∧ floorOf (moving st none) = 0) ∧
    (Each [PowerState.p0, .p1, .p2, .p3, .p4] fun x => (moving .p0 (some x)).pw.target = some (x, [5]) ∧
      (moving .p0 (some x)).pw.state ≠ .p3 ∧ TenPorts (moving .p0 (some x))) ∧
    (∀ p, p < 10 → (getPort (modPort (moving .p0 (some .p3)) 0 fun v => { v with state := .dark }) p).state.lit = false) ∧
    (getPort (moving .p0 (some .p3)) 0).state.lit = true ∧
    ((getPort (moving .p0 (some .p2)) 0).state = .active ∧ (getPort (moving .p0 (some .p2)) 0).narrow = false) ∧
    (getPort (modPort (moving .p2 (some .p0)) 0 fun v => { v with narrow := true }) 0).narrow = true ∧
    (Each [PowerState.p0, .p1, .p2] fun x => (moving .p3 (some x)).pw.state = .p3 ∧ (moving .p3 (some x)).rst.bringup = none ∧
      (moving .p3 (some x)).rst.dataPlaneOn = true ∧ (moving .p3 (some x)).sc.lifecycle ≠ 0) := by decide +kernel

theorem witness_shallower_target (y : List Nat) : (moving .p0 (some .p3)).pw.target ≠ some (.p4, y) := by
  intro h; cases h

/-- The D3hot of both ports asks for P3, and P0 is asked again when one returns. -/
def floored : State := modCp (modCp (moving .p0 none) 0 fun c => { c with dState := 1 }) 1 fun c => { c with dState := 1 }

theorem witness_power_floor :
    wantedState (modCp floored 0 fun c => { c with dState := 1 }) = .p3 ∧ floored.pw.state ≠ .p3 ∧ floored.rst.bringup = none ∧ wantedState (modCp floored 0 fun c => { c with dState := 0 }) = .p0 ∧
    floored.pw.state ≠ .p4 ∧ floored.pw.target = none ∧ floored.pw.commanded < 3 ∧ floored.rst.quiesce = false ∧
    (getCp (modCp floored 0 fun c => { c with perstLow := true }) 0).perstLow = true ∧ (getCp floored 0).perstLow = false ∧
    (moving .p4 none).pw.state = .p4 := by decide +kernel

/-- Interlock order 5 has been repeated `n` times. -/
def repeated (n : Nat) (s : State) : State :=
  { s with ws := { s.ws with unacked := [(⟨0x22, 0x40, 0, 5, .halt 1 false false 0⟩, n)] } }

theorem witness_resets :
    State.reset.rst.bringup = some (.cold, 1) ∧ (moving .p0 none).rst.bringup = none ∧
    (Each [(true, false), (false, true)] fun x =>
      let s := { moving .p4 none with sf := { State.reset.sf with tripped := x.1 }, rst := { State.reset.rst with supplyFail := x.2 } }
      s.pw.state = .p4 ∧ (s.sf.tripped = true ∨ s.rst.supplyFail = true)) ∧
    (moving .p0 none).sf.tripped = false ∧ (moving .p0 none).rst.supplyFail = false ∧
    warmMerges (moving .p0 none) = false ∧ (moving .p0 none).mem.scrubbed = none ∧
    (Each [true, false] fun d => let s := { moving .p0 none with cp := { hostUp.cp with resetDue := d } }
      warmMerges s = false ∧ s.cp.resetDue = d) ∧
    (let s := { moving .p0 none with rst := { hostUp.rst with bringup := some (.warm, 3), quiesce := true } }
     warmMerges s = true) ∧
    (Each [7, 8] fun n => let s := repeated n (moving .p0 none)
      s.ws.unacked.find? (fun e => e.1.seq == 5) = some (⟨0x22, 0x40, 0, 5, .halt 1 false false 0⟩, n) ∧ mcRuns s = true ∧ planeUp s = true ∧
        s.ws.inter.length < 32 ∧ s.rst.bringup = none ∧ s.rst.quiesce = false ∧ s.rst.dataPlaneOn = true) ∧
    (∀ e ∈ (repeated 7 hostUp).ws.unacked, e.2 < 8) ∧ (∃ e ∈ (repeated 8 hostUp).ws.unacked, 8 ≤ e.2) ∧
    (Each [0, 1] fun p => wantedState (modCp (moving .p0 none) p fun c => { c with dState := 0 }) = (moving .p0 none).pw.state) ∧
    (let s := { moving .p0 none with rst := { hostUp.rst with bringup := some (.fabric, 6), quiesce := false } }
     s.rst.bringup = some (.fabric, 6) ∧ s.rst.quiesce = false ∧ s.pw.state ≠ .p4) ∧
    (List.replicate 32 (⟨0x22, 0x40, 0, 5, .halt 1 false false 0⟩ : Msg)).length = 32 ∧
    (moving .p0 none).cp.holder = 0 + 1 ∧ (moving .p0 none).cp.holder ≠ 1 + 1 := by decide +kernel

/-- Bring-up of kind `k` is about to run step `n`. -/
def bringing (k : ResetKind) (n : Nat) : State := { State.reset with rst := { State.reset.rst with bringup := some (k, n) } }

theorem witness_bringup :
    (Each [ResetKind.cold, .warm, .fabric] fun k => Each [1, 2, 3, 4, 5, 6, 7, 8, 9] fun n => let s := bringing k n
      s.rst.bringup = some (k, n) ∧ s.rst.quiesce = false ∧ s.pw.state ≠ .p4 ∧ s.rst.mateHigh = false ∧ s.sf.failed = false) ∧
    (let s := { bringing .cold 3 with rst := { (bringing .cold 3).rst with mateHigh := true } }
     s.rst.bringup = some (.cold, 3) ∧ s.rst.mateHigh = true) ∧
    (getCp (bringing .cold 8) 0).perstLow = false ∧ (getCp (modCp (bringing .cold 8) 0 fun c => { c with perstLow := true }) 0).perstLow = true := by
  decide +kernel

/-! ### Witnesses: management and safety -/

/-- Power and clock state of a module that has been brought up. -/
def managed (f : Pw → Pw) : State := { moving .p0 none with pw := f (moving .p0 none).pw }

/-- The module holds the safety state. -/
def safe (f : Sf → Sf) : State := { moving .p0 none with sf := f (moving .p0 none).sf }

theorem witness_periods :
    periodRuns (managed id) = true ∧ periodRuns (moving .p4 none) = false ∧ (managed id).pw.refLost = false ∧
    (managed id).pw.coolant = false ∧ (managed fun c => { c with coolant := true }).pw.coolant = true ∧
    (managed fun c => { c with overSamples := 98 }).pw.overSamples < 99 ∧ 99 ≤ (managed fun c => { c with overSamples := 99 }).pw.overSamples ∧
    tget 0 (managed id).pw.caps (8 * 0 + 6) ≠ 1200 ∧ planeUp (managed id) = true ∧
    (Each [(0 : W32), 4] fun w => let s := managed fun c => { c with pll := [(23, w), (36, w)] }
      (tget 0 s.pw.pll 23).getLsbD 1 = false ∧ (tget 0 s.pw.pll 23).getLsbD 2 = (w == 4) ∧ (tget 0 s.pw.pll 36).getLsbD 1 = false) ∧
    (getCore (managed id) 4799).stretched = false ∧ (4799 : Nat) < Config.numCores ∧ (managed id).pw.state ≠ .p4 ∧
    (managed fun c => { c with mcRestarting := true }).pw.mcRestarting = true ∧ (managed id).pw.mcRestarting = false := by decide +kernel

/-- The safety monitor holds every port for cause `k`. -/
def heldFor (k : Nat) : State := safe fun c => { c with holds := (List.range 10).map fun p => (8 * p + k, true) }

theorem witness_safety_monitor :
    TenPorts (safe id) ∧ (safe id).pw.state ≠ .p4 ∧ smHolds (safe id) 9 3 = false ∧ TenPorts (heldFor 3) ∧
    (∀ q, q < 10 → smHolds (heldFor 3) q 3 = true) ∧ (safe id).ws.haltSm = false ∧
    (let s := safe fun c => { c with tripped := true }
     let u := { s with ws := { s.ws with haltSm := true } }
     u.sf.tripped = true ∧ u.ws.haltSm = true ∧ u.pw.state ≠ .p4) ∧
    (safe id).sf.tripped = false ∧ (safe fun c => { c with fuseClosed := true }).sf.fuseClosed = true ∧ (safe id).sf.fuseClosed = false ∧
    (safe id).sf.failed = false ∧ (safe fun c => { c with failed := true }).sf.failed = true ∧
    (safe id).sf.loopDriving = false ∧ (safe id).sf.loopStuck = false ∧ (safe fun c => { c with loopStuck := true }).sf.loopStuck = true ∧
    (safe fun c => { c with loopDriving := true }).sf.loopDriving = true := by decide +kernel

/-- The interlock queue holds one order. -/
def ordered (kind : Nat) (p : Payload) : State :=
  let s := moving .p0 none
  { s with ws := { s.ws with inter := [⟨kind, 0x40, 0, 5, p⟩], portMc := 0x3FF } }

theorem witness_interlock_orders :
    (Each [((0x21 : Nat), Payload.throttle 0x80 1200), (0x22, .halt 0x80 false false 0), (0x23, .halt 0x80 false true 0), (0x24, .ports 0x200),
        (0x25, .ports 0x200)] fun x =>
      TenPorts (ordered x.1 x.2) ∧ planeUp (ordered x.1 x.2) = true ∧ (ordered x.1 x.2).ws.inter = [⟨x.1, 0x40, 0, 5, x.2⟩] ∧
        (x.1, x.2) ≠ (0x21, .throttle 0x81 1200) ∧ (ordered x.1 x.2).ws.inter.length < 32) ∧
    TenPorts (moving .p0 none) ∧ (moving .p0 none).ws.inter = [] ∧ (moving .p0 none).ws.waitInter = [] ∧
    (List.replicate 32 (⟨0x21, 0x40, 0, 5, .throttle 1 1200⟩ : Msg)).length = 32 ∧
    (let s := modPort (ordered 0x25 (.ports 0x200)) 9 fun v => { v with state := .hold }
     TenPorts s ∧ planeUp s = true ∧ (0x200 : BitVec 10).getLsbD 9 = true ∧ s.ws.portMc.getLsbD 9 = true ∧ (getPort s 9).state = .hold) ∧
    (let s := moving .p0 none
     let u := { s with ws := { s.ws with tele := [⟨0x15, 0, 0, 0, .orderAck 5 0x22⟩] } }
     TenPorts u ∧ planeUp u = true ∧ u.ws.tele = [⟨0x15, 0, 0, 0, .orderAck 5 0x22⟩] ∧ u.ws.held = [] ∧ mcRuns u = true) := by decide +kernel

/-! ### Witnesses: messages and registers -/

/-- The module is up with region 3 resident, and a message of a kind heads the down queue. -/
def downHead (kind : Nat) (p : Payload) : State :=
  let s := moving .p0 none
  { s with fb := { s.fb with regions := [(3, regA)], runs := [(3, runA)], loads := [loadA .accept] },
           ws := { s.ws with down := [⟨kind, 0, 0, 8, p⟩] } }

/-- The same with a halt on every die. -/
def haltedAll (s : State) : State := { s with ws := { s.ws with haltMc := 0xFF } }

/-- A message heads the up queue, and command 9 of port A awaits its completion. -/
def upHeadIs (p : Payload) : State :=
  let s := modCp (moving .p0 none) 0 fun c =>
    { c with pend := [{ seq := 3, handle := 9, opcode := 0x0301, tag := 7, vec := 0, noIrq := false, done := false }] }
  { s with ws := { s.ws with up := [⟨0x81, 0, 0, 8, p⟩], sent := [(5, .collDesc 9 descA)] } }

theorem witness_down_messages :
    (Each [((1 : Nat), Payload.phaseStart 3 7 5 4 0 false), (1, .phaseStart 3 0 0 4 0 true), (2, .cfgLoad 6), (3, .ctxSwitch 3 0 5)] fun x =>
      (downHead x.1 x.2).ws.ni = [] ∧ (downHead x.1 x.2).ws.down = [⟨x.1, 0, 0, 8, x.2⟩] ∧
        (msgDies (downHead x.1 x.2) x.2).getLsbD 0 = true ∧ dieHalted (downHead x.1 x.2) 0 = false ∧
        dieHalted (haltedAll (downHead x.1 x.2)) 0 = true) ∧
    (msgDies (downHead 2 (.cfgLoad 6)) (.cfgLoad 6)).getLsbD 7 = true ∧
    (let s := downHead 3 (.ctxSwitch 3 0 5)
     regionOf s 3 = some regA ∧ regA.dies.getLsbD 0 = true ∧ runOf s 3 = some runA ∧ runA.handle = 4 ∧ runA.seqFault = none ∧
       s.fb.waits = [] ∧ regA.cores = [0, 1, 2, 3] ∧
       msgDies s (.ctxSwitch 3 0 5) &&& ~~~1 = 0) ∧
    (let s := { moving .p0 none with fb := { hostRunning.fb with runs := [(3, { runA with seqFault := some (1, 0, 0) })] } }
     ∃ r ∈ runOf s 3, r.handle = 4 ∧ r.seqFault ≠ none) := by decide +kernel

theorem witness_up_messages :
    (Each [Payload.completion 9 0 0 [1], .nack 5] fun p =>
      (upHeadIs p).ws.up = [⟨0x81, 0, 0, 8, p⟩] ∧ (getCp (upHeadIs p) 0).fenced = [] ∧ (getCp (upHeadIs p) 1).fenced = [] ∧
        ((getCp (upHeadIs p) 0).pend.find? fun q => q.handle == 9 && !q.done).isSome = true ∧ portOfHandle 9 = 0 ∧
        longOpOf (upHeadIs p) 9 = none ∧ ((upHeadIs p).ws.sent.find? fun e => e.1 == 5) = some (5, .collDesc 9 descA)) ∧
    (downHead 2 (.cfgLoad 6)).ws.tele = [] ∧ (ordered 0x24 (.ports 1)).ws.inter = [⟨0x24, 0x40, 0, 5, .ports 1⟩] ∧
    (ordered 0x24 (.ports 1)).ws.tele = [] ∧
    (let s := moving .p0 none
     let u := { s with ws := { s.ws with tele := [⟨0x17, 0, 0, 0, .fault 0 1 8 9⟩] } }
     u.ws.tele = [⟨0x17, 0, 0, 0, .fault 0 1 8 9⟩] ∧ mcRuns u = true ∧ u.ws.held = [] ∧ u.ws.waitTele = []) ∧
    (let s := moving .p0 none
     let u := { s with ws := { s.ws with tele := [⟨0x11, 0, 0, 0, .counts []⟩] } }
     u.ws.tele = [⟨0x11, 0, 0, 0, .counts []⟩] ∧ u.ws.held = [] ∧ u.ws.waitTele = []) ∧
    planeUp (moving .p0 none) = true ∧ teleUsed (moving .p0 none) true < 239 ∧ planeUp State.reset = false := by decide +kernel

/-- An access to PW_LIMIT. -/
def accA : RegAcc := { off := 0xD00010, width := 4, write := false, port := 0, steward := true, tag := 7, value := 0 }

/-- The access awaits its reply, and this message heads its queue. -/
def awaiting (tele inter up : List Msg) : State :=
  let s := moving .p0 none
  { s with ws := { s.ws with tele := tele, inter := inter, up := up, regsOut := [(0, 7, 4, false)] } }

theorem witness_register_accesses :
    (getCp (moving .p0 none) 0).linkUp = true ∧ accessBreaks (moving .p0 none) 0 0x100018 2 = true ∧
    (Each [((0x100018 : Nat), Way.here), (0x700048, .data), (0xD00010, .management)] fun x =>
      accessBreaks (moving .p0 none) 0 x.1 4 = false ∧ wayOf x.1 = x.2 ∧ served (moving .p0 none) x.1 = true ∧
        blockBusy (moving .p0 none) x.1 = false) ∧
    (Each [((0x700048 : Nat), Way.data), (0xD00010, .management)] fun x =>
      let s := moving .p0 none
      let u := { s with ws := { s.ws with down := [⟨6, 0x22, 0, 0, .regAccess { accA with off := x.1 }⟩] } }
      accessBreaks u 0 x.1 4 = false ∧ wayOf x.1 = x.2 ∧ served u x.1 = true ∧ blockBusy u x.1 = true ∧ u.rst.dataPlaneOn = true) ∧
    (moving .p0 none).cp.holder = 0 + 1 ∧ (moving .p0 none).rst.dataPlaneOn = true ∧ (moving .p0 none).ws.down = [] ∧ (moving .p0 none).ws.waitDown = [] ∧
    accessBreaks State.reset 0 0x700048 4 = false ∧ State.reset.rst.dataPlaneOn = false ∧ mgmtOut (moving .p0 none) < 4 ∧
    (let s := awaiting [⟨0x16, 0, 0, 0, .regAccess accA⟩] [⟨0x26, 0, 0, 0, .regReply 0 7 false 5⟩] [⟨0x82, 0, 0, 0, .regReply 0 7 false 5⟩]
     s.ws.tele = [⟨0x16, 0, 0, 0, .regAccess accA⟩] ∧ s.ws.inter = [⟨0x26, 0, 0, 0, .regReply 0 7 false 5⟩] ∧
       s.ws.up = [⟨0x82, 0, 0, 0, .regReply 0 7 false 5⟩] ∧ mcRuns s = true ∧ s.pw.state ≠ .p4 ∧ s.ws.held = [] ∧ s.ws.waitTele = [] ∧
       awaited s 0 7 = some (0, 7, 4, false) ∧ s.db.ctrl.getLsbD 12 = false) ∧
    awaited (moving .p0 none) 0 7 = none ∧
    (let s := { hostUp with mem := { hostUp.mem with ready := true } }
     (Each (List.range 64) fun i => readFaults s (s.mem.bar4Base.toNat + 0x40 % 2 ^ 36 + i) = false) ∧ s.mem.heldWrites = [] ∧
       s.rst.dataPlaneOn = true) := by decide +kernel

/-- The values of these registers do not lie in the waystations. -/
theorem witness_waystation_free_registers (w : Ws) :
    regValue { moving .p0 none with ws := w } 0 0x700048 4 = regValue (moving .p0 none) 0 0x700048 4 ∧
      regValue { moving .p0 none with ws := w } 0 0xD00010 4 = regValue (moving .p0 none) 0 0xD00010 4 := ⟨rfl, rfl⟩

/-! ### Witnesses: memory, loads, phases and cells -/

/-- Memory is ready. -/
def memUp (f : Mem → Mem) : State := { hostUp with mem := f { hostUp.mem with ready := true } }

/-- Physical sub-channel `p` of stack 0 has this entry. -/
def subIs (p : Nat) (w : W32) : State := memUp fun m => { m with subch := m.subch.set p w }

/-- A retirement of sub-channel 2 of stack 0. -/
def retireA (copying : Bool) : Retire := { stack := 0, failing := 2, spare := 30, pin := 5, copying := copying, ptr := 0 }

theorem witness_memory_controllers :
    (Each [(0x40 : Nat), 0x00EEFFFFFFE0] fun a => let s := memUp id
      isDram a = true ∧ s.mem.ready = true ∧ s.mem.selfRefresh = false ∧ deadSub s a = false ∧ tagFault s a = false ∧
        (subEntry s (subOf a).1 (subOf a).2).isSome = true ∧
        (serving s a).map (fun p => erasurePin (subAt s (subOf a).1 p)) = some none) ∧
    rsDecode none (errSymbols [(0, 1), (17, 2), (35, 255)]) = none ∧
    deadSub (subIs 0 0xC0) 0x40 = true ∧ State.reset.mem.ready = false ∧ (memUp fun m => { m with selfRefresh := true }).mem.selfRefresh = true ∧
    (Each (List.range 64) fun i => readFaults (memUp id) (0x40 + i) = false) ∧
    (let s := memUp id
     s.mem.subch.length = 256 ∧ s.mem.patrol.getLsbD 0 = true ∧ s.mem.patrol.toNat / 256 % 256 ≠ 0) ∧
    (memUp id).mem.heldWrites = [] ∧ (retireA true).spare ≠ (retireA true).failing ∧
    (memUp fun m => { m with patrol := 0 }).mem.patrol.getLsbD 0 = false ∧
    (let s := memUp fun m => { m with subch := m.subch.set 2 0x542, retires := [retireA false] }
     s.mem.subch.length = 256 ∧ s.mem.retires.filter (fun x => x.stack == 0) = [retireA false] ∧ unusedSpare s 0 = some 30 ∧
       bitsOf (lget 0 s.mem.subch 2).toNat 7 5 = 2) ∧
    (let s := memUp fun m => { m with subch := m.subch.set 2 0x562, retires := [retireA true] }
     s.mem.subch.length = 256 ∧ s.mem.retires.find? (fun x => x.stack == 0 && x.copying) = some (retireA true)) := by decide +kernel

/-- A load with this stage and failed check, of a small image that has been read. -/
def loadB (st : LoadStage) (check : Nat) : Load := { loadA st with bytes := 64, check := check, offset := 128, cell := 79 }

/-- The module with that load alone. -/
def loading (l : Load) : State := { moving .p0 none with fb := { hostReg.fb with loads := [l] } }

theorem witness_load_stages :
    (Each [LoadStage.accept, .verify, .hold, .apply, .report] fun st => (loading (loadB st 0)).fb.loads = [loadB st 0] ∧
      loadRuns (loading (loadB st 0)) (loadB st 0) = true ∧ (loadB st 0).dies = 0xFF ∧ (loadB st 0).stage = st) ∧
    (Each (List.range 64) fun i => readFaults (loading (loadB .accept 0)) (0x40 + i) = false) ∧
    (∀ d, d < 8 → dieHalted (loading (loadB .hold 0)) d = false) ∧
    loadBlocked (imgOf imageA) (loading (loadB .hold 0)) = false ∧ dieHalted (haltedAll (loading (loadB .hold 0))) 7 = true ∧
    loadBlocked (imgOf imageA) (let s := loading (loadB .hold 0); { s with fb := { s.fb with runs := [(3, runA)] } }) = true ∧
    (loadB .report 5).check ≠ 0 ∧ (loadB .report 0).check = 0 := by decide +kernel

/-- Core 0 of region 3 with these parts. -/
def coreOf (f : Core → Core) : State :=
  let s := { moving .p0 none with fb := { hostReg.fb with runs := [(3, runA)] } }
  setCore s 0 (f { Core.reset with region := 3 })

/-- A stream of one element on port 0. -/
def streamA (dir : Nat) (started : Bool) : Stream :=
  { ord := 1, port := 0, dir := dir, fmt := 0, perm := 0, param := 0, count := 1, base := 0x100, stride := 8, edges := [0], tag := 0,
    tape := false, started := started }

/-- A move of one sector. -/
def moveA (toDevice started : Bool) : Move :=
  { ord := 1, core := 0, dev := 0x40, toDevice := toDevice, cstore := 0x1FFFE0, len := 32, tag := 0, started := started }

theorem witness_streams_and_moves :
    (Each [(0 : Nat), 1, 2] fun dir =>
      streamToStart (getCore (coreOf fun c => { c with streams := [streamA dir false] }) 0) 0 (dir == 1) = some (streamA dir false) ∧
      streamRunning (getCore (coreOf fun c => { c with streams := [streamA dir true] }) 0) 0 (dir == 1) = some (streamA dir true)) ∧
    streamToStart (getCore (coreOf id) 0) 0 true = none ∧ streamRunning (getCore (coreOf id) 0) 0 true = none ∧
    dieHalted (coreOf id) 0 = false ∧ dieHalted (haltedAll (coreOf id)) 0 = true ∧
    takeOut ((streamA 1 true).edges.map fun e => 64 * 0 + e) (inputsFor 0 0 1) 0 (getCore (coreOf fun c => { c with streams := [streamA 1 true] }) 0) = none ∧
    (Each [true, false] fun d => moveToStart (coreOf fun c => { c with moves := [moveA d false] }) 0 = some (0, moveA d false) ∧
      moveRunning (coreOf fun c => { c with moves := [moveA d true] }) 0 = some (0, moveA d true)) ∧
    moveToStart (coreOf id) 0 = none ∧ moveRunning (coreOf id) 0 = none ∧ (getCore (coreOf id) 0).phase = none ∧
    (Each (List.range 32) fun i => readFaults (coreOf id) (0x40 + i) = false ∧ readFaults (coreOf id) (clusterStoreAt 0 + 0x1FFFE0 + i) = false) := by
  decide +kernel

/-- A phase of core 0 in region 3. -/
def phaseA : CorePhase := { id := 7, ctx := 0, count := 5, region := 3, late := false }

/-- The totals of phase 7 gathered from these cores, all of die 0. -/
def openA (cores : List Nat) : OpenRec :=
  { region := 3, phaseId := 7, cores := cores, tot := [(144, 1)], fmts := [2], dies := 0, sat := [], incomplete := false }

/-- The phase runs on core 0, and these cores have ended it. -/
def phased (cores : List Nat) : State :=
  let s := coreOf fun c => { c with phase := some phaseA }
  { s with tw := { s.tw with opens := [openA cores] } }

/-- A region of a cluster on either side of the border of dies 0 and 1, whose cores on die 0 have ended phase 7. -/
def regB : Region := { regA with first := 149, count := 2 }

/-- The state in which it runs. -/
def phasedB : State :=
  let s := coreOf id
  { s with fb := { s.fb with regions := [(3, regB)] }, tw := { s.tw with opens := [openA [596, 597, 598, 599]] } }

/-- The program of region 3 has ended on its four cores. -/
def ended4 : State :=
  let r : Run := { runA with program := true }
  [0, 1, 2, 3].foldl (fun s i => setCore s i { Core.reset with region := 3, ended := true })
    { moving .p0 none with fb := { hostReg.fb with runs := [(3, r)] } }

theorem witness_phases_and_programs :
    (let s := phased [1, 2, 3]
     (getCore s 0).phase = some phaseA ∧ dieHalted s 0 = false ∧ runOf s 3 = some runA ∧ regionOf s 3 = some regA ∧ runA.program = false ∧
       runA.seqFault = none ∧ phaseA.late = false ∧ s.fb.waits = [] ∧ (getCore s 0).region = 3 ∧
       s.tw.opens.find? (fun o => o.region == 3 && o.phaseId == 7 && !o.cores.contains 0) = some (openA [1, 2, 3]) ∧
       (∀ i ∈ regA.cores, i ≠ 0 → i ∈ (openA [1, 2, 3]).cores) ∧ 0 ∈ regA.cores) ∧
    (let s := phased [0, 1, 2, 3]
     ∀ o ∈ s.tw.opens, o.region = 3 → ∀ i ∈ regA.cores, i / 600 = 0 → i ∈ o.cores) ∧
    (let s := phasedB
     runOf s 3 = some runA ∧ regionOf s 3 = some regB ∧ runA.program = false ∧ s.fb.waits = [] ∧
       s.tw.opens.find? (fun x => x.region == 3 && regB.cores.any fun i => i / 600 == 1 && !x.cores.contains i) =
         some (openA [596, 597, 598, 599]) ∧
       (∀ i ∈ regB.cores, i / 600 ≠ 1 → i ∈ (openA [596, 597, 598, 599]).cores) ∧ (∃ f ∈ (openA [596, 597, 598, 599]).fmts, f / 16 ≠ 1)) ∧
    runOf ended4 3 = some { runA with program := true } ∧ regionOf ended4 3 = some regA ∧ ended4.fb.waits = [] ∧ runA.poisoned = [] ∧
    (∀ i ∈ regA.cores, (getCore ended4 i).ended = true ∧ (getCore ended4 i).region = 3) ∧
    (∀ o ∈ ended4.tw.opens, o.region ≠ 3) ∧ runA.seqFault = none ∧
    (getCore (coreOf id) 0).ended = false ∧ (getCore (coreOf id) 0).phase = none := by decide +kernel

/-- An element. -/
def elemA : Elem := { bits := 0x3FF0000000000000, fmt := 0, poison := false, clip := false, tapePoison := false }

/-- An element of a pair that a RAW drain gave. -/
def elemR : Elem := { elemA with raw := true }

/-- Cell 0 with context `x` and these parts, its core in a phase. -/
def celled (x : Ctx) (f : Cell → Cell) : State :=
  let s := coreOf fun c => { c with phase := some phaseA }
  setCell s 0 (f { Cell.reset with ctxs := [(0, x)] })

theorem witness_cells :
    cellRuns (coreOf id) 0 = false ∧
    (Each [(0x1 : BitVec 128), 0x3] fun w => let s := celled { Ctx.idle with tile := w } fun c => { c with inq := [(0, [elemA])], kDone := 2 }
      let x := (getCell s 0).act
      cellRuns s 0 = true ∧ x.tileEn = true ∧ x.role = w.toNat / 2 ∧ x.transposed = false ∧ x.streamFromStore = false ∧
        tget [] (getCell s 0).inq 0 = [elemA] ∧ (getCell s 0).kDone % (x.kLen * 4) + 1 < x.kLen * 4) ∧
    (let s := celled { Ctx.idle with tile := 0xB } fun c => { c with inq := [(0, [elemA, elemA])], kDone := 31 }
     let x := (getCell s 0).act
     cellRuns s 0 = true ∧ x.tileEn = true ∧ x.role = 5 ∧ x.streamFromStore = false ∧ tget [] (getCell s 0).inq 0 = [elemA, elemA]) ∧
    (Each [(1 : Nat), 2, 4] fun n => let s := celled { Ctx.idle with wide := BitVec.ofNat 128 (n * 1024) } fun c => { c with redq := [elemA, elemA] }
      cellRuns s 0 = true ∧ (getCell s 0).act.red = n ∧ (getCell s 0).redq = [elemA, elemA]) ∧
    (Each [(0 : Nat), 15] fun k => let s := celled { Ctx.idle with wide := BitVec.ofNat 128 (3 * 1024 + k * 2 ^ 20) } fun c => { c with redq := [elemA] }
      let x := (getCell s 0).act
      cellRuns s 0 = true ∧ x.red = 3 ∧ (getCell s 0).topkSeen = 0 ∧ x.redAdd = false ∧ 0 < x.topkK ∧ x.topkK ≤ 32 ∧ (getCell s 0).redq = [elemA] ∧ elemA.raw = false) ∧
    (let s := celled { Ctx.idle with wide := 3 * 1024 } fun c => { c with redq := [elemR, elemR] }
     let x := (getCell s 0).act
     cellRuns s 0 = true ∧ x.red = 3 ∧ (getCell s 0).topkSeen = 0 ∧ x.redAdd = false ∧ 0 < x.topkK ∧ x.topkK ≤ 32 ∧
       (getCell s 0).redq = [elemR, elemR] ∧ elemR.raw = true ∧
       ({ s := elemR.bits.setWidth 32, e := elemR.bits.setWidth 32, poison := false, mark := elemR.poison } : Entry) ≠ Entry.blank ∧
       ({ s := elemR.bits.setWidth 32, e := 0xFFFFFFFF, poison := false, mark := elemR.poison } : Entry) = Entry.blank) ∧
    (let s := celled { Ctx.idle with wide := 1, chain := [0] } fun c => { c with inq := [(2, [elemA])] }
     let x := (getCell s 0).act
     cellRuns s 0 = true ∧ x.chainLen ≠ 0 ∧ x.legs.length = 0 ∧ (takeWide s 0 x).isSome = true) ∧
    (let s := celled { Ctx.idle with wide := 1, chain := [0] } id
     (takeWide s 0 (getCell s 0).act).isNone = true) ∧
    (let s := celled { Ctx.idle with drain := 0x4000000000002 } fun c => { c with wideq := [elemA] }
     let x := (getCell s 0).act
     cellRuns s 0 = true ∧ x.dsrc = 2 ∧ x.raw = false ∧ x.dfmt ≤ 5 ∧ x.drmode = 0 ∧ x.ddestStore = true ∧ (getCell s 0).wideq = [elemA] ∧
       fmtBits x.dfmt % 8 = 0 ∧ x.destBase % 8 = 0 ∧ x.destBase + ((getCell s 0).drainN + 1) * 8 ≤ 16384 ∧
       sectorPoison s (cellStoreAt 0 + x.destBase + (getCell s 0).drainN * (fmtBits x.dfmt / 8)) = false) := by decide +kernel

/-! ### Witnesses: the black box, the mailbox and the side channels -/

/-- The black box with these parts. -/
def boxed (f : Bb → Bb) : State := { moving .p0 none with bb := f Bb.reset }

/-- The window with these parts. -/
def windowed (f : BbWindow → BbWindow) : State := boxed fun b => { b with committed := 5, window := f BbWindow.empty }

/-- The first 252 bytes of record 1. -/
def recordHead : List Byte := leBytes 8 1 ++ List.replicate 244 0

/-- Record 1 with its CRC. -/
def recordOne : List Byte := recordHead ++ leBytes 4 (crc32c recordHead).toNat

theorem witness_record_select :
    (let s := boxed fun b => { b with committed := 1, slots := [(0, recordOne)] }
     mcRuns s = true ∧ s.pw.state ≠ .p4 ∧ tget [] s.bb.slots (bbSlot 1) = recordOne ∧ 1 ≤ s.bb.committed) ∧
    field recordOne 0 8 = 1 ∧ field recordOne 252 4 = (crc32c (recordOne.take 252)).toNat := by
  refine ⟨⟨rfl, by decide, rfl, by decide⟩, by decide +kernel, ?_⟩
  have h3 : recordHead.length = 252 := by decide +kernel
  have h1 : recordOne.take 252 = recordHead := List.take_left' h3
  have h2 := field_append recordHead 4 (crc32c recordHead).toNat
  have h4 := (crc32c recordHead).isLt
  rw [h3, Nat.mod_eq_of_lt (by omega)] at h2
  rw [h1]
  exact h2

theorem witness_newer_record :
    (let s := boxed fun b => { b with committed := 81921, slots := [(16384, leBytes 8 81921)] }
     (16385 : Nat) ≤ s.bb.committed ∧ 16385 < field (tget [] s.bb.slots (bbSlot 16385)) 0 8) ∧
    mcRuns { moving .p0 none with pw := { (moving .p0 none).pw with mcRestarting := true } } = false := by decide +kernel

/-- A note of a type and cause. -/
def noteOf (type cause : Nat) : List Byte := padTo 8 [] ++ leBytes 2 type ++ leBytes 2 cause

theorem witness_notes_and_windows :
    (let s := boxed id
     mcRuns s = true ∧ s.pw.state ≠ .p4 ∧ s.bb.notes = []) ∧
    (Each [((4 : Nat), (0 : Nat)), (5, 0x100), (5, 0xFF)] fun x =>
      field (padTo 256 (noteOf x.1 x.2)) 8 2 = x.1 ∧ field (padTo 256 (noteOf x.1 x.2)) 10 2 = x.2) ∧
    (Each [(15 : Nat), 16] fun n => let s := boxed fun b => { b with notes := List.replicate n [1] }
      s.pw.state ≠ .p4 ∧ s.bb.notes ≠ [] ∧ s.bb.notes.length = n) ∧
    (let s := windowed fun w => { w with len := 1024, lampSeen := 0x200, totals := [(16, 1)] }
     mcRuns s = true ∧ 1024 ≤ s.bb.window.len ∧ s.bb.window.events = []) ∧
    (let s := windowed fun w => { w with len := 3, events := [(0xFF, [1])] }
     s.bb.window.events = [(0xFF, [1])]) ∧
    (let s := windowed fun w => { w with len := 1023, events := [(0x100, [])] }
     s.bb.window.len < 1024 ∧ ∀ e ∈ s.bb.window.events, 0x100 ≤ e.1) := by decide +kernel

/-- A telemetry message of a kind. -/
def teleIn (kind : Nat) (w : List Nat) : State :=
  let s := moving .p0 none
  { s with ws := { s.ws with tele := [⟨kind, 7, 0, 0, .counts w⟩] } }

theorem witness_telemetry :
    (Each [0x11, 0x12, 0x13, 0x14] fun k => mcRuns (teleIn k [9, 1, 0x25]) = true ∧ (teleIn k [9, 1, 0x25]).ws.tele = [⟨k, 7, 0, 0, .counts [9, 1, 0x25]⟩] ∧
      (teleIn k [9, 1, 0x25]).ws.held = []) ∧
    lget 0xFF [9, 1, 0x25] 0 < 10 ∧ lget 0xFF [9, 1, 0x25] 1 ≠ 9 ∧ lget 0xFF [9, 1, 0x25] (2 + 0) ≠ 0xFF ∧ lget 0xFF [9, 1, 0x25] (2 + 19) = 0xFF ∧
    (moving .p0 none).ws.tele = [] := by decide +kernel

/-- Port A's mailbox asks for index `i`. -/
def asking (i : W64) : State := { moving .p0 none with mg := { Mg.reset with mboxA := { Mbox.reset with data := tput 0 [] 0 i } } }

theorem witness_mailbox_and_side_channels :
    (Each [(0 : W64), 255, 256, 5248, 5376, 1] fun i => served (asking i) 0x1000 = true ∧ (mboxOf (asking i) 0).status.getLsbD 0 = false ∧
      tget 0 (mboxOf (asking i) 0).data 0 = i) ∧
    served (moving .p4 none) 0x1000 = false ∧
    periodRuns (moving .p0 none) = true ∧ (0x58 : Nat) = 0x58 + (moving .p0 none).rst.smbAddr ∧ ¬ (0x59 : Nat) = 0x58 + (moving .p0 none).rst.smbAddr ∧
    (Each [(0xE00000 : Nat), 0xB00008] fun o => Machine.secured o = true ∧ (regAt (moving .p0 none) 0 o).isSome = true ∧ o < 0xB08000 ∨ 0xC00000 ≤ o) ∧
    Machine.secured 0xD00000 = false := by decide +kernel

/-! ### Witnesses: caravans -/

/-- The descriptor of an ALL_GATHER of two units among ranks 0x1234 and 0x1235. -/
def descB : CollDesc :=
  { kind := 3, mode := 0, flags := 0, param := 0, caravan := 1, src := 0x800, dst := 0x1000, group := 0x11234, count := 2,
    members := 0, root := 0, unitLog2 := 0, rsv := false, step := 0, aux := 0 }

/-- A caravan of two members, this one the first, changed by `f`. -/
def cvA (f : Caravan → Caravan) : Caravan :=
  f { d := descB, handle := 9, ranks := [0x1234, 0x1235], me := 0, role := .plain, state := .running, check := 0, staging := 0, contrib := [],
      readyFrom := [], readySent := [], dataFrom := [], sends := [], sent := [], toSend := 0, toWrite := 0, unacked := 0, leaves := [],
      got := [], granted := [], lists := [], doneFrom := [], sums := TreeSum.zero, statusAsked := false, perm := none }

/-- A packet of caravan 1 from rank 0x1235. -/
def pktC (n : Nat) (f : Packet → Packet) : Packet :=
  f { pktA with dest := 0x1234, src := 0x1235, typ := 2, caravan := 1, sub := n }

/-- The packet at the engines, and the caravans beside it. -/
def engine (k : Packet) (l : List Caravan) : State :=
  let s := moving .p0 none
  { s with lk := { s.lk with engq := [k] }, cl := { s.cl with caravans := l } }

theorem witness_caravan_heads :
    (Each [1, 2, 3, 4, 5, 6, 7] fun n => (engine (pktC n id) []).lk.engq = [pktC n id] ∧ (pktC n id).sub = n ∧
      cvOf (engine (pktC n id) []) 1 = none ∧ (engine (pktC n id) []).cl.ended = [] ∧ (engine (pktC n id) []).cl.lost = false ∧
      (engine (pktC n id) []).cl.parked.length < 4096) ∧
    (Each [CvState.opening, .running, .waiting] fun st => let c := cvA fun c => { c with state := st }
      cvOf (engine (pktC 2 id) [c]) 1 = some c ∧ c.ranks.findIdx? (fun x => x == (pktC 2 id).src) = some 1 ∧ c.perm = none ∧
        (pktC 2 id).check = c.check ∧ (pktC 2 fun k => { k with check := 1 }).check ≠ c.check) ∧
    (moving .p0 none).lk.engq = [] := by decide +kernel

theorem witness_data_and_ready :
    (Each [((3 : Nat), (1 : Nat)), (4, 2)] fun x =>
      let k := pktC 1 fun k => { k with stage := x.2, offset := 1, endUnit := 2, payload := List.replicate 32 7 }
      0 < dataTo k - dataFrom k ∧ k.payload.length = 32 * (dataTo k - dataFrom k) ∧ k.poison = [] ∧
        (cvA fun c => { c with d := { c.d with kind := x.1 } }).d.kind = x.1 ∧ (cvA id).d.dst % 32 = 0) ∧
    (Each (List.range 32) fun i => isMemory (0x1000 + 32 * 1 + i) = true ∧ deadSub (engine (pktC 1 id) []) (0x1000 + 32 * 1 + i) = false) ∧
    (Each [(1 : Nat), 2] fun m =>
      let c := cvA fun c => { c with d := { c.d with kind := 2, mode := m }, contrib := [⟨leBytes 8 5, false, true⟩] }
      let k := pktC 1 fun k => { k with offset := 0, endUnit := 1, payload := leBytes 8 9 }
      dataFrom k = 0 ∧ dataTo k = 1 ∧ segOf c.d c.m 0 = c.me ∧ k.poison = [] ∧ k.payload.length = 8 ∧ (lget default c.contrib 0).present = true ∧ (lget default c.contrib 0).poison = false ∧
        (lget default c.contrib 0).bytes.length = 8 ∧ isMemory (c.d.dst + 8 * (0 - segStart c.d c.m c.me)) = true ∧ deadSub (engine k [c]) (c.d.dst + 8 * (0 - segStart c.d c.m c.me)) = false) ∧
    (let x : CvSend := ⟨1, 1, 0, 0, [⟨List.replicate 32 3, false, true⟩]⟩
     let c := cvA fun c => { c with sends := [x], toWrite := 1, toSend := 1 }
     c.toWrite ≠ 0 ∧ 1 ∉ c.readyFrom ∧ c.sends = [x] ∧ x.dst = 1 ∧ x.off = unitBase c x.seg + tget 0 c.sent (sentKey 1 x.stage x.seg)) ∧
    1 ∈ (cvA fun c => { c with readyFrom := [1] }).readyFrom := by decide +kernel

/-- The third of four members: its child is the fourth and its parent the first. -/
def cvMid (f : Caravan → Caravan) : Caravan :=
  cvA fun c => f { c with ranks := [0x1236, 0x1237, 0x1234, 0x1235], me := 2 }

theorem witness_ends :
    (let c := cvA id
     c.children = [1] ∧ c.isCoord = true ∧ 1 ∈ c.children ∧ c.toWrite = 0 ∧ c.toSend = 0 ∧ c.sends = [] ∧ c.unacked = 0 ∧ c.doneFrom = [] ∧
       c.role = .plain ∧ c.d.kind ≠ 5 ∧ isFenced (engine (pktC 3 id) [c]) 0x1235 = false ∧ (engine (pktC 3 id) [c]).cl.parked = []) ∧
    (let c := cvMid id
     c.children = [3] ∧ c.isCoord = false ∧ c.parent = 0 ∧ c.ranks.findIdx? (fun x => x == 0x1235) = some 3 ∧
       c.ranks.findIdx? (fun x => x == 0x1236) = some c.parent ∧ isFenced (engine (pktC 4 id) [c]) (lget 0 c.ranks 3) = false) ∧
    (let c := cvA fun c => { c with doneFrom := [1], toWrite := 1 }
     1 ∈ c.doneFrom ∧ c.toWrite ≠ 0) ∧
    (let e : Ended := { id := 1, check := 0, committed := true, cause := 0, member := 0, sums := TreeSum.zero, coordinator := true,
                        ranks := [0x1234, 0x1235] }
     let s := { engine (pktC 6 id) [] with cl := { State.reset.cl with ended := [e] } }
     cvOf s 1 = none ∧ s.cl.ended.find? (fun x => x.id == 1 && x.check == (pktC 6 id).check) = some e ∧ e.coordinator = true ∧
       e.ranks.findIdx? (fun x => x == (pktC 6 id).src) = some 1) := by decide +kernel

/-- A permutation of two cycles, none done. -/
def permA : Permute :=
  { table := [1, 0, 3, 2], cycles := [[0, 1], [2, 3]], rolling := false, done := [], undone := [], started := [0, 1], saved := [1], wrote := [],
    waitStart := [], pause := false, fetches := [], outs := [], cancelled := false }

theorem witness_cycles :
    (let c := cvMid fun c => { c with perm := some permA, unacked := 1, d := { c.d with kind := 5 } }
     let k := pktC 7 fun k => { k with offset := 1, payload := [1] }
     cvOf (engine k [c]) 1 = some c ∧ c.perm = some permA ∧ permA.rolling = false ∧ c.isCoord = false ∧ c.unacked ≠ 0 ∧ permA.waitStart = [] ∧
       k.offset < permA.cycles.length ∧ k.payload ≠ [] ∧ askStage k ≠ 4 ∧ k.offset ∉ permA.done ∧ k.offset ∉ permA.undone ∧ c.state = .running) := by
  decide +kernel

/-- The descriptor heads the down queue. -/
def posting (d : CollDesc) (f : State → State) : State :=
  let s := moving .p0 none
  f { s with ws := { s.ws with down := [⟨4, 0, 0, 8, .collDesc 9 d⟩] } }

/-- The update engine's record lies at SRC of the descriptor. -/
def recordAtSrc (s : State) : State := { s with ue := { s.ue with recordBase := 0x800, recordWords := 16 } }

theorem witness_posting :
    (let s := posting descB id
     checkDesc s descB false = some ([0x1234, 0x1235], 0) ∧ ueClassify s descB 2 = .inr .plain ∧ cvOf s 1 = none ∧
       s.cl.caravans.length < 512 ∧ s.cl.parked = [] ∧ longOpOf s 9 = none) ∧
    (let d := { descB with param := 1 }
     checkDesc (posting d id) d false = none) ∧
    ueClassify (posting descB recordAtSrc) descB 2 = .inl 0x0307 ∧ checkDesc (posting descB recordAtSrc) descB false = some ([0x1234, 0x1235], 0) ∧
    (let s := posting descB fun s => { s with cl := { s.cl with caravans := [cvA id] } }
     cvOf s descB.caravan ≠ none ∧ checkDesc s descB false = some ([0x1234, 0x1235], 0)) ∧
    (let s := posting descB fun s => { s with cl := { s.cl with caravans := List.replicate 512 (cvA fun c => { c with d := { c.d with caravan := 2 } }) } }
     512 ≤ s.cl.caravans.length ∧ checkDesc s descB false = some ([0x1234, 0x1235], 0)) ∧
    (moving .p0 none).ws.down = [] := by decide +kernel

/-- The caravan waits to be opened, with `n` bytes of staging. -/
def waiting (n : W64) (c : Caravan) : State :=
  let s := moving .p0 none
  { s with cl := { s.cl with caravans := [c], order := [1], stagingSize := n } }

theorem witness_opening :
    (let c := cvA fun c => { c with state := .opening, staging := 64 }
     let s := waiting 63 c
     cvOf s 1 = some c ∧ c.state = .opening ∧ 1 ∈ s.cl.order ∧ engaged s 1 = true ∧ s.cl.stagingSize.toNat < c.staging ∧ c.d.kind ≠ 5) ∧
    (let c := cvA fun c => { c with state := .opening, staging := 64 }
     let o := cvA fun c => { c with staging := 1, d := { c.d with caravan := 9 } }
     let s := { waiting 64 c with cl := { (waiting 64 c).cl with caravans := [c, o] } }
     engaged s 1 = true ∧ c.staging ≤ s.cl.stagingSize.toNat ∧ stagingFree s < c.staging + stagingBefore s 1) ∧
    (let c := cvA fun c => { c with state := .opening, staging := 64, me := 1, d := { c.d with kind := 4 } }
     let s := waiting 64 c
     engaged s 1 = true ∧ c.staging + stagingBefore s 1 ≤ stagingFree s ∧ c.d.kind = 4 ∧ c.isCoord = false ∧ c.d.count ≠ 0) ∧
    (let c := cvA fun c => { c with state := .opening, ranks := [0x1234] }
     let s := waiting 0 c
     engaged s 1 = true ∧ c.staging + stagingBefore s 1 ≤ stagingFree s ∧ c.ranks.length = 1 ∧ c.me = 0 ∧ c.sums = TreeSum.zero ∧
       c.d.src % 32 = 0 ∧ c.d.src + 32 * c.d.count ≤ c.d.dst ∧
       (Each (List.range 64) fun i => readFaults s (0x800 + i) = false ∧ isMemory (0x1000 + i) = true ∧ deadSub s (0x1000 + i) = false)) ∧
    (let s := { waiting 64 (cvA fun c => { c with state := .opening }) with cl := { State.reset.cl with caravans := [cvA fun c => { c with state := .opening }] } }
     1 ∉ s.cl.order) := by decide +kernel

theorem witness_caravan_timers :
    (let c := cvA fun c => { c with readySent := [1] }
     c.state ≠ .opening ∧ c.readySent.filter (fun x => !c.dataFrom.contains x) = [1]) ∧
    (let c := cvA fun c => { c with readySent := [1], dataFrom := [1] }
     c.perm = none ∧ ∀ x ∈ c.readySent, x ∈ c.dataFrom) ∧
    (Each [true, false] fun a => (cvMid fun c => { c with state := .waiting, statusAsked := a }).statusAsked = a) ∧
    (cvMid id).isCoord = false ∧
    (let s := { moving .p0 none with cl := { State.reset.cl with parked := [pktC 2 (fun k => { k with caravan := 3 }), pktC 2 id] } }
     s.cl.parked = [pktC 2 fun k => { k with caravan := 3 }] ++ pktC 2 id :: [] ∧
       (∀ q ∈ [pktC 2 fun k => { k with caravan := 3 }], q.caravan ≠ 1) ∧ (pktC 2 id).caravan = 1) := by decide +kernel

/-- The update engine with these parts. -/
def updating (f : Ue → Ue) : State := { moving .p0 none with ue := f Ue.reset }

theorem witness_update_engine :
    ueLocked (updating id) = false ∧ (updating id).cp.holder = 0 + 1 ∧ ueLocked (updating fun u => { u with converting := true }) = true ∧
    (let s := updating fun u => { u with reinit := true, recordBase := 0x1000, recordWords := 16, codeBase := 0x1080, codeWords := 4 }
     s.ue.reinit = true ∧ s.cl.caravans = [] ∧ ueRecordBase s % 32 = 0 ∧ ueCodeBase s % 32 = 0 ∧ 10 ≤ ueRecordWords s ∧ s.ue.step < 2 ^ 32 ∧
       ueRecordBase s + 8 * ueRecordWords s ≤ ueCodeBase s ∧ bkts s = [] ∧
       (Each (List.range 128) fun i => readFaults s (0x1000 + i) = false) ∧
       (Each (List.range 32) fun i => isMemory (0x1080 + i) = true ∧ deadSub s (0x1080 + i) = false)) ∧
    (let s := { waiting 0 (cvA fun c => { c with state := .opening }) with ue := { Ue.reset with reinit := true, waitFor := [1] } }
     ∃ c ∈ s.cl.caravans, c.state = .opening ∧ c.d.caravan ∈ s.ue.waitFor) ∧
    (let s := { updating fun u => { u with converting := true, convert := [(0, 1, 0)], table := 0x4000 } with
                  mem := { Mem.reset with bytes := [(0x4038, 1), (0x403C, 32)] } }
     s.ue.converting = true ∧ s.ue.convert = [(0, 1, 0)] ∧ (bktAt s 0).channels = 1 ∧
       (bktAt s 0).scaleAddr + (bktAt s 0).first / (bktAt s 0).rowLen + (bktAt s 0).channels ≤ retainedBase ∧
       deadSub s ((bktAt s 0).scaleAddr + (bktAt s 0).first / (bktAt s 0).rowLen + 0) = false) := by decide +kernel

/-- With no entry in the table every stack's count is zero. -/
theorem witness_missing (j : Nat) :
    fullMissing (updating fun u => { u with reinit := true, recordBase := 0x1000, recordWords := 16, codeBase := 0x1080, codeWords := 4 }) j <
      2 ^ 64 := by
  have h : bkts (updating fun u =>
      { u with reinit := true, recordBase := 0x1000, recordWords := 16, codeBase := 0x1080, codeWords := 4 }) = [] := rfl
  unfold fullMissing
  rw [h]
  split <;> simp

/-! ### Witnesses: the whole machine -/

/-- A command waits, port 9 is held dark, and the completion ring of port A is full. -/
def wholeA : State :=
  let s := modPort (ringed 64 [] []) 9 fun v => { v with state := .hold }
  { s with pending := [.queryDevice hdrA], ws := { s.ws with portSm := 0x200 }, mem := { s.mem with bytes := [(5, 1), (0x1234567, 0xFF)] } }

theorem witness_form_and_held_ports :
    (Memory.wf wholeA.mem.bytes = true ∧ TenPorts wholeA ∧ wholeA.cp.holder ≤ 2 ∧
      (Each [0, 1] fun port => (getCp wholeA port).cqEntries.getLsbD 31 = true →
        ((getCp wholeA port).cqTail - (getCp wholeA port).cqHead).toNat ≤ cqSize (getCp wholeA port))) ∧
    (∀ p, p < 10 → lineHeld wholeA p = true → (getPort wholeA p).state.lit = false) ∧ lineHeld wholeA 9 = true := by decide +kernel

theorem witness_form (port : Nat) : (getCp wholeA port).cqEntries.getLsbD 31 = true →
    ((getCp wholeA port).cqTail - (getCp wholeA port).cqHead).toNat ≤ cqSize (getCp wholeA port) := by
  rcases port with _ | n
  · decide +kernel
  · intro h
    exact absurd h (by show ¬ (getCp wholeA 1).cqEntries.getLsbD 31 = true; decide +kernel)

theorem witness_step : ∃ t, step wholeA = .next t := ⟨_, rfl⟩

end Sys2Proof.Tests
end

section
/-!
PROOF. Only a command that names a unit the module does not have stops the model (R5).
-/

namespace Sys2Proof.Machine

open Sys2Proof

/-- Every row is one guard on the units its command names around one next state: a host command's is that of `hostRow`, a
sequencer instruction's that of `seqStep`, an event's its own; a command that names no unit has the guard `true`. -/
theorem exec_eq_guardUnit (i : Instr) (s : State) : ∃ t, exec i s = guardUnit i.unitsOk t := by
  cases i <;> exact ⟨_, rfl⟩

/-- Settles O2: each row is a guard on its units, which answers a next state or the one fault. -/
theorem onlyUnknownUnitsStop : Obligations.OnlyUnknownUnitsStop := by
  unfold Obligations.OnlyUnknownUnitsStop
  intro i s
  obtain ⟨t, ht⟩ := exec_eq_guardUnit i s
  constructor
  · intro hok
    exact ⟨t, by rw [ht, hok, guardUnit_true]⟩
  · intro hbad
    rw [ht, hbad, guardUnit_false]

end Sys2Proof.Machine
end

section
/-!
PROOF. The waystation queues as their readers see them: what posting on a queue and taking its head do to the messages sent and
not yet taken (R20 to R26).
-/

namespace Sys2Proof.Machine

open Sys2Proof

/-! ### Posting: the message is sent last, whether it enters or waits (R24) -/

theorem sentDown_postDown (s : State) (k : Nat) (p : Payload) : sentDown (postDown s k p) = sentDown s ++ [p] := by
  unfold postDown sentDown
  dsimp only
  split
  · next h =>
    obtain ⟨-, hw⟩ : s.ws.down.length < 64 ∧ s.ws.waitDown = [] := by simpa using h
    simp [enterDown, bumpSeq, mkMsg, hw]
  · simp

theorem sentUp_postUp (s : State) (k src : Nat) (p : Payload) : sentUp (postUp s k src p) = sentUp s ++ [p] := by
  unfold postUp sentUp
  dsimp only
  split
  · next h =>
    obtain ⟨-, hw⟩ : s.ws.up.length < 128 ∧ s.ws.waitUp = [] := by simpa using h
    simp [enterUp, bumpSeq, mkMsg, hw]
  · simp

/-- A message of the reserved share never coalesces (R25). -/
theorem sentTele_postTele {k : Nat} (hk : coalesces k = false) (s : State) (src : Nat) (p : Payload) :
    sentTele (postTele s k src p) = sentTele s ++ [(k, p)] := by
  unfold postTele sentTele
  rw [if_pos (by simp [hk])]
  split
  · next h =>
    obtain ⟨-, hw⟩ : teleUsed s false < 16 ∧ s.ws.waitTele = [] := by simpa using h
    simp [enterTele, bumpSeq, mkMsg, hw]
  · simp

theorem enterInter_waitInter (s : State) (k n : Nat) (p : Payload) :
    (enterInter s k n p).ws.waitInter = s.ws.waitInter := by
  unfold enterInter
  dsimp only
  split
  · rfl
  · rw [traceRec_onlyDb]
    rfl

/-- A message that enters the interlock queue stands before those whose senders wait. -/
theorem sentInter_enterInter (s : State) (k n : Nat) (p : Payload) :
    sentInter (enterInter s k n p) = s.ws.inter.map (fun m => (m.kind, m.payload)) ++ (k, p) :: s.ws.waitInter := by
  simp [sentInter, enterInter_inter, enterInter_waitInter, mkMsg]

theorem sentInter_postOrder (s : State) (k : Nat) (p : Payload) : sentInter (postOrder s k p) = sentInter s ++ [(k, p)] := by
  unfold postOrder
  split
  · next h =>
    obtain ⟨-, hw⟩ : s.ws.inter.length < 32 ∧ s.ws.waitInter = [] := by simpa using h
    rw [sentInter_enterInter, sentInter, hw]
    simp
  · simp [sentInter]

/-! ### Taking the head: the longest-waiting message enters the place that becomes free (R24) -/

theorem sentUp_popUp {s : State} {m : Msg} {rest : List Msg} (h : s.ws.up = m :: rest) :
    sentUp (popUp s) = (sentUp s).drop 1 := by
  unfold popUp sentUp
  dsimp only
  split
  · next hw => simp [h, hw]
  · next hw => simp [enterUp, bumpSeq, mkMsg, h, hw]

theorem sentInter_popInter {s : State} {m : Msg} {rest : List Msg} (h : s.ws.inter = m :: rest) :
    sentInter (popInter s) = (sentInter s).drop 1 := by
  unfold popInter
  dsimp only
  split
  · next hw => simp [sentInter, h, hw]
  · next hw =>
    rw [sentInter_enterInter]
    simp [sentInter, h, hw]

theorem popDown_of_none_waiting {s : State} (h : s.ws.waitDown = []) :
    popDown s = { s with ws := { s.ws with down := s.ws.down.drop 1 } } := by
  unfold popDown
  dsimp only
  rw [h]

theorem popTele_of_none_waiting {s : State} {m : Msg} {rest : List Msg} (ht : s.ws.tele = m :: rest) (hh : s.ws.held = [])
    (hw : s.ws.waitTele = []) : popTele s = { s with ws := { s.ws with tele := rest } } := by
  unfold popTele refillTele
  rw [ht]
  dsimp only
  rw [hh, hw]
  split <;> rfl

/-! ### What an operation on one queue leaves of the others -/

theorem sentDown_postUp (s : State) (k src : Nat) (p : Payload) : sentDown (postUp s k src p) = sentDown s := by
  unfold postUp sentDown
  dsimp only
  split <;> rfl

theorem sentInter_postUp (s : State) (k src : Nat) (p : Payload) : sentInter (postUp s k src p) = sentInter s := by
  unfold postUp sentInter
  dsimp only
  split <;> rfl

theorem postUp_regsOut (s : State) (k src : Nat) (p : Payload) : (postUp s k src p).ws.regsOut = s.ws.regsOut := by
  unfold postUp
  dsimp only
  split <;> rfl

theorem popUp_regsOut (s : State) : (popUp s).ws.regsOut = s.ws.regsOut := by
  unfold popUp
  dsimp only
  split <;> rfl

theorem popUp_onlyWs (s : State) : popUp s = { s with ws := (popUp s).ws } := by
  unfold popUp
  dsimp only
  split <;> rfl

theorem postTele_regsOut (s : State) (k src : Nat) (p : Payload) : (postTele s k src p).ws.regsOut = s.ws.regsOut := by
  unfold postTele
  split <;> split <;> rfl

theorem sentUp_enterInter (s : State) (k n : Nat) (p : Payload) : sentUp (enterInter s k n p) = sentUp s := by
  unfold enterInter sentUp
  dsimp only
  split
  · rfl
  · rw [traceRec_onlyDb]
    rfl

theorem sentUp_popInter (s : State) : sentUp (popInter s) = sentUp s := by
  unfold popInter
  dsimp only
  split
  · rfl
  · rw [sentUp_enterInter]
    rfl

theorem enterInter_tele (s : State) (k n : Nat) (p : Payload) : (enterInter s k n p).ws.tele = s.ws.tele := by
  unfold enterInter
  dsimp only
  split
  · rfl
  · rw [traceRec_onlyDb]
    rfl

theorem postOrder_tele (s : State) (k : Nat) (p : Payload) : (postOrder s k p).ws.tele = s.ws.tele := by
  unfold postOrder
  split
  · exact enterInter_tele s k 0 p
  · rfl

/-- While tracing is off no record is written. -/
theorem traceRec_of_off {s : State} (h : s.db.ctrl.getLsbD 12 = false) (k a : Nat) : traceRec k a s = s := by
  unfold traceRec
  rw [if_neg (Bool.eq_false_iff.mp h)]

end Sys2Proof.Machine
end

section
/-!
PROOF. Register accesses of the hosts (R9, R11, R12, R27, R36, R430, R431, R433): an equation for each path an access takes.
-/

namespace Sys2Proof.Machine

open Sys2Proof

/-- The access that a host port's register row makes. -/
def hostAcc (s : State) (port off width : Nat) (write : Bool) (v : W64) (tag : W32) : RegAcc :=
  { off := off, width := width, write := write, port := port, steward := holdsToken s port, tag := tag, value := v }

/-! ### Counting and answering -/

theorem getCp_countCpFault (s : State) (port k : Nat) :
    getCp (countCpFault s port k) port = { getCp s port with faultCnt := taddW (getCp s port).faultCnt k 1 } := by
  simp [countCpFault, modCp]

theorem answer_write (port : Nat) (tag : W32) (v : W64) (s : State) : answer port tag true v s = s := by simp [answer]

/-- A read of a host whose link is up completes with its value. -/
theorem answer_read {s : State} {port : Nat} (hp : port < 2) (hl : (getCp s port).linkUp = true) (tag : W32) (v : W64) :
    answer port tag false v s = { s with env := { s.env with replies := s.env.replies ++ [(port, tag, v)] } } := by
  simp [answer, hp, hl]

/-! ### Carrying out an access -/

/-- A read changes no more than the count of the free values it has drawn. -/
theorem regRead_frame (port off width : Nat) (s : State) :
    (regRead port off width s).2 = { s with freeCtr := (regRead port off width s).2.freeCtr } := by
  unfold regRead
  dsimp only
  split <;> rfl

/-- A host's read outside SC_STAGE gives the register's value, and changes no more than the count of free values drawn. -/
theorem perform_read {off : Nat} (hst : ¬ (0xB08000 ≤ off ∧ off < 0xC00000)) (s t : State) (port width : Nat) (v : W64)
    (tag : W32) : ∃ n, perform (hostAcc s port off width false v tag) t =
      (false, BitVec.ofNat 64 (regValue t port off width), { t with freeCtr := n }) := by
  have hst' : (decide (0xB08000 ≤ off) && decide (off < 0xC00000)) = false := by simpa using hst
  refine ⟨(regRead port off width t).2.freeCtr, ?_⟩
  rw [← regRead_frame]
  unfold perform hostAcc
  dsimp only
  rw [hst']
  rfl

/-- SC_STAGE lies in a block of the management plane. -/
theorem not_stage_of_wayOf {off : Nat} (h : wayOf off ≠ .management) : ¬ (0xB08000 ≤ off ∧ off < 0xC00000) := by
  rintro ⟨hlo, hhi⟩
  have hb : blockAt off = some (.sc, 0xB00000) := by
    unfold blockAt
    repeat rw [if_neg (by omega)]
    rw [if_pos (by omega)]
  exact h (by simp [wayOf, hb])

/-! ### REGISTER_WRITE -/

section RegisterWrite

variable {s : State} {port off width : Nat} (v : W64) (hp : port < 2) (hl : (getCp s port).linkUp = true)

include hp hl

theorem registerWrite_of_breaks (hb : accessBreaks s port off width = true) :
    exec (.registerWrite port off width v) s = .next (countCpFault s port 0) := by
  show execRegisterWrite port off width v s = _
  simp [execRegisterWrite, guardUnit, refuseAccess, answer_write, hp, hl, hb]

theorem registerWrite_of_unpowered (hs : accessBreaks s port off width = false) (hw : wayOf off = .data)
    (hoff : s.rst.dataPlaneOn = false) : exec (.registerWrite port off width v) s = .next (countCpFault s port 2) := by
  show execRegisterWrite port off width v s = _
  simp [execRegisterWrite, guardUnit, refuseAccess, answer_write, hp, hl, hs, hw, hoff]

/-- The register takes a write at once where nothing of its block is on the way and its plane can serve it. -/
theorem registerWrite_of_clear (hs : accessBreaks s port off width = false)
    (h : wayOf off = .here ∨ (blockBusy s off = false ∧ ((wayOf off = .data ∧ s.rst.dataPlaneOn = true) ∨
      (wayOf off = .management ∧ served s off = true)))) :
    exec (.registerWrite port off width v) s = .next (regWrite port (holdsToken s port) off width v s).1 := by
  show execRegisterWrite port off width v s = _
  rcases h with hw | ⟨hb, ⟨hw, hon⟩ | ⟨hw, hsv⟩⟩
  · simp [execRegisterWrite, guardUnit, perform, hp, hl, hs, hw]
  · simp [execRegisterWrite, guardUnit, perform, hp, hl, hs, hw, hb, hon]
  · simp [execRegisterWrite, guardUnit, perform, hp, hl, hs, hw, hb, hsv]

/-- Behind an earlier access of its block a write is sent after it (R28). -/
theorem registerWrite_of_busy (hs : accessBreaks s port off width = false) (hb : blockBusy s off = true)
    (hon : s.rst.dataPlaneOn = true) (h : wayOf off = .data ∨ (wayOf off = .management ∧ served s off = true)) :
    exec (.registerWrite port off width v) s =
      .next (sendAccess (hostAcc s port off width true v (freshTag s port)) s) := by
  show execRegisterWrite port off width v s = _
  rcases h with hw | ⟨hw, hsv⟩
  · simp [execRegisterWrite, guardUnit, hostAcc, hp, hl, hs, hw, hb, hon]
  · simp [execRegisterWrite, guardUnit, hostAcc, hp, hl, hs, hw, hb, hon, hsv]

end RegisterWrite

/-! ### LK_DEST_SEL, a register of the data plane -/

theorem accessBreaks_destSel (s : State) (port : Nat) : accessBreaks s port 0x700048 4 = false := by
  simp [accessBreaks, msixArea, regAt, blockAt, lkReg]

theorem wayOf_destSel : wayOf 0x700048 = .data := rfl

/-- The steward's write sets the field (Table 10.20). -/
theorem regWrite_destSel (s : State) (port : Nat) (v : W64) :
    (regWrite port true 0x700048 4 v s).1 = { s with lk := { s.lk with destSel := v.setWidth 32 &&& 0xFFFF } } := by
  have hv : lowOf (v &&& 0xFFFFFFFF) 0xFFFF = v.setWidth 32 &&& 0xFFFF := by
    rw [lowOf, BitVec.setWidth_and, BitVec.and_assoc]
    rfl
  simpa [regWrite, msixArea, regAt, blockAt, lkReg, regPut, lkWrite, lkOwned, took] using hv

/-! ### REG_ACCESS -/

section RegAccess

variable {s : State} {port off width : Nat} {v : W64} {tag : W32} (hp : port < 2) (hl : (getCp s port).linkUp = true)
  (hs : accessBreaks s port off width = false)

include hp in
theorem exec_regAccess (write : Bool) :
    exec (.regAccess port off width write v tag) s = .next (accessRow (hostAcc s port off width write v tag) s) := by
  have h3 : port < 3 := by omega
  have h2 : port ≠ 2 := by omega
  show execRegAccess port off width write v tag s = _
  simp [execRegAccess, guardUnit, hostAcc, hp, h3, h2]

include hp hl hs

/-- The command processor's own registers answer at once. -/
theorem accessRow_read_here (hw : wayOf off = .here) : ∃ n, accessRow (hostAcc s port off width false v tag) s =
    { s with freeCtr := n,
             env := { s.env with replies := s.env.replies ++ [(port, tag, BitVec.ofNat 64 (regValue s port off width))] } } := by
  obtain ⟨n, hn⟩ := perform_read (not_stage_of_wayOf (off := off) (by simp [hw])) s s port width v tag
  have e : accessRow (hostAcc s port off width false v tag) s =
      answer port tag false (perform (hostAcc s port off width false v tag) s).2.1
        (perform (hostAcc s port off width false v tag) s).2.2 := by
    simp [accessRow, hostAcc, hl, hs, hw]
  rw [e, hn]
  exact ⟨n, answer_read (s := { s with freeCtr := n }) hp hl ..⟩

theorem accessRow_read_unpowered (hw : wayOf off = .data) (hoff : s.rst.dataPlaneOn = false) :
    accessRow (hostAcc s port off width false v tag) s = answer port tag false 0 (countCpFault s port 2) := by
  simp [accessRow, refuseAccess, hostAcc, hp, hl, hs, hw, hoff]

omit hp in
theorem accessRow_travels (hw : wayOf off ≠ .here) (hon : s.rst.dataPlaneOn = true) :
    accessRow (hostAcc s port off width false v tag) s = travel (hostAcc s port off width false v tag) s := by
  cases h : wayOf off with
  | here => exact absurd h hw
  | data => simp [accessRow, hostAcc, hl, hs, h, hon]
  | management => simp [accessRow, hostAcc, hl, hs, h, hon]

end RegAccess

/-! ### The access on the waystations -/

theorem sentDown_sendAccess (a : RegAcc) (s : State) : sentDown (sendAccess a s) = sentDown s ++ [.regAccess a] :=
  sentDown_postDown s 0x05 (.regAccess a)

/-- An access entered among those without a reply is found there. -/
theorem awaited_of_mem {s : State} {port : Nat} {tag : W32} {n : Nat} {w : Bool} (h : (port, tag, n, w) ∈ s.ws.regsOut) :
    awaited s port tag ≠ none := by
  intro hn
  simpa using List.find?_eq_none.mp hn _ h

/-- An access sent on an empty command waystation and taken again has entered among those without a reply. -/
theorem popDown_sendAccess {s : State} (hd : s.ws.down = []) (hw : s.ws.waitDown = []) (a : RegAcc) :
    ∃ sent seqs, popDown (sendAccess a s) = { s with ws := { s.ws with
      down := [], sent := sent, seqs := seqs, regsOut := s.ws.regsOut ++ [(a.port, a.tag, a.width, a.write)] } } := by
  have he : sendAccess a s = await a (enterDown s 0x05 (.regAccess a)) := by
    rw [sendAccess, postDown_enters (by simp [hd]) hw]
  rw [he, popDown_of_none_waiting (s := await a (enterDown s 0x05 (.regAccess a))) hw]
  refine ⟨(enterDown s 0x05 (.regAccess a)).ws.sent, (enterDown s 0x05 (.regAccess a)).ws.seqs, ?_⟩
  simp [await, enterDown, bumpSeq, hd]

section Travel

variable {s : State} {a : RegAcc} (hd : s.ws.down = []) (hw : s.ws.waitDown = [])

include hd hw

theorem sendAccess_head : (sendAccess a s).ws.down = [mkMsg s 0 0x05 0x22 (.regAccess a)] := by
  rw [sendAccess, postDown_enters (by simp [hd]) hw]
  simp [await, enterDown_down, hd]

omit hd hw in
theorem sendAccess_awaited : (awaited (sendAccess a s) a.port a.tag).isNone = false := by
  have hin : (a.port, a.tag, a.width, a.write) ∈ (sendAccess a s).ws.regsOut := by simp [sendAccess, await]
  simpa [Option.isSome_iff_ne_none] using awaited_of_mem hin

/-- On an empty command waystation an access to a data-plane block is carried out at once (R27). -/
theorem travel_data (h : wayOf a.off = .data) : travel a s =
    let p := perform a (popDown (sendAccess a s))
    postReply a.port a.tag p.1 p.2.1 p.2.2 := by
  unfold travel takeAccess
  rw [hd, sendAccess_head hd hw]
  simp [mkMsg, sendAccess_awaited, h]

/-- One to a management-plane block is forwarded while fewer than 4 are outstanding (R28). -/
theorem travel_management (h : wayOf a.off = .management) (hout : mgmtOut s < 4) :
    travel a s = postTele (popDown (sendAccess a s)) 0x16 0x10 (.regAccess a) := by
  have hout' : mgmtOut (sendAccess a s) = mgmtOut s := by
    rw [sendAccess, postDown_enters (by simp [hd]) hw]
    rfl
  unfold travel takeAccess
  rw [hd, sendAccess_head hd hw]
  simp [mkMsg, sendAccess_awaited, h, hout', hout]

end Travel

/-! ### The management plane's part, replies and timeouts -/

/-- The controller takes the access at the head of the telemetry queue and posts the reply (R27). -/
theorem exec_mgmtRequest {s : State} {m : Msg} {rest : List Msg} {a : RegAcc} (ht : s.ws.tele = m :: rest)
    (hm : m.payload = .regAccess a) (hmc : mcRuns s = true) (hpw : s.pw.state ≠ .p4) (hh : s.ws.held = [])
    (hw : s.ws.waitTele = []) (ha : awaited s a.port a.tag ≠ none) (htr : s.db.ctrl.getLsbD 12 = false) :
    exec .mgmtRequest s =
      let p := perform a { s with ws := { s.ws with tele := rest } }
      .next (postOrder p.2.2 0x26 (.regReply a.port a.tag p.1 p.2.1)) := by
  obtain ⟨kind, source, coalesced, seq, payload⟩ := m
  subst hm
  have hn : nextRequest s = some (seq, a) := by
    unfold nextRequest
    rw [if_pos hmc, ht]
  have hp4 : (s.pw.state == .p4) = false := by simpa using hpw
  have haw : (awaited s a.port a.tag).isNone = false := by simpa [Option.isSome_iff_ne_none] using ha
  show execMgmtRequest s = _
  unfold execMgmtRequest
  rw [hn]
  dsimp only
  rw [hp4, if_neg Bool.false_ne_true, if_pos hmc, traceRec_of_off htr, popTele_of_none_waiting ht hh hw, haw,
    if_neg Bool.false_ne_true]

/-- The hub passes a reply on (R27). -/
theorem exec_mgmtReply {s : State} {m : Msg} {rest : List Msg} {port : Nat} {tag : W32} {d : Bool} {v : W64}
    (hi : s.ws.inter = m :: rest) (hk : m.kind = 0x26) (hm : m.payload = .regReply port tag d v) :
    exec .mgmtReply s = .next (postReply port tag d v (popInter s)) := by
  obtain ⟨kind, source, coalesced, seq, payload⟩ := m
  subst hk hm
  show execMgmtReply s = _
  simp [execMgmtReply, hi]

/-- A reply at the head of the up queue completes its access (R27). -/
theorem exec_regReply {s : State} {m : Msg} {rest : List Msg} {port : Nat} {tag : W32} {d : Bool} {v : W64}
    (hu : s.ws.up = m :: rest) (hm : m.payload = .regReply port tag d v) :
    exec .regReply s = .next (replyTo port tag v (popUp s)) := by
  obtain ⟨kind, source, coalesced, seq, payload⟩ := m
  subst hm
  show execRegReply s = _
  unfold execRegReply
  rw [hu]

section Reply

variable {s : State} {port n : Nat} {tag : W32} (hp : port < 2) (hl : (getCp s port).linkUp = true)
  (ha : awaited s port tag = some (port, tag, n, false))

include hp hl ha

/-- The read that awaits its reply completes with it. -/
theorem replyTo_read (v : W64) : replyTo port tag v s = { forget port tag s with
    env := { s.env with replies := s.env.replies ++ [(port, tag, v)] } } := by
  unfold replyTo
  rw [ha]
  exact answer_read (s := forget port tag s) hp hl tag v

/-- A read without a reply in time completes with all ones, and is counted (R430). -/
theorem failAccess_read : failAccess port tag s = { countCpFault (forget port tag s) port 1 with
    env := { s.env with replies :=
      s.env.replies ++ [(port, tag, if n = 4 then 0xFFFFFFFF else 0xFFFFFFFFFFFFFFFF)] } } := by
  unfold failAccess
  rw [ha]
  dsimp only
  rw [if_pos hp]
  exact answer_read (s := countCpFault (forget port tag s) port 1) hp (by rw [getCp_countCpFault]; exact hl) tag _

end Reply

theorem exec_registerAccessTimeout {s : State} {port : Nat} (hp : port < 2) (tag : W32) :
    exec (.registerAccessTimeout port tag) s = .next (failAccess port tag s) := by
  show execRegisterAccessTimeout port tag s = _
  simp [execRegisterAccessTimeout, guardUnit, hp]

theorem failAccess_of_none {s : State} {port : Nat} {tag : W32} (h : awaited s port tag = none) :
    failAccess port tag s = s := by
  unfold failAccess
  rw [h]

end Sys2Proof.Machine
end

section
/-!
PROOF. Device memory through BAR4 (R262, R264, R288): a range that reads without fault is read, and written, byte for byte.
-/

namespace Sys2Proof.Machine

open Sys2Proof

/-! ### The sectors of a range -/

/-- Every piece of a range lies inside it. -/
theorem sectorPieces_within {p : Nat × Nat} : ∀ {fuel a n : Nat}, p ∈ sectorPieces a fuel n →
    a ≤ p.1 ∧ 0 < p.2 ∧ p.1 + p.2 ≤ a + n
  | 0, _, _, h => by simp [sectorPieces] at h
  | _ + 1, _, 0, h => by simp [sectorPieces] at h
  | fuel + 1, a, n + 1, h => by
    simp only [sectorPieces, List.mem_cons] at h
    have hk : Nat.min (n + 1) (32 - a % 32) = min (n + 1) (32 - a % 32) := rfl
    rcases h with rfl | h
    · dsimp only
      omega
    · have ih := sectorPieces_within h
      omega

theorem readBytes_add (s : State) (a m n : Nat) : readBytes s a (m + n) = readBytes s a m ++ readBytes s (a + m) n := by
  simp [readBytes, List.range_add, Nat.add_assoc]

/-- The pieces of a range, read one after another, are the range. -/
theorem flatten_readBytes_sectorPieces (s : State) : ∀ (fuel a n : Nat), n ≤ fuel →
    ((sectorPieces a fuel n).map fun p => readBytes s p.1 p.2).flatten = readBytes s a n
  | 0, _, n, h => by
    obtain rfl : n = 0 := by omega
    rfl
  | _ + 1, _, 0, _ => rfl
  | fuel + 1, a, n + 1, h => by
    have hk : Nat.min (n + 1) (32 - a % 32) = min (n + 1) (32 - a % 32) := rfl
    simp only [sectorPieces, List.map_cons, List.flatten_cons]
    rw [flatten_readBytes_sectorPieces s fuel _ _ (by omega), ← readBytes_add]
    congr 1
    omega

/-! ### Reading -/

/-- Nothing but the count of bytes moved differs. -/
def OnlyMoved (s t : State) : Prop := t = { s with mem := { s.mem with moved := t.mem.moved } }

theorem OnlyMoved.refl (s : State) : OnlyMoved s s := rfl

theorem OnlyMoved.trans {s t u : State} (h : OnlyMoved s t) (g : OnlyMoved t u) : OnlyMoved s u := by
  unfold OnlyMoved at *
  rw [g, h]

theorem OnlyMoved.readFaults {s t : State} (h : OnlyMoved s t) (x : Nat) : readFaults t x = readFaults s x := by
  rw [h]
  rfl

theorem OnlyMoved.readByte {s t : State} (h : OnlyMoved s t) (x : Nat) : readByte t x = readByte s x := by
  rw [h]
  rfl

theorem countLine_onlyMoved (s : State) (a : Nat) : OnlyMoved s (countLine s a) := by
  unfold countLine
  split <;> rfl

theorem noteRead_of_sound {s : State} {a : Nat} (h : readFaults s a = false) : noteRead s a = countLine s a := by
  have hc : readFaults (countLine s a) a = false := by rw [(countLine_onlyMoved s a).readFaults, h]
  simp only [readFaults, Bool.or_eq_false_iff] at hc
  obtain ⟨⟨-, htag⟩, hdead⟩ := hc
  simp [noteRead, htag, hdead]

/-- Each piece of a range that does not fault starts at an address that does not. -/
theorem readFaults_sectorPieces {s : State} {a n : Nat} (h : ∀ i, i < n → readFaults s (a + i) = false) :
    ∀ p ∈ sectorPieces a n n, readFaults s p.1 = false := by
  intro p hp
  obtain ⟨hlo, hpos, hhi⟩ := sectorPieces_within hp
  have hi := h (p.1 - a) (by omega)
  rwa [Nat.add_sub_cancel' hlo] at hi

/-- Reading a range that does not fault counts the bytes moved, and nothing else. -/
theorem noteReads_onlyMoved {s : State} {a n : Nat} (h : ∀ i, i < n → readFaults s (a + i) = false) :
    OnlyMoved s (noteReads s a n) := by
  have hl := readFaults_sectorPieces h
  clear h
  unfold noteReads
  generalize sectorPieces a n n = l at hl
  induction l generalizing s with
  | nil => rfl
  | cons p r ih =>
    have hp : OnlyMoved s (noteRead s p.1) := by
      rw [noteRead_of_sound (hl p (by simp))]
      exact countLine_onlyMoved s p.1
    exact hp.trans (ih fun q hq => by rw [hp.readFaults]; exact hl q (by simp [hq]))

theorem addrKind_of_job {a : Nat} (h : a < retainedBase) : addrKind a = .job := by simp [addrKind, h]

theorem isMemory_of_job {a : Nat} (h : a < retainedBase) : isMemory a = true := by simp [isMemory, addrKind_of_job h]

theorem isDram_of_job {a : Nat} (h : a < retainedBase) : isDram a = true :=
  decide_eq_true (Nat.lt_trans h (by decide))

/-- A read of job memory that does not fault gives its bytes without EP (R288). -/
theorem bar4Read_of_sound {s : State} {port off len : Nat} (hon : s.rst.dataPlaneOn = true)
    (hjob : bar4Addr s off + len ≤ retainedBase) (h : ∀ i, i < len → readFaults s (bar4Addr s off + i) = false) :
    bar4Read port off len s = { noteReads s (bar4Addr s off) len with
      env := { s.env with bar4 := s.env.bar4 ++ [(port, readBytes s (bar4Addr s off) len, false)] } } := by
  have hpiece : ∀ p ∈ sectorPieces (bar4Addr s off) len len, bar4Piece s p = (readBytes s p.1 p.2, false, false) := by
    intro p hp
    obtain ⟨hlo, hpos, hhi⟩ := sectorPieces_within hp
    simp [bar4Piece, isMemory_of_job (show p.1 < retainedBase by omega), readFaults_sectorPieces h p hp]
  have henv : (noteReads s (bar4Addr s off) len).env = s.env := by rw [noteReads_onlyMoved h]
  unfold bar4Read
  simp only [hon, if_true, List.map_congr_left hpiece]
  simp [Function.comp_def, flatten_readBytes_sectorPieces s len _ len le_rfl, henv]

theorem exec_bar4Read {s : State} {port : Nat} (hp : port < 2) (hl : (getCp s port).linkUp = true) (off len : Nat) :
    exec (.bar4Read port off len) s = .next (bar4Read port off len s) := by
  show execBar4Read port off len s = _
  simp [execBar4Read, guardUnit, whenTaken, hp, hl]

/-! ### Writing -/

theorem readFaults_writeBytes (x : Nat) : ∀ (l : List Byte) (s : State) (a : Nat),
    readFaults (writeBytes s a l) x = readFaults s x
  | [], _, _ => rfl
  | b :: r, s, a => by
    rw [writeBytes, readFaults_writeBytes x r]
    rfl

theorem writeBytes_heldWrites : ∀ (l : List Byte) (s : State) (a : Nat),
    (writeBytes s a l).mem.heldWrites = s.mem.heldWrites
  | [], _, _ => rfl
  | _ :: r, _, _ => writeBytes_heldWrites r _ _

theorem writeBytes_hostFault : ∀ (l : List Byte) (s : State) (a : Nat),
    (writeBytes s a l).mem.hostFault = s.mem.hostFault
  | [], _, _ => rfl
  | _ :: r, _, _ => writeBytes_hostFault r _ _

/-- Clearing a sector's mark makes no read fault. -/
theorem readFaults_clearPoison {s : State} {x : Nat} (h : readFaults s x = false) (a : Nat) :
    readFaults (setSectorPoison s a false) x = false := by
  have hp : sectorPoison (setSectorPoison s a false) x = if x / 32 = a / 32 then false else sectorPoison s x := by
    simp [sectorPoison, setSectorPoison]
  have ht : tagFault (setSectorPoison s a false) x = tagFault s x := rfl
  have hd : deadSub (setSectorPoison s a false) x = deadSub s x := rfl
  simp only [readFaults, Bool.or_eq_false_iff, hp, ht, hd] at h ⊢
  obtain ⟨⟨⟨hm, hpo⟩, htag⟩, hdead⟩ := h
  refine ⟨⟨⟨hm, ?_⟩, htag⟩, hdead⟩
  split
  · rfl
  · exact hpo

theorem stale_retag (s : State) (a : Nat) :
    (retag s a).mem.stale = tput 0 s.mem.stale (a / 32) (if unscrubbed s (a / 32) = true then 16 else 0) := by
  simp [retag, putTag]

/-- A sector that has been written bears the tag expected there (R271). -/
theorem tagNow_retag_same {s : State} {a x : Nat} (hx : x / 32 = a / 32) : tagNow (retag s a) x = expectedTag s x := by
  have he : expectedTag (retag s a) x = expectedTag s x := rfl
  have hu : unscrubbed (retag s a) (x / 32) = unscrubbed s (a / 32) := by rw [hx]; rfl
  unfold tagNow
  rw [stale_retag, tget_tput, if_pos hx, he, hu]
  cases unscrubbed s (a / 32) <;> simp

theorem tagNow_retag_other {s : State} {a x : Nat} (hx : x / 32 ≠ a / 32) : tagNow (retag s a) x = tagNow s x := by
  have hs : tget 0 (retag s a).mem.stale (x / 32) = tget 0 s.mem.stale (x / 32) := by
    rw [stale_retag, tget_tput, if_neg hx]
  unfold tagNow
  rw [hs]
  rfl

/-- Giving a sector its tag makes no read fault. -/
theorem readFaults_retag {s : State} {x : Nat} (h : readFaults s x = false) (a : Nat) :
    readFaults (retag s a) x = false := by
  have he : expectedTag (retag s a) x = expectedTag s x := rfl
  have ht : tagFault s x = false → tagFault (retag s a) x = false := by
    unfold tagFault
    rw [he]
    by_cases hx : x / 32 = a / 32
    · simp [tagNow_retag_same hx]
    · rw [tagNow_retag_other hx]
      exact id
  have hp : sectorPoison (retag s a) x = sectorPoison s x := rfl
  have hd : deadSub (retag s a) x = deadSub s x := rfl
  simp only [readFaults, Bool.or_eq_false_iff, hp, hd] at h ⊢
  obtain ⟨⟨⟨hm, hpo⟩, htag⟩, hdead⟩ := h
  exact ⟨⟨⟨hm, hpo⟩, ht htag⟩, hdead⟩

/-- A write to a DRAM sector that reads without fault stores its bytes, clears the mark and gives the tag. -/
theorem writeSector_of_sound {s : State} {a : Nat} (hd : isDram a = true) (h : readFaults s a = false) (bs : List Byte) :
    ∃ s0, OnlyMoved s s0 ∧
      writeSector s a bs false = countLine (retag (setSectorPoison (writeBytes s0 a bs) a false) a) a := by
  have hnote := noteRead_of_sound h
  simp only [readFaults, Bool.or_eq_false_iff, Bool.not_eq_false'] at h
  obtain ⟨⟨⟨hm, hpo⟩, htag⟩, hdead⟩ := h
  refine ⟨if a = a / 32 * 32 ∧ bs.length = 32 then s else countLine s a, ?_, ?_⟩
  · split
    · exact OnlyMoved.refl s
    · exact countLine_onlyMoved s a
  · simp [writeSector, hdead, hm, hpo, htag, hd, hnote]

/-- What a write of bytes to memory that reads without fault has done: they read back, every other byte stays, no read faults that
did not before, and no host access is counted or held. -/
structure Stores (s : State) (a : Nat) (bs : List Byte) (t : State) : Prop where
  bytes : ∀ x, readByte t x = if a ≤ x ∧ x < a + bs.length then bs.getD (x - a) 0 else readByte s x
  sound : ∀ x, readFaults s x = false → readFaults t x = false
  held : t.mem.heldWrites = s.mem.heldWrites
  counted : t.mem.hostFault = s.mem.hostFault

theorem Stores.nil (s : State) (a : Nat) : Stores s a [] s :=
  ⟨fun x => (if_neg (by simp)).symm, fun _ h => h, rfl, rfl⟩

/-- A write and the write of the bytes that follow it store the bytes of both. -/
theorem Stores.append {s t u : State} {a : Nat} {xs ys : List Byte} (h : Stores s a xs t)
    (g : Stores t (a + xs.length) ys u) : Stores s a (xs ++ ys) u where
  bytes x := by
    rw [g.bytes, h.bytes, List.length_append]
    by_cases hx : a ≤ x ∧ x < a + xs.length
    · rw [if_neg (by omega), if_pos hx, if_pos (by omega), List.getD_append _ _ _ _ (by omega)]
    · by_cases hy : a + xs.length ≤ x ∧ x < a + xs.length + ys.length
      · rw [if_pos hy, if_pos (by omega), List.getD_append_right _ _ _ _ (by omega), Nat.sub_add_eq]
      · rw [if_neg hy, if_neg hx, if_neg (by omega)]
  sound x hx := g.sound x (h.sound x hx)
  held := g.held.trans h.held
  counted := g.counted.trans h.counted

theorem writeSector_stores {s : State} {a : Nat} (hd : isDram a = true) (h : readFaults s a = false) (bs : List Byte) :
    Stores s a bs (writeSector s a bs false) := by
  obtain ⟨s0, h0, e⟩ := writeSector_of_sound hd h bs
  rw [e]
  have hl := countLine_onlyMoved (retag (setSectorPoison (writeBytes s0 a bs) a false) a) a
  constructor
  · intro x
    rw [hl.readByte, ← h0.readByte]
    exact readByte_writeBytes x bs s0 a
  · intro x hx
    rw [hl.readFaults]
    exact readFaults_retag (readFaults_clearPoison (by rw [readFaults_writeBytes, h0.readFaults, hx]) a) a
  · rw [hl, h0]
    exact writeBytes_heldWrites ..
  · rw [hl, h0]
    exact writeBytes_hostFault ..

/-- No phase holds job memory, so a host's write of it is made at once (R163). -/
theorem hostSector_of_job {s : State} {a : Nat} (hjob : a < retainedBase) (hh : s.mem.heldWrites = []) (bs : List Byte) :
    hostSector none a bs false s = writeSector s a bs false := by
  simp [hostSector, storeHeld, addrKind_of_job hjob, hh]

theorem slice_of_le {l : List Byte} {o n : Nat} (h : o + n ≤ l.length) : slice l o n = (l.drop o).take n := by
  rw [slice, padTo, List.take_append_of_le_length (by simp; omega)]

/-- A host's write of job memory that reads without fault, piece by piece, stores the bytes from the one at `b` on. -/
theorem foldl_hostSector_stores {a : Nat} {bs : List Byte} (hjob : a + bs.length ≤ retainedBase) :
    ∀ (fuel b n : Nat) (s : State), n ≤ fuel → a ≤ b → b + n = a + bs.length → s.mem.heldWrites = [] →
    (∀ x, b ≤ x → x < b + n → readFaults s x = false) →
    Stores s b (bs.drop (b - a))
      ((sectorPieces b fuel n).foldl (fun st p => hostSector none p.1 (slice bs (p.1 - a) p.2) false st) s)
  | 0, b, n, s, hf, _, hn, _, _ => by
    rw [List.drop_eq_nil_of_le (by omega)]
    exact Stores.nil s b
  | _ + 1, b, 0, s, _, _, hn, _, _ => by
    rw [List.drop_eq_nil_of_le (by omega)]
    exact Stores.nil s b
  | fuel + 1, b, n + 1, s, hf, hab, hn, hh, hr => by
    simp only [sectorPieces, List.foldl_cons]
    obtain ⟨k, hk⟩ : ∃ k, k = Nat.min (n + 1) (32 - b % 32) := ⟨_, rfl⟩
    have hk1 : 0 < k ∧ k ≤ n + 1 := by
      have : k = min (n + 1) (32 - b % 32) := hk
      omega
    rw [← hk]
    have hfirst : Stores s b ((bs.drop (b - a)).take k) (hostSector none b (slice bs (b - a) k) false s) := by
      have hb : b < retainedBase := by omega
      rw [hostSector_of_job hb hh, slice_of_le (by omega)]
      exact writeSector_stores (isDram_of_job hb) (hr b le_rfl (by omega)) _
    have hlen : ((bs.drop (b - a)).take k).length = k := by simp; omega
    have hrest := foldl_hostSector_stores hjob fuel (b + k) (n + 1 - k) _ (by omega) (by omega) (by omega)
      (hfirst.held.trans hh) fun x hlo hhi => hfirst.sound x (hr x (by omega) (by omega))
    have e : bs.drop (b + k - a) = (bs.drop (b - a)).drop k := by
      rw [List.drop_drop]
      congr 1
      omega
    rw [e] at hrest
    rw [← List.take_append_drop k (bs.drop (b - a))]
    exact hfirst.append (by rw [hlen]; exact hrest)

/-- A write of job memory that reads without fault stores its bytes (R262, R288). -/
theorem bar4Write_stores {s : State} {off : Nat} {bs : List Byte} (hjob : bar4Addr s off + bs.length ≤ retainedBase)
    (hh : s.mem.heldWrites = []) (h : ∀ i, i < bs.length → readFaults s (bar4Addr s off + i) = false) :
    Stores s (bar4Addr s off) bs (bar4Write off bs s) := by
  have hgood : ∀ p ∈ sectorPieces (bar4Addr s off) bs.length bs.length,
      (isMemory p.1 && addrKind p.1 != .retained) = true := by
    intro p hp
    obtain ⟨hlo, hpos, hhi⟩ := sectorPieces_within hp
    have hj : p.1 < retainedBase := by omega
    simp [isMemory_of_job hj, addrKind_of_job hj]
  have hfold := foldl_hostSector_stores hjob bs.length _ bs.length s le_rfl le_rfl rfl hh fun x hlo hhi => by
    have hx := h (x - bar4Addr s off) (by omega)
    rwa [Nat.add_sub_cancel' hlo] at hx
  rw [Nat.sub_self, List.drop_zero] at hfold
  unfold bar4Write
  dsimp only
  rw [List.filter_eq_self.mpr hgood, if_pos (List.all_eq_true.mpr hgood)]
  exact hfold

theorem exec_bar4Write {s : State} {port : Nat} (hp : port < 2) (hl : (getCp s port).linkUp = true)
    (hon : s.rst.dataPlaneOn = true) (off : Nat) (bs : List Byte) :
    exec (.bar4Write port off bs) s = .next (bar4Write off bs s) := by
  show execBar4Write port off bs s = _
  simp [execBar4Write, guardUnit, whenTaken, hp, hl, hon]

end Sys2Proof.Machine
end

section
/-!
PROOF. Register and BAR4 accesses reach their block, or fail as the rules say: the clauses of the statement, each from the equation of
its path.
-/

namespace Sys2Proof.Machine

open Sys2Proof

section Register

variable {s : State} {port off width : Nat} (v : W64) (tag : W32) (hp : port < 2) (hl : (getCp s port).linkUp = true)

include hp hl

/-- A write behind an earlier access of its block is sent last, and reaches nothing yet (R28). -/
theorem registerWrite_sent (hs : accessBreaks s port off width = false) (hb : blockBusy s off = true)
    (hon : s.rst.dataPlaneOn = true) (h : wayOf off = .data ∨ (wayOf off = .management ∧ served s off = true)) :
    Answers (.registerWrite port off width v) s fun t =>
      (∃ y, sentDown t = sentDown s ++ [.regAccess (hostAcc s port off width true v y)]) ∧
        t.lk = s.lk ∧ t.mem = s.mem ∧ t.cp = s.cp := by
  refine ⟨_, registerWrite_of_busy v hp hl hs hb hon h, ⟨freshTag s port, sentDown_sendAccess _ s⟩, ?_, ?_, ?_⟩ <;> rfl

theorem registerWrite_destSel (hon : s.rst.dataPlaneOn = true) (ht : s.cp.holder = port + 1)
    (hb : blockBusy s 0x700048 = false) : exec (.registerWrite port 0x700048 4 v) s =
      .next { s with lk := { s.lk with destSel := v.setWidth 32 &&& 0xFFFF } } := by
  have htoken : holdsToken s port = true := by simp [holdsToken, ht]
  rw [registerWrite_of_clear v hp hl (accessBreaks_destSel s port) (.inr ⟨hb, .inl ⟨wayOf_destSel, hon⟩⟩), htoken,
    regWrite_destSel]

variable (hs : accessBreaks s port off width = false)

include hs

theorem regAccess_unpowered (hw : wayOf off = .data) (hoff : s.rst.dataPlaneOn = false) :
    Answers (.regAccess port off width false v tag) s fun t => t.env.replies = s.env.replies ++ [(port, tag, 0)] := by
  refine ⟨_, exec_regAccess hp false, ?_⟩
  rw [accessRow_read_unpowered hp hl hs hw hoff, answer_read hp (by rw [getCp_countCpFault]; exact hl)]
  rfl

theorem regAccess_here (hw : wayOf off = .here) :
    Answers (.regAccess port off width false v tag) s fun t =>
      t.env.replies = s.env.replies ++ [(port, tag, BitVec.ofNat 64 (regValue s port off width))] ∧ t.cp = s.cp ∧
        t.ws = s.ws := by
  obtain ⟨n, hn⟩ := accessRow_read_here (v := v) (tag := tag) hp hl hs hw
  exact ⟨_, exec_regAccess hp false, by rw [hn]; exact ⟨rfl, rfl, rfl⟩⟩

variable (hd : s.ws.down = []) (hwait : s.ws.waitDown = [])

include hd hwait

/-- A data-plane block answers with REG_REPLY; the access awaits it (R27). -/
theorem regAccess_data (hw : wayOf off = .data) (hon : s.rst.dataPlaneOn = true)
    (hfree : ∀ w : Ws, regValue { s with ws := w } port off width = regValue s port off width) :
    Answers (.regAccess port off width false v tag) s fun t =>
      sentUp t = sentUp s ++ [.regReply port tag false (BitVec.ofNat 64 (regValue s port off width))] ∧
        sentDown t = [] ∧ (port, tag, width, false) ∈ t.ws.regsOut := by
  obtain ⟨sent, seqs, hu⟩ := popDown_sendAccess hd hwait (hostAcc s port off width false v tag)
  obtain ⟨n, hn⟩ := perform_read (not_stage_of_wayOf (off := off) (by simp [hw])) s
    (popDown (sendAccess (hostAcc s port off width false v tag) s)) port width v tag
  have hv : regValue (popDown (sendAccess (hostAcc s port off width false v tag) s)) port off width =
      regValue s port off width := by
    rw [hu]
    exact hfree _
  refine ⟨_, exec_regAccess hp false, ?_⟩
  rw [accessRow_travels hl hs (by simp [hw]) hon, travel_data hd hwait hw, hn, hv, hu]
  dsimp only [postReply]
  rw [sentUp_postUp, sentDown_postUp, postUp_regsOut]
  exact ⟨by simp [sentUp, hostAcc], by simp [sentDown, hwait], by simp [hostAcc]⟩

/-- An access to a management-plane block is passed on as MGMT_REQUEST (R27, R28). -/
theorem regAccess_management (hw : wayOf off = .management) (hon : s.rst.dataPlaneOn = true) (hout : mgmtOut s < 4) :
    Answers (.regAccess port off width false v tag) s fun t =>
      sentTele t = sentTele s ++ [(0x16, .regAccess (hostAcc s port off width false v tag))] ∧
        (port, tag, width, false) ∈ t.ws.regsOut := by
  obtain ⟨sent, seqs, hu⟩ := popDown_sendAccess hd hwait (hostAcc s port off width false v tag)
  refine ⟨_, exec_regAccess hp false, ?_⟩
  rw [accessRow_travels hl hs (by simp [hw]) hon, travel_management hd hwait hw hout, hu]
  dsimp only
  rw [sentTele_postTele rfl, postTele_regsOut]
  exact ⟨rfl, by simp [hostAcc]⟩

end Register

section Management

variable {s : State} {port off width : Nat} {v : W64} {tag : W32} {m : Msg} {rest : List Msg}

/-- The management plane answers a read it takes with MGMT_REPLY (R27). -/
theorem mgmtRequest_read (ht : s.ws.tele = m :: rest) (hm : m.payload = .regAccess (hostAcc s port off width false v tag))
    (hmc : mcRuns s = true) (hpw : s.pw.state ≠ .p4) (hh : s.ws.held = []) (hw : s.ws.waitTele = [])
    (ha : awaited s port tag ≠ none) (hst : ¬ (0xB08000 ≤ off ∧ off < 0xC00000)) (htr : s.db.ctrl.getLsbD 12 = false)
    (hfree : ∀ w : Ws, regValue { s with ws := w } port off width = regValue s port off width) :
    Answers .mgmtRequest s fun t => t.ws.tele = rest ∧
      sentInter t = sentInter s ++ [(0x26, .regReply port tag false (BitVec.ofNat 64 (regValue s port off width)))] := by
  obtain ⟨n, hn⟩ := perform_read hst s { s with ws := { s.ws with tele := rest } } port width v tag
  refine ⟨_, exec_mgmtRequest ht hm hmc hpw hh hw ha htr, ?_⟩
  rw [hn, hfree { s.ws with tele := rest }]
  dsimp only
  rw [postOrder_tele, sentInter_postOrder]
  exact ⟨rfl, by simp [sentInter, hostAcc]⟩

theorem mgmtReply_passed {d : Bool} (hi : s.ws.inter = m :: rest) (hk : m.kind = 0x26)
    (hm : m.payload = .regReply port tag d v) : Answers .mgmtReply s fun t =>
      sentInter t = (sentInter s).drop 1 ∧ sentUp t = sentUp s ++ [.regReply port tag d v] := by
  refine ⟨_, exec_mgmtReply hi hk hm, ?_⟩
  dsimp only [postReply]
  rw [sentInter_postUp, sentInter_popInter hi, sentUp_postUp, sentUp_popInter]
  exact ⟨rfl, rfl⟩

variable {n : Nat} (hp : port < 2) (ha : awaited s port tag = some (port, tag, n, false)) (hl : (getCp s port).linkUp = true)

include hp ha hl

theorem regReply_completes {d : Bool} (hu : s.ws.up = m :: rest) (hm : m.payload = .regReply port tag d v) :
    Answers .regReply s fun t =>
      sentUp t = (sentUp s).drop 1 ∧ t.env.replies = s.env.replies ++ [(port, tag, v)] := by
  have hpop : awaited (popUp s) port tag = some (port, tag, n, false) := by rw [awaited, popUp_regsOut]; exact ha
  have hlink : (getCp (popUp s) port).linkUp = true := by rw [popUp_onlyWs]; exact hl
  have henv : (popUp s).env = s.env := by rw [popUp_onlyWs]
  refine ⟨_, exec_regReply hu hm, ?_⟩
  rw [replyTo_read hp hlink hpop, henv]
  exact ⟨sentUp_popUp hu, rfl⟩

theorem registerAccessTimeout_fails : Answers (.registerAccessTimeout port tag) s fun t =>
    t.env.replies =
      s.env.replies ++ [(port, tag, BitVec.ofNat 64 (if n = 4 then 0xFFFFFFFF else 0xFFFFFFFFFFFFFFFF))] ∧
    tget 0 (getCp t port).faultCnt 1 = tget 0 (getCp s port).faultCnt 1 + 1 := by
  refine ⟨_, exec_registerAccessTimeout hp tag, ?_⟩
  rw [failAccess_read hp hl ha]
  constructor
  · dsimp only
    split <;> rfl
  · show tget 0 (getCp (countCpFault (forget port tag s) port 1) port).faultCnt 1 = _
    rw [getCp_countCpFault]
    simp [taddW]
    rfl

end Management

section Bar4

variable {s : State} {port off : Nat} (hp : port < 2) (hl : (getCp s port).linkUp = true) (hon : s.rst.dataPlaneOn = true)

include hp hl hon

theorem bar4Read_reads {len : Nat} (hjob : bar4Addr s off + len ≤ retainedBase)
    (h : ∀ i, i < len → readFaults s (bar4Addr s off + i) = false) : Answers (.bar4Read port off len) s fun t => t = { s with
      env := { s.env with bar4 := s.env.bar4 ++ [(port, readBytes s (bar4Addr s off) len, false)] },
      mem := { s.mem with moved := t.mem.moved } } := by
  refine ⟨_, exec_bar4Read hp hl off len, ?_⟩
  rw [bar4Read_of_sound hon hjob h, noteReads_onlyMoved h]

theorem bar4Write_writes {bs : List Byte} (hjob : bar4Addr s off + bs.length ≤ retainedBase) (hh : s.mem.heldWrites = [])
    (h : ∀ i, i < bs.length → readFaults s (bar4Addr s off + i) = false) : Answers (.bar4Write port off bs) s fun t =>
      t.mem.hostFault = s.mem.hostFault ∧
      (∀ i, i < bs.length → some (readByte t (bar4Addr s off + i)) = bs[i]?) ∧
      ∀ x, (x < bar4Addr s off ∨ bar4Addr s off + bs.length ≤ x) → readByte t x = readByte s x := by
  have hst := bar4Write_stores hjob hh h
  refine ⟨_, exec_bar4Write hp hl hon off bs, hst.counted, ?_, ?_⟩
  · intro i hi
    rw [hst.bytes, if_pos (by omega), Nat.add_sub_cancel_left]
    simp [hi]
  · intro x hx
    rw [hst.bytes, if_neg (by omega)]

end Bar4

/-- Settles O47: each clause is the equation of one path, of a register access or of BAR4. -/
theorem registerAndBar4Accesses : Obligations.RegisterAndBar4Accesses := by
  unfold Obligations.RegisterAndBar4Accesses
  intro s port off width len v tag m rest bs hp
  refine ⟨registerWrite_of_breaks v hp, registerWrite_of_clear v hp, registerWrite_sent v hp,
    fun hl => registerWrite_destSel v hp hl, ?_, regAccess_here v tag hp, ?_, ?_, mgmtRequest_read, ?_, ?_, ?_, ?_, ?_, ?_⟩
  · intro hl hs hw hoff
    exact ⟨registerWrite_of_unpowered v hp hl hs hw hoff, regAccess_unpowered v tag hp hl hs hw hoff⟩
  · intro hl hs hw hon hd hwait hfree
    exact regAccess_data v tag hp hl hs hd hwait hw hon hfree
  · intro hl hs hw hon hd hwait hout
    exact regAccess_management v tag hp hl hs hd hwait hw hon hout
  · intro d hi hk hm
    exact mgmtReply_passed hi hk hm
  · intro d n hu hm ha hl
    exact regReply_completes hp ha hl hu hm
  · intro n ha hl
    exact registerAccessTimeout_fails hp ha hl
  · intro hn
    rw [exec_registerAccessTimeout hp, failAccess_of_none hn]
  · rintro ⟨hjob, hsound, -, hl, hon⟩
    exact bar4Read_reads hp hl hon hjob hsound
  · rintro ⟨hjob, hsound, hh, hl, hon⟩
    exact bar4Write_writes hp hl hon hjob hh hsound

end Sys2Proof.Machine
end

section
/-!
PROOF. The interlock and telemetry queues: what posting, entering and taking leave of everything else, and how the row of an interlock
order runs (R24 to R26).
-/

namespace Sys2Proof.Machine

open Sys2Proof

/-! ### Operations on the interlock queue -/

/-- Nothing but the interlock queue, its waiting senders, its unacknowledged orders, the numbers of the queues and the trace
differs. -/
def OnlyInter (s t : State) : Prop := t = { s with
  ws := { s.ws with inter := t.ws.inter, waitInter := t.ws.waitInter, unacked := t.ws.unacked, seqs := t.ws.seqs }, db := t.db }

theorem OnlyInter.refl (s : State) : OnlyInter s s := rfl

theorem OnlyInter.trans {s t u : State} (h : OnlyInter s t) (g : OnlyInter t u) : OnlyInter s u := by
  unfold OnlyInter at *
  rw [g, h]

theorem enterInter_onlyInter (s : State) (k n : Nat) (p : Payload) : OnlyInter s (enterInter s k n p) := by
  unfold OnlyInter enterInter
  dsimp only
  split
  · rfl
  · rw [traceRec_onlyDb]
    rfl

theorem postOrder_onlyInter (s : State) (k : Nat) (p : Payload) : OnlyInter s (postOrder s k p) := by
  unfold postOrder
  split
  · exact enterInter_onlyInter ..
  · rfl

theorem popInter_onlyInter (s : State) : OnlyInter s (popInter s) := by
  unfold popInter
  dsimp only
  split
  · rfl
  · next k p r _ =>
    exact OnlyInter.trans
      (t := { s with ws := { s.ws with inter := s.ws.inter.drop 1, waitInter := r } }) rfl (enterInter_onlyInter ..)

theorem OnlyInter.sentTele {s t : State} (h : OnlyInter s t) : sentTele t = sentTele s := by
  rw [h]
  rfl

/-- A full queue keeps its sender waiting (R24). -/
theorem postOrder_waits {s : State} (h : 32 ≤ s.ws.inter.length) (k : Nat) (p : Payload) :
    postOrder s k p = { s with ws := { s.ws with waitInter := s.ws.waitInter ++ [(k, p)] } } := by
  unfold postOrder
  rw [if_neg (by simp; omega)]

/-! ### Operations on the telemetry queue -/

/-- Nothing but the telemetry queue, what waits for a place in it and the numbers of the queues differs. -/
def OnlyTele (s t : State) : Prop := t = { s with
  ws := { s.ws with tele := t.ws.tele, waitTele := t.ws.waitTele, held := t.ws.held, seqs := t.ws.seqs } }

theorem postTele_onlyTele (s : State) (k src : Nat) (p : Payload) : OnlyTele s (postTele s k src p) := by
  unfold OnlyTele postTele
  split <;> split <;> rfl

theorem popTele_onlyTele (s : State) : OnlyTele s (popTele s) := by
  unfold OnlyTele popTele refillTele
  split
  · rfl
  · dsimp only
    split <;> split <;> rfl

theorem OnlyTele.sentInter {s t : State} (h : OnlyTele s t) : sentInter t = sentInter s := by
  rw [h]
  rfl

/-- Where the head is of the reserved share, the longest-waiting message of that share takes its place (R25). -/
theorem sentTele_popTele {s : State} {m : Msg} {rest : List Msg} (h : s.ws.tele = m :: rest) (hm : coalesces m.kind = false) :
    sentTele (popTele s) = (sentTele s).drop 1 := by
  unfold popTele refillTele
  rw [h]
  dsimp only
  rw [hm, if_neg Bool.false_ne_true]
  split
  · next hw => simp [sentTele, h, hw]
  · next hw => simp [sentTele, enterTele, bumpSeq, mkMsg, h, hw]

/-! ### The row of an interlock order -/

theorem takeOrder_of_head {s : State} {m : Msg} {rest : List Msg} (h : s.ws.inter = m :: rest) :
    takeOrder s = postTele (orderNow m (popInter s)) 0x15 0x10 (.orderAck m.seq m.kind) := by
  unfold takeOrder
  rw [h]

section OrderRow

variable {s : State} {kind : Nat} {p : Payload} (hup : planeUp s = true)

include hup

/-- Behind another message the order is posted. -/
theorem orderRow_behind {x : Msg} {rest : List Msg} (h : s.ws.inter = x :: rest) (hx : (x.kind, x.payload) ≠ (kind, p)) :
    orderRow kind p s = postOrder s kind p := by
  have hne : (x.kind == kind && x.payload == p) = false := by simpa [Prod.ext_iff] using hx
  simp [orderRow, hup, h, hne]

/-- At the head of the queue it is taken. -/
theorem orderRow_at_head {x : Msg} {rest : List Msg} (h : s.ws.inter = x :: rest) (hk : x.kind = kind) (hp : x.payload = p) :
    orderRow kind p s = takeOrder s := by
  simp [orderRow, hup, h, hk, hp]

/-- On an empty queue it is posted and taken. -/
theorem orderRow_on_empty (h : s.ws.inter = []) : orderRow kind p s = takeOrder (postOrder s kind p) := by
  simp [orderRow, hup, h]

end OrderRow

/-! ### ORDER_ACK -/

/-- The running controller takes the message at the head of the telemetry queue. -/
theorem teleRow_of_head {s : State} {m : Msg} {rest : List Msg} (h : s.ws.tele = m :: rest) (hmc : mcRuns s = true) :
    teleRow m.kind s = takeTele m (popTele s) := by
  have hh : teleHead s m.kind = some m := by simp [teleHead, h]
  unfold teleRow
  rw [hh]
  dsimp only
  rw [if_pos hmc]

/-- An acknowledgement ends the wait for its order, and leaves the telemetry queue alone. -/
theorem takeTele_orderAck {m : Msg} {q k : Nat} (hm : m.payload = .orderAck q k) (s : State) :
    (takeTele m s).ws.unacked = s.ws.unacked.filter (fun e => e.1.seq != q) ∧ sentTele (takeTele m s) = sentTele s := by
  obtain ⟨kind, source, coalesced, seq, payload⟩ := m
  subst hm
  unfold takeTele
  dsimp only
  rw [traceRec_onlyDb]
  exact ⟨rfl, rfl⟩

end Sys2Proof.Machine
end

section
/-!
PROOF. What THROTTLE, HALT and HALT_RELEASE do where they arrive (R29 to R34, R507).
-/

namespace Sys2Proof.Machine

open Sys2Proof

/-! ### THROTTLE -/

/-- What a THROTTLE does to one die. -/
def throttleDie (mhz : Nat) (s : State) (d : Nat) : State :=
  let f := tget 0 s.pw.freq d
  let g := Nat.max 1200 (grid25 mhz)
  { s with pw := { s.pw with ordered := tput 0 s.pw.ordered d (if 2700 ≤ mhz then 0 else mhz),
                             orderedBy := tput 0 s.pw.orderedBy d (sourceOf s d mhz),
                             freq := if g < f then tput 0 s.pw.freq d g else s.pw.freq } }

theorem throttleNow_eq_foldl (dies mhz : Nat) (s : State) :
    throttleNow dies mhz s = ((List.range 8).filter fun d => dies.testBit d).foldl (throttleDie mhz) s := rfl

theorem foldl_throttleDie_onlyPw (mhz : Nat) (l : List Nat) (s : State) :
    l.foldl (throttleDie mhz) s = { s with pw := (l.foldl (throttleDie mhz) s).pw } := by
  induction l generalizing s with
  | nil => rfl
  | cons d r ih =>
    rw [List.foldl_cons, ih]
    rfl

theorem throttleDie_freq (mhz : Nat) (s : State) (a d : Nat) : tget 0 (throttleDie mhz s a).pw.freq d =
    if d = a then min (tget 0 s.pw.freq d) (Nat.max 1200 (grid25 mhz)) else tget 0 s.pw.freq d := by
  unfold throttleDie
  dsimp only
  by_cases hd : d = a
  · subst hd
    split
    · next h => simp [Nat.min_eq_right (Nat.le_of_lt h)]
    · next h => simp [Nat.min_eq_left (Nat.le_of_not_lt h)]
  · split <;> simp [hd]

theorem foldl_throttleDie_ordered (mhz : Nat) (l : List Nat) (s : State) (d : Nat) :
    tget 0 (l.foldl (throttleDie mhz) s).pw.ordered d =
      if d ∈ l then (if 2700 ≤ mhz then 0 else mhz) else tget 0 s.pw.ordered d := by
  induction l generalizing s with
  | nil => simp
  | cons a r ih =>
    rw [List.foldl_cons, ih]
    by_cases hr : d ∈ r <;> simp [throttleDie, hr]

theorem foldl_throttleDie_freq (mhz : Nat) (l : List Nat) (s : State) (d : Nat) :
    tget 0 (l.foldl (throttleDie mhz) s).pw.freq d =
      if d ∈ l then min (tget 0 s.pw.freq d) (Nat.max 1200 (grid25 mhz)) else tget 0 s.pw.freq d := by
  induction l generalizing s with
  | nil => simp
  | cons a r ih =>
    rw [List.foldl_cons, ih, throttleDie_freq]
    by_cases ha : d = a <;> by_cases hr : d ∈ r <;> simp [ha, hr]

/-- A die of the order takes its cap, and a faster clock comes down to the cap's step of the grid, at least 1,200 MHz (R34). -/
theorem throttleNow_die (dies mhz : Nat) (s : State) {d : Nat} (hd : d < 8) :
    tget 0 (throttleNow (dies % 256) mhz s).pw.ordered d =
        (if dies.testBit d then (if mhz < 2700 then mhz else 0) else tget 0 s.pw.ordered d) ∧
      tget 0 (throttleNow (dies % 256) mhz s).pw.freq d = (if dies.testBit d
        then Nat.min (tget 0 s.pw.freq d) (Nat.max 1200 (mhz / 25 * 25)) else tget 0 s.pw.freq d) := by
  have hbit : (dies % 256).testBit d = dies.testBit d := by
    simpa [hd] using Nat.testBit_mod_two_pow dies 8 d
  have hmem : d ∈ (List.range 8).filter (fun d => (dies % 256).testBit d) ↔ dies.testBit d = true := by
    simp [hd, hbit]
  have hcap : (if 2700 ≤ mhz then 0 else mhz) = if mhz < 2700 then mhz else 0 := by
    split <;> split <;> omega
  rw [throttleNow_eq_foldl, foldl_throttleDie_ordered, foldl_throttleDie_freq, hcap]
  exact ⟨if_congr hmem rfl rfl, if_congr hmem rfl rfl⟩

theorem throttleNow_onlyPw (dies mhz : Nat) (s : State) :
    throttleNow dies mhz s = { s with pw := (throttleNow dies mhz s).pw } := foldl_throttleDie_onlyPw ..

/-! ### HALT -/

theorem foldl_onlyMem {α : Type} {f : State → α → State} (hf : ∀ s a, OnlyMem s (f s a)) (l : List α) (s : State) :
    OnlyMem s (l.foldl f s) := by
  induction l generalizing s with
  | nil => rfl
  | cons a r ih => exact (hf s a).trans (ih _)

/-- A snapshot goes to memory alone. -/
theorem snapshotDie_onlyMem (base d : Nat) (s : State) : OnlyMem s (snapshotDie base d s) :=
  foldl_onlyMem (fun _ _ => writeMem_onlyMem ..) _ s

/-- The halt line's state after a HALT: the management copy rises, and the dies that a debug HALT stopped are remembered. -/
theorem haltNow_ws (dies : BitVec 8) (snap debug : Bool) (base : Nat) (s : State) :
    (haltNow dies snap debug base s).ws = { s.ws with
      haltMc := s.ws.haltMc ||| dies,
      haltDebug := if debug then s.ws.haltDebug ||| (dies &&& ~~~s.ws.haltMc) else s.ws.haltDebug &&& ~~~dies } := by
  unfold haltNow
  cases snap
  · rfl
  · have h : ∀ x : State, ((diesIn dies).foldl (fun st d => snapshotDie base d st) x).ws = x.ws := fun x => by
      rw [foldl_onlyMem (fun st d => snapshotDie_onlyMem base d st)]
    exact h _

theorem haltNow_mem_of_no_snapshot (dies : BitVec 8) (debug : Bool) (base : Nat) (s : State) :
    (haltNow dies false debug base s).mem = s.mem := rfl

/-! ### HALT_RELEASE -/

theorem noteRead_bytes (s : State) (a : Nat) : (noteRead s a).mem.bytes = s.mem.bytes := by
  have hc : (countLine s a).mem.bytes = s.mem.bytes := by
    unfold countLine
    split <;> rfl
  unfold noteRead
  dsimp only
  split
  · simp [hc]
  · split <;> simp [hc]

theorem noteReads_bytes (s : State) (a n : Nat) : (noteReads s a n).mem.bytes = s.mem.bytes := by
  unfold noteReads
  generalize sectorPieces a n n = l
  induction l generalizing s with
  | nil => rfl
  | cons p r ih => rw [List.foldl_cons, ih, noteRead_bytes]

/-- Cells and cores are reloaded and reads are accounted for; memory's bytes and all else stand. -/
def OnlyReloaded (s t : State) : Prop :=
  t = { s with cells := t.cells, cores := t.cores, mem := t.mem } ∧ t.mem.bytes = s.mem.bytes

theorem OnlyReloaded.refl (s : State) : OnlyReloaded s s := ⟨rfl, rfl⟩

theorem OnlyReloaded.trans {s t u : State} (h : OnlyReloaded s t) (g : OnlyReloaded t u) : OnlyReloaded s u := by
  obtain ⟨h, hb⟩ := h
  obtain ⟨g, gb⟩ := g
  exact ⟨by rw [g, h], gb.trans hb⟩

theorem foldl_onlyReloaded {α : Type} {f : State → α → State} (hf : ∀ s a, OnlyReloaded s (f s a)) (l : List α) (s : State) :
    OnlyReloaded s (l.foldl f s) := by
  induction l generalizing s with
  | nil => exact OnlyReloaded.refl s
  | cons a r ih => exact (hf s a).trans (ih _)

theorem noteReads_onlyReloaded (s : State) (a n : Nat) : OnlyReloaded s (noteReads s a n) :=
  ⟨by rw [noteReads_onlyMem s a n], noteReads_bytes s a n⟩

theorem modCell_onlyReloaded (s : State) (i : Nat) (f : Cell → Cell) : OnlyReloaded s (modCell s i f) := ⟨rfl, rfl⟩

theorem modCore_onlyReloaded (s : State) (i : Nat) (f : Core → Core) : OnlyReloaded s (modCore s i f) := ⟨rfl, rfl⟩

theorem restoreDie_onlyReloaded (base d : Nat) (s : State) : OnlyReloaded s (restoreDie base d s) := by
  unfold restoreDie
  refine foldl_onlyReloaded (fun st i => ?_) _ s
  dsimp only
  split
  · exact OnlyReloaded.refl st
  · exact ((noteReads_onlyReloaded ..).trans (foldl_onlyReloaded (fun _ _ => modCell_onlyReloaded ..) _ _)).trans
      (foldl_onlyReloaded (fun _ _ => modCore_onlyReloaded ..) _ _)

/-- The state whose part a HALT_RELEASE's dies have reloaded, where it asks for it. -/
def reloadedBy (m : BitVec 8) (restore : Bool) (base : Nat) (s : State) : State :=
  if restore then (diesIn m).foldl (fun st d => restoreDie base d st) s else s

theorem reloadedBy_onlyReloaded (m : BitVec 8) (restore : Bool) (base : Nat) (s : State) :
    OnlyReloaded s (reloadedBy m restore base s) := by
  unfold reloadedBy
  split
  · exact foldl_onlyReloaded (fun st d => restoreDie_onlyReloaded base d st) _ s
  · exact OnlyReloaded.refl s

/-- The dies that a HALT_RELEASE frees: a debug release only those that a debug HALT halted (R506). -/
def freedBy (dies : BitVec 8) (debug : Bool) (s : State) : BitVec 8 := if debug then dies &&& s.ws.haltDebug else dies &&& s.ws.haltMc

/-- A HALT_RELEASE clears the management copy of the line on the dies it frees, which reload before that. -/
theorem releaseNow_eq (dies : BitVec 8) (restore debug : Bool) (base : Nat) (s : State) :
    releaseNow dies restore debug base s =
      let m := freedBy dies debug s
      let s1 := reloadedBy m restore base s
      { s1 with ws := { s.ws with haltMc := s.ws.haltMc &&& ~~~m, haltDebug := s.ws.haltDebug &&& ~~~m },
                db := { s.db with halted := s.ws.haltDebug &&& ~~~m } } := by
  have h := (reloadedBy_onlyReloaded (freedBy dies debug s) restore base s).1
  have hws : (reloadedBy (freedBy dies debug s) restore base s).ws = s.ws := by rw [h]
  have hdb : (reloadedBy (freedBy dies debug s) restore base s).db = s.db := by rw [h]
  show _ = _
  dsimp only
  rw [← hws, ← hdb]
  rfl

end Sys2Proof.Machine
end

section
/-!
PROOF. What the lines of the optical ports do as they rise and clear: each acts on its own port, and shows in the port's state (R29, R35,
Table 10.3).
-/

namespace Sys2Proof.Machine

open Sys2Proof

/-! ### Acting on ports -/

/-- Of the waystations the ports' operations touch the command up queue alone, and the ports stay as many. -/
structure ActsOnPorts (s t : State) : Prop where
  count : t.lk.ports.length = s.lk.ports.length
  ws : t.ws = { s.ws with up := t.ws.up, waitUp := t.ws.waitUp, seqs := t.ws.seqs }

theorem ActsOnPorts.refl (s : State) : ActsOnPorts s s := ⟨rfl, rfl⟩

theorem ActsOnPorts.trans {s t u : State} (h : ActsOnPorts s t) (g : ActsOnPorts t u) : ActsOnPorts s u :=
  ⟨g.count.trans h.count, by rw [g.ws, h.ws]⟩

/-- Of the ports, moreover, only one has changed. -/
def ActsOnPort (p : Nat) (s t : State) : Prop := ActsOnPorts s t ∧ OnlyPort p s t

theorem ActsOnPort.refl (p : Nat) (s : State) : ActsOnPort p s s := ⟨ActsOnPorts.refl s, fun _ _ => rfl⟩

theorem ActsOnPort.trans {p : Nat} {s t u : State} (h : ActsOnPort p s t) (g : ActsOnPort p t u) : ActsOnPort p s u := by
  obtain ⟨ha, ho⟩ := h
  obtain ⟨ga, go⟩ := g
  exact ⟨ha.trans ga, fun q hq => (go q hq).trans (ho q hq)⟩

/-- An update of a port, whatever else but the waystations and the ports goes with it. -/
theorem actsOnPort_of_setPort {p : Nat} {s t : State} {v : Port} (hw : t.ws = s.ws) (hl : t.lk = (setPort s p v).lk) :
    ActsOnPort p s t := by
  refine ⟨⟨by rw [hl, setPort_length], by rw [hw]⟩, fun q hq => ?_⟩
  have e : getPort t q = getPort (setPort s p v) q := by rw [getPort, hl]; rfl
  rw [e]
  rcases Nat.lt_or_ge p s.lk.ports.length with h | h
  · rw [getPort_setPort s p q v h, if_neg hq]
  · rw [setPort_absent s p v h]

theorem actsOnPort_ite {p : Nat} {s t u : State} {c : Prop} [Decidable c] (ht : ActsOnPort p s t) (hu : ActsOnPort p s u) :
    ActsOnPort p s (if c then t else u) := by
  split
  · exact ht
  · exact hu

theorem modPort_actsOnPort (s : State) (p : Nat) (f : Port → Port) : ActsOnPort p s (modPort s p f) :=
  actsOnPort_of_setPort rfl rfl

theorem postCompletion_actsOnPort (p h st fl : Nat) (res : List W64) (s : State) :
    ActsOnPort p s (postCompletion h st fl res s) := by
  refine ⟨⟨rfl, ?_⟩, fun _ _ => rfl⟩
  unfold postCompletion postUp
  dsimp only
  split <;> rfl

theorem foldl_actsOnPort {α : Type} {p : Nat} {f : State → α → State} (hf : ∀ s a, ActsOnPort p s (f s a)) (l : List α)
    (s : State) : ActsOnPort p s (l.foldl f s) := by
  induction l generalizing s with
  | nil => exact ActsOnPort.refl p s
  | cons a r ih => exact (hf s a).trans (ih _)

/-- A lamp brought up to date is the only part of its port that is written. -/
theorem relamp_lk (p : Nat) (s : State) : ∃ a b n, (relamp p s).lk =
    (setPort s p { getPort s p with lamp := a, lampBefore := b, lampChanges := n }).lk := by
  unfold relamp
  dsimp only
  rw [apply_ite State.lk]
  exact ⟨_, _, _, ite_self _⟩

theorem relamp_ws (p : Nat) (s : State) : (relamp p s).ws = s.ws := by
  unfold relamp
  dsimp only
  rw [apply_ite State.ws]
  exact ite_self _

theorem relamp_actsOnPort (p : Nat) (s : State) : ActsOnPort p s (relamp p s) := by
  obtain ⟨_, _, _, h⟩ := relamp_lk p s
  exact actsOnPort_of_setPort (relamp_ws p s) h

theorem discardEgress_actsOnPort (p : Nat) (s : State) : ActsOnPort p s (discardEgress p s) := by
  unfold discardEgress countPort
  exact (modPort_actsOnPort s p _).trans (modPort_actsOnPort _ p _)

/-! ### Entering a state -/

theorem entering_state (v : Port) (new : PState) : (v.entering new).state = new := by
  cases new <;> rfl

theorem getPort_congr {s t : State} (h : t.lk = s.lk) (p : Nat) : getPort t p = getPort s p := by
  rw [getPort, h]
  rfl

theorem getPort_modPort_same {s : State} {p : Nat} (hp : p < s.lk.ports.length) (f : Port → Port) :
    getPort (modPort s p f) p = f (getPort s p) := by
  rw [modPort, getPort_setPort s p p _ hp, if_pos rfl]

theorem relamp_state {s : State} {p : Nat} (hp : p < s.lk.ports.length) :
    (getPort (relamp p s) p).state = (getPort s p).state := by
  obtain ⟨a, b, n, h⟩ := relamp_lk p s
  rw [getPort_congr h, getPort_setPort s p p _ hp, if_pos rfl]

theorem foldl_postCompletion_lk (st : Nat) (res : List W64) (l : List Nat) (s : State) :
    (l.foldl (fun x h => postCompletion h st 0 res x) s).lk = s.lk := by
  induction l generalizing s with
  | nil => rfl
  | cons h r ih => rw [List.foldl_cons, ih, postCompletion_lk]

/-- Acting on one port, an operation brings it to a state. -/
structure Enters (p : Nat) (new : PState) (s t : State) : Prop where
  acts : ActsOnPort p s t
  state : p < s.lk.ports.length → (getPort t p).state = new

theorem Enters.ite {p : Nat} {new : PState} {s t u : State} {c : Prop} [Decidable c] (ht : Enters p new s t)
    (hu : Enters p new s u) : Enters p new s (if c then t else u) := by
  split
  · exact ht
  · exact hu

/-- A further operation on the port that leaves its state keeps it there. -/
theorem Enters.trans {p : Nat} {new : PState} {s t u : State} (h : Enters p new s t) (g : ActsOnPort p t u)
    (hs : p < t.lk.ports.length → (getPort u p).state = (getPort t p).state) : Enters p new s u :=
  ⟨h.acts.trans g, fun hp => (hs (by rw [h.acts.1.count]; exact hp)).trans (h.state hp)⟩

/-- The fields on entry to a state, whatever has been done to the port before. -/
theorem enters_of_entering {p : Nat} {s s1 : State} (h : ActsOnPort p s s1) (new : PState) (sf : Sf) :
    Enters p new s (modPort { s1 with sf := sf } p fun v => v.entering new) := by
  refine ⟨h.trans (actsOnPort_of_setPort rfl rfl), fun hp => ?_⟩
  have hp1 : p < ({ s1 with sf := sf } : State).lk.ports.length := by
    show p < s1.lk.ports.length
    rw [h.1.count]
    exact hp
  rw [getPort_modPort_same hp1, entering_state]

/-- A port that enters a state is in it, and no other port has changed. -/
theorem enterPort_enters (p : Nat) (new : PState) (s : State) : Enters p new s (enterPort p new s) := by
  unfold enterPort
  dsimp only
  split
  · next h => exact ⟨ActsOnPort.refl p s, fun _ => h⟩
  · have hin := enters_of_entering (actsOnPort_ite (c := ((getPort s p).state == .active || (getPort s p).state == .drain) &&
      new != .drain) (discardEgress_actsOnPort p s) (ActsOnPort.refl p s)) new
    refine Enters.trans (Enters.ite ?_ (hin _)) (relamp_actsOnPort p _) relamp_state
    refine (hin _).trans ((modPort_actsOnPort _ p _).trans
      (foldl_actsOnPort (fun _ _ => postCompletion_actsOnPort ..) _ _)) fun hp => ?_
    rw [getPort_congr (foldl_postCompletion_lk ..), getPort_modPort_same hp]

theorem enterPort_actsOnPort (p : Nat) (new : PState) (s : State) : ActsOnPort p s (enterPort p new s) :=
  (enterPort_enters p new s).acts

theorem failPort_actsOnPort (p bit : Nat) (s : State) : ActsOnPort p s (failPort p bit s) :=
  (modPort_actsOnPort s p _).trans (enterPort_actsOnPort ..)

theorem settlePilot_actsOnPort (p : Nat) (s : State) : ActsOnPort p s (settlePilot p s) := by
  unfold settlePilot
  refine actsOnPort_ite (ActsOnPort.refl p s) ?_
  dsimp only
  generalize (if (getPort s p).dir = 0xF then directionFor s p (getPort s p).farRank (getPort s p).farDir
    else some (getPort s p).dir) = d
  cases d with
  | none => exact failPort_actsOnPort p 0 s
  | some d =>
    exact actsOnPort_ite (((modPort_actsOnPort s p _).trans (modPort_actsOnPort _ p _)).trans (enterPort_actsOnPort ..))
      (modPort_actsOnPort s p _)

theorem lineOn_actsOnPort (p : Nat) (s : State) : ActsOnPort p s (lineOn p s) := by
  unfold lineOn
  split
  · exact enterPort_actsOnPort ..
  · exact enterPort_actsOnPort ..
  · exact enterPort_actsOnPort ..
  · exact enterPort_actsOnPort ..
  · exact enterPort_actsOnPort ..
  · exact relamp_actsOnPort ..

theorem lineOff_actsOnPort (p : Nat) (s : State) : ActsOnPort p s (lineOff p s) := by
  unfold lineOff
  refine actsOnPort_ite (relamp_actsOnPort p s) ?_
  split
  · exact (modPort_actsOnPort s p _).trans (enterPort_actsOnPort ..)
  · exact (relamp_actsOnPort p s).trans (settlePilot_actsOnPort ..)

/-! ### The line's copies -/

/-- Where a copy of its line has been asserted, a port's data lasers are off (Table 10.3). -/
theorem lineOn_dark {s : State} {p : Nat} (hp : p < s.lk.ports.length) : (getPort (lineOn p s) p).state.lit = false := by
  have hin : ∀ new : PState, (getPort (enterPort p new s) p).state = new := fun new => (enterPort_enters p new s).state hp
  unfold lineOn
  cases h : (getPort s p).state with
  | ramp => exact congrArg PState.lit (hin .hold)
  | train => exact congrArg PState.lit (hin .hold)
  | ready => exact congrArg PState.lit (hin .hold)
  | active => exact congrArg PState.lit (hin .hold)
  | drain => exact congrArg PState.lit (hin .released)
  | _ => exact congrArg PState.lit ((relamp_state hp).trans h)

/-- A held port ramps when no copy of its line remains (Table 10.3, R301). -/
theorem lineOff_of_hold {s : State} {p : Nat} (hp : p < s.lk.ports.length) (hh : (getPort s p).state = .hold) :
    (getPort (lineOff p s) p).state = if lineHeld s p then .hold else .ramp := by
  unfold lineOff
  split
  · rw [relamp_state hp, hh]
  · rw [hh]
    refine (enterPort_enters p .ramp _).state ?_
    rw [(modPort_actsOnPort s p _).1.count]
    exact hp

/-! ### One port after another -/

section EachPort

variable {f : Nat → State → State} (hf : ∀ p s, ActsOnPort p s (f p s))

include hf

theorem foldl_ports_actsOnPorts (l : List Nat) (s : State) : ActsOnPorts s (l.foldl (fun st p => f p st) s) := by
  induction l generalizing s with
  | nil => exact ActsOnPorts.refl s
  | cons p r ih => exact (hf p s).1.trans (ih _)

theorem foldl_ports_other {q : Nat} (l : List Nat) (hq : q ∉ l) (s : State) :
    getPort (l.foldl (fun st p => f p st) s) q = getPort s q := by
  induction l generalizing s with
  | nil => rfl
  | cons p r ih =>
    obtain ⟨hqp, hqr⟩ := not_or.mp (List.mem_cons.not.mp hq)
    rw [List.foldl_cons, ih hqr, (hf p s).2 q hqp]

/-- Where each of a set of ports is acted on in turn, a port of the set ends as the action on it leaves it, from a state in which
that port stands as at first. -/
theorem foldl_ports_at {q : Nat} (l : List Nat) (hq : q ∈ l) (hl : l.Nodup) (s : State) : ∃ u, ActsOnPorts s u ∧
    getPort u q = getPort s q ∧ getPort (l.foldl (fun st p => f p st) s) q = getPort (f q u) q := by
  induction l generalizing s with
  | nil => simp at hq
  | cons p r ih =>
    obtain ⟨hpr, hr⟩ := List.nodup_cons.mp hl
    rw [List.foldl_cons]
    by_cases hqp : q = p
    · subst hqp
      exact ⟨s, ActsOnPorts.refl s, rfl, foldl_ports_other hf r hpr _⟩
    · obtain ⟨u, hu, hsame, hend⟩ := ih ((List.mem_cons.mp hq).resolve_left hqp) hr (f p s)
      exact ⟨u, (hf p s).1.trans hu, hsame.trans ((hf p s).2 q hqp), hend⟩

end EachPort

theorem portsIn_nodup (m : BitVec 10) : (portsIn m).Nodup := List.nodup_range.filter _

theorem mem_portsIn {m : BitVec 10} {p : Nat} (hp : p < 10) (h : m.getLsbD p = true) : p ∈ portsIn m := by
  simp [portsIn, hp, h]

/-! ### PORT_SHUTDOWN and PORT_RESTORE -/

theorem shutNow_actsOnPorts (m : BitVec 10) (s : State) :
    ActsOnPorts { s with ws := { s.ws with portMc := s.ws.portMc ||| m } } (shutNow m s) :=
  foldl_ports_actsOnPorts lineOn_actsOnPort _ _

theorem reopenNow_actsOnPorts (m : BitVec 10) (s : State) :
    ActsOnPorts { s with ws := { s.ws with portMc := s.ws.portMc &&& ~~~m } } (reopenNow m s) :=
  foldl_ports_actsOnPorts lineOff_actsOnPort _ _

theorem shutNow_dark {s : State} (hs : s.lk.ports.length = 10) {m : BitVec 10} {p : Nat} (hp : p < 10)
    (hm : m.getLsbD p = true) : (getPort (shutNow m s) p).state.lit = false := by
  obtain ⟨u, hu, -, hend⟩ := foldl_ports_at lineOn_actsOnPort _ (mem_portsIn hp hm) (portsIn_nodup m)
    { s with ws := { s.ws with portMc := s.ws.portMc ||| m } }
  unfold shutNow
  rw [hend]
  refine lineOn_dark ?_
  rw [hu.count]
  exact lt_of_lt_of_eq hp hs.symm

/-- A port that the order's line held ramps, unless the safety monitor or the touch latch holds it still (R35). -/
theorem reopenNow_of_hold {s : State} (hs : s.lk.ports.length = 10) {m : BitVec 10} {p : Nat} (hp : p < 10)
    (hm : m.getLsbD p = true) (hline : s.ws.portMc.getLsbD p = true) (hh : (getPort s p).state = .hold) :
    (getPort (reopenNow m s) p).state = if s.ws.portSm.getLsbD p || (getPort s p).touched then .hold else .ramp := by
  have hmem : p ∈ portsIn (m &&& s.ws.portMc) := mem_portsIn hp (by simp [hm, hline])
  obtain ⟨u, hu, hsame, hend⟩ := foldl_ports_at lineOff_actsOnPort _ hmem (portsIn_nodup _)
    { s with ws := { s.ws with portMc := s.ws.portMc &&& ~~~m } }
  have hup : getPort u p = getPort s p := hsame
  have hheld : lineHeld u p = (s.ws.portSm.getLsbD p || (getPort s p).touched) := by
    rw [lineHeld, hu.ws, hup]
    simp [hm]
  unfold reopenNow
  rw [hend, lineOff_of_hold (by rw [hu.count]; exact lt_of_lt_of_eq hp hs.symm) (hup ▸ hh), hheld]

end Sys2Proof.Machine
end

section
/-!
PROOF. Interlock orders are posted, act where they arrive and are acknowledged: the row that the five orders share, then what each of
them does.
-/

namespace Sys2Proof.Machine

open Sys2Proof

/-! ### The row that the orders share -/

/-- The order is posted behind those before it, or its sender waits, and nothing else has changed. -/
def Posted (s : State) (kind : Nat) (p : Payload) (t : State) : Prop :=
  sentInter t = sentInter s ++ [(kind, p)] ∧
  (s.ws.inter.length < 32 → s.ws.waitInter = [] → t.ws.inter = s.ws.inter ++
    [{ kind := kind, source := 0x40, coalesced := 0, seq := nextSeq s 3, payload := p }]) ∧
  (32 ≤ s.ws.inter.length → t.ws.inter = s.ws.inter ∧ t.ws.unacked = s.ws.unacked) ∧
  t.ws.haltMc = s.ws.haltMc ∧ t.ws.portMc = s.ws.portMc ∧ t.pw = s.pw ∧ t.lk = s.lk ∧ t.mem = s.mem

theorem postOrder_posted (s : State) (kind : Nat) (p : Payload) : Posted s kind p (postOrder s kind p) := by
  have hframe := postOrder_onlyInter s kind p
  refine ⟨sentInter_postOrder s kind p, ?_, ?_, ?_⟩
  · intro hl hw
    rw [postOrder_enters hl hw, enterInter_inter]
    rfl
  · intro hl
    rw [postOrder_waits hl]
    exact ⟨rfl, rfl⟩
  · rw [hframe]
    exact ⟨rfl, rfl, rfl, rfl, rfl⟩

/-- The interlock and telemetry queues stand as they were. -/
def KeepsQueues (s t : State) : Prop :=
  t.ws.inter = s.ws.inter ∧ t.ws.waitInter = s.ws.waitInter ∧ t.ws.tele = s.ws.tele ∧ t.ws.waitTele = s.ws.waitTele

theorem KeepsQueues.sent {s t : State} (h : KeepsQueues s t) : sentInter t = sentInter s ∧ sentTele t = sentTele s := by
  obtain ⟨hi, hwi, ht, hwt⟩ := h
  simp [sentInter, sentTele, hi, hwi, ht, hwt]

/-- Wherever an order of this kind and payload is taken, from a state that differs from `s` by the interlock queue alone, it leaves the
queues alone, and `does` holds once it is acknowledged. -/
def Effects (s : State) (kind : Nat) (p : Payload) (does : State → Prop) : Prop :=
  ∀ (m : Msg) (u : State), OnlyInter s u → m.kind = kind → m.payload = p →
    KeepsQueues u (orderNow m u) ∧ ∀ t, OnlyTele (orderNow m u) t → does t

/-- The hub takes the order at the head: it acts, leaves the queue, and its acknowledgement is posted. -/
theorem takeOrder_acts {s u : State} {kind : Nat} {p : Payload} {does : State → Prop} (hdoes : Effects s kind p does)
    (hu : OnlyInter s u) {m : Msg} {rest : List Msg} (h : u.ws.inter = m :: rest) (hk : m.kind = kind) (hp : m.payload = p) :
    does (takeOrder u) ∧ sentInter (takeOrder u) = (sentInter u).drop 1 ∧
      sentTele (takeOrder u) = sentTele s ++ [(0x15, .orderAck m.seq kind)] := by
  have hpop : OnlyInter s (popInter u) := hu.trans (popInter_onlyInter u)
  obtain ⟨hq, hd⟩ := hdoes m (popInter u) hpop hk hp
  obtain ⟨hinter, htele⟩ := hq.sent
  have htail := postTele_onlyTele (orderNow m (popInter u)) 0x15 0x10 (.orderAck m.seq m.kind)
  rw [takeOrder_of_head h]
  refine ⟨hd _ htail, ?_, ?_⟩
  · rw [htail.sentInter, hinter, sentInter_popInter h]
  · rw [sentTele_postTele rfl, htele, hpop.sentTele, hk]

/-- The row of an order: posted behind another message, it acts and is acknowledged where it arrives, on an empty queue at once. -/
theorem order_answers {i : Instr} {s : State} {kind : Nat} {p : Payload} {does : State → Prop}
    (hexec : exec i s = .next (orderRow kind p s)) (hup : planeUp s = true) (hdoes : Effects s kind p does) :
    (∀ x rest, s.ws.inter = x :: rest → (x.kind, x.payload) ≠ (kind, p) → Answers i s (Posted s kind p)) ∧
    (s.ws.inter = [] → s.ws.waitInter = [] → Answers i s fun t => does t ∧ sentInter t = [] ∧
      sentTele t = sentTele s ++ [(0x15, .orderAck (nextSeq s 3) kind)]) ∧
    (∀ x rest, s.ws.inter = x :: rest → x.kind = kind → x.payload = p → Answers i s fun t => does t ∧
      sentInter t = (sentInter s).drop 1 ∧ sentTele t = sentTele s ++ [(0x15, .orderAck x.seq kind)]) := by
  refine ⟨?_, ?_, ?_⟩
  · intro x rest h hx
    exact ⟨_, hexec, by rw [orderRow_behind hup h hx]; exact postOrder_posted s kind p⟩
  · intro h hw
    have hin : (postOrder s kind p).ws.inter = [mkMsg s 3 kind 0x40 p] := by
      rw [postOrder_enters (by simp [h]) hw, enterInter_inter, h]
      rfl
    obtain ⟨hd, hi, ht⟩ := takeOrder_acts hdoes (postOrder_onlyInter s kind p) hin rfl rfl
    refine ⟨_, hexec, ?_⟩
    rw [orderRow_on_empty hup h]
    refine ⟨hd, ?_, ht⟩
    rw [hi, sentInter_postOrder]
    simp [sentInter, h, hw]
  · intro x rest h hk hp
    exact ⟨_, hexec, by rw [orderRow_at_head hup h hk hp]; exact takeOrder_acts hdoes (OnlyInter.refl s) h hk hp⟩

/-! ### What each order does -/

theorem orderNow_throttle {m : Msg} {dies mhz : Nat} (hp : m.payload = .throttle dies mhz) (s : State) :
    orderNow m s = throttleNow dies mhz s := by
  unfold orderNow
  rw [hp]

theorem orderNow_halt {m : Msg} {dies : BitVec 8} {f dbg : Bool} {base : Nat} (hk : m.kind = 0x22)
    (hp : m.payload = .halt dies f dbg base) (s : State) : orderNow m s = haltNow dies f dbg base s := by
  unfold orderNow
  rw [hp]
  exact if_pos hk

theorem orderNow_haltRelease {m : Msg} {dies : BitVec 8} {f dbg : Bool} {base : Nat} (hk : m.kind = 0x23)
    (hp : m.payload = .halt dies f dbg base) (s : State) : orderNow m s = releaseNow dies f dbg base s := by
  unfold orderNow
  rw [hp]
  exact if_neg (by rw [hk]; decide)

theorem orderNow_portShutdown {m : Msg} {ports : BitVec 10} (hk : m.kind = 0x24) (hp : m.payload = .ports ports) (s : State) :
    orderNow m s = shutNow ports s := by
  unfold orderNow
  rw [hp]
  exact if_pos hk

theorem orderNow_portRestore {m : Msg} {ports : BitVec 10} (hk : m.kind = 0x25) (hp : m.payload = .ports ports) (s : State) :
    orderNow m s = reopenNow ports s := by
  unfold orderNow
  rw [hp]
  exact if_neg (by rw [hk]; decide)

theorem throttle_effects (s : State) (dies mhz : Nat) : Effects s 0x21 (.throttle (dies % 256) mhz) fun t => ∀ d, d < 8 →
    tget 0 t.pw.ordered d = (if dies.testBit d then (if mhz < 2700 then mhz else 0) else tget 0 s.pw.ordered d) ∧
    tget 0 t.pw.freq d = (if dies.testBit d then Nat.min (tget 0 s.pw.freq d) (Nat.max 1200 (mhz / 25 * 25))
      else tget 0 s.pw.freq d) := by
  intro m u hu _ hp
  rw [orderNow_throttle hp]
  refine ⟨?_, ?_⟩
  · rw [throttleNow_onlyPw]
    exact ⟨rfl, rfl, rfl, rfl⟩
  · intro t ht d hd
    have hpw : t.pw = (throttleNow (dies % 256) mhz u).pw := by rw [ht]
    have hsu : u.pw = s.pw := by rw [hu]
    rw [hpw, ← hsu]
    exact throttleNow_die dies mhz u hd

theorem halt_effects (s : State) (dies : BitVec 8) (f dbg : Bool) (base : Nat) : Effects s 0x22 (.halt dies f dbg base) fun t =>
    t.ws.haltMc = s.ws.haltMc ||| dies ∧ t.ws.haltSm = s.ws.haltSm ∧ (f = false → t.mem = s.mem) ∧
    t.ws.haltDebug = (if dbg then s.ws.haltDebug ||| (dies &&& ~~~s.ws.haltMc) else s.ws.haltDebug &&& ~~~dies) := by
  intro m u hu hk hp
  rw [orderNow_halt hk hp]
  have hws := haltNow_ws dies f dbg base u
  refine ⟨?_, ?_⟩
  · rw [KeepsQueues, hws]
    exact ⟨rfl, rfl, rfl, rfl⟩
  · intro t ht
    rw [ht, hws]
    refine ⟨by rw [hu], by rw [hu], ?_, by rw [hu]⟩
    rintro rfl
    rw [haltNow_mem_of_no_snapshot, hu]

theorem haltRelease_effects (s : State) (dies : BitVec 8) (f dbg : Bool) (base : Nat) :
    Effects s 0x23 (.halt dies f dbg base) fun t => t.mem.bytes = s.mem.bytes ∧
      t.ws.haltMc = (if dbg then s.ws.haltMc &&& ~~~(dies &&& s.ws.haltDebug) else s.ws.haltMc &&& ~~~(dies &&& s.ws.haltMc)) ∧
      (f = false → t.cells = s.cells ∧ t.cores = s.cores ∧ t.mem = s.mem) := by
  intro m u hu hk hp
  rw [orderNow_haltRelease hk hp, releaseNow_eq]
  dsimp only
  refine ⟨⟨rfl, rfl, rfl, rfl⟩, ?_⟩
  intro t ht
  have hbytes := (reloadedBy_onlyReloaded (freedBy dies dbg u) f base u).2
  rw [ht]
  refine ⟨?_, ?_, ?_⟩
  · show (reloadedBy (freedBy dies dbg u) f base u).mem.bytes = _
    rw [hbytes, hu]
  · show u.ws.haltMc &&& ~~~freedBy dies dbg u = _
    rw [hu]
    cases dbg <;> rfl
  · rintro rfl
    rw [hu]
    exact ⟨rfl, rfl, rfl⟩

theorem portShutdown_effects {s : State} (hs : s.lk.ports.length = 10) (ports : BitVec 10) :
    Effects s 0x24 (.ports ports) fun t => t.ws.portMc = s.ws.portMc ||| ports ∧ t.ws.portSm = s.ws.portSm ∧
      ∀ p, p < 10 → ports.getLsbD p = true → (getPort t p).state.lit = false := by
  intro m u hu hk hp
  rw [orderNow_portShutdown hk hp]
  have hws := (shutNow_actsOnPorts ports u).ws
  refine ⟨?_, ?_⟩
  · rw [KeepsQueues, hws]
    exact ⟨rfl, rfl, rfl, rfl⟩
  · intro t ht
    have hlen : u.lk.ports.length = 10 := by rw [hu]; exact hs
    refine ⟨by rw [ht, hws, hu], by rw [ht, hws, hu], ?_⟩
    intro p hp10 hbit
    rw [getPort_congr (s := shutNow ports u) (by rw [ht])]
    exact shutNow_dark hlen hp10 hbit

theorem portRestore_effects {s : State} (hs : s.lk.ports.length = 10) (ports : BitVec 10) :
    Effects s 0x25 (.ports ports) fun t => t.ws.portMc = s.ws.portMc &&& ~~~ports ∧ t.ws.portSm = s.ws.portSm ∧
      ∀ p, p < 10 → ports.getLsbD p = true → s.ws.portMc.getLsbD p = true → (getPort s p).state = .hold →
        (getPort t p).state = (if s.ws.portSm.getLsbD p || (getPort s p).touched then .hold else .ramp) := by
  intro m u hu hk hp
  rw [orderNow_portRestore hk hp]
  have hws := (reopenNow_actsOnPorts ports u).ws
  refine ⟨?_, ?_⟩
  · rw [KeepsQueues, hws]
    exact ⟨rfl, rfl, rfl, rfl⟩
  · intro t ht
    have hlen : u.lk.ports.length = 10 := by rw [hu]; exact hs
    refine ⟨by rw [ht, hws, hu], by rw [ht, hws, hu], ?_⟩
    intro p hp10 hbit hline hhold
    have hport : getPort u p = getPort s p := getPort_congr (by rw [hu]) p
    have hmc : u.ws.portMc = s.ws.portMc := by rw [hu]
    have hsm : u.ws.portSm = s.ws.portSm := by rw [hu]
    rw [getPort_congr (s := reopenNow ports u) (by rw [ht]),
      reopenNow_of_hold hlen hp10 hbit (hmc ▸ hline) (hport ▸ hhold), hport, hsm]

/-! ### The acknowledgement -/

theorem orderAck_taken {s : State} {x : Msg} {rest : List Msg} {q k : Nat} (h : s.ws.tele = x :: rest) (hk : x.kind = 0x15)
    (hp : x.payload = .orderAck q k) (hmc : mcRuns s = true) : Answers .orderAck s fun t =>
      sentTele t = (sentTele s).drop 1 ∧ t.ws.unacked = s.ws.unacked.filter (fun e => e.1.seq != q) := by
  have hrow : teleRow 0x15 s = takeTele x (popTele s) := hk ▸ teleRow_of_head h hmc
  obtain ⟨hun, hsent⟩ := takeTele_orderAck hp (popTele s)
  have hpop : (popTele s).ws.unacked = s.ws.unacked := by rw [popTele_onlyTele s]
  refine ⟨teleRow 0x15 s, rfl, ?_⟩
  rw [hrow]
  dsimp only
  rw [hun, hsent, hpop]
  exact ⟨sentTele_popTele h (by rw [hk]; rfl), rfl⟩

/-- Settles O45: the five orders share one row, and each clause of it needs what its order does and that the order leaves the queues
alone. -/
theorem interlockOrdersActAndAreAcknowledged : Obligations.InterlockOrdersActAndAreAcknowledged := by
  unfold Obligations.InterlockOrdersActAndAreAcknowledged
  intro s dies mhz base m f dbg ports hten hup
  obtain ⟨hports, -⟩ := hten
  exact ⟨order_answers rfl hup (throttle_effects s dies mhz),
    order_answers rfl hup (halt_effects s m f dbg base),
    order_answers rfl hup (haltRelease_effects s m f dbg base),
    order_answers rfl hup (portShutdown_effects hports ports),
    order_answers rfl hup (portRestore_effects hports ports),
    fun _ _ _ _ h hk hp hmc => orderAck_taken h hk hp hmc⟩

end Sys2Proof.Machine
end

section
/-!
PROOF. The command waystation's statement fails at one clause: what a die's row leaves in the down queue goes by the payload of the
message (R236), and the clause goes by its kind alone.
-/

namespace Sys2Proof.Machine

open Sys2Proof

/-- Region 3: cluster 0, which lies on die 0 alone, with a program. -/
def soloRegion : Region :=
  { ctxMask := 1, program := true, first := 0, count := 1, entry := 0, phases := [], windows := [], signed := false, digest := [] }

/-- A message with the kind of PHASE_START and the payload of CTX_SWITCH. No command sends one, but the statement's hypotheses
allow it. -/
def misnamedSwitch : Msg := { kind := 0x01, source := 0x22, coalesced := 0, seq := 0, payload := .ctxSwitch 3 0 4 }

/-- That message heads the down queue, and a RUN_PROGRAM waits for its region. -/
def misnamedAtHead : State :=
  { State.reset with
    fb := { State.reset.fb with
      regions := [(3, soloRegion)],
      waits := [(3, 5, .runProgram { port := 0, fence := false, noIrq := false, vec := 0, tag := 0, step := 0 } 3)] },
    ws := { State.reset.ws with down := [misnamedSwitch], haltMc := 0, haltSm := false, startHeld := false } }

/-- Its only die takes the switch, which starts the waiting program: a PHASE_START is sent on the queue just emptied (R419). -/
theorem sentDown_dieRow_misnamedAtHead :
    sentDown (dieRow 0 0x01 misnamedAtHead) = [.phaseStart 3 0 0 5 0 true] := by decide +kernel

/-- Refutes O46: for the kinds 0x01 and 0x02 the row is said to leave the rest of the down queue whatever waits on the region, but the
statement does not tie the payload to the kind. The payload CTX_SWITCH under kind 0x01 completes its switch at its last die, and the
program that waited there is then sent. -/
theorem not_waystationMessagesArriveInOrder : ¬ Obligations.WaystationMessagesArriveInOrder := by
  unfold Obligations.WaystationMessagesArriveInOrder
  intro h
  obtain ⟨hstart, -⟩ := h misnamedAtHead 0 0 0 0 misnamedSwitch [] (.ctxSwitch 3 0 4)
  obtain ⟨-, hruns⟩ := hstart (by decide) ⟨rfl, rfl, rfl⟩ rfl (by decide)
  obtain ⟨t, ht, -, hsent⟩ := hruns (by decide)
  obtain rfl : dieRow 0 0x01 misnamedAtHead = t := Host.Outcome.next.inj ht
  have hrest := hsent (.inl (by decide))
  rw [sentDown_dieRow_misnamedAtHead] at hrest
  exact absurd hrest (by decide)

end Sys2Proof.Machine
end

section
/-!
PROOF. The scalar FP64 rows: each writes one register (R184, R186, R187); what FNEG and FABS do to the bits of a value.
-/

namespace Sys2Proof.Machine

open Sys2Proof

/-! ### The sign bit -/

/-- Where a bit is clear, setting it adds its weight. -/
theorem or_twoPow_of_clear {w : Nat} {x : BitVec w} {i : Nat} (h : x.getLsbD i = false) :
    x ||| BitVec.twoPow w i = x + BitVec.twoPow w i :=
  (BitVec.add_eq_or_of_and_eq_zero x _ (by rw [BitVec.and_twoPow, h]; rfl)).symm

/-- Flipping the sign bit adds its weight, modulo 2^64. -/
theorem xor_signBit (x : W64) : x ^^^ BitVec.twoPow 64 63 = x + BitVec.twoPow 64 63 := by
  cases h : x.getLsbD 63 with
  | false =>
    have hor : x ^^^ BitVec.twoPow 64 63 = x ||| BitVec.twoPow 64 63 := by
      ext i hi
      by_cases h63 : i = 63
      · subst h63
        simpa using h
      · simp [h63]
    rw [hor, or_twoPow_of_clear h]
  | true =>
    have hclear : (x ^^^ BitVec.twoPow 64 63).getLsbD 63 = false := by simp [h]
    have hback : (x ^^^ BitVec.twoPow 64 63) ||| BitVec.twoPow 64 63 = x := by
      ext i hi
      by_cases h63 : i = 63
      · subst h63
        simpa using h.symm
      · simp [h63]
    rw [or_twoPow_of_clear hclear] at hback
    have hweight : BitVec.twoPow 64 63 + BitVec.twoPow 64 63 = 0#64 := by decide
    calc x ^^^ BitVec.twoPow 64 63
        = (x ^^^ BitVec.twoPow 64 63) + BitVec.twoPow 64 63 + BitVec.twoPow 64 63 := by
          rw [BitVec.add_assoc, hweight, BitVec.add_zero]
      _ = x + BitVec.twoPow 64 63 := by rw [hback]

/-- FNEG's bits: the sign's weight is added, or taken away where it stands. -/
theorem negBits (x : W64) :
    x ^^^ BitVec.twoPow 64 63 = BitVec.ofNat 64 (if x.toNat < 2 ^ 63 then x.toNat + 2 ^ 63 else x.toNat - 2 ^ 63) := by
  have hx := x.isLt
  apply BitVec.eq_of_toNat_eq
  rw [xor_signBit, BitVec.toNat_add, BitVec.toNat_twoPow_of_lt (by decide),
    BitVec.toNat_ofNat]
  split <;> omega

/-- FABS's bits: what stands below the sign. -/
theorem absBits (x : W64) : x &&& ~~~((1 : W64) <<< 63) = BitVec.ofNat 64 (x.toNat % 2 ^ 63) := by
  apply BitVec.eq_of_toNat_eq
  have hmask : (~~~((1 : W64) <<< 63)).toNat = 2 ^ 63 - 1 := by decide
  rw [BitVec.toNat_and, hmask, Nat.and_two_pow_sub_one_eq_mod, BitVec.toNat_ofNat]
  omega

/-! ### Rows that write one register -/

section OneRegister

variable {s : State} {core : Nat} {w : W32} {i : Instr} {d : RField} {v : PV} {f : Core → SeqRes}

/-- A row whose effect on its core is one write to Fd. -/
theorem givesF_of_onCore (hi : exec i s = seqStep core w (onCore f) s)
    (hf : f (getCore s core) = .next (writeF (getCore s core) d.toNat v)) : GivesF i w core d v s :=
  fun hrun => hi.trans (seqStep_next hrun hf)

/-- A row whose effect on its core is one write to Gd. -/
theorem givesG_of_onCore (hi : exec i s = seqStep core w (onCore f) s)
    (hf : f (getCore s core) = .next (writeG (getCore s core) d v)) : GivesG i w core d v s :=
  fun hrun => hi.trans (seqStep_next hrun hf)

end OneRegister

/-- FSEL's choice, by a selector that is not poison. -/
theorem fsel_of_sound {s : State} {core : Nat} {d a b c : RField} (hc : (readG (getCore s core) c).2 = false) :
    GivesF (.fsel core d a b c) (encQ 0x29 d a b c 3) core d
      (if (readG (getCore s core) c).1 = 0 then readF (getCore s core) b.toNat else readF (getCore s core) a.toNat) s :=
  givesF_of_onCore rfl (by simp [hc])

theorem fsel_of_poisoned {s : State} {core : Nat} {d a b c : RField} (hc : (readG (getCore s core) c).2 = true) :
    GivesF (.fsel core d a b c) (encQ 0x29 d a b c 3) core d (BitVec.ofNat 64 fp64.poisonBits, true) s :=
  givesF_of_onCore rfl (by simp [hc])

/-- Settles O5: each row's effect on its core is one write of a register, and FNEG and FABS touch the sign bit alone. -/
theorem floatInstructionsWriteTheirRegister : Obligations.FloatInstructionsWriteTheirRegister := by
  unfold Obligations.FloatInstructionsWriteTheirRegister
  intro s core d a b c
  dsimp only
  refine ⟨givesF_of_onCore rfl rfl, givesF_of_onCore rfl rfl, givesF_of_onCore rfl rfl, givesF_of_onCore rfl rfl,
    givesF_of_onCore rfl rfl, ?fneg, ?fabs, givesG_of_onCore rfl rfl, givesG_of_onCore rfl rfl, givesG_of_onCore rfl rfl,
    givesG_of_onCore rfl rfl, givesG_of_onCore rfl rfl, givesG_of_onCore rfl rfl, givesG_of_onCore rfl rfl,
    givesF_of_onCore rfl rfl, givesG_of_onCore rfl rfl, givesF_of_onCore rfl rfl, givesF_of_onCore rfl rfl,
    givesF_of_onCore rfl rfl, fsel_of_sound, fsel_of_poisoned⟩
  case fneg =>
    rw [← negBits]
    exact givesF_of_onCore rfl rfl
  case fabs =>
    rw [← absBits]
    exact givesF_of_onCore rfl rfl

end Sys2Proof.Machine
end

section
/-!
PROOF. FP64 sums and products: numbers round once, and a NaN that is no poison passes with its quiet bit set (R59, R186).
-/

namespace Sys2Proof.Machine

open Sys2Proof

/-! ### Operations over numbers -/

theorem Val.isFin_iff {v : Val} : v.isFin = true ↔ ∃ n m e, v = .fin n m e := by
  cases v <;> simp [Val.isFin]

theorem opnd_poisoned (f : FpFmt) (x : W64) : (opndOf (x, false)).poisoned f = (f.decode x.toNat == .poison) := by
  simp [Opnd.poisoned, opndOf, FpFmt.isPoison]

/-- FP64 rounds each element operation by IEEE 754. -/
theorem roundElem_fp64 (md : RMode) (v : Val) : fp64.roundElem md v = fp64.roundIeee md v := by
  unfold FpFmt.roundElem
  rw [if_neg (by decide)]

theorem opResult_of_sound {f : FpFmt} {xs : List Opnd} (h : ∀ x ∈ xs, x.poisoned f = false) (v : Val) (rnd : Val → Nat) :
    opResult f xs v rnd = ⟨rnd v, false⟩ := by
  unfold opResult
  rw [if_neg]
  simpa using h

theorem poisoned_of_ne {x : W64} (h : fp64.decode x.toNat ≠ .poison) : (opndOf (x, false)).poisoned fp64 = false := by
  rw [opnd_poisoned]
  exact beq_eq_false_iff_ne.mpr h

/-- An FP64 operation with no poisoned operand rounds its exact value once. -/
theorem pvOf_opResult_of_sound {xs : List Opnd} (h : ∀ x ∈ xs, x.poisoned fp64 = false) (v : Val) :
    pvOf (opResult fp64 xs v (fp64.roundElem .rne)) = (BitVec.ofNat 64 (fp64.roundIeee .rne v), false) := by
  rw [opResult_of_sound h, roundElem_fp64]
  rfl

section Sound

variable {x y z : W64} (hx : fp64.decode x.toNat ≠ .poison) (hy : fp64.decode y.toNat ≠ .poison)

include hx hy

theorem fAdd_of_sound : fAdd (x, false) (y, false) =
    (BitVec.ofNat 64 (fp64.roundIeee .rne (addV (fp64.decode x.toNat) (fp64.decode y.toNat))), false) :=
  pvOf_opResult_of_sound (by simp [poisoned_of_ne hx, poisoned_of_ne hy]) _

theorem fMul_of_sound : fMul (x, false) (y, false) =
    (BitVec.ofNat 64 (fp64.roundIeee .rne (mulV (fp64.decode x.toNat) (fp64.decode y.toNat))), false) :=
  pvOf_opResult_of_sound (by simp [poisoned_of_ne hx, poisoned_of_ne hy]) _

theorem fFma_of_sound (hz : fp64.decode z.toNat ≠ .poison) : fFma (x, false) (y, false) (z, false) =
    (BitVec.ofNat 64 (fp64.roundIeee .rne
      (fmaV (fp64.decode x.toNat) (fp64.decode y.toNat) (fp64.decode z.toNat))), false) :=
  pvOf_opResult_of_sound (by simp [poisoned_of_ne hx, poisoned_of_ne hy, poisoned_of_ne hz]) _

end Sound

theorem Val.ne_poison_of_isFin {v : Val} (h : v.isFin = true) : v ≠ .poison := by
  rintro rfl
  exact absurd h (by decide)

theorem addV_of_isFin {a b : Val} (ha : a.isFin = true) (hb : b.isFin = true) : addV a b = addNum a b := by
  obtain ⟨na, ma, ea, rfl⟩ := Val.isFin_iff.mp ha
  obtain ⟨nb, mb, eb, rfl⟩ := Val.isFin_iff.mp hb
  simp [addV, nanOf]

theorem mulV_of_isFin {a b : Val} (ha : a.isFin = true) (hb : b.isFin = true) : mulV a b = mulNum a b := by
  obtain ⟨na, ma, ea, rfl⟩ := Val.isFin_iff.mp ha
  obtain ⟨nb, mb, eb, rfl⟩ := Val.isFin_iff.mp hb
  simp [mulV, nanOf]

/-- The exact product of numbers is a number, so the fused sum rounds it only with the addend. -/
theorem fmaV_of_isFin {a b c : Val} (ha : a.isFin = true) (hb : b.isFin = true) (hc : c.isFin = true) :
    fmaV a b c = addNum (mulNum a b) c := by
  have hprod : (mulNum a b).isFin = true := by
    obtain ⟨na, ma, ea, rfl⟩ := Val.isFin_iff.mp ha
    obtain ⟨nb, mb, eb, rfl⟩ := Val.isFin_iff.mp hb
    rfl
  have hnone : nanOf [a, b, c] = none := by
    obtain ⟨na, ma, ea, rfl⟩ := Val.isFin_iff.mp ha
    obtain ⟨nb, mb, eb, rfl⟩ := Val.isFin_iff.mp hb
    obtain ⟨nc, mc, ec, rfl⟩ := Val.isFin_iff.mp hc
    simp [nanOf]
  rw [fmaV, hnone, Option.getD_none, addV_of_isFin hprod hc]

/-! ### A NaN passes quieted -/

/-- FP64's encodings, field by field (R93, R94). -/
theorem decode_fp64 (n : Nat) : fp64.decode n =
    if n / 2 ^ 52 % 2 ^ 11 = 2047 then
      if n % 2 ^ 52 = 0 then .inf (n.testBit 63)
      else if n % 2 ^ 52 % 2 ^ 51 = fp64.poisonLow then .poison
      else .nan (n.testBit 63) (n % 2 ^ 52)
    else if n / 2 ^ 52 % 2 ^ 11 = 0 then .fin (n.testBit 63) (n % 2 ^ 52) (fp64.emin - 52)
    else .fin (n.testBit 63) (2 ^ 52 + n % 2 ^ 52) (((n / 2 ^ 52 % 2 ^ 11 : Nat) : Int) - 1023 - 52) := by
  unfold FpFmt.decode
  simp [fp64]
  rfl

/-- What FP64 decodes to a NaN: the exponent field all ones, a fraction that is not poison's, and the fraction as payload. -/
theorem decode_nan {n : Nat} {neg : Bool} {pay : Nat} (h : fp64.decode n = .nan neg pay) :
    neg = n.testBit 63 ∧ pay = n % 2 ^ 52 ∧ n / 2 ^ 52 % 2 ^ 11 = 2047 ∧ n % 2 ^ 52 % 2 ^ 51 ≠ fp64.poisonLow := by
  rw [decode_fp64] at h
  by_cases hex : n / 2 ^ 52 % 2 ^ 11 = 2047
  · rw [if_pos hex] at h
    by_cases hfr : n % 2 ^ 52 = 0
    · rw [if_pos hfr] at h; cases h
    · rw [if_neg hfr] at h
      by_cases hlow : n % 2 ^ 52 % 2 ^ 51 = fp64.poisonLow
      · rw [if_pos hlow] at h; cases h
      · rw [if_neg hlow] at h
        cases h
        exact ⟨rfl, rfl, hex, hlow⟩
  · rw [if_neg hex] at h
    split at h <;> cases h

/-- A bit string below 2^64 with its exponent field all ones, by its sign and fraction. -/
theorem eq_of_expOnes {n : Nat} (hn : n < 2 ^ 64) (he : n / 2 ^ 52 % 2 ^ 11 = 2047) :
    n = (if n.testBit 63 then 2 ^ 63 else 0) + fp64.expOnes + n % 2 ^ 52 := by
  have hones : fp64.expOnes = 2047 * 2 ^ 52 := by decide
  have hbit : n.testBit 63 = decide (n / 2 ^ 63 % 2 = 1) := Nat.testBit_eq_decide_div_mod_eq
  rw [hbit, hones]
  by_cases h : n / 2 ^ 63 % 2 = 1
  · rw [if_pos (by simpa using h)]; omega
  · rw [if_neg (by simpa using h)]; omega

/-- The quiet bit of a NaN, as a bit of its fraction. -/
theorem or_quietBit {x : W64} :
    (x ||| BitVec.twoPow 64 51).toNat = if (x.toNat % 2 ^ 52).testBit 51 then x.toNat else x.toNat + 2 ^ 51 := by
  have hx := x.isLt
  have hbit : (x.toNat % 2 ^ 52).testBit 51 = x.getLsbD 51 := by
    rw [Nat.testBit_mod_two_pow]; simp [BitVec.getLsbD]
  rw [hbit]
  cases h : x.getLsbD 51 with
  | true =>
    have hor : x ||| BitVec.twoPow 64 51 = x := by
      ext i hi
      by_cases h51 : i = 51
      · subst h51
        simpa using h
      · simp [h51]
    simp [hor]
  | false =>
    rw [or_twoPow_of_clear h, BitVec.toNat_add, BitVec.toNat_twoPow_of_lt (by decide)]
    have hclear : x.toNat / 2 ^ 51 % 2 = 0 := by
      have := h
      simp only [BitVec.getLsbD, Nat.testBit_eq_decide_div_mod_eq, decide_eq_false_iff_not] at this
      omega
    exact Nat.mod_eq_of_lt (by omega)

/-- FP64's encoding of a NaN: its sign, its fraction with the quiet bit set, and all ones between them (R59, R101). -/
theorem encodeNaN_fp64 (neg : Bool) {fr : Nat} (hfr : fr < 2 ^ 52) (hlow : fr % 2 ^ 51 ≠ fp64.poisonLow) :
    fp64.encodeNaN neg fr =
      (if neg then 2 ^ 63 else 0) + fp64.expOnes + if fr.testBit 51 then fr else fr + 2 ^ 51 := by
  have hcut : fr / 2 ^ (52 - fp64.fb) % 2 ^ fp64.fb = fr := by
    rw [show fp64.fb = 52 from rfl, Nat.sub_self, Nat.pow_zero, Nat.div_one, Nat.mod_eq_of_lt hfr]
  have hkeep : (if fr.testBit 51 then fr else fr + 2 ^ 51) % 2 ^ 51 = fr % 2 ^ 51 := by
    split
    · rfl
    · exact Nat.add_mod_right fr _
  unfold FpFmt.encodeNaN
  rw [if_neg (by decide), hcut]
  exact if_neg fun h => hlow (hkeep.symm.trans h)

/-- A NaN that is no poison encodes as its own bits with the quiet bit set. -/
theorem roundIeee_nan {x : W64} {neg : Bool} {pay : Nat} (h : fp64.decode x.toNat = .nan neg pay) :
    BitVec.ofNat 64 (fp64.roundIeee .rne (.nan neg pay)) = x ||| BitVec.twoPow 64 51 := by
  obtain ⟨rfl, rfl, he, hlow⟩ := decode_nan h
  have hfr : x.toNat % 2 ^ 52 < 2 ^ 52 := Nat.mod_lt _ (by decide)
  have hbits : fp64.encodeNaN (x.toNat.testBit 63) (x.toNat % 2 ^ 52) = (x ||| BitVec.twoPow 64 51).toNat := by
    have hsplit := eq_of_expOnes x.isLt he
    rw [encodeNaN_fp64 _ hfr hlow, or_quietBit]
    by_cases hq : (x.toNat % 2 ^ 52).testBit 51 = true
    · rw [if_pos hq, if_pos hq]
      exact hsplit.symm
    · rw [if_neg hq, if_neg hq, ← Nat.add_assoc, ← hsplit]
  exact BitVec.eq_of_toNat_eq (by
    rw [FpFmt.roundIeee, hbits, BitVec.toNat_ofNat, Nat.mod_eq_of_lt (BitVec.isLt _)])

/-- The first operand's NaN is the sum's, and the product's. -/
theorem nanOf_first {neg : Bool} {pay : Nat} {b : Val} (hb : b ≠ .poison) :
    nanOf [.nan neg pay, b] = some (.nan neg pay) := by
  simp [nanOf, hb.symm]

theorem exists_nan_of_isNaN {n : Nat} (h : fp64.isNaN n = true) (hp : fp64.decode n ≠ .poison) :
    ∃ neg pay, fp64.decode n = .nan neg pay := by
  unfold FpFmt.isNaN at h
  cases hd : fp64.decode n with
  | nan neg pay => exact ⟨neg, pay, rfl⟩
  | poison => exact absurd hd hp
  | fin n m e => rw [hd] at h; cases h
  | inf n => rw [hd] at h; cases h

/-- Settles O6: of numbers the exact result is rounded once, and the first operand's NaN passes quieted. -/
theorem floatSumsAndProductsRoundOnce : Obligations.FloatSumsAndProductsRoundOnce := by
  unfold Obligations.FloatSumsAndProductsRoundOnce
  intro x y z
  dsimp only
  constructor
  · intro ha hb hc
    have hx := Val.ne_poison_of_isFin ha
    have hy := Val.ne_poison_of_isFin hb
    refine ⟨?_, ?_, ?_⟩
    · rw [fAdd_of_sound hx hy, addV_of_isFin ha hb]
    · rw [fMul_of_sound hx hy, mulV_of_isFin ha hb]
    · rw [fFma_of_sound hx hy (Val.ne_poison_of_isFin hc), fmaV_of_isFin ha hb hc]
  · intro hnan hx hy
    obtain ⟨neg, pay, hd⟩ := exists_nan_of_isNaN hnan hx
    have hquiet := roundIeee_nan hd
    constructor
    · rw [fAdd_of_sound hx hy, hd, addV, nanOf_first hy, Option.getD_some, hquiet]
      rfl
    · rw [fMul_of_sound hx hy, hd, mulV, nanOf_first hy, Option.getD_some, hquiet]
      rfl

end Sys2Proof.Machine
end

section
/-!
PROOF. Waits, switches and phases: what a walk over the cells of a core does to each cell, and the sequencer's rows that wait,
switch the active context or start a phase (R71, R76, R182, R193, R194, R218).
-/

namespace Sys2Proof.Machine

open Sys2Proof

/-! ### Walks over cells -/

@[simp] theorem getCell_modCell (s : State) (i j : Nat) (f : Cell → Cell) :
    getCell (modCell s i f) j = if j = i then f (getCell s i) else getCell s j := by simp [modCell]

theorem getCore_congr {s t : State} (h : t.cores = s.cores) (i : Nat) : getCore t i = getCore s i := by simp [getCore, h]

theorem getCell_congr {s t : State} (h : t.cells = s.cells) (i : Nat) : getCell t i = getCell s i := by simp [getCell, h]

theorem mem_cellsOf {core i : Nat} : i ∈ cellsOf core ↔ i / 20 = core := by
  simp only [cellsOf, List.mem_map, List.mem_range]
  constructor
  · rintro ⟨k, hk, rfl⟩
    omega
  · rintro rfl
    exact ⟨i % 20, Nat.mod_lt _ (by decide), by omega⟩

theorem cellsOf_nodup (core : Nat) : (cellsOf core).Nodup :=
  List.nodup_range.map fun a b h => by simpa using h

section Walk

variable {f : State → Nat → State} {i : Nat}

theorem foldl_cores (hf : ∀ s k, (f s k).cores = s.cores) (l : List Nat) (s : State) : (l.foldl f s).cores = s.cores := by
  induction l generalizing s with
  | nil => rfl
  | cons k r ih => exact (ih (f s k)).trans (hf s k)

/-- A walk in which each step touches its own cell leaves the others. -/
theorem getCell_foldl_other (hf : ∀ s k, i ≠ k → getCell (f s k) i = getCell s i) (l : List Nat) (s : State) (h : i ∉ l) :
    getCell (l.foldl f s) i = getCell s i := by
  induction l generalizing s with
  | nil => rfl
  | cons k r ih =>
    simp only [List.mem_cons, not_or] at h
    exact (ih (f s k) h.2).trans (hf s k h.1)

/-- A cell on the walk is as its own step leaves it, taken from a state in which it is as at the start. -/
theorem getCell_foldl_at (hf : ∀ s k, i ≠ k → getCell (f s k) i = getCell s i) (l : List Nat) (s : State) (h : i ∈ l)
    (hn : l.Nodup) : ∃ u, getCell u i = getCell s i ∧ getCell (l.foldl f s) i = getCell (f u i) i := by
  induction l generalizing s with
  | nil => cases h
  | cons k r ih =>
    obtain ⟨hkr, hr⟩ := List.nodup_cons.mp hn
    by_cases hik : i = k
    · subst hik
      exact ⟨s, rfl, getCell_foldl_other hf r (f s i) hkr⟩
    · obtain ⟨u, hu, ht⟩ := ih (f s k) ((List.mem_cons.mp h).resolve_left hik) hr
      exact ⟨u, hu.trans (hf s k hik), ht⟩

end Walk

/-! ### Switching the active context (R76) -/

theorem switchCore_cores (core slot : Nat) (s : State) : (switchCore core slot s).cores = s.cores := by
  unfold switchCore
  exact foldl_cores (fun _ _ => modCell_cores ..) _ s

theorem getCell_switchCore (core slot : Nat) (s : State) (i : Nat) :
    getCell (switchCore core slot s) i = if i / 20 = core then { getCell s i with active := slot } else getCell s i := by
  have hstep : ∀ (st : State) (k : Nat), i ≠ k →
      getCell (modCell st k fun c => { c with active := slot }) i = getCell st i := fun st k h => by simp [h]
  unfold switchCore
  by_cases h : i / 20 = core
  · obtain ⟨u, hu, ht⟩ := getCell_foldl_at hstep (cellsOf core) s (mem_cellsOf.mpr h) (cellsOf_nodup core)
    rw [if_pos h, ht]
    simp [hu]
  · rw [if_neg h, getCell_foldl_other hstep (cellsOf core) s (mt mem_cellsOf.mp h)]

/-! ### Phase start in a cell (R67, R71) -/

/-- An idle cell only clears its counters. -/
theorem cellPhaseStart_of_idle {s : State} {i : Nat} (h : (getCell s i).act.isIdle = true) :
    getCell (cellPhaseStart s i) i = { getCell s i with counts := [] } := by
  unfold cellPhaseStart
  dsimp only
  rw [if_pos h]
  split
  · next hc => rw [← List.isEmpty_iff.mp hc]
  · simp

/-- A working cell latches its drain table and starts its counts at zero. -/
theorem cellPhaseStart_of_working {s : State} {i : Nat} (h : (getCell s i).act.isIdle = false) :
    getCell (cellPhaseStart s i) i = { getCell s i with
      table := if (getCell s i).act.usesTable then latchTable s i (getCell s i).act.tableBase else [],
      counts := [], tile := [], kDone := 0, grads := [], gradBlock := 0, red := [], topkSeen := 0, topkHeld := 0, chainN := 0,
      drainN := 0, rdPos := 0, wrPos := 0 } := by
  unfold cellPhaseStart
  simp [h]

theorem cellPhaseStart_other {s : State} {i j : Nat} (h : j ≠ i) : getCell (cellPhaseStart s i) j = getCell s j := by
  unfold cellPhaseStart
  dsimp only
  split
  · split
    · rfl
    · simp [h]
  · simp [h]

theorem cellPhaseStart_cores (s : State) (i : Nat) : (cellPhaseStart s i).cores = s.cores := by
  unfold cellPhaseStart
  dsimp only
  split
  · split <;> rfl
  · rfl

/-! ### Phase start on a core (R182) -/

theorem startPhaseOn_other {core i : Nat} (h : i / 20 ≠ core) (p : CorePhase) (s : State) :
    getCell (startPhaseOn core p s) i = getCell s i :=
  getCell_foldl_other (fun _ _ => cellPhaseStart_other) (cellsOf core) s (mt mem_cellsOf.mp h)

/-- A cell of the core starts its phase from the state in which the command found it. -/
theorem startPhaseOn_cell {core i : Nat} (h : i / 20 = core) (p : CorePhase) (s : State) :
    ∃ u, getCell u i = getCell s i ∧ getCell (startPhaseOn core p s) i = getCell (cellPhaseStart u i) i :=
  getCell_foldl_at (fun _ _ => cellPhaseStart_other) (cellsOf core) s (mem_cellsOf.mpr h) (cellsOf_nodup core)

theorem getCore_startPhaseOn (core : Nat) (p : CorePhase) (s : State) (k : Nat) :
    getCore (startPhaseOn core p s) k = if k = core
      then { getCore s core with phase := some p, tlive := (getCore s core).tshadow, tliveP := (getCore s core).tshadowP,
                                 region := p.region }
      else getCore s k := by
  unfold startPhaseOn
  dsimp only
  rw [getCore_modCore]
  simp only [getCore_congr (foldl_cores cellPhaseStart_cores (cellsOf core) s)]

/-! ### Rows that wait, and rows that act on more than their core -/

/-- An instruction that waits changes nothing. -/
theorem seqStep_stall {s : State} {core : Nat} {w : W32} (h : SeqRuns s core w) {body : State → Core → SeqRes}
    (hb : body s (getCore s core) = .stall) : seqStep core w body s = .next s := by
  rw [seqStep_runs h, hb]
  rfl

/-- A result for the module: the program counter moves on. -/
theorem seqStep_whole {s t : State} {core : Nat} {w : W32} (h : SeqRuns s core w) {body : State → Core → SeqRes}
    (hb : body s (getCore s core) = .whole t) :
    seqStep core w body s = .next (modCore t core fun c => { c with pc := c.pc + 4 }) := by
  rw [seqStep_runs h, hb]
  rfl

/-- A result for the module, with the program counter unmoved. -/
theorem seqStep_stay {s t : State} {core : Nat} {w : W32} (h : SeqRuns s core w) {body : State → Core → SeqRes}
    (hb : body s (getCore s core) = .stay t) : seqStep core w body s = .next t := by
  rw [seqStep_runs h, hb]
  rfl

/-- A row that waits while `busy` holds and then makes its core `c`. -/
theorem seqStep_waits {s : State} {core : Nat} {w : W32} (h : SeqRuns s core w) {f : Core → SeqRes} {busy : Bool} {c : Core}
    (hf : f (getCore s core) = if busy then .stall else .next c) :
    seqStep core w (onCore f) s = .next (if busy then s else seqNext core c s) := by
  cases busy with
  | true => exact seqStep_stall h hf
  | false => exact seqStep_next h hf

/-- The mask field of SWAIT. -/
theorem setWidth_mask (mask : BitVec 16) : mask.setWidth 20 = BitVec.ofNat 20 mask.toNat :=
  BitVec.eq_of_toNat_eq (by rw [BitVec.toNat_setWidth, BitVec.toNat_ofNat])

/-! ### The rows -/

section Rows

variable {s : State} {core : Nat}

theorem swait_waits (mask : BitVec 16) (h : SeqRuns s core (encU 0x3A 0 (BitVec.ofNat 20 mask.toNat))) :
    exec (.swait core mask) s = .next (if tagsBusy (getCore s core) mask then s else seqNext core (getCore s core) s) := by
  rw [← setWidth_mask] at h
  exact seqStep_waits h rfl

theorem pwait_waits (h : SeqRuns s core (encT 0x3D 0 0 0 0)) :
    exec (.pwait core) s = .next (if (getCore s core).phase.isSome then s else seqNext core (getCore s core) s) :=
  seqStep_waits h rfl

theorem endProgram_waits (h : SeqRuns s core (encT 0x3D 0 0 0 3)) :
    exec (.endProgram core) s = .next
      (if !(getCore s core).streams.isEmpty || !(getCore s core).moves.isEmpty || (getCore s core).phase.isSome then s
       else seqNext core { getCore s core with running := false, ended := true } s) :=
  seqStep_waits h rfl

/-- CSW on a core without a phase. -/
theorem csw_switches {b : RField} (h : SeqRuns s core (encT 0x3D 0 0 b 1)) (hp : (getCore s core).phase = none) :
    Answers (.csw core b) s fun t =>
      (∀ i, getCell t i = if i / 20 = core then { getCell s i with active := b.toNat } else getCell s i) ∧
      getCore t core = { getCore s core with pc := (getCore s core).pc + 4 } := by
  have hrow : execCsw core b s = .next (modCore (switchCore core b.toNat s) core fun c => { c with pc := c.pc + 4 }) := by
    unfold execCsw
    exact seqStep_whole h (by simp [hp])
  refine ⟨_, hrow, fun i => ?_, ?_⟩
  · rw [getCell_congr (modCore_cells ..), getCell_switchCore]
  · rw [getCore_modCore, if_pos rfl, getCore_congr (switchCore_cores ..)]

theorem csw_waits {b : RField} (h : SeqRuns s core (encT 0x3D 0 0 b 1)) (hp : (getCore s core).phase.isSome = true) :
    exec (.csw core b) s = .next s := by
  show execCsw core b s = _
  unfold execCsw
  exact seqStep_stall h (by simp [hp])

/-- PSYNC on a core with no OUT stream and no move. -/
theorem psync_arrives (h : SeqRuns s core (encT 0x3D 0 0 0 2))
    (hs : ((getCore s core).streams.any fun t => t.isOut) = false) (hm : (getCore s core).moves = []) :
    exec (.psync core) s =
      .next (setCore s core { getCore s core with psync := (getCore s core).psync + 1, psyncWait := true }) := by
  show execPsync core s = _
  unfold execPsync
  exact seqStep_stay h (by simp [outOpen, hs, hm])

end Rows

/-- Settles O15: each row waits on its own condition, or acts. -/
theorem waitsSwitchesAndBarrierArrival : Obligations.WaitsSwitchesAndBarrierArrival := by
  unfold Obligations.WaitsSwitchesAndBarrierArrival
  exact ⟨fun s core mask => ⟨swait_waits mask, pwait_waits, endProgram_waits⟩,
    fun s core b => ⟨csw_switches, csw_waits, psync_arrives⟩⟩

/-- The phase that PRUN starts on a core: its active context runs. -/
def prunPhase (s : State) (core id count : Nat) : CorePhase :=
  { id := id, ctx := (getCell s (core * 20)).active, count := count, region := (getCore s core).region, late := false }

/-- PRUN with a phase and a count that its region allows: it waits for a running phase, and starts its own else. -/
theorem prun_row {s : State} {core : Nat} {a : RField} {imm : BitVec 14} {e : PhaseEntry}
    (hrun : SeqRuns s core (encI 0x3E 0 a imm)) (hp : (readG (getCore s core) a).2 = false) (hi : imm.toNat < 8192)
    (he : phaseEntry s (getCore s core).region imm.toNat = some e) (h1 : 1 ≤ (readG (getCore s core) a).1.toNat)
    (hmax : (readG (getCore s core) a).1.toNat ≤ e.maxCount) (h48 : (readG (getCore s core) a).1.toNat < 2 ^ 48) :
    exec (.prun core a imm) s = .next (seqApply core
      (if (getCore s core).phase.isSome then .stall
       else .whole (startPhaseOn core (prunPhase s core imm.toNat (readG (getCore s core) a).1.toNat) s)) s) := by
  have hne : (readG (getCore s core) a).1 ≠ 0 := by
    intro h0
    rw [h0] at h1
    exact absurd h1 (by decide)
  show execPrun core a imm s = _
  unfold execPrun
  rw [seqStep_runs hrun]
  dsimp only
  rw [if_neg (by simp [hp]), if_neg (by simpa using ⟨⟨hne, h48⟩, hi⟩), he]
  dsimp only
  rw [if_neg (by omega)]
  rfl

/-- Settles O18: PRUN waits or starts the phase, and phase start is known cell by cell and for the core. -/
theorem prunStartsAPhase : Obligations.PrunStartsAPhase := by
  unfold Obligations.PrunStartsAPhase
  intro s core a imm e
  dsimp only
  intro hrun hp hi he h1 hmax h48
  have hrow := prun_row hrun hp hi he h1 hmax h48
  constructor
  · intro hphase
    rw [hrow, if_pos hphase]
    rfl
  · intro hphase
    rw [hphase] at hrow
    refine ⟨_, hrow, ?_⟩
    simp only [Option.isSome_none, Bool.false_eq_true, if_false, seqApply, getCore_modCore, getCore_startPhaseOn, if_true,
      getCell_congr (modCore_cells ..)]
    refine ⟨rfl, trivial, trivial, trivial, trivial, trivial, ?working, ?idle, fun i hi => startPhaseOn_other hi _ _, ?cores⟩
    case working =>
      intro i hi hw
      obtain ⟨u, hu, ht⟩ := startPhaseOn_cell hi (prunPhase s core imm.toNat (readG (getCore s core) a).1.toNat) s
      rw [← hu] at hw ⊢
      rw [ht, cellPhaseStart_of_working hw]
      exact ⟨rfl, rfl, rfl, rfl, rfl⟩
    case idle =>
      intro i hi hw
      obtain ⟨u, hu, ht⟩ := startPhaseOn_cell hi (prunPhase s core imm.toNat (readG (getCore s core) a).1.toNat) s
      rw [← hu] at hw ⊢
      rw [ht, cellPhaseStart_of_idle hw]
    case cores =>
      intro k hk
      simp [hk]

end Sys2Proof.Machine
end

section
/-!
PROOF. A cell at work on its tile and its reductions: the elements it takes, the terms they add, and the entries they fill
(R48, R54, R61, R62, R65, R127, R130, R137 to R140).
-/

namespace Sys2Proof.Machine

open Sys2Proof

/-! ### Rows of a cell -/

theorem guardUnit_cell {cell : Nat} (hc : cell < Config.numCells) (t : State) :
    guardUnit (decide (cell < Config.numCells)) t = .next t := by simp [hc]

/-- A cell does nothing while no phase runs on its core or a halt holds its die (R30). -/
theorem cellRows_still {s : State} {cell : Nat} (hc : cell < Config.numCells) (hr : cellRuns s cell = false) (entry resid : Nat) :
    exec (.streamedOperand cell) s = .next s ∧ exec (.bankLoad cell) s = .next s ∧
      exec (.reductionTerm cell entry) s = .next s ∧ exec (.topkElement cell) s = .next s ∧
      exec (.elementChain cell) s = .next s ∧ exec (.drain cell resid) s = .next s := by
  show execStreamedOperand cell s = _ ∧ execBankLoad cell s = _ ∧ execReductionTerm cell entry s = _ ∧
    execTopkElement cell s = _ ∧ execElementChain cell s = _ ∧ execDrain cell resid s = _
  refine ⟨?_, ?_, ?_, ?_, ?_, ?_⟩
  · simp [execStreamedOperand, hc, hr]
  · simp [execBankLoad, hc, hr]
  · simp [execReductionTerm, hc, hr]
  · simp [execTopkElement, hc, hr]
  · simp [execElementChain, hc, hr]
  · simp [execDrain, hc, hr]

/-! ### Inputs -/

/-- Elements that have arrived are not asked for. -/
theorem needInput_of_arrived {s : State} {cell q n : Nat} (h : n ≤ (tget [] (getCell s cell).inq q).length) (fmt : Nat) :
    needInput s cell q fmt n = s := by
  rw [needInput, Nat.sub_eq_zero_of_le h]
  rfl

theorem headsOf_of_arrived {s : State} {cell q n : Nat} (h : n ≤ (tget [] (getCell s cell).inq q).length) :
    headsOf s cell q n = some ((tget [] (getCell s cell).inq q).take n) := by
  simp [headsOf, h]

@[simp] theorem getCell_takeHeads (s : State) (cell q n : Nat) : getCell (takeHeads s cell q n) cell =
    { getCell s cell with inq := tput [] (getCell s cell).inq q ((tget [] (getCell s cell).inq q).drop n) } := by
  simp [takeHeads]

@[simp] theorem getCell_countAct (d k n : Nat) (s : State) (i : Nat) : getCell (countAct d k n s) i = getCell s i := rfl

/-- A streamed element that has come by the switch box. -/
theorem streamedAt_of_arrived {s : State} {cell q : Nat} {x : Ctx} {e : Elem} {r : List Elem} (hst : x.streamFromStore = false)
    (hq : tget [] (getCell s cell).inq q = e :: r) (idx fmt : Nat) :
    streamedAt s cell x q idx fmt = some ({ bits := e.bits.toNat, poison := e.poison }, takeHeads s cell q 1) := by
  have hlen : 1 ≤ (tget [] (getCell s cell).inq q).length := by simp [hq]
  unfold streamedAt
  dsimp only
  rw [hst, needInput_of_arrived hlen, headsOf_of_arrived hlen, hq]
  rfl

/-! ### The tile -/

/-- The terms of one row of positions: each position of the row takes its own, the others stand. -/
theorem tget_addTerms_row (int : Bool) (v : Nat → Val) (o : Nat) (t : Tbl AccRun) (p : Nat) :
    tget AccRun.empty (addTerms int t ((List.range 8).map fun j => (8 * o + j, v j))) p =
      if p / 8 = o then tileTerm int (tget AccRun.empty t p) (v (p % 8)) else tget AccRun.empty t p := by
  have hfirst : ∀ k, k ≤ 8 →
      tget AccRun.empty (addTerms int t ((List.range k).map fun j => (8 * o + j, v j))) p =
        if p / 8 = o ∧ p % 8 < k then tileTerm int (tget AccRun.empty t p) (v (p % 8)) else tget AccRun.empty t p := by
    intro k
    induction k with
    | zero => intro _; simp [addTerms]
    | succ k ih =>
      intro hk
      have hstep : addTerms int t ((List.range (k + 1)).map fun j => (8 * o + j, v j)) =
          addTerms int (addTerms int t ((List.range k).map fun j => (8 * o + j, v j))) [(8 * o + k, v k)] := by
        simp [addTerms, List.range_succ]
      have hone : ∀ u : Tbl AccRun, tget AccRun.empty (addTerms int u [(8 * o + k, v k)]) p =
          if p = 8 * o + k then tileTerm int (tget AccRun.empty u (8 * o + k)) (v k) else tget AccRun.empty u p := by
        intro u
        simp [addTerms]
      rw [hstep, hone]
      by_cases hp : p = 8 * o + k
      · subst hp
        have hdiv : (8 * o + k) / 8 = o := by omega
        have hmod : (8 * o + k) % 8 = k := by omega
        rw [if_pos rfl, ih (by omega), if_neg (by omega), if_pos (by omega), hmod]
      · rw [if_neg hp, ih (by omega)]
        have hiff : (p / 8 = o ∧ p % 8 < k) ↔ (p / 8 = o ∧ p % 8 < k + 1) := by omega
        simp only [hiff]
  have hlt : p % 8 < 8 := Nat.mod_lt _ (by decide)
  simpa [hlt] using hfirst 8 (Nat.le_refl 8)

/-- The product that a streamed element of A gives position `j` of its row at contraction index `k`: with the stationary element
of B that stands there (R48, Table 2.4). -/
def statTerm (s : State) (cell : Nat) (x : Ctx) (e : Elem) (k j : Nat) : Val :=
  mulV (tileVal x.fmtA { bits := e.bits.toNat, poison := e.poison })
    (tileVal x.fmtB (storeOp s cell x.statBase x.fmtB (statIndex x.role x.kLen k j)))

section Tile

variable {s : State} {cell : Nat} {e : Elem} {r : List Elem}

/-- A streamed element of A that does not end its operation adds a product to each of its eight positions (R48). -/
theorem forwardElement_of_arrived (hrole : (getCell s cell).act.role = 0 ∨ (getCell s cell).act.role = 1)
    (hst : (getCell s cell).act.streamFromStore = false) (hq : tget [] (getCell s cell).inq 0 = e :: r)
    (hn : (getCell s cell).kDone % ((getCell s cell).act.kLen * 4) + 1 < (getCell s cell).act.kLen * 4) :
    forwardElement cell s =
      modCell (countAct (dieOfCell cell) 1 8 (takeHeads s cell 0 1)) cell fun d =>
        { d with
          tile := addTerms (getCell s cell).act.intTile d.tile ((List.range 8).map fun j =>
            (8 * ((getCell s cell).kDone % ((getCell s cell).act.kLen * 4) % 4) + j,
              statTerm s cell (getCell s cell).act e ((getCell s cell).kDone % ((getCell s cell).act.kLen * 4) / 4) j)),
          kDone := d.kDone + 1 } := by
  have hB : (getCell s cell).act.streamsB = false := by
    unfold Ctx.streamsB
    rcases hrole with h | h <;> rw [h] <;> rfl
  unfold forwardElement
  simp only [Ctx.perStep, Ctx.streamQ, Ctx.streamFmt, Ctx.statFmt, hB, Bool.false_eq_true, if_false,
    Nat.ne_of_lt hn, decide_false, Bool.false_and, streamedAt_of_arrived hst hq, List.length_map, List.length_range]
  rfl

/-- STREAMED_OPERAND for a role that streams A, in its forward shape. -/
theorem exec_streamedOperand_forward (hc : cell < Config.numCells) (hw : cellRuns s cell = true)
    (hen : (getCell s cell).act.tileEn = true) (hrole : (getCell s cell).act.role = 0 ∨ (getCell s cell).act.role = 1)
    (ht : (getCell s cell).act.transposed = false) : exec (.streamedOperand cell) s = .next (forwardElement cell s) := by
  show execStreamedOperand cell s = _
  unfold execStreamedOperand
  rw [guardUnit_cell hc]
  rcases hrole with h | h <;> simp [hw, hen, ht, h]

/-- BANK_LOAD of a pair that has come by the switch box (R65, R130). -/
theorem exec_bankLoad_of_arrived {a b : Elem} (hc : cell < Config.numCells) (hw : cellRuns s cell = true)
    (hen : (getCell s cell).act.tileEn = true) (hrole : (getCell s cell).act.role = 5)
    (hst : (getCell s cell).act.streamFromStore = false) (hq : tget [] (getCell s cell).inq 0 = a :: b :: r) :
    exec (.bankLoad cell) s = .next (modCell (takeHeads s cell 0 2) cell fun d =>
      { setBankEntry d (getCell s cell).act.tileBank (d.kDone % 32)
          { s := a.bits.setWidth 32, e := b.bits.setWidth 32, poison := rawPoison a } with kDone := d.kDone + 1 }) := by
  have hlen : 2 ≤ (tget [] (getCell s cell).inq 0).length := by simp [hq]
  show execBankLoad cell s = _
  unfold execBankLoad
  rw [guardUnit_cell hc]
  simp [hw, hen, hrole, hst, needInput_of_arrived hlen, headsOf_of_arrived hlen, hq]

end Tile

@[simp] theorem bankEntry_setBankEntry (c : Cell) (b n m : Nat) (e : Entry) :
    bankEntry (setBankEntry c b n e) b m = if m = n then e else bankEntry c b m := by
  simp [bankEntry, setBankEntry]

/-! ### Reductions -/

section Reduction

variable {s : State} {cell : Nat} {e a b : Elem} {r : List Elem}

/-- Terms that the chain has written are taken first. -/
theorem redTerms_of_held {n : Nat} (h : n ≤ (getCell s cell).redq.length) (x : Ctx) (raw : Bool) :
    redTerms s cell x raw n = some ((getCell s cell).redq.take n, modCell s cell fun d => { d with redq := d.redq.drop n }) := by
  simp [redTerms, h]

/-- The state once `n` terms are taken and one more operation of the wide unit is counted, and the cell changed by `f`. -/
def afterTerms (s : State) (cell n : Nat) (f : Cell → Cell) : State :=
  modCell (countAct (dieOfCell cell) 2 1 (modCell s cell fun d => { d with redq := d.redq.drop n })) cell f

theorem getCell_afterTerms (s : State) (cell n : Nat) (f : Cell → Cell) :
    getCell (afterTerms s cell n f) cell = f { getCell s cell with redq := (getCell s cell).redq.drop n } := by
  simp [afterTerms]

/-- The entry of RED_BANK, or 32 for the Q pair, whose sum a term enters. -/
def redKey (x : Ctx) (entry : Nat) : Nat := if x.red = 2 then 32 else entry % 32

/-- REDUCTION_TERM of a single term (R61, R127). -/
theorem exec_reductionTerm_term (hc : cell < Config.numCells) (hw : cellRuns s cell = true) (hq : (getCell s cell).redq = e :: r)
    (hred : (getCell s cell).act.red = 1 ∨ (getCell s cell).act.red = 2) (entry : Nat) :
    exec (.reductionTerm cell entry) s = .next (afterTerms s cell 1 fun c => { c with
      red := tput AccRun.empty c.red (redKey (getCell s cell).act entry)
        ((tget AccRun.empty c.red (redKey (getCell s cell).act entry)).term
          (if (getCell s cell).act.red = 2 then fp64 else fp32) (termVal e)) }) := by
  have hlen : 1 ≤ (getCell s cell).redq.length := by simp [hq]
  show execReductionTerm cell entry s = _
  unfold execReductionTerm
  rw [guardUnit_cell hc]
  rcases hred with h | h <;> simp [hw, h, redTerms_of_held hlen, hq, afterTerms, redKey]

/-- REDUCTION_TERM of a pair: it enters as a leaf (R129, R130). -/
theorem exec_reductionTerm_pair (hc : cell < Config.numCells) (hw : cellRuns s cell = true)
    (hq : (getCell s cell).redq = a :: b :: r) (hred : (getCell s cell).act.red = 4) (entry : Nat) :
    exec (.reductionTerm cell entry) s = .next (afterTerms s cell 2 fun c => { c with
      red := tput AccRun.empty c.red (entry % 32) ((tget AccRun.empty c.red (entry % 32)).leaf fp32
        ⟨if rawPoison a then BitVec.ofNat 64 fp32.poisonBits else a.bits, b.bits⟩) }) := by
  have hlen : 2 ≤ (getCell s cell).redq.length := by simp [hq]
  show execReductionTerm cell entry s = _
  unfold execReductionTerm
  rw [guardUnit_cell hc]
  simp [hw, hred, redTerms_of_held hlen, hq, afterTerms]

/-! ### Top-k -/

/-- TOPK_ELEMENT of an element that is no word of a pair. -/
theorem exec_topkElement_element (hc : cell < Config.numCells) (hw : cellRuns s cell = true)
    (hq : (getCell s cell).redq = e :: r) (hraw : e.raw = false) (hred : (getCell s cell).act.red = 3) :
    exec (.topkElement cell) s = .next (afterTerms s cell 1 fun c =>
      topkJoin (getCell s cell).act (topkEntry (getCell s cell).act c.topkSeen e) c) := by
  have hlen : 1 ≤ (getCell s cell).redq.length := by simp [hq]
  show execTopkElement cell s = _
  unfold execTopkElement
  rw [guardUnit_cell hc]
  simp [hw, hred, redTerms_of_held hlen, hq, hraw, afterTerms]

/-- TOPK_ELEMENT of a pair: a filler passes by (log entry 217). -/
theorem exec_topkElement_pair (hc : cell < Config.numCells) (hw : cellRuns s cell = true)
    (hq : (getCell s cell).redq = a :: b :: r) (hraw : a.raw = true) (hred : (getCell s cell).act.red = 3) :
    exec (.topkElement cell) s = .next (afterTerms s cell 2 fun c =>
      let n : Entry := { s := a.bits.setWidth 32, e := b.bits.setWidth 32, poison := false, mark := a.poison }
      if n == Entry.blank then c else topkJoin (getCell s cell).act n c) := by
  have hlen1 : 1 ≤ (getCell s cell).redq.length := by simp [hq]
  have hlen2 : 2 ≤ (getCell s cell).redq.length := by simp [hq]
  show execTopkElement cell s = _
  unfold execTopkElement
  rw [guardUnit_cell hc]
  simp [hw, hred, redTerms_of_held hlen1, redTerms_of_held hlen2, hq, hraw, afterTerms]

end Reduction

/-- Entries written one after another: the first `k` are as written. -/
theorem bankEntry_foldl_setBankEntry (c : Cell) (b : Nat) (g : Nat → Entry) (k m : Nat) :
    bankEntry ((List.range k).foldl (fun d i => setBankEntry d b i (g i)) c) b m = if m < k then g m else bankEntry c b m := by
  induction k with
  | zero => simp
  | succ k ih =>
    rw [List.range_succ, List.foldl_append, List.foldl_cons, List.foldl_nil, bankEntry_setBankEntry, ih]
    by_cases hm : m = k
    · subst hm; simp
    · have hiff : m < k ↔ m < k + 1 := by omega
      rw [if_neg hm]
      simp only [hiff]

/-- Writing bank entries changes the banks alone. -/
theorem foldl_setBankEntry_onlyBanks (b : Nat) (g : Nat → Entry) (l : List Nat) (c : Cell) :
    l.foldl (fun d i => setBankEntry d b i (g i)) c =
      { c with banks := (l.foldl (fun d i => setBankEntry d b i (g i)) c).banks } := by
  induction l generalizing c with
  | nil => rfl
  | cons i r ih => exact ih (setBankEntry c b i (g i))

theorem topkInsert_nil (fmt : Nat) (mag : Bool) {k : Nat} (hk : 0 < k) (n : Entry) : topkInsert fmt mag k n [] = [n] := by
  obtain ⟨j, rfl⟩ := Nat.exists_eq_succ_of_ne_zero (Nat.ne_of_gt hk)
  simp [topkInsert]

/-- The first entry of a list that starts empty leads it, with fillers behind (R139). -/
theorem topkJoin_first {x : Ctx} {c : Cell} (hseen : c.topkSeen = 0) (hadd : x.redAdd = false) (hk : 0 < x.topkK) (n : Entry) :
    (topkJoin x n c).topkSeen = 1 ∧ (topkJoin x n c).topkHeld = 1 ∧ (topkJoin x n c).redq = c.redq ∧
      bankEntry (topkJoin x n c) x.redBank 0 = n ∧
      ∀ i, 0 < i → i < x.topkK → bankEntry (topkJoin x n c) x.redBank i = Entry.blank := by
  have hl : topkInsert x.topkFmt x.topkMag x.topkK n [] = [n] := topkInsert_nil _ _ hk n
  have hjoin : topkJoin x n c =
      { (List.range x.topkK).foldl (fun d i => setBankEntry d x.redBank i (lget Entry.blank [n] i)) c with
        topkSeen := 1, topkHeld := 1 } := by
    unfold topkJoin
    simp [hseen, hadd, hl]
  have hentry : ∀ i, bankEntry (topkJoin x n c) x.redBank i =
      if i < x.topkK then lget Entry.blank [n] i else bankEntry c x.redBank i := by
    intro i
    rw [hjoin, ← bankEntry_foldl_setBankEntry]
    rfl
  refine ⟨by rw [hjoin], by rw [hjoin], by rw [hjoin, foldl_setBankEntry_onlyBanks], ?_, ?_⟩
  · rw [hentry, if_pos hk]
    rfl
  · intro i hi hik
    obtain ⟨j, rfl⟩ := Nat.exists_eq_succ_of_ne_zero (Nat.ne_of_gt hi)
    rw [hentry, if_pos hik]
    rfl

end Sys2Proof.Machine
end

section
/-!
PROOF. The wide unit's chain: routing and reading elements leave every cell's contexts, the chain writes Q registers alone, and a
result that no route takes stays with its cell (R56 to R60, R82).
-/

namespace Sys2Proof.Machine

open Sys2Proof

/-! ### What routing leaves alone -/

/-- Every cell has the active context it had. -/
structure SameActs (s t : State) : Prop where
  act : ∀ i, (getCell t i).act = (getCell s i).act

theorem SameActs.refl (s : State) : SameActs s s := ⟨fun _ => rfl⟩

theorem SameActs.trans {s t u : State} (h : SameActs s t) (g : SameActs t u) : SameActs s u :=
  ⟨fun i => (g.act i).trans (h.act i)⟩

theorem sameActs_of_cells {s t : State} (h : t.cells = s.cells) : SameActs s t := ⟨fun i => by rw [getCell_congr h]⟩

theorem sameActs_of_onlyMem {s t : State} (h : OnlyMem s t) : SameActs s t := sameActs_of_cells (by rw [h])

theorem sameActs_ite {s t u : State} {c : Prop} [Decidable c] (ht : SameActs s t) (hu : SameActs s u) :
    SameActs s (if c then t else u) := by
  split
  · exact ht
  · exact hu

theorem modCell_sameActs (s : State) (i : Nat) (f : Cell → Cell) (hf : ∀ c, (f c).act = c.act := by intro _; rfl) :
    SameActs s (modCell s i f) := by
  refine ⟨fun j => ?_⟩
  rw [getCell_modCell]
  split
  · next h => rw [hf, h]
  · rfl

theorem foldl_sameActs {α : Type} {f : State → α → State} (hf : ∀ s a, SameActs s (f s a)) (l : List α) (s : State) :
    SameActs s (l.foldl f s) := by
  induction l generalizing s with
  | nil => exact SameActs.refl s
  | cons a r ih => exact (hf s a).trans (ih (f s a))

theorem outerSector_onlyMem (a : Nat) (bs : List Byte) (p : Bool) (s : State) : OnlyMem s (outerSector a bs p s) :=
  onlyMem_ite rfl (writeSector_onlyMem ..)

/-- Bits written piece by piece change memory alone, where each piece does. -/
theorem putBitsBy_onlyMem {put : Nat → List Byte → Bool → State → State} (hput : ∀ a bs p s, OnlyMem s (put a bs p s))
    (s : State) (cell base bit n v : Nat) (p : Bool) : OnlyMem s (putBitsBy put s cell base bit n v p) :=
  onlyMem_ite (hput ..) (foldl_onlyMem (fun _ _ => hput ..) _ _)

theorem storeWrite_sameActs (s : State) (cell : Nat) (outer : Bool) (e : Elem) : SameActs s (storeWrite s cell outer e) := by
  have hput : ∀ a bs p st,
      OnlyMem st ((if outer then outerSector else fun a bs p st => writeSector st a bs p) a bs p st) := by
    intro a bs p st
    cases outer with
    | true => exact outerSector_onlyMem a bs p st
    | false => exact writeSector_onlyMem st a bs p
  exact (sameActs_of_onlyMem (putBitsBy_onlyMem hput ..)).trans
    (modCell_sameActs _ cell fun c => { c with wrPos := c.wrPos + 1 })

/-- An element that travels changes no context. -/
theorem routeFrom_sameActs : ∀ (fuel cell src : Nat) (e : Elem) (s : State), SameActs s (routeFrom fuel cell src e s)
  | 0, _, _, _, s => SameActs.refl s
  | fuel + 1, cell, src, e, s => by
    unfold routeFrom
    extract_lets arrive
    have harrive : ∀ st sink e, SameActs st (arrive st sink e) := by
      intro st sink e
      refine sameActs_ite ?_ (sameActs_ite (storeWrite_sameActs ..) (modCell_sameActs ..))
      cases neighbour cell sink with
      | some n => exact routeFrom_sameActs fuel ..
      | none => exact sameActs_of_cells rfl
    refine foldl_sameActs (fun st l => sameActs_ite (harrive ..) ?_) _ s
    have hmerge := modCell_sameActs st cell fun c => { c with merge := tpush c.merge (16 * l.ent + l.former) e }
    exact sameActs_ite ((hmerge.trans (modCell_sameActs ..)).trans (harrive ..)) hmerge

/-- An element that no route in force takes goes nowhere. -/
theorem routeFrom_of_no_leg {s : State} {cell src : Nat} (h : ∀ l ∈ (getCell s cell).act.legs, l.src ≠ src) (fuel : Nat)
    (e : Elem) : routeFrom fuel cell src e s = s := by
  cases fuel with
  | zero => rfl
  | succ fuel =>
    have hnone : ((getCell s cell).act.legs.filter fun l => l.src == src) = [] := by simpa using h
    unfold routeFrom
    rw [hnone]
    rfl

theorem storeEmit_sameActs (s : State) (cell fmt : Nat) : SameActs s (storeEmit s cell fmt) :=
  (modCell_sameActs ..).trans (routeFrom_sameActs ..)

theorem fillTo_sameActs (cell q fmt : Nat) : ∀ (n : Nat) (s : State), SameActs s (fillTo cell q fmt n s)
  | 0, s => SameActs.refl s
  | n + 1, s =>
    sameActs_ite (SameActs.refl s)
      ((foldl_sameActs (fun _ _ => storeEmit_sameActs ..) _ s).trans (fillTo_sameActs cell q fmt n _))

theorem needInput_sameActs (s : State) (cell q fmt n : Nat) : SameActs s (needInput s cell q fmt n) := fillTo_sameActs ..

theorem takeHeads_sameActs (s : State) (cell q n : Nat) : SameActs s (takeHeads s cell q n) :=
  modCell_sameActs ..

theorem openBsi_sameActs (cell : Nat) (x : Ctx) (s : State) : SameActs s (openBsi cell x s) :=
  sameActs_ite (modCell_sameActs ..) (SameActs.refl s)

/-- Taking a word's elements changes no context. -/
theorem takeWide_sameActs {s u : State} {cell : Nat} {x : Ctx} {ins : List LaneIn} (h : takeWide s cell x = some (ins, u)) :
    SameActs s u := by
  unfold takeWide at h
  extract_lets n k need s1 heads drop s2 at h
  have hneed : ∀ st q, SameActs st (need st q) := fun st q => sameActs_ite (needInput_sameActs ..) (SameActs.refl st)
  have hs1 : SameActs s s1 := (((hneed s 2).trans (hneed _ 3)).trans (hneed _ k)).trans (openBsi_sameActs ..)
  have hdrop : ∀ st q, SameActs st (drop st q) := fun st q => sameActs_ite (takeHeads_sameActs ..) (SameActs.refl st)
  have hs2 : SameActs s s2 := ((hs1.trans (hdrop s1 2)).trans (hdrop _ 3)).trans (hdrop _ k)
  by_cases hopen : (x.takes 2 && bsiOpen cell x s1) = true
  · rw [if_pos hopen] at h
    cases h
  · rw [if_neg hopen] at h
    split at h
    · cases h
      exact hs2.trans (modCell_sameActs ..)
    · cases h

/-! ### The chain's own writes -/

/-- Nothing of a cell but its Q registers differs. -/
def OnlyQ (c d : Cell) : Prop := d = { c with q := d.q, qPoison := d.qPoison }

theorem OnlyQ.trans {c d e : Cell} (h : OnlyQ c d) (g : OnlyQ d e) : OnlyQ c e := by
  unfold OnlyQ at *
  rw [g, h]

theorem chainWrite_onlyQ (x : Ctx) (d : Nat) (v : List Opnd) (r : ChainRun) : OnlyQ r.cell (chainWrite x d v r).cell := by
  unfold chainWrite
  repeat' split
  all_goals rfl

theorem chainOp_onlyQ (x : Ctx) (ins : List LaneIn) (r : ChainRun) (w : W32) : OnlyQ r.cell (chainOp x ins r w).cell := by
  unfold chainOp
  split
  · rfl
  · exact chainWrite_onlyQ ..

theorem runChain_onlyQ (x : Ctx) (c : Cell) (ins : List LaneIn) : OnlyQ c (runChain x c ins).cell := by
  have hops : ∀ (l : List W32) (r : ChainRun), OnlyQ r.cell (l.foldl (chainOp x ins) r).cell := by
    intro l
    induction l with
    | nil => intro r; rfl
    | cons w t ih => intro r; exact (chainOp_onlyQ x ins r w).trans (ih _)
  unfold runChain
  dsimp only
  split
  · rfl
  · exact hops _ _

theorem OnlyQ.act {c d : Cell} (h : OnlyQ c d) : d.act = c.act := by rw [h]; rfl

theorem OnlyQ.chainN {c d : Cell} (h : OnlyQ c d) : d.chainN = c.chainN := by rw [h]

/-! ### ELEMENT_CHAIN -/

/-- The cell once a word's elements have run the chain: its results wait for the drain and its terms for the reduction. -/
def afterChain (x : Ctx) (z : ChainRun) : Cell :=
  { z.cell with
    counts := (List.range z.sats).foldl (fun t _ => bumpCount t 64) z.cell.counts,
    redq := z.cell.redq ++ (if x.red = 0 then [] else (z.red.getD []).map (laneElem x)),
    wideq := if x.dsrc = 2 then z.cell.wideq ++ (z.out.getD []).map (laneElem x) else z.cell.wideq }

section Chain

variable {s u : State} {cell : Nat} {ins : List LaneIn}

theorem exec_elementChain_waiting (hc : cell < Config.numCells) (hw : cellRuns s cell = true)
    (hlen : (getCell s cell).act.chainLen ≠ 0) (ht : takeWide s cell (getCell s cell).act = none) :
    exec (.elementChain cell) s = .next s := by
  show execElementChain cell s = _
  unfold execElementChain
  rw [guardUnit_cell hc]
  simp [hw, hlen, ht]

/-- A word whose results no route takes: they stay with the cell. -/
theorem exec_elementChain_unrouted (hc : cell < Config.numCells) (hw : cellRuns s cell = true)
    (hlen : (getCell s cell).act.chainLen ≠ 0) (hlegs : ∀ l ∈ (getCell s cell).act.legs, l.src ≠ 6)
    (ht : takeWide s cell (getCell s cell).act = some (ins, u)) :
    ∃ k, exec (.elementChain cell) s = .next (setCell (countAct (dieOfCell cell) 2 k u) cell
      (afterChain (getCell s cell).act (runChain (getCell s cell).act (getCell u cell) ins))) := by
  refine ⟨ins.length * (getCell s cell).act.chainLen, ?_⟩
  have hact : (afterChain (getCell s cell).act (runChain (getCell s cell).act (getCell u cell) ins)).act =
      (getCell s cell).act := (runChain_onlyQ ..).act.trans ((takeWide_sameActs ht).act cell)
  have hstay : ∀ (l : List Elem) (t : State), (getCell t cell).act = (getCell s cell).act →
      l.foldl (fun t e => routeFrom routeFuel cell 6 e t) t = t := by
    intro l
    induction l with
    | nil => intro t _; rfl
    | cons e r ih =>
      intro t h
      rw [List.foldl_cons, routeFrom_of_no_leg (by rw [h]; exact hlegs)]
      exact ih t h
  show execElementChain cell s = _
  unfold execElementChain
  rw [guardUnit_cell hc]
  simp only [hw, hlen, ht, ne_eq, not_false_eq_true, decide_true, Bool.true_or, Bool.and_self, whenTaken_true]
  congr 1
  exact hstay _ _ (by rw [getCell_setCell, if_pos rfl]; exact hact)

end Chain

end Sys2Proof.Machine
end

section
/-!
PROOF. A drained value: formed, rounded, counted and stored in its cell (R65, R67 to R72, R95); and the cell's statement.
-/

namespace Sys2Proof.Machine

open Sys2Proof

/-! ### Writing a cell store -/

/-- A place of a cell's store is memory, and no DRAM (Table 9.2). -/
theorem addrKind_cellStore {cell o : Nat} (hc : cell < Config.numCells) (ho : o < 0x4000) :
    addrKind (cellStoreAt cell + o) = .cellStore := by
  have hn : Config.numCells = 96000 := rfl
  have hlo : cellStoreBase ≤ cellStoreAt cell + o := by unfold cellStoreAt; omega
  have hhi : cellStoreAt cell + o < cellStoreEnd := by unfold cellStoreAt cellStoreBase cellStoreEnd; omega
  have h1 : retainedBase < cellStoreBase := by decide
  have h2 : dramEnd < cellStoreBase := by decide
  have h3 : clusterStoreEnd < cellStoreBase := by decide
  unfold addrKind
  rw [if_neg (by omega), if_neg (by omega), if_neg (by simp; omega), if_pos (by simp; omega)]

theorem isDram_cellStore (cell o : Nat) : isDram (cellStoreAt cell + o) = false := by
  have h : dramEnd < cellStoreBase := by decide
  exact decide_eq_false (by unfold cellStoreAt; omega)

/-- Bytes written to memory that is no DRAM, with no poison, read back. -/
theorem readBytes_writeSector {s : State} {a : Nat} {bs : List Byte} (hm : isMemory a = true) (hd : isDram a = false) :
    readBytes (writeSector s a bs false) a bs.length = bs := by
  have hwrite : ∃ s0 p, writeSector s a bs false = setSectorPoison (writeBytes s0 a bs) a p := by
    unfold writeSector
    rw [if_neg (by simp [deadSub, hd]), if_neg (by simp [hm])]
    dsimp only
    rw [if_neg (by simp [hd]), if_pos (by simp [hd])]
    exact ⟨_, _, rfl⟩
  obtain ⟨s0, p, hwrite⟩ := hwrite
  rw [hwrite]
  refine List.ext_getElem (by simp [readBytes]) fun i hi hi' => ?_
  have hread : readByte (setSectorPoison (writeBytes s0 a bs) a p) (a + i) = readByte (writeBytes s0 a bs) (a + i) := rfl
  simp only [readBytes, List.getElem_map, List.getElem_range]
  rw [hread, readByte_writeBytes, if_pos (by omega), Nat.add_sub_cancel_left, List.getD_eq_getElem _ _ hi']

/-- A range inside one sector is one piece. -/
theorem sectorPieces_of_one {a k : Nat} (hk : 0 < k) (ha : a % 32 + k ≤ 32) : sectorPieces a k k = [(a, k)] := by
  obtain ⟨j, rfl⟩ := Nat.exists_eq_succ_of_ne_zero (Nat.ne_of_gt hk)
  have hmin : Nat.min (j + 1) (32 - a % 32) = j + 1 := Nat.min_eq_left (by omega)
  have hnil : ∀ fuel b, sectorPieces b fuel 0 = [] := fun fuel b => by cases fuel <;> rfl
  simp only [sectorPieces, hmin, Nat.succ_eq_add_one, Nat.sub_self, hnil]

/-- An element of whole bytes that lies in one sector is one write of a cell's store (R92). -/
theorem putStoreBits_of_bytes (s : State) {cell base i k : Nat} (v : Nat) (hk : 0 < k)
    (ha : (cellStoreAt cell + base + i * k) % 32 + k ≤ 32) :
    putStoreBits s cell base (i * (8 * k)) (8 * k) v false =
      writeSector s (cellStoreAt cell + base + i * k) (leBytes k v) false := by
  have hbyte : i * (8 * k) / 8 = i * k := by rw [Nat.mul_left_comm]; exact Nat.mul_div_cancel_left _ (by decide)
  have hwhole : slice (leBytes k v) 0 k = leBytes k v := by simp [slice, padTo]
  unfold putStoreBits putBitsBy
  rw [if_neg (by omega), Nat.mul_div_cancel_left k (by decide), hbyte, sectorPieces_of_one hk ha]
  simp only [List.foldl_cons, List.foldl_nil, Nat.sub_self, hwhole]

/-! ### The value stored -/

/-- A format that holds poison in its encoding stores a poisoned value as such an encoding, and flags no sector (R95). -/
theorem storedAs_of_coded {e : Elem} {f : FpFmt} (hf : fpFmt e.fmt = some f) (hc : hasPoisonCode e.fmt = true) :
    storedAs e =
      (if e.poison then (if f.isPoison e.bits.toNat then e.bits.toNat else f.poisonBits) else e.bits.toNat, false) := by
  unfold storedAs
  cases e.poison with
  | false => rfl
  | true =>
    simp only [Bool.not_true, Bool.false_eq_true, if_false, hf, hc, if_true]

/-- The formats that a cell's arithmetic drains to: a coded floating-point format of 1, 2, 4 or 8 bytes. -/
theorem fpFmt_of_le_five {n : Nat} (h : n ≤ 5) : hasPoisonCode n = true ∧ (∃ f, fpFmt n = some f) ∧
    ∃ k, (k = 1 ∨ k = 2 ∨ k = 4 ∨ k = 8) ∧ fmtBits n = 8 * k := by
  refine ⟨by simp [hasPoisonCode, h], ?_⟩
  interval_cases n
  · exact ⟨⟨_, rfl⟩, 8, by decide, rfl⟩
  · exact ⟨⟨_, rfl⟩, 4, by decide, rfl⟩
  · exact ⟨⟨_, rfl⟩, 2, by decide, rfl⟩
  · exact ⟨⟨_, rfl⟩, 2, by decide, rfl⟩
  · exact ⟨⟨_, rfl⟩, 1, by decide, rfl⟩
  · exact ⟨⟨_, rfl⟩, 1, by decide, rfl⟩

/-- A store's element that starts at a multiple of its own size lies in one sector. -/
theorem within_sector {cell base i k : Nat} (hk : k = 1 ∨ k = 2 ∨ k = 4 ∨ k = 8) (hb : base % 8 = 0) :
    (cellStoreAt cell + base + i * k) % 32 + k ≤ 32 := by
  have hbase : cellStoreBase % 32 = 0 := by decide
  unfold cellStoreAt
  rcases hk with rfl | rfl | rfl | rfl <;> omega

/-! ### DRAIN -/

/-- What a drained value is stored as, in a format of whole bytes that holds poison in its encoding. -/
def drainedBits (fmt : Nat) (d : Drained) : Nat :=
  if d.poison then
    (if (fpFmt fmt).any (fun w => w.isPoison (d.bits % 2 ^ 64)) then d.bits else ((fpFmt fmt).map (·.poisonBits)).getD 0)
  else d.bits

section Drain

variable {s : State} {cell : Nat} {x : Ctx}

/-- A result whose place is in the cell's store: it reads back as it is stored, and the cell stands (R65, R92, R95). -/
theorem drainEmit_stores (hc : cell < Config.numCells) (hx : x.ddestStore = true) (hf : x.dfmt ≤ 5) (hb : x.destBase % 8 = 0)
    {n : Nat} (hroom : x.destBase + (n + 1) * 8 ≤ 16384) (d : Drained) :
    (drainEmit cell x x.dfmt n d s).cells = s.cells ∧
      leNat (readBytes (drainEmit cell x x.dfmt n d s) (cellStoreAt cell + x.destBase + n * (fmtBits x.dfmt / 8))
        (fmtBits x.dfmt / 8)) = drainedBits x.dfmt d % 2 ^ fmtBits x.dfmt := by
  obtain ⟨hcode, ⟨f, hfmt⟩, k, hk, hbits⟩ := fpFmt_of_le_five hf
  have hk8 : fmtBits x.dfmt / 8 = k := by rw [hbits]; exact Nat.mul_div_cancel_left k (by decide)
  have hpos : 0 < k := by omega
  have hsmall : n * k ≤ n * 8 := Nat.mul_le_mul_left n (by omega)
  have hkind : addrKind (cellStoreAt cell + x.destBase + n * k) = .cellStore := by
    rw [Nat.add_assoc]
    exact addrKind_cellStore hc (by omega)
  have hmem : isMemory (cellStoreAt cell + x.destBase + n * k) = true := by rw [isMemory, hkind]
  have hdram : isDram (cellStoreAt cell + x.destBase + n * k) = false := by
    rw [Nat.add_assoc]
    exact isDram_cellStore ..
  have hemit : ∃ v, drainEmit cell x x.dfmt n d s =
      writeSector s (cellStoreAt cell + x.destBase + n * k) (leBytes k v) false ∧
        v % 2 ^ (8 * k) = drainedBits x.dfmt d % 2 ^ (8 * k) := by
    refine ⟨if d.poison then (if f.isPoison (d.bits % 2 ^ 64) then d.bits % 2 ^ 64 else f.poisonBits)
      else d.bits % 2 ^ 64, ?_, ?_⟩
    · unfold drainEmit
      dsimp only
      rw [if_pos hx, storedAs_of_coded hfmt hcode, hbits, putStoreBits_of_bytes s _ hpos (within_sector hk hb)]
      rfl
    · have hcut : d.bits % 2 ^ 64 % 2 ^ (8 * k) = d.bits % 2 ^ (8 * k) :=
        Nat.mod_mod_of_dvd _ (Nat.pow_dvd_pow 2 (by omega))
      simp only [drainedBits, hfmt, Option.any_some, Option.map_some, Option.getD_some]
      split
      · split
        · exact hcut
        · rfl
      · exact hcut
  obtain ⟨v, hemit, hv⟩ := hemit
  rw [hemit, hk8, hbits, ← hv]
  refine ⟨by rw [writeSector_onlyMem], ?_⟩
  have hread := readBytes_writeSector (s := s) (bs := leBytes k v) hmem hdram
  rw [leBytes_length] at hread
  rw [hread, leNat_leBytes, Nat.pow_mul]

/-- DRAIN of one wide result. -/
theorem exec_drain_wide {e : Elem} {r : List Elem} (hc : cell < Config.numCells) (hw : cellRuns s cell = true)
    (hx : (getCell s cell).act.dsrc = 2) (hraw : (getCell s cell).act.raw = false) (hf : (getCell s cell).act.dfmt ≤ 5)
    (hq : (getCell s cell).wideq = e :: r) (resid : Nat) :
    exec (.drain cell resid) s = .next (drainOne cell (getCell s cell).act
      (modCell s cell fun d => { d with wideq := d.wideq.drop 1 })
      (wideAt (getCell s cell).drainN (wideVal (getCell s cell).act e))) := by
  have h9 : (getCell s cell).act.dfmt ≠ 9 := by omega
  have h10 : (getCell s cell).act.dfmt ≠ 10 := by omega
  show execDrain cell resid s = _
  unfold execDrain
  rw [guardUnit_cell hc]
  simp [hw, hx, drainWide, h9, h10, hq, hraw]

/-- One value through the drain, rounded to nearest even into a format of Table 3.2. -/
theorem drainOne_rne (hm : x.drmode = 0) (hf : x.dfmt ≤ 5) (i : DrainIn) :
    drainOne cell x s i =
      drainEmit cell x x.dfmt (getCell s cell).drainN
        (drainTo x.dfmt .rne (drainForm x (getCell s cell) i).1 (drainForm x (getCell s cell) i).2)
        (modCell s cell fun k =>
          { k with
            drainN := k.drainN + 1,
            counts := bumpCounts k.counts
              (drainTo x.dfmt .rne (drainForm x (getCell s cell) i).1 (drainForm x (getCell s cell) i).2).counts }) := by
  unfold drainOne
  simp [hm, show x.dfmt ≠ 11 by omega]

end Drain

end Sys2Proof.Machine
end

section
/-!
PROOF. The statement about cells, clause by clause: what each row's equation leaves to be read in the cell (R48 to R72, R127 to
R140).
-/

namespace Sys2Proof.Machine

open Sys2Proof

section Clauses

variable {s : State} {cell : Nat} {e a b : Elem} {r : List Elem}

/-- STREAMED_OPERAND (R48, R54): each position of the element's row takes one product, the others stand. -/
theorem streamedOperand_adds_row (hc : cell < Config.numCells) (hw : cellRuns s cell = true)
    (hen : (getCell s cell).act.tileEn = true) (hrole : (getCell s cell).act.role = 0 ∨ (getCell s cell).act.role = 1)
    (ht : (getCell s cell).act.transposed = false) (hst : (getCell s cell).act.streamFromStore = false)
    (hq : tget [] (getCell s cell).inq 0 = e :: r)
    (hn : (getCell s cell).kDone % ((getCell s cell).act.kLen * 4) + 1 < (getCell s cell).act.kLen * 4) :
    Answers (.streamedOperand cell) s fun t =>
      (getCell t cell).kDone = (getCell s cell).kDone + 1 ∧ tget [] (getCell t cell).inq 0 = r ∧
      (getCell t cell).banks = (getCell s cell).banks ∧
      ∀ p, tget AccRun.empty (getCell t cell).tile p =
        if p / 8 = (getCell s cell).kDone % ((getCell s cell).act.kLen * 4) % 4
        then tileTerm (getCell s cell).act.intTile (tget AccRun.empty (getCell s cell).tile p)
          (statTerm s cell (getCell s cell).act e ((getCell s cell).kDone % ((getCell s cell).act.kLen * 4) / 4) (p % 8))
        else tget AccRun.empty (getCell s cell).tile p := by
  refine ⟨_, exec_streamedOperand_forward hc hw hen hrole ht, ?_⟩
  rw [forwardElement_of_arrived hrole hst hq hn]
  dsimp only
  rw [getCell_modCell, if_pos rfl, getCell_countAct, getCell_takeHeads]
  exact ⟨rfl, by simp [hq], rfl, fun p => tget_addTerms_row ..⟩

/-- BANK_LOAD (R65, R130): the pair stands in the next entry bit for bit. -/
theorem bankLoad_fills_entry (hc : cell < Config.numCells) (hw : cellRuns s cell = true)
    (hen : (getCell s cell).act.tileEn = true) (hrole : (getCell s cell).act.role = 5)
    (hst : (getCell s cell).act.streamFromStore = false) (hq : tget [] (getCell s cell).inq 0 = a :: b :: r) :
    Answers (.bankLoad cell) s fun t =>
      bankEntry (getCell t cell) (getCell s cell).act.tileBank ((getCell s cell).kDone % 32) =
        { s := a.bits.setWidth 32, e := b.bits.setWidth 32, poison := rawPoison a } ∧
      (getCell t cell).kDone = (getCell s cell).kDone + 1 ∧ tget [] (getCell t cell).inq 0 = r := by
  refine ⟨_, exec_bankLoad_of_arrived hc hw hen hrole hst hq, ?_⟩
  dsimp only
  rw [getCell_modCell, if_pos rfl, getCell_takeHeads]
  refine ⟨?_, rfl, by simp [setBankEntry, hq]⟩
  exact (bankEntry_setBankEntry ..).trans (if_pos rfl)

/-- REDUCTION_TERM of a term (R61, R127): its own sum takes it, the others stand. -/
theorem reductionTerm_enters (hc : cell < Config.numCells) (hw : cellRuns s cell = true) (hq : (getCell s cell).redq = e :: r)
    (hred : (getCell s cell).act.red = 1 ∨ (getCell s cell).act.red = 2) (entry : Nat) :
    Answers (.reductionTerm cell entry) s fun t =>
      (getCell t cell).redq = r ∧
      (∀ k, k ≠ redKey (getCell s cell).act entry →
        tget AccRun.empty (getCell t cell).red k = tget AccRun.empty (getCell s cell).red k) ∧
      tget AccRun.empty (getCell t cell).red (redKey (getCell s cell).act entry) =
        (tget AccRun.empty (getCell s cell).red (redKey (getCell s cell).act entry)).term
          (if (getCell s cell).act.red = 2 then fp64 else fp32) (termVal e) := by
  refine ⟨_, exec_reductionTerm_term hc hw hq hred entry, ?_⟩
  simp only [getCell_afterTerms, hq, List.drop_succ_cons, List.drop_zero, tget_tput, if_true, true_and, and_true]
  intro k hk
  rw [if_neg hk]

/-- REDUCTION_TERM of a pair (R129, R130). -/
theorem reductionTerm_enters_leaf (hc : cell < Config.numCells) (hw : cellRuns s cell = true)
    (hq : (getCell s cell).redq = a :: b :: r) (hred : (getCell s cell).act.red = 4) (entry : Nat) :
    Answers (.reductionTerm cell entry) s fun t => (getCell t cell).redq = r ∧
      tget AccRun.empty (getCell t cell).red (entry % 32) = (tget AccRun.empty (getCell s cell).red (entry % 32)).leaf fp32
        ⟨if rawPoison a then BitVec.ofNat 64 fp32.poisonBits else a.bits, b.bits⟩ := by
  refine ⟨_, exec_reductionTerm_pair hc hw hq hred entry, ?_⟩
  simp only [getCell_afterTerms, hq, List.drop_succ_cons, List.drop_zero, tget_tput, if_true, true_and]

/-- The entry leads the list of RED_BANK, which is otherwise blank (R139). -/
def LeadsList (x : Ctx) (n : Entry) (c : Cell) : Prop :=
  c.topkSeen = 1 ∧ c.topkHeld = 1 ∧ bankEntry c x.redBank 0 = n ∧
    ∀ i, 0 < i → i < x.topkK → bankEntry c x.redBank i = Entry.blank

/-- TOPK_ELEMENT of a stage's first element (R137 to R139). -/
theorem topkElement_leads (hc : cell < Config.numCells) (hw : cellRuns s cell = true) (hq : (getCell s cell).redq = e :: r)
    (hraw : e.raw = false) (hred : (getCell s cell).act.red = 3) (hseen : (getCell s cell).topkSeen = 0)
    (hadd : (getCell s cell).act.redAdd = false) (hk : 0 < (getCell s cell).act.topkK) :
    Answers (.topkElement cell) s fun t => (getCell t cell).redq = r ∧
      LeadsList (getCell s cell).act (topkEntry (getCell s cell).act 0 e) (getCell t cell) := by
  refine ⟨_, exec_topkElement_element hc hw hq hraw hred, ?_⟩
  dsimp only
  rw [getCell_afterTerms, hq, hseen]
  obtain ⟨h1, h2, h3, h4, h5⟩ := topkJoin_first (c := { getCell s cell with redq := r }) hseen hadd hk
    (topkEntry (getCell s cell).act 0 e)
  exact ⟨h3, h1, h2, h4, h5⟩

/-- TOPK_ELEMENT of a list's first pair (R140): a filler passes by. -/
theorem topkElement_pair_leads (hc : cell < Config.numCells) (hw : cellRuns s cell = true)
    (hq : (getCell s cell).redq = a :: b :: r) (hraw : a.raw = true) (hred : (getCell s cell).act.red = 3)
    (hseen : (getCell s cell).topkSeen = 0) (hadd : (getCell s cell).act.redAdd = false)
    (hk : 0 < (getCell s cell).act.topkK) {n : Entry}
    (hn : n = { s := a.bits.setWidth 32, e := b.bits.setWidth 32, poison := false, mark := a.poison }) :
    Answers (.topkElement cell) s fun t => (getCell t cell).redq = r ∧
      (n ≠ Entry.blank → LeadsList (getCell s cell).act n (getCell t cell)) ∧
      (n = Entry.blank → (getCell t cell).topkSeen = 0 ∧ (getCell t cell).banks = (getCell s cell).banks) := by
  refine ⟨_, exec_topkElement_pair hc hw hq hraw hred, ?_⟩
  dsimp only
  rw [getCell_afterTerms, hq, ← hn]
  by_cases hb : n = Entry.blank
  · rw [if_pos (by simpa using hb)]
    exact ⟨rfl, fun h => absurd hb h, fun _ => ⟨hseen, rfl⟩⟩
  · rw [if_neg (by simpa using hb)]
    obtain ⟨h1, h2, h3, h4, h5⟩ := topkJoin_first (c := { getCell s cell with redq := r }) hseen hadd hk n
    exact ⟨h3, fun _ => ⟨h1, h2, h4, h5⟩, fun h => absurd h hb⟩

/-- ELEMENT_CHAIN of a word whose results no route takes (R56 to R60). -/
theorem elementChain_keeps_results {ins : List LaneIn} {u : State} (hc : cell < Config.numCells) (hw : cellRuns s cell = true)
    (hlen : (getCell s cell).act.chainLen ≠ 0) (hlegs : ∀ l ∈ (getCell s cell).act.legs, l.src ≠ 6)
    (ht : takeWide s cell (getCell s cell).act = some (ins, u)) :
    Answers (.elementChain cell) s fun t =>
      getCell t cell = afterChain (getCell s cell).act (runChain (getCell s cell).act (getCell u cell) ins) := by
  obtain ⟨k, hrow⟩ := exec_elementChain_unrouted hc hw hlen hlegs ht
  exact ⟨_, hrow, (getCell_setCell ..).trans (if_pos rfl)⟩

/-- DRAIN of one wide result into the cell's store (R65, R67 to R72, R95). -/
theorem drain_stores (resid : Nat) (hc : cell < Config.numCells) (hw : cellRuns s cell = true)
    (hx : (getCell s cell).act.dsrc = 2) (hraw : (getCell s cell).act.raw = false) (hf : (getCell s cell).act.dfmt ≤ 5)
    (hm : (getCell s cell).act.drmode = 0) (hstore : (getCell s cell).act.ddestStore = true)
    (hq : (getCell s cell).wideq = e :: r) (hb : (getCell s cell).act.destBase % 8 = 0)
    (hroom : (getCell s cell).act.destBase + ((getCell s cell).drainN + 1) * 8 ≤ 16384) {f : Val × Bool}
    (hform : f = drainForm (getCell s cell).act (getCell s cell)
      (wideAt (getCell s cell).drainN (wideVal (getCell s cell).act e))) :
    Answers (.drain cell resid) s fun t =>
      (getCell t cell).drainN = (getCell s cell).drainN + 1 ∧ (getCell t cell).wideq = r ∧
      (getCell t cell).counts = bumpCounts (getCell s cell).counts (drainTo (getCell s cell).act.dfmt .rne f.1 f.2).counts ∧
      leNat (readBytes t
          (cellStoreAt cell + (getCell s cell).act.destBase + (getCell s cell).drainN * (fmtBits (getCell s cell).act.dfmt / 8))
          (fmtBits (getCell s cell).act.dfmt / 8)) =
        drainedBits (getCell s cell).act.dfmt (drainTo (getCell s cell).act.dfmt .rne f.1 f.2) %
          2 ^ fmtBits (getCell s cell).act.dfmt := by
  refine ⟨_, exec_drain_wide hc hw hx hraw hf hq resid, ?_⟩
  rw [drainOne_rne hm hf]
  obtain ⟨hcells, hread⟩ := drainEmit_stores (s := modCell (modCell s cell fun d => { d with wideq := d.wideq.drop 1 }) cell
      fun k => { k with
        drainN := k.drainN + 1,
        counts := bumpCounts k.counts (drainTo (getCell s cell).act.dfmt .rne f.1 f.2).counts })
    hc hstore hf hb hroom (drainTo (getCell s cell).act.dfmt .rne f.1 f.2)
  have hsame : drainForm (getCell s cell).act (getCell (modCell s cell fun d => { d with wideq := d.wideq.drop 1 }) cell)
      (wideAt (getCell s cell).drainN (wideVal (getCell s cell).act e)) = f := by
    rw [hform, getCell_modCell, if_pos rfl]
    rfl
  have hcount : (getCell (modCell s cell fun d => { d with wideq := d.wideq.drop 1 }) cell).drainN = (getCell s cell).drainN := by
    rw [getCell_modCell, if_pos rfl]
  rw [hsame, hcount]
  refine ⟨?_, ?_, ?_, hread⟩
  · rw [getCell_congr hcells]; simp
  · rw [getCell_congr hcells]; simp [hq]
  · rw [getCell_congr hcells]; simp

end Clauses

/-- Settles O51: each clause is the equation of its row, read in the cell. -/
theorem cellsWorkElementByElement : Obligations.CellsWorkElementByElement := by
  unfold Obligations.CellsWorkElementByElement
  intro s cell entry resid e a b r ins u hc
  dsimp only
  refine ⟨fun hr => cellRows_still hc hr entry resid, ?operand,
    fun hw hen hrole hst hq => bankLoad_fills_entry hc hw hen hrole hst hq,
    fun hw hq hred => reductionTerm_enters hc hw hq hred entry,
    fun hw hq hred => reductionTerm_enters_leaf hc hw hq hred entry, ?element, ?pair, ?chain,
    fun hw hlen ht => exec_elementChain_waiting hc hw hlen ht, ?drain⟩
  case operand =>
    intro hw hen hrole ht hst hq hn
    obtain ⟨t, hrow, hk, hin, hbanks, htile⟩ := streamedOperand_adds_row hc hw hen hrole ht hst hq hn
    refine ⟨t, hrow, hk, hin, hbanks, fun p _ => ?_⟩
    rw [htile]
    rcases hrole with h | h <;> simp [statTerm, statIndex, h]
  case element =>
    intro hw hq hraw ⟨hred, hseen, hadd, hk, _⟩
    simpa [LeadsList, topkEntry] using topkElement_leads hc hw hq hraw hred hseen hadd hk
  case pair =>
    intro hw hq hraw ⟨hred, hseen, hadd, hk, _⟩
    exact topkElement_pair_leads hc hw hq hraw hred hseen hadd hk rfl
  case chain =>
    intro hw hlen hlegs ht
    obtain ⟨t, hrow, hcell⟩ := elementChain_keeps_results hc hw hlen hlegs ht
    refine ⟨t, hrow, ?_⟩
    dsimp only
    rw [hcell]
    exact ⟨rfl, (runChain_onlyQ ..).chainN, rfl, rfl⟩
  case drain =>
    intro hw hx hraw hf hm hstore hq _ hb hroom _
    exact drain_stores resid hc hw hx hraw hf hm hstore hq hb hroom rfl

end Sys2Proof.Machine
end

section
/-!
PROOF. Sums in progress and the reference order (R127): the open nodes of a running sum carry the root of the tree, and its open
chunk the sum of the terms since the last node.
-/

namespace Sys2Proof.Machine

open Sys2Proof

/-! ### The open nodes and the tree -/

/-- Pushes a list of finished nodes of one level, the oldest first. -/
def pushAll (f : FpFmt) (lvl : Nat) (ps : List Pair) (ns : List (Nat × Pair)) : List (Nat × Pair) :=
  ps.foldl (fun ns p => pushNode f lvl p ns) ns

/-- The pair of a sum with no open chunk: what `AccRun.result` reads from its open nodes. -/
def rootOf (f : FpFmt) : List (Nat × Pair) → Option Pair
  | [] => none
  | (_, p) :: r => some (foldNodes f p r)

theorem AccRun.result_eq_rootOf (f : FpFmt) (a : AccRun) : a.result f = rootOf f (a.closeChunk f).nodes := by
  unfold AccRun.result
  cases (a.closeChunk f).nodes <;> rfl

/-- A pushed node is the newest, so the root folds from it: whether it met its partner on the way does not matter. -/
theorem rootOf_pushNode (f : FpFmt) (p : Pair) (ns : List (Nat × Pair)) (lvl : Nat) :
    rootOf f (pushNode f lvl p ns) = some (foldNodes f p ns) := by
  induction ns generalizing lvl p with
  | nil => rfl
  | cons e r ih =>
    obtain ⟨l, q⟩ := e
    unfold pushNode
    split
    · exact ih (combTwo f q p) (lvl + 1)
    · rfl

/-- The newest open node after a push stands at the level of the push or above it. -/
theorem le_level_of_head_pushNode (f : FpFmt) (p : Pair) (ns : List (Nat × Pair)) (lvl : Nat) :
    ∀ e ∈ (pushNode f lvl p ns).head?, lvl ≤ e.1 := by
  induction ns generalizing lvl p with
  | nil => simp [pushNode]
  | cons e r ih =>
    obtain ⟨l, q⟩ := e
    unfold pushNode
    split
    · exact fun e he => Nat.le_of_succ_le (ih (combTwo f q p) (lvl + 1) e he)
    · simp

theorem pushNode_of_head_ne {f : FpFmt} {p : Pair} {ns : List (Nat × Pair)} {lvl : Nat} (h : ∀ e ∈ ns.head?, e.1 ≠ lvl) :
    pushNode f lvl p ns = (lvl, p) :: ns := by
  cases ns with
  | nil => rfl
  | cons e r =>
    obtain ⟨l, q⟩ := e
    exact if_neg (h (l, q) rfl)

/-- Where the newest open node is not of their level, two nodes of a level push as their combination of the next level. -/
theorem pushNode_pushNode {f : FpFmt} {a b : Pair} {ns : List (Nat × Pair)} {lvl : Nat} (h : ∀ e ∈ ns.head?, e.1 ≠ lvl) :
    pushNode f lvl b (pushNode f lvl a ns) = pushNode f (lvl + 1) (combTwo f a b) ns := by
  rw [pushNode_of_head_ne h]
  exact if_pos rfl

/-- One pass of the tree leaves the root as it is: the nodes of a level pushed one by one, and their combinations pushed at the
next level, give the same root. -/
theorem rootOf_pushAll_combLevel (f : FpFmt) (lvl : Nat) (ps : List Pair) (ns : List (Nat × Pair))
    (h : ∀ e ∈ ns.head?, e.1 ≠ lvl) :
    rootOf f (pushAll f lvl ps ns) = rootOf f (pushAll f (lvl + 1) (combLevel f ps) ns) := by
  induction ps using combLevel.induct generalizing ns with
  | case1 a b r ih =>
    have hstep : pushAll f lvl (a :: b :: r) ns = pushAll f lvl r (pushNode f (lvl + 1) (combTwo f a b) ns) :=
      congrArg (pushAll f lvl r) (pushNode_pushNode h)
    rw [hstep]
    exact ih _ fun e he => Nat.ne_of_gt (le_level_of_head_pushNode f _ ns (lvl + 1) e he)
  | case2 l hl =>
    match l with
    | [] => rfl
    | [a] => exact (rootOf_pushNode f a ns lvl).trans (rootOf_pushNode f a ns (lvl + 1)).symm
    | a :: b :: r => exact absurd rfl (hl a b r)

theorem length_combLevel (f : FpFmt) (ps : List Pair) : (combLevel f ps).length = (ps.length + 1) / 2 := by
  induction ps using combLevel.induct with
  | case1 a b r ih => simp only [combLevel, List.length_cons, ih]; omega
  | case2 l hl =>
    match l with
    | [] => rfl
    | [a] => simp [combLevel]
    | a :: b :: r => exact absurd rfl (hl a b r)

/-- With fuel for its levels, the tree of R127 gives the root of the open nodes, whatever level its leaves are given. -/
theorem combTree_eq_rootOf (f : FpFmt) (n lvl : Nat) (ps : List Pair) (h : ps.length ≤ n) :
    combTree f n ps = rootOf f (pushAll f lvl ps []) := by
  induction n generalizing lvl ps with
  | zero => rw [List.length_eq_zero_iff.mp (Nat.le_zero.mp h)]; rfl
  | succ n ih =>
    match ps with
    | [] => rfl
    | [p] => rfl
    | a :: b :: r =>
      have hfuel : (combLevel f (a :: b :: r)).length ≤ n := by
        rw [length_combLevel]
        simp only [List.length_cons] at h ⊢
        omega
      calc combTree f (n + 1) (a :: b :: r)
        _ = combTree f n (combLevel f (a :: b :: r)) := rfl
        _ = rootOf f (pushAll f (lvl + 1) (combLevel f (a :: b :: r)) []) := ih (lvl + 1) _ hfuel
        _ = rootOf f (pushAll f lvl (a :: b :: r) []) := (rootOf_pushAll_combLevel f lvl _ [] (by simp)).symm

/-! ### The open chunk -/

/-- A sum in progress with its open chunk, the number of terms in it and its open nodes; INT8 sums and poison marks apart. -/
structure AccRun.Holds (a : AccRun) (chunk : Option Pair) (inChunk : Nat) (nodes : List (Nat × Pair)) : Prop where
  chunk : a.chunk = chunk
  inChunk : a.inChunk = inChunk
  nodes : a.nodes = nodes

theorem AccRun.Holds.closeChunk_none {a : AccRun} {n : Nat} {ns : List (Nat × Pair)} (h : a.Holds none n ns) (f : FpFmt) :
    (a.closeChunk f).nodes = ns := by
  unfold AccRun.closeChunk
  rw [h.chunk]
  exact h.nodes

theorem AccRun.Holds.closeChunk_some {a : AccRun} {p : Pair} {n : Nat} {ns : List (Nat × Pair)} (h : a.Holds (some p) n ns)
    (f : FpFmt) : (a.closeChunk f).Holds none 0 (pushNode f 0 p ns) := by
  unfold AccRun.closeChunk
  rw [h.chunk, h.nodes]
  exact ⟨rfl, rfl, rfl⟩

theorem AccRun.Holds.term {a : AccRun} {c : Option Pair} {n : Nat} {ns : List (Nat × Pair)} (h : a.Holds c n ns) (hn : n < 31)
    (f : FpFmt) (x : Val) : (a.term f x).Holds (some (accPair f c x)) (n + 1) ns := by
  unfold AccRun.term
  dsimp only
  rw [h.inChunk, if_neg (by omega)]
  exact ⟨by rw [h.chunk], rfl, h.nodes⟩

/-- The 32nd term closes the chunk. -/
theorem AccRun.Holds.term_last {a : AccRun} {c : Option Pair} {ns : List (Nat × Pair)} (h : a.Holds c 31 ns) (f : FpFmt)
    (x : Val) : (a.term f x).Holds none 0 (pushNode f 0 (accPair f c x) ns) := by
  unfold AccRun.term
  dsimp only
  rw [h.inChunk, if_pos rfl, h.chunk]
  refine AccRun.Holds.closeChunk_some (n := 32) ?_ f
  exact ⟨rfl, rfl, h.nodes⟩

/-- Terms that leave the chunk open are summed into it in order. -/
theorem AccRun.Holds.terms {f : FpFmt} {ys : List Val} {a : AccRun} {p : Pair} {n : Nat} {ns : List (Nat × Pair)}
    (h : a.Holds (some p) n ns) (hn : n + ys.length < 32) :
    (ys.foldl (fun a x => a.term f x) a).Holds (some (ys.foldl (fun p y => accPair f (some p) y) p)) (n + ys.length) ns := by
  induction ys generalizing a p n with
  | nil => exact h
  | cons y ys ih =>
    rw [List.length_cons] at hn
    have h' := ih (h.term (by omega) f y) (by omega)
    rwa [Nat.add_assoc, Nat.add_comm 1] at h'

/-- Terms that fill the chunk leave its sum as a node. -/
theorem AccRun.Holds.terms_fill {f : FpFmt} {ys : List Val} {a : AccRun} {p : Pair} {n : Nat} {ns : List (Nat × Pair)}
    (h : a.Holds (some p) n ns) (hn : n + ys.length = 32) (hlt : n < 32) :
    (ys.foldl (fun a x => a.term f x) a).Holds none 0 (pushNode f 0 (ys.foldl (fun p y => accPair f (some p) y) p) ns) := by
  have hne : ys ≠ [] := by
    rintro rfl
    rw [List.length_nil] at hn
    omega
  obtain ⟨zs, z, rfl⟩ : ∃ zs z, ys = zs ++ [z] := ⟨_, _, (List.dropLast_concat_getLast hne).symm⟩
  rw [List.length_append, List.length_singleton] at hn
  rw [List.foldl_append, List.foldl_append]
  have hz := h.terms (f := f) (ys := zs) (by omega)
  rw [show n + zs.length = 31 by omega] at hz
  exact hz.term_last f z

/-- Fed to a sum with no open chunk, a list of terms pushes its chunks as nodes. -/
theorem AccRun.Holds.result_terms {f : FpFmt} {k : Nat} {xs : List Val} {a : AccRun} {ns : List (Nat × Pair)}
    (h : a.Holds none 0 ns) (hk : xs.length ≤ k) :
    (xs.foldl (fun a x => a.term f x) a).result f = rootOf f (pushAll f 0 (chunksOf f k xs) ns) := by
  induction k generalizing xs a ns with
  | zero =>
    rw [List.length_eq_zero_iff.mp (Nat.le_zero.mp hk), AccRun.result_eq_rootOf]
    exact congrArg (rootOf f) (h.closeChunk_none f)
  | succ k ih =>
    match xs with
    | [] =>
      rw [AccRun.result_eq_rootOf]
      exact congrArg (rootOf f) (h.closeChunk_none f)
    | x :: r =>
      have hx : (a.term f x).Holds (some (accPair f none x)) 1 ns := h.term (by omega) f x
      rw [List.length_cons] at hk
      by_cases hr : r.length < 31
      · have hopen := hx.terms (f := f) (ys := r) (by omega)
        rw [AccRun.result_eq_rootOf, List.foldl_cons, (hopen.closeChunk_some f).nodes, chunksOf,
          List.take_of_length_le (by omega), List.drop_of_length_le (by omega)]
        cases k <;> rfl
      · have hfull := hx.terms_fill (f := f) (ys := r.take 31) (by rw [List.length_take]; omega) (by omega)
        have hrest := ih (xs := r.drop 31) hfull (by rw [List.length_drop]; omega)
        rw [← List.foldl_append, List.take_append_drop] at hrest
        exact hrest

/-- Settles O7: the chunks close into the open nodes one by one, and the open nodes keep the root of the tree at every level. -/
theorem runningSumIsReferenceOrder : Obligations.RunningSumIsReferenceOrder := by
  unfold Obligations.RunningSumIsReferenceOrder
  intro f xs
  have hempty : AccRun.empty.Holds none 0 [] := ⟨rfl, rfl, rfl⟩
  rw [hempty.result_terms (Nat.le_refl _), refOrder, combTree_eq_rootOf f _ 0 _ (Nat.le_refl _)]

end Sys2Proof.Machine
end

section
/-!
PROOF. Telemetry as the running controller takes it (R150, Table 4.8): what each kind leaves in the window's totals, read key by
key.
-/

namespace Sys2Proof.Machine

open Sys2Proof

/-! ### Reading the totals -/

@[simp] theorem totalOf_setTotal (k v : Nat) (s : State) (x : Nat) :
    totalOf (setTotal k v s) x = if x = k then v else totalOf s x := by
  simp [totalOf, setTotal]

@[simp] theorem totalOf_keepMax (k v : Nat) (s : State) (x : Nat) :
    totalOf (keepMax k v s) x = if x = k then Nat.max (totalOf s k) v else totalOf s x := by
  simp [keepMax]

@[simp] theorem totalOf_addRise (acc prev new : Nat) (s : State) (x : Nat) :
    totalOf (addRise acc prev new s) x =
      if x = acc then totalOf s acc + (if totalOf s prev ≤ new then new - totalOf s prev else new)
      else if x = prev then new else totalOf s x := by
  simp [addRise]

theorem totalOf_congr {s t : State} (h : t.bb = s.bb) (x : Nat) : totalOf t x = totalOf s x := by
  simp [totalOf, h]

/-! ### What taking telemetry leaves alone -/

/-- Nothing but the window's totals differs. -/
def OnlyTotals (s t : State) : Prop :=
  t = { s with bb := { s.bb with window := { s.bb.window with totals := t.bb.window.totals } } }

theorem OnlyTotals.refl (s : State) : OnlyTotals s s := rfl

theorem OnlyTotals.trans {s t u : State} (h : OnlyTotals s t) (g : OnlyTotals t u) : OnlyTotals s u := by
  unfold OnlyTotals at *
  rw [g, h]

theorem OnlyTotals.ws {s t : State} (h : OnlyTotals s t) : t.ws = s.ws := by rw [h]

theorem OnlyTotals.slots {s t : State} (h : OnlyTotals s t) : t.bb.slots = s.bb.slots := by rw [h]

theorem setTotal_onlyTotals (k v : Nat) (s : State) : OnlyTotals s (setTotal k v s) := rfl

theorem keepMax_onlyTotals (k v : Nat) (s : State) : OnlyTotals s (keepMax k v s) := rfl

theorem addRise_onlyTotals (acc prev new : Nat) (s : State) : OnlyTotals s (addRise acc prev new s) := rfl

theorem foldl_onlyTotals {g : State → Nat → State} (hg : ∀ st j, OnlyTotals st (g st j)) (l : List Nat) (s : State) :
    OnlyTotals s (l.foldl g s) := by
  induction l generalizing s with
  | nil => exact OnlyTotals.refl s
  | cons j l ih => exact (hg s j).trans (ih (g s j))

/-! ### Taking the words one after another -/

/-- A key that no word of the walk writes stands. -/
theorem totalOf_foldl_other {g : State → Nat → State} {x : Nat} {l : List Nat}
    (hg : ∀ j ∈ l, ∀ st, totalOf (g st j) x = totalOf st x) (s : State) : totalOf (l.foldl g s) x = totalOf s x := by
  induction l generalizing s with
  | nil => rfl
  | cons j l ih =>
    exact (ih (fun i hi => hg i (List.mem_cons_of_mem j hi)) (g s j)).trans (hg j List.mem_cons_self s)

/-- Keys that of a walk's words only `k` writes read after it as after word `k` alone. -/
theorem totalOf_foldl_at {g : State → Nat → State} {own : Nat → Prop} {k : Nat} {l : List Nat} (hk : k ∈ l) (hl : l.Nodup)
    (hg : ∀ j ∈ l, j ≠ k → ∀ x, own x → ∀ st, totalOf (g st j) x = totalOf st x) (s : State) :
    ∃ u, (∀ x, own x → totalOf u x = totalOf s x) ∧ ∀ x, own x → totalOf (l.foldl g s) x = totalOf (g u k) x := by
  obtain ⟨a, b, rfl⟩ := List.append_of_mem hk
  obtain ⟨-, hkb, hab⟩ := List.nodup_append.mp hl
  have hb : ∀ j ∈ b, j ≠ k := fun j hj h => (List.nodup_cons.mp hkb).1 (h ▸ hj)
  have ha : ∀ j ∈ a, j ≠ k := fun j hj => hab j hj k List.mem_cons_self
  refine ⟨a.foldl g s, fun x hx => totalOf_foldl_other (fun j hj => hg j (by simp [hj]) (ha j hj) x hx) s, fun x hx => ?_⟩
  rw [List.foldl_append, List.foldl_cons]
  exact totalOf_foldl_other (fun j hj => hg j (by simp [hj]) (hb j hj) x hx) _

/-- The rises of a message's cumulative counts: each is added at its place, and the count kept for the next message. -/
theorem totalOf_foldl_addRise {n k : Nat} {acc prev new : Nat → Nat} (hk : k < n) (hacc : Function.Injective acc)
    (hprev : Function.Injective prev) (hne : ∀ i < n, ∀ j < n, acc i ≠ prev j) (s : State) :
    let t := (List.range n).foldl (fun st j => addRise (acc j) (prev j) (new j) st) s
    totalOf t (acc k) = totalOf s (acc k) + (if totalOf s (prev k) ≤ new k then new k - totalOf s (prev k) else new k) ∧
      totalOf t (prev k) = new k := by
  obtain ⟨u, hu, ht⟩ := totalOf_foldl_at (g := fun st j => addRise (acc j) (prev j) (new j) st)
    (own := fun x => x = acc k ∨ x = prev k) (List.mem_range.mpr hk) List.nodup_range (fun j hj hjk x hx st => by
      have hj := List.mem_range.mp hj
      rw [totalOf_addRise]
      obtain rfl | rfl := hx
      · rw [if_neg (hacc.ne hjk.symm), if_neg (hne k hk j hj)]
      · rw [if_neg (hne j hj k hk).symm, if_neg (hprev.ne hjk.symm)]) s
  have hpk : prev k ≠ acc k := (hne k hk k hk).symm
  constructor
  · rw [ht _ (.inl rfl), totalOf_addRise, if_pos rfl, hu _ (.inl rfl), hu _ (.inr rfl)]
  · rw [ht _ (.inr rfl), totalOf_addRise, if_neg hpk, if_pos rfl]

/-- Six-bit fields packed from the lowest up read back one by one. -/
theorem packed_fields {d : Nat → Nat} (hd : ∀ i, d i < 64) (n : Nat) :
    let v := (List.range n).foldl (fun v i => v + d i * 2 ^ (6 * i)) 0
    v < 2 ^ (6 * n) ∧ ∀ i < n, v / 2 ^ (6 * i) % 64 = d i := by
  induction n with
  | zero => simp
  | succ n ih =>
    obtain ⟨hlt, hat⟩ := ih
    dsimp only
    rw [List.range_succ, List.foldl_append, List.foldl_cons, List.foldl_nil]
    generalize (List.range n).foldl (fun v i => v + d i * 2 ^ (6 * i)) 0 = v at hlt hat
    refine ⟨?_, fun i hi => ?_⟩
    · have := Nat.mul_le_mul_right (2 ^ (6 * n)) (Nat.le_of_lt_succ (hd n))
      rw [Nat.mul_succ, Nat.pow_add]
      omega
    · obtain rfl | hin := Nat.eq_or_lt_of_le (Nat.le_of_lt_succ hi)
      · rw [Nat.add_mul_div_right _ _ (Nat.two_pow_pos _), Nat.div_eq_of_lt hlt, Nat.zero_add, Nat.mod_eq_of_lt (hd i)]
      · obtain ⟨m, rfl⟩ : ∃ m, n = i + 1 + m := ⟨n - (i + 1), by omega⟩
        have hsplit : d (i + 1 + m) * 2 ^ (6 * (i + 1 + m)) = d (i + 1 + m) * 2 ^ (6 * m) * 64 * 2 ^ (6 * i) := by
          rw [show 6 * (i + 1 + m) = 6 * m + 6 + 6 * i by omega, Nat.pow_add, Nat.pow_add]
          ring
        rw [hsplit, Nat.add_mul_div_right _ _ (Nat.two_pow_pos _), Nat.add_mul_mod_self_right, hat i hin]

/-! ### Lanes -/

/-- One lane's byte of LANE_HEALTH, as `takeLanes4` takes it. -/
def takeLane (w : List Nat) (lo p : Nat) (st : State) (l : Nat) : State :=
  let b := lget 0xFF w (lo + l)
  if b = 0xFF then st
  else
    let g := b / 32
    let old := totalOf st (4000 + 20 * p + l)
    let st1 := if old = 0 || g + 1 < old then setTotal (4000 + 20 * p + l) (g + 1) st else st
    keepMax (4300 + 20 * p + l) (b % 32) st1

theorem takeLanes4_of_absent {w : List Nat} {i : Nat} (h : 10 ≤ lget 0xFF w i) (lo un : Nat) (s : State) :
    takeLanes4 w i lo un s = s := if_pos h

theorem takeLanes4_of_port {w : List Nat} {i : Nat} (h : lget 0xFF w i < 10) (lo un : Nat) (s : State) :
    takeLanes4 w i lo un s = addRise (4600 + lget 0xFF w i) (30000 + lget 0xFF w i) (lget 0 w un)
      ((List.range 20).foldl (takeLane w lo (lget 0xFF w i)) s) := if_neg (Nat.not_le.mpr h)

/-- A lane without a reading changes nothing. -/
theorem takeLane_of_none {w : List Nat} {lo l : Nat} (h : lget 0xFF w (lo + l) = 0xFF) (p : Nat) (st : State) :
    takeLane w lo p st l = st := if_pos h

/-- A lane's reading is kept as the highest FEC field and, where it is worse, as the worst grade plus 1. -/
theorem totalOf_takeLane {w : List Nat} {lo l : Nat} (h : lget 0xFF w (lo + l) ≠ 0xFF) (p : Nat) (st : State) (x : Nat) :
    totalOf (takeLane w lo p st l) x =
      if x = 4300 + 20 * p + l then Nat.max (totalOf st (4300 + 20 * p + l)) (lget 0xFF w (lo + l) % 32)
      else if x = 4000 + 20 * p + l then
        (if totalOf st (4000 + 20 * p + l) = 0 ∨ lget 0xFF w (lo + l) / 32 + 1 < totalOf st (4000 + 20 * p + l)
          then lget 0xFF w (lo + l) / 32 + 1 else totalOf st (4000 + 20 * p + l))
      else totalOf st x := by
  unfold takeLane
  dsimp only
  rw [if_neg h, totalOf_keepMax]
  have hne : 4300 + 20 * p + l ≠ 4000 + 20 * p + l := by omega
  simp only [Bool.or_eq_true, decide_eq_true_eq]
  by_cases hworse : totalOf st (4000 + 20 * p + l) = 0 ∨ lget 0xFF w (lo + l) / 32 + 1 < totalOf st (4000 + 20 * p + l)
  · rw [if_pos hworse, if_pos hworse, totalOf_setTotal, totalOf_setTotal, if_neg hne]
  · rw [if_neg hworse, if_neg hworse]
    by_cases hx : x = 4000 + 20 * p + l
    · rw [if_pos hx, hx]
    · rw [if_neg hx]

/-- The keys of the totals that LANE_HEALTH keeps of port `p`. -/
def LaneKey (p x : Nat) : Prop :=
  x = 4600 + p ∨ x = 30000 + p ∨ (4000 + 20 * p ≤ x ∧ x < 4020 + 20 * p) ∨ (4300 + 20 * p ≤ x ∧ x < 4320 + 20 * p)

theorem totalOf_takeLane_other {w : List Nat} {lo l p x : Nat} (h1 : x ≠ 4300 + 20 * p + l)
    (h2 : x ≠ 4000 + 20 * p + l) (st : State) : totalOf (takeLane w lo p st l) x = totalOf st x := by
  by_cases h : lget 0xFF w (lo + l) = 0xFF
  · rw [takeLane_of_none h]
  · rw [totalOf_takeLane h, if_neg h1, if_neg h2]

theorem takeLane_onlyTotals (w : List Nat) (lo p : Nat) (st : State) (l : Nat) : OnlyTotals st (takeLane w lo p st l) := by
  unfold takeLane
  dsimp only
  split
  · exact OnlyTotals.refl st
  · split
    · exact (setTotal_onlyTotals ..).trans (keepMax_onlyTotals ..)
    · exact keepMax_onlyTotals ..

theorem takeLanes4_onlyTotals (w : List Nat) (i lo un : Nat) (s : State) : OnlyTotals s (takeLanes4 w i lo un s) := by
  by_cases h : lget 0xFF w i < 10
  · rw [takeLanes4_of_port h]
    exact (foldl_onlyTotals (takeLane_onlyTotals w lo _) _ s).trans (addRise_onlyTotals ..)
  · rw [takeLanes4_of_absent (Nat.not_lt.mp h)]
    exact OnlyTotals.refl s

/-- The lanes of one port leave the totals of another. -/
theorem totalOf_takeLanes4_other {w : List Nat} {i p x : Nat} (hp : p < 10) (hx : LaneKey p x) (hne : lget 0xFF w i ≠ p)
    (lo un : Nat) (s : State) : totalOf (takeLanes4 w i lo un s) x = totalOf s x := by
  unfold LaneKey at hx
  by_cases h : lget 0xFF w i < 10
  · rw [takeLanes4_of_port h, totalOf_addRise, if_neg (by omega), if_neg (by omega)]
    refine totalOf_foldl_other (fun l hl st => ?_) s
    have hl := List.mem_range.mp hl
    exact totalOf_takeLane_other (by omega) (by omega) st
  · rw [takeLanes4_of_absent (Nat.not_lt.mp h)]

section Lanes

variable {w : List Nat} {i : Nat} (hp : lget 0xFF w i < 10)

include hp

/-- A port's uncorrectable count rises by what came since its last message. -/
theorem totalOf_takeLanes4_uncorr (lo un : Nat) (s : State) :
    totalOf (takeLanes4 w i lo un s) (4600 + lget 0xFF w i) = totalOf s (4600 + lget 0xFF w i) +
      (if totalOf s (30000 + lget 0xFF w i) ≤ lget 0 w un then lget 0 w un - totalOf s (30000 + lget 0xFF w i) else lget 0 w un) := by
  have hkeep : ∀ x, (4600 ≤ x) → totalOf ((List.range 20).foldl (takeLane w lo (lget 0xFF w i)) s) x = totalOf s x := by
    refine fun x hx => totalOf_foldl_other (fun l hl st => ?_) s
    have hl := List.mem_range.mp hl
    exact totalOf_takeLane_other (by omega) (by omega) st
  rw [takeLanes4_of_port hp, totalOf_addRise, if_pos rfl, hkeep _ (by omega), hkeep _ (by omega)]

/-- A lane's two totals read as after its own byte alone. -/
theorem totalOf_takeLanes4_lane {l : Nat} (hl : l < 20) (lo un : Nat) (s : State) :
    ∃ u, (∀ x, (x = 4300 + 20 * lget 0xFF w i + l ∨ x = 4000 + 20 * lget 0xFF w i + l) → totalOf u x = totalOf s x) ∧
      ∀ x, (x = 4300 + 20 * lget 0xFF w i + l ∨ x = 4000 + 20 * lget 0xFF w i + l) →
        totalOf (takeLanes4 w i lo un s) x = totalOf (takeLane w lo (lget 0xFF w i) u l) x := by
  obtain ⟨u, hu, ht⟩ := totalOf_foldl_at (g := takeLane w lo (lget 0xFF w i))
    (own := fun x => x = 4300 + 20 * lget 0xFF w i + l ∨ x = 4000 + 20 * lget 0xFF w i + l)
    (List.mem_range.mpr hl) List.nodup_range (fun j hj hjl x hx st => by
      have hj := List.mem_range.mp hj
      exact totalOf_takeLane_other (by omega) (by omega) st) s
  refine ⟨u, hu, fun x hx => ?_⟩
  rw [takeLanes4_of_port hp, totalOf_addRise, if_neg (by omega), if_neg (by omega)]
  exact ht x hx

theorem totalOf_takeLanes4_of_none {l : Nat} (hl : l < 20) {lo : Nat} (hb : lget 0xFF w (lo + l) = 0xFF) (un : Nat) (s : State) :
    totalOf (takeLanes4 w i lo un s) (4000 + 20 * lget 0xFF w i + l) = totalOf s (4000 + 20 * lget 0xFF w i + l) := by
  obtain ⟨u, hu, ht⟩ := totalOf_takeLanes4_lane hp hl lo un s
  rw [ht _ (.inr rfl), takeLane_of_none hb, hu _ (.inr rfl)]

theorem totalOf_takeLanes4_fec {l : Nat} (hl : l < 20) {lo : Nat} (hb : lget 0xFF w (lo + l) ≠ 0xFF) (un : Nat) (s : State) :
    totalOf (takeLanes4 w i lo un s) (4300 + 20 * lget 0xFF w i + l) =
      Nat.max (totalOf s (4300 + 20 * lget 0xFF w i + l)) (lget 0xFF w (lo + l) % 32) := by
  obtain ⟨u, hu, ht⟩ := totalOf_takeLanes4_lane hp hl lo un s
  rw [ht _ (.inl rfl), totalOf_takeLane hb, if_pos rfl, hu _ (.inl rfl)]

theorem totalOf_takeLanes4_grade {l : Nat} (hl : l < 20) {lo : Nat} (hb : lget 0xFF w (lo + l) ≠ 0xFF) (un : Nat) (s : State) :
    totalOf (takeLanes4 w i lo un s) (4000 + 20 * lget 0xFF w i + l) =
      if totalOf s (4000 + 20 * lget 0xFF w i + l) = 0 ∨
          lget 0xFF w (lo + l) / 32 + 1 < totalOf s (4000 + 20 * lget 0xFF w i + l)
      then lget 0xFF w (lo + l) / 32 + 1 else totalOf s (4000 + 20 * lget 0xFF w i + l) := by
  obtain ⟨u, hu, ht⟩ := totalOf_takeLanes4_lane hp hl lo un s
  rw [ht _ (.inr rfl), totalOf_takeLane hb, if_neg (by omega), if_pos rfl, hu _ (.inr rfl)]

end Lanes

/-! ### The rows -/

/-- Where the controller does not run, or no message waits, a telemetry row changes nothing. -/
theorem teleRow_of_idle {s : State} (h : mcRuns s = false ∨ s.ws.tele = []) (kind : Nat) : teleRow kind s = s := by
  unfold teleRow
  obtain h | h := h
  · rw [h]
    split <;> rfl
  · have hnone : teleHead s kind = none := by simp [teleHead, h]
    rw [hnone]

/-- A message that coalesces leaves its place to one of its own kinds that is held back. -/
theorem popTele_of_none_held {s : State} {m : Msg} {rest : List Msg} (ht : s.ws.tele = m :: rest) (hm : coalesces m.kind = true)
    (hh : s.ws.held = []) : popTele s = { s with ws := { s.ws with tele := rest } } := by
  unfold popTele refillTele
  rw [ht]
  dsimp only
  rw [if_pos hm, hh]

/-- The head of a kind that coalesces is taken; nothing else of the telemetry queue moves where none of those is held back. -/
theorem teleRow_takes {s : State} {m : Msg} {rest : List Msg} (hmc : mcRuns s = true) (ht : s.ws.tele = m :: rest)
    (hm : coalesces m.kind = true) (hh : s.ws.held = []) :
    teleRow m.kind s = takeTele m { s with ws := { s.ws with tele := rest } } := by
  rw [teleRow_of_head ht hmc, popTele_of_none_held ht hm hh]

/-- The state once the trace has noted the message. -/
def noted (m : Msg) (s : State) : State := traceRec 2 (m.kind + m.source * 2 ^ 8 + m.seq % 2 ^ 16 * 2 ^ 16) s

theorem noted_ws (m : Msg) (s : State) : (noted m s).ws = s.ws := by
  unfold noted
  rw [traceRec_onlyDb]

theorem noted_bb (m : Msg) (s : State) : (noted m s).bb = s.bb := by
  unfold noted
  rw [traceRec_onlyDb]

/-- What COUNTER_SNAPSHOT of words `w` adds. -/
def takeSnapshot (m : Msg) (w : List Nat) (s : State) : State :=
  (List.range 7).foldl (fun st k => addRise k (10000 + 8 * m.source + k) (lget 0 w k) st) s

/-- What EXP_HISTOGRAM keeps. -/
def takeHistogram (m : Msg) (w : List Nat) (s : State) : State :=
  let b := 16 * lget 0 w 0 + 16
  let s1 := setTotal (b + 8) (totalOf s (b + 8) ||| lget 0 w 1) s
  setTotal (b + 11) (totalOf s1 (b + 11) + m.coalesced)
    (setTotal (b + 10) ((List.range 64).foldl (fun n i => n + lget 0 w (3 + i) % 64 * 2 ^ (6 * i)) 0)
      (keepMax (b + 9) (lget 0 w 2) s1))

/-- What SAT_VANISH adds. -/
def takeTotals (m : Msg) (w : List Nat) (s : State) : State :=
  let b := 16 * lget 0 w 0 + 16
  let s1 := (List.range 6).foldl (fun st k => addRise (b + k) (20000 + 16 * lget 0 w 0 + k) (lget 0 w (3 + k)) st) s
  let s2 := setTotal (b + 8) (totalOf s1 (b + 8) ||| lget 0 w 1) s1
  setTotal (b + 11) (totalOf s2 (b + 11) + m.coalesced) (keepMax (b + 9) (lget 0 w 2) s2)

/-- What LANE_HEALTH keeps of its two ports. -/
def takeLaneHealth (w : List Nat) (s : State) : State := takeLanes4 w 1 22 43 (takeLanes4 w 0 2 42 s)

section Kinds

variable {m : Msg} {w : List Nat} (hw : m.payload = .counts w)

include hw

theorem takeTele_counterSnapshot (hk : m.kind = 0x11) (s : State) : takeTele m s = takeSnapshot m w (noted m s) := by
  simp only [takeTele, takeSnapshot, noted, hw, hk]

theorem takeTele_expHistogram (hk : m.kind = 0x12) (s : State) : takeTele m s = takeHistogram m w (noted m s) := by
  simp only [takeTele, takeHistogram, noted, hw, hk]

theorem takeTele_satVanish (hk : m.kind = 0x13) (s : State) : takeTele m s = takeTotals m w (noted m s) := by
  simp only [takeTele, takeTotals, noted, hw, hk]

theorem takeTele_laneHealth (hk : m.kind = 0x14) (s : State) : takeTele m s = takeLaneHealth w (noted m s) := by
  simp only [takeTele, takeLaneHealth, noted, hw, hk]

end Kinds

/-- The row of a telemetry kind, `take` being what the kind does to the totals and `does` what is to be read in them. -/
theorem teleRow_answers {c : Instr} {s : State} {m : Msg} {rest : List Msg} {kind : Nat} {take : State → State}
    {does : State → Prop} (hrow : exec c s = .next (teleRow kind s)) (hco : coalesces kind = true)
    (htake : m.kind = kind → ∀ u, takeTele m u = take (noted m u)) (honly : ∀ u, OnlyTotals u (take u))
    (hdoes : ∀ u, (∀ x, totalOf u x = totalOf s x) → does (take u)) (hmc : mcRuns s = true) (ht : s.ws.tele = m :: rest)
    (hk : m.kind = kind) (hh : s.ws.held = []) :
    Answers c s fun t => t.ws.tele = rest ∧ t.bb.slots = s.bb.slots ∧ does t := by
  let u := noted m { s with ws := { s.ws with tele := rest } }
  have hbb : u.bb = s.bb := noted_bb ..
  have hws : u.ws.tele = rest := by rw [show u.ws = _ from noted_ws ..]
  refine ⟨take u, ?_, ?_, ?_, hdoes u (totalOf_congr hbb)⟩
  · rw [hrow, ← htake hk, ← hk, teleRow_takes hmc ht (hk ▸ hco) hh]
  · rw [(honly u).ws, hws]
  · rw [(honly u).slots, hbb]

theorem takeSnapshot_onlyTotals (m : Msg) (w : List Nat) (s : State) : OnlyTotals s (takeSnapshot m w s) :=
  foldl_onlyTotals (fun _ _ => addRise_onlyTotals ..) _ s

theorem takeHistogram_onlyTotals (m : Msg) (w : List Nat) (s : State) : OnlyTotals s (takeHistogram m w s) :=
  (((setTotal_onlyTotals ..).trans (keepMax_onlyTotals ..)).trans (setTotal_onlyTotals ..)).trans (setTotal_onlyTotals ..)

theorem takeTotals_onlyTotals (m : Msg) (w : List Nat) (s : State) : OnlyTotals s (takeTotals m w s) :=
  (((foldl_onlyTotals (fun _ _ => addRise_onlyTotals ..) (List.range 6) s).trans (setTotal_onlyTotals ..)).trans
    (keepMax_onlyTotals ..)).trans (setTotal_onlyTotals ..)

theorem takeLaneHealth_onlyTotals (w : List Nat) (s : State) : OnlyTotals s (takeLaneHealth w s) :=
  (takeLanes4_onlyTotals ..).trans (takeLanes4_onlyTotals ..)

theorem totalOf_takeSnapshot (m : Msg) (w : List Nat) {k : Nat} (hk : k < 7) (s : State) :
    totalOf (takeSnapshot m w s) k = totalOf s k +
        (if totalOf s (10000 + 8 * m.source + k) ≤ lget 0 w k then lget 0 w k - totalOf s (10000 + 8 * m.source + k)
          else lget 0 w k) ∧
      totalOf (takeSnapshot m w s) (10000 + 8 * m.source + k) = lget 0 w k :=
  totalOf_foldl_addRise (acc := fun k => k) (new := lget 0 w) hk Function.injective_id (add_right_injective _)
    (fun i hi j _ => by omega) s

theorem totalOf_takeTotals_flags (m : Msg) (w : List Nat) (s : State) :
    totalOf (takeTotals m w s) (16 * lget 0 w 0 + 24) = totalOf s (16 * lget 0 w 0 + 24) ||| lget 0 w 1 := by
  have hkeep : totalOf ((List.range 6).foldl (fun st k =>
      addRise (16 * lget 0 w 0 + 16 + k) (20000 + 16 * lget 0 w 0 + k) (lget 0 w (3 + k)) st) s) (16 * lget 0 w 0 + 24) =
      totalOf s (16 * lget 0 w 0 + 24) := by
    refine totalOf_foldl_other (fun j hj st => ?_) s
    have hj := List.mem_range.mp hj
    rw [totalOf_addRise, if_neg (by omega), if_neg (by omega)]
  simp [takeTotals, hkeep]

theorem totalOf_takeTotals_rise (m : Msg) (w : List Nat) {k : Nat} (hk : k < 6) (s : State) :
    totalOf (takeTotals m w s) (16 * lget 0 w 0 + 16 + k) = totalOf s (16 * lget 0 w 0 + 16 + k) +
      (if totalOf s (20000 + 16 * lget 0 w 0 + k) ≤ lget 0 w (3 + k) then
        lget 0 w (3 + k) - totalOf s (20000 + 16 * lget 0 w 0 + k) else lget 0 w (3 + k)) := by
  unfold takeTotals
  dsimp only
  rw [totalOf_setTotal, if_neg (by omega), totalOf_keepMax, if_neg (by omega), totalOf_setTotal, if_neg (by omega)]
  exact (totalOf_foldl_addRise (new := fun k => lget 0 w (3 + k)) hk (add_right_injective (16 * lget 0 w 0 + 16))
    (add_right_injective (20000 + 16 * lget 0 w 0)) (fun i hi j _ => by omega) s).1

theorem totalOf_takeHistogram (m : Msg) (w : List Nat) (s : State) :
    totalOf (takeHistogram m w s) (16 * lget 0 w 0 + 24) = totalOf s (16 * lget 0 w 0 + 24) ||| lget 0 w 1 ∧
      totalOf (takeHistogram m w s) (16 * lget 0 w 0 + 25) = Nat.max (totalOf s (16 * lget 0 w 0 + 25)) (lget 0 w 2) ∧
      ∀ i < 64, totalOf (takeHistogram m w s) (16 * lget 0 w 0 + 26) / 2 ^ (6 * i) % 64 = lget 0 w (3 + i) % 64 := by
  refine ⟨by simp [takeHistogram], by simp [takeHistogram], fun i hi => ?_⟩
  have hbins : totalOf (takeHistogram m w s) (16 * lget 0 w 0 + 26) =
      (List.range 64).foldl (fun n i => n + lget 0 w (3 + i) % 64 * 2 ^ (6 * i)) 0 := by
    unfold takeHistogram
    dsimp only
    rw [totalOf_setTotal, if_neg (by omega), totalOf_setTotal, if_pos rfl]
  rw [hbins]
  exact (packed_fields (d := fun i => lget 0 w (3 + i) % 64) (fun i => Nat.mod_lt _ (by omega)) 64).2 i hi

/-- Settles O53: each kind's totals are read key by key, and the keys of one word, lane or port are not another's. -/
theorem telemetryReachesTheBlackBox : Obligations.TelemetryReachesTheBlackBox := by
  unfold Obligations.TelemetryReachesTheBlackBox
  intro s m rest w k l i
  dsimp only
  have hidle : ∀ {c kind}, exec c s = .next (teleRow kind s) → mcRuns s = false ∨ s.ws.tele = [] → exec c s = .next s :=
    fun hrow h => by rw [hrow, teleRow_of_idle h]
  refine ⟨⟨fun hmc ht hk hw hh => ?_, hidle (kind := 0x11) rfl⟩, ⟨fun hmc ht hk hw hh => ?_, hidle (kind := 0x13) rfl⟩,
    ⟨fun hmc ht hk hw hh => ?_, hidle (kind := 0x12) rfl⟩, ⟨fun hmc ht hk hw hh => ?_, hidle (kind := 0x14) rfl⟩⟩
  · refine teleRow_answers rfl rfl (takeTele_counterSnapshot hw) (takeSnapshot_onlyTotals m w) (fun u hu hk7 => ?_) hmc ht hk hh
    rw [← hu, ← hu]
    exact totalOf_takeSnapshot m w hk7 u
  · refine teleRow_answers rfl rfl (takeTele_satVanish hw) (takeTotals_onlyTotals m w) (fun u hu => ⟨fun hk6 => ?_, ?_⟩)
      hmc ht hk hh
    · rw [← hu, ← hu]
      exact totalOf_takeTotals_rise m w hk6 u
    · rw [← hu]
      exact totalOf_takeTotals_flags m w u
  · refine teleRow_answers rfl rfl (takeTele_expHistogram hw) (takeHistogram_onlyTotals m w) (fun u hu => ?_) hmc ht hk hh
    obtain ⟨hflags, hseq, hbins⟩ := totalOf_takeHistogram m w u
    exact ⟨by rw [hflags, hu], by rw [hseq, hu], hbins i⟩
  · refine teleRow_answers rfl rfl (takeTele_laneHealth hw) (takeLaneHealth_onlyTotals w) (fun u hu hp hne hl => ?_) hmc ht hk hh
    have hother : ∀ x, LaneKey (lget 0xFF w 0) x → totalOf (takeLaneHealth w u) x = totalOf (takeLanes4 w 0 2 42 u) x :=
      fun x hx => totalOf_takeLanes4_other hp hx hne 22 43 _
    refine ⟨?_, fun hb => ?_, fun hb => ⟨?_, ?_⟩⟩
    · rw [hother _ (.inl rfl), totalOf_takeLanes4_uncorr hp, hu, hu]
    · rw [hother _ (by unfold LaneKey; omega), totalOf_takeLanes4_of_none hp hl hb, hu]
    · rw [hother _ (by unfold LaneKey; omega), totalOf_takeLanes4_fec hp hl hb, hu]
    · rw [hother _ (by unfold LaneKey; omega), totalOf_takeLanes4_grade hp hl hb, hu]

end Sys2Proof.Machine
end

section
/-!
PROOF. The end of a run: what closing records, posting the completion and releasing held writes change, and what they leave
(R74, R141 to R148, R201, R419).
-/

namespace Sys2Proof.Machine

open Sys2Proof

/-! ### Cells, cores and memory -/

/-- Cells, cores and memory stand. -/
structure KeepsWork (s t : State) : Prop where
  cells : t.cells = s.cells
  cores : t.cores = s.cores
  mem : t.mem = s.mem

theorem KeepsWork.refl (s : State) : KeepsWork s s := ⟨rfl, rfl, rfl⟩

theorem KeepsWork.trans {s t u : State} (h : KeepsWork s t) (g : KeepsWork t u) : KeepsWork s u :=
  ⟨g.cells.trans h.cells, g.cores.trans h.cores, g.mem.trans h.mem⟩

theorem keepsWork_ite {s t u : State} {c : Prop} [Decidable c] (ht : KeepsWork s t) (hu : KeepsWork s u) :
    KeepsWork s (if c then t else u) := by
  split
  · exact ht
  · exact hu

theorem KeepsWork.getCore {s t : State} (h : KeepsWork s t) (i : Nat) : getCore t i = getCore s i := getCore_congr h.cores i

theorem complete_keepsWork (h st fl : Nat) (l : List W64) (s : State) : KeepsWork s (complete h st fl l s) := by
  rw [complete_onlyCp]
  exact ⟨rfl, rfl, rfl⟩

/-! ### Closing records (R143, R146 to R150) -/

/-- What closing records leaves: the runs, what has been sent upward, and a head and an incompleteness mark that stand or rise. -/
structure Closes (s t : State) : Prop where
  work : KeepsWork s t
  fb : t.fb = s.fb
  up : sentUp t = sentUp s
  head : s.tw.head ≤ t.tw.head
  mark : s.tw.status.getLsbD 0 = true → t.tw.status.getLsbD 0 = true

theorem Closes.refl (s : State) : Closes s s := ⟨KeepsWork.refl s, rfl, rfl, Nat.le_refl _, id⟩

theorem Closes.trans {s t u : State} (h : Closes s t) (g : Closes t u) : Closes s u :=
  ⟨h.work.trans g.work, g.fb.trans h.fb, g.up.trans h.up, h.head.trans g.head, g.mark ∘ h.mark⟩

theorem foldl_closes {α : Type} {f : State → α → State} (hf : ∀ s a, Closes s (f s a)) (l : List α) (s : State) :
    Closes s (l.foldl f s) := by
  induction l generalizing s with
  | nil => exact Closes.refl s
  | cons a r ih => exact (hf s a).trans (ih (f s a))

theorem OnlyTele.sentUp {s t : State} (h : OnlyTele s t) : sentUp t = sentUp s := by
  rw [h]
  rfl

theorem OnlyTele.tw {s t : State} (h : OnlyTele s t) : t.tw = s.tw := by rw [h]

theorem OnlyTele.closes {s t : State} (h : OnlyTele s t) : Closes s t := by
  refine ⟨?_, by rw [h], h.sentUp, by rw [h.tw], by rw [h.tw]; exact id⟩
  rw [h]
  exact ⟨rfl, rfl, rfl⟩

theorem sendTotals_closes (r : TwRec) (s : State) : Closes s (sendTotals r s) :=
  (postTele_onlyTele ..).closes.trans (postTele_onlyTele ..).closes

theorem sendTotals_tw (r : TwRec) (s : State) : (sendTotals r s).tw = s.tw :=
  (postTele_onlyTele ..).tw.trans (postTele_onlyTele ..).tw

section CloseFmt

variable (o : OpenRec) (run : Run) (fmt : Nat) (s : State)

/-- One record closes: it takes the next number and is sent; one with totals left out marks the status (R144). -/
theorem closeFmt_sends : ∃ cum tw, closeFmt o run fmt s = sendTotals cum { s with tw := tw } ∧
    tw.head = s.tw.head + 1 ∧ tw.opens = s.tw.opens ∧ tw.status.getLsbD 0 = (s.tw.status.getLsbD 0 || o.incomplete) := by
  refine ⟨_, _, rfl, rfl, rfl, ?_⟩
  dsimp only
  cases o.incomplete <;> cases onSomeDie o.sat fmt <;> simp

theorem closeFmt_head : (closeFmt o run fmt s).tw.head = s.tw.head + 1 := by
  obtain ⟨cum, tw, h, hhead, -, -⟩ := closeFmt_sends o run fmt s
  rw [h, sendTotals_tw, hhead]

theorem closeFmt_opens : (closeFmt o run fmt s).tw.opens = s.tw.opens := by
  obtain ⟨cum, tw, h, -, hopens, -⟩ := closeFmt_sends o run fmt s
  rw [h, sendTotals_tw, hopens]

theorem closeFmt_mark : (closeFmt o run fmt s).tw.status.getLsbD 0 = (s.tw.status.getLsbD 0 || o.incomplete) := by
  obtain ⟨cum, tw, h, -, -, hmark⟩ := closeFmt_sends o run fmt s
  rw [h, sendTotals_tw, hmark]

theorem closeFmt_closes : Closes s (closeFmt o run fmt s) := by
  obtain ⟨cum, tw, h, hhead, -, hmark⟩ := closeFmt_sends o run fmt s
  have htw : Closes s { s with tw := tw } :=
    ⟨⟨rfl, rfl, rfl⟩, rfl, rfl, hhead ▸ Nat.le_succ _, fun hs => by rw [hmark, hs, Bool.true_or]⟩
  rw [h]
  exact htw.trans (sendTotals_closes ..)

end CloseFmt

theorem closeOpen_closes (o : OpenRec) (run : Run) (s : State) : Closes s (closeOpen o run s) := by
  obtain ⟨hwork, hfb, hup, hhead, hmark⟩ := foldl_closes (fun st f => closeFmt_closes o run f st) o.formats s
  exact ⟨⟨hwork.cells, hwork.cores, hwork.mem⟩, hfb, hup, hhead, hmark⟩

theorem closeOpen_opens (o : OpenRec) (run : Run) (s : State) :
    (closeOpen o run s).tw.opens = s.tw.opens.filter fun x => x != o := by
  have hopens : ∀ (l : List Nat) (st : State), (l.foldl (fun st f => closeFmt o run f st) st).tw.opens = st.tw.opens := by
    intro l
    induction l with
    | nil => exact fun _ => rfl
    | cons f r ih => exact fun st => (ih _).trans (closeFmt_opens ..)
  unfold closeOpen
  dsimp only
  rw [hopens]

/-- A phase that drained to some format leaves a record, marked where totals are left out (R143, R144). -/
theorem closeOpen_records {o : OpenRec} (ho : o.formats ≠ []) (run : Run) (s : State) :
    s.tw.head < (closeOpen o run s).tw.head ∧ (o.incomplete = true → (closeOpen o run s).tw.status.getLsbD 0 = true) := by
  obtain ⟨f, r, hfr⟩ := List.exists_cons_of_ne_nil ho
  have hrest := foldl_closes (fun st f => closeFmt_closes o run f st) r (closeFmt o run f s)
  have htw : (closeOpen o run s).tw.head = (r.foldl (fun st f => closeFmt o run f st) (closeFmt o run f s)).tw.head ∧
      (closeOpen o run s).tw.status = (r.foldl (fun st f => closeFmt o run f st) (closeFmt o run f s)).tw.status := by
    unfold closeOpen
    rw [hfr]
    exact ⟨rfl, rfl⟩
  obtain ⟨hhead, hstatus⟩ := htw
  constructor
  · have h1 := closeFmt_head o run f s
    have h2 := hrest.head
    omega
  · intro hi
    rw [hstatus]
    exact hrest.mark (by rw [closeFmt_mark, hi, Bool.or_true])

theorem closeRegion_closes (region : Nat) (run : Run) (s : State) : Closes s (closeRegion region run s) :=
  foldl_closes (fun st o => closeOpen_closes o run st) _ s

/-- The records of a region are closed: none of it stays open. -/
theorem closeRegion_opens (region : Nat) (run : Run) (s : State) :
    ∀ o ∈ (closeRegion region run s).tw.opens, o.region ≠ region := by
  have hfold : ∀ (l : List OpenRec) (st : State), ∀ o ∈ (l.foldl (fun st o => closeOpen o run st) st).tw.opens,
      o ∈ st.tw.opens ∧ o ∉ l := by
    intro l
    induction l with
    | nil => exact fun _ o ho => ⟨ho, by simp⟩
    | cons x r ih =>
      intro st o ho
      obtain ⟨hin, hout⟩ := ih (closeOpen x run st) o ho
      rw [closeOpen_opens, List.mem_filter] at hin
      obtain ⟨hin, hne⟩ := hin
      exact ⟨hin, by simpa [hout] using hne⟩
  intro o ho hr
  obtain ⟨hin, hout⟩ := hfold _ s o ho
  exact hout (List.mem_filter.mpr ⟨hin, by simpa using hr⟩)

theorem closeRegion_of_none {region : Nat} {s : State} (h : ∀ o ∈ s.tw.opens, o.region ≠ region) (run : Run) :
    closeRegion region run s = s := by
  have hnone : (s.tw.opens.filter fun o => o.region == region) = [] := by simpa using h
  unfold closeRegion
  rw [hnone]
  rfl

/-! ### The end of a run (R143, R419, R420) -/

theorem openRun_keepsWork (region : Nat) (r : Run) (s : State) : KeepsWork s (openRun region r s) := ⟨rfl, rfl, rfl⟩

theorem startWaits_keepsWork (region : Nat) : ∀ (fuel : Nat) (s : State), KeepsWork s (startWaits region fuel s)
  | 0, s => KeepsWork.refl s
  | fuel + 1, s => by
    unfold startWaits
    refine keepsWork_ite (KeepsWork.refl s) ?_
    split
    · exact KeepsWork.refl s
    · extract_lets fb s1
      have hs1 : KeepsWork s s1 := ⟨rfl, rfl, rfl⟩
      split
      · exact keepsWork_ite (hs1.trans (openRun_keepsWork ..))
          ((hs1.trans (complete_keepsWork ..)).trans (startWaits_keepsWork region fuel _))
      · exact hs1

/-- The state in which a run has ended and its completion is posted, before what waits on the region starts. -/
def runEnded (region : Nat) (r : Run) (s : State) : State :=
  let s1 := dropRun s region
  match r.seqFault with
  | some (cl, core, cause, pc) =>
    let w := cl % 2 ^ 16 + core % 4 * 2 ^ 16 + cause % 16 * 2 ^ 20 + pc.toNat % 2 ^ 32 * 2 ^ 32
    postCompletion r.handle 0x0201 0 [BitVec.ofNat 64 w, 0, 0, BitVec.ofNat 64 s1.tw.head] s1
  | none =>
    if r.poisoned.isEmpty then postCompletion r.handle 0 0 [0, 0, 0, BitVec.ofNat 64 s1.tw.head] s1
    else
      let more := if 16 < r.poisoned.length then 4 else 0
      let s' := modCp s1 (portOfHandle r.handle) fun c => { c with poisonMap := poisonMapOf r.poisoned }
      postCompletion r.handle 0x0200 more (poisonWords r.poisoned) s'

theorem finishRun_eq (region : Nat) (r : Run) (s : State) : finishRun region r s = startNextWait region (runEnded region r s) :=
  rfl

section RunEnded

variable (region : Nat) (r : Run) (s : State)

theorem runEnded_keepsWork : KeepsWork s (runEnded region r s) := by
  unfold runEnded
  dsimp only
  split
  · exact ⟨rfl, rfl, rfl⟩
  · exact keepsWork_ite ⟨rfl, rfl, rfl⟩ ⟨rfl, rfl, rfl⟩

theorem runEnded_fb : (runEnded region r s).fb = (dropRun s region).fb := by
  unfold runEnded
  dsimp only
  split
  · rfl
  · split <;> rfl

theorem runEnded_tw : (runEnded region r s).tw = s.tw := by
  unfold runEnded
  dsimp only
  split
  · rfl
  · split <;> rfl

end RunEnded

theorem sentUp_runEnded_clean {r : Run} (hf : r.seqFault = none) (hp : r.poisoned = []) (region : Nat) (s : State) :
    sentUp (runEnded region r s) = sentUp s ++ [.completion r.handle 0 0 [0, 0, 0, BitVec.ofNat 64 s.tw.head]] := by
  unfold runEnded
  rw [hf, hp]
  exact sentUp_postUp ..

theorem sentUp_runEnded_poisoned {r : Run} (hf : r.seqFault = none) (hp : r.poisoned ≠ []) (region : Nat) (s : State) :
    ∃ f res, sentUp (runEnded region r s) = sentUp s ++ [.completion r.handle 0x0200 f res] := by
  have he : r.poisoned.isEmpty = false := by simpa using hp
  unfold runEnded
  rw [hf, he]
  exact ⟨_, _, sentUp_postUp ..⟩

theorem finishRun_keepsWork (region : Nat) (r : Run) (s : State) : KeepsWork s (finishRun region r s) :=
  (runEnded_keepsWork ..).trans (startWaits_keepsWork ..)

/-- Where no command waits, nothing starts after a run. -/
theorem finishRun_of_no_waits {s : State} (h : s.fb.waits = []) (region : Nat) (r : Run) :
    finishRun region r s = runEnded region r s := by
  have hw : (runEnded region r s).fb.waits = [] := by rw [runEnded_fb]; exact h
  rw [finishRun_eq, startNextWait, hw]
  rfl

theorem runOf_dropRun (s : State) (region : Nat) : runOf (dropRun s region) region = none := by
  simp [runOf, dropRun]

theorem runOf_congr {s t : State} (h : t.fb = s.fb) (region : Nat) : runOf t region = runOf s region := by
  simp [runOf, h]

/-- Where no command waits, a run that no trap stopped ends, and its completion tells whether clusters are poisoned. -/
theorem finishRun_ends {s : State} {r : Run} (hw : s.fb.waits = []) (hf : r.seqFault = none) (region : Nat) :
    runOf (finishRun region r s) region = none ∧ (finishRun region r s).tw = s.tw ∧
      ∃ st f res, (st = 0 ∨ st = 0x0200) ∧ sentUp (finishRun region r s) = sentUp s ++ [.completion r.handle st f res] := by
  rw [finishRun_of_no_waits hw]
  refine ⟨(runOf_congr (runEnded_fb ..) region).trans (runOf_dropRun s region), runEnded_tw .., ?_⟩
  by_cases hp : r.poisoned = []
  · exact ⟨0, 0, _, .inl rfl, sentUp_runEnded_clean hf hp region s⟩
  · obtain ⟨f, res, hup⟩ := sentUp_runEnded_poisoned hf hp region s
    exact ⟨0x0200, f, res, .inr rfl, hup⟩

theorem finishFaulted_keepsWork (region : Nat) (s : State) : KeepsWork s (finishFaulted region s) := by
  unfold finishFaulted
  split
  · exact keepsWork_ite ((closeRegion_closes ..).work.trans (finishRun_keepsWork ..)) (KeepsWork.refl s)
  · exact KeepsWork.refl s

/-- A faulted run goes on while a core of its region has streams that are not complete (R201). -/
theorem finishFaulted_of_streams {s : State} {core region : Nat} (hin : ∀ g, regionOf s region = some g → core ∈ g.cores)
    (hs : (getCore s core).streams ≠ []) : finishFaulted region s = s := by
  unfold finishFaulted
  split
  · next r g _ hg =>
    have hbusy : transfersRunning s g = true :=
      List.any_eq_true.mpr ⟨core, hin g hg, by simp [hs]⟩
    rw [hbusy]
    simp
  · rfl

/-! ### Held writes (R74, R163) -/

/-- Nothing but memory and the command processor's account differs. -/
def OnlyMemCp (s t : State) : Prop := t = { s with mem := t.mem, cp := t.cp }

theorem OnlyMemCp.trans {s t u : State} (h : OnlyMemCp s t) (g : OnlyMemCp t u) : OnlyMemCp s u := by
  unfold OnlyMemCp at *
  rw [g, h]

theorem OnlyMemCp.cores {s t : State} (h : OnlyMemCp s t) : t.cores = s.cores := by rw [h]

theorem OnlyMemCp.fb {s t : State} (h : OnlyMemCp s t) : t.fb = s.fb := by rw [h]

theorem OnlyMemCp.tw {s t : State} (h : OnlyMemCp s t) : t.tw = s.tw := by rw [h]

theorem OnlyMemCp.sentUp {s t : State} (h : OnlyMemCp s t) : sentUp t = sentUp s := by
  rw [h]
  rfl

theorem foldl_onlyMemCp {α : Type} {f : State → α → State} (hf : ∀ s a, OnlyMemCp s (f s a)) (l : List α) (s : State) :
    OnlyMemCp s (l.foldl f s) := by
  induction l generalizing s with
  | nil => rfl
  | cons a r ih => exact (hf s a).trans (ih (f s a))

theorem OnlyMem.onlyMemCp {s t : State} (h : OnlyMem s t) : OnlyMemCp s t := by
  unfold OnlyMemCp
  rw [h]

theorem complete_onlyMemCp (h st fl : Nat) (l : List W64) (s : State) : OnlyMemCp s (complete h st fl l s) := by
  rw [complete_onlyCp]
  rfl

theorem settleCopies_onlyMemCp (s : State) : OnlyMemCp s (settleCopies s) := by
  unfold settleCopies
  extract_lets done mem s1
  exact OnlyMemCp.trans (t := s1) rfl (foldl_onlyMemCp (fun _ _ => complete_onlyMemCp ..) done s1)

theorem releaseWrites_onlyMemCp (s : State) : OnlyMemCp s (releaseWrites s) := by
  unfold releaseWrites
  extract_lets go mem s1
  have hwritten : OnlyMem s1 (go.foldl (fun st w => writeSector st w.addr w.bytes w.poison) s1) :=
    foldl_onlyMem (fun _ _ => writeSector_onlyMem ..) go s1
  exact (OnlyMemCp.trans (t := s1) rfl hwritten.onlyMemCp).trans (settleCopies_onlyMemCp _)

end Sys2Proof.Machine
end

section
/-!
PROOF. Streams of a core: which starts, what its start and its end leave in the core (R154, R155, R193, R199, R201).
-/

namespace Sys2Proof.Machine

open Sys2Proof

/-! ### What carrying elements leaves alone -/

/-- Every core has the streams and the moves it had. -/
structure SameTransfers (s t : State) : Prop where
  streams : ∀ i, (getCore t i).streams = (getCore s i).streams
  moves : ∀ i, (getCore t i).moves = (getCore s i).moves

theorem SameTransfers.refl (s : State) : SameTransfers s s := ⟨fun _ => rfl, fun _ => rfl⟩

theorem SameTransfers.trans {s t u : State} (h : SameTransfers s t) (g : SameTransfers t u) : SameTransfers s u :=
  ⟨fun i => (g.streams i).trans (h.streams i), fun i => (g.moves i).trans (h.moves i)⟩

theorem sameTransfers_ite {s t u : State} {c : Prop} [Decidable c] (ht : SameTransfers s t) (hu : SameTransfers s u) :
    SameTransfers s (if c then t else u) := by
  split
  · exact ht
  · exact hu

theorem sameTransfers_of_cores {s t : State} (h : t.cores = s.cores) : SameTransfers s t :=
  ⟨fun i => by rw [getCore_congr h], fun i => by rw [getCore_congr h]⟩

theorem sameTransfers_of_onlyMem {s t : State} (h : OnlyMem s t) : SameTransfers s t := sameTransfers_of_cores (by rw [h])

theorem modCell_sameTransfers (s : State) (i : Nat) (f : Cell → Cell) : SameTransfers s (modCell s i f) :=
  sameTransfers_of_cores rfl

theorem modCore_sameTransfers (s : State) (i : Nat) (f : Core → Core) (hs : ∀ c, (f c).streams = c.streams := by intro _; rfl)
    (hm : ∀ c, (f c).moves = c.moves := by intro _; rfl) : SameTransfers s (modCore s i f) := by
  constructor <;>
  · intro j
    rw [getCore_modCore]
    split
    · next h => simp only [hs, hm, h]
    · rfl

theorem foldl_sameTransfers {α : Type} {f : State → α → State} (hf : ∀ s a, SameTransfers s (f s a)) (l : List α) (s : State) :
    SameTransfers s (l.foldl f s) := by
  induction l generalizing s with
  | nil => exact SameTransfers.refl s
  | cons a r ih => exact (hf s a).trans (ih (f s a))

theorem storeWrite_sameTransfers (s : State) (cell : Nat) (outer : Bool) (e : Elem) :
    SameTransfers s (storeWrite s cell outer e) := by
  have hput : ∀ a bs p st,
      OnlyMem st ((if outer then outerSector else fun a bs p st => writeSector st a bs p) a bs p st) := by
    intro a bs p st
    cases outer with
    | true => exact outerSector_onlyMem a bs p st
    | false => exact writeSector_onlyMem st a bs p
  exact (sameTransfers_of_onlyMem (putBitsBy_onlyMem hput ..)).trans
    (modCell_sameTransfers _ cell fun c => { c with wrPos := c.wrPos + 1 })

/-- An element that travels issues and ends no stream or move. -/
theorem routeFrom_sameTransfers : ∀ (fuel cell src : Nat) (e : Elem) (s : State), SameTransfers s (routeFrom fuel cell src e s)
  | 0, _, _, _, s => SameTransfers.refl s
  | fuel + 1, cell, src, e, s => by
    unfold routeFrom
    extract_lets arrive
    have harrive : ∀ st sink e, SameTransfers st (arrive st sink e) := by
      intro st sink e
      refine sameTransfers_ite ?_ (sameTransfers_ite (storeWrite_sameTransfers ..) (modCell_sameTransfers ..))
      cases neighbour cell sink with
      | some n => exact routeFrom_sameTransfers fuel ..
      | none => exact modCore_sameTransfers st (coreOfCell cell) fun c => { c with portOut := tpush c.portOut (edgeKey sink cell) e }
    refine foldl_sameTransfers (fun st l => sameTransfers_ite (harrive ..) ?_) _ s
    have hmerge := modCell_sameTransfers st cell fun c => { c with merge := tpush c.merge (16 * l.ent + l.former) e }
    exact sameTransfers_ite ((hmerge.trans (modCell_sameTransfers ..)).trans (harrive ..)) hmerge

theorem deliverAt_sameTransfers (core : Nat) (edges : List Nat) (portFor : Nat → Nat) : ∀ (l : List Elem) (n : Nat) (s : State),
    SameTransfers s (deliverAt core edges portFor n l s)
  | [], _, s => SameTransfers.refl s
  | _ :: r, n, _ => (routeFrom_sameTransfers ..).trans (deliverAt_sameTransfers core edges portFor r (n + 1) _)

/-- A fault of a stream or move enters the core's SEQ_SFAULT registers and its run's record. -/
theorem coreFault_sameTransfers (core bit index count : Nat) (s : State) : SameTransfers s (coreFault core bit index count s) := by
  unfold coreFault
  refine sameTransfers_ite (SameTransfers.refl s) ?_
  refine SameTransfers.trans (t := modCore s core fun c => { c with
    sfCause := c.sfCause ||| BitVec.ofNat 64 (2 ^ bit),
    sfIndex := if c.sfCause == 0 then BitVec.ofNat 64 index else c.sfIndex,
    sfCount := BitVec.ofNat 64 (Nat.min (2 ^ 64 - 1) (c.sfCount.toNat + count)) }) (modCore_sameTransfers ..)
    (sameTransfers_of_cores rfl)

/-! ### STREAM_START -/

/-- The stream of the core's issue order stands as started. -/
def markStarted (ord : Nat) (c : Core) : Core :=
  { c with streams := lupdate (fun u => u.ord == ord) (fun u => { u with started := true }) c.streams }

theorem startStream_of_not_in {t : Stream} (h : t.dir ≠ 0) (core : Nat) (s : State) :
    startStream core t s = modCore s core (markStarted t.ord) := by
  unfold startStream
  dsimp only
  rw [if_pos h, if_neg h]
  rfl

/-- A stream that starts is marked, and the core's other streams and its moves stand. -/
theorem startStream_marks (core : Nat) (t : Stream) (s : State) :
    (getCore (startStream core t s) core).streams = (markStarted t.ord (getCore s core)).streams ∧
      (getCore (startStream core t s) core).moves = (getCore s core).moves := by
  by_cases h : t.dir ≠ 0
  · rw [startStream_of_not_in h, getCore_modCore, if_pos rfl]
    exact ⟨rfl, rfl⟩
  · obtain ⟨u, hu, hsame⟩ : ∃ u, getCore u core = markStarted t.ord (getCore s core) ∧ SameTransfers u (startStream core t s) := by
      refine ⟨modCore (if t.dir = 0 then countAct (dieOfCore core) 3 (bytesOf t) s else s) core (markStarted t.ord), ?_, ?_⟩
      · rw [getCore_modCore, if_pos rfl]
        split <;> rfl
      · unfold startStream
        dsimp only
        rw [if_neg h]
        exact (coreFault_sameTransfers ..).trans (deliverAt_sameTransfers ..)
    rw [hsame.streams, hsame.moves, hu]
    exact ⟨rfl, rfl⟩

section Rows

variable {s : State} {core port : Nat} {out : Bool} {t : Stream} (hc : core < Config.numCores) (hp : port < 4)

include hc hp

theorem exec_streamStart_idle (h : streamToStart (getCore s core) port out = none ∨ dieHalted s (dieOfCore core) = true) :
    exec (.streamStart core port out) s = .next s := by
  show execStreamStart core port out s = _
  unfold execStreamStart
  cases hs : streamToStart (getCore s core) port out with
  | none => simp [hc, hp]
  | some t => simp [hc, hp, h.resolve_left (by simp [hs])]

theorem exec_streamStart (hh : dieHalted s (dieOfCore core) = false) (h : streamToStart (getCore s core) port out = some t) :
    exec (.streamStart core port out) s = .next (startStream core t s) := by
  show execStreamStart core port out s = _
  simp [execStreamStart, hc, hp, hh, h]

/-! ### STREAM_COMPLETE -/

theorem exec_streamComplete_idle (h : streamRunning (getCore s core) port out = none ∨ dieHalted s (dieOfCore core) = true) :
    exec (.streamComplete core port out) s = .next s := by
  show execStreamComplete core port out s = _
  unfold execStreamComplete
  cases hs : streamRunning (getCore s core) port out with
  | none => simp [hc, hp]
  | some t => simp [hc, hp, h.resolve_left (by simp [hs])]

theorem exec_streamComplete (hh : dieHalted s (dieOfCore core) = false) (h : streamRunning (getCore s core) port out = some t) :
    exec (.streamComplete core port out) s = .next (completeStream core t s) := by
  show execStreamComplete core port out s = _
  simp [execStreamComplete, hc, hp, hh, h]

end Rows

/-- An IN stream that completes leaves its core. -/
theorem completeStream_of_in {t : Stream} (h : t.dir = 0) (core : Nat) (s : State) :
    (completeStream core t s).mem = s.mem ∧ getCore (completeStream core t s) core =
      { getCore s core with streams := lremove (fun u => u.ord == t.ord) (getCore s core).streams } := by
  have hdone : streamDone core t s = dropStream core t s := by simp only [streamDone, h]
  unfold completeStream
  rw [hdone]
  have hkeep := finishFaulted_keepsWork (getCore s core).region (dropStream core t s)
  rw [hkeep.mem, hkeep.getCore]
  exact ⟨rfl, by rw [dropStream, getCore_modCore, if_pos rfl]⟩

/-- An OUT stream whose elements have not all arrived goes on. -/
theorem completeStream_of_missing {core port : Nat} {out : Bool} {t : Stream} {s : State} (h : t.dir = 1)
    (hrun : streamRunning (getCore s core) port out = some t)
    (hout : takeOut (t.edges.map fun e => 64 * t.port + e) (inputsFor t.fmt t.perm t.count) 0 (getCore s core) = none)
    (hin : ∀ g, regionOf s (getCore s core).region = some g → core ∈ g.cores) : completeStream core t s = s := by
  have hdone : streamDone core t s = s := by simp only [streamDone, h, hout]
  have hne : (getCore s core).streams ≠ [] := List.ne_nil_of_mem (List.mem_of_find?_eq_some hrun)
  unfold completeStream
  rw [hdone, finishFaulted_of_streams hin hne]

end Sys2Proof.Machine
end

section
/-!
PROOF. Moves between a cluster store and device memory: which starts, and the bytes that one carries (R164, R193, R280, R282).
-/

namespace Sys2Proof.Machine

open Sys2Proof

/-! ### Whole sectors of memory that reads without fault -/

theorem OnlyMoved.stores {s s0 t : State} {a : Nat} {bs : List Byte} (h : OnlyMoved s s0) (g : Stores s0 a bs t) :
    Stores s a bs t where
  bytes x := by rw [g.bytes, h.readByte]
  sound x hx := g.sound x (by rw [h.readFaults, hx])
  held := by rw [g.held, h]
  counted := by rw [g.counted, h]

theorem Stores.readBytes_of_disjoint {s t : State} {a b n : Nat} {bs : List Byte} (h : Stores s a bs t)
    (hd : b + n ≤ a ∨ a + bs.length ≤ b) : readBytes t b n = readBytes s b n := by
  refine List.map_congr_left fun i hi => ?_
  have hi := List.mem_range.mp hi
  rw [h.bytes, if_neg (by omega)]

/-- A whole sector of a store: no tag guards it, and no controller counts it. -/
theorem writeSector_of_store {s : State} {a : Nat} {bs : List Byte} (hd : isDram a = false) (ha : a % 32 = 0)
    (hlen : bs.length = 32) (h : readFaults s a = false) :
    writeSector s a bs false = setSectorPoison (writeBytes s a bs) a false := by
  have hbase : a = a / 32 * 32 := by omega
  simp only [readFaults, Bool.or_eq_false_iff, Bool.not_eq_false'] at h
  obtain ⟨⟨⟨hm, -⟩, -⟩, hdead⟩ := h
  simp [writeSector, hdead, hm, hd, ← hbase, hlen]

theorem writeSector_whole_stores {s : State} {a : Nat} {bs : List Byte} (ha : a % 32 = 0) (hlen : bs.length = 32)
    (h : readFaults s a = false) : Stores s a bs (writeSector s a bs false) := by
  cases hd : isDram a with
  | true => exact writeSector_stores hd h bs
  | false =>
    rw [writeSector_of_store hd ha hlen h]
    exact ⟨fun x => readByte_writeBytes x bs s a,
      fun x hx => readFaults_clearPoison (by rw [readFaults_writeBytes, hx]) a,
      writeBytes_heldWrites bs s a, writeBytes_hostFault bs s a⟩

/-- No cell holds job memory, so a move's write of it is made at once (R74). -/
theorem outerSector_of_job {s : State} {a : Nat} (hjob : a < retainedBase) (hh : s.mem.heldWrites = []) (bs : List Byte)
    (p : Bool) : outerSector a bs p s = writeSector s a bs p := by
  simp [outerSector, addrKind_of_job hjob, hh]

/-! ### The bytes of a move -/

/-- Where a move reads, with its cluster store at `cs`. -/
def moveSrc (cs : Nat) (m : Move) : Nat := if m.toDevice then cs + m.cstore else m.dev

/-- Where it writes. -/
def moveDst (cs : Nat) (m : Move) : Nat := if m.toDevice then m.dev else cs + m.cstore

/-- One sector of a move is carried without fault: its bytes are stored, and nothing but memory differs. -/
theorem moveSector_stores {cs i : Nat} {m : Move} {s : State} (hjob : m.dev + 32 * i < retainedBase) (hdev : m.dev % 32 = 0)
    (hcs : (cs + m.cstore) % 32 = 0) (hh : s.mem.heldWrites = []) (hd : readFaults s (m.dev + 32 * i) = false)
    (hl : readFaults s (cs + m.cstore + 32 * i) = false) :
    ∃ t, moveSector cs none m i s = (false, t) ∧
      Stores s (moveDst cs m + 32 * i) (readBytes s (moveSrc cs m + 32 * i) 32) t ∧ OnlyMem s t := by
  have hlen : ∀ b, (readBytes s b 32).length = 32 := fun b => by simp [readBytes]
  unfold moveSector moveSrc moveDst
  cases m.toDevice with
  | true =>
    simp only [↓reduceIte]
    refine ⟨writeSector s (m.dev + 32 * i) (readBytes s (cs + m.cstore + 32 * i) 32) false, ?_,
      writeSector_whole_stores (by omega) (hlen _) hd, writeSector_onlyMem ..⟩
    simp only [readFaults, Bool.or_eq_false_iff, Bool.not_eq_false'] at hd hl
    obtain ⟨⟨⟨hmem, -⟩, -⟩, hdead⟩ := hd
    obtain ⟨⟨⟨-, hclean⟩, -⟩, -⟩ := hl
    simp [hmem, hdead, hclean, moveWindow, addrKind_of_job hjob, outerSector_of_job hjob hh]
  | false =>
    simp only [Bool.false_eq_true, ↓reduceIte]
    have hread : OnlyMoved s (noteRead s (m.dev + 32 * i)) := by
      rw [noteRead_of_sound hd]
      exact countLine_onlyMoved ..
    refine ⟨writeSector (noteRead s (m.dev + 32 * i)) (cs + m.cstore + 32 * i) (readBytes s (m.dev + 32 * i) 32) false, ?_,
      hread.stores (writeSector_whole_stores (by omega) (hlen _) (by rw [hread.readFaults, hl])),
      (noteRead_onlyMem ..).trans (writeSector_onlyMem ..)⟩
    simp [hd, moveWindow]

/-- The sectors of a move, one after another, carry all its bytes without fault. -/
theorem moveAll_stores {cs : Nat} {m : Move} (hbase : retainedBase ≤ cs) (hjob : m.dev + m.len ≤ retainedBase)
    (hdev : m.dev % 32 = 0) (hcs : (cs + m.cstore) % 32 = 0) :
    ∀ (n i : Nat) (s : State), 32 * (i + n) ≤ m.len → s.mem.heldWrites = [] →
    (∀ k, i ≤ k → k < i + n → readFaults s (m.dev + 32 * k) = false ∧ readFaults s (cs + m.cstore + 32 * k) = false) →
    ∃ t, moveAll cs none m n i (none, 0, s) = (none, 0, t) ∧
      Stores s (moveDst cs m + 32 * i) (readBytes s (moveSrc cs m + 32 * i) (32 * n)) t ∧ OnlyMem s t
  | 0, i, s, _, _, _ => ⟨s, rfl, Stores.nil .., OnlyMem.refl s⟩
  | n + 1, i, s, hlen, hh, hr => by
    obtain ⟨hd, hl⟩ := hr i (Nat.le_refl i) (by omega)
    obtain ⟨u, hu, hfirst, hmem⟩ := moveSector_stores (i := i) (by omega) hdev hcs hh hd hl
    obtain ⟨t, ht, hrest, hmem'⟩ := moveAll_stores hbase hjob hdev hcs n (i + 1) u (by omega) (hfirst.held.trans hh)
      fun k hlo hhi =>
        have hk := hr k (by omega) (by omega)
        ⟨hfirst.sound _ hk.1, hfirst.sound _ hk.2⟩
    have hsize : (readBytes s (moveSrc cs m + 32 * i) 32).length = 32 := by simp [readBytes]
    have hsrc : readBytes u (moveSrc cs m + 32 * (i + 1)) (32 * n) = readBytes s (moveSrc cs m + 32 * i + 32) (32 * n) := by
      rw [hfirst.readBytes_of_disjoint (by rw [hsize]; unfold moveSrc moveDst; split <;> omega)]
      rfl
    refine ⟨t, ?_, ?_, hmem.trans hmem'⟩
    · unfold moveAll
      rw [hu]
      exact ht
    · rw [Nat.mul_succ, Nat.add_comm (32 * n), readBytes_add]
      refine hfirst.append ?_
      rw [hsize, ← hsrc]
      exact hrest

theorem getD_readBytes {s : State} {a n k : Nat} (h : k < n) : (readBytes s a n).getD k 0 = readByte s (a + k) := by
  simp [readBytes, List.getD_eq_getElem?_getD, h]

/-- What a move of whole sectors without fault leaves: its bytes at their destination, and the core without it. -/
theorem completeMove_carries {core : Nat} {m : Move} {s : State} (hphase : (getCore s core).phase = none)
    (hlen : m.len % 32 = 0) (hstore : m.cstore % 32 = 0) (hdev : m.dev % 32 = 0) (hjob : m.dev + m.len ≤ retainedBase)
    (hh : s.mem.heldWrites = []) (hr : ∀ i, i < m.len → readFaults s (m.dev + i) = false ∧
      readFaults s (clusterStoreAt (clusterOf core) + m.cstore + i) = false) :
    (∀ i, i < m.len → readByte (completeMove core m s) (moveDst (clusterStoreAt (clusterOf core)) m + i) =
      readByte s (moveSrc (clusterStoreAt (clusterOf core)) m + i)) ∧
    (∀ x, x < moveDst (clusterStoreAt (clusterOf core)) m ∨ moveDst (clusterStoreAt (clusterOf core)) m + m.len ≤ x →
      readByte (completeMove core m s) x = readByte s x) ∧
    getCore (completeMove core m s) core =
      { getCore s core with moves := lremove (fun u => u.ord == m.ord) (getCore s core).moves } := by
  have hcs : (clusterStoreAt (clusterOf core) + m.cstore) % 32 = 0 := by
    unfold clusterStoreAt clusterStoreBase
    omega
  have hbase : retainedBase ≤ clusterStoreAt (clusterOf core) := by
    unfold retainedBase clusterStoreAt clusterStoreBase
    omega
  have hwin : windowsNow s (getCore s core) = none := by simp [windowsNow, hphase]
  have hsize : 32 * (m.len / 32) = m.len := by omega
  obtain ⟨t, ht, hbytes, hmem⟩ := moveAll_stores hbase hjob hdev hcs (m.len / 32) 0 s (by omega) hh fun k _ hk =>
    hr (32 * k) (by omega)
  rw [Nat.mul_zero, Nat.add_zero, Nat.add_zero, hsize] at hbytes
  have hcore : getCore t core = getCore s core := getCore_congr (by rw [hmem]) core
  have hdone : ∃ u, completeMove core m s = finishFaulted (getCore s core).region u ∧ u.mem = t.mem ∧ getCore u core =
      { getCore s core with moves := lremove (fun u => u.ord == m.ord) (getCore s core).moves } := by
    refine ⟨modCore (countAct (dieOfCore core) 3 m.len t) core fun c =>
      { c with moves := lremove (fun u => u.ord == m.ord) c.moves }, ?_, rfl, ?_⟩
    · unfold completeMove
      dsimp only
      rw [hwin, ht]
      rfl
    · rw [getCore_modCore, if_pos rfl, ← hcore]
      rfl
  obtain ⟨u, hu, humem, hucore⟩ := hdone
  have hkeep := finishFaulted_keepsWork (getCore s core).region u
  rw [hu]
  have hread : ∀ x, readByte (finishFaulted (getCore s core).region u) x = readByte t x :=
    readByte_congr (by rw [hkeep.mem, humem])
  have hsize' : ∀ b, (readBytes s b m.len).length = m.len := fun b => by simp [readBytes]
  refine ⟨fun i hi => ?_, fun x hx => ?_, by rw [hkeep.getCore, hucore]⟩
  · rw [hread, hbytes.bytes, hsize', if_pos (by omega), Nat.add_sub_cancel_left, getD_readBytes hi]
  · rw [hread, hbytes.bytes, hsize', if_neg (by omega)]

/-! ### The rows -/

section Rows

variable {s : State} {cluster core : Nat} {m : Move} (hc : cluster < Config.numClusters)

include hc

theorem exec_moveStart_idle (h : moveToStart s cluster = none ∨ dieHalted s (dieOfCluster cluster) = true) :
    exec (.moveStart cluster) s = .next s := by
  show execMoveStart cluster s = _
  unfold execMoveStart
  cases hs : moveToStart s cluster with
  | none => simp [hc]
  | some e => simp [hc, h.resolve_left (by simp [hs])]

/-- The move that starts is marked, and the cluster's next turn is the core's after it (R164). -/
theorem exec_moveStart (hh : dieHalted s (dieOfCluster cluster) = false) (h : moveToStart s cluster = some (core, m)) :
    exec (.moveStart cluster) s = .next (modCore
      { s with mem := { s.mem with moveTurn := tput 0 s.mem.moveTurn cluster ((core + 1) % 4) } } core fun c =>
        { c with moves := lupdate (fun u => u.ord == m.ord) (fun u => { u with started := true }) c.moves }) := by
  show execMoveStart cluster s = _
  simp [execMoveStart, hc, hh, h]

theorem exec_moveComplete_idle (h : moveRunning s cluster = none ∨ dieHalted s (dieOfCluster cluster) = true) :
    exec (.moveComplete cluster) s = .next s := by
  show execMoveComplete cluster s = _
  unfold execMoveComplete
  cases hs : moveRunning s cluster with
  | none => simp [hc]
  | some e => simp [hc, h.resolve_left (by simp [hs])]

theorem exec_moveComplete (hh : dieHalted s (dieOfCluster cluster) = false) (h : moveRunning s cluster = some (core, m)) :
    exec (.moveComplete cluster) s = .next (completeMove core m s) := by
  show execMoveComplete cluster s = _
  simp [execMoveComplete, hc, hh, h]

end Rows

end Sys2Proof.Machine
end

section
/-!
PROOF. Phases and programs end (R141 to R144, R194, R199, R419): what a core leaves behind, when the region's record closes, and
when its run does.
-/

namespace Sys2Proof.Machine

open Sys2Proof

/-! ### Lists of numbers -/

theorem mem_insertNat {n x : Nat} {l : List Nat} : x ∈ insertNat n l ↔ x = n ∨ x ∈ l := by
  induction l with
  | nil => simp [insertNat]
  | cons m r ih =>
    unfold insertNat
    split
    · simp
    · split
      · next h => simp [h]
      · simp [ih, or_left_comm]

theorem mem_foldl_insertNat {x : Nat} {a l : List Nat} : x ∈ a.foldl (fun l i => insertNat i l) l ↔ x ∈ a ∨ x ∈ l := by
  induction a generalizing l with
  | nil => simp
  | cons n r ih => rw [List.foldl_cons, ih, mem_insertNat, List.mem_cons, or_left_comm, or_assoc]

/-! ### Runs and regions -/

/-- A change of one region's run is seen in that region alone. -/
theorem runOf_modRun (s : State) (region q : Nat) (f : Run → Run) :
    runOf (modRun s region f) q = (runOf s q).map fun r => if q = region then f r else r := by
  unfold runOf modRun
  dsimp only
  induction s.fb.runs with
  | nil => rfl
  | cons e l ih =>
    by_cases hq : e.1 = q
    · subst hq
      by_cases hr : e.1 = region <;> simp [hr]
    · by_cases hr : e.1 = region
      · simpa [hr ▸ hq, hr] using ih
      · simpa [hq, hr] using ih

/-- A run but for its list of poisoned clusters. -/
def SameButPoison (r q : Run) : Prop := q = { r with poisoned := q.poisoned }

/-- A core's fault marks its cluster in its run, and changes nothing else. -/
theorem runOf_markPoisoned {s : State} {region : Nat} {r : Run} (h : runOf s region = some r) (core : Nat) :
    ∃ q, runOf (markPoisoned s core) region = some q ∧ SameButPoison r q := by
  refine ⟨if region = (getCore s core).region then { r with poisoned := insertNat (clusterOf core) r.poisoned } else r, ?_, ?_⟩
  · rw [markPoisoned, runOf_modRun, h]
    rfl
  · split <;> rfl

/-! ### A program ends -/

section ProgramEnd

variable {s : State} {region : Nat} {run : Run} {g : Region} (hrun : runOf s region = some run) (hreg : regionOf s region = some g)

include hrun hreg

theorem exec_programEnd_idle (h : run.program = false ∨ ∃ i ∈ g.cores, (getCore s i).ended = false) :
    exec (.programEnd region) s = .next s := by
  have hoff : (run.program && run.seqFault.isNone &&
      g.cores.all fun i => (getCore s i).ended && (getCore s i).region == region) = false := by
    obtain h | ⟨i, hi, he⟩ := h
    · rw [h]
      rfl
    · rw [List.all_eq_false.mpr ⟨i, hi, by simp [he]⟩, Bool.and_false]
  show execProgramEnd region s = _
  unfold execProgramEnd
  rw [hrun, hreg]
  dsimp only
  rw [hoff, whenTaken_false]

theorem exec_programEnd (hp : run.program = true) (hf : run.seqFault = none)
    (hall : ∀ i ∈ g.cores, (getCore s i).ended = true ∧ (getCore s i).region = region) :
    exec (.programEnd region) s = .next (finishRun region run (closeRegion region run s)) := by
  have hon : (run.program && run.seqFault.isNone &&
      g.cores.all fun i => (getCore s i).ended && (getCore s i).region == region) = true := by
    rw [hp, hf, List.all_eq_true.mpr fun i hi => by simp [hall i hi]]
    rfl
  show execProgramEnd region s = _
  unfold execProgramEnd
  rw [hrun, hreg]
  dsimp only
  rw [hon, whenTaken_true]

end ProgramEnd

/-! ### A core ends a phase -/

/-- Whether an open record is of a core's phase and lacks the core. -/
def lacksCore (core : Nat) (p : CorePhase) (o : OpenRec) : Bool :=
  o.region == p.region && o.phaseId == p.id && !o.cores.contains core

/-- A record to which no core has added. -/
def freshRecord (p : CorePhase) : OpenRec :=
  { region := p.region, phaseId := p.id, cores := [], tot := [], fmts := [], dies := 0, sat := [], incomplete := false }

/-- The open record that a core's totals enter, and the others: the oldest of its phase without the core, or a fresh one. -/
def recordFor (core : Nat) (p : CorePhase) (opens : List OpenRec) : OpenRec × List OpenRec :=
  match opens.find? (lacksCore core p) with
  | some o => (o, lremove (lacksCore core p) opens)
  | none => (freshRecord p, opens)

/-- The record `o1` with the core's totals joins the other open ones, and closes with the last core; a single phase's run ends with
it. -/
def enterRecord (core region : Nat) (o1 : OpenRec) (others : List OpenRec) (run : Run) (g : Region) (s : State) : State :=
  let run1 := { run with endedCores := insertNat core run.endedCores }
  let s3 := setRun { s with tw := { s.tw with opens := others ++ [o1] } } region run1
  let all := g.cores.all fun i => o1.cores.contains i
  let s4 := if all then closeOpen o1 run1 s3 else s3
  if !run1.program && all then finishRun region run1 s4 else finishFaulted region s4

/-- The region's part of a phase's end: totals, formats and saturated formats `a` enter its open record. -/
def enterTotals (core : Nat) (p : CorePhase) (a : Tbl Nat × List Nat × List Nat) (s : State) : State :=
  match runOf s p.region, regionOf s p.region with
  | some run, some g =>
    if p.late then finishFaulted p.region s else
    let e := recordFor core p s.tw.opens
    enterRecord core p.region (addTotals e.1 core a.1 a.2.1 a.2.2) e.2 run g s
  | _, _ => s

/-- Nothing but cells differs. -/
def OnlyCells (s t : State) : Prop := t = { s with cells := t.cells }

theorem foldl_onlyCells {α : Type} {f : State → α → State} (hf : ∀ s a, OnlyCells s (f s a)) (l : List α) (s : State) :
    OnlyCells s (l.foldl f s) := by
  induction l generalizing s with
  | nil => rfl
  | cons a r ih =>
    have hr := ih (f s a)
    unfold OnlyCells at *
    rw [List.foldl_cons, hr, hf s a]

/-- Nothing but cells, cores and the runs differs. -/
def OnlyRunning (s t : State) : Prop :=
  t = { s with cells := t.cells, cores := t.cores, fb := { s.fb with runs := t.fb.runs } }

theorem OnlyRunning.sentUp {s t : State} (h : OnlyRunning s t) : sentUp t = sentUp s := by
  rw [h]
  rfl

theorem OnlyRunning.regionOf {s t : State} (h : OnlyRunning s t) (region : Nat) : regionOf t region = regionOf s region := by
  rw [h]
  rfl

theorem OnlyRunning.waits {s t : State} (h : OnlyRunning s t) : t.fb.waits = s.fb.waits := by rw [h]

theorem OnlyRunning.tw {s t : State} (h : OnlyRunning s t) : t.tw = s.tw := by rw [h]

theorem OnlyRunning.of_onlyCells {s t u : State} (h : OnlyCells s t) (g : OnlyRunning t u) : OnlyRunning s u := by
  unfold OnlyRunning OnlyCells at *
  rw [g, h]

theorem modCore_onlyRunning (s : State) (i : Nat) (f : Core → Core) : OnlyRunning s (modCore s i f) := rfl

theorem markPoisoned_cores (s : State) (core : Nat) : (markPoisoned s core).cores = s.cores := rfl

/-- What the core's own part of a phase's end does: the phase is its last one, and at most its run's poisoned clusters change. -/
structure PhaseLeft (core : Nat) (p : CorePhase) (s t : State) : Prop where
  running : OnlyRunning s t
  phase : (getCore t core).phase = none
  lastPhase : (getCore t core).lastPhase = p.id
  runs : ∀ region r, runOf s region = some r → ∃ q, runOf t region = some q ∧ SameButPoison r q

theorem PhaseLeft.markPoisoned {core : Nat} {p : CorePhase} {s t : State} (h : PhaseLeft core p s t) :
    PhaseLeft core p s (markPoisoned t core) where
  running := by
    have hr := h.running
    unfold OnlyRunning at *
    unfold Machine.markPoisoned modRun
    rw [hr]
  phase := (congrArg Core.phase (getCore_congr (markPoisoned_cores t core) core)).trans h.phase
  lastPhase := (congrArg Core.lastPhase (getCore_congr (markPoisoned_cores t core) core)).trans h.lastPhase
  runs region r hr := by
    obtain ⟨q, hq, hsame⟩ := h.runs region r hr
    obtain ⟨q2, hq2, hsame2⟩ := runOf_markPoisoned hq core
    refine ⟨q2, hq2, ?_⟩
    unfold SameButPoison at *
    rw [hsame2, hsame]

/-- A phase's end on a core is the core's own part, then its region's. -/
theorem endPhaseOn_leaves (core : Nat) (p : CorePhase) (s : State) :
    ∃ a u, PhaseLeft core p s u ∧ endPhaseOn core p s = enterTotals core p a u := by
  generalize ht : endPhaseOn core p s = t
  unfold endPhaseOn at ht
  extract_lets s0 poisoned mirror mine fresh at ht
  have hs0 : OnlyCells s s0 := foldl_onlyCells (fun st i => by split <;> rfl) _ s
  clear_value s0 poisoned mirror
  dsimp -zeta only at ht
  extract_lets s1 s2 at ht
  have hs1 : PhaseLeft core p s s1 := by
    refine ⟨OnlyRunning.of_onlyCells hs0 (modCore_onlyRunning ..), ?_, ?_, fun region r h => ⟨r, ?_, rfl⟩⟩
    · simp only [s1, getCore_modCore, if_true]
    · simp only [s1, getCore_modCore, if_true]
    · rw [← h]
      exact runOf_congr (show s0.fb = s.fb by rw [hs0]) region
  have hs2 : PhaseLeft core p s s2 := by
    by_cases hm : mirror = true
    · rw [show s2 = _ from if_pos hm]
      exact hs1.markPoisoned
    · rw [show s2 = _ from if_neg hm]
      exact hs1
  refine ⟨coreTotals s0 core, s2, hs2, ht.symm.trans ?_⟩
  have hmine : mine = lacksCore core p := rfl
  have hfresh : fresh = freshRecord p := rfl
  clear_value s2 mine fresh
  subst hmine hfresh
  unfold enterTotals
  cases runOf s2 p.region with
  | none => rfl
  | some run =>
    cases regionOf s2 p.region with
    | none => rfl
    | some g =>
      by_cases hl : p.late = true
      · dsimp -zeta only
        rw [if_pos hl, if_pos hl]
      · dsimp -zeta only
        rw [if_neg hl, if_neg hl]
        rfl

theorem enterRecord_keepsWork (core region : Nat) (o1 : OpenRec) (others : List OpenRec) (run : Run) (g : Region) (s : State) :
    KeepsWork s (enterRecord core region o1 others run g s) := by
  unfold enterRecord
  extract_lets run1 tw s3 all s4
  have hs3 : KeepsWork s s3 := ⟨rfl, rfl, rfl⟩
  have hs4 : KeepsWork s s4 := keepsWork_ite (hs3.trans (closeOpen_closes ..).work) hs3
  exact keepsWork_ite (hs4.trans (finishRun_keepsWork ..)) (hs4.trans (finishFaulted_keepsWork ..))

theorem enterTotals_keepsWork (core : Nat) (p : CorePhase) (a : Tbl Nat × List Nat × List Nat) (s : State) :
    KeepsWork s (enterTotals core p a s) := by
  unfold enterTotals
  split
  · exact keepsWork_ite (finishFaulted_keepsWork ..) (enterRecord_keepsWork ..)
  · exact KeepsWork.refl s

/-- A core that is the last of a single phase to end it closes the record and ends the run. -/
theorem enterTotals_of_last {core : Nat} {p : CorePhase} {s : State} {run : Run} {g : Region} {o : OpenRec}
    (hrun : runOf s p.region = some run) (hreg : regionOf s p.region = some g) (hprog : run.program = false)
    (hl : p.late = false) (ho : s.tw.opens.find? (lacksCore core p) = some o)
    (hall : ∀ i ∈ g.cores, i ≠ core → i ∈ o.cores) (a : Tbl Nat × List Nat × List Nat) :
    ∃ u, enterTotals core p a s = finishRun p.region { run with endedCores := insertNat core run.endedCores } u ∧
      sentUp u = sentUp s ∧ s.tw.head ≤ u.tw.head ∧ u.fb.waits = s.fb.waits := by
  have hrec : recordFor core p s.tw.opens = (o, lremove (lacksCore core p) s.tw.opens) := by
    unfold recordFor
    rw [ho]
  have hcores : (g.cores.all fun i => (addTotals o core a.1 a.2.1 a.2.2).cores.contains i) = true := by
    refine List.all_eq_true.mpr fun i hi => List.contains_iff_mem.mpr ?_
    refine mem_insertNat.mpr ?_
    by_cases hic : i = core
    · exact .inl hic
    · exact .inr (hall i hi hic)
  unfold enterTotals
  rw [hrun, hreg]
  dsimp only
  rw [hl, hrec, if_neg Bool.false_ne_true]
  unfold enterRecord
  extract_lets run1 tw s3 all s4
  have hclose : Closes s3 s4 := by
    rw [show s4 = _ from if_pos hcores]
    exact closeOpen_closes ..
  have hlast : (!run1.program && all) = true := by
    rw [show run1.program = false from hprog, show all = true from hcores]
    rfl
  rw [if_pos hlast]
  exact ⟨s4, rfl, hclose.up, hclose.head, by rw [hclose.fb]; rfl⟩

section PhaseEnd

variable {s : State} {core : Nat} {p : CorePhase} (hc : core < Config.numCores)

include hc

theorem exec_phaseEnd_idle (h : (getCore s core).phase = none ∨ dieHalted s (dieOfCore core) = true) :
    exec (.phaseEnd core) s = .next s := by
  show execPhaseEnd core s = _
  unfold execPhaseEnd
  cases hs : (getCore s core).phase with
  | none => simp [hc]
  | some p => simp [hc, h.resolve_left (by simp [hs])]

theorem exec_phaseEnd (hh : dieHalted s (dieOfCore core) = false) (h : (getCore s core).phase = some p) :
    exec (.phaseEnd core) s = .next (releaseWrites (endPhaseOn core p s)) := by
  show execPhaseEnd core s = _
  simp [execPhaseEnd, hc, hh, h]

end PhaseEnd

/-- A core whose phase has ended has none, and shows it as its last. -/
theorem getCore_releaseWrites_endPhaseOn (core : Nat) (p : CorePhase) (s : State) :
    (getCore (releaseWrites (endPhaseOn core p s)) core).phase = none ∧
      (getCore (releaseWrites (endPhaseOn core p s)) core).lastPhase = p.id := by
  obtain ⟨a, u, hleft, hu⟩ := endPhaseOn_leaves core p s
  have hcore : getCore (releaseWrites (endPhaseOn core p s)) core = getCore u core := by
    rw [getCore_congr (releaseWrites_onlyMemCp (endPhaseOn core p s)).cores, hu, (enterTotals_keepsWork ..).getCore]
  rw [hcore]
  exact ⟨hleft.phase, hleft.lastPhase⟩

/-- The last core of a single phase to end it ends the run, whose completion is posted. -/
theorem releaseWrites_endPhaseOn_last {core : Nat} {p : CorePhase} {s : State} {run : Run} {g : Region} {o : OpenRec}
    (hrun : runOf s p.region = some run) (hreg : regionOf s p.region = some g) (hprog : run.program = false)
    (hf : run.seqFault = none) (hl : p.late = false) (hw : s.fb.waits = [])
    (ho : s.tw.opens.find? (lacksCore core p) = some o) (hall : ∀ i ∈ g.cores, i ≠ core → i ∈ o.cores) :
    runOf (releaseWrites (endPhaseOn core p s)) p.region = none ∧
      s.tw.head ≤ (releaseWrites (endPhaseOn core p s)).tw.head ∧
      ∃ st f res, (st = 0 ∨ st = 0x0200) ∧
        sentUp (releaseWrites (endPhaseOn core p s)) = sentUp s ++ [.completion run.handle st f res] := by
  obtain ⟨a, u, hleft, hu⟩ := endPhaseOn_leaves core p s
  obtain ⟨q, hq, hsame⟩ := hleft.runs p.region run hrun
  have hqprog : q.program = false := by rw [hsame]; exact hprog
  have hqf : q.seqFault = none := by rw [hsame]; exact hf
  have hqh : q.handle = run.handle := by rw [hsame]
  have hop : u.tw.opens.find? (lacksCore core p) = some o := by rw [hleft.running.tw, ho]
  obtain ⟨v, hv, hup, hhead, hwaits⟩ :=
    enterTotals_of_last hq (by rw [hleft.running.regionOf, hreg]) hqprog hl hop hall a
  have hvw : v.fb.waits = [] := by rw [hwaits, hleft.running.waits, hw]
  obtain ⟨hnone, htw, st, f, res, hst, hsent⟩ :=
    finishRun_ends (r := { q with endedCores := insertNat core q.endedCores }) hvw hqf p.region
  rw [← hv, ← hu] at hnone htw hsent
  have hrel := releaseWrites_onlyMemCp (endPhaseOn core p s)
  refine ⟨(runOf_congr hrel.fb _).trans hnone, ?_, st, f, res, hst, ?_⟩
  · rw [hrel.tw, htw, ← hleft.running.tw]
    exact hhead
  · rw [hrel.sentUp, hsent, hup, hleft.running.sentUp, ← hqh]

/-! ### Totals that do not arrive (R144) -/

/-- Whether an open record of a region misses a core of a die. -/
def missesDie (region die : Nat) (g : Region) (o : OpenRec) : Bool :=
  o.region == region && g.cores.any fun i => dieOfCore i == die && !o.cores.contains i

/-- The cores of a die that a record misses. -/
def missedCores (die : Nat) (g : Region) (o : OpenRec) : List Nat :=
  g.cores.filter fun i => dieOfCore i == die && !o.cores.contains i

/-- The record without anything of a die, and not waiting for its cores. -/
def withoutDie (die : Nat) (g : Region) (o : OpenRec) : OpenRec :=
  { dropDie o die with cores := (missedCores die g o).foldl (fun l i => insertNat i l) o.cores }

/-- A core's totals of a phase come too late. -/
def markLate (o : OpenRec) (c : Core) : Core :=
  { c with phase := c.phase.map fun p => if p.id == o.phaseId then { p with late := true } else p }

theorem foldl_modCore_stands (f : Core → Core) (l : List Nat) (s : State) :
    (l.foldl (fun st i => modCore st i f) s).tw = s.tw ∧ (l.foldl (fun st i => modCore st i f) s).fb = s.fb := by
  induction l generalizing s with
  | nil => exact ⟨rfl, rfl⟩
  | cons i r ih => exact ih (modCore s i f)

/-- Another die's format stays in the record. -/
theorem formats_withoutDie {die f : Nat} {g : Region} {o : OpenRec} (hf : f ∈ o.fmts) (hd : f / 16 ≠ die) :
    (withoutDie die g o).formats ≠ [] := by
  have hmem : f % 16 ∈ (withoutDie die g o).formats := by
    refine List.mem_filter.mpr ⟨List.mem_range.mpr (Nat.mod_lt _ (by decide)), ?_⟩
    exact List.any_eq_true.mpr ⟨f, List.mem_filter.mpr ⟨hf, by simpa using hd⟩, by simp⟩
  exact List.ne_nil_of_mem hmem

section TotalsTimeout

variable {s : State} {region die : Nat} {run : Run} {g : Region} (hd : die < Config.numDies)
  (hrun : runOf s region = some run) (hreg : regionOf s region = some g)

include hd hrun hreg

theorem exec_totalsTimeout_idle (h : ∀ o ∈ s.tw.opens, o.region = region → ∀ i ∈ g.cores, dieOfCore i = die → i ∈ o.cores) :
    exec (.totalsTimeout region die) s = .next s := by
  have hnone : s.tw.opens.find? (missesDie region die g) = none := by
    refine List.find?_eq_none.mpr fun o ho hmiss => ?_
    simp only [missesDie, Bool.and_eq_true, beq_iff_eq, List.any_eq_true, Bool.not_eq_true', List.contains_eq_mem,
      decide_eq_false_iff_not] at hmiss
    obtain ⟨hr, i, hi, hid, hout⟩ := hmiss
    exact hout (h o ho hr i hi hid)
  show execTotalsTimeout region die s = _
  unfold execTotalsTimeout
  rw [hrun, hreg]
  dsimp -zeta only
  extract_lets missing
  have hm : missing = missesDie region die g := rfl
  rw [hm, hnone, decide_eq_true hd]
  rfl

/-- The record of a single phase that waits for one die alone closes without that die's totals, and the run ends. -/
theorem exec_totalsTimeout_last {o : OpenRec} (hprog : run.program = false)
    (ho : s.tw.opens.find? (missesDie region die g) = some o)
    (hall : ∀ i ∈ g.cores, dieOfCore i ≠ die → i ∈ o.cores) :
    ∃ u, exec (.totalsTimeout region die) s = .next (finishRun region run (closeOpen (withoutDie die g o) run u)) ∧
      u.tw.head = s.tw.head ∧ u.fb = s.fb := by
  let opens := lupdate (missesDie region die g) (fun _ => withoutDie die g o) s.tw.opens
  let u := (missedCores die g o).foldl (fun st i => modCore st i (markLate o)) { s with tw := { s.tw with opens := opens } }
  have hcores : (g.cores.all fun i => (withoutDie die g o).cores.contains i) = true := by
    refine List.all_eq_true.mpr fun i hi => List.contains_iff_mem.mpr (mem_foldl_insertNat.mpr ?_)
    by_cases hio : i ∈ o.cores
    · exact .inr hio
    · have hid : dieOfCore i = die := by_contra fun hne => hio (hall i hi hne)
      exact .inl (List.mem_filter.mpr ⟨hi, by simp [hid, hio]⟩)
  obtain ⟨htw, hfb⟩ := foldl_modCore_stands (markLate o) (missedCores die g o) { s with tw := { s.tw with opens := opens } }
  refine ⟨u, ?_, by rw [show u.tw = _ from htw], hfb⟩
  show execTotalsTimeout region die s = _
  unfold execTotalsTimeout
  rw [hrun, hreg]
  dsimp -zeta only
  extract_lets missing
  have hm : missing = missesDie region die g := rfl
  rw [hm, ho, decide_eq_true hd, guardUnit_true]
  dsimp -zeta only
  extract_lets left dropped o1
  rw [if_pos (show (g.cores.all fun i => o1.cores.contains i) = true from hcores),
    if_neg (by rw [hprog]; exact Bool.false_ne_true)]
  rfl

end TotalsTimeout

end Sys2Proof.Machine
end

section
/-!
PROOF. The statement about streams, moves, phases and programs, clause by clause (R141 to R144, R154, R155, R164, R193, R194,
R199, R280, R282, R419).
-/

namespace Sys2Proof.Machine

open Sys2Proof

/-- A program whose cores have all ended ends its run: its completion tells the head after its region's records. -/
theorem programEnd_completes {s : State} {region : Nat} {run : Run} {g : Region} (hrun : runOf s region = some run)
    (hreg : regionOf s region = some g) (hp : run.program = true) (hf : run.seqFault = none) (hw : s.fb.waits = [])
    (hclean : run.poisoned = []) (hall : ∀ i ∈ g.cores, (getCore s i).ended = true ∧ (getCore s i).region = region) :
    Answers (.programEnd region) s fun t => runOf t region = none ∧
      sentUp t = sentUp s ++ [.completion run.handle 0 0 [0, 0, 0, BitVec.ofNat 64 t.tw.head]] ∧ s.tw.head ≤ t.tw.head ∧
      (∀ o ∈ t.tw.opens, o.region ≠ region) ∧ ((∀ o ∈ s.tw.opens, o.region ≠ region) → t.tw.head = s.tw.head) := by
  have hclose := closeRegion_closes region run s
  have hw' : (closeRegion region run s).fb.waits = [] := by rw [hclose.fb, hw]
  obtain ⟨hnone, htw, -⟩ := finishRun_ends hw' hf region
  refine ⟨_, exec_programEnd hrun hreg hp hf hall, hnone, ?_, ?_, ?_, fun h => ?_⟩
  · rw [htw, finishRun_of_no_waits hw', sentUp_runEnded_clean hf hclean, hclose.up]
  · rw [htw]
    exact hclose.head
  · rw [htw]
    exact closeRegion_opens region run s
  · rw [htw, closeRegion_of_none h]

/-- A single phase that waits for one die's totals alone ends without them, marked (R144). -/
theorem totalsTimeout_completes {s : State} {region die : Nat} {run : Run} {g : Region} {o : OpenRec} (hd : die < Config.numDies)
    (hrun : runOf s region = some run) (hreg : regionOf s region = some g) (hprog : run.program = false) (hw : s.fb.waits = [])
    (ho : s.tw.opens.find? (missesDie region die g) = some o) (hall : ∀ i ∈ g.cores, dieOfCore i ≠ die → i ∈ o.cores)
    (hfmt : ∃ f ∈ o.fmts, f / 16 ≠ die) :
    Answers (.totalsTimeout region die) s fun t =>
      s.tw.head < t.tw.head ∧ t.tw.status.getLsbD 0 = true ∧ runOf t region = none := by
  obtain ⟨f, hf, hfd⟩ := hfmt
  obtain ⟨u, hexec, hhead, hfb⟩ := exec_totalsTimeout_last hd hrun hreg hprog ho hall
  obtain ⟨hlt, hmark⟩ := closeOpen_records (formats_withoutDie (g := g) hf hfd) run u
  have hw' : (closeOpen (withoutDie die g o) run u).fb.waits = [] := by rw [(closeOpen_closes ..).fb, hfb, hw]
  have htw : (finishRun region run (closeOpen (withoutDie die g o) run u)).tw = (closeOpen (withoutDie die g o) run u).tw := by
    rw [finishRun_of_no_waits hw', runEnded_tw]
  refine ⟨_, hexec, ?_, ?_, ?_⟩
  · rw [htw, ← hhead]
    exact hlt
  · rw [htw]
    exact hmark rfl
  · rw [finishRun_of_no_waits hw', runOf_congr (runEnded_fb ..), runOf_dropRun]

/-- Settles O50: each row is read through what it leaves in its core, in memory and in its region's run. -/
theorem streamsMovesAndPhasesComplete : Obligations.StreamsMovesAndPhasesComplete := by
  unfold Obligations.StreamsMovesAndPhasesComplete
  intro s core port cluster region die out t0 m p run g
  dsimp only
  refine ⟨exec_streamStart_idle, fun hc hp hh ht => ⟨_, exec_streamStart hc hp hh ht, ?streamStart⟩, exec_streamComplete_idle,
    fun hc hp hh ht hin => ⟨_, exec_streamComplete hc hp hh ht, completeStream_of_in hin core s⟩, ?outWaits,
    fun hc hh hm => ⟨_, exec_moveStart hc hh hm, rfl, ?turn, ?moveStart⟩, exec_moveStart_idle,
    fun hc hh hm hphase hlen hstore hdev hjob _ hheld hr =>
      ⟨_, exec_moveComplete hc hh hm, completeMove_carries hphase hlen hstore hdev hjob hheld hr⟩,
    exec_moveComplete_idle, programEnd_completes, exec_programEnd_idle, exec_phaseEnd_idle,
    fun hc hh hphase => ⟨_, exec_phaseEnd hc hh hphase, ?phaseEnd⟩, exec_totalsTimeout_idle, fun o => totalsTimeout_completes⟩
  case streamStart =>
    obtain ⟨hstreams, hmoves⟩ := startStream_marks core t0 s
    refine ⟨hstreams, hmoves, fun hdir => ?_⟩
    rw [startStream_of_not_in hdir]
    exact ⟨rfl, rfl⟩
  case outWaits =>
    intro hc hp hh ht hout hmiss hreg
    rw [exec_streamComplete hc hp hh ht, completeStream_of_missing hout ht hmiss hreg]
  case turn => simp [modCore, setCore]
  case moveStart =>
    rw [getCore_modCore, if_pos rfl]
    rfl
  case phaseEnd =>
    obtain ⟨hnone, hlast⟩ := getCore_releaseWrites_endPhaseOn core p s
    refine ⟨hnone, hlast, fun o hrun hreg hprog hf hl hw _ ho hall _ => ?_⟩
    obtain ⟨hended, hhead, st, f, res, hst, hup⟩ := releaseWrites_endPhaseOn_last hrun hreg hprog hf hl hw ho hall
    refine ⟨hended, hhead, ?_⟩
    obtain rfl | rfl := hst
    · exact .inl ⟨f, res, hup⟩
    · exact .inr ⟨f, res, hup⟩

end Sys2Proof.Machine
end

section
/-!
PROOF. The register files, and immediates extended to words (R176, R177, R183).
-/

namespace Sys2Proof.Machine

open Sys2Proof

/-! ### The register files -/

theorem readG_zero (c : Core) : readG c 0 = (0, false) := rfl

theorem writeG_zero (c : Core) (v : PV) : writeG c 0 v = c := rfl

theorem readG_writeG {d : RField} (hd : d ≠ 0) (c : Core) (v : PV) (a : RField) :
    readG (writeG c d v) a = if a = d then v else readG c a := by
  unfold readG writeG
  rw [if_neg hd]
  by_cases ha : a = 0
  · rw [if_pos ha, if_pos ha, if_neg (ha ▸ Ne.symm hd)]
  · simp only [if_neg ha, tget_tput, BitVec.toNat_inj]
    split <;> rfl

@[simp] theorem readF_writeF (c : Core) (i j : Nat) (v : PV) :
    readF (writeF c i v) j = if j = i then v else readF c j := by
  simp only [readF, writeF, tget_tput]
  split <;> rfl

/-- What a run of lanes leaves in the file: the lanes written, and every other word. -/
theorem readF_writeWFrom (n i : Nat) : ∀ (vs : List PV) (c : Core) (k : Nat), readF (writeWFrom c n k vs) i =
    if 4 * n + k ≤ i ∧ i < 4 * n + k + vs.length then vs.getD (i - (4 * n + k)) (0, false) else readF c i
  | [], c, k => by
    rw [if_neg (by simp)]
    rfl
  | v :: r, c, k => by
    rw [writeWFrom, readF_writeWFrom n i r, readF_writeF, List.length_cons]
    by_cases hi : i = 4 * n + k
    · subst hi
      simp
    · by_cases hr : 4 * n + (k + 1) ≤ i ∧ i < 4 * n + (k + 1) + r.length
      · have hsucc : i - (4 * n + k) = i - (4 * n + (k + 1)) + 1 := by omega
        rw [if_pos hr, if_pos (by omega), hsucc, List.getD_cons_succ]
      · rw [if_neg hr, if_neg hi, if_neg (by omega)]

theorem readF_writeW (c : Core) (n i : Nat) (vs : List PV) : readF (writeW c n vs) i =
    if 4 * n ≤ i ∧ i < 4 * n + vs.length then vs.getD (i - 4 * n) (0, false) else readF c i :=
  readF_writeWFrom n i vs c 0

theorem getElem?_readW {k : Nat} (hk : k < 4) (c : Core) (n : Nat) : (readW c n)[k]? = some (readF c (4 * n + k)) := by
  simp [readW, hk]

/-- Settles O4: each file reads as what was last written to the word asked for. -/
theorem registerFilesHoldWhatIsWritten : Obligations.RegisterFilesHoldWhatIsWritten := by
  unfold Obligations.RegisterFilesHoldWhatIsWritten
  refine ⟨fun c v => ⟨readG_zero c, writeG_zero c v, fun d a hd => readG_writeG hd c v a⟩,
    fun c n k v vs hk => ⟨getElem?_readW hk c n, fun j hj => ?scalar, fun hlen => ?lane, fun hlen i hi => ?others⟩⟩
  case scalar =>
    rw [getElem?_readW hj, readF_writeF]
    simp only [Nat.add_left_cancel_iff]
    split <;> rfl
  case lane => rw [readF_writeW, if_pos (by omega), Nat.add_sub_cancel_left]
  case others => rw [readF_writeW, if_neg (by omega)]

/-! ### Immediates -/

theorem sext64_eq {w : Nat} (x : BitVec w) : sext64 x = BitVec.ofInt 64 x.toInt := rfl

theorem mul_sext64 {w : Nat} (n : Nat) (x : BitVec w) :
    BitVec.ofNat 64 n * sext64 x = BitVec.ofInt 64 (n * x.toInt) := by
  rw [sext64_eq, BitVec.ofInt_mul, BitVec.ofInt_natCast]

end Sys2Proof.Machine
end

section
/-!
PROOF. The integer rows and the branches: each operation of the model's words is the arithmetic its row names, modulo 2^64 (R178,
R184, R185).
-/

namespace Sys2Proof.Machine

open Sys2Proof

/-! ### Words as numbers -/

theorem sub_eq_ofInt (x y : W64) : x - y = BitVec.ofInt 64 (x.toInt - y.toInt) :=
  BitVec.eq_of_toInt_eq (by rw [BitVec.toInt_sub, BitVec.toInt_ofInt])

theorem shiftLeft_eq_ofNat (x : W64) (n : Nat) : x <<< n = BitVec.ofNat 64 (x.toNat * 2 ^ n) :=
  BitVec.eq_of_toNat_eq (by rw [BitVec.toNat_shiftLeft, BitVec.toNat_ofNat, Nat.shiftLeft_eq])

theorem ushiftRight_eq_ofNat (x : W64) (n : Nat) : x >>> n = BitVec.ofNat 64 (x.toNat / 2 ^ n) := by
  rw [← Nat.shiftRight_eq_div_pow, ← BitVec.toNat_ushiftRight, BitVec.ofNat_toNat, BitVec.setWidth_eq]

theorem sshiftRight_eq_ofInt (x : W64) (n : Nat) : x.sshiftRight n = BitVec.ofInt 64 (x.toInt / 2 ^ n) := by
  rw [BitVec.sshiftRight, Int.shiftRight_eq_div_pow]
  rfl

theorem shamt_eq (y : W64) : shamt y = y.toNat % 64 := by simp [shamt, bits64, bitsOf]

theorem w64OfBool_slt (x y : W64) : w64OfBool (x.slt y) = if x.toInt < y.toInt then 1 else 0 := by
  simp [w64OfBool, BitVec.slt]

theorem w64OfBool_ult (x y : W64) : w64OfBool (x.ult y) = if x.toNat < y.toNat then 1 else 0 := by
  simp [w64OfBool, BitVec.ult]

/-- Signed minimum and maximum, by a comparison. -/
theorem smin_eq_ofInt (x y : W64) : (if y.slt x then y else x) = BitVec.ofInt 64 (min x.toInt y.toInt) := by
  by_cases h : y.toInt < x.toInt
  · simp [BitVec.slt, h, min_eq_right h.le]
  · simp [BitVec.slt, h, min_eq_left (not_lt.mp h)]

theorem smax_eq_ofInt (x y : W64) : (if x.slt y then y else x) = BitVec.ofInt 64 (max x.toInt y.toInt) := by
  by_cases h : x.toInt < y.toInt
  · simp [BitVec.slt, h, max_eq_right h.le]
  · simp [BitVec.slt, h, max_eq_left (not_lt.mp h)]

/-- Likewise unsigned. -/
theorem umin_eq_ofNat (x y : W64) : (if y.ult x then y else x) = BitVec.ofNat 64 (min x.toNat y.toNat) := by
  by_cases h : y.toNat < x.toNat
  · simp [BitVec.ult, h, min_eq_right h.le]
  · simp [BitVec.ult, h, min_eq_left (not_lt.mp h)]

theorem umax_eq_ofNat (x y : W64) : (if x.ult y then y else x) = BitVec.ofNat 64 (max x.toNat y.toNat) := by
  by_cases h : x.toNat < y.toNat
  · simp [BitVec.ult, h, max_eq_right h.le]
  · simp [BitVec.ult, h, max_eq_left (not_lt.mp h)]

theorem udiv_eq_ofNat (x y : W64) : x.udiv y = BitVec.ofNat 64 (x.toNat / y.toNat) :=
  BitVec.udiv_def

theorem umod_eq_ofNat (x y : W64) : x.umod y = BitVec.ofNat 64 (x.toNat % y.toNat) :=
  BitVec.umod_def

/-! ### Counts of bits -/

theorem countP_range_le (n : Nat) : ∀ m, (List.range m).countP (fun k => decide (n ≤ k)) = m - n
  | 0 => (Nat.zero_sub n).symm
  | m + 1 => by
    rw [List.range_succ, List.countP_append, List.countP_singleton, countP_range_le n m]
    by_cases hn : n ≤ m
    · rw [if_pos (decide_eq_true hn)]
      omega
    · rw [if_neg (by simpa using hn)]
      omega

/-- CLZ counts the powers of two, of 64, that are above the word. -/
theorem clz64_eq (x : W64) : clz64 x = BitVec.ofNat 64 ((List.range 64).countP fun k => decide (x.toNat < 2 ^ k)) := by
  have hx := x.isLt
  unfold clz64
  split
  · next h =>
    subst h
    rfl
  · next h =>
    have hne : x.toNat ≠ 0 := fun h0 => h (BitVec.eq_of_toNat_eq h0)
    have hlog : x.toNat.log2 < 64 := (Nat.log2_lt hne).mpr hx
    have hbelow : ∀ k, (x.toNat < 2 ^ k ↔ x.toNat.log2 + 1 ≤ k) := fun k => (Nat.log2_lt hne).symm
    simp only [hbelow]
    rw [countP_range_le]
    congr 1
    omega

/-- POPC counts the bits that stand. -/
theorem popc64_eq (x : W64) : popc64 x = BitVec.ofNat 64 ((List.range 64).countP fun k => x.getLsbD k) := by
  have hfold : ∀ (l : List Nat) (n : Nat), l.foldl (fun n i => n + b2n (x.getLsbD i)) n =
      n + l.countP fun k => x.getLsbD k := by
    intro l
    induction l with
    | nil => simp
    | cons i r ih =>
      intro n
      rw [List.foldl_cons, ih, List.countP_cons]
      unfold b2n
      omega
  rw [popc64, hfold, Nat.zero_add]

/-! ### The rows -/

section Alu

variable {i : Instr} {w : W32} {core : Nat} {d a b : RField} {s : State}

/-- A row on Ga and Gb. -/
theorem givesG_of_aluG {op f : W64 → W64 → W64} (hi : exec i s = seqStep core w (onCore (aluG d a b op)) s)
    (h : ∀ x y, op x y = f x y) : GivesG i w core d (ofGG (getCore s core) a b f) s :=
  givesG_of_onCore hi (by rw [ofGG, ← h]; rfl)

/-- A row on Ga alone. -/
theorem givesG_of_aluG1 {op f : W64 → W64} (hi : exec i s = seqStep core w (onCore (aluG1 d a op)) s)
    (h : ∀ x, op x = f x) : GivesG i w core d (ofG (getCore s core) a f) s :=
  givesG_of_onCore hi (by rw [ofG, ← h]; rfl)

end Alu

/-- The field of an immediate shift: the kind above the distance. -/
theorem shiftField_eq (kind : Nat) {k : Nat} {sh : BitVec 6} (hk : k = 64 * kind + sh.toNat) :
    BitVec.ofNat 14 k = BitVec.ofNat 14 (kind * 64) ||| sh.setWidth 14 := by
  have hor : k = kind * 64 ||| sh.toNat := by
    rw [hk, Nat.mul_comm kind]
    exact Nat.two_pow_add_eq_or_of_lt (i := 6) sh.isLt kind
  rw [hor, BitVec.ofNat_or, BitVec.ofNat_toNat]

/-- LUI's word: the immediate above 14 zeros. -/
theorem lui_eq (imm : BitVec 20) : sext64 imm <<< 14 = BitVec.ofInt 64 (imm.toInt * 2 ^ 14) := by
  rw [sext64_eq, ← BitVec.mul_twoPow_eq_shiftLeft, BitVec.ofInt_mul]
  rfl

/-- Settles O3: each row's operation on words is the arithmetic named. -/
theorem integerInstructionsWriteGd : Obligations.IntegerInstructionsWriteGd := by
  unfold Obligations.IntegerInstructionsWriteGd
  intro s core d a b imm sh imm20
  dsimp only
  refine ⟨givesG_of_aluG rfl fun x y => ?add, givesG_of_aluG rfl sub_eq_ofInt, givesG_of_aluG rfl fun x y => ?and,
    givesG_of_aluG rfl fun x y => ?or, givesG_of_aluG rfl fun x y => ?xor, givesG_of_aluG rfl fun x y => ?sll,
    givesG_of_aluG rfl fun x y => ?srl, givesG_of_aluG rfl fun x y => ?sra, givesG_of_aluG rfl w64OfBool_slt,
    givesG_of_aluG rfl w64OfBool_ult, givesG_of_aluG rfl smin_eq_ofInt, givesG_of_aluG rfl smax_eq_ofInt,
    givesG_of_aluG rfl umin_eq_ofNat, givesG_of_aluG rfl umax_eq_ofNat, givesG_of_aluG rfl fun x y => ?mul,
    givesG_of_aluG rfl fun _ _ => rfl, givesG_of_aluG rfl fun x y => ?divu, givesG_of_aluG rfl fun x y => ?remu,
    givesG_of_aluG1 rfl clz64_eq, givesG_of_aluG1 rfl popc64_eq, givesG_of_aluG1 rfl fun x => ?addi,
    givesG_of_aluG1 rfl fun _ => rfl, givesG_of_aluG1 rfl fun _ => rfl, givesG_of_aluG1 rfl fun _ => rfl,
    givesG_of_aluG1 rfl fun x => ?slti, givesG_of_aluG1 rfl fun x => w64OfBool_ult x _, ?slli, ?srli, ?srai, ?lui⟩
  case add => simp only [BitVec.ofNat_add, BitVec.ofNat_toNat, BitVec.setWidth_eq]
  case and => rw [← BitVec.toNat_and, BitVec.ofNat_toNat, BitVec.setWidth_eq]
  case or => rw [← BitVec.toNat_or, BitVec.ofNat_toNat, BitVec.setWidth_eq]
  case xor => rw [← BitVec.toNat_xor, BitVec.ofNat_toNat, BitVec.setWidth_eq]
  case sll => rw [shamt_eq, shiftLeft_eq_ofNat]
  case srl => rw [shamt_eq, ushiftRight_eq_ofNat]
  case sra => rw [shamt_eq, sshiftRight_eq_ofInt]
  case mul => simp only [BitVec.ofNat_mul, BitVec.ofNat_toNat, BitVec.setWidth_eq]
  case divu =>
    rw [udiv_eq_ofNat]
    rfl
  case remu => rw [umod_eq_ofNat]
  case addi => rw [BitVec.ofInt_add, BitVec.ofInt_toInt, sext64_eq]
  case slti => rw [w64OfBool_slt, sext64, BitVec.toInt_signExtend_of_le (by decide)]
  case slli =>
    rw [shiftField_eq 0 (k := sh.toNat) (Nat.zero_add _).symm]
    exact givesG_of_aluG1 rfl fun x => shiftLeft_eq_ofNat x _
  case srli =>
    rw [shiftField_eq 1 (k := 64 + sh.toNat) rfl]
    exact givesG_of_aluG1 rfl fun x => ushiftRight_eq_ofNat x _
  case srai =>
    rw [shiftField_eq 2 (k := 128 + sh.toNat) rfl]
    exact givesG_of_aluG1 rfl fun x => sshiftRight_eq_ofInt x _
  case lui =>
    rw [← lui_eq]
    exact givesG_of_onCore rfl rfl

/-! ### Branches and jumps -/

/-- A jump leaves its core at the target. -/
theorem seqStep_jump {s : State} {core : Nat} {w : W32} (h : SeqRuns s core w) {f : Core → SeqRes} {c : Core} {pc : W64}
    (hf : f (getCore s core) = .jump c pc) : seqStep core w (onCore f) s = .next (setCore s core { c with pc := pc }) := by
  rw [seqStep_runs h, onCore, hf]
  rfl

/-- A distance in instructions, in bytes. -/
theorem four_mul_sext64 {w : Nat} (off : BitVec w) : 4 * sext64 off = BitVec.ofInt 64 (4 * off.toInt) := mul_sext64 4 off

/-- A branch on operands that are not poisoned goes by its condition. -/
theorem branch_goes {s : State} {core : Nat} {a b : RField} {off : BitVec 14} {w : W32} {i : Instr} {cond : W64 → W64 → Bool}
    {p : Bool} (hi : exec i s = seqStep core w (onCore (branch a b off cond)) s)
    (hp : cond (readG (getCore s core) a).1 (readG (getCore s core) b).1 = p) (hrun : SeqRuns s core w)
    (hx : (readG (getCore s core) a).2 = false) (hy : (readG (getCore s core) b).2 = false) :
    exec i s = .next (setCore s core { getCore s core with
      pc := if p then (getCore s core).pc + BitVec.ofInt 64 (4 * off.toInt) else (getCore s core).pc + 4 }) := by
  rw [hi]
  cases p with
  | true =>
    rw [if_pos rfl, ← four_mul_sext64]
    exact seqStep_jump hrun (by simp [branch, hx, hy, hp])
  | false => exact seqStep_next hrun (by simp [branch, hx, hy, hp])

/-- Clearing the bits below the `n`th. -/
theorem and_allOnes_shiftLeft {w : Nat} (x : BitVec w) (n : Nat) : x &&& BitVec.allOnes w <<< n = (x >>> n) <<< n := by
  ext i hi
  by_cases hn : i < n
  · simp [hn]
  · simp [hn, Nat.add_sub_cancel' (not_lt.mp hn), BitVec.getLsbD_eq_getElem hi]

/-- JALR's target: bits 1 and 0 cleared. -/
theorem clearLowBits (x : W64) : x &&& ~~~3#64 = BitVec.ofNat 64 (x.toNat / 4 * 4) := by
  have hmask : ~~~3#64 = BitVec.allOnes 64 <<< 2 := by decide
  rw [hmask, and_allOnes_shiftLeft, shiftLeft_eq_ofNat, BitVec.toNat_ushiftRight, Nat.shiftRight_eq_div_pow]
  rfl

/-- Settles O13: a branch goes by its condition, and a jump leaves its link. -/
theorem branchesAndJumpsMoveThePc : Obligations.BranchesAndJumpsMoveThePc := by
  unfold Obligations.BranchesAndJumpsMoveThePc
  intro s core d a b off off20
  dsimp only
  refine ⟨branch_goes rfl (beq_eq_decide ..), branch_goes rfl ?bne, branch_goes rfl rfl, branch_goes rfl ?bge,
    branch_goes rfl rfl, branch_goes rfl ?bgeu, fun hrun => seqStep_jump hrun ?jal, fun hrun hx => seqStep_jump hrun ?jalr⟩
  case bne => simp [bne, beq_eq_decide]
  case bge => simp only [BitVec.slt, ← decide_not, not_lt]
  case bgeu => simp only [BitVec.ult, ← decide_not, not_lt]
  case jal => rw [four_mul_sext64]
  case jalr =>
    rw [← clearLowBits, ← sext64_eq]
    exact if_neg (by simp [seqAddr, hx])

end Sys2Proof.Machine
end

section
/-!
PROOF. The vector rows, the lane moves and PTAB, element by element (R178, R184, R188, R190).
-/

namespace Sys2Proof.Machine

open Sys2Proof

/-! ### Elements -/

/-- Elements are cut to their width as they are put together. -/
theorem ofElems_map_mod (e : Nat) (l : List Nat) : ofElems e (l.map fun v => v % 2 ^ e) = ofElems e l := by
  induction l with
  | nil => rfl
  | cons v r ih =>
    simp only [ofElems, List.map_cons, List.foldr_cons, Nat.mod_mod] at ih ⊢
    rw [ih]

theorem ofElems_map_congr {α : Type} {e : Nat} {l : List α} {f g : α → Nat} (h : ∀ x ∈ l, f x % 2 ^ e = g x % 2 ^ e) :
    ofElems e (l.map f) = ofElems e (l.map g) := by
  rw [← ofElems_map_mod, ← ofElems_map_mod (l := l.map g), List.map_map, List.map_map]
  exact congrArg _ (List.map_congr_left h)

theorem lget_readW {k : Nat} (hk : k < 4) (c : Core) (n : Nat) : lget (0, false) (readW c n) k = readF c (4 * n + k) := by
  rw [lget, getElem?_readW hk]
  rfl

/-- A signed field tells its bits. -/
theorem mod_eq_of_signedOf_eq {e x y : Nat} (h : signedOf e x = signedOf e y) : x % 2 ^ e = y % 2 ^ e := by
  have hx := Nat.mod_lt x (Nat.two_pow_pos e)
  have hy := Nat.mod_lt y (Nat.two_pow_pos e)
  have hcast : ((2 ^ e : Nat) : Int) = 2 ^ e := by push_cast; rfl
  unfold signedOf at h
  rw [← hcast] at h
  generalize 2 ^ e = m at *
  split_ifs at h <;> omega

/-- A choice by a strict comparison, read the other way round. -/
theorem ite_lt_eq_ite_le {α β : Type} [LinearOrder α] (x y : α) (u v : β) :
    (if y < x then u else v) = if x ≤ y then v else u := by
  rcases lt_or_ge y x with h | h
  · rw [if_pos h, if_neg (not_le.mpr h)]
  · rw [if_neg (not_lt.mpr h), if_pos h]

/-! ### The rows -/

section Rows

variable {i : Instr} {w : W32} {core : Nat} {d a b : RField} {s : State}

/-- A row whose effect on its core is one write to Wd. -/
theorem givesW_of_onCore {f : Core → SeqRes} {vs : List PV} (hi : exec i s = seqStep core w (onCore f) s)
    (hf : f (getCore s core) = .next (writeW (getCore s core) d.toNat vs)) : GivesW i w core d vs s :=
  fun hrun => hi.trans (seqStep_next hrun hf)

/-- A row on the elements of Wa and Wb. -/
theorem givesW_of_vecBin {wd : BitVec 2} {op : Nat → Nat → Nat → Nat} {f : Nat → Nat → Nat}
    (hi : exec i s = seqStep core w (onCore (vecBin d a b wd op)) s)
    (h : ∀ x y, op (widthBits wd) x y % 2 ^ widthBits wd = f x y % 2 ^ widthBits wd) :
    GivesW i w core d (ofWW (getCore s core) a b wd f) s :=
  givesW_of_onCore hi (by
    unfold widthBits at h
    unfold vecBin ofWW
    dsimp only
    rw [ofElems_map_congr fun _ _ => h _ _])

/-- A row on the FP64 lanes of Wa and Wb. -/
theorem givesW_of_vecFp {op : PV → PV → PV} (hi : exec i s = seqStep core w (onCore (vecFp d a b op)) s) :
    GivesW i w core d (ofWWD (getCore s core) a b op) s :=
  givesW_of_onCore hi (by
    rw [ofWWD, vecFp]
    exact congrArg (SeqRes.next ∘ writeW _ _) (List.map_congr_left fun k hk => by
      rw [lget_readW (List.mem_range.mp hk), lget_readW (List.mem_range.mp hk)]))

end Rows

theorem vecFn_eq (op : Nat) (w : BitVec 2) : vecFn op w = w.toNat * 64 + op := Nat.add_comm ..

theorem laneFn_eq (op : Nat) (w : BitVec 2) : laneFn op w = w.toNat * 16 + op := Nat.add_comm ..

theorem lane0_eq (w : BitVec 2) : laneFn 0 w = w.toNat * 16 := Nat.zero_add _

theorem ptabFn_eq (n1 g : BitVec 2) : ptabFn n1 g = n1.toNat + 4 * g.toNat := by rw [ptabFn, Nat.mul_comm]

/-- Settles O8: each row is one write of a register, whose elements and lanes agree with the row's. -/
theorem vectorInstructionsActPerElement : Obligations.VectorInstructionsActPerElement := by
  unfold Obligations.VectorInstructionsActPerElement
  refine ⟨fun s core d a b w => ?binary, fun s core d a b c w n1 g => ?lanes⟩
  case binary =>
    dsimp only
    simp only [← vecFn_eq]
    refine ⟨givesW_of_vecBin rfl fun x y => ?_, givesW_of_vecBin rfl fun x y => ?_, givesW_of_vecBin rfl fun _ _ => rfl,
      givesW_of_vecBin rfl fun _ _ => rfl, givesW_of_vecBin rfl fun _ _ => rfl, givesW_of_vecBin rfl fun x y => ?min,
      givesW_of_vecBin rfl fun x y => ?max, givesW_of_vecBin rfl fun x y => ?minu, givesW_of_vecBin rfl fun x y => ?maxu,
      givesW_of_vecBin rfl fun _ _ => rfl, givesW_of_vecBin rfl fun _ _ => rfl⟩
    · exact (Nat.mod_mod _ _).symm
    · exact (Nat.mod_mod _ _).symm
    case min => exact congrArg (· % _) (ite_lt_eq_ite_le ..)
    case max =>
      rcases lt_trichotomy (signedOf (widthBits w) x) (signedOf (widthBits w) y) with hlt | heq | hgt
      · rw [if_pos hlt, if_pos hlt.le]
      · rw [if_neg heq.not_lt, if_pos heq.le, mod_eq_of_signedOf_eq heq]
      · rw [if_neg hgt.not_gt, if_neg (not_le.mpr hgt)]
    case minu => exact congrArg (· % _) (by rw [Nat.min_def, ite_lt_eq_ite_le])
    case maxu => exact congrArg (· % _) (by rw [Nat.max_comm, Nat.max_def, ite_lt_eq_ite_le])
  case lanes =>
    dsimp only
    rw [← laneFn_eq 1, ← laneFn_eq 2, ← lane0_eq, ← ptabFn_eq]
    refine ⟨givesW_of_vecFp rfl, givesW_of_vecFp rfl, givesW_of_vecFp rfl, givesW_of_vecFp rfl, givesW_of_vecFp rfl,
      givesW_of_vecFp rfl, givesW_of_vecFp rfl, givesW_of_vecFp rfl, givesW_of_onCore rfl ?fma, givesW_of_onCore rfl ?splat,
      givesG_of_onCore rfl rfl, givesW_of_onCore rfl ?ins, givesW_of_onCore rfl ?ptab⟩
    case fma =>
      exact congrArg (SeqRes.next ∘ writeW _ _) (List.map_congr_left fun i hi => by
        have hi := List.mem_range.mp hi
        rw [lget_readW hi, lget_readW hi, lget_readW hi])
    case splat =>
      rw [← List.map_replicate (f := fun v => v % 2 ^ widthBits w), ofElems_map_mod]
      rfl
    case ins =>
      have hmod : ∀ i, (if i = b.toNat then (readG (getCore s core) a).1.toNat % 2 ^ widthBits w
          else elemOf (wNat (readW (getCore s core) d.toNat)) (widthBits w) i) % 2 ^ widthBits w =
          (if i = b.toNat then (readG (getCore s core) a).1.toNat
          else elemOf (wNat (readW (getCore s core) d.toNat)) (widthBits w) i) % 2 ^ widthBits w := by
        intro i
        split
        · exact Nat.mod_mod _ _
        · rfl
      rw [ofElems_map_congr fun i _ => hmod i]
      rfl
    case ptab => rfl

end Sys2Proof.Machine
end

section
/-!
PROOF. Loads and stores: where an access lands, what a load gives its register, and what a store leaves in the cluster store and
in a core's own memories (R178, R180 to R182, R184, R185, R262).
-/

namespace Sys2Proof.Machine

open Sys2Proof

/-! ### Accesses -/

/-- An access that reaches its place lands there. -/
theorem seqAccess_of_reaches {s : State} {c : Core} {addr : PV} {n al : Nat} {write : Bool} {m : SeqMem} {off : Nat}
    (h : SeqReaches s c addr n al write m off) : seqAccess s c addr n al write = .at_ m off := by
  obtain ⟨hp, hal, hmem, himem, hstore⟩ := h
  unfold seqAccess
  rw [if_neg (by simp [hp]), if_neg (not_not.mpr hal), hmem]
  cases m with
  | imem => simp [himem rfl]
  | table => rfl
  | data => rfl
  | cstore =>
    obtain ⟨⟨r, hr, hwin⟩, hwait⟩ := hstore rfl
    simp [show regionOf s c.region = some r from hr, hwin, hwait]

/-- A row that accesses memory has its effect where the access lands. -/
theorem seqStep_access {s : State} {core : Nat} {w : W32} {addr : PV} {n al : Nat} {write : Bool} {m : SeqMem} {off : Nat}
    {body : State → Core → SeqRes} {f : SeqMem → Nat → SeqRes} (hrun : SeqRuns s core w)
    (hb : body s (getCore s core) = withAccess (seqAccess s (getCore s core) addr n al write) f)
    (ha : SeqReaches s (getCore s core) addr n al write m off) :
    seqStep core w body s = .next (seqApply core (f m off) s) := by
  rw [seqStep_runs hrun, hb, seqAccess_of_reaches ha]
  rfl

theorem thirtyTwo_mul_sext64 {w : Nat} (imm : BitVec w) : 32 * sext64 imm = BitVec.ofInt 64 (32 * imm.toInt) :=
  mul_sext64 32 imm

/-! ### Loads -/

/-- The number in the bytes from `off` up, and whether one of them is poisoned. -/
theorem bytesPV_seqRead (s : State) (core : Nat) (c : Core) (m : SeqMem) (off n : Nat) :
    bytesPV (seqRead s core c m off n) = (leNat ((List.range n).map fun i => (seqReadByte s core c m (off + i)).1),
      (List.range n).any fun i => (seqReadByte s core c m (off + i)).2) := by
  simp [bytesPV, seqRead, Function.comp_def]

section Rows

variable {i : Instr} {w : W32} {s : State} {core : Nat} {d a : RField} {imm : BitVec 14} {m : SeqMem} {off : Nat}

/-- A scalar load of `n` bytes gives Gd their number, extended. -/
theorem givesG_of_load {n : Nat} (ext : Nat → W64) (hi : exec i s = seqStep core w (loadG core n d a imm ext) s)
    (ha : SeqReaches s (getCore s core) (seqAddr (getCore s core) a (sext64 imm)) n n false m off) :
    GivesG i w core d (ext (leNat ((List.range n).map fun i => (seqReadByte s core (getCore s core) m (off + i)).1)),
      (List.range n).any fun i => (seqReadByte s core (getCore s core) m (off + i)).2) s := by
  intro hrun
  rw [hi, seqStep_access hrun rfl ha, bytesPV_seqRead]
  rfl

theorem fld_gives (ha : SeqReaches s (getCore s core) (seqAddr (getCore s core) a (sext64 imm)) 8 8 false m off) :
    GivesF (.fld core d a imm) (encI 0x1C d a imm) core d
      (BitVec.ofNat 64 (leNat ((List.range 8).map fun i => (seqReadByte s core (getCore s core) m (off + i)).1)),
        (List.range 8).any fun i => (seqReadByte s core (getCore s core) m (off + i)).2) s := by
  intro hrun
  show execFld core d a imm s = _
  rw [execFld, seqStep_access hrun rfl ha, bytesPV_seqRead]
  rfl

theorem vld_gives (ha : SeqReaches s (getCore s core) (seqAddr (getCore s core) a (32 * sext64 imm)) 32 32 false m off) :
    GivesW (.vld core d a imm) (encI 0x1E d a imm) core d ((List.range 4).map fun k =>
      (BitVec.ofNat 64 (leNat ((List.range 8).map fun i => (seqReadByte s core (getCore s core) m (off + 8 * k + i)).1)),
        (List.range 8).any fun i => (seqReadByte s core (getCore s core) m (off + 8 * k + i)).2)) s := by
  intro hrun
  show execVld core d a imm s = _
  rw [execVld, seqStep_access hrun rfl ha]
  simp only [bytesPV_seqRead]
  rfl

end Rows

/-- Settles O9: each load gives its register the bytes where it lands. -/
theorem loadsReadLittleEndianBytes : Obligations.LoadsReadLittleEndianBytes := by
  unfold Obligations.LoadsReadLittleEndianBytes
  intro s core d a imm m off
  dsimp only
  exact ⟨fun ha => ⟨givesG_of_load (sextBytes 1) rfl ha, givesG_of_load zextBytes rfl ha⟩,
    fun ha => ⟨givesG_of_load (sextBytes 2) rfl ha, givesG_of_load zextBytes rfl ha⟩,
    fun ha => ⟨givesG_of_load (sextBytes 4) rfl ha, givesG_of_load zextBytes rfl ha⟩,
    fun ha => ⟨givesG_of_load zextBytes rfl ha, fld_gives ha⟩,
    fun ha => vld_gives (by rw [thirtyTwo_mul_sext64]; exact ha)⟩

/-! ### Stores -/

section Rows

variable {i : Instr} {w : W32} {s : State} {core : Nat} {d a : RField} {imm : BitVec 14} {m : SeqMem} {off : Nat}

/-- The state after a store of `bs`: the bytes are written and the program counter has moved on. -/
def afterStore (s : State) (core : Nat) (m : SeqMem) (off : Nat) (bs : List Byte) (poison : Bool) : State :=
  modCore (seqWrite s core m off bs poison) core fun c => { c with pc := c.pc + 4 }

/-- A store of the low `n` bytes of Gd. -/
theorem storeG_writes {n : Nat} (hi : exec i s = seqStep core w (storeG core n d a imm) s)
    (ha : SeqReaches s (getCore s core) (seqAddr (getCore s core) a (sext64 imm)) n n true m off) (hrun : SeqRuns s core w) :
    exec i s = .next (afterStore s core m off (leBytes n (readG (getCore s core) d).1.toNat) (readG (getCore s core) d).2) := by
  rw [hi, seqStep_access hrun rfl ha]
  rfl

theorem fsd_writes (ha : SeqReaches s (getCore s core) (seqAddr (getCore s core) a (sext64 imm)) 8 8 true m off)
    (hrun : SeqRuns s core (encI 0x1D d a imm)) :
    exec (.fsd core d a imm) s = .next (afterStore s core m off (leBytes 8 (if (readF (getCore s core) d.toNat).2
      then fp64.poisonBits else (readF (getCore s core) d.toNat).1.toNat)) false) := by
  show execFsd core d a imm s = _
  rw [execFsd, seqStep_access hrun rfl ha]
  rfl

theorem vst_writes (ha : SeqReaches s (getCore s core) (seqAddr (getCore s core) a (32 * sext64 imm)) 32 32 true m off)
    (hrun : SeqRuns s core (encI 0x1F d a imm)) :
    exec (.vst core d a imm) s = .next (afterStore s core m off (leBytes 32 (wNat (readW (getCore s core) d.toNat)))
      ((readW (getCore s core) d.toNat).any Prod.snd)) := by
  show execVst core d a imm s = _
  rw [execVst, seqStep_access hrun rfl ha]
  rfl

end Rows

/-- Settles O10: each store writes its bytes where it lands. -/
theorem storesWriteTheirBytes : Obligations.StoresWriteTheirBytes := by
  unfold Obligations.StoresWriteTheirBytes
  intro s core d a imm m off
  exact ⟨storeG_writes rfl, storeG_writes rfl, storeG_writes rfl, storeG_writes rfl, fsd_writes,
    fun ha => vst_writes (by rw [thirtyTwo_mul_sext64]; exact ha)⟩

/-! ### A write of memory that is no DRAM -/

theorem noteRead_of_store {s : State} {a : Nat} (hd : isDram a = false) : noteRead s a = s := by
  simp [noteRead, countLine, deadSub, tagFault, hd]

/-- Memory outside the DRAM keeps the bytes and the mark it is given; a part of a marked sector leaves the mark (R95, R178,
R262). -/
theorem writeSector_outside_dram {s : State} {a : Nat} (hm : isMemory a = true) (hd : isDram a = false) (bs : List Byte)
    (p : Bool) : writeSector s a bs p = setSectorPoison (writeBytes s a (if p then List.replicate bs.length 0 else bs)) a
      (p || (sectorPoison s a && !(decide (a % 32 = 0) && decide (bs.length = 32)))) := by
  have hbase : decide (a = a / 32 * 32) = decide (a % 32 = 0) := decide_eq_decide.mpr (by omega)
  unfold writeSector
  rw [if_neg (by simp [deadSub, hd]), if_neg (by simp [hm])]
  simp [hd, noteRead_of_store, tagFault, hbase]

@[simp] theorem sectorPoison_setSectorPoison (s : State) (a x : Nat) (v : Bool) :
    sectorPoison (setSectorPoison s a v) x = if x / 32 = a / 32 then v else sectorPoison s x := by
  simp [sectorPoison, setSectorPoison]

@[simp] theorem readByte_setSectorPoison (s : State) (a x : Nat) (v : Bool) :
    readByte (setSectorPoison s a v) x = readByte s x := rfl

@[simp] theorem sectorPoison_writeBytes (x : Nat) : ∀ (l : List Byte) (s : State) (a : Nat),
    sectorPoison (writeBytes s a l) x = sectorPoison s x
  | [], _, _ => rfl
  | b :: r, s, a => by
    rw [writeBytes, sectorPoison_writeBytes x r]
    rfl

/-! ### The cluster store -/

theorem addrKind_clusterStore {core off : Nat} (hc : core < Config.numCores) (ho : off < 0x200000) :
    addrKind (clusterStoreAt (clusterOf core) + off) = .clusterStore := by
  have hn : Config.numCores = 4800 := rfl
  have hlo : clusterStoreBase ≤ clusterStoreAt (clusterOf core) + off := by unfold clusterStoreAt; omega
  have hhi : clusterStoreAt (clusterOf core) + off < clusterStoreEnd := by
    unfold clusterStoreAt clusterOf clusterStoreBase clusterStoreEnd
    omega
  have hjob : retainedBase < clusterStoreBase := by decide
  have hdram : dramEnd < clusterStoreBase := by decide
  unfold addrKind
  rw [if_neg (by omega), if_neg (by omega), if_pos (by simp; omega)]

theorem isMemory_clusterStore {core off : Nat} (hc : core < Config.numCores) (ho : off < 0x200000) :
    isMemory (clusterStoreAt (clusterOf core) + off) = true := by
  rw [isMemory, addrKind_clusterStore hc ho]

theorem isDram_clusterStore (core off : Nat) : isDram (clusterStoreAt (clusterOf core) + off) = false := by
  have h : dramEnd < clusterStoreBase := by decide
  exact decide_eq_false (by unfold clusterStoreAt; omega)

theorem clusterStoreAt_mod (core off : Nat) : (clusterStoreAt (clusterOf core) + off) % 32 = off % 32 := by
  unfold clusterStoreAt clusterStoreBase
  omega

/-- A sequencer's write of its cluster store. -/
theorem seqWrite_clusterStore {core off : Nat} (hc : core < Config.numCores) (ho : off < 0x200000) (s : State)
    (bs : List Byte) (p : Bool) : seqWrite s core .cstore off bs p =
      setSectorPoison (writeBytes s (clusterStoreAt (clusterOf core) + off) (if p then List.replicate bs.length 0 else bs))
        (clusterStoreAt (clusterOf core) + off) (p || (sectorPoison s (clusterStoreAt (clusterOf core) + off) &&
          !(decide (off % 32 = 0) && decide (bs.length = 32)))) := by
  rw [seqWrite, writeSector_outside_dram (isMemory_clusterStore hc ho) (isDram_clusterStore core off), clusterStoreAt_mod]

/-! ### A core's own memories -/

/-- Bytes put into a core's own memory read back, and the others stay. -/
theorem tget_putBytes (x : Nat) : ∀ (l : List Byte) (t : Tbl Byte) (off : Nat),
    tget 0 (putBytes t off l) x = if off ≤ x ∧ x < off + l.length then l.getD (x - off) 0 else tget 0 t x
  | [], t, off => by
    rw [if_neg (by simp)]
    rfl
  | b :: r, t, off => by
    rw [putBytes, tget_putBytes x r, tget_tput, List.length_cons]
    by_cases hx : x = off
    · subst hx
      simp
    · by_cases hr : off + 1 ≤ x ∧ x < off + 1 + r.length
      · have hsucc : x - off = x - (off + 1) + 1 := by omega
        rw [if_pos hr, if_pos (by omega), hsucc, List.getD_cons_succ]
      · rw [if_neg hr, if_neg hx, if_neg (by omega)]

/-! ### What a store leaves -/

/-- The cluster store's part of the statement. -/
theorem clusterStore_frame {s : State} {core off : Nat} {bs : List Byte} {p : Bool} (hc : core < Config.numCores)
    (ho : off < 0x200000) {x : Nat} (hx : x = clusterStoreAt (clusterOf core) + off) :
    (∀ i, i < bs.length → readByte (seqWrite s core .cstore off bs p) (x + i) = if p then 0 else bs.getD i 0) ∧
    (∀ a, (a < x ∨ x + bs.length ≤ a) → readByte (seqWrite s core .cstore off bs p) a = readByte s a) ∧
    (∀ a, sectorPoison (seqWrite s core .cstore off bs p) a = if a / 32 = x / 32
      then p || (sectorPoison s x && !(decide (off % 32 = 0) && decide (bs.length = 32))) else sectorPoison s a) := by
  rw [seqWrite_clusterStore hc ho, ← hx]
  have hlen : (if p then List.replicate bs.length 0 else bs).length = bs.length := by cases p <;> simp
  refine ⟨fun i hi => ?_, fun a ha => ?_, fun a => ?_⟩
  · rw [readByte_setSectorPoison, readByte_writeBytes, hlen, if_pos (by omega), Nat.add_sub_cancel_left]
    cases p with
    | true => simp [hi]
    | false => rfl
  · rw [readByte_setSectorPoison, readByte_writeBytes, hlen, if_neg (by omega)]
  · rw [sectorPoison_setSectorPoison, sectorPoison_writeBytes]

/-- Settles O11: a write of the cluster store touches device memory alone, and a write of a core's own memory that memory alone. -/
theorem sequencerStoresChangeNothingElse : Obligations.SequencerStoresChangeNothingElse := by
  unfold Obligations.SequencerStoresChangeNothingElse
  refine ⟨fun s core off bs p hc hpos _ hoff => ?cluster, fun s core off bs => ?own⟩
  case cluster =>
    dsimp only
    have hplace : 0x010000000000 + core / 4 * 0x200000 + off = clusterStoreAt (clusterOf core) + off := rfl
    obtain ⟨hin, hout, hmark⟩ := clusterStore_frame (s := s) (bs := bs) (p := p) hc (by omega) hplace
    have honly : OnlyMem s (seqWrite s core .cstore off bs p) := writeSector_onlyMem ..
    refine ⟨hin, hout, ?_, fun a ha => ?_, by rw [honly], by rw [honly]⟩
    · rw [hmark, if_pos rfl]
      simp [imp_iff_not_or]
    · rw [hmark, if_neg ha]
  case own =>
    dsimp only
    simp only [seqWrite, getCore_modCore, if_true, storeLocal, Bool.false_eq_true, if_false, tget_putBytes]
    refine ⟨fun _ => trivial, fun _ => trivial, trivial, trivial, trivial, trivial, fun k hk => ?_, rfl, rfl, trivial, trivial⟩
    simp [hk]

end Sys2Proof.Machine
end

section
/-!
PROOF. Structure loads: the fields of a group's records in registers (R178, R189).
-/

namespace Sys2Proof.Machine

open Sys2Proof

/-! ### A field's lanes -/

/-- Elements within their width need no cut as they are put together. -/
theorem foldr_eq_ofElems {e : Nat} {l : List Nat} (h : ∀ v ∈ l, v < 2 ^ e) :
    l.foldr (fun v acc => v + 2 ^ e * acc) 0 = ofElems e l := by
  induction l with
  | nil => rfl
  | cons v r ih =>
    rw [List.foldr_cons, ih fun u hu => h u (by simp [hu])]
    simp only [ofElems, List.foldr_cons, Nat.mod_eq_of_lt (h v (by simp))]

theorem wLanes_congr {x y : Nat} {p q : Nat → Bool} (hx : x = y) (hp : ∀ l, l < 4 → p l = q l) : wLanes x p = wLanes y q := by
  subst hx
  exact List.map_congr_left fun l hl => by rw [hp l (List.mem_range.mp hl)]

/-- A number of `e` bytes has `8 e` bits. -/
theorem leNat_map_range_lt (e : Nat) (f : Nat → Byte) : leNat ((List.range e).map f) < 2 ^ (8 * e) := by
  have h := leNat_lt ((List.range e).map f)
  rwa [List.length_map, List.length_range, show 256 = 2 ^ 8 from rfl, ← Nat.pow_mul] at h

/-- The sizes of a structure's fields. -/
theorem fieldBytes_cases (w : BitVec 2) : 2 ^ w.toNat = 1 ∨ 2 ^ w.toNat = 2 ∨ 2 ^ w.toNat = 4 ∨ 2 ^ w.toNat = 8 := by
  revert w
  decide

/-- A digit below `b` beside one below `a` in the next place. -/
theorem mixed_lt {a b l i : Nat} (hl : l < a) (hi : i < b) : l * b + i < a * b :=
  calc l * b + i < (l + 1) * b := by rw [Nat.succ_mul]; omega
    _ ≤ a * b := Nat.mul_le_mul_right b hl

/-- The four lanes of field `k` of a group of records of `n` fields of `e` bytes that stands at `o`. -/
def fieldLanes (s : State) (core : Nat) (c : Core) (m : SeqMem) (o n e k : Nat) : List PV :=
  wLanes (ofElems (8 * e) ((List.range (32 / e)).map fun j =>
      leNat ((List.range e).map fun b => (seqReadByte s core c m (o + (j * n + k) * e + b)).1)))
    fun l => (List.range (8 / e)).any fun i =>
      (List.range e).any fun b => (seqReadByte s core c m (o + ((l * (8 / e) + i) * n + k) * e + b)).2

theorem structField_eq (s : State) (core : Nat) (c : Core) (m : SeqMem) (o n : Nat) (w : BitVec 2) (k : Nat) :
    structField s core c m o n (2 ^ w.toNat) k = fieldLanes s core c m o n (2 ^ w.toNat) k := by
  have hsizes := fieldBytes_cases w
  generalize 2 ^ w.toNat = e at hsizes
  unfold structField fieldLanes
  simp only [bytesPV_seqRead, structOff]
  refine wLanes_congr ?_ fun l hl => ?_
  · rw [← foldr_eq_ofElems, List.foldr_map, List.foldr_map]
    intro v hv
    obtain ⟨j, -, rfl⟩ := List.mem_map.mp hv
    exact leNat_map_range_lt e _
  · have hlanes : 4 * (8 / e) = 32 / e := by rcases hsizes with rfl | rfl | rfl | rfl <;> rfl
    rw [Bool.eq_iff_iff]
    simp only [List.any_eq_true, List.mem_range]
    refine exists_congr fun i => and_congr_right fun hi => ?_
    have hlt : l * (8 / e) + i < 32 / e := by
      rw [← hlanes]
      exact mixed_lt hl hi
    simp [lget, hlt]

/-! ### Loading the fields -/

/-- Writing a W register touches the floating-point file alone. -/
theorem writeWFrom_onlyFile (n : Nat) : ∀ (vs : List PV) (c : Core) (k : Nat),
    writeWFrom c n k vs = { c with f := (writeWFrom c n k vs).f, fp := (writeWFrom c n k vs).fp }
  | [], _, _ => rfl
  | _ :: r, c, k => by
    rw [writeWFrom, writeWFrom_onlyFile n r]
    rfl

theorem seqReadByte_writeW (s : State) (core : Nat) (c : Core) (n : Nat) (vs : List PV) :
    seqReadByte s core (writeW c n vs) = seqReadByte s core c := by
  funext m x
  rw [writeW, writeWFrom_onlyFile]
  cases m <;> rfl

theorem readG_writeW (c : Core) (n : Nat) (vs : List PV) : readG (writeW c n vs) = readG c := by
  rw [writeW, writeWFrom_onlyFile]
  rfl

theorem fieldLanes_congr {s : State} {core : Nat} {c c0 : Core} (h : seqReadByte s core c = seqReadByte s core c0)
    (m : SeqMem) (o n e k : Nat) : fieldLanes s core c m o n e k = fieldLanes s core c0 m o n e k := by
  unfold fieldLanes
  rw [h]

section Load

variable (s : State) (core : Nat) (c0 : Core) (m : SeqMem) (o n : Nat) (w : BitVec 2) (d : Nat)

/-- The registers after a structure load of the fields `l`, each with its place in their order. -/
def loadedFields (l : List (Nat × Nat)) (c : Core) : Core :=
  l.foldl (fun (st : Core) x => writeW st (d + x.2) (fieldLanes s core c0 m o n (2 ^ w.toNat) x.1)) c

/-- The selected fields fill the registers from `d` up, in their order. -/
theorem structLoad_eq : ∀ (ks : List Nat) (i : Nat) (c : Core), seqReadByte s core c = seqReadByte s core c0 →
    structLoad s core m o n (2 ^ w.toNat) (d + i) ks c = loadedFields s core c0 m o n w d (ks.zipIdx i) c
  | [], _, _, _ => rfl
  | k :: ks, i, c, h => by
    have hrest := structLoad_eq ks (i + 1)
      (writeW c (d + i) (fieldLanes s core c0 m o n (2 ^ w.toNat) k)) ((seqReadByte_writeW ..).trans h)
    rw [structLoad, structField_eq, fieldLanes_congr h, Nat.add_assoc, hrest]
    rfl

theorem readG_loadedFields (l : List (Nat × Nat)) (c : Core) : readG (loadedFields s core c0 m o n w d l c) = readG c := by
  unfold loadedFields
  induction l generalizing c with
  | nil => rfl
  | cons x r ih => exact (ih _).trans (readG_writeW ..)

end Load

/-! ### The rows -/

theorem group_mul_sext64 {v : Nat} (n : Nat) (off : BitVec v) :
    BitVec.ofNat 64 (32 * n) * sext64 off = BitVec.ofInt 64 (32 * n * off.toInt) := by
  rw [mul_sext64]
  push_cast
  rfl

/-- The base after an access (R189). -/
theorem structInc_eq (inc : Bool) (a : RField) (n : Nat) (c : Core) : structInc inc a n c =
    if inc then writeG c a ((readG c a).1 + BitVec.ofNat 64 (32 * n), (readG c a).2) else c := rfl

/-- SLDV's row. -/
theorem sldv_loads {s : State} {core op n : Nat} {d a : RField} {w : BitVec 2} {inc : Bool} {fmask : BitVec 4} {off : BitVec 7}
    {m : SeqMem} {o : Nat}
    (ha : SeqReaches s (getCore s core) ((readG (getCore s core) a).1 + BitVec.ofInt 64 (32 * n * off.toInt),
      (readG (getCore s core) a).2) (32 * n) (2 ^ w.toNat) false m o) (hrun : SeqRuns s core (encS op d a w inc fmask off)) :
    sldv core op n d a w inc fmask off s = .next (seqNext core (structInc inc a n
      (loadedFields s core (getCore s core) m o n w d.toNat (maskFields fmask).zipIdx (getCore s core))) s) := by
  rw [← group_mul_sext64] at ha
  rw [sldv, seqStep_access hrun rfl ha, ← structLoad_eq _ _ _ _ _ _ _ _ _ 0 _ rfl]
  rfl

/-- The loading part of the statement. -/
theorem structureLoads (s : State) (core n : Nat) (d a : RField) (w : BitVec 2) (inc : Bool) (fmask : BitVec 4)
    (off : BitVec 7) (m : SeqMem) (o : Nat) :
    let c := getCore s core
    let loaded := loadedFields s core c m o n w d.toNat (maskFields fmask).zipIdx c
    let moved := if inc then writeG loaded a ((readG c a).1 + BitVec.ofNat 64 (32 * n), (readG c a).2) else loaded
    SeqReaches s c ((readG c a).1 + BitVec.ofInt 64 (32 * n * off.toInt), (readG c a).2) (32 * n) (2 ^ w.toNat) false m o →
    SeqRuns s core (encS (0x2E + n) d a w inc fmask off) →
      (n = 2 → exec (.sldv2 core d a w inc fmask off) s = .next (seqNext core moved s)) ∧
      (n = 3 → exec (.sldv3 core d a w inc fmask off) s = .next (seqNext core moved s)) ∧
      (n = 4 → exec (.sldv4 core d a w inc fmask off) s = .next (seqNext core moved s)) := by
  dsimp only
  intro ha hrun
  have hrow := sldv_loads ha hrun
  rw [structInc_eq, readG_loadedFields] at hrow
  refine ⟨?_, ?_, ?_⟩
  · rintro rfl
    exact hrow
  · rintro rfl
    exact hrow
  · rintro rfl
    exact hrow

end Sys2Proof.Machine
end

section
/-!
PROOF. Items laid over a memory, and one write of a sequencer memory as such an item (R178, R189, R262).
-/

namespace Sys2Proof.Machine

open Sys2Proof

/-! ### Bytes laid over a memory -/

/-- An item of a structure store: its offset in the group, its bytes and its lane's poison. -/
abbrev StructItem := Nat × List Byte × Bool

/-- Whether an item of a group at `o` covers a byte. -/
abbrev itemCovers (o : Nat) (it : StructItem) (x : Nat) : Prop := o + it.1 ≤ x ∧ x < o + it.1 + it.2.1.length

/-- Lays an item over a memory's bytes. -/
def layItem (o : Nat) (f : Nat → Byte) (it : StructItem) (x : Nat) : Byte :=
  if itemCovers o it x then it.2.1.getD (x - (o + it.1)) 0 else f x

/-- A byte that no item covers stays. -/
theorem foldl_layItem_uncovered {o x : Nat} : ∀ {l : List StructItem} {f : Nat → Byte}, (∀ it ∈ l, ¬ itemCovers o it x) →
    l.foldl (layItem o) f x = f x
  | [], _, _ => rfl
  | it :: r, f, h => by
    rw [List.foldl_cons, foldl_layItem_uncovered fun j hj => h j (by simp [hj]), layItem, if_neg (h it (by simp))]

/-- A byte that an item covers is as some item that covers it has it, whatever stood there. -/
theorem foldl_layItem_covered {o x : Nat} : ∀ {l : List StructItem}, (∃ it ∈ l, itemCovers o it x) →
    ∃ it ∈ l, itemCovers o it x ∧ ∀ f, l.foldl (layItem o) f x = it.2.1.getD (x - (o + it.1)) 0
  | it :: r, h => by
    by_cases hr : ∃ j ∈ r, itemCovers o j x
    · obtain ⟨j, hj, hcov, hf⟩ := foldl_layItem_covered hr
      exact ⟨j, by simp [hj], hcov, fun f => hf _⟩
    · have hno : ∀ j ∈ r, ¬ itemCovers o j x := fun j hj hc => hr ⟨j, hj, hc⟩
      have hit : itemCovers o it x := by
        obtain ⟨j, hj, hc⟩ := h
        rcases List.mem_cons.mp hj with rfl | hj
        · exact hc
        · exact absurd hc (hno j hj)
      refine ⟨it, by simp, hit, fun f => ?_⟩
      rw [List.foldl_cons, foldl_layItem_uncovered hno, layItem, if_pos hit]

/-! ### A sequencer memory -/

/-- The bytes and the marks of a memory as the core reads them. -/
def seqBytes (core : Nat) (m : SeqMem) (s : State) (x : Nat) : Byte := (seqReadByte s core (getCore s core) m x).1
def seqMarks (core : Nat) (m : SeqMem) (s : State) (x : Nat) : Bool := (seqReadByte s core (getCore s core) m x).2

/-- Nothing of a core but its table shadow and its data memory differs. -/
def OnlyLocal (c c' : Core) : Prop :=
  c' = { c with tshadow := c'.tshadow, tshadowP := c'.tshadowP, dmem := c'.dmem, dmemP := c'.dmemP }

theorem OnlyLocal.refl (c : Core) : OnlyLocal c c := rfl

theorem OnlyLocal.trans {a b c : Core} (h : OnlyLocal a b) (g : OnlyLocal b c) : OnlyLocal a c := by
  unfold OnlyLocal at *
  rw [g, h]

/-- Items written to a memory without poison: they lie over its bytes, no mark changes, and nothing else of the core does. -/
structure WritesItems (core : Nat) (m : SeqMem) (o : Nat) (l : List StructItem) (s t : State) : Prop where
  bytes : seqBytes core m t = l.foldl (layItem o) (seqBytes core m s)
  marks : seqMarks core m t = seqMarks core m s
  core : OnlyLocal (getCore s core) (getCore t core)

theorem WritesItems.nil (core : Nat) (m : SeqMem) (o : Nat) (s : State) : WritesItems core m o [] s s :=
  ⟨rfl, rfl, OnlyLocal.refl _⟩

theorem WritesItems.append {core : Nat} {m : SeqMem} {o : Nat} {l k : List StructItem} {s t u : State}
    (h : WritesItems core m o l s t) (g : WritesItems core m o k t u) : WritesItems core m o (l ++ k) s u :=
  ⟨by rw [g.bytes, h.bytes, List.foldl_append], g.marks.trans h.marks, h.core.trans g.core⟩

/-- Where a write of a sequencer memory can be made: not instruction memory, and inside the cluster store. -/
def Writable (core : Nat) (m : SeqMem) (x : Nat) : Prop :=
  m ≠ .imem ∧ (m = .cstore → core < Config.numCores ∧ x < 0x200000)

/-- Reading the bytes of one write over what stood there. -/
theorem layItem_eq (o : Nat) (f : Nat → Byte) (p : Nat) (bs : List Byte) (q : Bool) (x : Nat) : layItem o f (p, bs, q) x =
    if o + p ≤ x ∧ x < o + p + bs.length then bs.getD (x - (o + p)) 0 else f x := rfl

/-- A mark that was clear, written as clear, has not changed. -/
theorem clearMark_stays {α : Type} {k x : α} [DecidableEq α] {f : α → Bool} {b : Bool} (h : f k = false) :
    (if x = k then (false || (f k && b)) else f x) = f x := by
  split
  · next hx => rw [hx, h, Bool.false_and, Bool.or_false]
  · rfl

/-- A write without poison of a core's own memory: its bytes, and the marks where the sector's was clear. -/
theorem storeLocal_bytes (t : Tbl Byte) (p : Tbl Bool) (off : Nat) (bs : List Byte) (x : Nat) :
    tget 0 (storeLocal t p off bs false).1 x = if off ≤ x ∧ x < off + bs.length then bs.getD (x - off) 0 else tget 0 t x :=
  tget_putBytes x bs t off

theorem storeLocal_marks {p : Tbl Bool} {off : Nat} (h : tget false p (off / 32) = false) (t : Tbl Byte) (bs : List Byte)
    (k : Nat) : tget false (storeLocal t p off bs false).2 k = tget false p k := by
  rw [storeLocal, tget_tput]
  exact clearMark_stays h

/-- A write without poison, in a sector without a mark. -/
theorem seqWrite_writes {core : Nat} {m : SeqMem} {o p : Nat} {s : State} (bs : List Byte) (q : Bool)
    (hw : Writable core m (o + p)) (hclean : seqMarks core m s (o + p) = false) :
    WritesItems core m o [(p, bs, q)] s (seqWrite s core m (o + p) bs false) := by
  obtain ⟨himem, hstore⟩ := hw
  cases m with
  | imem => exact absurd rfl himem
  | cstore =>
    obtain ⟨hc, hx⟩ := hstore rfl
    have hmark : sectorPoison s (clusterStoreAt (clusterOf core) + (o + p)) = false := hclean
    have hcores : (seqWrite s core .cstore (o + p) bs false).cores = s.cores := by
      rw [show OnlyMem s (seqWrite s core .cstore (o + p) bs false) from writeSector_onlyMem ..]
    refine ⟨funext fun x => ?_, funext fun x => ?_, ?_⟩
    · simp only [seqBytes, seqReadByte, seqWrite_clusterStore hc hx, readByte_setSectorPoison, readByte_writeBytes,
        Bool.false_eq_true, if_false, List.foldl_cons, List.foldl_nil, layItem_eq]
      generalize clusterStoreAt (clusterOf core) = base
      simp only [Nat.add_assoc base, Nat.add_le_add_iff_left, Nat.add_lt_add_iff_left, Nat.add_sub_add_left]
    · simp only [seqMarks, seqReadByte, seqWrite_clusterStore hc hx, sectorPoison_setSectorPoison, sectorPoison_writeBytes]
      exact clearMark_stays (f := fun k => tget false s.mem.poison k) hmark
    · rw [getCore_congr hcores]
      exact OnlyLocal.refl _
  | table =>
    refine ⟨funext fun x => ?_, funext fun x => ?_, ?_⟩
    · simp only [seqBytes, seqReadByte, seqWrite, getCore_modCore, if_true]
      exact storeLocal_bytes ..
    · simp only [seqMarks, seqReadByte, seqWrite, getCore_modCore, if_true]
      exact storeLocal_marks hclean ..
    · rw [seqWrite, getCore_modCore, if_pos rfl]
      rfl
  | data =>
    refine ⟨funext fun x => ?_, funext fun x => ?_, ?_⟩
    · simp only [seqBytes, seqReadByte, seqWrite, getCore_modCore, if_true]
      exact storeLocal_bytes ..
    · simp only [seqMarks, seqReadByte, seqWrite, getCore_modCore, if_true]
      exact storeLocal_marks hclean ..
    · rw [seqWrite, getCore_modCore, if_pos rfl]
      rfl

end Sys2Proof.Machine
end

section
/-!
PROOF. Structure stores, one sector at a time: a sector whose 32 bytes are all written is written whole (R189, R262).
-/

namespace Sys2Proof.Machine

open Sys2Proof

/-! ### The bytes of a whole sector -/

theorem getD_splice {l : List Byte} {p : Nat} {b : List Byte} (h : p ≤ l.length) (i : Nat) :
    (splice l p b).getD i 0 = if p ≤ i ∧ i < p + b.length then b.getD (i - p) 0 else l.getD i 0 := by
  have hpad : padTo p l = l.take p := by rw [padTo, List.take_append_of_le_length h]
  have hlen : (l.take p).length = p := by rw [List.length_take, Nat.min_eq_left h]
  rw [splice, hpad, List.append_assoc]
  by_cases h1 : i < p
  · rw [List.getD_append _ _ _ _ (by omega), if_neg (by omega)]
    simp [List.getD_eq_getElem?_getD, h1]
  · rw [List.getD_append_right _ _ _ _ (by omega), hlen]
    by_cases h2 : i < p + b.length
    · rw [List.getD_append _ _ _ _ (by omega), if_pos (by omega)]
    · rw [List.getD_append_right _ _ _ _ (by omega), if_neg (by omega)]
      simp only [List.getD_eq_getElem?_getD, List.getElem?_drop]
      congr 2
      omega

theorem length_splice {l : List Byte} {p : Nat} {b : List Byte} (h : p + b.length ≤ l.length) :
    (splice l p b).length = l.length := by
  simp only [splice, padTo_length, List.length_append, List.length_drop]
  omega

/-- Whether an item of a group at `o` lies in a sector. -/
def inSector (o sec : Nat) (it : StructItem) : Prop := (o + it.1) / 32 = sec ∧ (o + it.1) % 32 + it.2.1.length ≤ 32

/-- The bytes of a sector in which items are put together. -/
def sectorBytes (o : Nat) (l : List StructItem) (b : List Byte) : List Byte :=
  l.foldl (fun b x => splice b ((o + x.1) % 32) x.2.1) b

theorem length_sectorBytes {o sec : Nat} : ∀ {l : List StructItem} {b : List Byte}, b.length = 32 →
    (∀ it ∈ l, inSector o sec it) → (sectorBytes o l b).length = 32
  | [], _, hb, _ => hb
  | it :: r, b, hb, h => by
    obtain ⟨-, hit⟩ := h it (by simp)
    exact length_sectorBytes (l := r) ((length_splice (by omega)).trans hb) fun j hj => h j (by simp [hj])

/-- Items put together are the items laid over the sector. -/
theorem getD_sectorBytes {o sec i : Nat} (hi : i < 32) : ∀ {l : List StructItem} {b : List Byte} {f : Nat → Byte},
    b.length = 32 → (∀ it ∈ l, inSector o sec it) → b.getD i 0 = f (32 * sec + i) →
    (sectorBytes o l b).getD i 0 = l.foldl (layItem o) f (32 * sec + i)
  | [], _, _, _, _, hf => hf
  | it :: r, b, f, hb, h, hf => by
    obtain ⟨hsec, hit⟩ := h it (by simp)
    refine getD_sectorBytes (l := r) hi ((length_splice (by omega)).trans hb) (fun j hj => h j (by simp [hj])) ?_
    have hplace : o + it.1 = 32 * sec + (o + it.1) % 32 := by omega
    rw [getD_splice (by omega), hf, layItem]
    generalize (o + it.1) % 32 = p at *
    simp only [itemCovers, hplace, Nat.add_assoc, Nat.add_le_add_iff_left, Nat.add_lt_add_iff_left, Nat.add_sub_add_left]

/-! ### When a sector is covered -/

/-- No byte is covered by both of two items. -/
def itemsApart (o : Nat) (p q : StructItem) : Prop := ∀ x, itemCovers o p x → ¬ itemCovers o q x

/-- The bytes that items cover, one by one. -/
def coveredPlaces (o : Nat) (l : List StructItem) : List Nat := l.flatMap fun it => List.range' (o + it.1) it.2.1.length

theorem mem_coveredPlaces {o x : Nat} {l : List StructItem} : x ∈ coveredPlaces o l ↔ ∃ it ∈ l, itemCovers o it x := by
  simp only [coveredPlaces, List.mem_flatMap, List.mem_range'_1]

/-- Items that lie apart in a sector and have 32 bytes together cover it. -/
theorem sector_covered {o sec x : Nat} {l : List StructItem} (hin : ∀ it ∈ l, inSector o sec it)
    (hapart : l.Pairwise (itemsApart o)) (hsum : (l.map fun it => it.2.1.length).sum = 32) (hx : x / 32 = sec) :
    ∃ it ∈ l, itemCovers o it x := by
  have hlen : (coveredPlaces o l).length = 32 := by simpa [coveredPlaces, List.length_flatMap] using hsum
  have hnodup : (coveredPlaces o l).Nodup :=
    List.nodup_flatMap.mpr ⟨fun it _ => List.nodup_range', hapart.imp fun {p q} hpq y hp hq =>
      hpq y (List.mem_range'_1.mp hp) (List.mem_range'_1.mp hq)⟩
  have hsub : coveredPlaces o l ⊆ List.range' (32 * sec) 32 := by
    intro y hy
    obtain ⟨it, hit, hlo, hhi⟩ := mem_coveredPlaces.mp hy
    obtain ⟨hs, hfit⟩ := hin it hit
    exact List.mem_range'_1.mpr (by omega)
  have hperm := (List.subperm_of_subset hnodup hsub).perm_of_length_le (by simp [hlen])
  exact mem_coveredPlaces.mp (hperm.mem_iff.mpr (List.mem_range'_1.mpr (by omega)))

/-! ### Writing a sector's items -/

section Sector

variable {core : Nat} {m : SeqMem} {o : Nat}

/-- Items written one after another. -/
theorem foldl_seqWrite_writes : ∀ {l : List StructItem} {s : State}, (∀ it ∈ l, Writable core m (o + it.1)) →
    (∀ it ∈ l, it.2.2 = false) → (∀ it ∈ l, seqMarks core m s (o + it.1) = false) →
    WritesItems core m o l s (l.foldl (fun st x => seqWrite st core m (o + x.1) x.2.1 x.2.2) s)
  | [], s, _, _, _ => WritesItems.nil core m o s
  | (p, bs, q) :: r, s, hw, hp, hc => by
    obtain rfl : q = false := hp (p, bs, q) (by simp)
    have hfirst := seqWrite_writes bs false (hw (p, bs, false) (by simp)) (hc (p, bs, false) (by simp))
    exact hfirst.append (foldl_seqWrite_writes (fun it hit => hw it (by simp [hit])) (fun it hit => hp it (by simp [hit]))
      fun it hit => by rw [hfirst.marks]; exact hc it (by simp [hit]))

/-- A sector written whole. -/
theorem wholeSector_writes {l : List StructItem} {s : State} {sec : Nat} (hin : ∀ it ∈ l, inSector o sec it)
    (hapart : l.Pairwise (itemsApart o)) (hsum : (l.map fun it => it.2.1.length).sum = 32) (hw : Writable core m (sec * 32))
    (hc : seqMarks core m s (sec * 32) = false) :
    WritesItems core m o l s (seqWrite s core m (sec * 32) (sectorBytes o l (List.replicate 32 0)) false) := by
  have hlen := length_sectorBytes (b := List.replicate 32 0) List.length_replicate hin
  have hwrite := seqWrite_writes (o := sec * 32) (p := 0) (sectorBytes o l (List.replicate 32 0)) false hw hc
  refine ⟨hwrite.bytes.trans (funext fun x => ?_), hwrite.marks, hwrite.core⟩
  rw [List.foldl_cons, List.foldl_nil, layItem_eq, hlen]
  by_cases hx : x / 32 = sec
  · have hi : x - sec * 32 < 32 := by omega
    have hplace : 32 * sec + (x - sec * 32) = x := by omega
    have hbytes := getD_sectorBytes (f := fun _ => 0) hi List.length_replicate hin
      (List.getD_replicate _ hi)
    rw [if_pos (by omega), Nat.add_zero, hbytes, hplace]
    obtain ⟨it, -, -, hf⟩ := foldl_layItem_covered (sector_covered hin hapart hsum hx)
    rw [hf, hf]
  · rw [if_neg (by omega), foldl_layItem_uncovered]
    intro it hit hcov
    obtain ⟨hs, hfit⟩ := hin it hit
    obtain ⟨hlo, hhi⟩ := hcov
    omega

/-- Items of a group that can be written without poison: each lies in one sector, no two share a byte, none is poisoned, and
each has a place. -/
structure CleanItems (core : Nat) (m : SeqMem) (o : Nat) (items : List StructItem) : Prop where
  fits : ∀ it ∈ items, (o + it.1) % 32 + it.2.1.length ≤ 32
  apart : items.Pairwise (itemsApart o)
  sound : ∀ it ∈ items, it.2.2 = false
  writable : ∀ it ∈ items, Writable core m (o + it.1)

/-- The items of a group that stand in a sector. -/
def itemsIn (o sec : Nat) (items : List StructItem) : List StructItem := items.filter fun x => (o + x.1) / 32 == sec

theorem mem_itemsIn {sec : Nat} {items : List StructItem} {it : StructItem} :
    it ∈ itemsIn o sec items ↔ it ∈ items ∧ (o + it.1) / 32 = sec := by
  simp [itemsIn]

theorem foldl_lengths (l : List StructItem) :
    l.foldl (fun n x => n + x.2.1.length) 0 = (l.map fun it => it.2.1.length).sum := by
  rw [List.sum_eq_foldl, List.foldl_map]

theorem writeSectorItems_eq (s : State) (sec : Nat) (items : List StructItem) : writeSectorItems s core m o sec items =
    if ((itemsIn o sec items).map fun it => it.2.1.length).sum = 32 then
      seqWrite s core m (sec * 32) (sectorBytes o (itemsIn o sec items) (List.replicate 32 0))
        ((itemsIn o sec items).any fun x => x.2.2)
    else (itemsIn o sec items).foldl (fun st x => seqWrite st core m (o + x.1) x.2.1 x.2.2) s := by
  rw [← foldl_lengths]
  rfl

/-- What is written of a group in one sector. -/
theorem writeSectorItems_writes {items : List StructItem} (h : CleanItems core m o items) {s : State}
    (hc : ∀ it ∈ items, seqMarks core m s (o + it.1) = false) (sec : Nat) :
    WritesItems core m o (itemsIn o sec items) s (writeSectorItems s core m o sec items) := by
  have hmem : ∀ it ∈ itemsIn o sec items, it ∈ items := fun it hit => (mem_itemsIn.mp hit).1
  have hin : ∀ it ∈ itemsIn o sec items, inSector o sec it := fun it hit =>
    ⟨(mem_itemsIn.mp hit).2, h.fits it (hmem it hit)⟩
  have hapart : (itemsIn o sec items).Pairwise (itemsApart o) := h.apart.filter _
  have hsound : ((itemsIn o sec items).any fun x => x.2.2) = false :=
    List.any_eq_false.mpr fun it hit => by simp [h.sound it (hmem it hit)]
  rw [writeSectorItems_eq, hsound]
  split
  · next hsum =>
    obtain ⟨it, hit, hlo, hhi⟩ := sector_covered hin hapart hsum (x := sec * 32) (by omega)
    have hplace : o + it.1 = sec * 32 := by
      obtain ⟨hs, -⟩ := hin it hit
      omega
    exact wholeSector_writes hin hapart hsum (hplace ▸ h.writable it (hmem it hit)) (hplace ▸ hc it (hmem it hit))
  · exact foldl_seqWrite_writes (fun it hit => h.writable it (hmem it hit)) (fun it hit => h.sound it (hmem it hit))
      fun it hit => hc it (hmem it hit)

/-- A group written sector by sector. -/
theorem foldl_sectors_writes {items : List StructItem} (h : CleanItems core m o items) : ∀ (secs : List Nat) {s : State},
    (∀ it ∈ items, seqMarks core m s (o + it.1) = false) → WritesItems core m o (secs.flatMap fun sec => itemsIn o sec items) s
      (secs.foldl (fun st sec => writeSectorItems st core m o sec items) s)
  | [], s, _ => WritesItems.nil core m o s
  | sec :: secs, s, hc => by
    have hfirst := writeSectorItems_writes h hc sec
    rw [List.flatMap_cons]
    exact hfirst.append (foldl_sectors_writes h secs fun it hit => by rw [hfirst.marks]; exact hc it hit)

end Sector

end Sys2Proof.Machine
end

section
/-!
PROOF. The items of a structure store, the mask of a legal one, and the statement about structure accesses (R178, R183, R189).
-/

namespace Sys2Proof.Machine

open Sys2Proof

/-! ### The mask of a legal structure store -/

theorem getLsbD_putField {w i : Nat} (x : BitVec w) (lo : Nat) (hi : i < 32) :
    (putField x lo).getLsbD i = (decide (lo ≤ i) && x.getLsbD (i - lo)) := by
  have hsub : i - lo < 32 := by omega
  simp only [putField, BitVec.getLsbD_shiftLeft, BitVec.getLsbD_setWidth, hi, hsub, decide_true, Bool.true_and,
    ← decide_not, not_lt]

theorem bitsOf_toNat (v : W32) (hi lo : Nat) : bitsOf v.toNat hi lo = (v.extractLsb' lo (hi + 1 - lo)).toNat := by
  rw [bitsOf, BitVec.extractLsb'_toNat, Nat.shiftRight_eq_div_pow]

/-- A field stands below the bits above it. -/
theorem getLsbD_putField_above {w i : Nat} (x : BitVec w) (lo : Nat) (hi : i < 32) (h : lo + w ≤ i) :
    (putField x lo).getLsbD i = false := by
  rw [getLsbD_putField x lo hi, BitVec.getLsbD_of_ge x (i - lo) (by omega), Bool.and_false]

/-- And above the bits below it. -/
theorem getLsbD_putField_below {w i : Nat} (x : BitVec w) (lo : Nat) (hi : i < 32) (h : i < lo) :
    (putField x lo).getLsbD i = false := by
  rw [getLsbD_putField x lo hi, decide_eq_false (by omega), Bool.false_and]

theorem testBit_b2n (b : Bool) {k : Nat} (h : 0 < k) : (b2n b).testBit k = false := by
  refine Nat.testBit_lt_two_pow (Nat.lt_of_lt_of_le (m := 2) ?_ ?_)
  · cases b <;> decide
  · exact Nat.le_self_pow (by omega) 2

section Encoding

variable (op : Nat) (d a : RField) (w : BitVec 2) (inc : Bool) (fmask : BitVec 4) (off : BitVec 7)

/-- The operation field of format S. -/
theorem encS_op : bitsOf (encS op d a w inc fmask off).toNat 31 26 = op % 64 := by
  have h : (encS op d a w inc fmask off).extractLsb' 26 6 = BitVec.ofNat 6 op := by
    ext i hi
    have hlt : 26 + i < 32 := by omega
    simp only [encS, BitVec.getElem_extractLsb', BitVec.getLsbD_or,
      getLsbD_putField_above d 20 hlt (by omega), getLsbD_putField_above a 14 hlt (by omega),
      getLsbD_putField_above w 12 hlt (by omega), getLsbD_putField_above fmask 7 hlt (by omega),
      getLsbD_putField_above off 0 hlt (by omega), BitVec.getLsbD_ofNat, Nat.testBit_mul_two_pow,
      testBit_b2n inc (k := 26 + i - 11) (by omega)]
    simp [hlt, BitVec.getLsbD_ofNat, hi, ← BitVec.getLsbD_eq_getElem]
  rw [bitsOf_toNat, h, BitVec.toNat_ofNat]

/-- The mask field of format S. -/
theorem encS_fmask : bitsOf (encS op d a w inc fmask off).toNat 10 7 = fmask.toNat := by
  have h : (encS op d a w inc fmask off).extractLsb' 7 4 = fmask := by
    ext i hi
    have hlt : 7 + i < 32 := by omega
    have hop : ¬ 26 ≤ 7 + i := by omega
    have hinc : ¬ 11 ≤ 7 + i := by omega
    simp only [encS, BitVec.getElem_extractLsb', BitVec.getLsbD_or,
      getLsbD_putField_below d 20 hlt (by omega), getLsbD_putField_below a 14 hlt (by omega),
      getLsbD_putField_below w 12 hlt (by omega), getLsbD_putField fmask 7 hlt,
      getLsbD_putField_above off 0 hlt (by omega), BitVec.getLsbD_ofNat, Nat.testBit_mul_two_pow]
    simp [hop, hinc, BitVec.getLsbD_eq_getElem hi]
  rw [bitsOf_toNat, h]

end Encoding

/-- A legal structure store passes the check of its registers and its mask (R189). -/
theorem structLegal_of_sstv {n : Nat} (hn : n = 2 ∨ n = 3 ∨ n = 4) {d a : RField} {w : BitVec 2} {inc : Bool} {fmask : BitVec 4}
    {off : BitVec 7} (hl : seqLegal (encS (0x32 + n) d a w inc fmask off) = true) :
    ∃ r, structLegal n r fmask.toNat = true := by
  rw [seqLegal] at hl
  rcases hn with rfl | rfl | rfl
  all_goals
    simp only [encS_op, encS_fmask, Nat.reduceAdd, Nat.reduceMod, Bool.and_eq_true] at hl
    exact ⟨_, hl.2⟩

/-- It selects none but its own fields. -/
theorem lt_of_mem_maskFields {n r : Nat} {fmask : BitVec 4} (h : structLegal n r fmask.toNat = true) {k : Nat}
    (hk : k ∈ maskFields fmask) : k < n := by
  simp only [structLegal, Bool.and_eq_true, decide_eq_true_eq] at h
  obtain ⟨⟨-, hmask⟩, -⟩ := h
  have hbit : fmask.getLsbD k = true := (List.mem_filter.mp hk).2
  by_contra hnk
  have hle : 2 ^ n ≤ 2 ^ k := Nat.pow_le_pow_right (by decide) (not_lt.mp hnk)
  rw [BitVec.getLsbD, Nat.testBit_lt_two_pow (by omega)] at hbit
  cases hbit

theorem maskFields_nodup (fmask : BitVec 4) : (maskFields fmask).Nodup := List.nodup_range.filter _

/-! ### The items of a group -/

/-- Element `j` of the W register `r`, as the bytes of field `k` of record `j`. -/
def structItem (c : Core) (n e r k j : Nat) : StructItem :=
  (structOff n e j k, leBytes e (wNat (readW c r) / 2 ^ (8 * e * j)), laneP (readW c r) (j * e / 8))

theorem mem_structItems {c : Core} {n e : Nat} {it : StructItem} : ∀ {ks : List Nat} {r : Nat},
    it ∈ structItems c n e r ks ↔ ∃ i k j, ks[i]? = some k ∧ j < 32 / e ∧ it = structItem c n e (r + i) k j
  | [], r => by simp [structItems]
  | k :: ks, r => by
    rw [structItems, List.mem_append, mem_structItems]
    simp only [List.mem_map, List.mem_range]
    constructor
    · rintro (⟨j, hj, rfl⟩ | ⟨i, l, j, hl, hj, rfl⟩)
      · exact ⟨0, k, j, rfl, hj, rfl⟩
      · exact ⟨i + 1, l, j, hl, hj, by rw [Nat.add_assoc, Nat.add_comm 1]⟩
    · rintro ⟨i, l, j, hl, hj, rfl⟩
      cases i with
      | zero =>
        obtain rfl : k = l := by simpa using hl
        exact .inl ⟨j, hj, rfl⟩
      | succ i => exact .inr ⟨i, l, j, hl, hj, by rw [Nat.add_assoc, Nat.add_comm 1]⟩

section Place

variable {c : Core} {n e o : Nat}

/-- A byte tells the record and the field of the item that covers it. -/
theorem place_of_covers (he : 0 < e) {r k j x : Nat} (hk : k < n) (h : itemCovers o (structItem c n e r k j) x) :
    (x - o) / e % n = k ∧ (x - o) / e / n = j := by
  obtain ⟨hlo, hhi⟩ := h
  simp only [structItem, structOff, leBytes_length] at hlo hhi
  have hrec : (x - o) / e = j * n + k := by
    refine Nat.div_eq_of_lt_le (by omega) ?_
    rw [Nat.succ_mul]
    omega
  rw [hrec]
  exact ⟨by rw [Nat.mul_comm, Nat.mul_add_mod, Nat.mod_eq_of_lt hk],
    by rw [Nat.mul_comm, Nat.mul_add_div (by omega), Nat.div_eq_of_lt hk, Nat.add_zero]⟩

/-- No two items of a group share a byte. -/
theorem structItems_apart (he : 0 < e) : ∀ {ks : List Nat} (r : Nat), ks.Nodup → (∀ k ∈ ks, k < n) →
    (structItems c n e r ks).Pairwise (itemsApart o)
  | [], _, _, _ => List.Pairwise.nil
  | k :: ks, r, hnd, hlt => by
    obtain ⟨hnotin, hnd⟩ := List.nodup_cons.mp hnd
    have hk := hlt k (by simp)
    rw [structItems, List.pairwise_append]
    refine ⟨?same, structItems_apart he (r + 1) hnd fun l hl => hlt l (by simp [hl]), ?other⟩
    case same =>
      refine List.Pairwise.map _ (fun i j hij x hi hj => hij ?_) List.nodup_range
      exact (place_of_covers he hk hi).2.symm.trans (place_of_covers he hk hj).2
    case other =>
      intro p hp q hq x hpx hqx
      obtain ⟨j, -, rfl⟩ := List.mem_map.mp hp
      obtain ⟨i, l, j', hl, -, rfl⟩ := mem_structItems.mp hq
      have hmem := List.mem_of_getElem? hl
      have hkl := (place_of_covers he hk hpx).1.symm.trans (place_of_covers he (hlt l (by simp [hmem])) hqx).1
      exact hnotin (hkl ▸ hmem)

end Place

end Sys2Proof.Machine
end

section
/-!
PROOF. The rows of the structure stores, and the statement about structure accesses (R178, R189).
-/

namespace Sys2Proof.Machine

open Sys2Proof

/-! ### Elements as bytes -/

theorem getD_leBytes {b : Nat} : ∀ {n : Nat} (v : Nat), b < n → (leBytes n v).getD b 0 = BitVec.ofNat 8 (v / 256 ^ b)
  | n + 1, v, h => by
    cases b with
    | zero => simp [leBytes]
    | succ b => rw [leBytes, List.getD_cons_succ, getD_leBytes _ (by omega), Nat.div_div_eq_div_mul, Nat.pow_succ']

/-- A byte of an element is that byte of the register. -/
theorem elemOf_byte {e b : Nat} (h : b < e) (x j : Nat) :
    BitVec.ofNat 8 (elemOf x (8 * e) j / 256 ^ b) = BitVec.ofNat 8 (x / 2 ^ (8 * e * j) / 256 ^ b) := by
  have hpow : 2 ^ (8 * e) = 256 ^ b * (256 * 256 ^ (e - b - 1)) := by
    rw [Nat.pow_mul, ← Nat.pow_succ', ← Nat.pow_add]
    congr 1
    omega
  apply BitVec.eq_of_toNat_eq
  rw [elemOf, hpow, Nat.mod_mul_right_div_self, BitVec.toNat_ofNat, BitVec.toNat_ofNat]
  exact Nat.mod_mul_right_mod _ _ _

theorem laneP_of_sound {vs : List PV} (h : vs.any Prod.snd = false) (k : Nat) : laneP vs k = false := by
  unfold laneP lget
  cases hk : vs[k]? with
  | none => rfl
  | some v => simpa using List.any_eq_false.mp h v (List.mem_of_getElem? hk)

/-! ### Where a group stands -/

/-- The windows of Table 6.1 begin at sectors, and the cluster store ends at 2 MiB. -/
theorem seqMemOf_place {a : W64} {n o : Nat} {m : SeqMem} (h : seqMemOf a n = some (m, o)) :
    o % 32 = a.toNat % 32 ∧ (m = .cstore → o + n ≤ 0x200000) := by
  unfold seqMemOf at h
  dsimp only at h
  split_ifs at h with h1 h2 h3 h4
  · obtain ⟨rfl, rfl⟩ : SeqMem.cstore = m ∧ _ = o := by simpa using h
    exact ⟨rfl, fun _ => h1⟩
  · obtain ⟨rfl, rfl⟩ : SeqMem.table = m ∧ _ = o := by simpa using h
    simp only [Bool.and_eq_true, decide_eq_true_eq] at h2
    exact ⟨by omega, fun hm => nomatch hm⟩
  · obtain ⟨rfl, rfl⟩ : SeqMem.data = m ∧ _ = o := by simpa using h
    simp only [Bool.and_eq_true, decide_eq_true_eq] at h3
    exact ⟨by omega, fun hm => nomatch hm⟩
  · obtain ⟨rfl, rfl⟩ : SeqMem.imem = m ∧ _ = o := by simpa using h
    simp only [Bool.and_eq_true, decide_eq_true_eq] at h4
    exact ⟨by omega, fun hm => nomatch hm⟩

section Group

variable {s : State} {core n o : Nat} {w : BitVec 2} {addr : PV} {m : SeqMem} {ks : List Nat} {r : Nat}

/-- An element of a group lies in it. -/
theorem structOff_le {e j k : Nat} (hj : j < 32 / e) (hk : k < n) : structOff n e j k + e ≤ 32 * n :=
  calc structOff n e j k + e = (j * n + (k + 1)) * e := by rw [structOff, ← Nat.succ_mul]; rfl
    _ ≤ (j * n + n) * e := Nat.mul_le_mul_right e (Nat.add_le_add_left hk _)
    _ = (j + 1) * e * n := by ring
    _ ≤ 32 * n := Nat.mul_le_mul_right n (Nat.mul_le_of_le_div e _ _ hj)

/-- An element at a multiple of its size lies in one sector. -/
theorem element_in_sector {e o : Nat} (he : e = 1 ∨ e = 2 ∨ e = 4 ∨ e = 8) (ho : o % e = 0) (q : Nat) :
    (o + q * e) % 32 + e ≤ 32 := by
  rcases he with rfl | rfl | rfl | rfl <;> omega

/-- The items of a group that is reached for writing, from registers that are not poisoned. -/
theorem cleanItems_of_reaches {c : Core} (ha : SeqReaches s (getCore s core) addr (32 * n) (2 ^ w.toNat) true m o)
    (hcore : core < Config.numCores) (hks : ks.Nodup) (hlt : ∀ k ∈ ks, k < n)
    (hsound : ∀ i k, ks[i]? = some k → (readW c (r + i)).any Prod.snd = false) :
    CleanItems core m o (structItems c n (2 ^ w.toNat) r ks) := by
  obtain ⟨-, hal, hmem, himem, -⟩ := ha
  obtain ⟨hmod, hend⟩ := seqMemOf_place hmem
  have hsizes := fieldBytes_cases w
  generalize 2 ^ w.toNat = e at *
  have he : 0 < e := by omega
  have ho : o % e = 0 := by rcases hsizes with rfl | rfl | rfl | rfl <;> omega
  refine ⟨?fits, structItems_apart he r hks hlt, ?sound, ?writable⟩
  case fits =>
    intro it hit
    obtain ⟨i, k, j, -, -, rfl⟩ := mem_structItems.mp hit
    simp only [structItem, structOff, leBytes_length]
    exact element_in_sector hsizes ho _
  case sound =>
    intro it hit
    obtain ⟨i, k, j, hk, -, rfl⟩ := mem_structItems.mp hit
    exact laneP_of_sound (hsound i k hk) _
  case writable =>
    intro it hit
    obtain ⟨i, k, j, hk, hj, rfl⟩ := mem_structItems.mp hit
    have hle := structOff_le hj (hlt k (List.mem_of_getElem? hk))
    exact ⟨fun hm => (nomatch himem hm), fun hm => ⟨hcore, by have := hend hm; simp only [structItem]; omega⟩⟩

/-- The sectors of a group hold all its items. -/
theorem mem_groupItems {c : Core} (hlt : ∀ k ∈ ks, k < n) {it : StructItem} :
    it ∈ ((List.range (n + 1)).map fun i => o / 32 + i).flatMap (fun sec => itemsIn o sec (structItems c n (2 ^ w.toNat) r ks)) ↔
      it ∈ structItems c n (2 ^ w.toNat) r ks := by
  simp only [List.mem_flatMap, mem_itemsIn, List.mem_map, List.mem_range]
  constructor
  · rintro ⟨_, _, hit, -⟩
    exact hit
  · intro hit
    refine ⟨_, ⟨(o + it.1) / 32 - o / 32, ?_, rfl⟩, hit, ?_⟩
    · obtain ⟨i, k, j, hk, hj, rfl⟩ := mem_structItems.mp hit
      have hle := structOff_le hj (hlt k (List.mem_of_getElem? hk))
      have hpos := Nat.two_pow_pos w.toNat
      simp only [structItem]
      omega
    · omega

end Group

/-! ### The base register -/

/-- The base moves in the general registers alone. -/
theorem structInc_onlyG (inc : Bool) (a : RField) (n : Nat) (c : Core) :
    structInc inc a n c = { c with g := (structInc inc a n c).g, gp := (structInc inc a n c).gp } := by
  unfold structInc writeG
  split
  · dsimp only
    split <;> rfl
  · rfl

theorem readG_structInc (inc : Bool) (a : RField) (n : Nat) (c : Core) (i : RField) : readG (structInc inc a n c) i =
    if i = a ∧ (inc && a != 0) = true then ((readG c a).1 + BitVec.ofNat 64 (32 * n), (readG c a).2) else readG c i := by
  rw [structInc_eq]
  cases inc with
  | false => simp
  | true =>
    by_cases ha : a = 0
    · subst ha
      rw [if_pos rfl, writeG_zero, if_neg fun h => absurd h.2 (by decide)]
    · have hb : (true && a != 0) = true := by rw [Bool.true_and, bne_iff_ne]; exact ha
      simp only [if_true, readG_writeG ha, hb, and_true]

/-! ### The rows -/

/-- The state after the items of a structure store are written. -/
def groupWritten (s : State) (core : Nat) (m : SeqMem) (o n e d : Nat) (ks : List Nat) : State :=
  ((List.range (n + 1)).map fun i => o / 32 + i).foldl
    (fun st sec => writeSectorItems st core m o sec (structItems (getCore s core) n e d ks)) s

/-- The state after a structure store: the base has moved, and the program counter. -/
def afterSstv (core n : Nat) (inc : Bool) (a : RField) (t0 : State) : State :=
  modCore (modCore t0 core (structInc inc a n)) core fun c => { c with pc := c.pc + 4 }

/-- SSTV's row. -/
theorem sstv_writes {s : State} {core op n : Nat} {d a : RField} {w : BitVec 2} {inc : Bool} {fmask : BitVec 4} {off : BitVec 7}
    {m : SeqMem} {o : Nat}
    (ha : SeqReaches s (getCore s core) ((readG (getCore s core) a).1 + BitVec.ofInt 64 (32 * n * off.toInt),
      (readG (getCore s core) a).2) (32 * n) (2 ^ w.toNat) true m o) (hrun : SeqRuns s core (encS op d a w inc fmask off)) :
    sstv core op n d a w inc fmask off s =
      .next (afterSstv core n inc a (groupWritten s core m o n (2 ^ w.toNat) d.toNat (maskFields fmask))) := by
  rw [← group_mul_sext64] at ha
  rw [sstv, seqStep_access hrun rfl ha]
  rfl

section After

variable {core n : Nat} {inc : Bool} {a : RField} {t0 : State}

theorem seqReadByte_afterSstv (m : SeqMem) (x : Nat) :
    seqReadByte (afterSstv core n inc a t0) core (getCore (afterSstv core n inc a t0) core) m x =
      (seqBytes core m t0 x, seqMarks core m t0 x) := by
  rw [afterSstv, getCore_modCore, if_pos rfl, getCore_modCore, if_pos rfl, structInc_onlyG]
  cases m <;> rfl

theorem readG_afterSstv (i : RField) :
    readG (getCore (afterSstv core n inc a t0) core) i = readG (structInc inc a n (getCore t0 core)) i := by
  rw [afterSstv, getCore_modCore, if_pos rfl, getCore_modCore, if_pos rfl]
  rfl

theorem afterSstv_file_pc : (getCore (afterSstv core n inc a t0) core).f = (getCore t0 core).f ∧
    (getCore (afterSstv core n inc a t0) core).pc = (getCore t0 core).pc + 4 := by
  rw [afterSstv, getCore_modCore, if_pos rfl, getCore_modCore, if_pos rfl, structInc_onlyG]
  exact ⟨rfl, rfl⟩

end After

/-! ### What a structure store leaves -/

section Leaves

variable {s : State} {core n d o : Nat} {w : BitVec 2} {addr : PV} {m : SeqMem} {ks : List Nat}

/-- The sectors' writes are the items laid over the memory, each where it belongs. -/
theorem groupWritten_writes (hclean : CleanItems core m o (structItems (getCore s core) n (2 ^ w.toNat) d ks))
    (hlt : ∀ k ∈ ks, k < n)
    (hmarks : ∀ it ∈ structItems (getCore s core) n (2 ^ w.toNat) d ks, seqMarks core m s (o + it.1) = false) :
    ∃ l, WritesItems core m o l s (groupWritten s core m o n (2 ^ w.toNat) d ks) ∧
      ∀ it, it ∈ l ↔ it ∈ structItems (getCore s core) n (2 ^ w.toNat) d ks :=
  ⟨_, foldl_sectors_writes hclean _ hmarks, fun _ => mem_groupItems hlt⟩

/-- Two items that cover a byte are one. -/
theorem structItem_unique {c : Core} (hks : ks.Nodup) (hlt : ∀ k ∈ ks, k < n) {it : StructItem} {x i k j : Nat}
    (hit : it ∈ structItems c n (2 ^ w.toNat) d ks) (hx : itemCovers o it x) (hk : ks[i]? = some k)
    (hx' : itemCovers o (structItem c n (2 ^ w.toNat) (d + i) k j) x) : it = structItem c n (2 ^ w.toNat) (d + i) k j := by
  obtain ⟨i', k', j', hk', -, rfl⟩ := mem_structItems.mp hit
  have hpos := Nat.two_pow_pos w.toNat
  obtain ⟨hk1, hj1⟩ := place_of_covers hpos (hlt k' (List.mem_of_getElem? hk')) hx
  obtain ⟨hk2, hj2⟩ := place_of_covers hpos (hlt k (List.mem_of_getElem? hk)) hx'
  obtain rfl : k' = k := hk1.symm.trans hk2
  obtain rfl : j' = j := hj1.symm.trans hj2
  have hi : i' = i := (List.getElem?_inj (List.getElem?_eq_some_iff.mp hk').1 hks).mp (hk'.trans hk.symm)
  rw [hi]

/-- What a structure store of the fields `ks` leaves in the memory and in its core. -/
def GroupStored (s : State) (core n d : Nat) (a : RField) (w : BitVec 2) (inc : Bool) (ks : List Nat) (m : SeqMem) (o : Nat)
    (t : State) : Prop :=
  (∀ (r k j b : Nat), ks[r]? = some k → j < 32 / 2 ^ w.toNat → b < 2 ^ w.toNat →
    seqReadByte t core (getCore t core) m (o + (j * n + k) * 2 ^ w.toNat + b) =
      (BitVec.ofNat 8 (elemOf (wNat (readW (getCore s core) (d + r))) (8 * 2 ^ w.toNat) j / 256 ^ b), false)) ∧
  (∀ x, (∀ (r k j b : Nat), ks[r]? = some k → j < 32 / 2 ^ w.toNat → b < 2 ^ w.toNat →
    x ≠ o + (j * n + k) * 2 ^ w.toNat + b) →
      seqReadByte t core (getCore t core) m x = seqReadByte s core (getCore s core) m x) ∧
  readG (getCore t core) a = (if inc && a != 0
    then ((readG (getCore s core) a).1 + BitVec.ofNat 64 (32 * n), (readG (getCore s core) a).2)
    else readG (getCore s core) a) ∧
  (∀ i, i ≠ a → readG (getCore t core) i = readG (getCore s core) i) ∧ (getCore t core).f = (getCore s core).f ∧
  (getCore t core).pc = (getCore s core).pc + 4

/-- An item covers each byte of its element. -/
theorem structItem_covers {c : Core} {e r k j b : Nat} (hb : b < e) :
    itemCovers o (structItem c n e r k j) (o + (j * n + k) * e + b) := by
  simp only [itemCovers, structItem, structOff, leBytes_length]
  omega

section Written

variable {t0 : State} {l : List StructItem} (hwrites : WritesItems core m o l s t0)
  (hl : ∀ it, it ∈ l ↔ it ∈ structItems (getCore s core) n (2 ^ w.toNat) d ks)

include hwrites hl

/-- Each byte of each element stands in its place. -/
theorem seqBytes_stored (hks : ks.Nodup) (hlt : ∀ k ∈ ks, k < n) {i k j b : Nat} (hk : ks[i]? = some k)
    (hj : j < 32 / 2 ^ w.toNat) (hb : b < 2 ^ w.toNat) : seqBytes core m t0 (o + (j * n + k) * 2 ^ w.toNat + b) =
      BitVec.ofNat 8 (elemOf (wNat (readW (getCore s core) (d + i))) (8 * 2 ^ w.toNat) j / 256 ^ b) := by
  rw [hwrites.bytes, elemOf_byte hb]
  obtain ⟨it, hit, hx, hf⟩ := foldl_layItem_covered
    ⟨_, (hl _).mpr (mem_structItems.mpr ⟨i, k, j, hk, hj, rfl⟩), structItem_covers hb⟩
  rw [hf, structItem_unique hks hlt ((hl it).mp hit) hx hk (structItem_covers hb)]
  simp only [structItem, structOff, Nat.add_sub_cancel_left]
  exact getD_leBytes _ hb

/-- Every other byte stays. -/
theorem seqBytes_other {x : Nat} (hx : ∀ (r k j b : Nat), ks[r]? = some k → j < 32 / 2 ^ w.toNat → b < 2 ^ w.toNat →
    x ≠ o + (j * n + k) * 2 ^ w.toNat + b) : seqBytes core m t0 x = seqBytes core m s x := by
  rw [hwrites.bytes]
  refine foldl_layItem_uncovered fun it hit hcovers => ?_
  obtain ⟨i, k, j, hk, hj, rfl⟩ := mem_structItems.mp ((hl it).mp hit)
  obtain ⟨hlo, hhi⟩ := hcovers
  simp only [structItem, structOff, leBytes_length] at hlo hhi
  exact hx i k j (x - (o + (j * n + k) * 2 ^ w.toNat)) hk hj (by omega) (by omega)

end Written

theorem afterSstv_stores {inc : Bool} {a : RField} (ha : SeqReaches s (getCore s core) addr (32 * n) (2 ^ w.toNat) true m o)
    (hcore : core < Config.numCores) (hks : ks.Nodup) (hlt : ∀ k ∈ ks, k < n)
    (hsound : ∀ i k, ks[i]? = some k → (readW (getCore s core) (d + i)).any Prod.snd = false)
    (hclean : ∀ x, o / 32 ≤ x / 32 → x ≤ o + 32 * n → seqMarks core m s x = false) :
    GroupStored s core n d a w inc ks m o (afterSstv core n inc a (groupWritten s core m o n (2 ^ w.toNat) d ks)) := by
  have hmark : ∀ {i k j b : Nat}, ks[i]? = some k → j < 32 / 2 ^ w.toNat → b < 2 ^ w.toNat →
      seqMarks core m s (o + (j * n + k) * 2 ^ w.toNat + b) = false := by
    intro i k j b hk hj hb
    have hle := structOff_le hj (hlt k (List.mem_of_getElem? hk))
    rw [structOff] at hle
    exact hclean _ (Nat.div_le_div_right (by omega)) (by omega)
  have hmarks : ∀ it ∈ structItems (getCore s core) n (2 ^ w.toNat) d ks, seqMarks core m s (o + it.1) = false := by
    intro it hit
    obtain ⟨i, k, j, hk, hj, rfl⟩ := mem_structItems.mp hit
    exact hmark hk hj (Nat.two_pow_pos _)
  obtain ⟨l, hwrites, hl⟩ := groupWritten_writes (cleanItems_of_reaches ha hcore hks hlt hsound) hlt hmarks
  have hg : readG (getCore (groupWritten s core m o n (2 ^ w.toNat) d ks) core) = readG (getCore s core) := by
    rw [hwrites.core]
    rfl
  obtain ⟨hfile, hpc⟩ := afterSstv_file_pc (core := core) (n := n) (inc := inc) (a := a)
    (t0 := groupWritten s core m o n (2 ^ w.toNat) d ks)
  refine ⟨fun i k j b hk hj hb => ?stored, fun x hx => ?other, ?base, fun i hi => ?general, hfile.trans ?float, hpc.trans ?pc⟩
  case stored => rw [seqReadByte_afterSstv, hwrites.marks, hmark hk hj hb, seqBytes_stored hwrites hl hks hlt hk hj hb]
  case other =>
    rw [seqReadByte_afterSstv, hwrites.marks, seqBytes_other hwrites hl hx]
    rfl
  case base => simp only [readG_afterSstv, readG_structInc, hg, true_and]
  case general => rw [readG_afterSstv, readG_structInc, hg, if_neg fun h => hi h.1]
  case float => rw [hwrites.core]
  case pc => rw [hwrites.core]

end Leaves

/-- Settles O12: a load reads each field's lanes, and a store's items lie where they belong, sector by sector. -/
theorem structureAccessesMoveTheirFields : Obligations.StructureAccessesMoveTheirFields := by
  unfold Obligations.StructureAccessesMoveTheirFields
  refine ⟨structureLoads, fun s core n d a w inc fmask off m o => ?stores⟩
  dsimp only
  intro ha hrun hsound hclean
  have hstored : n = 2 ∨ n = 3 ∨ n = 4 → GroupStored s core n d.toNat a w inc (maskFields fmask) m o
      (afterSstv core n inc a (groupWritten s core m o n (2 ^ w.toNat) d.toNat (maskFields fmask))) := by
    intro hn
    obtain ⟨hcore, -, -, hlegal, -⟩ := hrun
    obtain ⟨r, hmask⟩ := structLegal_of_sstv hn hlegal
    exact afterSstv_stores ha hcore (maskFields_nodup fmask) (fun k hk => lt_of_mem_maskFields hmask hk) hsound hclean
  refine ⟨?_, ?_, ?_⟩
  · rintro rfl
    exact ⟨_, sstv_writes ha hrun, hstored (by decide)⟩
  · rintro rfl
    exact ⟨_, sstv_writes ha hrun, hstored (by decide)⟩
  · rintro rfl
    exact ⟨_, sstv_writes ha hrun, hstored (by decide)⟩

end Sys2Proof.Machine
end

section
/-!
PROOF. Descriptors, the release of a barrier, and control registers (R191, R192, R194, R197, R202).
-/

namespace Sys2Proof.Machine

open Sys2Proof

/-! ### Cores written one after another -/

/-- A second write of a key leaves nothing of the first. -/
theorem tput_tput {α : Type} [DecidableEq α] (d : α) (t : Tbl α) (k : Nat) (v w : α) :
    tput d (tput d t k v) k w = tput d t k w := by
  have hmid : ∀ p : Nat × α → Bool, p (k, v) = false → (if v = d then ([] : Tbl α) else [(k, v)]).filter p = [] := by
    intro p hp
    split <;> simp [hp]
  have hlow : ∀ e : Nat × α, (decide (e.1 < k) && decide (k < e.1)) = false := fun e => by simp; omega
  unfold tput
  simp only [List.filter_append, List.filter_filter, Bool.and_self, hmid, decide_eq_false_iff_not, lt_irrefl, not_false_eq_true,
    List.nil_append, hlow, Bool.and_comm (decide (k < _)), List.filter_false, List.append_nil]

theorem setCore_setCore (s : State) (i : Nat) (c c' : Core) : setCore (setCore s i c) i c' = setCore s i c' := by
  simp only [setCore, tput_tput]

/-- A walk over different cores changes each of them once. -/
theorem getCore_foldl_modCore (f : Core → Core) (j : Nat) : ∀ (l : List Nat) (s : State), l.Nodup →
    getCore (l.foldl (fun t i => modCore t i f) s) j = if j ∈ l then f (getCore s j) else getCore s j
  | [], _, _ => rfl
  | i :: r, s, h => by
    obtain ⟨hir, hr⟩ := List.nodup_cons.mp h
    rw [List.foldl_cons, getCore_foldl_modCore f j r _ hr, getCore_modCore]
    by_cases hj : j = i
    · subst hj
      simp [hir]
    · simp [hj]

theorem mem_regionCores {r : Region} {i : Nat} : i ∈ r.cores ↔ 4 * r.first ≤ i ∧ i < 4 * (r.first + r.count) := by
  simp only [Region.cores, List.mem_map, List.mem_range]
  constructor
  · rintro ⟨k, hk, rfl⟩
    omega
  · rintro ⟨hlo, hhi⟩
    exact ⟨i - 4 * r.first, by omega, by omega⟩

theorem regionCores_nodup (r : Region) : r.cores.Nodup := List.nodup_range.map fun a b h => by simpa using h

/-! ### Descriptors -/

/-- Settles O14: an accepted descriptor joins its queue, or waits for a place. -/
theorem descriptorsJoinTheirQueues : Obligations.DescriptorsJoinTheirQueues := by
  unfold Obligations.DescriptorsJoinTheirQueues
  intro s core a
  dsimp only
  refine ⟨fun hp hok hrun => ?siss, fun hp hok hrun => ?mvis, rfl, rfl⟩
  case siss =>
    show execSiss core a s = _
    rw [execSiss, seqStep_runs hrun]
    dsimp only
    rw [if_neg (by simp [hp]), if_neg (by simp [hok])]
    split <;> rfl
  case mvis =>
    show execMvis core a s = _
    rw [execMvis, seqStep_runs hrun, onCore]
    dsimp only
    rw [if_neg (by simp [hp]), if_neg (by simp [hok])]
    split <;> rfl

/-! ### The barrier -/

/-- A core's step from the barrier. -/
def leaveBarrier (c : Core) : Core := { c with psyncWait := false, pc := c.pc + 4 }

/-- A region's cores leave the barrier when every one of them stands there. -/
def atBarrier (s : State) (r : Region) (i : Nat) : Prop :=
  (getCore s i).running = true ∧ (getCore s i).psyncWait = true ∧ (getCore s i).psync = (getCore s (4 * r.first)).psync ∧
    dieHalted s (dieOfCore i) = false

theorem exec_psyncRelease {s : State} {region : Nat} {r : Region} (hr : regionOf s region = some r)
    (hall : ∀ i ∈ r.cores, atBarrier s r i) :
    exec (.psyncRelease region) s = .next (r.cores.foldl (fun t i => modCore t i leaveBarrier) s) := by
  show execPsyncRelease region s = _
  rw [execPsyncRelease, hr]
  dsimp only
  rw [List.all_eq_true.mpr, whenTaken_true]
  · rfl
  · intro i hi
    obtain ⟨hrun, hwait, hcount, hhalt⟩ := hall i hi
    simp [hrun, hwait, hcount, hhalt]

theorem exec_psyncRelease_idle {s : State} {region : Nat} {r : Region} (hr : regionOf s region = some r)
    (hmiss : ∃ i ∈ r.cores, ¬ atBarrier s r i) : exec (.psyncRelease region) s = .next s := by
  obtain ⟨i, hi, hnot⟩ := hmiss
  show execPsyncRelease region s = _
  rw [execPsyncRelease, hr]
  dsimp only
  rw [List.all_eq_false.mpr, whenTaken_false]
  refine ⟨i, hi, fun hthere => hnot ?_⟩
  simp only [Bool.and_eq_true, beq_iff_eq, Bool.not_eq_true'] at hthere
  obtain ⟨⟨⟨hrun, hwait⟩, hcount⟩, hhalt⟩ := hthere
  exact ⟨hrun, hwait, hcount, hhalt⟩

/-- Settles O16: the release is taken exactly when every core of the region stands at the barrier. -/
theorem barrierReleasesTheWholeRegion : Obligations.BarrierReleasesTheWholeRegion := by
  unfold Obligations.BarrierReleasesTheWholeRegion
  intro s region r hr
  dsimp only
  simp only [← mem_regionCores]
  refine ⟨fun hall => ⟨_, exec_psyncRelease hr hall, fun i hi => ?_, fun i hi => ?_⟩, exec_psyncRelease_idle hr⟩
  · rw [getCore_foldl_modCore _ _ _ _ (regionCores_nodup r), if_pos hi]
    rfl
  · rw [getCore_foldl_modCore _ _ _ _ (regionCores_nodup r), if_neg hi]

/-! ### Control registers -/

/-- A register of Table 6.10 other than SEQ_CYCLE. -/
theorem csrr_reads {s : State} {core : Nat} {d : RField} {imm : BitVec 14} (hn : imm.toNat ≠ 3) :
    GivesG (.csrr core d imm) (encI 0x3B d 0 imm) core d
      (BitVec.ofNat 64 (csrValue core (getCore s core) imm.toNat 0), false) s := by
  intro hrun
  show execCsrr core d imm s = _
  rw [execCsrr, seqStep_whole hrun rfl]
  simp only [hn, if_false, modCore, setCore_setCore, getCore_setCore, if_true, seqNext]

/-- SEQ_CYCLE gives the next free value. -/
theorem csrr_cycle {s : State} {core : Nat} {d : RField} {imm : BitVec 14} (hn : imm.toNat = 3)
    (hrun : SeqRuns s core (encI 0x3B d 0 imm)) : exec (.csrr core d imm) s =
      .next { seqNext core (writeG (getCore s core) d (BitVec.ofNat 64 (Config.freeNat s.freeCtr), false)) s with
        freeCtr := s.freeCtr + 1 } := by
  show execCsrr core d imm s = _
  rw [execCsrr, seqStep_whole hrun rfl]
  simp only [hn, if_true, modCore, setCore_setCore, getCore_setCore]
  rfl

theorem b2n_eq (b : Bool) : b2n b = if b then 1 else 0 := rfl

/-- The value of a register as Table 6.10 gives it. -/
theorem csrValue_eq (core : Nat) (c : Core) {n : Nat} (hn : n ≠ 3) (free : Nat) : csrValue core c n free =
    if n = 0 then core else if n = 1 then c.step else if n = 2 then c.tag % 2 ^ 32
    else if n = 0x10 then c.sfCause.toNat else if n = 0x11 then c.sfIndex.toNat else if n = 0x12 then c.sfCount.toNat
    else if n = 0x20 then queuedOn c 0 + 16 * queuedOn c 1 + 256 * queuedOn c 2 + 4096 * queuedOn c 3 + 65536 * queuedMoves c
    else if n = 0x30 then (if c.phase.isSome then 1 else 0) + (if c.lastPoisoned then 2 else 0) + 65536 * c.lastPhase
    else if 0x400 ≤ n ∧ n < 0x400 + 1152 ∧ (n - 0x400) % 72 < 69 then tget 0 c.tot (n - 0x400) else 0 := by
  have hqueue : seqQueue c =
      queuedOn c 0 + 16 * queuedOn c 1 + 256 * queuedOn c 2 + 4096 * queuedOn c 3 + 65536 * queuedMoves c := by
    unfold seqQueue
    omega
  have hphase : b2n c.phase.isSome + b2n c.lastPoisoned * 2 + c.lastPhase * 2 ^ 16 =
      (if c.phase.isSome then 1 else 0) + (if c.lastPoisoned then 2 else 0) + 65536 * c.lastPhase := by
    rw [b2n_eq, b2n_eq]
    split_ifs <;> omega
  simp only [csrValue, hqueue, hphase, if_neg hn, Bool.and_eq_true, decide_eq_true_eq, and_assoc]

/-- Settles O17: each register reads as the table gives it, and two of them clear. -/
theorem controlRegistersReadAndClear : Obligations.ControlRegistersReadAndClear := by
  unfold Obligations.ControlRegistersReadAndClear
  intro s core d imm
  dsimp only
  refine ⟨fun hn => ?read, csrr_cycle, fun hp hrun => ?write⟩
  case read =>
    rw [← csrValue_eq core _ hn 0]
    exact csrr_reads hn
  case write =>
    show execCsrw core d imm s = _
    rw [execCsrw, seqStep_runs hrun, onCore]
    dsimp only
    rw [if_neg (by simp [hp])]
    split_ifs <;> rfl

end Sys2Proof.Machine
end

section
/-!
PROOF. Sequencer faults: when each cause is taken, and what taking one leaves (R201, Table 6.9).
-/

namespace Sys2Proof.Machine

open Sys2Proof

/-! ### The causes -/

section Cause

variable {s : State} {core : Nat} {w : W32} {body : State → Core → SeqRes}

/-- Fetching outside the program section. -/
theorem seqStep_outside (hc : core < Config.numCores) (hr : seqReady s core = true) (hp : pcInSection (getCore s core) = false) :
    seqStep core w body s = .next (seqFault core 4 s) := by
  rw [seqStep, decide_eq_true hc, guardUnit_true, if_pos hr]
  simp [hp]

/-- A word that is no legal instruction. -/
theorem seqStep_illegal (hc : core < Config.numCores) (hr : seqReady s core = true) (hp : pcInSection (getCore s core) = true)
    (hl : seqLegal (fetchWord (getCore s core)) = false) : seqStep core w body s = .next (seqFault core 1 s) := by
  rw [seqStep, decide_eq_true hc, guardUnit_true, if_pos hr]
  simp [hp, hl]

/-- An instruction that faults by itself. -/
theorem seqStep_trap (h : SeqRuns s core w) {cause : Nat} (hb : body s (getCore s core) = .trap cause) :
    seqStep core w body s = .next (seqFault core cause s) := by
  rw [seqStep_runs h, hb]
  rfl

end Cause

section Access

variable {s : State} {c : Core} {addr : PV} {n al : Nat} {write : Bool}

theorem seqAccess_poisoned (h : addr.2 = true) : seqAccess s c addr n al write = .trap 5 := by
  rw [seqAccess, if_pos h]

theorem seqAccess_misaligned (hp : addr.2 = false) (h : addr.1.toNat % al ≠ 0) : seqAccess s c addr n al write = .trap 2 := by
  rw [seqAccess, if_neg (by simp [hp]), if_pos h]

/-- A write that instruction memory, or nothing, would take. -/
theorem seqAccess_beyond (hp : addr.2 = false) (hal : addr.1.toNat % al = 0) (hn : 0 < n) (h : 0xC00000 ≤ addr.1.toNat) :
    seqAccess s c addr n al true = .trap 3 := by
  have hmem : seqMemOf addr.1 n = none ∨ ∃ o, seqMemOf addr.1 n = some (.imem, o) := by
    unfold seqMemOf
    rw [if_neg (by omega), if_neg (by simp; omega), if_neg (by simp; omega)]
    split
    · exact .inr ⟨_, rfl⟩
    · exact .inl rfl
  rw [seqAccess, if_neg (by simp [hp]), if_neg (not_not.mpr hal)]
  obtain hnone | ⟨o, himem⟩ := hmem
  · rw [hnone]
  · rw [himem]
    rfl

end Access

theorem loadG_trap {s : State} {c : Core} {core n : Nat} {d a : RField} {imm : BitVec 14} {ext : Nat → W64} {cause : Nat}
    (h : seqAccess s c (seqAddr c a (sext64 imm)) n n false = .trap cause) : loadG core n d a imm ext s c = .trap cause := by
  rw [loadG, h]
  rfl

theorem storeG_trap {s : State} {c : Core} {core n : Nat} {d a : RField} {imm : BitVec 14} {cause : Nat}
    (h : seqAccess s c (seqAddr c a (sext64 imm)) n n true = .trap cause) : storeG core n d a imm s c = .trap cause := by
  rw [storeG, h]
  rfl

/-- A poisoned descriptor. -/
theorem siss_poisoned {s : State} {core : Nat} {a : RField} (hrun : SeqRuns s core (encT 0x38 0 a 0 0))
    (hp : (readW (getCore s core) a.toNat).any Prod.snd = true) : exec (.siss core a) s = .next (seqFault core 5 s) := by
  show execSiss core a s = _
  rw [execSiss]
  exact seqStep_trap hrun (if_pos hp)

/-! ### Taking a fault -/

/-- A core that stops. -/
def stopped (c : Core) : Core := { c with running := false }

/-- A core that stops with a fault. -/
def faulted (cause : Nat) (c : Core) : Core := { c with running := false, fault := some (cause, c.pc) }

/-- The state in which the faulting core and its region's cores have stopped. -/
def stopRegion (core cause : Nat) (g : Region) (s : State) : State :=
  g.cores.foldl (fun st i => modCore st i stopped) (modCore s core (faulted cause))

/-- Beyond that, a fault touches neither cells nor cores nor memory: it marks the run, which may end. -/
theorem seqFault_stops {s : State} {core : Nat} {g : Region} (hg : regionOf s (getCore s core).region = some g) (cause : Nat) :
    KeepsWork (stopRegion core cause g s) (seqFault core cause s) := by
  have hg1 : ∀ c, regionOf (setCore s core c) (getCore s core).region = some g := fun _ => hg
  unfold seqFault
  dsimp only
  rw [hg1]
  refine KeepsWork.trans ?_ (finishFaulted_keepsWork ..)
  exact ⟨rfl, rfl, rfl⟩

theorem getCore_stopRegion (core cause : Nat) (g : Region) (s : State) (i : Nat) : getCore (stopRegion core cause g s) i =
    if i ∈ g.cores then stopped (if i = core then faulted cause (getCore s core) else getCore s i)
    else if i = core then faulted cause (getCore s core) else getCore s i := by
  rw [stopRegion, getCore_foldl_modCore _ _ _ _ (regionCores_nodup g), getCore_modCore]

theorem stopRegion_mem (core cause : Nat) (g : Region) (s : State) : (stopRegion core cause g s).mem = s.mem := by
  unfold stopRegion
  induction g.cores using List.reverseRecOn with
  | nil => rfl
  | append_singleton l i ih =>
    rw [List.foldl_append]
    exact ih

/-- The fault's part of the statement. -/
theorem fault_stops_region {s : State} {core : Nat} (cause : Nat) {g : Region}
    (hg : regionOf s (getCore s core).region = some g) (hin : core ∈ g.cores) :
    (getCore (seqFault core cause s) core = stopped (faulted cause (getCore s core))) ∧
    (∀ i ∈ g.cores, (getCore (seqFault core cause s) i).running = false) ∧
    (∀ i, (getCore (seqFault core cause s) i).phase = (getCore s i).phase) ∧
    (∀ i, i ∉ g.cores → getCore (seqFault core cause s) i = getCore s i) ∧
    (seqFault core cause s).mem = s.mem := by
  have hkeep := seqFault_stops hg cause
  simp only [hkeep.getCore, getCore_stopRegion]
  refine ⟨?_, fun i hi => ?_, fun i => ?_, fun i hi => ?_, hkeep.mem.trans (stopRegion_mem ..)⟩
  · rw [if_pos hin, if_pos trivial]
  · rw [if_pos hi]
    rfl
  · by_cases hcore : i = core
    · subst hcore
      rw [if_pos hin, if_pos rfl]
      rfl
    · rw [if_neg hcore]
      split <;> rfl
  · rw [if_neg hi, if_neg (by rintro rfl; exact hi hin)]

/-- Settles O19: each cause is taken where it is found, and taking it stops the region. -/
theorem sequencerFaultsStopTheRegion : Obligations.SequencerFaultsStopTheRegion := by
  unfold Obligations.SequencerFaultsStopTheRegion
  refine ⟨fun s core d a b imm => ?causes, fun s core cause g => ?taken⟩
  case causes =>
    dsimp only
    intro hc hr
    refine ⟨seqStep_outside hc hr, seqStep_illegal hc hr,
      fun hrun hp => seqStep_trap hrun (loadG_trap (seqAccess_poisoned hp)),
      fun hrun hp hal => seqStep_trap hrun (loadG_trap (seqAccess_misaligned hp hal)),
      fun hrun hp hal hmem => seqStep_trap hrun (storeG_trap (seqAccess_beyond hp hal (by decide) hmem)),
      fun hrun hp => seqStep_trap hrun ?branch, fun hrun hp => seqStep_trap hrun ?jalr, siss_poisoned⟩
    case branch => exact if_pos (by simpa using hp)
    case jalr => exact if_pos hp
  case taken =>
    dsimp only
    intro hg hlo hhi
    simp only [← mem_regionCores]
    obtain ⟨hcore, hrun, hphase, hother, hmem⟩ := fault_stops_region cause hg (mem_regionCores.mpr ⟨hlo, hhi⟩)
    rw [hcore, hmem]
    exact ⟨rfl, rfl, rfl, rfl, rfl, rfl, fun i h1 h2 => hrun i (mem_regionCores.mpr ⟨h1, h2⟩), hphase, hother, rfl⟩

end Sys2Proof.Machine
end

section
/-!
PROOF. The statement about runs, switches and loads fails at its last clause: a load that stands first in QUEUED is taken to be
held back (R229), but the model holds it back only while it has never run.
-/

namespace Sys2Proof.Machine

open Sys2Proof

/-- The first command of port A. -/
def firstHeader : CmdHdr := { port := 0, fence := false, noIrq := false, vec := 0, tag := 0, step := 0 }

/-- A small LOAD_CONFIG. -/
def smallLoad : Instr := .loadConfig firstHeader 0x40 0x1000

/-- A load that stands first, its CFG_LOAD not yet sent. -/
def unsentLoad : Load :=
  { handle := 6, addr := 0x40, bytes := 0x200000, stage := .accept, sent := false, dies := 0, applied := 0, check := 0, offset := 0,
    cell := 0, image := [], digest := [], signed := false, remaps := 0 }

/-- Its long operation is QUEUED and bears the mark of one that has run. No command leaves it so, since RESUME puts one that ran
back to RUNNING, but the statement's hypotheses allow it. -/
def requeuedOp : LongOp :=
  { handle := unsentLoad.handle, opcode := 0x0101, cmd := .loadConfig firstHeader 0x40 0x200000, state := .queued, ran := true,
    pastCommit := false, mark := 0, ranges := [], suspender := none, resumer := none, canceller := none }

/-- That load is in the queue, and port A, which holds the token, is up. -/
def requeuedLoad : State :=
  { State.reset with
    fb := { State.reset.fb with loads := [unsentLoad] },
    cp := { State.reset.cp with
      accepting := true, holder := 1, longops := [(2, requeuedOp)], a := { State.reset.cp.a with linkUp := true } },
    ws := { State.reset.ws with haltSm := false } }

/-- Port A takes a small LOAD_CONFIG there as its next command. -/
theorem hostRuns_loadConfig_requeuedLoad : HostRuns requeuedLoad smallLoad firstHeader 0x0101 1 := by
  decide +kernel

/-- The load that joins the queue sets off the CFG_LOAD of the one at its head. -/
theorem head_sent_after_loadConfig :
    (headLoad (acceptRow smallLoad requeuedLoad)).map Load.sent = some true := by decide +kernel

/-- Refutes O31: a load is said to leave those before it as they are where the first of them is QUEUED as a long operation, but
the statement does not say that this operation has never run, and the model goes by that. The CFG_LOAD of the first load is then
sent with the arrival of the second. -/
theorem not_runsSwitchesAndLoadsAreHandedOn : ¬ Obligations.RunsSwitchesAndLoadsAreHandedOn := by
  unfold Obligations.RunsSwitchesAndLoadsAreHandedOn
  intro h
  obtain ⟨-, -, -, hload⟩ := h requeuedLoad firstHeader 0 0 0 0 0x40 0x1000
  have hqueued : ∀ x, headLoad requeuedLoad = some x →
      x.sent = true ∨ ∃ e, longOpOf requeuedLoad x.handle = some e ∧ e.2.state = .queued := by
    rintro x hx
    obtain rfl : unsentLoad = x := Option.some.inj hx
    exact .inr ⟨_, rfl, rfl⟩
  obtain ⟨t, ht, -, l, hl, -⟩ := hload hostRuns_loadConfig_requeuedLoad hqueued
  obtain rfl : acceptRow smallLoad requeuedLoad = t := Host.Outcome.next.inj ht
  have hkept : (headLoad (acceptRow smallLoad requeuedLoad)).map Load.sent = some false := by
    rw [headLoad, hl]
    rfl
  exact absurd (head_sent_after_loadConfig.symm.trans hkept) (by decide)

end Sys2Proof.Machine
end

section
/-!
PROOF. What writing the black box leaves (R510 to R520): records, maps and notes change nothing outside it.
-/

namespace Sys2Proof.Machine

open Sys2Proof

/-- Nothing but the black box differs. -/
def OnlyBb (s t : State) : Prop := t = { s with bb := t.bb }

theorem OnlyBb.refl (s : State) : OnlyBb s s := rfl

theorem OnlyBb.trans {s t u : State} (h : OnlyBb s t) (g : OnlyBb t u) : OnlyBb s u := by
  unfold OnlyBb at *
  rw [g, h]

theorem onlyBb_ite {s t u : State} {c : Prop} [Decidable c] (ht : OnlyBb s t) (hu : OnlyBb s u) :
    OnlyBb s (if c then t else u) := by
  split
  · exact ht
  · exact hu

theorem writeSlot_onlyBb (seq : Nat) (rec : List Byte) (s : State) : OnlyBb s (writeSlot seq rec s) := rfl

theorem writeMap_onlyBb (m : RepairMap) (s : State) : OnlyBb s (writeMap m s) := rfl

theorem writeControl_onlyBb (seq type cause : Nat) (body : List Byte) (s : State) :
    OnlyBb s (writeControl seq type cause body s) := by
  have hctrl : ∀ x, OnlyBb s (writeCtrl x s) := fun x => onlyBb_ite rfl rfl
  exact onlyBb_ite (hctrl _) ((hctrl _).trans rfl)

theorem bbCommit_onlyBb (type cause len : Nat) (body : List Byte) (s : State) : OnlyBb s (bbCommit type cause len body s) :=
  onlyBb_ite (writeSlot_onlyBb ..) ((writeSlot_onlyBb ..).trans (writeControl_onlyBb ..))

theorem commitNote_onlyBb (note : List Byte) (s : State) : OnlyBb s (commitNote note s) :=
  onlyBb_ite (onlyBb_ite rfl (bbCommit_onlyBb ..)) (bbCommit_onlyBb ..)

theorem noteGo_onlyBb (note : List Byte) (s : State) : OnlyBb s (noteGo note s) :=
  onlyBb_ite (OnlyBb.trans (t := { s with bb := { s.bb with note := padTo 256 note } }) rfl (commitNote_onlyBb ..))
    (onlyBb_ite rfl rfl)

theorem noteEvent_onlyBb (code : Nat) (body : List Byte) (s : State) : OnlyBb s (noteEvent code body s) := noteGo_onlyBb ..

theorem noteLoad_onlyBb (body : List Byte) (s : State) : OnlyBb s (noteLoad body s) := noteGo_onlyBb ..

end Sys2Proof.Machine
end

section
/-!
PROOF. FETCH and VERIFY of the load under way (R228, R229, R231, R233): the image as it is read, and the load that each stage
leaves.
-/

namespace Sys2Proof.Machine

open Sys2Proof

/-! ### The image -/

/-- No piece of a range crosses a sector's end. -/
theorem sectorPieces_in_sector {p : Nat × Nat} : ∀ {fuel a n : Nat}, p ∈ sectorPieces a fuel n → p.1 % 32 + p.2 ≤ 32
  | 0, _, _, h => by simp [sectorPieces] at h
  | _ + 1, _, 0, h => by simp [sectorPieces] at h
  | fuel + 1, a, n + 1, h => by
    simp only [sectorPieces, List.mem_cons] at h
    rcases h with rfl | h
    · have hk : Nat.min (n + 1) (32 - a % 32) = min (n + 1) (32 - a % 32) := rfl
      dsimp only
      omega
    · exact sectorPieces_in_sector h

/-- Bytes taken out of the sector they lie in. -/
theorem slice_readBytes_sector {a k : Nat} (h : a % 32 + k ≤ 32) (s : State) :
    slice (readBytes s (a / 32 * 32) 32) (a % 32) k = readBytes s a k := by
  obtain ⟨r, hr⟩ : ∃ r, 32 = a % 32 + (k + r) := ⟨32 - (a % 32 + k), by omega⟩
  have hsplit : readBytes s (a / 32 * 32) 32 =
      readBytes s (a / 32 * 32) (a % 32) ++ (readBytes s a k ++ readBytes s (a + k) r) := calc
    readBytes s (a / 32 * 32) 32 = readBytes s (a / 32 * 32) (a % 32 + (k + r)) := by rw [← hr]
    _ = _ := by rw [readBytes_add, Nat.div_add_mod', readBytes_add]
  rw [slice_of_le (by simpa [readBytes] using h), hsplit, List.drop_left' (by simp [readBytes]),
    List.take_left' (by simp [readBytes])]

/-- A range that reads without fault is fetched byte for byte. -/
theorem fetchImage_of_sound {s : State} {a n : Nat} (h : ∀ i, i < n → readFaults s (a + i) = false) :
    fetchImage s a n = (readBytes s a n, none) := by
  have hfold : ∀ l : List (Nat × Nat), (∀ p ∈ l, readFaults s p.1 = false ∧ p.1 % 32 + p.2 ≤ 32) →
      l.foldr (fun p acc =>
        let r := readSector s p.1
        (slice r.1 (p.1 % 32) p.2 ++ acc.1, if r.2 then some (p.1 - a) else acc.2)) ([], none) =
      ((l.map fun p => readBytes s p.1 p.2).flatten, none) := by
    intro l
    induction l with
    | nil => exact fun _ => rfl
    | cons p r ih =>
      intro hl
      obtain ⟨hsound, hin⟩ := hl p List.mem_cons_self
      rw [List.foldr_cons, ih fun q hq => hl q (List.mem_cons_of_mem p hq)]
      simp [readSector, hsound, slice_readBytes_sector hin]
  rw [fetchImage, hfold _ fun p hp => ⟨readFaults_sectorPieces h p hp, sectorPieces_in_sector hp⟩,
    flatten_readBytes_sectorPieces s n a n le_rfl]

/-! ### The load under way -/

theorem headLoad_of_loads {s : State} {l : Load} {rest : List Load} (h : s.fb.loads = l :: rest) : headLoad s = some l := by
  rw [headLoad, h]
  rfl

theorem modHead_of_loads {s : State} {l : Load} {rest : List Load} (h : s.fb.loads = l :: rest) (f : Load → Load) :
    modHead s f = setLoads s (f l :: rest) := by
  rw [modHead, h]

/-- A load once its image is read and judged (R231, R233). -/
def fetched (s : State) (l : Load) : Load :=
  let img := fetchImage s l.addr l.bytes
  let found := (verdict img.1 l.bytes img.2 s).getD (0, (0, 0))
  { l with stage := .verify, image := img.1, digest := crbDigest img.1, check := found.1, offset := found.2.1, cell := found.2.2 }

/-- A load once its verdict is taken up (R233). -/
def verified (l : Load) : Load :=
  if l.check = 0 then { l with stage := .hold, signed := crbSigned l.image } else { l with stage := .report }

section Stages

variable {s : State} {l : Load} {rest : List Load} (h : s.fb.loads = l :: rest)

include h

theorem exec_fetch : exec .fetch s = .next (if l.stage = .accept ∧ l.dies = 0xFF ∧ loadRuns s l = true
    then setLoads (noteReads s l.addr l.bytes) (fetched s l :: rest) else s) := by
  have hread : (noteReads s l.addr l.bytes).fb.loads = l :: rest := by rw [noteReads_onlyMem, h]
  show execFetch s = _
  unfold execFetch whenTaken
  rw [headLoad_of_loads h]
  simp only [modHead_of_loads hread, Bool.and_eq_true, beq_iff_eq, and_assoc]
  rfl

theorem exec_verify : exec .verify s = .next (if l.stage = .verify ∧ loadRuns s l = true
    then setLoads s (verified l :: rest) else s) := by
  show execVerify s = _
  unfold execVerify whenTaken
  rw [headLoad_of_loads h]
  simp only [modHead_of_loads h, Bool.and_eq_true, beq_iff_eq]
  rfl

theorem exec_apply : exec .apply s = .next (if l.stage = .apply then applyDies l s
    else if l.stage = .hold ∧ loadRuns s l = true ∧ loadBlocked (imgOf l.image) s = false then applyDies l (commitLoad l s)
    else s) := by
  show execApply s = _
  unfold execApply whenTaken
  rw [headLoad_of_loads h]
  simp only [Bool.and_eq_true, Bool.not_eq_true', beq_iff_eq, and_assoc]

theorem exec_report : exec .report s = .next (if l.stage = .report ∧ (l.check = 0 ∨ loadRuns s l = true)
    then (if l.check = 0 then reportGood l s else reportBad l s) else s) := by
  show execReport s = _
  unfold execReport whenTaken
  rw [headLoad_of_loads h]
  simp only [Bool.and_eq_true, Bool.or_eq_true, beq_iff_eq]

end Stages

end Sys2Proof.Machine
end

section
/-!
PROOF. APPLY (R33, R229, R232, R235): what applying an image leaves of the loads, and what a halt holds back.
-/

namespace Sys2Proof.Machine

open Sys2Proof

/-! ### What applying leaves -/

/-- The loads, the regions, the count of loads and the command processor's account stand. -/
structure KeepsLoads (s t : State) : Prop where
  loads : t.fb.loads = s.fb.loads
  regions : t.fb.regions = s.fb.regions
  count : t.fb.loadCount = s.fb.loadCount
  cp : t.cp = s.cp

theorem KeepsLoads.refl (s : State) : KeepsLoads s s := ⟨rfl, rfl, rfl, rfl⟩

theorem KeepsLoads.trans {s t u : State} (h : KeepsLoads s t) (g : KeepsLoads t u) : KeepsLoads s u :=
  ⟨g.loads.trans h.loads, g.regions.trans h.regions, g.count.trans h.count, g.cp.trans h.cp⟩

theorem OnlyMem.keepsLoads {s t : State} (h : OnlyMem s t) : KeepsLoads s t := by
  rw [h]
  exact ⟨rfl, rfl, rfl, rfl⟩

theorem OnlyBb.keepsLoads {s t : State} (h : OnlyBb s t) : KeepsLoads s t := by
  rw [h]
  exact ⟨rfl, rfl, rfl, rfl⟩

theorem foldl_keepsLoads {α : Type} {f : State → α → State} (hf : ∀ s a, KeepsLoads s (f s a)) (l : List α) (s : State) :
    KeepsLoads s (l.foldl f s) := by
  induction l generalizing s with
  | nil => exact KeepsLoads.refl s
  | cons a r ih => exact (hf s a).trans (ih (f s a))

theorem modCell_keepsLoads (s : State) (i : Nat) (f : Cell → Cell) : KeepsLoads s (modCell s i f) := ⟨rfl, rfl, rfl, rfl⟩

theorem modCore_keepsLoads (s : State) (i : Nat) (f : Core → Core) : KeepsLoads s (modCore s i f) := ⟨rfl, rfl, rfl, rfl⟩

theorem setSectorPoison_keepsLoads (s : State) (a : Nat) (v : Bool) : KeepsLoads s (setSectorPoison s a v) :=
  ⟨rfl, rfl, rfl, rfl⟩

theorem setClusterMap_keepsLoads (i : Nat) (w : W32) (s : State) : KeepsLoads s (setClusterMap i w s) := ⟨rfl, rfl, rfl, rfl⟩

theorem putCapacity_keepsLoads (d active spares : Nat) (s : State) : KeepsLoads s (putCapacity d active spares s) :=
  ⟨rfl, rfl, rfl, rfl⟩

theorem saveRepair_keepsLoads (s : State) : KeepsLoads s (saveRepair s) := (writeMap_onlyBb ..).keepsLoads

theorem noteEvent_keepsLoads (code : Nat) (body : List Byte) (s : State) : KeepsLoads s (noteEvent code body s) :=
  (noteEvent_onlyBb ..).keepsLoads

/-! ### Remaps (R85, R171, R172, R232) -/

theorem copyStore_keepsLoads (src dst : Nat) (s : State) : KeepsLoads s (copyStore src dst s) :=
  foldl_keepsLoads (fun _ _ => (writeBytes_onlyMem ..).keepsLoads.trans (setSectorPoison_keepsLoads ..)) _ s

theorem freeCell_keepsLoads (cell : Nat) (s : State) : KeepsLoads s (freeCell cell s) := by
  unfold freeCell
  extract_lets r1 r2 r3 a s1 s2
  have h3 : KeepsLoads s r3.2 := ⟨rfl, rfl, rfl, rfl⟩
  have h1 : KeepsLoads s s1 := h3.trans (writeBytes_onlyMem ..).keepsLoads
  have h2 : KeepsLoads s s2 := h1.trans (foldl_keepsLoads (fun _ _ => setSectorPoison_keepsLoads ..) _ s1)
  exact h2.trans (modCell_keepsLoads ..)

theorem shiftRow_keepsLoads (core row f : Nat) (s : State) : KeepsLoads s (shiftRow core row f s) := by
  unfold shiftRow
  extract_lets s1
  have h1 : KeepsLoads s s1 := foldl_keepsLoads
    (fun st c => KeepsLoads.trans (t := setCell st (cellAt core row c) _) ⟨rfl, rfl, rfl, rfl⟩ (copyStore_keepsLoads ..)) _ s
  split
  · exact h1.trans (freeCell_keepsLoads ..)
  · exact h1

theorem applyRow_keepsLoads (core row : Nat) (s : State) : KeepsLoads s (applyRow core row s) := by
  unfold applyRow
  extract_lets w f w1 w2 s1 s2
  have h1 : KeepsLoads s s1 := ⟨rfl, rfl, rfl, rfl⟩
  have h2 : KeepsLoads s1 s2 := by
    unfold s2
    split
    · exact shiftRow_keepsLoads ..
    · exact KeepsLoads.refl s1
  exact ((h1.trans h2).trans (saveRepair_keepsLoads s2)).trans (noteEvent_keepsLoads ..)

theorem moveCluster_keepsLoads (i j : Nat) (s : State) : KeepsLoads s (moveCluster i j s) := by
  unfold moveCluster
  extract_lets d l c bad s0 w v v1 s1 s2
  have h0 : KeepsLoads s s0 := foldl_keepsLoads (fun _ _ => setSectorPoison_keepsLoads ..) bad s
  have h1 : KeepsLoads s0 s1 :=
    ((setClusterMap_keepsLoads ..).trans (setClusterMap_keepsLoads ..)).trans (putCapacity_keepsLoads ..)
  have h2 : KeepsLoads s1 s2 := foldl_keepsLoads (fun _ _ => modCell_keepsLoads ..) _ s1
  exact (((h0.trans h1).trans h2).trans (saveRepair_keepsLoads s2)).trans (noteEvent_keepsLoads ..)

theorem dropCluster_keepsLoads (i : Nat) (s : State) : KeepsLoads s (dropCluster i s) := by
  unfold dropCluster
  extract_lets d w
  exact ((setClusterMap_keepsLoads ..).trans (putCapacity_keepsLoads ..)).trans (saveRepair_keepsLoads _)

theorem applyRemaps_keepsLoads (applies : Nat → Bool) (d : Nat) (s : State) : KeepsLoads s (applyRemaps applies d s).1 := by
  unfold applyRemaps
  extract_lets rows s1 pend sp s2 s3
  have h1 : KeepsLoads s s1 := foldl_keepsLoads (fun _ _ => applyRow_keepsLoads ..) rows s
  have h2 : KeepsLoads s1 s2 := foldl_keepsLoads (fun _ _ => moveCluster_keepsLoads ..) _ s1
  have h3 : KeepsLoads s2 s3 := foldl_keepsLoads (fun _ _ => dropCluster_keepsLoads ..) _ s2
  exact ((h1.trans h2).trans h3).trans (putCapacity_keepsLoads ..)

/-! ### Contexts and programs (R75, R112, R156, R208, R209, R214) -/

theorem applyCell_keepsLoads (g : Img) (cell : Nat) (s : State) : KeepsLoads s (applyCell g cell s) := by
  unfold applyCell
  exact modCell_keepsLoads ..

theorem applyQ_keepsLoads (f : CtxFrame) (s : State) : KeepsLoads s (applyQ f s) := by
  unfold applyQ
  split
  · exact KeepsLoads.refl s
  · exact foldl_keepsLoads (fun _ _ => modCell_keepsLoads ..) _ s

theorem applyInit_keepsLoads (f : CtxFrame) (s : State) : KeepsLoads s (applyInit f s) := by
  unfold applyInit
  extract_lets x
  split
  · exact foldl_keepsLoads (fun _ _ => (writeMem_onlyMem ..).keepsLoads) _ s
  · exact KeepsLoads.refl s

theorem applyProg_keepsLoads (die : Nat) (q : ProgSub) (s : State) : KeepsLoads s (applyProg die q s) :=
  foldl_keepsLoads (fun _ _ => modCore_keepsLoads ..) _ s

theorem applyDie_keepsLoads (g : Img) (digest : List Byte) (die : Nat) (s : State) :
    KeepsLoads s (applyDie g digest die s).1 := by
  unfold applyDie
  extract_lets r gone cells s1 s2 s3 s4
  have hr : KeepsLoads s r.1 := applyRemaps_keepsLoads ..
  have h1 : KeepsLoads r.1 s1 := foldl_keepsLoads (fun _ _ => applyCell_keepsLoads ..) cells r.1
  have h2 : KeepsLoads s1 s2 :=
    foldl_keepsLoads (fun st _ => foldl_keepsLoads (fun _ _ => modCore_keepsLoads ..) _ st) g.regs s1
  have h3 : KeepsLoads s2 s3 :=
    foldl_keepsLoads (fun st f => (applyQ_keepsLoads f st).trans (applyInit_keepsLoads ..)) _ s2
  have h4 : KeepsLoads s3 s4 :=
    foldl_keepsLoads (fun st _ => foldl_keepsLoads (fun _ _ => modCore_keepsLoads ..) _ st) _ s3
  exact ((((hr.trans h1).trans h2).trans h3).trans h4).trans (foldl_keepsLoads (fun _ _ => applyProg_keepsLoads ..) g.progs s4)

/-! ### The dies -/

/-- The dies that apply a load now: those left to it that no halt holds. -/
def diesGoing (l : Load) (s : State) : List Nat := (diesLeft (imgOf l.image) l s).filter fun d => !dieHalted s d

/-- The dies that have applied a load once those have. -/
def diesDone (l : Load) (s : State) : BitVec 8 := (diesGoing l s).foldl (fun m d => m ||| BitVec.ofNat 8 (2 ^ d)) l.applied

/-- The stage of a load that those dies have applied: it ends once no halt holds a die that is left (R33). -/
def stageAfter (l : Load) (s : State) : LoadStage :=
  if (diesLeft (imgOf l.image) l s).any fun d => dieHalted s d then .apply else .report

theorem stageAfter_cases (l : Load) (s : State) : stageAfter l s = .apply ∨ stageAfter l s = .report := by
  unfold stageAfter
  split
  · exact .inl rfl
  · exact .inr rfl

theorem lt_of_mem_diesLeft {g : Img} {l : Load} {s : State} {d : Nat} (h : d ∈ diesLeft g l s) : d < 8 :=
  List.mem_range.mp (List.mem_of_mem_filter h)

theorem stageAfter_of_no_halt {s : State} (h : ∀ d, d < 8 → dieHalted s d = false) (l : Load) : stageAfter l s = .report := by
  have hnone : ((diesLeft (imgOf l.image) l s).any fun d => dieHalted s d) = false :=
    List.any_eq_false.mpr fun d hd => by simp [h d (lt_of_mem_diesLeft hd)]
  rw [stageAfter, hnone]
  rfl

theorem diesGoing_of_halt {s : State} (h : ∀ d, d < 8 → dieHalted s d = true) (l : Load) : diesGoing l s = [] :=
  List.filter_eq_nil_iff.mpr fun d hd => by simp [h d (lt_of_mem_diesLeft hd)]

theorem not_mem_diesGoing {s : State} {i : Nat} (h : dieHalted s i = true) (l : Load) : i ∉ diesGoing l s := by
  simp [diesGoing, h]

/-- Marking dies leaves the mark of every other die. -/
theorem getLsbD_foldl_marks {i : Nat} {l : List Nat} (h : i ∉ l) (m : BitVec 8) :
    (l.foldl (fun m d => m ||| BitVec.ofNat 8 (2 ^ d)) m).getLsbD i = m.getLsbD i := by
  induction l generalizing m with
  | nil => rfl
  | cons d r ih =>
    obtain ⟨hd, hr⟩ := not_or.mp (List.mem_cons.not.mp h)
    rw [List.foldl_cons, ih hr, BitVec.getLsbD_or, BitVec.getLsbD_ofNat, Nat.testBit_two_pow, decide_eq_false (Ne.symm hd),
      Bool.and_false, Bool.or_false]

/-- One die applies a load, and its remaps add to those before. -/
def applyNext (l : Load) (a : State × Nat) (d : Nat) : State × Nat :=
  let x := applyDie (imgOf l.image) l.digest d a.1
  (x.1, a.2 + x.2)

theorem foldl_applyNext_keepsLoads (l : Load) (ds : List Nat) (a : State × Nat) :
    KeepsLoads a.1 (ds.foldl (applyNext l) a).1 := by
  induction ds generalizing a with
  | nil => exact KeepsLoads.refl a.1
  | cons d r ih => exact (applyDie_keepsLoads ..).trans (ih (applyNext l a d))

/-- The dies apply the load one after another, and the load under way takes note of it. -/
theorem applyDies_applies {s : State} {l : Load} {rest : List Load} (h : s.fb.loads = l :: rest) :
    ∃ u k, KeepsLoads s u ∧ (diesGoing l s = [] → u = s) ∧ applyDies l s =
      setLoads u ({ l with stage := stageAfter l s, remaps := k, applied := diesDone l s } :: rest) := by
  have hkeep := foldl_applyNext_keepsLoads l (diesGoing l s) (s, l.remaps)
  refine ⟨_, _, hkeep, fun hnone => ?_, modHead_of_loads (hkeep.loads.trans h) _⟩
  rw [hnone]
  rfl

/-! ### The commit point (R229, R235) -/

theorem fixJob_fixes (im : List Byte) (s : State) :
    ∃ j d, fixJob im s = { s with fb := { s.fb with job := j, jobSeed := d } } := by
  unfold fixJob
  split
  · exact ⟨s.fb.job, s.fb.jobSeed, rfl⟩
  · exact ⟨_, _, rfl⟩

/-- Committing a load marks its long operation, starts the marks of the clusters anew and fixes the job, and nothing else. -/
theorem commitLoad_commits (l : Load) (s : State) : ∃ m j d, commitLoad l s =
    { modLong s l.handle (fun o => { o with pastCommit := true }) with
      fb := { s.fb with clusterMap := m, job := j, jobSeed := d } } := by
  obtain ⟨j, d, h⟩ := fixJob_fixes l.image (clearMoved (modLong s l.handle fun o => { o with pastCommit := true }))
  exact ⟨_, j, d, h⟩

/-- The long operation of a load that is committed stands past its commit point. -/
theorem pastCommit_modLong (s : State) (n : Nat) :
    ∀ e ∈ (modLong s n fun o => { o with pastCommit := true }).cp.longops, e.2.handle = n → e.2.pastCommit = true := by
  intro e he hh
  obtain ⟨e0, -, rfl⟩ := List.mem_map.mp he
  split
  · rfl
  · next hne =>
    rw [if_neg hne] at hh
    exact absurd hh (by simpa using hne)

theorem dieHalted_commitLoad (l : Load) (s : State) (die : Nat) : dieHalted (commitLoad l s) die = dieHalted s die := by
  obtain ⟨m, j, d, h⟩ := commitLoad_commits l s
  rw [h]
  rfl

/-! ### What APPLY leaves -/

/-- A load has been applied as far as the halts allow: it is marked, and the regions and the count of loads stand. -/
structure AppliesLoad (l : Load) (rest : List Load) (s t : State) : Prop where
  head : ∃ k d x, (t.fb.loads = { l with stage := x, remaps := k, applied := d } :: rest ∧ t.fb.regions = s.fb.regions ∧
      t.fb.loadCount = s.fb.loadCount) ∧ (x = .apply ∨ x = .report) ∧
    ((∀ d, d < 8 → dieHalted s d = false) → x = .report) ∧
    ∀ i, i < 8 → dieHalted s i = true → d.getLsbD i = l.applied.getLsbD i
  held : (∀ d, d < 8 → dieHalted s d = true) → t.cells = s.cells ∧ t.cores = s.cores

section Apply

variable {s : State} {l : Load} {rest : List Load} (h : s.fb.loads = l :: rest)

include h

theorem applyDies_cp : (applyDies l s).cp = s.cp := by
  obtain ⟨u, k, hkeep, -, ht⟩ := applyDies_applies h
  rw [ht]
  exact hkeep.cp

theorem applyDies_appliesLoad : AppliesLoad l rest s (applyDies l s) := by
  obtain ⟨u, k, hkeep, hnone, ht⟩ := applyDies_applies h
  rw [ht]
  refine ⟨⟨k, diesDone l s, stageAfter l s, ⟨rfl, hkeep.regions, hkeep.count⟩, stageAfter_cases l s,
    fun hrun => stageAfter_of_no_halt hrun l, fun i _ hi => getLsbD_foldl_marks (not_mem_diesGoing hi l) l.applied⟩, ?_⟩
  intro hall
  rw [hnone (diesGoing_of_halt hall l)]
  exact ⟨rfl, rfl⟩

/-- At its commit point a load is applied just so, and its long operation can no longer be cancelled. -/
theorem applyDies_commitLoad_appliesLoad : AppliesLoad l rest s (applyDies l (commitLoad l s)) ∧
    ∀ e ∈ (applyDies l (commitLoad l s)).cp.longops, e.2.handle = l.handle → e.2.pastCommit = true := by
  obtain ⟨m, j, d, hc⟩ := commitLoad_commits l s
  have hloads : (commitLoad l s).fb.loads = l :: rest := by rw [hc]; exact h
  obtain ⟨hhead, hheld⟩ := applyDies_appliesLoad hloads
  have hcp := applyDies_cp hloads
  simp only [dieHalted_commitLoad] at hhead hheld
  rw [hcp]
  generalize applyDies l (commitLoad l s) = t at hhead hheld
  rw [hc] at hhead hheld ⊢
  exact ⟨⟨hhead, hheld⟩, pastCommit_modLong s l.handle⟩

end Apply

end Sys2Proof.Machine
end

section
/-!
PROOF. REPORT (R228, R230, R237, R239): what it writes stands while the next load, the switches and the runs that waited go on.
-/

namespace Sys2Proof.Machine

open Sys2Proof

/-! ### What the rest of REPORT leaves -/

/-- The regions, what is told of the last load, the loads that are left and the messages sent upward stand. -/
structure KeepsReport (s t : State) : Prop where
  regions : t.fb.regions = s.fb.regions
  count : t.fb.loadCount = s.fb.loadCount
  check : t.fb.lastCheck = s.fb.lastCheck
  handle : t.fb.lastHandle = s.fb.lastHandle
  fault : t.fb.loadFault = s.fb.loadFault
  loads : t.fb.loads.map (·.handle) = s.fb.loads.map (·.handle)
  up : sentUp t = sentUp s

theorem KeepsReport.refl (s : State) : KeepsReport s s := ⟨rfl, rfl, rfl, rfl, rfl, rfl, rfl⟩

theorem KeepsReport.trans {s t u : State} (h : KeepsReport s t) (g : KeepsReport t u) : KeepsReport s u :=
  ⟨g.regions.trans h.regions, g.count.trans h.count, g.check.trans h.check, g.handle.trans h.handle, g.fault.trans h.fault,
    g.loads.trans h.loads, g.up.trans h.up⟩

theorem keepsReport_ite {s t u : State} {c : Prop} [Decidable c] (ht : KeepsReport s t) (hu : KeepsReport s u) :
    KeepsReport s (if c then t else u) := by
  split
  · exact ht
  · exact hu

theorem foldl_keepsReport {α : Type} {f : State → α → State} (hf : ∀ s a, KeepsReport s (f s a)) (l : List α) (s : State) :
    KeepsReport s (l.foldl f s) := by
  induction l generalizing s with
  | nil => exact KeepsReport.refl s
  | cons a r ih => exact (hf s a).trans (ih (f s a))

theorem OnlyBb.keepsReport {s t : State} (h : OnlyBb s t) : KeepsReport s t := by
  rw [h]
  exact ⟨rfl, rfl, rfl, rfl, rfl, rfl, rfl⟩

theorem complete_keepsReport (h st fl : Nat) (l : List W64) (s : State) : KeepsReport s (complete h st fl l s) := by
  rw [complete_onlyCp]
  exact ⟨rfl, rfl, rfl, rfl, rfl, rfl, rfl⟩

theorem sentUp_postDown (s : State) (k : Nat) (p : Payload) : sentUp (postDown s k p) = sentUp s := by
  unfold postDown sentUp
  dsimp only
  split <;> rfl

theorem postDown_keepsReport (s : State) (k : Nat) (p : Payload) : KeepsReport s (postDown s k p) :=
  ⟨rfl, rfl, rfl, rfl, rfl, rfl, sentUp_postDown s k p⟩

/-! ### What waited for the load (R230, R237, R419) -/

theorem openRun_keepsReport (region : Nat) (r : Run) (s : State) : KeepsReport s (openRun region r s) :=
  KeepsReport.trans (t := setRun s region r) ⟨rfl, rfl, rfl, rfl, rfl, rfl, rfl⟩ (postDown_keepsReport ..)

theorem startWaits_keepsReport (region : Nat) : ∀ (fuel : Nat) (s : State), KeepsReport s (startWaits region fuel s)
  | 0, s => KeepsReport.refl s
  | fuel + 1, s => by
    unfold startWaits
    refine keepsReport_ite (KeepsReport.refl s) ?_
    split
    · exact KeepsReport.refl s
    · extract_lets fb s1
      have hs1 : KeepsReport s s1 := ⟨rfl, rfl, rfl, rfl, rfl, rfl, rfl⟩
      split
      · exact keepsReport_ite (hs1.trans (openRun_keepsReport ..))
          ((hs1.trans (complete_keepsReport ..)).trans (startWaits_keepsReport region fuel _))
      · exact hs1

theorem requestSwitch_keepsReport (region slot handle : Nat) (s : State) : KeepsReport s (requestSwitch region slot handle s) := by
  unfold requestSwitch switchNow
  refine keepsReport_ite ⟨rfl, rfl, rfl, rfl, rfl, rfl, rfl⟩ ?_
  split
  · exact complete_keepsReport ..
  · exact keepsReport_ite (complete_keepsReport ..) (keepsReport_ite (complete_keepsReport ..) (postDown_keepsReport ..))

theorem afterLoad_keepsReport (s : State) : KeepsReport s (afterLoad s) := by
  unfold afterLoad
  extract_lets ws fb s1
  have hs0 : KeepsReport s { s with fb := { s.fb with switchWaits := [] } } := ⟨rfl, rfl, rfl, rfl, rfl, rfl, rfl⟩
  have hs1 : KeepsReport { s with fb := { s.fb with switchWaits := [] } } s1 :=
    foldl_keepsReport (fun _ _ => requestSwitch_keepsReport ..) ws _
  exact (hs0.trans hs1).trans (foldl_keepsReport (fun st r => startWaits_keepsReport r _ st) _ s1)

theorem sendLoad_keepsReport (s : State) : KeepsReport s (sendLoad s) := by
  unfold sendLoad
  split
  · exact KeepsReport.refl s
  · refine keepsReport_ite (KeepsReport.refl s) (KeepsReport.trans ?_ (postDown_keepsReport ..))
    unfold modHead
    split
    · exact KeepsReport.refl s
    · next l r hl => exact ⟨rfl, rfl, rfl, rfl, rfl, by simp [setLoads, hl], rfl⟩

/-! ### The end of a load -/

/-- The load under way has left with an outcome of LAST_CHECK (Table 7.22). -/
def loadClosed (l : Load) (rest : List Load) (outcome : Nat) (s : State) : State :=
  { s with fb := { s.fb with lastCheck := outcome, lastHandle := l.handle, loads := rest } }

theorem closeLoad_keepsReport {s : State} {l : Load} {rest : List Load} (h : s.fb.loads = l :: rest) (outcome : Nat) :
    KeepsReport (loadClosed l rest outcome s) (closeLoad l outcome s) := by
  have hleft : lremove (fun x => x.handle == l.handle) s.fb.loads = rest := by simp [h, lremove]
  unfold closeLoad
  rw [hleft]
  exact (noteLoad_onlyBb ..).keepsReport.trans (sendLoad_keepsReport _)

/-- A load that is reported leaves the queue, and its command is answered last of all that has been sent upward. -/
theorem closed_and_answered {s t : State} {l : Load} {rest : List Load} {outcome st : Nat} {res : List W64}
    (ht : t = afterLoad (postCompletion l.handle st 0 res (closeLoad l outcome s))) (h : s.fb.loads = l :: rest) :
    t.fb.regions = s.fb.regions ∧ t.fb.loadCount = s.fb.loadCount ∧ t.fb.lastCheck = outcome ∧ t.fb.lastHandle = l.handle ∧
      t.fb.loadFault = s.fb.loadFault ∧ t.fb.loads.map (·.handle) = rest.map (·.handle) ∧
      sentUp t = sentUp s ++ [.completion l.handle st 0 res] := by
  have hclose := closeLoad_keepsReport h outcome
  have hafter := afterLoad_keepsReport (postCompletion l.handle st 0 res (closeLoad l outcome s))
  rw [← ht] at hafter
  refine ⟨hafter.regions.trans hclose.regions, hafter.count.trans hclose.count, hafter.check.trans hclose.check,
    hafter.handle.trans hclose.handle, hafter.fault.trans hclose.fault, hafter.loads.trans hclose.loads, ?_⟩
  rw [hafter.up, postCompletion, sentUp_postUp, hclose.up]
  rfl

theorem reportGood_eq (l : Load) (s : State) : reportGood l s = afterLoad (postCompletion l.handle 0 0 [] (closeLoad l 0
    { s with fb := { s.fb with regions := regionsAfter l s, loadCount := s.fb.loadCount + 1, powerDie := (powerSums s).1,
                               powerModule := (powerSums s).2 } })) := rfl

theorem reportBad_eq (l : Load) (s : State) : reportBad l s = afterLoad (postCompletion l.handle (0x0100 + l.check) 0
    [loadFaultWord l] (closeLoad l l.check { s with fb := { s.fb with loadFault := loadFaultWord l } })) := rfl

section Reports

variable {s t : State} {l : Load} {rest : List Load} (h : s.fb.loads = l :: rest)

include h

/-- REPORT of a committed load (R239): whatever regions and power it leaves, they stand, and one more load counts. -/
theorem committed_reports {regions : List (Nat × Region)} {power : Tbl Nat × Nat}
    (ht : t = afterLoad (postCompletion l.handle 0 0 [] (closeLoad l 0 { s with fb := { s.fb with
      regions := regions, loadCount := s.fb.loadCount + 1, powerDie := power.1, powerModule := power.2 } }))) :
    t.fb.regions = regions ∧ t.fb.loadCount = s.fb.loadCount + 1 ∧ t.fb.lastCheck = 0 ∧ t.fb.lastHandle = l.handle ∧
      t.fb.loads.map (·.handle) = rest.map (·.handle) ∧ sentUp t = sentUp s ++ [.completion l.handle 0 0 []] := by
  obtain ⟨hregions, hcount, hcheck, hhandle, -, hloads, hup⟩ := closed_and_answered ht h
  exact ⟨hregions, hcount, hcheck, hhandle, hloads, hup⟩

/-- REPORT of a rejected load (R233, Table 7.22): its fault word stands, and nothing else of the configuration changes. -/
theorem rejected_reports {fault : W64}
    (ht : t = afterLoad (postCompletion l.handle (0x0100 + l.check) 0 [fault]
      (closeLoad l l.check { s with fb := { s.fb with loadFault := fault } }))) :
    t.fb.regions = s.fb.regions ∧ t.fb.loadCount = s.fb.loadCount ∧ t.fb.lastCheck = l.check ∧ t.fb.lastHandle = l.handle ∧
      t.fb.loadFault = fault ∧ t.fb.loads.map (·.handle) = rest.map (·.handle) ∧
      sentUp t = sentUp s ++ [.completion l.handle (0x0100 + l.check) 0 [fault]] :=
  closed_and_answered ht h

end Reports

/-- Settles O49: each stage leaves the load to the next one, which alone takes it up. -/
theorem loadStagesFollowOneAnother : Obligations.LoadStagesFollowOneAnother := by
  unfold Obligations.LoadStagesFollowOneAnother
  intro s l rest h
  dsimp only
  refine ⟨fun ha hd hr => ?fetch, fun hn => ?fetchIdle, fun hv hr => ?verify, fun hn => ?verifyIdle, fun hgo => ?apply,
    fun hn => ?applyIdle, fun hs hc _ => ?good, fun hs hc hr _ => ?bad, fun hn => ?reportIdle⟩
  case fetch =>
    refine ⟨_, (exec_fetch h).trans (congrArg _ (if_pos ⟨ha, hd, hr⟩)), ⟨rfl, ?_, ?_⟩, noteReads_bytes ..,
      fetchImage_of_sound⟩ <;>
    · rw [noteReads_onlyMem]
      rfl
  case fetchIdle =>
    rw [exec_fetch h, if_neg]
    rintro ⟨ha, hd, -⟩
    exact hn.elim (absurd ha) (absurd hd)
  case verify => exact ⟨_, (exec_verify h).trans (congrArg _ (if_pos ⟨hv, hr⟩)), rfl, rfl, rfl⟩
  case verifyIdle => rw [exec_verify h, if_neg fun hv => hn hv.1]
  case apply =>
    rcases hgo with ⟨hs, hr, hb⟩ | hs
    · have hexec : exec .apply s = .next (applyDies l (commitLoad l s)) := by
        rw [exec_apply h, if_neg (by simp [hs]), if_pos ⟨hs, hr, hb⟩]
      obtain ⟨⟨hhead, hheld⟩, hcommit⟩ := applyDies_commitLoad_appliesLoad h
      exact ⟨_, hexec, hhead, hheld, fun _ => hcommit⟩
    · obtain ⟨hhead, hheld⟩ := applyDies_appliesLoad h
      exact ⟨_, (exec_apply h).trans (congrArg _ (if_pos hs)), hhead, hheld, fun hhold => by simp [hs] at hhold⟩
  case applyIdle =>
    rw [exec_apply h]
    rcases hn with ⟨hhold, hap⟩ | ⟨hhold, hwait⟩
    · rw [if_neg hap, if_neg fun hgo => hhold hgo.1]
    · rw [if_neg (by simp [hhold]), if_neg]
      rintro ⟨-, hr, hb⟩
      exact hwait.elim (absurd hr) fun hblocked => by simp [hb] at hblocked
  case good =>
    have hexec : exec .report s = .next (reportGood l s) := by rw [exec_report h, if_pos ⟨hs, .inl hc⟩, if_pos hc]
    exact ⟨_, hexec, committed_reports h (reportGood_eq l s)⟩
  case bad =>
    have hexec : exec .report s = .next (reportBad l s) := by rw [exec_report h, if_pos ⟨hs, .inr hr⟩, if_neg hc]
    exact ⟨_, hexec, rejected_reports h (reportBad_eq l s)⟩
  case reportIdle => rw [exec_report h, if_neg fun hs => hn hs.1]

end Sys2Proof.Machine
end

section
/-!
PROOF. The form that every step keeps, part by part (R262, R293, R410, R413), and what keeps it whatever the command: a choice,
a fold, an update outside its blocks, the writing of a port, of a port's bank and of a byte.
-/

namespace Sys2Proof.Machine

set_option Elab.async false
open Sys2Proof

/-- An enabled completion ring has no more records unread than it has room for (R410, R411). -/
def PortCp.RingOk (c : PortCp) : Prop := c.cqEntries.getLsbD 31 = true → (c.cqTail - c.cqHead).toNat ≤ cqSize c

/-- Ten ports of twenty lanes (R293, R295). -/
structure PortsWhole (l : List Port) : Prop where
  ten : l.length = 10
  lanes : ∀ v ∈ l, v.lanes.length = 20

theorem PortsWhole.map {l : List Port} {f : Port → Port} (h : PortsWhole l)
    (hf : ∀ v : Port, (f v).lanes.length = v.lanes.length := by intro v; rfl) : PortsWhole (l.map f) := by
  refine ⟨(List.length_map _).trans h.ten, fun v hv => ?_⟩
  obtain ⟨u, hu, rfl⟩ := List.mem_map.1 hv
  exact (hf u).trans (h.lanes u hu)

/-- The form that every step keeps, part by part. -/
structure Formed (s : State) : Prop where
  bytes : Memory.wf s.mem.bytes = true
  ports : PortsWhole s.lk.ports
  holder : s.cp.holder ≤ 2
  ringA : s.cp.a.RingOk
  ringB : s.cp.b.RingOk

variable {s t : State}

theorem formed_iff_inForm : Formed s ↔ InForm s := by
  constructor
  · rintro ⟨hb, ⟨ht, hl⟩, hh, ha, hr⟩
    refine ⟨hb, ⟨ht, hl⟩, hh, fun port => ?_⟩
    unfold getCp
    split
    · exact ha
    · exact hr
  · rintro ⟨hb, ⟨ht, hl⟩, hh, hr⟩
    exact ⟨hb, ⟨ht, hl⟩, hh, hr 0, hr 1⟩

namespace Formed

theorem ite {p : Prop} [Decidable p] (hs : Formed s) (ht : Formed t) : Formed (if p then s else t) := by
  split <;> assumption

theorem foldl {α : Type} {f : State → α → State} {l : List α} (h : Formed s)
    (hf : ∀ t x, Formed t → Formed (f t x)) : Formed (l.foldl f s) := by
  induction l generalizing s with
  | nil => exact h
  | cons x r ih => exact ih (hf _ _ h)

/-- A fold that carries a state beside a result. -/
theorem foldlSnd {α β : Type} {f : β × State → α → β × State} {a : β × State} {l : List α} (h : Formed a.2)
    (hf : ∀ a x, Formed a.2 → Formed (f a x).2) : Formed (l.foldl f a).2 := by
  induction l generalizing a with
  | nil => exact h
  | cons x r ih => exact ih (hf _ _ h)

theorem foldlFst {α β : Type} {f : State × β → α → State × β} {a : State × β} {l : List α} (h : Formed a.1)
    (hf : ∀ a x, Formed a.1 → Formed (f a x).1) : Formed (l.foldl f a).1 := by
  induction l generalizing a with
  | nil => exact h
  | cons x r ih => exact ih (hf _ _ h)

/-- What the form speaks of lies in three blocks of the state alone. -/
theorem elsewhere (h : Formed s) {pending freeCtr cells cores fb ws cl ue tw pw sf sc db bb mg rst env} :
    Formed ⟨pending, freeCtr, cells, cores, s.mem, fb, ws, s.cp, s.lk, cl, ue, tw, pw, sf, sc, db, bb, mg, rst, env⟩ :=
  ⟨h.bytes, h.ports, h.holder, h.ringA, h.ringB⟩

/-- Of memory, its bytes alone. -/
theorem memElse (h : Formed s) {pending freeCtr cells cores fb ws cl ue tw pw sf sc db bb mg rst env poison stale scrubbed ready
    initRunning retainedValid gen bar4Base patrol retireCtrl errLog counts hostFault subch pinLog retires patrolPtr selfRefresh
    heldWrites moved moveTurn corrected copies} :
    Formed ⟨pending, freeCtr, cells, cores,
      ⟨s.mem.bytes, poison, stale, scrubbed, ready, initRunning, retainedValid, gen, bar4Base, patrol, retireCtrl, errLog,
        counts, hostFault, subch, pinLog, retires, patrolPtr, selfRefresh, heldWrites, moved, moveTurn, corrected, copies⟩,
      fb, ws, s.cp, s.lk, cl, ue, tw, pw, sf, sc, db, bb, mg, rst, env⟩ :=
  ⟨h.bytes, h.ports, h.holder, h.ringA, h.ringB⟩

/-- Of the links, the ports alone. -/
theorem lkElse (h : Formed s) {pending freeCtr cells cores fb ws cl ue tw pw sf sc db bb mg rst env rank torus epoch prevEpoch
    prevLive bank0 bank1 e2e peerErrLog destSel drops fences peers rxq crossing engq epochWaiter} :
    Formed ⟨pending, freeCtr, cells, cores, s.mem, fb, ws, s.cp,
      ⟨s.lk.ports, rank, torus, epoch, prevEpoch, prevLive, bank0, bank1, e2e, peerErrLog, destSel, drops, fences, peers, rxq,
        crossing, engq, epochWaiter⟩, cl, ue, tw, pw, sf, sc, db, bb, mg, rst, env⟩ :=
  ⟨h.bytes, h.ports, h.holder, h.ringA, h.ringB⟩

theorem mapPorts (h : Formed s) {pending freeCtr cells cores fb ws cl ue tw pw sf sc db bb mg rst env rank torus epoch prevEpoch
    prevLive bank0 bank1 e2e peerErrLog destSel drops fences peers rxq crossing engq epochWaiter} {f : Port → Port}
    (hf : ∀ v : Port, (f v).lanes.length = v.lanes.length := by intro v; rfl) :
    Formed ⟨pending, freeCtr, cells, cores, s.mem, fb, ws, s.cp,
      ⟨s.lk.ports.map f, rank, torus, epoch, prevEpoch, prevLive, bank0, bank1, e2e, peerErrLog, destSel, drops, fences,
        peers, rxq, crossing, engq, epochWaiter⟩, cl, ue, tw, pw, sf, sc, db, bb, mg, rst, env⟩ :=
  ⟨h.bytes, h.ports.map hf, h.holder, h.ringA, h.ringB⟩

/-- Of the command processor, the ports' banks and the holder of the token. -/
theorem cpElse (h : Formed s) {pending freeCtr cells cores fb ws cl ue tw pw sf sc db bb mg rst env cause stewardCfg leaseLeft
    claims longops remembered plain accepting resetDue} :
    Formed ⟨pending, freeCtr, cells, cores, s.mem, fb, ws,
      ⟨s.cp.a, s.cp.b, s.cp.holder, cause, stewardCfg, leaseLeft, claims, longops, remembered, plain, accepting, resetDue⟩,
      s.lk, cl, ue, tw, pw, sf, sc, db, bb, mg, rst, env⟩ :=
  ⟨h.bytes, h.ports, h.holder, h.ringA, h.ringB⟩

theorem ring (h : Formed s) (p : Nat) : (getCp s p).RingOk := by
  unfold getCp
  split
  · exact h.ringA
  · exact h.ringB

theorem lanes (h : Formed s) (p : Nat) : (getPort s p).lanes.length = 20 := by
  unfold getPort lget
  cases hp : s.lk.ports[p]? with
  | none => rfl
  | some v => exact h.ports.lanes v (List.mem_of_getElem? hp)

theorem whenTaken {c : Bool} {f : State → State} (h : Formed s) (hf : Formed (f s)) : Formed (whenTaken c f s) := by
  cases c
  · exact h
  · exact hf

/-! ### Registers of the ports -/

theorem setCp {p : Nat} {v : PortCp} (h : Formed s) (hv : (getCp s p).RingOk → v.RingOk := by exact id) :
    Formed (setCp s p v) := by
  have hr := hv (h.ring p)
  unfold Machine.setCp
  split
  · exact ⟨h.bytes, h.ports, h.holder, hr, h.ringB⟩
  · exact ⟨h.bytes, h.ports, h.holder, h.ringA, hr⟩

theorem modCp {p : Nat} {f : PortCp → PortCp} (h : Formed s)
    (hf : ∀ c : PortCp, c.RingOk → (f c).RingOk := by exact fun _ => id) : Formed (modCp s p f) :=
  h.setCp (hf _)

theorem setPort {p : Nat} {v : Port} (h : Formed s) (hv : v.lanes.length = (getPort s p).lanes.length := by rfl) :
    Formed (setPort s p v) := by
  refine ⟨h.bytes, ⟨List.length_set.trans h.ports.ten, fun w hw => ?_⟩, h.holder, h.ringA, h.ringB⟩
  rcases List.mem_or_eq_of_mem_set hw with hm | rfl
  · exact h.ports.lanes w hm
  · exact hv.trans (h.lanes p)

theorem modPort {p : Nat} {f : Port → Port} (h : Formed s)
    (hf : ∀ v : Port, (f v).lanes.length = v.lanes.length := by intro v; rfl) :
    Formed (modPort s p f) := h.setPort (hf _)

theorem writeByte {a : Nat} {b : Byte} (h : Formed s) : Formed (writeByte s a b) :=
  ⟨twf_tput h.bytes, h.ports, h.holder, h.ringA, h.ringB⟩

theorem writeBytes {l : List Byte} {a : Nat} (h : Formed s) : Formed (writeBytes s a l) := by
  induction l generalizing s a with
  | nil => exact h
  | cons b r ih => exact ih h.writeByte

end Formed

/-- What a command answers, if anything, is in the form. -/
def OutFormed (o : Out) : Prop := ∀ t, o = .next t → Formed t

theorem OutFormed.next (h : Formed s) : OutFormed (.next s) := by
  intro t ht
  cases ht
  exact h

theorem OutFormed.guardUnit {ok : Bool} (h : Formed s) : OutFormed (guardUnit ok s) := by
  intro t ht
  rw [(guardUnit_next.1 ht).2]
  exact h

/-- A result of the sequencer that carries a state carries one in the form. -/
def ResFormed : SeqRes → Prop
  | .whole t => Formed t
  | .stay t => Formed t
  | _ => True

namespace ResFormed

theorem next {c : Core} : ResFormed (.next c) := trivial
theorem jump {c : Core} {pc : W64} : ResFormed (.jump c pc) := trivial
theorem trap {n : Nat} : ResFormed (.trap n) := trivial
theorem stall : ResFormed .stall := trivial
theorem whole (h : Formed s) : ResFormed (.whole s) := h
theorem stay (h : Formed s) : ResFormed (.stay s) := h

theorem ite {p : Prop} [Decidable p] {a b : SeqRes} (ha : ResFormed a) (hb : ResFormed b) :
    ResFormed (if p then a else b) := by
  split <;> assumption

theorem withAccess {a : Access} {f : SeqMem → Nat → SeqRes} (hf : ∀ m off, ResFormed (f m off)) :
    ResFormed (withAccess a f) := by
  cases a
  · exact hf _ _
  · exact trap
  · exact stall

end ResFormed

end Sys2Proof.Machine
end

section
/-!
PROOF. The shared operations keep the form: registers, memory, waystation queues, completions, the black box, phases, programs
and what waits for a phase.
-/

namespace Sys2Proof.Machine

set_option Elab.async false

open Sys2Proof

variable {s t : State}

/-! ### The shared operations -/

theorem Formed.setCell (h : Formed s) {i : Nat} {c : Cell} : Formed (setCell s i c) := h.elsewhere

theorem Formed.setCore (h : Formed s) {i : Nat} {c : Core} : Formed (setCore s i c) := h.elsewhere

theorem Formed.modCore (h : Formed s) {i : Nat} {f : Core → Core} : Formed (modCore s i f) := h.setCore

theorem Formed.modCell (h : Formed s) {i : Nat} {f : Cell → Cell} : Formed (modCell s i f) := h.setCell

theorem Formed.countCpFault (h : Formed s) {port k : Nat} : Formed (countCpFault s port k) := h.modCp

theorem Formed.drawFree (h : Formed s) : Formed (drawFree s).2 := h.elsewhere

theorem Formed.setSectorPoison (h : Formed s) {a : Nat} {v : Bool} : Formed (setSectorPoison s a v) := h.memElse

theorem Formed.putTag (h : Formed s) {a t0 : Nat} : Formed (putTag s a t0) := h.memElse

theorem Formed.countMem (h : Formed s) {stack k n : Nat} : Formed (countMem s stack k n) := h.memElse

theorem Formed.retag (h : Formed s) {a : Nat} : Formed (retag s a) := h.putTag

theorem Formed.logMemError (h : Formed s) {a kind : Nat} : Formed (logMemError s a kind) := .ite h h.memElse

theorem Formed.countLine (h : Formed s) {a : Nat} : Formed (countLine s a) := .ite h.memElse h

theorem Formed.noteRead (h : Formed s) {a : Nat} : Formed (noteRead s a) :=
  .ite h.countLine.countMem.logMemError (.ite h.countLine.countMem.logMemError h.countLine)

theorem Formed.writeSector (h : Formed s) {a : Nat} {bs : List Byte} {poison : Bool} :
    Formed (writeSector s a bs poison) := by
  unfold Machine.writeSector
  refine .ite h.countMem (.ite h ?_)
  extract_lets _ _ _ s0 s1 _ s2
  have hs0 : Formed s0 := .ite h h.noteRead
  have hs1 : Formed s1 := .ite hs0 hs0.writeBytes
  have hs2 : Formed s2 := hs1.writeBytes.setSectorPoison
  exact .ite hs2.retag.countLine hs2

theorem Formed.noteReads (h : Formed s) {a n : Nat} : Formed (noteReads s a n) := h.foldl fun _ _ ht => ht.noteRead

theorem Formed.writeMem (h : Formed s) {a : Nat} {bs : List Byte} : Formed (writeMem s a bs) :=
  h.foldl fun _ _ ht => ht.writeSector

theorem Formed.writePieces (h : Formed s) {a : Nat} {bs : List Byte} {poison : Bool} : Formed (writePieces s a bs poison) :=
  h.foldl fun _ _ ht => ht.writeSector

theorem Formed.writeJob (h : Formed s) {a : Nat} {bs : List Byte} : Formed (writeJob s a bs) :=
  h.foldl fun _ _ ht => .ite ht ht.writeSector

theorem Formed.countHostFault (h : Formed s) : Formed (countHostFault s) := h.memElse

theorem Formed.hostWrite (h : Formed s) {port a : Nat} {bs : List Byte} : Formed (hostWrite s port a bs) := h.elsewhere

theorem Formed.bumpSeq (h : Formed s) {q : Nat} : Formed (bumpSeq s q) := h.elsewhere

theorem Formed.enterDown (h : Formed s) {kind : Nat} {p : Payload} : Formed (enterDown s kind p) := h.elsewhere.bumpSeq

theorem Formed.postDown (h : Formed s) {kind : Nat} {p : Payload} : Formed (postDown s kind p) := h.elsewhere

theorem Formed.popDown (h : Formed s) : Formed (popDown s) := by
  unfold Machine.popDown
  extract_lets _ s1
  have hs1 : Formed s1 := h.elsewhere
  split
  · exact hs1
  · exact hs1.elsewhere.enterDown

theorem Formed.enterUp (h : Formed s) {kind source : Nat} {p : Payload} : Formed (enterUp s kind source p) :=
  h.elsewhere.bumpSeq

theorem Formed.postUp (h : Formed s) {kind source : Nat} {p : Payload} : Formed (postUp s kind source p) := h.elsewhere

theorem Formed.popUp (h : Formed s) : Formed (popUp s) := by
  unfold Machine.popUp
  extract_lets _ s1
  have hs1 : Formed s1 := h.elsewhere
  split
  · exact hs1
  · exact hs1.elsewhere.enterUp

theorem Formed.enterTele (h : Formed s) {kind source coalesced : Nat} {p : Payload} :
    Formed (enterTele s kind source coalesced p) :=
  h.elsewhere.bumpSeq

theorem Formed.postTele (h : Formed s) {kind source : Nat} {p : Payload} : Formed (postTele s kind source p) :=
  .ite (.ite h.enterTele h.elsewhere) (.ite h.elsewhere h.enterTele)

theorem Formed.refillTele (h : Formed s) {plain : Bool} : Formed (refillTele plain s) := by
  unfold Machine.refillTele
  refine .ite ?_ ?_
  · split
    · exact h
    · exact h.elsewhere.enterTele
  · split
    · exact h
    · exact h.elsewhere.enterTele

theorem Formed.popTele (h : Formed s) : Formed (popTele s) := by
  unfold Machine.popTele
  split
  · exact h
  · exact h.elsewhere.refillTele

theorem Formed.traceRec (h : Formed s) {kind arg : Nat} : Formed (traceRec kind arg s) := .ite h.elsewhere h

theorem Formed.enterInter (h : Formed s) {kind n : Nat} {p : Payload} : Formed (enterInter s kind n p) :=
  .ite h.elsewhere.bumpSeq h.elsewhere.bumpSeq.traceRec.elsewhere

theorem Formed.postOrder (h : Formed s) {kind : Nat} {p : Payload} : Formed (postOrder s kind p) :=
  .ite h.enterInter h.elsewhere

theorem Formed.popInter (h : Formed s) : Formed (popInter s) := by
  unfold Machine.popInter
  extract_lets _ s1
  have hs1 : Formed s1 := h.elsewhere
  split
  · exact hs1
  · exact hs1.elsewhere.enterInter

theorem Formed.countAct (h : Formed s) {stack k n : Nat} : Formed (countAct stack k n s) := h.elsewhere

theorem Formed.complete (h : Formed s) {handle status flags : Nat} {result : List W64} :
    Formed (complete handle status flags result s) := by
  unfold Machine.complete
  extract_lets
  split
  · exact .ite h.setCp h
  · exact h.setCp

theorem Formed.postCompletion (h : Formed s) {handle status flags : Nat} {result : List W64} :
    Formed (postCompletion handle status flags result s) :=
  h.postUp

theorem Formed.eventOn (h : Formed s) {port code : Nat} {result : List W64} : Formed (eventOn port code result s) :=
  .ite h.setCp.countCpFault h.setCp

theorem Formed.postEvent (h : Formed s) {code : Nat} {result : List W64} : Formed (postEvent code result s) :=
  h.eventOn.eventOn.traceRec

theorem Formed.rememberLong (h : Formed s) {handle status : Nat} : Formed (rememberLong handle status s) := h.cpElse

theorem Formed.modLong (h : Formed s) {handle : Nat} {f : LongOp → LongOp} : Formed (modLong s handle f) := h.cpElse

theorem Formed.longDone (h : Formed s) {handle status flags : Nat} {result : List W64} :
    Formed (longDone handle status flags result s) := by
  unfold Machine.longDone
  split
  · exact h.complete
  · extract_lets _ s1 s2 _ s3 s4
    have hs1 : Formed s1 := h.cpElse
    have hs2 : Formed s2 := hs1.rememberLong.complete
    have hs3 : Formed s3 := by
      unfold s3
      split
      · exact hs2.complete
      · exact hs2
    have hs4 : Formed s4 := by
      unfold s4
      split
      · exact hs3.complete
      · exact hs3
    split
    · exact hs4.complete
    · exact hs4

theorem Formed.endCommand (h : Formed s) {handle status flags : Nat} {result : List W64} :
    Formed (endCommand handle status flags result s) := by
  unfold Machine.endCommand
  split
  · exact h.longDone
  · exact h.complete

/-! ### Writing the black box -/

theorem Formed.mramWrite (h : Formed s) : Formed (mramWrite s) := h.elsewhere

theorem Formed.writeSlot (h : Formed s) {seq : Nat} {rec : List Byte} : Formed (writeSlot seq rec s) := h.mramWrite.elsewhere

theorem Formed.writeCtrl (h : Formed s) {c : BbCtrl} : Formed (writeCtrl c s) :=
  .ite h.mramWrite.elsewhere h.mramWrite.elsewhere.elsewhere

theorem Formed.writeMap (h : Formed s) {m : RepairMap} : Formed (writeMap m s) := h.mramWrite.elsewhere

theorem Formed.writeControl (h : Formed s) {seq type cause : Nat} {body : List Byte} :
    Formed (writeControl seq type cause body s) :=
  .ite h.writeCtrl h.writeCtrl.elsewhere

theorem Formed.bbCommit (h : Formed s) {type cause len : Nat} {body : List Byte} : Formed (bbCommit type cause len body s) :=
  .ite h.writeSlot h.writeSlot.writeControl

theorem Formed.bbEvent (h : Formed s) {code : Nat} {body : List Byte} : Formed (bbEvent code body s) :=
  .ite h.elsewhere h.bbCommit

theorem Formed.commitNote (h : Formed s) {note : List Byte} : Formed (commitNote note s) := .ite h.bbEvent h.bbCommit

theorem Formed.noteGo (h : Formed s) {note : List Byte} : Formed (noteGo note s) :=
  .ite h.elsewhere.commitNote (.ite h.elsewhere.elsewhere h.elsewhere.elsewhere)

theorem Formed.noteEvent (h : Formed s) {code : Nat} {body : List Byte} : Formed (noteEvent code body s) := h.noteGo

theorem Formed.noteLoad (h : Formed s) {body : List Byte} : Formed (noteLoad body s) := h.noteGo

theorem Formed.remapPending (h : Formed s) {kind index part : Nat} : Formed (remapPending kind index part s) :=
  h.noteEvent.postEvent

/-! ### Operands -/

theorem Formed.seqWrite (h : Formed s) {core : Nat} {m : SeqMem} {off : Nat} {bs : List Byte} {poison : Bool} :
    Formed (seqWrite s core m off bs poison) := by
  unfold Machine.seqWrite
  split
  · exact h.writeSector
  · exact h.modCore
  · exact h.modCore
  · exact h

/-! ### Frame -/

theorem Formed.cellPhaseStart (h : Formed s) {cell : Nat} :
    Formed (cellPhaseStart s cell) := .ite (.ite h h.setCell) h.setCell

/-! ### Phases and programs -/

theorem Formed.setRun (h : Formed s) {region : Nat} {r : Run} : Formed (setRun s region r) := h.elsewhere

theorem Formed.modRun (h : Formed s) {region : Nat} {f : Run → Run} : Formed (modRun s region f) := h.elsewhere

theorem Formed.dropRun (h : Formed s) {region : Nat} : Formed (dropRun s region) := h.elsewhere

theorem Formed.markPoisoned (h : Formed s) {core : Nat} : Formed (markPoisoned s core) := h.modRun

theorem Formed.coreFault (h : Formed s) {core bit index count : Nat} : Formed (coreFault core bit index count s) :=
  .ite h h.setCore.markPoisoned

theorem Formed.sendTotals (h : Formed s) {r : TwRec} : Formed (sendTotals r s) := h.postTele.postTele

theorem Formed.closeFmt (h : Formed s) {o : OpenRec} {run : Run} {fmt : Nat} : Formed (closeFmt o run fmt s) :=
  h.elsewhere.sendTotals

theorem Formed.closeOpen (h : Formed s) {o : OpenRec} {run : Run} : Formed (closeOpen o run s) :=
  .elsewhere (h.foldl fun _ _ ht => ht.closeFmt)

theorem Formed.closeRegion (h : Formed s) {region : Nat} {run : Run} : Formed (closeRegion region run s) :=
  h.foldl fun _ _ ht => ht.closeOpen

theorem Formed.startPhaseOn (h : Formed s) {core : Nat} {p : CorePhase} : Formed (startPhaseOn core p s) := by
  unfold Machine.startPhaseOn
  exact .modCore (h.foldl fun _ _ ht => ht.cellPhaseStart)

theorem Formed.switchCore (h : Formed s) {core slot : Nat} :
    Formed (switchCore core slot s) := h.foldl fun _ _ ht => ht.modCell

theorem Formed.startProgramOn (h : Formed s) {core region entry : Nat} {run : Run} :
    Formed (startProgramOn core region entry run s) :=
  h.modCore

theorem Formed.openRun (h : Formed s) {region : Nat} {r : Run} : Formed (openRun region r s) := h.setRun.postDown

theorem Formed.startWaits (h : Formed s) {region fuel : Nat} : Formed (startWaits region fuel s) := by
  induction fuel generalizing s with
  | zero => exact h
  | succ fuel ih =>
    unfold Machine.startWaits
    refine .ite h ?_
    split
    · exact h
    · extract_lets _ s1
      have hs1 : Formed s1 := h.elsewhere
      split
      · exact .ite hs1.openRun (ih hs1.complete)
      · exact hs1

theorem Formed.startNextWait (h : Formed s) {region : Nat} : Formed (startNextWait region s) := h.startWaits

theorem Formed.finishRun (h : Formed s) {region : Nat} {r : Run} : Formed (finishRun region r s) := by
  unfold Machine.finishRun
  extract_lets s1 _ s' s2
  have hs1 : Formed s1 := h.dropRun
  have hs' : Formed s' := hs1.modCp
  have hs2 : Formed s2 := by
    unfold s2
    split
    · exact hs1.postCompletion
    · exact .ite hs1.postCompletion hs'.postCompletion
  exact hs2.startNextWait

theorem Formed.finishFaulted (h : Formed s) {region : Nat} : Formed (finishFaulted region s) := by
  unfold Machine.finishFaulted
  split
  · exact .ite h.closeRegion.finishRun h
  · exact h

theorem Formed.endPhaseOn (h : Formed s) {core : Nat} {p : CorePhase} : Formed (endPhaseOn core p s) := by
  unfold Machine.endPhaseOn
  extract_lets s'
  have hs' : Formed s' := h.foldl fun _ _ ht => .ite ht ht.modCell
  split
  · extract_lets s1 s2
    have hs1 : Formed s1 := hs'.modCore
    have hs2 : Formed s2 := .ite hs1.markPoisoned hs1
    split
    · refine .ite hs2.finishFaulted ?_
      split
      · extract_lets _ _ s3 _ s4
        have hs3 : Formed s3 := hs2.elsewhere.setRun
        have hs4 : Formed s4 := .ite hs3.closeOpen hs3
        exact .ite hs4.finishRun hs4.finishFaulted
    · exact hs2

/-! ### Writes that wait for a phase -/

theorem Formed.outerSector (h : Formed s) {a : Nat} {bs : List Byte} {poison : Bool} : Formed (outerSector a bs poison s) :=
  .ite h.memElse h.writeSector

theorem Formed.hostSector (h : Formed s) {handle : Option Nat} {a : Nat} {bs : List Byte} {poison : Bool} :
    Formed (hostSector handle a bs poison s) :=
  .ite h.memElse h.writeSector

theorem Formed.settleCopies (h : Formed s) : Formed (settleCopies s) := h.memElse.foldl fun _ _ ht => ht.complete

theorem Formed.releaseWrites (h : Formed s) : Formed (releaseWrites s) :=
  .settleCopies (h.memElse.foldl fun _ _ ht => ht.writeSector)

end Sys2Proof.Machine
end

section
/-!
PROOF. The memory controllers, repairs, the routing of elements and the loader keep the form.
-/

namespace Sys2Proof.Machine

set_option Elab.async false

open Sys2Proof

variable {s t : State}

/-! ### The memory controllers -/

theorem Formed.setSub (h : Formed s) {stack p : Nat} {w : W32} : Formed (setSub stack p w s) := h.memElse

theorem Formed.saveSubch (h : Formed s) : Formed (saveSubch s) := h.writeMap

theorem Formed.killSub (h : Formed s) {stack p : Nat} : Formed (killSub stack p s) :=
  .noteEvent (.saveSubch (.setSub (h.memElse.foldl fun _ _ ht => ht.setSub)))

theorem Formed.loseCopy (h : Formed s) {stack p : Nat} : Formed (loseCopy stack p s) :=
  .saveSubch (.setSub (h.foldl fun _ _ ht => ht.killSub))

theorem Formed.pinFailed (h : Formed s) {stack p pin : Nat} : Formed (pinFailed stack p pin s) := by
  unfold Machine.pinFailed
  extract_lets _ s1 _ s2
  have hs1 : Formed s1 := h.setSub
  have hs2 : Formed s2 := hs1.memElse.saveSubch
  split
  · exact hs2.remapPending
  · exact h.setSub.saveSubch
  · exact .ite h h.killSub
  · exact .ite h h.killSub
  · exact .ite h (.ite h.loseCopy h.setSub.saveSubch)
  · exact h

theorem Formed.pinsFailed (h : Formed s) {stack p : Nat} : Formed (pinsFailed stack p s) := by
  unfold Machine.pinsFailed
  split
  · exact h.setSub.saveSubch
  · exact h.loseCopy
  · exact h
  · exact h
  · exact h.killSub

theorem Formed.countPins (h : Formed s) {stack p : Nat} {pins : List Nat} : Formed (countPins stack p pins s) := by
  unfold Machine.countPins
  extract_lets _ _ _ _ s1 hit
  have hs1 : Formed s1 := h.memElse
  clear_value hit
  split
  · exact hs1
  · exact hs1.pinFailed
  · exact hs1.pinsFailed

theorem Formed.applySymbols (h : Formed s) {a : Nat} {wrong : List Byte} : Formed (applySymbols a wrong s) :=
  .ite (.ite h.writeBytes.setSectorPoison h.writeBytes) (.putTag (.ite h.writeBytes.setSectorPoison h.writeBytes))

theorem Formed.controllerRead (h : Formed s) {a : Nat} {errs : List (Nat × Byte)} : Formed (controllerRead a errs s) := by
  unfold Machine.controllerRead
  extract_lets s' _ _ _ faulted s1
  have hs' : Formed s' := h.countLine
  have hfaulted : ∀ u, Formed u → Formed (faulted u) := fun _ hu => .ite hu.countMem.logMemError hu
  have hs1 : Formed s1 := hs'.writeBytes.setSectorPoison
  refine .ite hs'.countMem.logMemError ?_
  split
  · exact hs'
  · split
    · exact hs1.countMem.logMemError
    · exact hfaulted _ hs'.applySymbols.countMem.countPins

theorem Formed.execRetirementStart (h : Formed s) {stack : Nat} : OutFormed (execRetirementStart stack s) := by
  unfold Machine.execRetirementStart
  refine .guardUnit ?_
  extract_lets
  split
  · exact h.whenTaken h.setSub.setSub.memElse.saveSubch
  · exact h

theorem Formed.finishRetire (h : Formed s) {r : Retire} : Formed (finishRetire r s) :=
  h.setSub.setSub.memElse.saveSubch.noteEvent

theorem Formed.copyOn (h : Formed s) : Formed (copyOn s) := .ite h.drawFree.memElse h

theorem Formed.execRetirementComplete (h : Formed s) {stack : Nat} : OutFormed (execRetirementComplete stack s) := by
  unfold Machine.execRetirementComplete
  refine .guardUnit ?_
  split
  · exact .ite h.finishRetire h
  · exact h

/-! ### Failures and repairs -/

theorem Formed.setCellRepair (h : Formed s) {core : Nat} {w : W32} : Formed (setCellRepair core w s) := h.elsewhere

theorem Formed.setClusterMap (h : Formed s) {i : Nat} {w : W32} : Formed (setClusterMap i w s) := h.elsewhere

theorem Formed.setCapacity (h : Formed s) {d : Nat} {w : W32} : Formed (setCapacity d w s) := h.elsewhere

theorem Formed.putCapacity (h : Formed s) {d active spares : Nat} : Formed (putCapacity d active spares s) := h.setCapacity

theorem Formed.saveRepair (h : Formed s) : Formed (saveRepair s) := h.writeMap

theorem Formed.clusterFail (h : Formed s) {i cause : Nat} : Formed (clusterFail i cause s) := by
  unfold Machine.clusterFail
  extract_lets
  split
  · exact h.setClusterMap.saveRepair.remapPending
  · exact h.setClusterMap.saveRepair
  · exact h.setClusterMap.saveRepair
  · exact h

theorem Formed.spareFail (h : Formed s) {i : Nat} : Formed (spareFail i s) := .ite h.setClusterMap.saveRepair h

theorem Formed.cellFail (h : Formed s) {core row col : Nat} : Formed (cellFail core row col s) :=
  .ite h (.ite h.setCellRepair.clusterFail h.setCellRepair.saveRepair.remapPending)

theorem Formed.routerFail (h : Formed s) {i : Nat} {adjacent : Bool} : Formed (routerFail i adjacent s) :=
  .ite h.setClusterMap.saveRepair.putCapacity.setCapacity h.setClusterMap.saveRepair

theorem Formed.recordTest (h : Formed s) {t0 : SelfTest} : Formed (recordTest t0 s) := by
  unfold Machine.recordTest
  split
  · exact .ite h.elsewhere.cellFail h
  · exact .ite h.clusterFail h
  · exact .ite h.clusterFail h
  · exact .ite h.routerFail h
  · exact .ite h.spareFail h

theorem Formed.copyStore (h : Formed s) {src dst : Nat} : Formed (copyStore src dst s) :=
  h.foldl fun _ _ ht => ht.writeBytes.setSectorPoison

theorem Formed.freeCell (h : Formed s) {cell : Nat} : Formed (freeCell cell s) := by
  unfold Machine.freeCell
  extract_lets _ _ r3 _ s1 s2
  have hr3 : Formed r3.2 := h.drawFree.drawFree.drawFree
  have hs1 : Formed s1 := hr3.writeBytes
  have hs2 : Formed s2 := hs1.foldl fun _ _ ht => ht.setSectorPoison
  exact hs2.modCell

theorem Formed.shiftRow (h : Formed s) {core row f : Nat} : Formed (shiftRow core row f s) :=
  .ite (.freeCell (h.foldl fun _ _ ht => ht.setCell.copyStore)) (h.foldl fun _ _ ht => ht.setCell.copyStore)

theorem Formed.applyRow (h : Formed s) {core row : Nat} : Formed (applyRow core row s) := by
  unfold Machine.applyRow
  extract_lets _ _ _ _ s1 s2
  have hs1 : Formed s1 := h.setCellRepair
  have hs2 : Formed s2 := by
    unfold s2
    split
    · exact hs1.shiftRow
    · exact hs1
  exact hs2.saveRepair.noteEvent

theorem Formed.moveCluster (h : Formed s) {i j : Nat} : Formed (moveCluster i j s) := by
  unfold Machine.moveCluster
  extract_lets _ _ _ _ s' _ _ _ s1 s2
  have hs' : Formed s' := h.foldl fun _ _ ht => ht.setSectorPoison
  have hs1 : Formed s1 := hs'.setClusterMap.setClusterMap.putCapacity
  have hs2 : Formed s2 := hs1.foldl fun _ _ ht => ht.modCell
  exact hs2.saveRepair.noteEvent

theorem Formed.dropCluster (h : Formed s) {i : Nat} : Formed (dropCluster i s) := h.setClusterMap.putCapacity.saveRepair

theorem Formed.applyRemaps (h : Formed s) {applies : Nat → Bool} {d : Nat} : Formed (applyRemaps applies d s).1 := by
  unfold Machine.applyRemaps
  extract_lets _ s1 _ _ s2 s3
  have hs1 : Formed s1 := h.foldl fun _ _ ht => ht.applyRow
  have hs2 : Formed s2 := hs1.foldl fun _ _ ht => ht.moveCluster
  have hs3 : Formed s3 := hs2.foldl fun _ _ ht => ht.dropCluster
  exact hs3.putCapacity

theorem Formed.clearMoved (h : Formed s) : Formed (clearMoved s) := h.elsewhere

/-! ### Elements over the switch boxes -/

theorem Formed.putBitsBy {put : Nat → List Byte → Bool → State → State} (h : Formed s)
    (hput : ∀ {t a l b}, Formed t → Formed (put a l b t)) {cell base bit n v : Nat} {poison : Bool} :
    Formed (putBitsBy put s cell base bit n v poison) := .ite (hput h) (h.foldl fun _ _ => hput)

theorem Formed.putStoreBits (h : Formed s) {cell base bit n v : Nat} {poison : Bool} :
    Formed (putStoreBits s cell base bit n v poison) := h.putBitsBy fun ht => ht.writeSector

theorem Formed.storeWrite (h : Formed s) {cell : Nat} {outer : Bool} {e : Elem} : Formed (storeWrite s cell outer e) := by
  unfold Machine.storeWrite
  refine .modCell (.putBitsBy h fun ht => ?_)
  split
  · exact ht.outerSector
  · exact ht.writeSector

theorem Formed.routeFrom (h : Formed s) {fuel cell src : Nat} {e : Elem} : Formed (routeFrom fuel cell src e s) := by
  induction fuel generalizing s cell src e with
  | zero => exact h
  | succ fuel ih =>
    unfold Machine.routeFrom
    extract_lets arrive
    have harrive : ∀ u x e, Formed u → Formed (arrive u x e) := by
      intro u x e hu
      refine .ite ?_ (.ite hu.storeWrite hu.modCell)
      split
      · exact ih hu
      · exact hu.modCore
    exact h.foldl fun _ _ ht => .ite (harrive _ _ _ ht) (.ite (harrive _ _ _ ht.modCell.modCell) ht.modCell)

theorem Formed.storeEmit (h : Formed s) {cell fmt : Nat} : Formed (storeEmit s cell fmt) := h.modCell.routeFrom

/-! ### The stages of a load -/

theorem Formed.setLoads (h : Formed s) {l : List Load} : Formed (setLoads s l) := h.elsewhere

theorem Formed.modHead (h : Formed s) {f : Load → Load} : Formed (modHead s f) := by
  unfold Machine.modHead
  split
  · exact h
  · exact h.setLoads

theorem Formed.sendLoad (h : Formed s) : Formed (sendLoad s) := by
  unfold Machine.sendLoad
  split
  · exact h
  · exact .ite h h.modHead.postDown

theorem Formed.switchNow (h : Formed s) {region slot handle : Nat} : Formed (switchNow region slot handle s) := by
  unfold Machine.switchNow
  split
  · exact h.complete
  · exact .ite h.complete (.ite h.complete h.postDown)

theorem Formed.requestSwitch (h : Formed s) {region slot handle : Nat} : Formed (requestSwitch region slot handle s) :=
  .ite h.elsewhere h.switchNow

theorem Formed.execFetch (h : Formed s) : OutFormed (execFetch s) := by
  unfold Machine.execFetch
  refine .next ?_
  split
  · exact h
  · exact h.whenTaken h.noteReads.modHead

theorem Formed.execVerify (h : Formed s) : OutFormed (execVerify s) := by
  unfold Machine.execVerify
  refine .next ?_
  split
  · exact h
  · exact h.whenTaken h.modHead

theorem Formed.applyCell (h : Formed s) {g : Img} {cell : Nat} : Formed (applyCell g cell s) := by
  unfold Machine.applyCell
  exact h.modCell

theorem Formed.applyQ (h : Formed s) {f : CtxFrame} : Formed (applyQ f s) := by
  unfold Machine.applyQ
  split
  · exact h
  · exact h.foldl fun _ _ ht => ht.modCell

theorem Formed.applyInit (h : Formed s) {f : CtxFrame} : Formed (applyInit f s) := .ite (h.foldl fun _ _ ht => ht.writeMem) h

theorem Formed.applyPerm (h : Formed s) {digest : List Byte} {die : Nat} {d : RegDesc} : Formed (applyPerm digest die d s) :=
  h.foldl fun _ _ ht => ht.modCore

theorem Formed.clearProgram (h : Formed s) {die : Nat} {d : RegDesc} : Formed (clearProgram die d s) :=
  h.foldl fun _ _ ht => ht.modCore

theorem Formed.applyProg (h : Formed s) {die : Nat} {q : ProgSub} : Formed (applyProg die q s) :=
  h.foldl fun _ _ ht => ht.modCore

theorem Formed.fixJob (h : Formed s) {im : List Byte} : Formed (fixJob im s) := .ite h h.elsewhere

theorem Formed.applyDie (h : Formed s) {g : Img} {digest : List Byte} {die : Nat} : Formed (applyDie g digest die s).1 := by
  unfold Machine.applyDie
  extract_lets r _ _ s1 s2 s3 s4
  have hr : Formed r.1 := h.applyRemaps
  have hs1 : Formed s1 := hr.foldl fun _ _ ht => ht.applyCell
  have hs2 : Formed s2 := hs1.foldl fun _ _ ht => ht.applyPerm
  have hs3 : Formed s3 := hs2.foldl fun _ _ ht => ht.applyQ.applyInit
  have hs4 : Formed s4 := hs3.foldl fun _ _ ht => ht.clearProgram
  exact hs4.foldl fun _ _ ht => ht.applyProg

theorem Formed.commitLoad (h : Formed s) {l : Load} : Formed (commitLoad l s) := h.modLong.clearMoved.fixJob

theorem Formed.applyDies (h : Formed s) {l : Load} : Formed (applyDies l s) := by
  unfold Machine.applyDies
  extract_lets _ _ r
  have hr : Formed r.1 := by
    unfold r
    refine h.foldlFst ?_
    intro a x ha
    extract_lets x_1
    have hx_1 : Formed x_1.1 := ha.applyDie
    exact hx_1
  exact hr.modHead

theorem Formed.execApply (h : Formed s) : OutFormed (execApply s) := by
  unfold Machine.execApply
  refine .next ?_
  split
  · exact h
  · exact .ite h.applyDies (h.whenTaken h.commitLoad.applyDies)

theorem Formed.closeLoad (h : Formed s) {l : Load} {outcome : Nat} : Formed (closeLoad l outcome s) :=
  h.elsewhere.noteLoad.sendLoad

theorem Formed.afterLoad (h : Formed s) : Formed (afterLoad s) :=
  .foldl (h.elsewhere.foldl fun _ _ ht => ht.requestSwitch) (fun _ _ ht => ht.startNextWait)

theorem Formed.reportGood (h : Formed s) {l : Load} : Formed (reportGood l s) := by
  unfold Machine.reportGood
  extract_lets _ _ s1
  have hs1 : Formed s1 := h.elsewhere
  exact hs1.closeLoad.postCompletion.afterLoad

theorem Formed.reportBad (h : Formed s) {l : Load} : Formed (reportBad l s) := by
  unfold Machine.reportBad
  extract_lets _ _ s1
  have hs1 : Formed s1 := h.elsewhere
  exact hs1.closeLoad.postCompletion.afterLoad

theorem Formed.execReport (h : Formed s) : OutFormed (execReport s) := by
  unfold Machine.execReport
  refine .next ?_
  split
  · exact h
  · exact h.whenTaken (.ite h.reportGood h.reportBad)

theorem Formed.cancelLoad (h : Formed s) {handle : Nat} : Formed (cancelLoad handle s) := by
  unfold Machine.cancelLoad
  split
  · exact h
  · exact h.closeLoad.afterLoad

end Sys2Proof.Machine
end

section
/-!
PROOF. The ports, the orders, the black box recorder and the packets keep the form.
-/

namespace Sys2Proof.Machine

set_option Elab.async false

open Sys2Proof

variable {s t : State}

/-! ### The optical ports -/

theorem Formed.relamp (h : Formed s) {p : Nat} : Formed (relamp p s) := .ite h.setPort h.setPort.elsewhere

theorem Formed.relampAll (h : Formed s) : Formed (relampAll s) := h.foldl fun _ _ ht => ht.relamp

theorem Formed.countPort (h : Formed s) {p k n : Nat} : Formed (countPort p k n s) := h.modPort

theorem Formed.faultPort (h : Formed s) {p bit : Nat} : Formed (faultPort p bit s) := h.modPort

theorem Formed.discardEgress (h : Formed s) {p : Nat} : Formed (discardEgress p s) := h.modPort.countPort

theorem length_darkLanes (l : List Lane) : (darkLanes l).length = l.length := List.length_map _

theorem Port.length_entering (v : Port) (new : PState) : (v.entering new).lanes.length = v.lanes.length := by
  unfold Port.entering
  extract_lets _ v2
  have h2 : v2.lanes.length = v.lanes.length := by
    unfold v2
    split
    · rfl
    · exact length_darkLanes v.lanes
  split <;> exact h2

theorem Formed.enterPort (h : Formed s) {p : Nat} {new : PState} : Formed (enterPort p new s) := by
  unfold Machine.enterPort
  extract_lets _ s1 _ _ s2 _ s3
  have hs1 : Formed s1 := .ite h.discardEgress h
  have hs2 : Formed s2 := hs1.elsewhere.modPort fun v => v.length_entering new
  have hs3 : Formed s3 := .ite (hs2.modPort.foldl fun _ _ ht => ht.postCompletion) hs2
  exact .ite h hs3.relamp

theorem Formed.failPort (h : Formed s) {p bit : Nat} : Formed (failPort p bit s) := h.faultPort.enterPort

theorem Formed.settlePilot (h : Formed s) {p : Nat} : Formed (settlePilot p s) := by
  unfold Machine.settlePilot
  extract_lets _ d
  refine .ite h ?_
  clear_value d
  split
  · exact h.failPort
  · exact .ite h.modPort.modPort.enterPort h.modPort

theorem Formed.settlePilots (h : Formed s) : Formed (settlePilots s) := h.foldl fun _ _ ht => ht.settlePilot

theorem Formed.lineOn (h : Formed s) {p : Nat} : Formed (lineOn p s) := by
  unfold Machine.lineOn
  split
  · exact h.enterPort
  · exact h.enterPort
  · exact h.enterPort
  · exact h.enterPort
  · exact h.enterPort
  · exact h.relamp

theorem Formed.lineOff (h : Formed s) {p : Nat} : Formed (lineOff p s) := by
  unfold Machine.lineOff
  refine .ite h.relamp ?_
  split
  · exact h.modPort.enterPort
  · exact h.relamp.settlePilot

theorem Formed.smHold (h : Formed s) {p cause : Nat} : Formed (smHold p cause s) := h.elsewhere.lineOn

theorem Formed.smFree (h : Formed s) {p cause : Nat} : Formed (smFree p cause s) :=
  .ite h.elsewhere.relamp h.elsewhere.elsewhere.lineOff

theorem Formed.releasePort (h : Formed s) {p : Nat} {handle : Option Nat} {press : Bool} :
    Formed (releasePort p handle press s) := by
  unfold Machine.releasePort
  extract_lets wait s1
  have hwait : ∀ u, Formed u → Formed (wait u) := by
    intro u hu
    unfold wait
    split
    · exact hu.modPort
    · exact hu
  have hs1 : Formed s1 := h.enterPort
  split
  · exact h
  · exact hwait _ h
  · refine .settlePilot ?_
    split
    · exact hs1.postCompletion
    · exact hs1
  · exact .modPort (.enterPort (hwait _ h))
  · exact .enterPort (hwait _ h)

theorem Formed.moveLanes (h : Formed s) {p : Nat} : Formed (moveLanes p s) := by
  unfold Machine.moveLanes
  extract_lets
  refine .ite h ?_
  split
  · exact h
  · split
    · exact h.modPort
    · exact .ite h.failPort h

theorem Formed.sendFrame (h : Formed s) {p : Nat} : Formed (sendFrame p s) := h.modPort.elsewhere

theorem Formed.hearFrame (h : Formed s) {p : Nat} {f : PilotFrame} : Formed (hearFrame p f s) := by
  unfold Machine.hearFrame
  extract_lets v s0 _ _ s1 s2 s3 s4
  have hs0 : Formed s0 := .ite h h.faultPort
  have hs1 : Formed s1 := .ite hs0.faultPort hs0
  have hs2 : Formed s2 := .ite hs1.enterPort hs1
  have hs3 : Formed s3 := hs2.modPort fun v => by
    dsimp only
    split <;> rfl
  have hs4 : Formed s4 := .ite hs3.discardEgress hs3
  exact .ite hs0.faultPort.enterPort hs4.settlePilot

theorem length_gradeLanes (g : List Nat) (l : List Lane) : (gradeLanes g l).length = l.length := by simp [gradeLanes]

theorem Formed.graded (h : Formed s) {p : Nat} {g : List Nat} :
    Formed (Machine.modPort s p fun v => { v with lanes := gradeLanes g v.lanes }) :=
  h.modPort fun v => length_gradeLanes g v.lanes

theorem length_roleLanes (act : List Nat) (l : List Lane) : (roleLanes act l).length = l.length := by simp [roleLanes]

theorem Formed.execTrainDone (h : Formed s) {p : Nat} {lanes : List LaneMeasure} : OutFormed (execTrainDone p lanes s) := by
  unfold Machine.execTrainDone
  refine .guardUnit (h.whenTaken ?_)
  extract_lets s1 s2 v
  have hs1 : Formed s1 := h.graded
  have hs2 : Formed s2 := hs1.modPort fun v => length_roleLanes _ v.lanes
  exact .ite hs1.failPort (.ite hs2.enterPort hs2.enterPort.postEvent)

theorem Formed.execLaneGradeInterval (h : Formed s) {p uncorr : Nat} {lanes : List LaneMeasure} {corrected : List Nat} :
    OutFormed (execLaneGradeInterval p lanes corrected uncorr s) := by
  have hs1 := h.modPort (p := p) (f := fun v =>
    { v with lanes := gradeLanes (lanes.map gradeOf) v.lanes,
             fec := (List.range 20).foldl (fun t i => tadd t i (lget 0 corrected i)) v.fec,
             uncorr := v.uncorr + BitVec.ofNat 32 uncorr,
             cnt := taddW (taddW v.cnt 2 (corrected.foldl (· + ·) 0)) 3 uncorr }) fun v => length_gradeLanes _ v.lanes
  exact .guardUnit hs1.moveLanes

theorem Formed.execLaneMoveSwitch (h : Formed s) {p : Nat} : OutFormed (execLaneMoveSwitch p s) := by
  unfold Machine.execLaneMoveSwitch
  refine .guardUnit ?_
  extract_lets v s1
  have hs1 : Formed s1 := by
    unfold s1
    split
    · exact h
    · extract_lets l s'
      have hl : l.length = v.lanes.length := by simp [l]
      have hs' : Formed s' := .countPort (h.setPort hl)
      exact .ite hs'.elsewhere hs'
  exact hs1.modPort.moveLanes

theorem Formed.endDrain (h : Formed s) {p : Nat} : Formed (endDrain p s) := .ite h.enterPort.enterPort h.enterPort

/-! ### Orders, caps and debug halts -/

theorem Formed.setCap (h : Formed s) {d src mhz : Nat} : Formed (setCap d src mhz s) := h.elsewhere

theorem Formed.sendCaps (h : Formed s) {dies : List Nat} : Formed (sendCaps dies s) :=
  .ite (h.foldl fun _ _ ht => ht.traceRec) (.foldl (h.foldl fun _ _ ht => ht.traceRec) (fun _ _ ht => ht.postOrder))

theorem Formed.withCaps {f : State → State} (hf : Formed (f s)) : Formed (withCaps f s) := hf.sendCaps

theorem Formed.capAll (h : Formed s) {src mhz : Nat} :
    Formed (capAll src mhz s) := .withCaps (h.foldl fun _ _ ht => ht.setCap)

theorem Formed.sendCurrent (h : Formed s) : Formed (sendCurrent s) := .ite h.sendCaps h.sendCaps.postOrder

theorem Formed.snapshotDie (h : Formed s) {base d : Nat} : Formed (snapshotDie base d s) := h.foldl fun _ _ ht => ht.writeMem

theorem Formed.restoreDie (h : Formed s) {base d : Nat} : Formed (restoreDie base d s) :=
  h.foldl fun _ _ ht => .ite ht (.foldl (ht.noteReads.foldl fun _ _ ht1 => ht1.modCell) (fun _ _ ht1 => ht1.modCore))

theorem Formed.haltNow (h : Formed s) {dies : BitVec 8} {snap debug : Bool} {base : Nat} :
    Formed (haltNow dies snap debug base s) :=
  .ite (.elsewhere (h.elsewhere.foldl fun _ _ ht => ht.snapshotDie)) h.elsewhere

theorem Formed.releaseNow (h : Formed s) {dies : BitVec 8} {restore debug : Bool} {base : Nat} :
    Formed (releaseNow dies restore debug base s) :=
  .elsewhere (.ite (h.foldl fun _ _ ht => ht.restoreDie) h)

theorem Formed.shutNow (h : Formed s) {m : BitVec 10} : Formed (shutNow m s) := h.elsewhere.foldl fun _ _ ht => ht.lineOn

theorem Formed.reopenNow (h : Formed s) {m : BitVec 10} : Formed (reopenNow m s) := h.elsewhere.foldl fun _ _ ht => ht.lineOff

theorem Formed.throttleNow (h : Formed s) {dies mhz : Nat} : Formed (throttleNow dies mhz s) :=
  h.foldl fun _ _ ht => ht.elsewhere

theorem Formed.orderNow (h : Formed s) {m : Msg} : Formed (orderNow m s) := by
  unfold Machine.orderNow
  split
  · exact h.throttleNow
  · exact .ite h.haltNow h.releaseNow
  · exact .ite h.shutNow h.reopenNow
  · exact h

theorem Formed.takeOrder (h : Formed s) : Formed (takeOrder s) := by
  unfold Machine.takeOrder
  split
  · exact h
  · exact h.popInter.orderNow.postTele

theorem Formed.orderRow (h : Formed s) {kind : Nat} {p : Payload} : Formed (orderRow kind p s) := by
  unfold Machine.orderRow
  refine .ite h ?_
  split
  · exact h.postOrder.takeOrder
  · exact .ite h.takeOrder h.postOrder

theorem Formed.endDebugHalts (h : Formed s) : Formed (endDebugHalts s) := h.elsewhere

theorem Formed.resetDb (h : Formed s) : Formed (resetDb s) := h.elsewhere

theorem Formed.endLevel (h : Formed s) : Formed (endLevel s) :=
  .ite h.resetDb.endDebugHalts h.elsewhere.resetDb.endDebugHalts.bbEvent

/-! ### The recorder -/

theorem Formed.setTotal (h : Formed s) {k v : Nat} : Formed (setTotal k v s) := h.elsewhere

theorem Formed.addRise (h : Formed s) {acc prev new : Nat} : Formed (addRise acc prev new s) := h.setTotal.setTotal

theorem Formed.keepMax (h : Formed s) {k v : Nat} : Formed (keepMax k v s) := h.setTotal

theorem Formed.forgetTotals (h : Formed s) : Formed (forgetTotals s) := h.elsewhere

theorem Formed.takeLanes4 (h : Formed s) {w : List Nat} {i lo un : Nat} : Formed (takeLanes4 w i lo un s) :=
  .ite h (.addRise (h.foldl fun _ _ ht => .ite ht (.keepMax (.ite ht.setTotal ht))))

theorem Formed.takeTele (h : Formed s) {m : Msg} : Formed (takeTele m s) := by
  unfold Machine.takeTele
  extract_lets s0
  have hs0 : Formed s0 := h.traceRec
  split
  · extract_lets _ _ _ s1 s1_1 s2
    have hs1 : Formed s1 := hs0.setTotal
    have hs1_1 : Formed s1_1 := hs0.foldl fun _ _ ht => ht.addRise
    have hs2 : Formed s2 := hs1_1.setTotal
    split
    · exact hs0.foldl fun _ _ ht => ht.addRise
    · exact hs1.keepMax.setTotal.setTotal
    · exact hs2.keepMax.setTotal
    · exact hs0.takeLanes4.takeLanes4
  · exact hs0.elsewhere
  · exact .ite hs0.elsewhere hs0
  · exact hs0

theorem Formed.teleRow (h : Formed s) {kind : Nat} : Formed (teleRow kind s) := by
  unfold Machine.teleRow
  split
  · exact .ite h.popTele.takeTele h
  · exact h

theorem Formed.openWindow (h : Formed s) {rest : List (Nat × List Byte)} : Formed (openWindow rest s) :=
  .elsewhere (h.foldl fun _ _ ht => ht.modPort)

theorem Formed.accountPeriod (h : Formed s) {r : Readings} : Formed (accountPeriod r s) := h.elsewhere

theorem Formed.closeWindow (h : Formed s) {cause : Nat} : Formed (closeWindow cause s) := by
  unfold Machine.closeWindow
  extract_lets _ _ _ s1 s2 s3 _ s4 _ s5
  have hs1 : Formed s1 := h.foldl fun _ _ ht => ht.bbCommit
  have hs2 : Formed s2 := hs1.foldl fun _ _ ht => ht.bbCommit
  have hs3 : Formed s3 := hs2.bbCommit
  have hs4 : Formed s4 := hs3.foldl fun _ _ ht => ht.bbCommit
  have hs5 : Formed s5 := .ite hs4.elsewhere hs4
  exact hs5.openWindow

theorem Formed.bbLatch (h : Formed s) {port seq : Nat} : Formed (bbLatch port seq s) := h.elsewhere

theorem Formed.drainNotes (h : Formed s) : Formed (drainNotes s) := h.elsewhere.foldl fun _ _ ht => ht.commitNote

/-! ### Packets -/

theorem Formed.countDrop (h : Formed s) {k : Nat} : Formed (countDrop k s) := h.lkElse

theorem Formed.sendEgress (h : Formed s) {p : Nat} : Formed (sendEgress p s) := h.setPort.elsewhere

theorem Formed.enqueue (h : Formed s) {p : Nat} {k : Packet} {bad : Bool} : Formed (enqueue p k bad s) := h.setPort.sendEgress

theorem Formed.deliverHere (h : Formed s) {k : Packet} {bad : Bool} : Formed (deliverHere k bad s) :=
  .ite h.countDrop h.lkElse.countAct

theorem Formed.returnCredits (h : Formed s) {p vc flits : Nat} : Formed (returnCredits p vc flits s) := .ite h.elsewhere h

theorem Formed.tryCross (h : Formed s) {x : Crossing} (ht : tryCross x s = some t) : Formed t := by
  have hall : ∀ u ∈ Machine.tryCross x s, Formed u := by
    unfold Machine.tryCross
    split
    · simpa using h.deliverHere.returnCredits
    · split
      · simpa using h.countDrop.returnCredits
      · split
        · simpa using h.countDrop.returnCredits
        · split
          · simpa using h.enqueue.returnCredits
          · simp
  exact hall t ht

theorem Formed.cross (h : Formed s) {x : Crossing} : Formed (cross x s) := by
  unfold Machine.cross
  extract_lets _ wait
  have hwait : Formed wait := h.lkElse
  refine .ite hwait ?_
  split
  case h_1 t ht => exact h.tryCross ht
  case h_2 => exact hwait

theorem Formed.crossAll (h : Formed s) : Formed (crossAll s) := h.lkElse.foldl fun _ _ ht => ht.cross

theorem Formed.launch (h : Formed s) {k : Packet} : Formed (launch k s) := .ite h.countDrop h.countAct.cross

theorem Formed.sendControl (h : Formed s) {typ dest seq ackSeq : Nat} {echo : Bool} {off : Nat} :
    Formed (sendControl typ dest seq ackSeq echo off s) :=
  .ite h h.launch

theorem Formed.setPeer (h : Formed s) {rank : Nat} {v : Peer} : Formed (setPeer s rank v) := h.lkElse

theorem Formed.modPeer (h : Formed s) {rank : Nat} {f : Peer → Peer} : Formed (modPeer s rank f) := h.setPeer

theorem Formed.injectData (h : Formed s) {k : Packet} : Formed (injectData k s) := h.setPeer.launch

theorem Formed.resendHeld (h : Formed s) {dest seq : Nat} : Formed (resendHeld dest seq s) := by
  unfold Machine.resendHeld
  extract_lets
  split
  · exact h
  · exact h.setPeer.countDrop.launch

theorem Formed.sendAck (h : Formed s) {src seq : Nat} : Formed (sendAck src seq s) := h.setPeer.sendControl

theorem Formed.acceptData (h : Formed s) {k : Packet} : Formed (acceptData k s) :=
  .ite h.lkElse.setPeer.sendAck h.lkElse.setPeer

theorem Formed.receiveData (h : Formed s) {k : Packet} {bad : Bool} : Formed (receiveData k bad s) :=
  .ite h.countDrop.sendControl (.ite h.acceptData (.ite h.countDrop.sendAck h.countDrop))

theorem Formed.popRx (h : Formed s) : Formed (popRx s) := h.lkElse

theorem Formed.logPeerError (h : Formed s) {rank : Nat} : Formed (logPeerError rank s) := h.lkElse.postEvent

theorem Formed.execPacketRoute (h : Formed s) {p : Nat} {k : Packet} {badHeader badFlit : Bool} :
    OutFormed (execPacketRoute p k badHeader badFlit s) := by
  unfold Machine.execPacketRoute
  refine .guardUnit (h.whenTaken ?_)
  extract_lets s1 gone s2
  have hs1 : Formed s1 := h.countPort
  have hgone : ∀ u, Formed u → Formed (gone u) := fun _ hu => hu.returnCredits
  have hs2 : Formed s2 := hgone _ hs1.countDrop
  exact .ite (hgone _ hs1.countPort)
    (.ite (hgone _ hs1.countDrop)
      (.ite (hgone _ hs1.countDrop) (.ite (hgone _ hs1.countDrop) (.ite (.ite hs2.sendControl hs2) hs1.cross))))

theorem Formed.execDataPacketReceive (h : Formed s) : OutFormed (execDataPacketReceive s) := by
  unfold Machine.execDataPacketReceive
  refine .next ?_
  split
  · exact h.popRx.receiveData
  · exact h

theorem Formed.execEpochRetire (h : Formed s) : OutFormed (execEpochRetire s) := by
  unfold Machine.execEpochRetire
  refine .next (h.whenTaken ?_)
  extract_lets _ _ _ s1
  have hs1 : Formed s1 := h.lkElse
  split
  · exact hs1.postCompletion
  · exact hs1

end Sys2Proof.Machine
end

section
/-!
PROOF. Caravans keep the form: their units and blocks, PERMUTE, and the update engine.
-/

namespace Sys2Proof.Machine

set_option Elab.async false

open Sys2Proof

variable {s t : State}

/-! ### Units, blocks and staging -/

theorem Formed.modCv (h : Formed s) {id : Nat} {f : Caravan → Caravan} : Formed (modCv id f s) := h.elsewhere

theorem Formed.countCl (h : Formed s) {k n : Nat} : Formed (countCl k n s) := h.elsewhere

theorem Formed.sendCv (h : Formed s) {c : Caravan} {member sub stage off endU : Nat} {payload : List Byte} {marks : List Nat} :
    Formed (sendCv c member sub stage off endU payload marks s) := by
  unfold Machine.sendCv
  exact h.modPeer

theorem Formed.logClFault (h : Formed s) {c : Caravan} {unit : Nat} : Formed (logClFault c unit s) := .ite h h.elsewhere

theorem Formed.readUnit (h : Formed s) {c : Caravan} {u : Nat} : Formed (readUnit c u s).2 := by
  unfold Machine.readUnit
  extract_lets _ _ _ _ _ fx _ fe
  have hfx : Formed fx.2 := h.drawFree
  have hfe : Formed fe.2 := hfx.drawFree
  split
  · split
    · exact h
    · exact hfe.logClFault
  · split
    · exact .ite h h.logClFault
    · split
      · split
        · exact h
        · exact h.logClFault
      · split
        · exact h
        · exact h.logClFault

theorem Formed.readUnits (h : Formed s) {c : Caravan} : Formed (readUnits c s).2 := by
  unfold Machine.readUnits
  refine h.noteReads.foldlSnd ?_
  intro a x ha
  extract_lets r
  have hr : Formed r.2 := ha.readUnit
  exact hr

theorem Formed.writeUnits (h : Formed s) {c : Caravan} {off addr : Nat} {us : List CvUnit} :
    Formed (writeUnits c off addr us s) := by
  unfold Machine.writeUnits
  extract_lets _ _ _ _ _ s1 lost s2
  have hs1 : Formed s1 := by
    unfold s1
    exact h.foldl fun _ _ ht => .ite ht.writeSector.setSectorPoison ht.writeSector
  have hs2 : Formed s2 := by
    unfold s2
    clear_value lost
    split
    · exact hs1.logClFault
    · exact hs1
  exact hs2.countCl

/-! ### PERMUTE -/

theorem Formed.jWriteHead (h : Formed s) {f : JHead → JHead} : Formed (jWriteHead f s) := h.writeMem

theorem Formed.jSetState (h : Formed s) {st : Nat} : Formed (jSetState st s) := h.jWriteHead

theorem Formed.jAppend (h : Formed s) {cycle step kind slot src : Nat} : Formed (jAppend cycle step kind slot src s) := by
  unfold Machine.jAppend
  split
  · exact h
  · exact h.writeMem.writeMem

theorem Formed.jSetDone (h : Formed s) {c : Nat} {v : Bool} : Formed (jSetDone c v s) := h.writeMem

theorem Formed.modPerm (h : Formed s) {id : Nat} {f : Permute → Permute} : Formed (modPerm id f s) := h.modCv

theorem Formed.copyUnit (h : Formed s) {c : Caravan} {g src dst : Nat} : Formed (copyUnit c g src dst s).1 := by
  unfold Machine.copyUnit
  extract_lets r
  have hr : Formed r.1 := by
    unfold r
    refine h.foldlFst ?_
    intro a x ha
    extract_lets
    exact ha.noteRead.writeSector
  exact .ite hr.logClFault hr

theorem Formed.countUnit (h : Formed s) {id : Nat} {poisoned : Bool} : Formed (countUnit id poisoned s) :=
  .ite h h.modCv.countCl

theorem Formed.sendAsk (h : Formed s) {c : Caravan} {p : Permute} {f : Fetch} : Formed (sendAsk c p f s) := h.sendCv

theorem Formed.askAgain (h : Formed s) {id : Nat} : Formed (askAgain id s) := by
  unfold Machine.askAgain
  split
  · exact h
  · exact h.foldl fun _ _ ht => ht.sendAsk.countCl

theorem Formed.pumpAsks (h : Formed s) {id : Nat} : Formed (pumpAsks id s) := by
  unfold Machine.pumpAsks
  split
  · exact h
  · refine h.foldl ?_
    intro t x ht
    split
    · exact ht
    · exact .ite ht ht.modPerm.sendAsk

theorem Formed.addFetch (h : Formed s) {id cyc pos slot src member : Nat} {restore : Bool} :
    Formed (addFetch id cyc pos slot src member restore s) :=
  h.modPerm

theorem Formed.noticeCycle (h : Formed s) {id cyc : Nat} {undo : Bool} : Formed (noticeCycle id cyc undo s) := by
  unfold Machine.noticeCycle
  split
  · exact h
  · exact .ite h h.modPerm.jSetDone.elsewhere

theorem Formed.announceCycle (h : Formed s) {id cyc : Nat} : Formed (announceCycle id cyc s) := by
  unfold Machine.announceCycle
  split
  · exact h
  · exact h.foldl fun _ _ ht => ht.sendCv

theorem Formed.moveInto (h : Formed s) {id cyc fuel pos : Nat} : Formed (moveInto id cyc fuel pos s) := by
  induction fuel generalizing s pos with
  | zero => exact h
  | succ fuel ih =>
    unfold Machine.moveInto
    split
    · exact h
    · extract_lets _ _ _ _ s1 t _ s2
      have hs1 : Formed s1 := h.jAppend.modPerm
      have ht : Formed t.1 := hs1.copyUnit
      have hs2 : Formed s2 := ht.countUnit.jAppend.modPerm
      exact .ite hs1.addFetch.pumpAsks (.ite hs2.announceCycle.noticeCycle (ih hs2))

theorem Formed.kickFrom (h : Formed s) {id cyc fuel pos : Nat} : Formed (kickFrom id cyc fuel pos s) := by
  induction fuel generalizing s pos with
  | zero => exact h
  | succ fuel ih =>
    unfold Machine.kickFrom
    split
    · exact h
    · exact .ite h.announceCycle.noticeCycle (.ite h.addFetch.pumpAsks (.ite (ih h) h.moveInto))

theorem Formed.leadCycle (h : Formed s) {id cyc : Nat} : Formed (leadCycle id cyc s) := by
  unfold Machine.leadCycle
  split
  · exact h
  · exact .ite (.ite h.kickFrom h.moveInto) (.ite h.modPerm h.jAppend.copyUnit.modPerm.moveInto)

theorem Formed.restoreInto (h : Formed s) {id cyc fuel pos : Nat} : Formed (restoreInto id cyc fuel pos s) := by
  induction fuel generalizing s pos with
  | zero => exact h
  | succ fuel ih =>
    unfold Machine.restoreInto
    split
    · exact h
    · extract_lets _ _ _ undo s1 _ s2
      have hundo : ∀ u, Formed u → Formed (undo u) := fun _ hu => hu.jAppend.modPerm
      have hs1 : Formed s1 := hundo _ h.copyUnit
      have hs2 : Formed s2 := h.jAppend.modPerm
      exact .ite (.ite h hs1.modPerm) (.ite h.addFetch.pumpAsks (.ite h (ih (hundo _ hs2.copyUnit))))

theorem Formed.restoreAll (h : Formed s) {id : Nat} : Formed (restoreAll id s) := by
  unfold Machine.restoreAll
  split
  · exact h
  · exact h.foldl fun _ _ ht => ht.foldl fun _ _ ht1 => .ite ht1 ht1.restoreInto

theorem Formed.kickAll (h : Formed s) {id : Nat} : Formed (kickAll id s) := by
  unfold Machine.kickAll
  split
  · exact h
  · refine h.foldl ?_
    intro t x ht
    split
    · exact ht
    · exact .ite ht (.ite ht.kickFrom ht.moveInto)

theorem Formed.permKick (h : Formed s) {id : Nat} : Formed (permKick id s) := by
  unfold Machine.permKick
  split
  · exact h
  · exact .ite h.kickAll.restoreAll h.kickAll

theorem Formed.sendUnit (h : Formed s) {id member cyc addr : Nat} {slot : Option Nat} :
    Formed (sendUnit id member cyc addr slot s) := by
  unfold Machine.sendUnit
  split
  · exact h
  · exact h.modCv.foldl fun _ _ ht => .sendCv (.ite ht.noteReads ht.noteReads.logClFault)

theorem Formed.sendNothing (h : Formed s) {id member k : Nat} : Formed (sendNothing id member k s) := by
  unfold Machine.sendNothing
  split
  · exact h
  · exact h.modCv.sendCv

theorem Formed.serveReady (h : Formed s) {id member k : Nat} : Formed (serveReady id member k s) := by
  unfold Machine.serveReady
  split
  · exact h
  · extract_lets
    split
    · exact h.sendNothing
    · exact .ite h
        (.ite (.ite h.sendUnit h.sendNothing)
          (.ite h.sendNothing.announceCycle (.ite (.ite h.sendUnit h.sendNothing) (.ite h.sendNothing.kickFrom h.sendUnit))))

theorem Formed.unitSent (h : Formed s) {id : Nat} {o : MoveOut} : Formed (unitSent id o s) := by
  unfold Machine.unitSent
  split
  · exact .ite h.restoreInto (.ite h h.moveInto)
  · exact h

theorem Formed.permAcked (h : Formed s) {id member : Nat} {empty : Bool} : Formed (permAcked id member empty s) := by
  unfold Machine.permAcked
  split
  · exact h
  · refine .ite h ?_
    split
    · exact h
    · exact .ite h.modPerm h.modPerm.unitSent

theorem Formed.fetchDone (h : Formed s) {id : Nat} {f : Fetch} : Formed (fetchDone id f s) := by
  unfold Machine.fetchDone
  split
  · exact h
  · extract_lets s0 _ _ s1
    have hs0 : Formed s0 := h.modPerm
    have hs1 : Formed s1 := hs0.countUnit.jAppend.modPerm
    exact .ite hs0.jAppend.modPerm (.ite hs1 (.ite hs1.restoreAll hs1.announceCycle.noticeCycle))

theorem Formed.permData (h : Formed s) {id member from_ to_ : Nat} {payload : List Byte} {marks : List Nat} :
    Formed (permData id member from_ to_ payload marks s) := by
  unfold Machine.permData
  extract_lets
  split
  · exact h
  · split
    · exact h
    · refine .ite ?_ ?_
      · exact .ite h.modPerm.pumpAsks.restoreAll h.modPerm.pumpAsks
      · extract_lets s0 _ s1
        have hs0 : Formed s0 := .ite h.jAppend.modPerm h
        have hs1 : Formed s1 := hs0.foldl fun _ _ ht => ht.writeSector
        exact .ite hs1.modPerm hs1.fetchDone.pumpAsks

theorem Formed.startCycles (h : Formed s) {id fuel : Nat} : Formed (startCycles id fuel s) := by
  induction fuel generalizing s with
  | zero => exact h
  | succ fuel ih =>
    unfold Machine.startCycles
    split
    · exact h
    · refine .ite h ?_
      split
      · exact h
      · exact ih (.ite h.modPerm.leadCycle h.modPerm.sendCv)

theorem Formed.leadWaiting (h : Formed s) {id : Nat} : Formed (leadWaiting id s) := by
  unfold Machine.leadWaiting
  split
  · exact h
  · exact h.modPerm.foldl fun _ _ ht => ht.leadCycle

theorem Formed.cyclePacket (h : Formed s) {id cyc : Nat} {start undo : Bool} : Formed (cyclePacket id cyc start undo s) := by
  unfold Machine.cyclePacket
  split
  · exact h
  · exact .ite h (.ite h.noticeCycle (.ite h.announceCycle (.ite h.noticeCycle.leadCycle h.leadCycle)))

theorem Formed.turnBack (h : Formed s) {id : Nat} : Formed (turnBack id s) := h.modCv.jSetState.elsewhere.restoreAll

theorem Formed.permStart (h : Formed s) {c : Caravan} (ht : permStart c s = some t) : Formed t := by
  have hall : ∀ u ∈ Machine.permStart c s, Formed u := by
    unfold Machine.permStart
    extract_lets _ _ _ id _ _ _ _ _ _ _ _ s1 _ _ _ s4
    have hs1 : Formed s1 := .ite h h.writeMem
    have hs4 : Formed s4 := .elsewhere (hs1.jWriteHead.modCv (id := id))
    split
    · simp
    · simpa using Formed.ite hs4.permKick (.ite hs4.restoreAll hs4)
  exact hall t ht

/-! ### The update engine -/

theorem Formed.writeWord (h : Formed s) {a v : Nat} : Formed (writeWord s a v) := h.writeMem

theorem Formed.startAttempt (h : Formed s) : Formed (startAttempt s) := h.elsewhere

theorem Formed.rewriteRecord (h : Formed s) : Formed (rewriteRecord s) := h.writeMem.writeMem.elsewhere

theorem Formed.noteTable (h : Formed s) {d : CollDesc} : Formed (noteTable d s) := .ite h.noteReads.noteReads h.noteReads

theorem Formed.foldChannel (h : Formed s) {k : Bkt} {e bits : Nat} : Formed (foldChannel k e bits s) := .ite h h.elsewhere

theorem Formed.settleChannels (h : Formed s) {k : Bkt} {ok : Bool} : Formed (settleChannels k ok s) :=
  h.foldl fun _ _ ht => .ite ht.elsewhere (.ite ht.elsewhere.noteReads.writeWord ht.elsewhere.noteReads)

theorem Formed.applyElem (h : Formed s) {k : Bkt} {first u : Nat} {b : Blk} {j : Nat} : Formed (applyElem k first u b s j) :=
  h.writeJob.foldChannel

theorem Formed.holdBlock (h : Formed s) {i u stack : Nat} : Formed (holdBlock i u stack s) := h.elsewhere.writeWord

theorem Formed.applyBlock (h : Formed s) {i m me u : Nat} {b : Blk} : Formed (applyBlock i m me u b s) := by
  unfold Machine.applyBlock
  extract_lets _ s1 s2
  have hs1 : Formed s1 := h.writeMem
  have hs2 : Formed s2 := hs1.noteReads.foldl fun _ _ ht => ht.applyElem
  exact .ite hs1 (.ite hs2.holdBlock hs2.elsewhere)

theorem Formed.foldCells (h : Formed s) : Formed (foldCells s) :=
  h.foldl fun _ _ ht => .ite ht (.settleChannels (ht.noteReads.foldl fun _ _ ht1 => ht1.foldChannel))

theorem Formed.endStep (h : Formed s) {ok : Bool} {c : Caravan} : Formed (endStep ok c s) :=
  .ite (.startAttempt (.elsewhere (.ite h.noteReads h))) (.startAttempt (.elsewhere (.ite h.noteReads h)))

theorem Formed.ueEnded (h : Formed s) {c : Caravan} {ok : Bool} : Formed (ueEnded c ok s) := by
  unfold Machine.ueEnded
  split
  · exact .ite h.settleChannels (.elsewhere (.ite h.settleChannels h.settleChannels.writeWord))
  · exact h.endStep
  · exact h

theorem Formed.convertBucket (h : Formed s) {b : Nat × Nat × Nat} : Formed (convertBucket s b) :=
  .elsewhere (.writeJob (h.noteReads.noteReads.writeJob.foldl fun _ _ ht => .ite ht.setSectorPoison ht))

theorem Formed.orderCaravans (h : Formed s) : Formed (orderCaravans s) := h.elsewhere

end Sys2Proof.Machine
end

section
/-!
PROOF. The cells keep the form: the matrix tile and the wide unit.
-/

namespace Sys2Proof.Machine

set_option Elab.async false

open Sys2Proof

variable {s t : State}

/-! ### The matrix tile -/

theorem Formed.endOperation (h : Formed s) {cell : Nat} : Formed (endOperation cell s) :=
  .ite (h.setCell.foldl fun _ _ ht => ht.routeFrom) h.setCell

theorem Formed.takeHeads (h : Formed s) {cell q n : Nat} : Formed (takeHeads s cell q n) := h.modCell

theorem Formed.fillTo (h : Formed s) {cell q fmt n : Nat} : Formed (fillTo cell q fmt n s) := by
  induction n generalizing s with
  | zero => exact h
  | succ n ih => exact .ite h (ih (h.foldl fun _ _ ht => ht.storeEmit))

theorem Formed.needInput (h : Formed s) {cell q fmt n : Nat} : Formed (needInput s cell q fmt n) := h.fillTo

theorem Formed.streamedAt (h : Formed s) {cell q idx fmt : Nat} {x : Ctx} {op : TileOp}
    (ht : streamedAt s cell x q idx fmt = some (op, t)) : Formed t := by
  have hall : ∀ u ∈ Machine.streamedAt s cell x q idx fmt, Formed u.2 := by
    unfold Machine.streamedAt
    split
    · simpa using h
    · dsimp only
      split
      · simpa using h.needInput.takeHeads
      · simp
  exact hall _ ht

theorem Formed.tapeHead (h : Formed s) {cell : Nat} {x : Ctx} {e : Option Elem} (ht : tapeHead s cell x = some (e, t)) :
    Formed t := by
  have hall : ∀ u ∈ Machine.tapeHead s cell x, Formed u.2 := by
    unfold Machine.tapeHead
    split
    · dsimp only
      split
      · simpa using h.needInput.takeHeads
      · simp
    · simpa using h
  exact hall _ ht

theorem Formed.forwardElement (h : Formed s) {cell : Nat} : Formed (forwardElement cell s) := by
  unfold Machine.forwardElement
  extract_lets
  refine .ite h ?_
  split
  · exact h
  next op s1 hs =>
    have hs1 : Formed s1 := h.streamedAt hs
    extract_lets _ _ _ s2
    have hs2 : Formed s2 := hs1.countAct.modCell
    exact .ite hs2.endOperation hs2

theorem Formed.bothStep (h : Formed s) {cell : Nat} : Formed (bothStep cell s) := by
  unfold Machine.bothStep
  extract_lets _ _ _ _ _ s1 s2 s3 _ _ s4 s5 s6
  have hs1 : Formed s1 := .ite h h.needInput
  have hs2 : Formed s2 := hs1.needInput
  have hs3 : Formed s3 := .ite hs2.needInput hs2
  have hs4 : Formed s4 := .ite hs3 hs3.takeHeads
  have hs5 : Formed s5 := hs4.takeHeads
  have hs6 : Formed s6 := .ite hs5.takeHeads hs5
  refine .ite h ?_
  split
  · exact .ite hs6.countAct.modCell.endOperation hs6.countAct.modCell
  · exact h

theorem Formed.transposedOp (h : Formed s) {cell b : Nat} : Formed (transposedOp cell b s) := h.countAct.modCell.endOperation

theorem Formed.gradientElement (h : Formed s) {cell : Nat} : Formed (gradientElement cell s) := by
  unfold Machine.gradientElement
  extract_lets
  refine .ite (.ite h h.transposedOp) (.ite h ?_)
  split
  · exact h
  next tape s0 hs =>
    split
    · exact h
    next op s1 ht =>
      have hs1 : Formed s1 := (h.tapeHead hs).streamedAt ht
      exact .ite hs1.modCell.transposedOp hs1.modCell

theorem Formed.execBankLoad (h : Formed s) {cell : Nat} : OutFormed (execBankLoad cell s) := by
  unfold Machine.execBankLoad
  refine .guardUnit (h.whenTaken ?_)
  extract_lets put _ _ s1
  have hput : ∀ a b u, Formed u → Formed (put a b u) := fun _ _ _ hu => hu.modCell
  have hs1 : Formed s1 := h.needInput
  refine .ite (hput _ _ _ h) ?_
  split
  · exact hput _ _ _ hs1.takeHeads
  · exact h

/-! ### The wide unit -/

theorem Formed.openBsi (h : Formed s) {cell : Nat} {x : Ctx} : Formed (openBsi cell x s) := .ite h.modCell h

theorem Formed.takeWide (h : Formed s) {cell : Nat} {x : Ctx} {l : List LaneIn} (ht : takeWide s cell x = some (l, t)) :
    Formed t := by
  have hall : ∀ u ∈ Machine.takeWide s cell x, Formed u.2 := by
    unfold Machine.takeWide
    extract_lets _ _ need s1 _ drop
    have hneed : ∀ u q, Formed u → Formed (need u q) := fun _ _ hu => .ite hu.needInput hu
    have hdrop : ∀ u q, Formed u → Formed (drop u q) := fun _ _ hu => .ite hu.takeHeads hu
    have hs1 : Formed s1 := (hneed _ _ (hneed _ _ (hneed _ _ h))).openBsi
    split
    · simp
    · split
      · simpa using (hdrop _ _ (hdrop _ _ (hdrop _ _ hs1))).modCell
      · simp
  exact hall _ ht

theorem Formed.execElementChain (h : Formed s) {cell : Nat} : OutFormed (execElementChain cell s) := by
  refine .guardUnit (h.whenTaken ?_)
  split
  · exact h
  next ins s0 hs => exact (h.takeWide hs).countAct.setCell.foldl fun _ _ ht => ht.routeFrom

theorem Formed.redTerms (h : Formed s) {cell n : Nat} {x : Ctx} {raw : Bool} {l : List Elem}
    (ht : redTerms s cell x raw n = some (l, t)) : Formed t := by
  have hall : ∀ u ∈ Machine.redTerms s cell x raw n, Formed u.2 := by
    unfold Machine.redTerms
    extract_lets
    split
    · simpa using h.modCell
    · split
      · simp
      · split
        · simpa using fun _ _ => h.needInput.takeHeads
        · split
          · simp
          next ins s2 hs => simpa using (h.takeWide hs).modCell
  exact hall _ ht

theorem Formed.execReductionTerm (h : Formed s) {cell entry : Nat} : OutFormed (execReductionTerm cell entry s) := by
  unfold Machine.execReductionTerm
  refine .guardUnit ?_
  extract_lets _ _ into
  have hinto : ∀ f t, Formed t → Formed (into f t) := fun _ _ ht => ht.countAct.modCell
  clear_value into
  refine h.whenTaken ?_
  split
  · split
    next hs => exact hinto _ _ (h.redTerms hs)
    · exact h
  · split
    next hs => exact hinto _ _ (h.redTerms hs)
    · exact h
  · split
    next hs => exact hinto _ _ (h.redTerms hs)
    · exact h
  · exact h

theorem Formed.execTopkElement (h : Formed s) {cell : Nat} : OutFormed (execTopkElement cell s) := by
  refine .guardUnit (h.whenTaken ?_)
  split
  next e r s1 hs =>
    have hs1 : Formed s1 := h.redTerms hs
    refine .ite ?_ hs1.countAct.modCell
    split
    next a b r' s2 ht => exact (h.redTerms ht).countAct.modCell
    · exact h
  · exact h

end Sys2Proof.Machine
end

section
/-!
PROOF. Running caravans, their packets and the end-to-end delivery keep the form.
-/

namespace Sys2Proof.Machine

set_option Elab.async false

open Sys2Proof

variable {s t : State}

/-! ### Running a caravan -/

theorem Formed.sendUnits {id dst stage : Nat} :
    ∀ {ns : List Nat} {off : Nat} {us : List CvUnit} {s : State}, Formed s → Formed (sendUnits id dst stage ns off us s)
  | [], _, _, _, h => h
  | _ :: _, _, _, _, h => by
    unfold Machine.sendUnits
    split
    · exact h
    · exact sendUnits h.modCv.sendCv

theorem Formed.pumpSends (h : Formed s) {id fuel : Nat} : Formed (pumpSends id fuel s) := by
  induction fuel generalizing s with
  | zero => exact h
  | succ fuel ih =>
    unfold Machine.pumpSends
    split
    · exact h
    · split
      · exact h
      · exact ih h.modCv.sendUnits

theorem Formed.pushUnits (h : Formed s) {id dst stage seg off : Nat} {us : List CvUnit} :
    Formed (pushUnits id dst stage seg off us s) := by
  unfold Machine.pushUnits
  refine .ite h ?_
  extract_lets s1
  have hs1 : Formed s1 := h.modCv
  split
  · exact hs1.pumpSends
  · exact hs1

theorem Formed.sendReady (h : Formed s) {id member : Nat} : Formed (sendReady id member s) := by
  unfold Machine.sendReady
  split
  · exact h
  · exact h.modCv.sendCv

theorem Formed.foldResidual (h : Formed s) {d : CollDesc} {i : Nat} {b : Blk} : Formed (foldResidual d i b s) :=
  h.noteReads.foldl fun _ _ ht => ht.writeJob

theorem Formed.thinUnits (h : Formed s) {d : CollDesc} {us : List CvUnit} : Formed (thinUnits d us s).2 := by
  unfold Machine.thinUnits
  split
  · exact h
  · extract_lets _ _ s1
    have hs1 : Formed s1 := h.foldl fun _ _ ht => .ite ht ht.foldResidual
    exact hs1

theorem Formed.combineUnit (h : Formed s) {d : CollDesc} {a l : CvUnit} : Formed (combineUnit d a l s).2 := by
  unfold Machine.combineUnit
  split
  · exact h
  · split
    · exact h
    · split
      · extract_lets _ _ s1 s2
        have hs1 : Formed s1 := .ite h.countCl h
        have hs2 : Formed s2 := .ite hs1.countCl hs1
        exact hs2
      · exact h

theorem Formed.combineUnits (h : Formed s) {c : Caravan} {off : Nat} {us : List CvUnit} :
    Formed (combineUnits c off us s).2 := by
  unfold Machine.combineUnits
  refine h.foldlSnd ?_
  intro a x ha
  extract_lets r
  have hr : Formed r.2 := ha.combineUnit
  exact hr

theorem Formed.putOut (h : Formed s) {id off : Nat} {us : List CvUnit} : Formed (putOut id off us s) := by
  unfold Machine.putOut
  split
  · exact h
  · exact h.modCv.writeUnits

theorem Formed.addShare (h : Formed s) {id : Nat} {us : List CvUnit} : Formed (addShare id us s) := h.modCv

theorem Formed.finishUnits (h : Formed s) {id off : Nat} {us : List CvUnit} : Formed (finishUnits id off us s) := by
  unfold Machine.finishUnits
  split
  · exact h
  · extract_lets _ s1 s2
    have hs1 : Formed s1 := by
      unfold s1
      split
      · exact h.foldl fun _ _ ht => ht.applyBlock
      · exact h
    have hs2 : Formed s2 := hs1.addShare.putOut
    exact .ite hs2.pushUnits hs2

theorem Formed.grantMore (h : Formed s) {id fuel : Nat} : Formed (grantMore id fuel s) := by
  induction fuel generalizing s with
  | zero => exact h
  | succ fuel ih =>
    unfold Machine.grantMore
    split
    · exact h
    · exact .ite h (ih (.ite h.modCv h.modCv.sendReady))

theorem Formed.takeLeaves (h : Formed s) {id member off : Nat} {us : List CvUnit} :
    Formed (takeLeaves id member off us s) := by
  unfold Machine.takeLeaves
  extract_lets s1
  have hs1 : Formed s1 := h.modCv
  split
  · exact hs1
  · exact .ite hs1.finishUnits hs1.grantMore

theorem Formed.topkDown (h : Formed s) {id : Nat} {l : List CvUnit} : Formed (topkDown id l s) := by
  unfold Machine.topkDown
  split
  · exact h
  · exact h.putOut.foldl fun _ _ ht => ht.pushUnits

theorem Formed.topkUp (h : Formed s) {id : Nat} : Formed (topkUp id s) := by
  unfold Machine.topkUp
  split
  · exact h
  · exact .ite h (.ite h.addShare.topkDown h.pushUnits)

theorem Formed.takeData (h : Formed s) {id member stage off hi : Nat} {payload : List Byte} {marks : List Nat} :
    Formed (takeData id member stage off hi payload marks s) := by
  unfold Machine.takeData
  split
  · exact h
  · extract_lets _ _ r _ s1
    have hr : Formed r.2 := h.combineUnits
    have hs1 : Formed s1 := h.putOut
    split
    · exact .ite h.takeLeaves (.ite hr.finishUnits hr.pushUnits)
    · exact .ite hs1 hs1.pushUnits
    · exact .ite h.topkDown (h.putOut.foldl fun _ _ ht => ht.pushUnits)
    · exact h.modCv.topkUp
    · exact h.permData

theorem Formed.freeRange (h : Formed s) {a n : Nat} :
    Formed (freeRange a n s) := h.foldl fun _ _ ht => ht.drawFree.writeSector

theorem Formed.sendEnded (h : Formed s) {e : Ended} {member sub : Nat} {payload : List Byte} :
    Formed (sendEnded e member sub payload s) := by
  unfold Machine.sendEnded
  exact h.modPeer

theorem Formed.answerEnded (h : Formed s) {e : Ended} {member : Nat} : Formed (answerEnded e member s) :=
  .ite h.sendEnded h.sendEnded

theorem Formed.unpark (h : Formed s) {id : Nat} : Formed (unpark id s).2 := h.elsewhere

theorem Formed.endReshard (h : Formed s) {c : Caravan} {p : Option Permute} {ok : Bool} {cause : Nat} :
    Formed (endReshard c p ok cause s) := by
  unfold Machine.endReshard
  extract_lets finish
  have hfinish : ∀ a u, Formed u → Formed (finish a u) := fun _ _ hu => hu.noteEvent.elsewhere
  refine .ite h.elsewhere ?_
  split
  · exact .ite h (hfinish _ _ h)
  · exact .ite (hfinish _ _ h.jSetState) h.elsewhere

theorem Formed.endCv (h : Formed s) {id : Nat} {ok : Bool} {cause member : Nat} : Formed (endCv id ok cause member s) := by
  unfold Machine.endCv
  split
  · exact h
  · extract_lets _ _ _ _ s1 s2 _ _ s3 s4 s5 u s6
    have hs1 : Formed s1 := h.elsewhere.countCl
    have hs2 : Formed s2 := .ite hs1 hs1.freeRange
    have hs3 : Formed s3 := .ite hs2.endReshard hs2
    have hs4 : Formed s4 := hs3.postCompletion
    have hs5 : Formed s5 := hs4.ueEnded
    have hu : Formed u.2 := hs5.unpark
    have hs6 : Formed s6 := by
      unfold s6
      refine hu.foldl ?_
      intro t x ht
      refine .ite ht.elsewhere ?_
      split
      · exact .ite ht.answerEnded ht.countCl
      · exact ht.countCl
    exact hs6.orderCaravans

theorem Formed.sendDown (h : Formed s) {c : Caravan} {sub : Nat} {payload : List Byte} : Formed (sendDown c sub payload s) :=
  h.foldl fun _ _ ht => ht.sendCv

theorem Formed.tellAbort (h : Formed s) {c : Caravan} {cause member : Nat} : Formed (tellAbort c cause member s) :=
  .ite h.sendDown h.sendCv

theorem Formed.askStatus (h : Formed s) {id cause member : Nat} : Formed (askStatus id cause member s) := by
  unfold Machine.askStatus
  split
  · exact h
  · exact h.sendCv

theorem Formed.abortOwn (h : Formed s) {id cause member : Nat} {tell : Bool} : Formed (abortOwn id cause member tell s) := by
  unfold Machine.abortOwn
  split
  · exact h
  · exact .ite h.endCv.tellAbort h.endCv

theorem Formed.foundBad (h : Formed s) {id cause member : Nat} : Formed (foundBad id cause member s) := by
  unfold Machine.foundBad
  split
  · exact h
  · exact .ite (.ite h.abortOwn h.askStatus) h.abortOwn

theorem Formed.takeAbort (h : Formed s) {id cause member : Nat} {payload : List Byte} :
    Formed (takeAbort id cause member payload s) := by
  unfold Machine.takeAbort
  split
  · exact h
  · exact .ite (.ite h h.turnBack.sendDown) h.endCv.sendDown

theorem Formed.progress (h : Formed s) {id : Nat} : Formed (progress id s) := by
  unfold Machine.progress
  split
  · exact h
  · exact .ite h (.ite h.endCv.sendDown h.modCv.sendCv)

theorem Formed.noteAllDone (h : Formed s) {id : Nat} : Formed (noteAllDone id s) := by
  unfold Machine.noteAllDone
  split
  · exact h
  · exact .ite h.jSetState.modLong h

theorem Formed.settleCv (h : Formed s) {id : Nat} : Formed (settleCv id s) := by
  unfold Machine.settleCv
  split
  · exact h.progress
  · exact h.leadWaiting.startCycles.noteAllDone.progress

theorem Formed.startKind (h : Formed s) {id : Nat} : Formed (startKind id s) := by
  unfold Machine.startKind
  split
  · exact h
  · extract_lets _ _ own s1 s2 _ r2 g1 g2 _ k2
    have hown : Formed own := h.modCv
    have hs1 : Formed s1 := hown.foldl fun _ _ ht => ht.pushUnits
    have hs2 : Formed s2 := .ite (.ite hs1.sendReady hs1) hs1.grantMore
    have hr2 : Formed r2 := h.modCv.addShare.putOut
    have hg1 : Formed g1 := h.modCv
    have hg2 : Formed g2 := hg1.addShare.putOut
    have hk2 : Formed k2 := .foldl h.modCv fun _ _ ht => ht.sendReady
    refine .ite (.ite hs2 hs2.takeLeaves)
      (.ite (.ite hown.finishUnits hown.sendReady.pushUnits) (.ite ?_ (.ite ?_ hk2.topkUp)))
    · exact .ite hr2 hr2.sendReady.pushUnits
    · exact .ite (hg2.foldl fun _ _ ht => ht.pushUnits) hg1.sendReady

theorem Formed.openCv (h : Formed s) {id : Nat} : Formed (openCv id s) := by
  unfold Machine.openCv
  split
  · exact h
  · extract_lets _ s0 s1 s2 r t
    have hs0 : Formed s0 := h.elsewhere
    have hs1 : Formed s1 := .modCv (.ite hs0.noteReads hs0)
    have hs2 : Formed s2 := .ite hs1.foldCells hs1
    have hr : Formed r.2 := by
      unfold r
      split
      · exact hs2
      · exact hs2.readUnits
    have ht : Formed t.2 := hr.thinUnits
    refine .ite ?_ ht.modCv.startKind
    split
    next s2 hs => exact hs1.permStart hs
    · exact hs1.abortOwn

/-! ### The rows of collectives -/

theorem Formed.parkPacket (h : Formed s) {k : Packet} : Formed (parkPacket k s) := .ite h.countCl h.elsewhere

theorem Formed.takeDone (h : Formed s) {id member : Nat} {payload : List Byte} : Formed (takeDone id member payload s) :=
  h.modCv

theorem Formed.takeReady (h : Formed s) {id member : Nat} : Formed (takeReady id member s) := by
  unfold Machine.takeReady
  split
  · exact h
  · exact .ite h h.modCv.pumpSends

theorem Formed.takeAsk (h : Formed s) {id member : Nat} {p : Permute} {k : Packet} : Formed (takeAsk id member p k s) := by
  unfold Machine.takeAsk
  extract_lets _ s1
  have hs1 : Formed s1 := by
    unfold s1
    split
    · exact .ite h.noticeCycle h
    · exact h
  exact .ite h.parkPacket (.ite h.sendNothing hs1.serveReady)

theorem Formed.takeCommit (h : Formed s) {id : Nat} {payload : List Byte} : Formed (takeCommit id payload s) := by
  unfold Machine.takeCommit
  split
  · exact h
  · exact .ite h h.modCv.endCv.sendDown

theorem Formed.takeStatusReq (h : Formed s) {id : Nat} {payload : List Byte} : Formed (takeStatusReq id payload s) := by
  unfold Machine.takeStatusReq
  split
  · exact h
  · exact .ite h.abortOwn h

theorem Formed.takePacket (h : Formed s) {id member : Nat} {k : Packet} : Formed (takePacket id member k s) := by
  unfold Machine.takePacket
  refine .settleCv ?_
  split
  · exact h.modCv.takeData
  · split
    · exact h.takeAsk
    · exact h.takeReady
  · exact h.takeDone
  · exact h.takeCommit
  · exact h.takeAbort
  · exact h.takeStatusReq
  · exact h.cyclePacket

theorem Formed.packetLive (h : Formed s) {c : Caravan} {k : Packet} : Formed (packetLive c k s) := by
  unfold Machine.packetLive
  extract_lets _ from?
  refine .ite (.ite h.abortOwn h.countCl) ?_
  clear_value from?
  split
  · exact h
  · refine .ite ?_ h.takePacket
    split
    · exact h.countCl
    · exact h.takeDone
    · exact h.takeAbort
    · exact h.parkPacket

theorem Formed.packetOther (h : Formed s) {k : Packet} : Formed (packetOther k s) := by
  unfold Machine.packetOther
  split
  · split
    · exact .ite h.answerEnded h.countCl
    · exact h.countCl
  · exact .ite h.countCl (.ite h.parkPacket.modPeer h.parkPacket)

theorem Formed.enginePacket (h : Formed s) {k : Packet} : Formed (enginePacket k s) := by
  unfold Machine.enginePacket
  split
  · exact h.packetLive
  · exact h.packetOther

theorem Formed.takeEngine (h : Formed s) {sub : Nat} : Formed (takeEngine sub s) := by
  unfold Machine.takeEngine
  split
  · exact h.lkElse
  · exact .ite h.lkElse.enginePacket h.lkElse

theorem Formed.replayTurned (h : Formed s) {id : Nat} : Formed (replayTurned id s) := by
  unfold Machine.replayTurned
  split
  · exact .ite (h.unpark.foldl fun _ _ ht => ht.enginePacket) h
  · exact h

theorem Formed.execAbort (h : Formed s) : OutFormed (execAbort s) := by
  unfold Machine.execAbort
  refine .next ?_
  extract_lets s1
  have hs1 : Formed s1 := h.takeEngine
  split
  · exact .ite hs1.replayTurned hs1
  · exact hs1

theorem Formed.refuseDesc (h : Formed s) {handle status : Nat} {reshard : Bool} :
    Formed (refuseDesc handle status reshard s) :=
  .postCompletion (.ite (.elsewhere (.ite h.elsewhere.noteEvent h)) (.ite h.elsewhere.noteEvent h))

theorem Formed.postDesc (h : Formed s) {handle : Nat} {d : CollDesc} {ranks : List Nat} {me : Nat} {role : CvRole} :
    Formed (postDesc handle d ranks me role s) :=
  .orderCaravans (h.elsewhere.unpark.foldl fun _ _ ht => ht.enginePacket)

theorem Formed.takeDesc (h : Formed s) {handle : Nat} {d : CollDesc} : Formed (takeDesc handle d s) := by
  unfold Machine.takeDesc
  extract_lets s'
  have hs' : Formed s' := .noteTable (.ite h.noteReads h)
  refine .ite hs'.refuseDesc ?_
  split
  · exact hs'.refuseDesc
  · split
    · exact hs'.refuseDesc
    · exact .ite hs'.refuseDesc hs'.postDesc

theorem Formed.execCollDesc (h : Formed s) : OutFormed (execCollDesc s) := by
  unfold Machine.execCollDesc
  refine .next ?_
  split
  · exact h.popDown.takeDesc
  · exact h

theorem Formed.execCaravanOpen (h : Formed s) {id : Nat} : OutFormed (execCaravanOpen id s) := by
  unfold Machine.execCaravanOpen
  refine .next ?_
  split
  · exact h
  · refine .ite h (.ite h.elsewhere.refuseDesc (.ite h ?_))
    exact .settleCv (h.openCv.unpark.foldl fun _ _ ht => ht.enginePacket)

theorem Formed.execReadyResend (h : Formed s) {id : Nat} : OutFormed (execReadyResend id s) := by
  unfold Machine.execReadyResend
  refine .next ?_
  split
  · exact h
  · exact .ite h (.ite h.askAgain.permKick.settleCv (h.foldl fun _ _ ht => ht.sendCv.countCl))

theorem Formed.execCaravanTimeout (h : Formed s) {id : Nat} : OutFormed (execCaravanTimeout id s) := by
  unfold Machine.execCaravanTimeout
  refine .next ?_
  split
  · exact h
  · split
    · exact h.abortOwn
    · exact h.abortOwn
    · exact .ite h.abortOwn h.modCv.askStatus

theorem Formed.packetFailed (h : Formed s) {cause : Nat} {k : Packet} : Formed (packetFailed cause k s) := by
  unfold Machine.packetFailed
  split
  · exact h
  · refine .ite h ?_
    split
    · exact h.foundBad
    · exact h

theorem Formed.packetAcked (h : Formed s) {k : Packet} : Formed (packetAcked k s) := by
  unfold Machine.packetAcked
  split
  · exact h
  · refine .ite h ?_
    extract_lets _ s1
    have hs1 : Formed s1 := h.modCv
    split
    · exact .settleCv (.ite hs1.permAcked hs1)
    · exact hs1.settleCv

theorem Formed.resendOrFail (h : Formed s) {dest seq : Nat} : Formed (resendOrFail dest seq s) := by
  unfold Machine.resendOrFail
  refine .ite h.resendHeld ?_
  extract_lets
  split
  · exact h
  · exact h.setPeer.countDrop.packetFailed

theorem Formed.releaseHeld (h : Formed s) {k : Packet} {named : Bool} : Formed (releaseHeld k named s) :=
  h.setPeer.foldl fun _ _ ht => ht.packetAcked

theorem Formed.execPacketInject (h : Formed s) {dest : Nat} : OutFormed (execPacketInject dest s) := by
  unfold Machine.execPacketInject
  refine .next ?_
  extract_lets
  split
  · exact h
  · extract_lets popped
    have hpopped : Formed popped := h.setPeer
    exact .ite hpopped.countDrop.packetFailed
      (.ite hpopped.packetFailed (.ite hpopped.packetFailed (.ite hpopped.injectData h)))

theorem Formed.execAck (h : Formed s) : OutFormed (execAck s) := by
  unfold Machine.execAck
  refine .next ?_
  split
  · exact h
  · exact .ite h.popRx.countDrop h.popRx.releaseHeld

theorem Formed.execPacketNack (h : Formed s) : OutFormed (execPacketNack s) := by
  unfold Machine.execPacketNack
  refine .next ?_
  split
  · exact h
  · exact .ite h.popRx.countDrop h.popRx.releaseHeld.resendOrFail

theorem Formed.execFenced (h : Formed s) : OutFormed (execFenced s) := by
  unfold Machine.execFenced
  refine .next ?_
  split
  · exact h
  · extract_lets s1
    have hs1 : Formed s1 := h.popRx
    refine .ite hs1.countDrop ?_
    split
    · exact hs1
    · exact hs1.setPeer.packetFailed

theorem Formed.execResendTimeout (h : Formed s) {dest seq : Nat} : OutFormed (execResendTimeout dest seq s) := by
  unfold Machine.execResendTimeout
  refine .next ?_
  extract_lets _ _ s1
  have hs1 : Formed s1 := h.setPeer.logPeerError
  split
  · exact h
  · exact .ite h.setPeer.resendOrFail (hs1.foldl fun _ _ ht => ht.packetFailed)

theorem Formed.fencePeer (h : Formed s) {rank : Nat} : Formed (fencePeer rank s) := by
  unfold Machine.fencePeer
  extract_lets _ _ s1 s2
  have hs1 : Formed s1 := h.lkElse.setPeer
  have hs2 : Formed s2 := hs1.foldl fun _ _ ht => ht.packetFailed
  refine hs2.foldl ?_
  intro t x ht
  split
  · exact ht
  · split
    · exact ht.foundBad
    · exact ht

theorem Formed.unfencePeer (h : Formed s) {rank : Nat} : Formed (unfencePeer rank s) := .ite h.lkElse.setPeer h

theorem Formed.cancelReshard (h : Formed s) {handle : Nat} : Formed (cancelReshard handle s) := by
  unfold Machine.cancelReshard
  split
  · exact h
  · exact .ite h.abortOwn (.ite h.takeAbort.settleCv.replayTurned h.sendCv)

theorem Formed.pauseReshard (h : Formed s) {handle : Nat} {v : Bool} : Formed (pauseReshard handle v s) := by
  unfold Machine.pauseReshard
  split
  · exact h
  · exact h.modPerm.settleCv

theorem Formed.writeUeStep (h : Formed s) {v : W64} :
    Formed (writeUeStep v s) := .ite h h.elsewhere.startAttempt.orderCaravans

end Sys2Proof.Machine
end

section
/-!
PROOF. What clears the data plane, the power states and the security engine keep the form.
-/

namespace Sys2Proof.Machine

set_option Elab.async false

open Sys2Proof

variable {s t : State}

/-! ### Clearing the data plane -/

theorem Formed.loseStores (h : Formed s) : Formed (loseStores s) :=
  ⟨loseStores_memWf h.bytes, h.ports, h.holder, h.ringA, h.ringB⟩

theorem Formed.loseCores (h : Formed s) : Formed (loseCores s) := h.foldl fun _ _ ht => ht.drawFree.modCore

theorem Formed.breakScrub (h : Formed s) : Formed (breakScrub s) := by
  unfold Machine.breakScrub
  split
  · exact h
  · exact h
  · exact ⟨twfFrom_filter h.bytes, h.ports, h.holder, h.ringA, h.ringB⟩

theorem Formed.resetMc (h : Formed s) {keepRet : Bool} : Formed (resetMc keepRet s) := h.memElse

theorem Lk.portsWhole_afterReset {l : Lk} (h : PortsWhole l.ports) (b : Bool) : PortsWhole (l.afterReset b).ports := by
  have hm := h.map (f := fun v => v.afterReset b) fun v => List.length_map _
  cases b <;> exact hm

theorem Formed.resetPlane (h : Formed s) {keepRet : Bool} : Formed (resetPlane keepRet s) := by
  unfold Machine.resetPlane
  extract_lets _ s1 _ _ s2
  have hs1 : Formed s1 := h.breakScrub.resetMc
  have hs2 : Formed s2 := ⟨hs1.bytes, Lk.portsWhole_afterReset hs1.ports keepRet, hs1.holder, hs1.ringA, hs1.ringB⟩
  exact hs2.endDebugHalts.forgetTotals.relampAll

theorem Formed.findJournal (h : Formed s) {cold : Bool} : Formed (findJournal cold s) := by
  unfold Machine.findJournal
  extract_lets s'
  have hs' : Formed s' := .ite h h.noteReads.noteReads
  split
  · exact .ite hs'.elsewhere hs'.elsewhere
  · exact hs'.elsewhere

theorem Formed.beginScrub (h : Formed s) : Formed (beginScrub s) := h.memElse

theorem Formed.retireEpoch (h : Formed s) : Formed (retireEpoch s) := by
  unfold Machine.retireEpoch
  split
  · exact h
  · exact h.lkElse.complete

theorem Formed.endScrub (h : Formed s) {tests : List SelfTest} : Formed (endScrub tests s) := by
  unfold Machine.endScrub
  extract_lets _ _ _ _ _ _ s1 s2
  have hs1 : Formed s1 := ⟨rfl, h.ports, h.holder, h.ringA, h.ringB⟩
  have hs2 : Formed s2 := hs1.retireEpoch.foldl fun _ _ ht => ht.recordTest
  exact .ite hs2.noteEvent hs2

/-! ### Power states -/

theorem Formed.hold (h : Formed s) {n cause : Nat} (hn : n ≤ 2) :
    Formed { s with cp := { s.cp with holder := n, cause := cause } } := ⟨h.bytes, h.ports, hn, h.ringA, h.ringB⟩

theorem Formed.freeToken (h : Formed s) {cause : Nat} : Formed (freeToken cause s) := (h.hold (Nat.zero_le 2)).postEvent

/-- A ring that is not enabled keeps nothing of records. -/
theorem PortCp.ringOk_off {c : PortCp} (h : c.cqEntries = 6) : c.RingOk := by
  intro hon
  rw [h] at hon
  exact absurd hon (by decide)

theorem Formed.resetPort (h : Formed s) {port : Nat} {kind : PortResetKind} : Formed (resetPort port kind s) := by
  unfold Machine.resetPort
  extract_lets s1 _ _ s2
  have hs1 : Formed s1 := h.modCp fun _ _ => PortCp.ringOk_off rfl
  have hs2 : Formed s2 := hs1.cpElse.bbEvent
  exact .ite hs2.freeToken hs2

theorem Formed.breakUpdate (h : Formed s) : Formed (breakUpdate s) := .ite h.drawFree.elsewhere h

theorem Formed.endUnlock (h : Formed s) {cause : Nat} : Formed (endUnlock cause s) := by
  unfold Machine.endUnlock
  split
  · exact h
  · exact h.elsewhere.complete

theorem Formed.dropCommands (h : Formed s) {hs : List Nat} : Formed (dropCommands hs s) := by
  unfold Machine.dropCommands
  exact h.modCp.modCp

theorem Formed.endWork (h : Formed s) : Formed (endWork s) := h.breakUpdate.dropCommands.cpElse

theorem Formed.failCommands (h : Formed s) : Formed (failCommands s) :=
  h.foldl fun _ _ ht => ht.foldl fun _ _ ht1 => .ite ht1.dropCommands (.ite ht1.endCommand ht1.endCommand)

theorem Formed.enterP4 (h : Formed s) : Formed (enterP4 s) := by
  unfold Machine.enterP4
  extract_lets s1 s2 _ s3
  have hs1 : Formed s1 := h.postEvent.endUnlock.endLevel
  have hs2 : Formed s2 := hs1.resetPlane
  have hs3 : Formed s3 := hs2.modCp.modCp
  clear_value s3
  exact .relampAll ⟨hs3.bytes, hs3.ports.map, hs3.holder, hs3.ringA, hs3.ringB⟩

theorem Formed.drainForP3 (h : Formed s) : Formed (drainForP3 s) := by
  unfold Machine.drainForP3
  refine h.foldl ?_
  intro t x ht
  split
  · exact ht.modPort.enterPort
  · exact ht.modPort
  · exact ht.enterPort
  · exact ht.enterPort
  · exact ht.enterPort
  · exact ht

theorem Formed.withdrawP3 (h : Formed s) : Formed (withdrawP3 s) := .ite h.mapPorts h

theorem Formed.beginTransition (h : Formed s) {t0 : PowerState} {hdr : Option Nat} : Formed (beginTransition t0 hdr s) := by
  unfold Machine.beginTransition
  extract_lets old _ s1 _ old_3
  have hold : Formed old := h.withdrawP3
  have hs1 : Formed s1 := hold.elsewhere
  have hold_3 : Formed old_3 := hs1.drainForP3
  split
  · exact hs1.elsewhere.bbEvent
  · exact hold_3.elsewhere
  · exact .ite hs1.capAll.failCommands.bbEvent.elsewhere hs1.capAll

theorem Formed.followPower (h : Formed s) {hdr : Option Nat} : Formed (followPower hdr s) := by
  unfold Machine.followPower
  extract_lets done _ _ _ s1
  have hdone : ∀ u, Formed u → Formed (done u) := by
    intro u hu
    unfold done
    split
    · exact hu.complete
    · exact hu
  have hs1 : Formed s1 := h.elsewhere
  refine .ite h (.ite (.ite hs1.capAll hs1) (.ite (hdone _ (.ite h.capAll h)) ?_))
  exact .ite h.elsewhere.beginTransition (.ite h.endWork.beginTransition h.beginTransition)

theorem Formed.commandPower (h : Formed s) {n cap : Nat} {hdr : Option Nat} : Formed (commandPower n cap hdr s) :=
  h.elsewhere.followPower

theorem Formed.blankDefault (h : Formed s) : Formed (blankDefault s) := .ite h.elsewhere h

theorem Formed.enterP3 (h : Formed s) : Formed (enterP3 s) := by
  unfold Machine.enterP3
  extract_lets s1 s2 _ s3
  have hs1 : Formed s1 := h.endUnlock.endLevel
  have hs2 : Formed s2 := hs1.resetPlane.loseStores.loseCores
  have hs3 : Formed s3 := hs2.memElse.findJournal
  clear_value s3
  exact hs3.mapPorts

theorem Port.length_widened (v : Port) : v.widened.lanes.length = v.lanes.length := by simp [Port.widened]

theorem Port.length_narrowed (v : Port) : v.narrowed.lanes.length = v.lanes.length := List.length_map _

theorem Formed.narrowPorts (h : Formed s) {on : Bool} : Formed (narrowPorts on s) := by
  refine h.foldl fun _ _ ht => ht.modPort fun v => ?_
  split
  · split
    · exact v.length_narrowed
    · rfl
  · split
    · exact v.length_widened
    · rfl

theorem Formed.reachState (h : Formed s) {t0 : PowerState} {hs : List Nat} : Formed (reachState t0 hs s) := by
  unfold Machine.reachState
  extract_lets _ s1 _ s2 _ s3
  have hs1 : Formed s1 := by
    unfold s1
    split
    · exact h.enterP3
    · exact h.narrowPorts
    · exact .ite h.narrowPorts h
  have hs2 : Formed s2 := hs1.elsewhere
  have hs3 : Formed s3 := .ite hs2 hs2.bbEvent.postEvent
  exact .relampAll (hs3.foldl fun _ _ ht => ht.complete)

theorem Formed.execPowerTransitionDone (h : Formed s) : OutFormed (execPowerTransitionDone s) := by
  unfold Machine.execPowerTransitionDone
  refine .next ?_
  split
  · exact h
  · exact h.enterP4
  · exact .ite h h.reachState
  · refine .ite (.ite ?_ h) h.reachState
    exact .reachState (.ite h.elsewhere.blankDefault.capAll h.elsewhere.blankDefault)

theorem Formed.execPowerSample (h : Formed s) {mv ma mw : Nat} : OutFormed (execPowerSample mv ma mw s) := by
  unfold Machine.execPowerSample
  extract_lets _ _ _ s1 _ _ s2 s3
  have hs1 : Formed s1 := h.elsewhere
  have hs2 : Formed s2 := hs1.elsewhere
  have hs3 : Formed s3 := hs2.foldl fun _ _ ht => ht.setCap
  exact .next (.ite (.ite hs3.postOrder hs3) hs1)

theorem Formed.stepFails (h : Formed s) {p : Nat} : Formed (stepFails p s) := by
  unfold Machine.stepFails
  split
  · exact h.enterPort
  · exact h.enterPort
  · exact h.enterPort
  · exact h.enterPort
  · exact h.enterPort
  · exact h.enterPort
  · exact h

theorem Formed.dieLost (h : Formed s) {d : Nat} : Formed (dieLost d s) := by
  unfold Machine.dieLost
  refine h.foldl ?_
  intro t x ht
  extract_lets
  split
  · exact ht.setClusterMap
  · exact ht.setClusterMap
  · exact ht

theorem Formed.haltLost (h : Formed s) {d : Nat} : Formed (haltLost d s) := .ite h.postOrder h

theorem Formed.pairLost (h : Formed s) {i : Nat} : Formed (pairLost i s) := by
  unfold Machine.pairLost
  extract_lets _ s1
  have hs1 : Formed s1 := h.elsewhere
  exact .ite (.haltLost (.ite hs1.dieLost.saveRepair hs1)) (.ite hs1.stepFails (.ite hs1.resetPort.followPower hs1.elsewhere))

theorem Formed.pllFails (h : Formed s) {i : Nat} {spare : Bool} : Formed (pllFails i spare s) :=
  .ite h (.ite h (.ite h.elsewhere.pairLost (.ite h.elsewhere h.elsewhere.elsewhere.bbEvent)))

/-! ### The security engine -/

theorem Formed.setSlot (h : Formed s) {x : Nat} {img : List Byte} {st : Nat} : Formed (setSlot x img st s) := h.elsewhere

theorem Formed.bootFirmware (h : Formed s) {failed : List Nat} : Formed (bootFirmware failed s) := h.elsewhere

theorem Formed.raiseRollback (h : Formed s) : Formed (raiseRollback s) := .ite h.drawFree.elsewhere.bbEvent h

theorem Formed.refuseUnlock (h : Formed s) {handle cause : Nat} : Formed (refuseUnlock handle cause s) := h.elsewhere.complete

theorem Formed.grantUnlock (h : Formed s) {handle level auth : Nat} {token : List Byte} :
    Formed (grantUnlock handle level auth token s) :=
  .ite h.elsewhere.bbEvent.complete (.complete (.ite h.elsewhere.bbEvent.commandPower h.elsewhere.bbEvent))

theorem Formed.startUnlockScrub (h : Formed s) : Formed (startUnlockScrub s) := .ite h.elsewhere h.elsewhere.beginScrub

theorem Formed.unlockOn (h : Formed s) : Formed (unlockOn s) := by
  unfold Machine.unlockOn
  split
  · exact h
  · exact .ite h.startUnlockScrub h.grantUnlock

theorem Formed.lowerLevel (h : Formed s) {handle level : Nat} : Formed (lowerLevel handle level s) := by
  unfold Machine.lowerLevel
  extract_lets _ _ s1 _ free _ s2
  have hs1 : Formed s1 := h.elsewhere
  have hfree : Formed free := .ite hs1 hs1.postOrder
  have hs2 : Formed s2 := .ite hfree.elsewhere hs1
  exact .complete (.ite hs2.bbEvent hs2)

theorem Formed.startUnlock (h : Formed s) {handle level : Nat} {token : List Byte} :
    Formed (startUnlock handle level token s) := by
  unfold Machine.startUnlock
  refine .ite h.lowerLevel (.ite h.grantUnlock ?_)
  extract_lets _ s1
  have hs1 : Formed s1 := h.elsewhere
  split
  · exact .ite hs1.elsewhere.elsewhere hs1.elsewhere.unlockOn
  · exact hs1.refuseUnlock
  · exact hs1.refuseUnlock

theorem Formed.execPresenceTimeout (h : Formed s) : OutFormed (execPresenceTimeout s) := by
  unfold Machine.execPresenceTimeout
  refine .next ?_
  split
  · exact .ite h.elsewhere.refuseUnlock h
  · exact h

theorem Formed.execUnlockScrubDone (h : Formed s) {tests : List SelfTest} : OutFormed (execUnlockScrubDone tests s) := by
  unfold Machine.execUnlockScrubDone
  refine .next ?_
  split
  · exact .ite (.grantUnlock (.endScrub (.ite h h.beginScrub))) h
  · exact h

theorem Formed.drawNonce (h : Formed s) : Formed (drawNonce s) := h.drawFree.elsewhere

theorem Formed.dbRefuse (h : Formed s) {cause : Nat} : Formed (dbRefuse cause s) := h.elsewhere

theorem Formed.dbCtrlWrite (h : Formed s) {v : W32} : Formed (dbCtrlWrite v s) := by
  unfold Machine.dbCtrlWrite
  extract_lets _ _ _ _ _ s1 s2 s3 _ _ r old_1
  have hs1 : Formed s1 := h.elsewhere
  have hs2 : Formed s2 := .ite hs1.postOrder hs1
  have hs3 : Formed s3 := .ite hs2.postOrder hs2
  have hr : Formed r.2 := hs3.drawFree
  have hold_1 : Formed old_1 := hr
  exact .ite h.dbRefuse (.ite h.dbRefuse (.ite hold_1.elsewhere hs3.elsewhere))

theorem Formed.dbCtrl (h : Formed s) {steward : Bool} {v : W32} : Formed (dbCtrl steward v s) :=
  .ite h.dbRefuse (.ite h.dbRefuse h.dbCtrlWrite)

theorem Formed.signReport (h : Formed s) : Formed (signReport s) := h.elsewhere

end Sys2Proof.Machine
end

section
/-!
PROOF. The host commands, the completion ring and the long operations keep the form.
-/

namespace Sys2Proof.Machine

set_option Elab.async false

open Sys2Proof

variable {s t : State}

/-! ### What commands do -/

theorem Formed.hostPut (h : Formed s) {port a : Nat} {bs : List Byte} {bad : Bool} : Formed (hostPut port a bs bad s) := by
  unfold Machine.hostPut
  extract_lets r s1
  have hr : Formed r.2 := by
    unfold r
    split
    · exact h.drawFree
    · exact h
  have hs1 : Formed s1 := hr.hostWrite
  exact hs1.elsewhere

theorem Formed.devicePut (h : Formed s) {handle a : Nat} {bs : List Byte} {bad : Bool} :
    Formed (devicePut handle a bs bad s) :=
  h.foldl fun _ _ ht => .ite ht.countHostFault ht.hostSector

theorem Formed.copyFrom (h : Formed s) {port handle src dst dir n i : Nat} {acc : Option Nat × Nat} :
    Formed (copyFrom port handle src dst dir n i acc s).2 := by
  induction n generalizing s i acc with
  | zero => exact h
  | succ n ih =>
    have hs0 : Formed (if dir = 1 then s else Machine.noteReads s (src + 32 * i) 32) := .ite h h.noteReads
    exact ih (.ite hs0.hostPut hs0.devicePut)

theorem Formed.runCopy (h : Formed s) {port handle src dst len dir : Nat} : Formed (runCopy port handle src dst len dir s) :=
  h.copyFrom.memElse.settleCopies

theorem Formed.writeRoutes (h : Formed s) {epoch down detour : Nat} : Formed (writeRoutes epoch down detour s) := by
  unfold Machine.writeRoutes
  extract_lets
  split <;> exact h.lkElse

theorem Formed.switchEpoch (h : Formed s) {epoch handle : Nat} : Formed (switchEpoch epoch handle s) := h.lkElse

theorem Formed.forceRelease (h : Formed s) {p handle : Nat} : Formed (forceRelease p handle s) := by
  unfold Machine.forceRelease
  exact .releasePort (.ite (h.foldl fun _ _ ht => ht.fencePeer) h)

theorem Formed.admitPort (h : Formed s) {p handle : Nat} : Formed (admitPort p handle s) := .complete (.ite h.enterPort h)

theorem Formed.suspendOp (h : Formed s) {handle t0 : Nat} : Formed (suspendOp handle t0 s) := by
  unfold Machine.suspendOp
  split
  · exact h.complete
  · split
    · extract_lets s1
      have hs1 : Formed s1 := by
        unfold s1
        split
        · exact h.complete
        · exact h
      exact hs1.modLong.complete
    · exact .ite h.complete (.ite h.modLong.pauseReshard h.modLong)
    · exact h.complete

theorem Formed.resumeOp (h : Formed s) {handle t0 : Nat} : Formed (resumeOp handle t0 s) := by
  unfold Machine.resumeOp
  split
  · exact .ite h.complete (.ite (.complete (.ite h.modLong.pauseReshard h.modLong)) h.modLong)
  · exact h.complete

theorem Formed.dropFenced (h : Formed s) {handle : Nat} : Formed (dropFenced handle s) := by
  unfold Machine.dropFenced
  exact h.modCp.modCp

theorem Formed.cancelOp (h : Formed s) {handle t0 : Nat} : Formed (cancelOp handle t0 s) := by
  unfold Machine.cancelOp
  split
  · exact h.complete
  · refine .ite h.complete ?_
    split
    · exact h.complete
    · exact h.dropFenced.cancelLoad.modLong.longDone
    · extract_lets s1 s2
      have hs1 : Formed s1 := by
        unfold s1
        split
        · exact h.complete
        · exact h
      have hs2 : Formed s2 := hs1.modLong
      exact .ite hs2.cancelReshard hs2.dropFenced.cancelLoad

theorem Formed.longImage (h : Formed s) {l : LongOp} : Formed (longImage l s).2 := by
  unfold Machine.longImage
  cases l.ran
  · exact h
  · exact h.elsewhere

theorem Formed.queryDevice (h : Formed s) {port handle : Nat} : Formed (queryDevice port handle s) := h.complete

theorem Formed.queryLong (h : Formed s) {handle t0 : Nat} : Formed (queryLong handle t0 s) := by
  unfold Machine.queryLong
  split
  · exact h.longImage.complete
  · exact h.complete

theorem Formed.queueLoad (h : Formed s) {handle addr bytes : Nat} : Formed (queueLoad handle addr bytes s) :=
  h.setLoads.sendLoad

theorem Formed.startRun (h : Formed s) {handle : Nat} {c : Instr} : Formed (startRun handle c s) := by
  unfold Machine.startRun
  split
  · exact .ite h.elsewhere h.openRun
  · exact h

theorem Formed.carryOut (h : Formed s) {handle port : Nat} {c : Instr} : Formed (carryOut handle port c s) := by
  unfold Machine.carryOut
  split
  · exact h.queueLoad
  · exact h.requestSwitch
  · exact h.startRun
  · exact h.startRun
  · exact h.postDown
  · exact h.postDown
  · exact h.postDown
  · exact h.postDown
  · exact h.postDown
  · exact h.fencePeer.complete
  · exact h.unfencePeer.complete
  · exact h.writeRoutes.complete
  · exact h.switchEpoch
  · exact h.runCopy
  · exact h.suspendOp
  · exact h.resumeOp
  · exact h.cancelOp
  · exact h.queryDevice
  · exact h.queryLong
  · exact h.releasePort
  · exact h.forceRelease
  · exact h.admitPort
  · exact h.complete
  · exact h.hostWrite.signReport.complete
  · exact h.commandPower
  · exact h.cpElse
  · exact h.complete
  · split
    · exact h.startUnlock
    · exact h

theorem Formed.startCommand (h : Formed s) {handle port : Nat} {c : Instr} : Formed (startCommand handle port c s) :=
  .ite (.ite h.carryOut h) (.ite h.complete h.carryOut)

/-! ### Acceptance and completion -/

theorem Formed.enroll (h : Formed s) {hdr : CmdHdr} {op : Nat} : Formed (enroll hdr op s) := h.modCp

theorem Formed.rememberPlain (h : Formed s) {handle : Nat} : Formed (rememberPlain handle s) := h.cpElse

theorem Formed.refuse (h : Formed s) {port handle status : Nat} : Formed (refuse port handle status s) :=
  h.countCpFault.complete

theorem Formed.enterLong (h : Formed s) {handle op : Nat} {c : Instr} : Formed (enterLong handle op c s) := by
  unfold Machine.enterLong
  extract_lets s'
  have hs' : Formed s' := by
    unfold s'
    split
    · exact h.noteReads
    · exact h
  exact hs'.cpElse

theorem Formed.releaseOn (h : Formed s) {port n : Nat} : Formed (releaseOn port n s) := by
  induction n generalizing s with
  | zero => exact h
  | succ n ih =>
    unfold Machine.releaseOn
    split
    · exact h
    · exact .ite h (ih h.modCp.startCommand)

theorem Formed.releaseFenced (h : Formed s) : Formed (releaseFenced s) := h.releaseOn.releaseOn

theorem Formed.takeIn (h : Formed s) {handle op : Nat} {hdr : CmdHdr} {c : Instr} : Formed (takeIn handle op hdr c s) := by
  unfold Machine.takeIn
  extract_lets s1 s2
  have hs1 : Formed s1 := .ite h.enterLong h.rememberPlain
  have hs2 : Formed s2 := .ite hs1.freeToken hs1
  exact .ite hs2.modCp hs2.startCommand

theorem Formed.accept (h : Formed s) {hdr : CmdHdr} {op token : Nat} {c : Instr} : Formed (accept hdr op token c s) :=
  .ite h.enroll.takeIn (.refuse (.ite h.enroll h.enroll.rememberPlain))

theorem Formed.writeSlots (h : Formed s) {port off : Nat} {bytes : List Byte} :
    Formed (writeSlots port off bytes s) := h.modCp

theorem Formed.acceptSlot (h : Formed s) {port : Nat} {b : List Byte} : Formed (acceptSlot port b s) := by
  unfold Machine.acceptSlot
  extract_lets
  split
  · exact h.enroll.rememberPlain.refuse
  · refine .ite ?_ (.refuse (.ite h.enroll h.enroll.rememberPlain))
    split
    · exact h.accept
    · exact h

theorem Formed.acceptSlots (h : Formed s) {port n : Nat} : Formed (acceptSlots port n s) := by
  induction n generalizing s with
  | zero => exact h
  | succ n ih => exact .ite (ih h.acceptSlot) h

theorem Formed.acceptRow (h : Formed s) {c : Instr} : Formed (acceptRow c s) := by
  unfold Machine.acceptRow
  split
  · exact h
  · exact .ite h.accept.acceptSlots.releaseFenced h

theorem OutFormed.hostRow (h : Formed s) {hdr : CmdHdr} {c : Instr} : OutFormed (hostRow hdr c s) := .guardUnit h.acceptRow

theorem Formed.sendMsix (h : Formed s) {port vec : Nat} : Formed (sendMsix port vec s) := .ite h.setCp h.elsewhere

/-- One more record in a ring that has room. -/
theorem PortCp.ringOk_succ {c : PortCp} (h : cqRoom c = true) : ({ c with cqTail := c.cqTail + 1 } : PortCp).RingOk := by
  intro _
  have hlt : (c.cqTail - c.cqHead).toNat < cqSize c := by
    unfold cqRoom at h
    simp only [Bool.and_eq_true, decide_eq_true_eq] at h
    exact h.2
  have heq : c.cqTail + 1 - c.cqHead = (c.cqTail - c.cqHead) + 1 := by bv_omega
  have hle : ((c.cqTail - c.cqHead) + 1).toNat ≤ (c.cqTail - c.cqHead).toNat + 1 := by
    rw [BitVec.toNat_add]
    exact Nat.mod_le _ _
  exact (congrArg BitVec.toNat heq).trans_le (hle.trans hlt)

theorem Formed.putRecord (h : Formed s) {port : Nat} {r : Record} (hr : cqRoom (getCp s port) = true) :
    Formed (putRecord port r s) := by
  unfold Machine.putRecord
  extract_lets _ _ _ s1
  have hs1 : Formed s1 := h.hostWrite.setCp fun _ => PortCp.ringOk_succ hr
  exact .ite hs1 hs1.sendMsix

theorem getCp_modCp_same {s : State} (p : Nat) (f : PortCp → PortCp) :
    getCp (modCp s p f) p = f (getCp s p) := getCp_setCp_same ..

theorem Formed.putCompletion (h : Formed s) {port : Nat} {r : Record} {rest : List Record} (hr : cqRoom (getCp s port) = true) :
    Formed (putCompletion port r rest s) := by
  unfold Machine.putCompletion
  extract_lets s1 s2
  have hs1 : Formed s1 := h.modCp
  have hs2 : Formed s2 := hs1.putRecord (by rw [getCp_modCp_same]; exact hr)
  exact .acceptSlots (.ite hs2.cpElse hs2)

theorem Formed.putEvent (h : Formed s) {port : Nat} {r : Record} {rest : List Record} (hr : cqRoom (getCp s port) = true) :
    Formed (putEvent port r rest s) := by
  have hs : Formed (Machine.setCp s port { getCp s port with events := rest, lost := false }) := h.setCp
  exact hs.putRecord (by rw [getCp_setCp_same]; exact hr)

theorem Formed.execCompletionRecordWrite (h : Formed s) {port : Nat} : OutFormed (execCompletionRecordWrite port s) := by
  unfold Machine.execCompletionRecordWrite
  refine .guardUnit ?_
  extract_lets
  split
  · exact h
  next hgo =>
    have hr : cqRoom (getCp s port) = true := by
      simp only [Bool.not_eq_true', Bool.not_eq_false, Bool.and_eq_true] at hgo
      exact hgo.2
    split
    · exact (h.putCompletion hr).releaseFenced
    · exact .ite (h.putEvent hr).releaseFenced h
    · exact h

theorem Formed.writeCqHead (h : Formed s) {port : Nat} {v : W32} : Formed (writeCqHead port v s) := by
  unfold Machine.writeCqHead
  extract_lets
  split
  next hle => exact h.setCp fun _ _ => hle
  · exact h

theorem bitsOf_entries_lt (v : W32) : bitsOf v.toNat 4 0 < 32 := Nat.mod_lt _ (by decide)

/-- The register keeps the size it is written with, and its enable. -/
theorem PortCp.ringOk_entries {c : PortCp} {size : Nat} {en : Bool} (hc : c.RingOk) (hlt : size < 32)
    (hen : en = true → c.cqEntries.getLsbD 31 = true ∧ size = bitsOf c.cqEntries.toNat 4 0) :
    ({ c with cqEntries := BitVec.ofNat 32 (size + b2n en * 2 ^ 31) } : PortCp).RingOk := by
  cases en with
  | false =>
    intro hw
    have hbit : size.testBit 31 = false := Nat.testBit_lt_two_pow (hlt.trans (by decide))
    change (BitVec.ofNat 32 size).getLsbD 31 = true at hw
    simp [-BitVec.getLsbD_eq_getElem, BitVec.getLsbD_ofNat, hbit] at hw
  | true =>
    obtain ⟨hon, hsz⟩ := hen rfl
    intro _
    have hsame : bitsOf (BitVec.ofNat 32 (size + b2n true * 2 ^ 31)).toNat 4 0 = bitsOf c.cqEntries.toNat 4 0 := by
      rw [← hsz, BitVec.toNat_ofNat]
      simp only [bitsOf, b2n]
      omega
    have hsize : cqSize { c with cqEntries := BitVec.ofNat 32 (size + b2n true * 2 ^ 31) } = cqSize c := by
      unfold cqSize
      rw [hsame]
    rw [hsize]
    exact hc hon

theorem Formed.writeCqEntries (h : Formed s) {port : Nat} {v : W32} : Formed (writeCqEntries port v s) := by
  unfold Machine.writeCqEntries
  extract_lets _ on _ size
  split
  · exact h.setCp fun _ _ => (congrArg BitVec.toNat (BitVec.sub_self 0)).trans_le (Nat.zero_le _)
  next hgo =>
    refine h.setCp fun hc => PortCp.ringOk_entries hc ?_ fun hen => ?_
    · unfold size
      split <;> exact bitsOf_entries_lt _
    · have hon : on = true := by simpa [hen] using hgo
      exact ⟨hon, if_pos hon⟩

/-! ### Long operations -/

theorem Formed.checkpointRange {r : Nat × Nat} {acc : CkptOut × State} (h : Formed acc.2) :
    Formed (checkpointRange r acc).2 := by
  refine h.foldlSnd fun a x ha => ?_
  dsimp only
  split
  · exact ha.noteReads.drawFree
  · exact ha.noteReads

theorem Formed.checkpointImage (h : Formed s) {l : List (Nat × Nat)} : Formed (checkpointImage l s).2.2 :=
  h.foldlSnd fun _ _ ha => ha.checkpointRange

theorem Formed.putImage (h : Formed s) {port a head n : Nat} {img : List Byte} {bad : List Nat} :
    Formed (putImage port a head n img bad s) :=
  h.hostWrite.elsewhere

theorem Formed.runCheckpoint (h : Formed s) {port hostAddr : Nat} {l : List (Nat × Nat)} {whole : Bool} :
    Formed (runCheckpoint port hostAddr l whole s).2 := by
  unfold Machine.runCheckpoint
  extract_lets _ f
  have hf : Formed f.2 := by
    unfold f
    split
    · exact h.checkpointImage
    · exact h.checkpointImage.drawFree
  exact hf.putImage

theorem Formed.restoreRanges (h : Formed s) {port : Nat} {l : List (Nat × Nat)} {a next : Nat} {bad : List Nat} :
    Formed (restoreRanges port l a next bad s).2 := by
  induction l generalizing s a next bad with
  | nil => exact h
  | cons r rest ih => exact ih (h.foldlSnd fun _ _ ha => ha.writePieces)

theorem Formed.restoreDone (h : Formed s) : Formed (restoreDone s) := .ite h.elsewhere.noteEvent h.elsewhere

theorem Formed.runRestore (h : Formed s) {handle port a bytes flags : Nat} :
    Formed (runRestore handle port a bytes flags s) := by
  unfold Machine.runRestore
  split
  · exact h.longDone
  · exact .longDone (.restoreDone (.ite h.restoreRanges.writeUeStep h.restoreRanges))

theorem Formed.selectSlot (h : Formed s) {port a bytes : Nat} : Formed (selectSlot port a bytes s) := h.setSlot.elsewhere

theorem Formed.runUpdate (h : Formed s) {handle port a bytes : Nat} {committed : Bool} :
    Formed (runUpdate handle port a bytes committed s) :=
  .ite (.longDone (.bbEvent (.ite h h.selectSlot))) (.longDone (.ite h.setSlot.elsewhere h.setSlot))

theorem Formed.enterRunning (h : Formed s) {l : LongOp} : Formed (enterRunning l s) := by
  unfold Machine.enterRunning
  extract_lets s1
  have hs1 : Formed s1 := h.modLong
  split
  · exact hs1.complete
  · exact hs1

theorem Formed.startLong (h : Formed s) {l : LongOp} : Formed (startLong l s) := by
  unfold Machine.startLong
  split
  · split
    · exact .ite h.enterRunning.sendLoad h
    · exact h
  · exact .ite h.enterRunning h
  · exact .ite h.enterRunning.modLong.beginScrub h
  · refine .ite ?_ h
    extract_lets s1
    have hs1 : Formed s1 := h.noteEvent.enterRunning
    split
    · exact hs1.elsewhere.postDown
    · exact hs1
  · exact h.enterRunning.setSlot
  · exact h.enterRunning.modLong
  · exact h.enterRunning

theorem Formed.execLongOpStart (h : Formed s) {handle : Nat} : OutFormed (execLongOpStart handle s) := by
  unfold Machine.execLongOpStart
  refine .next ?_
  split
  · exact .ite h.startLong.releaseFenced h
  · exact h

theorem Formed.execPausePointReached (h : Formed s) {handle : Nat} : OutFormed (execPausePointReached handle s) := by
  unfold Machine.execPausePointReached
  refine .next ?_
  split
  · refine .ite ?_ h
    extract_lets s1
    have hs1 : Formed s1 := h.modLong
    refine .releaseFenced ?_
    split
    · exact hs1.complete
    · exact hs1
  · exact h

theorem Formed.undoLong (h : Formed s) {l : LongOp} : Formed (undoLong l s) := by
  unfold Machine.undoLong
  refine .ite h ?_
  split
  · exact h.runCheckpoint
  · exact h.drawFree.hostWrite
  · exact h.setSlot
  · exact h

theorem Formed.execCancelUndoDone (h : Formed s) {handle : Nat} : OutFormed (execCancelUndoDone handle s) := by
  unfold Machine.execCancelUndoDone
  refine .next ?_
  split
  · exact .ite h.undoLong.longDone.releaseFenced h
  · exact h

theorem Formed.finishLong (h : Formed s) {l : LongOp} {tests : List SelfTest} : Formed (finishLong l tests s) := by
  unfold Machine.finishLong
  split
  · exact h.runCheckpoint.longDone
  · exact h.runRestore
  · exact h.endScrub.longDone
  · exact h.runUpdate
  · exact h.hostWrite.elsewhere.longDone
  · exact h

theorem Formed.commitLong (h : Formed s) {l : LongOp} : Formed (commitLong l s) := by
  unfold Machine.commitLong
  extract_lets s1
  have hs1 : Formed s1 := by
    unfold s1
    split
    · exact h.selectSlot
    · exact h
  exact hs1.modLong

theorem Formed.commitDue (h : Formed s) : Formed (commitDue s) :=
  h.foldl fun _ _ ht => .ite (.ite ht.drawFree.commitLong ht.drawFree) ht

theorem Formed.execLongOpWorkEnd (h : Formed s) {handle : Nat} {tests : List SelfTest} :
    OutFormed (execLongOpWorkEnd handle tests s) := by
  unfold Machine.execLongOpWorkEnd
  refine .next ?_
  split
  · exact .ite h.finishLong.releaseFenced h
  · exact h

theorem Formed.renewLease (h : Formed s) : Formed (renewLease s) := h.cpElse

theorem Formed.execStewardWindow (h : Formed s) : OutFormed (execStewardWindow s) := by
  unfold Machine.execStewardWindow
  refine .next ?_
  extract_lets _ _ s1 winner _ s2
  have hs1 : Formed s1 := h.cpElse
  have hw : winner ≤ 2 := by
    unfold winner
    split <;> omega
  have hs2 : Formed s2 := .ite (hs1.hold hw).renewLease.postEvent hs1
  exact .releaseFenced (hs2.foldl fun _ _ ht => ht.complete)

end Sys2Proof.Machine
end

section
/-!
PROOF. Registers keep the form, read or written, from the hosts, the mailbox and the side channels.
-/

namespace Sys2Proof.Machine

set_option Elab.async false

open Sys2Proof

variable {s t : State}

/-! ### Reading registers -/

theorem Formed.setMbox (h : Formed s) {port : Nat} {m : Mbox} : Formed (setMbox port m s) := h.elsewhere

theorem Formed.regRead (h : Formed s) {port off width : Nat} : Formed (regRead port off width s).2 := .ite h.elsewhere h

/-! ### Writing registers -/

theorem Formed.took (h : Formed s) : Formed (took s).1 := h

theorem Formed.dropped (h : Formed s) : Formed (dropped s).1 := h

theorem tookIf_cases (ok : Bool) (s t : State) : tookIf ok s t = took t ∨ tookIf ok s t = dropped s := by
  cases ok
  · exact .inr rfl
  · exact .inl rfl

theorem Formed.ofWrote {w : Wrote} (h : Formed s) (ht : Formed t) (hw : w = Machine.took t ∨ w = Machine.dropped s) :
    Formed w.1 := by
  rcases hw with rfl | rfl
  · exact ht
  · exact h

theorem Formed.tookIf (h : Formed s) (ht : Formed t) {ok : Bool} : Formed (tookIf ok s t).1 := h.ofWrote ht (tookIf_cases ..)

theorem Formed.fbWrite (h : Formed s) {steward : Bool} {o : Nat} {v : W64} : Formed (fbWrite steward o v s).1 := by
  unfold Machine.fbWrite
  extract_lets
  split
  · exact h.tookIf h.elsewhere
  · split
    · exact h.tookIf h.elsewhere
    · exact h.setClusterMap.took
    · exact h.dropped

theorem Formed.mcOwned (h : Formed s) {o : Nat} {v : W64} : Formed (mcOwned o v s).1 := by
  unfold Machine.mcOwned
  split
  · refine h.ofWrote ?_ (tookIf_cases ..)
    exact h.memElse
  · exact h.memElse
  · exact h.memElse
  · exact h.memElse
  · exact h

theorem Formed.mcWrite (h : Formed s) {steward : Bool} {o : Nat} {v : W64} : Formed (mcWrite steward o v s).1 := by
  unfold Machine.mcWrite
  split
  · exact h.mcOwned
  · exact h.countHostFault.dropped

theorem Formed.lkPortWrite (h : Formed s) {p o : Nat} {v : W64} : Formed (lkPortWrite p o v s).1 := by
  unfold Machine.lkPortWrite
  split
  · exact h.modPort.took
  · exact h.modPort.took
  · split
    · exact .took (h.modPort (by simp))
    · exact h.dropped

theorem Formed.lkOwned (h : Formed s) {o : Nat} {v : W64} : Formed (lkOwned o v s).1 := by
  unfold Machine.lkOwned
  split
  · exact h.lkPortWrite
  · split
    · split
      · exact h.dropped
      · exact h.lkElse.settlePilots.took
    · split
      · exact h.dropped
      · exact h.lkElse.settlePilots.took
    · exact h.tookIf h.lkElse
    · exact h.lkElse.took
    · exact h.lkElse.took
    · exact h.dropped

theorem Formed.lkWrite (h : Formed s) {steward : Bool} {o : Nat} {v : W64} : Formed (lkWrite steward o v s).1 := by
  unfold Machine.lkWrite
  split
  · exact h.lkOwned
  · exact h.dropped

theorem Formed.stagingWrite (h : Formed s) {base size : W64} : Formed (stagingWrite base size s).1 := h.tookIf h.elsewhere

theorem Formed.ueSet (h : Formed s) {u : Ue} : Formed (ueSet u s).1 := h.tookIf h.elsewhere

theorem Formed.clOwned (h : Formed s) {o : Nat} {v : W64} : Formed (clOwned o v s).1 := by
  unfold Machine.clOwned
  extract_lets
  split
  · exact h.elsewhere.took
  · exact h.stagingWrite
  · exact h.stagingWrite
  · exact h.elsewhere.took
  · exact h.elsewhere.took
  · exact h.ueSet
  · exact h.ueSet
  · split
    · exact h.dropped
    · exact h.ueSet
  · exact h.ueSet
  · exact h.ueSet
  · split
    · exact h.dropped
    · exact h.writeUeStep.took
  · exact h.elsewhere.took
  · exact h.elsewhere.took
  · exact h.dropped

theorem Formed.clWrite (h : Formed s) {steward : Bool} {o : Nat} {v : W64} : Formed (clWrite steward o v s).1 := by
  unfold Machine.clWrite
  split
  · exact h.clOwned
  · exact h.dropped

theorem Formed.twWrite (h : Formed s) {o : Nat} {v : W64} : Formed (twWrite o v s).1 := by
  unfold Machine.twWrite
  split
  · exact h.elsewhere.took
  · exact h.dropped

theorem Formed.sensorServe (h : Formed s) {port : Nat} : Formed (sensorServe port s) := .ite h.setMbox h.setMbox

theorem Formed.identityServe (h : Formed s) {port : Nat} : Formed (identityServe port s) := .ite h.setMbox h.setMbox

theorem Formed.mboxCtrl (h : Formed s) {port : Nat} {v : W64} : Formed (mboxCtrl port v s).1 := by
  unfold Machine.mboxCtrl
  extract_lets
  split
  · exact h.dropped
  · split
    · exact h.setMbox.took
    · split <;> exact h.setMbox.took

theorem Formed.mgWrite (h : Formed s) {port o : Nat} {v : W64} : Formed (mgWrite port o v s).1 := by
  unfold Machine.mgWrite
  extract_lets
  split
  · exact h.mboxCtrl
  · exact h.setMbox.took
  · split
    · exact h.setMbox.took
    · exact h.dropped

theorem Formed.msixWrite (h : Formed s) {port w : Nat} {v : W64} : Formed (msixWrite port w v s) :=
  .ite h.setCp (.ite h.setCp.modCp.sendMsix h.setCp)

theorem Formed.cpWrite (h : Formed s) {port o : Nat} {v : W64} : Formed (cpWrite port o v s).1 := by
  unfold Machine.cpWrite
  extract_lets
  split
  · exact h.tookIf h.renewLease
  · exact h.tookIf h.cpElse.renewLease
  · exact h.tookIf h.setCp
  · exact h.writeCqEntries.took
  · exact h.tookIf h.writeCqHead
  · exact h.setCp.took
  · split
    · exact h.msixWrite.took
    · exact h.dropped

theorem Formed.pwWrite (h : Formed s) {steward : Bool} {o : Nat} {v : W64} : Formed (pwWrite steward o v s).1 := by
  unfold Machine.pwWrite
  extract_lets
  split
  · exact h.dropped
  · split
    · exact h.tookIf h.elsewhere
    · exact h.elsewhere.took
    · exact h.dropped

theorem Formed.stageRefuse (h : Formed s) : Formed (stageRefuse s) := h.elsewhere

theorem Formed.scWrite (h : Formed s) {port : Nat} {steward : Bool} {o : Nat} {v : W64} :
    Formed (scWrite port steward o v s).1 := by
  unfold Machine.scWrite
  split
  · split
    · exact h.drawNonce.took
    · exact h.dropped
  · split
    · split
      · exact h.elsewhere.took
      · exact h.stageRefuse.dropped
    · exact h.dropped

theorem Formed.dbOther (h : Formed s) {steward : Bool} {o : Nat} {v : W64} : Formed (dbOther steward o v s).1 := by
  unfold Machine.dbOther
  split
  · exact h.dbRefuse.dropped
  · split
    · exact h.dbRefuse.dropped
    · split
      · exact h.elsewhere.took
      · exact h.elsewhere.took
      · exact h.dropped

theorem Formed.dbWrite (h : Formed s) {steward : Bool} {o : Nat} {v : W64} : Formed (dbWrite steward o v s).1 := by
  unfold Machine.dbWrite
  split
  · extract_lets t
    have ht : Formed t := h.dbCtrl
    exact ht
  · exact h.dbOther

theorem Formed.bbWrite (h : Formed s) {port o : Nat} {v : W64} : Formed (bbWrite port o v s).1 := by
  unfold Machine.bbWrite
  split
  · split
    · exact h.elsewhere.took
    · split
      · exact h.noteGo.took
      · exact h.dropped
  · split
    · exact h.bbLatch.took
    · split
      · exact h.elsewhere.took
      · exact h.dropped

theorem Formed.regPut (h : Formed s) {port : Nat} {steward : Bool} {off : Nat} {v : W64} :
    Formed (regPut port steward off v s).1 := by
  unfold Machine.regPut
  split
  · exact h.dropped
  · extract_lets
    split
    · exact h.mgWrite
    · exact h.cpWrite
    · exact h.fbWrite
    · exact h.mcWrite
    · exact h.lkWrite
    · exact h.clWrite
    · exact h.dropped
    · exact h.scWrite
    · exact h.bbWrite
    · exact h.pwWrite
    · exact h.dbWrite
    · exact h.twWrite

theorem Formed.regWrite (h : Formed s) {port : Nat} {steward : Bool} {off width : Nat} {v : W64} :
    Formed (regWrite port steward off width v s).1 := by
  unfold Machine.regWrite
  split
  · extract_lets
    exact h.regPut
  · split
    · exact h.regPut
    · exact h.dropped

/-! ### Register accesses, BAR4 and the mailbox -/

theorem Formed.perform (h : Formed s) {a : RegAcc} : Formed (perform a s).2.2 := by
  unfold Machine.perform
  split
  · exact h.regWrite
  · split
    · exact h.stageRefuse
    · exact h.regRead (port := a.port) (width := a.width)

theorem Formed.answer (h : Formed s) {port : Nat} {tag : W32} {write : Bool} {v : W64} : Formed (answer port tag write v s) :=
  .ite h h.elsewhere

theorem Formed.refuseAccess (h : Formed s) {k : Nat} {a : RegAcc} : Formed (refuseAccess k a s) :=
  .answer (.ite h.countCpFault h)

theorem Formed.forget (h : Formed s) {port : Nat} {tag : W32} : Formed (forget port tag s) := h.elsewhere

theorem Formed.replyTo (h : Formed s) {port : Nat} {tag : W32} {v : W64} : Formed (replyTo port tag v s) := by
  unfold Machine.replyTo
  split
  · exact h.forget.answer
  · exact h

theorem Formed.failAccess (h : Formed s) {port : Nat} {tag : W32} : Formed (failAccess port tag s) := by
  unfold Machine.failAccess
  split
  · exact .answer (.ite h.forget.countCpFault h.forget)
  · exact h

theorem Formed.await (h : Formed s) {a : RegAcc} : Formed (await a s) := h.elsewhere

theorem Formed.sendAccess (h : Formed s) {a : RegAcc} : Formed (sendAccess a s) := h.postDown.await

theorem Formed.postReply (h : Formed s) {port : Nat} {tag : W32} {discarded : Bool} {v : W64} :
    Formed (postReply port tag discarded v s) :=
  h.postUp

theorem Formed.takeAccess (h : Formed s) : Formed (takeAccess s) := by
  unfold Machine.takeAccess
  split
  · exact .ite h.popDown (.ite h.popDown.perform.postReply (.ite h.popDown.postTele h))
  · exact h

theorem Formed.travel (h : Formed s) {a : RegAcc} : Formed (travel a s) := by
  unfold Machine.travel
  split
  · exact h.sendAccess.takeAccess
  · exact .ite h.takeAccess h.sendAccess

theorem Formed.sendStandby (h : Formed s) {a : RegAcc} : Formed (sendStandby a s) := h.elsewhere.bumpSeq.await

theorem Formed.takeStandby (h : Formed s) : Formed (takeStandby s) := by
  unfold Machine.takeStandby
  split
  · exact .ite h (.ite h.elsewhere h.elsewhere.perform.elsewhere.bumpSeq)
  · exact h

theorem Formed.travelStandby (h : Formed s) {a : RegAcc} : Formed (travelStandby a s) := by
  unfold Machine.travelStandby
  split
  · exact .ite h.sendStandby.takeStandby h
  · exact .ite h.takeStandby (.ite h.sendStandby h)

theorem Formed.accessRow (h : Formed s) {a : RegAcc} : Formed (accessRow a s) := by
  unfold Machine.accessRow
  refine .ite h (.ite h.refuseAccess ?_)
  split
  · exact h.perform.answer
  · exact .ite h.travel h.refuseAccess
  · exact .ite h.travel (.ite h h.travelStandby)

theorem Formed.execRegisterWrite (h : Formed s) {port off width : Nat} {value : W64} :
    OutFormed (execRegisterWrite port off width value s) := by
  unfold Machine.execRegisterWrite
  refine .guardUnit (.ite h (.ite h.refuseAccess ?_))
  split
  · exact h.perform
  · exact .ite h.refuseAccess (.ite h.sendAccess h.perform)
  · exact .ite h.countCpFault (.ite h.perform (.ite h.sendAccess h.travelStandby))

theorem Formed.execRegReply (h : Formed s) : OutFormed (execRegReply s) := by
  unfold Machine.execRegReply
  refine .next ?_
  split
  · exact h.popUp.replyTo
  · exact h.elsewhere.replyTo
  · exact h

theorem Formed.execMgmtRequest (h : Formed s) : OutFormed (execMgmtRequest s) := by
  unfold Machine.execMgmtRequest
  refine .next ?_
  split
  · exact h
  · refine .ite h ?_
    extract_lets s1 _ s2
    have hs1 : Formed s1 := h.traceRec
    have hs2 : Formed s2 := .ite hs1.popTele hs1.elsewhere.refillTele
    exact .ite hs2 hs2.perform.postOrder

theorem Formed.execMgmtReply (h : Formed s) : OutFormed (execMgmtReply s) := by
  unfold Machine.execMgmtReply
  refine .next ?_
  split
  · exact h.popInter.postReply
  · exact h

theorem Formed.mailbox {port req : Nat} {serve : State → State} (h : Formed s) (hf : ∀ t, Formed t → Formed (serve t)) :
    Formed (mailbox port req serve s) := .ite (.ite (hf _ h) h) (hf _ h.setMbox)

theorem Formed.bar4Read (h : Formed s) {port off len : Nat} : Formed (bar4Read port off len s) :=
  .ite (.elsewhere (.ite h.noteReads.countHostFault h.noteReads)) h.drawFree.elsewhere

theorem Formed.bar4Write (h : Formed s) {off : Nat} {bytes : List Byte} : Formed (bar4Write off bytes s) :=
  .foldl (.ite h h.countHostFault) (fun _ _ ht => ht.hostSector)

end Sys2Proof.Machine
end

section
/-!
PROOF. The drain, the messages, resets, the safety monitor and the management period keep the form.
-/

namespace Sys2Proof.Machine

set_option Elab.async false

open Sys2Proof

variable {s t : State}

/-! ### The drain -/

theorem Formed.drainEmit (h : Formed s) {cell : Nat} {x : Ctx} {fmt n : Nat} {d : Drained} :
    Formed (drainEmit cell x fmt n d s) :=
  .ite h.putStoreBits h.routeFrom

theorem Formed.drainOne (h : Formed s) {cell : Nat} {x : Ctx} {i : DrainIn} : Formed (drainOne cell x s i) :=
  h.modCell.drainEmit

theorem Formed.drainRaw (h : Formed s) {cell : Nat} {x : Ctx} {fmt : Nat} {w : Nat × Nat × Bool} :
    Formed (drainRaw cell x fmt s w) :=
  .ite h.putStoreBits h.routeFrom

theorem Formed.drainRaws (h : Formed s) {cell : Nat} {x : Ctx} {fmt n vals : Nat} {ws : List (Nat × Bool)} :
    Formed (drainRaws cell x fmt n vals ws s) := by
  unfold Machine.drainRaws
  exact .modCell (h.foldl fun _ _ ht => ht.drainRaw)

theorem Formed.drainBlock (h : Formed s) {cell : Nat} {x : Ctx} {residAddr : Nat} {ins : List DrainIn} :
    Formed (drainBlock cell x residAddr ins s) := by
  unfold Machine.drainBlock
  extract_lets _ _ _ _ _ _ _ _ _ s0 s1 _ s2
  have hs0 : Formed s0 := h.noteReads
  have hs1 : Formed s1 := hs0.foldl fun _ _ ht => ht.writeJob
  have hs2 : Formed s2 := hs1.modCell
  exact .ite hs2.writePieces.writeMem (hs2.foldl fun _ _ ht => ht.routeFrom)

theorem Formed.drainBank (h : Formed s) {cell residAddr : Nat} : Formed (drainBank cell residAddr s) := by
  unfold Machine.drainBank
  extract_lets s1
  have hs1 : Formed s1 := .ite h.modCell h
  exact .ite hs1.drainRaws (.ite hs1.drainBlock (hs1.foldl fun _ _ ht => ht.drainOne))

theorem Formed.drainWide (h : Formed s) {cell residAddr : Nat} : Formed (drainWide cell residAddr s) :=
  .ite h (.ite h.modCell.drainRaws (.ite h.modCell.drainBlock (h.modCell.foldl fun _ _ ht => ht.drainOne)))

theorem Formed.drainQ (h : Formed s) {cell : Nat} : Formed (drainQ cell s) := .ite h.modCell.drainRaws h.modCell.drainOne

theorem Formed.execDrain (h : Formed s) {cell residAddr : Nat} : OutFormed (execDrain cell residAddr s) := by
  unfold Machine.execDrain
  refine .guardUnit (h.whenTaken ?_)
  split
  · exact .ite h.drainBank h
  · exact h.drainWide
  · exact h.drainQ
  · exact h

/-! ### Messages and telemetry -/

theorem Formed.phaseOnDie (h : Formed s) {die region id count handle : Nat} {program : Bool} :
    Formed (phaseOnDie die region id count handle program s) := by
  unfold Machine.phaseOnDie
  split
  · refine .ite h ?_
    extract_lets s1
    have hs1 : Formed s1 := h.modRun
    refine .ite (hs1.foldl fun _ _ ht => ht.startProgramOn) ?_
    split
    · exact hs1
    · exact hs1.foldl fun _ _ ht => ht.switchCore.startPhaseOn
  · exact h

theorem Formed.switchOnDie (h : Formed s) {die region ctx : Nat} : Formed (switchOnDie die region ctx s) := by
  unfold Machine.switchOnDie
  split
  · exact h.foldl fun _ _ ht => ht.switchCore
  · exact h

theorem Formed.loadOnDie (h : Formed s) {die handle : Nat} : Formed (loadOnDie die handle s) := h.setLoads

theorem Formed.onDie (h : Formed s) {die : Nat} {p : Payload} : Formed (onDie die p s) := by
  unfold Machine.onDie
  split
  · exact h.phaseOnDie
  · exact h.switchOnDie
  · exact h.loadOnDie
  · exact h

theorem Formed.allTaken (h : Formed s) {p : Payload} : Formed (allTaken p s) := by
  unfold Machine.allTaken
  split
  · exact h.postCompletion.startNextWait
  · exact h

theorem Formed.arrive (h : Formed s) {kind : Nat} : Formed (arrive kind s) := by
  unfold Machine.arrive
  split
  · exact h
  · exact .ite h (.ite h.popDown.allTaken h.popDown.elsewhere)

theorem Formed.niTake (h : Formed s) {die kind : Nat} : Formed (niTake die kind s) := by
  unfold Machine.niTake
  split
  · exact h
  · exact .ite h (.ite h.elsewhere.onDie.allTaken h.elsewhere.onDie)

theorem Formed.dieRow (h : Formed s) {die kind : Nat} : Formed (dieRow die kind s) := by
  unfold Machine.dieRow
  split
  · exact .ite h.niTake h.arrive
  · exact h.arrive.niTake

theorem Formed.execCompletion (h : Formed s) : OutFormed (execCompletion s) := by
  unfold Machine.execCompletion
  refine .next ?_
  split
  · exact h.popUp.endCommand.releaseFenced
  · exact h

theorem Formed.lostDown (h : Formed s) {p : Payload} : Formed (lostDown p s) := by
  unfold Machine.lostDown
  split
  · exact h.dropRun.endCommand.startNextWait
  · exact h.setLoads.endCommand.sendLoad.afterLoad
  · exact h.endCommand.startNextWait
  · exact .endCommand (.ite h.elsewhere h)
  · exact h.failAccess
  · exact h

theorem Formed.execNack (h : Formed s) : OutFormed (execNack s) := by
  unfold Machine.execNack
  refine .next ?_
  split
  · extract_lets s1
    have hs1 : Formed s1 := h.popUp
    split
    · exact hs1.lostDown.releaseFenced
    · exact hs1
  · exact h

theorem Formed.snapshot (h : Formed s) {stack : Nat} : Formed (snapshot s stack).2 := by
  unfold Machine.snapshot
  extract_lets f
  have hf : Formed f.2 := h.drawFree
  exact hf

theorem Formed.sendStack (h : Formed s) {kind stack key : Nat} {w : List Nat} : Formed (sendStack kind stack key w s) :=
  h.elsewhere.postTele

theorem Formed.reportLost (h : Formed s) {ws cause seq : Nat} : Formed (reportLost ws cause seq s) := h.postTele

theorem Formed.loseHead (h : Formed s) {ws cause : Nat} : Formed (loseHead ws cause s) := by
  unfold Machine.loseHead
  split
  · split
    · exact h
    · exact h.popDown.postUp.reportLost
  · split
    · exact h
    · extract_lets s1
      have hs1 : Formed s1 := h.popUp.reportLost
      split
      · exact hs1.failAccess
      · exact hs1.postUp
  · split
    · exact h
    · exact h.popTele.reportLost
  · split
    · exact h
    · exact h.popInter.reportLost

theorem Formed.execWaystationFault (h : Formed s) {ws cause : Nat} : OutFormed (execWaystationFault ws cause s) := by
  unfold Machine.execWaystationFault
  refine .next ?_
  split
  · exact .ite (.ite h.traceRec.popTele h) h.loseHead
  · exact h.loseHead

/-! ### Resets and bring-up -/

theorem formed_reset : Formed State.reset :=
  ⟨rfl, ⟨rfl, by decide⟩, Nat.zero_le 2, PortCp.ringOk_off rfl, PortCp.ringOk_off rfl⟩

theorem Formed.coldReset (h : Formed s) : Formed (coldReset s) :=
  ⟨formed_reset.bytes, formed_reset.ports, formed_reset.holder, PortCp.ringOk_off rfl, PortCp.ringOk_off rfl⟩

theorem Formed.execColdReset (h : Formed s) : OutFormed (execColdReset s) := by
  unfold Machine.execColdReset
  refine .next ?_
  split
  · exact h
  · exact h.coldReset

theorem Formed.warmReset (h : Formed s) {cause : Nat} : Formed (warmReset cause s) := by
  unfold Machine.warmReset
  extract_lets s0 s1
  have hs0 : Formed s0 := h.breakUpdate.endLevel
  have hs1 : Formed s1 := hs0.resetPlane.bbEvent
  clear_value s1
  exact .relampAll ⟨hs1.bytes, hs1.ports, Nat.zero_le 2, PortCp.ringOk_off rfl, PortCp.ringOk_off rfl⟩

theorem Formed.fabricReset (h : Formed s) : Formed (fabricReset s) := h.failCommands.bbEvent.resetPlane.memElse

theorem Formed.takeFabric (h : Formed s) : Formed (takeFabric s) := h.whenTaken h.fabricReset

theorem Formed.execInterlockOrderRepeat (h : Formed s) {seq : Nat} : OutFormed (execInterlockOrderRepeat seq s) := by
  unfold Machine.execInterlockOrderRepeat
  refine .next ?_
  split
  · exact h
  · exact .ite h (.ite h.takeFabric (.ite h h.elsewhere.enterInter))

theorem Formed.tripLines (h : Formed s) : Formed (tripLines s) := .elsewhere (h.foldl fun _ _ ht => ht.smHold)

theorem Formed.storeTrip (h : Formed s) {cause value die : Nat} : Formed (storeTrip cause value die s) := h.elsewhere.bbEvent

theorem Formed.bootStep (h : Formed s) {failed : List Nat} : Formed (bootStep failed s) := by
  unfold Machine.bootStep
  extract_lets s1 _ _ _ s' _ s2 _ _ s2_1
  have hs1 : Formed s1 := h.bootFirmware
  have hs' : Formed s' := hs1.elsewhere
  have hs2 : Formed s2 := by
    unfold s2
    split
    · exact hs1.elsewhere
    · exact hs'.elsewhere.writeCtrl.writeCtrl
  have hs2_1 : Formed s2_1 := hs2.elsewhere
  exact .ite hs2_1.elsewhere hs2_1

theorem Formed.lockPlls (h : Formed s) {failed : List Nat} : Formed (lockPlls failed s) :=
  .foldl (h.foldl fun _ _ ht => .ite ht ht.elsewhere) (fun _ _ ht => .ite ht.elsewhere.pairLost ht)

theorem Formed.trainFails (h : Formed s) {cold : Bool} {i : Nat} : Formed (trainFails cold i s) := by
  unfold Machine.trainFails
  extract_lets _ _ _ _ _ fails
  have hfails : Formed fails := .ite h.pinsFailed h.pinFailed
  refine .ite h ?_
  split
  · exact .ite h.finishRetire hfails
  · exact hfails

theorem Formed.rebuildSubch (h : Formed s) : Formed (rebuildSubch s) := h.memElse

theorem Formed.memoryStep (h : Formed s) {cold : Bool} {failed : List Nat} : Formed (memoryStep cold failed s) := by
  unfold Machine.memoryStep
  split
  · extract_lets s1
    have hs1 : Formed s1 := h.rebuildSubch.foldl fun _ _ ht => ht.trainFails
    exact ⟨rfl, hs1.ports, hs1.holder, hs1.ringA, hs1.ringB⟩
  · exact .memElse (h.foldl fun _ _ ht => ht.trainFails)

theorem Formed.proofStep (h : Formed s) {failed : List Nat} : Formed (proofStep failed s) := by
  unfold Machine.proofStep
  extract_lets _ s1 _ _ s2 s3
  have hs1 : Formed s1 := h.foldl fun _ _ ht => ht.smFree.smFree
  have hs2 : Formed s2 := hs1.elsewhere
  have hs3 : Formed s3 := hs2.foldl fun _ _ ht => ht.smHold
  exact .ite hs3 hs3.elsewhere.bbEvent.postEvent

theorem Formed.linksStep (h : Formed s) {failed : List Nat} : Formed (linksStep failed s) := h.foldl fun _ _ ht => ht.modCp

theorem Formed.rebuildMaps (h : Formed s) : Formed (rebuildMaps s) := h.elsewhere.foldl fun _ _ ht => ht.putCapacity

theorem Formed.loseDies (h : Formed s) : Formed (loseDies s) := h.foldl fun _ _ ht => ht.dieLost

theorem Formed.sendRestart (h : Formed s) : Formed (sendRestart s) := h.sendCurrent.foldl fun _ _ ht => ht.haltLost

theorem Formed.fabricStep (h : Formed s) {cold : Bool} {tests : List SelfTest} : Formed (fabricStep cold tests s) := by
  unfold Machine.fabricStep
  extract_lets s0 s1 s2
  have hs0 : Formed s0 := h.failCommands
  have hs1 : Formed s1 := .ite hs0.rebuildMaps.loseDies hs0
  have hs2 : Formed s2 := .findJournal (hs1.foldl fun _ _ ht => ht.recordTest)
  exact hs2.elsewhere

theorem Formed.lockOwner (h : Formed s) : Formed (lockOwner s) := .ite h.elsewhere h

theorem Formed.finishBringup (h : Formed s) {k : ResetKind} : Formed (finishBringup k s) := by
  unfold Machine.finishBringup
  extract_lets _ _ _ s1 _ s2 s3 s4 _ s5 s6 _ s7 _ s8
  have hs1 : Formed s1 := h.cpElse
  have hs2 : Formed s2 := .ite hs1.raiseRollback.bbEvent hs1
  have hs3 : Formed s3 := hs2.lockOwner
  have hs4 : Formed s4 := .ite hs3.postEvent hs3
  have hs5 : Formed s5 := .ite hs4.elsewhere.postEvent hs4
  have hs6 : Formed s6 := hs5.blankDefault
  have hs7 : Formed s7 := hs6.capAll
  have hs8 : Formed s8 := .ite hs7 hs7.elsewhere.postEvent
  exact .ite (.ite hs5 hs5.relampAll) hs8.followPower.relampAll

theorem Formed.bringupStep (h : Formed s) {k : ResetKind} {n : Nat} {o : BringupObs} : Formed (bringupStep k n o s) := by
  unfold Machine.bringupStep
  extract_lets go r old _ _ s1
  have hgo : ∀ u, Formed u → Formed (go u) := fun _ hu => hu.elsewhere
  have hr : Formed r.2 := h.drawFree
  have hold : Formed old := hr
  have hs1 : Formed s1 := .ite h.elsewhere h
  split
  · exact .ite (hgo _ hold.elsewhere) h.storeTrip.tripLines.enterP4
  · exact hgo _ h.bootStep
  · exact .ite h (.ite (hgo _ hs1.lockPlls) hs1.elsewhere.bbEvent.enterP4)
  · exact hgo _ h.memoryStep
  · exact hgo _ h.proofStep
  · exact hgo _ h.elsewhere.settlePilots
  · exact hgo _ h.linksStep
  · exact .sendRestart (hgo _ (.fabricStep (.ite h.failCommands h)))
  · exact h.finishBringup

theorem Formed.execBringupStep (h : Formed s) {o : BringupObs} : OutFormed (execBringupStep o s) := by
  unfold Machine.execBringupStep
  refine .next ?_
  split
  · exact .ite h h.bringupStep
  · exact h

theorem Formed.execFwBootTimeout (h : Formed s) : OutFormed (execFwBootTimeout s) := by
  unfold Machine.execFwBootTimeout
  refine .next ?_
  split
  · split
    · exact h.elsewhere
    · exact h
  · exact h

/-! ### The safety monitor -/

theorem Formed.reportHold (h : Formed s) {cause mask : Nat} : Formed (reportHold cause mask s) := h.bbEvent.postEvent

theorem Formed.tripNow (h : Formed s) {cause value die : Nat} : Formed (tripNow cause value die s) :=
  h.tripLines.storeTrip.bbEvent.elsewhere

theorem Formed.execSafetyMonitorFail (h : Formed s) : OutFormed (execSafetyMonitorFail s) :=
  .next (.ite (h.elsewhere.foldl fun _ _ ht => ht.lineOn) (.beginTransition (h.elsewhere.foldl fun _ _ ht => ht.lineOn)))

/-! ### The management period -/

theorem Formed.readSensors (h : Formed s) {r : Readings} : Formed (readSensors r s) := h.elsewhere

theorem Formed.powerLoop (h : Formed s) {r : Readings} : Formed (powerLoop r s) :=
  h.foldl fun _ _ ht => .ite ht.setCap.setCap ht.setCap

theorem Formed.thermalDie (h : Formed s) {d : Nat} : Formed (thermalDie d s) := h.setCap.elsewhere

theorem Formed.droopDie (h : Formed s) {d : Nat} : Formed (droopDie d s) :=
  .elsewhere (.ite h.elsewhere.setCap (.ite h.elsewhere.setCap h.elsewhere))

theorem Formed.dramHeat (h : Formed s) : Formed (dramHeat s) := h.foldl fun _ _ ht => ht.elsewhere

theorem Formed.coolantCheck (h : Formed s) : Formed (coolantCheck s) := .ite h.elsewhere (.ite h.elsewhere h)

theorem Formed.thermal (h : Formed s) : Formed (thermal s) := by
  unfold Machine.thermal
  extract_lets s1
  have hs1 : Formed s1 := h.foldl fun _ _ ht => ht.thermalDie.droopDie
  exact hs1.dramHeat.coolantCheck

theorem Formed.liftGuard (h : Formed s) : Formed (liftGuard s) := .elsewhere (h.foldl fun _ _ ht => ht.setCap)

theorem Formed.enterGuard (h : Formed s) {tag : Nat × Nat} : Formed (enterGuard tag s) :=
  .elsewhere (h.foldl fun _ _ ht => ht.setCap)

theorem Formed.storeSet (h : Formed s) : Formed (storeSet s) := h.elsewhere

theorem Formed.selectSet (h : Formed s) : Formed (selectSet s) := by
  unfold Machine.selectSet
  extract_lets _ _ _ s1 _ _ s2 r _ old_2 _ s1_1
  have hs1 : Formed s1 := h.elsewhere
  have hs2 : Formed s2 := .ite hs1.elsewhere hs1
  have hr : Formed r.2 := h.drawFree
  have hold_2 : Formed old_2 := hr
  have hs1_1 : Formed s1_1 := hold_2.elsewhere
  exact .ite (.ite hs2.liftGuard hs2) (.ite hs1_1.enterGuard (.ite hs1_1.elsewhere hs1_1.elsewhere))

theorem Formed.calibrate (h : Formed s) {r : Readings} : Formed (calibrate r s) :=
  .selectSet (.ite (.storeSet (.elsewhere (.ite h.elsewhere h))) (.elsewhere (.ite h.elsewhere h)))

theorem Formed.adaptClocks (h : Formed s) : Formed (adaptClocks s) := .ite (h.foldl fun _ _ ht => ht.elsewhere) h

theorem Formed.laserFails (h : Formed s) {p l : Nat} : Formed (laserFails p l s) := .ite h (.ite h.elsewhere h.elsewhere)

theorem Formed.ringOut (h : Formed s) {p l : Nat} : Formed (ringOut p l s) :=
  .ite h (.moveLanes (h.elsewhere.modPort (by simp)))

theorem Formed.supervise (h : Formed s) {r : Readings} : Formed (supervise r s) :=
  .foldl (h.foldl fun _ _ ht => ht.laserFails) (fun _ _ ht => ht.ringOut)

theorem Formed.drainTele (h : Formed s) {n : Nat} : Formed (drainTele n s) := by
  induction n generalizing s with
  | zero => exact h
  | succ n ih =>
    unfold Machine.drainTele
    split
    · exact h
    · exact .ite h (ih h.popTele.takeTele)

theorem Formed.stepLamps (h : Formed s) : Formed (stepLamps s) :=
  .foldl (h.foldl fun _ _ ht => ht.modPort) (fun _ _ ht => .ite ht ht.modPort.relamp)

theorem Formed.countPeriod (h : Formed s) {overrun : Bool} : Formed (countPeriod overrun s) := h.elsewhere

theorem Formed.referenceLost (h : Formed s) : Formed (referenceLost s) := .ite h.elsewhere.bbEvent.enterP4 h

theorem Formed.upsetStores (h : Formed s) : Formed (upsetStores s) := by
  unfold Machine.upsetStores
  refine .ite h ?_
  split
  · exact h
  · exact h.memElse
  · exact .ite h.setSectorPoison h

theorem Formed.runPeriod (h : Formed s) {r : Readings} : Formed (runPeriod r s) := by
  unfold Machine.runPeriod
  extract_lets s1 s2 s3 s4 _ s5
  have hs1 : Formed s1 := .withCaps h.readSensors.powerLoop.thermal.calibrate
  have hs2 : Formed s2 := hs1.adaptClocks.supervise
  have hs3 : Formed s3 := .ite hs2 hs2.drainTele
  have hs4 : Formed s4 := hs3.drainNotes.accountPeriod.copyOn
  have hs5 : Formed s5 := hs4.elsewhere
  exact hs5.upsetStores.crossAll.stepLamps.commitDue.countPeriod.referenceLost

end Sys2Proof.Machine
end

section
/-!
PROOF. The sequencer, its streams and its moves keep the form.
-/

namespace Sys2Proof.Machine

set_option Elab.async false

open Sys2Proof

variable {s t : State}

/-! ### One instruction -/

theorem Formed.seqFault (h : Formed s) {core cause : Nat} : Formed (seqFault core cause s) := by
  unfold Machine.seqFault
  extract_lets _ s1 s2 s3
  have hs1 : Formed s1 := h.setCore
  have hs2 : Formed s2 := by
    unfold s2
    split
    · exact hs1.foldl fun _ _ ht => ht.modCore
    · exact hs1
  have hs3 : Formed s3 := hs2.modRun
  exact hs3.finishFaulted

theorem OutFormed.seqStep (h : Formed s) {core : Nat} {w : W32} {body : State → Core → SeqRes}
    (hr : ResFormed (body s (getCore s core))) : OutFormed (seqStep core w body s) := by
  refine .guardUnit (.ite (.ite h.seqFault (.ite h.seqFault (.ite h ?_))) h)
  unfold Machine.seqApply
  split
  case h_1 c hc => exact h.setCore
  case h_2 c pc hc => exact h.setCore
  case h_3 t ht => exact Formed.modCore (show Formed t by rw [ht] at hr; exact hr)
  case h_4 t ht => exact (show Formed t by rw [ht] at hr; exact hr)
  case h_5 n hn => exact h.seqFault
  case h_6 hn => exact h

/-! ### Floating point -/

theorem ResFormed.fpBin {d a b : RField} {op : PV → PV → PV} {c : Core} : ResFormed (fpBin d a b op c) := .next

theorem ResFormed.fpUn {d a : RField} {op : W64 → W64} {c : Core} : ResFormed (fpUn d a op c) := .next

theorem ResFormed.fpCmp {d a b : RField} {p : Nat} {c : Core} : ResFormed (fpCmp d a b p c) := .next

theorem ResFormed.fpTri {d a b e : RField} {op : PV → PV → PV → PV} {c : Core} : ResFormed (fpTri d a b e op c) := .next

/-! ### Integers and branches -/

theorem ResFormed.aluG {d a b : RField} {op : W64 → W64 → W64} {c : Core} : ResFormed (aluG d a b op c) := .next

theorem ResFormed.aluG1 {d a : RField} {op : W64 → W64} {c : Core} : ResFormed (aluG1 d a op c) := .next

theorem ResFormed.branch {a b : RField} {off : BitVec 14} {cond : W64 → W64 → Bool} {c : Core} :
    ResFormed (branch a b off cond c) :=
  .ite .trap (.ite .jump .next)

/-! ### Loads and stores -/

theorem ResFormed.loadG (h : Formed s) {core n : Nat} {d a : RField} {imm : BitVec 14} {ext : Nat → W64} {c : Core} :
    ResFormed (loadG core n d a imm ext s c) :=
  .withAccess (fun _ _ => .next)

theorem ResFormed.storeG (h : Formed s) {core n : Nat} {d a : RField} {imm : BitVec 14} {c : Core} :
    ResFormed (storeG core n d a imm s c) :=
  .withAccess (fun _ _ => .whole h.seqWrite)

theorem Formed.execFld (h : Formed s) {core : Nat} {d a : RField} {imm : BitVec 14} : OutFormed (execFld core d a imm s) :=
  .seqStep h (.withAccess (fun _ _ => .next))

theorem Formed.execFsd (h : Formed s) {core : Nat} {d a : RField} {imm : BitVec 14} : OutFormed (execFsd core d a imm s) :=
  .seqStep h (.withAccess (fun _ _ => .whole h.seqWrite))

theorem Formed.execVld (h : Formed s) {core : Nat} {d a : RField} {imm : BitVec 14} : OutFormed (execVld core d a imm s) :=
  .seqStep h (.withAccess (fun _ _ => .next))

theorem Formed.execVst (h : Formed s) {core : Nat} {d a : RField} {imm : BitVec 14} : OutFormed (execVst core d a imm s) :=
  .seqStep h (.withAccess (fun _ _ => .whole h.seqWrite))

theorem Formed.writeSectorItems (h : Formed s) {core : Nat} {m : SeqMem} {off sec : Nat}
    {items : List (Nat × List Byte × Bool)} :
    Formed (writeSectorItems s core m off sec items) :=
  .ite h.seqWrite (h.foldl fun _ _ ht => ht.seqWrite)

theorem OutFormed.sldv (h : Formed s) {core op n : Nat} {d a : RField} {w : BitVec 2} {inc : Bool}
    {fmask : BitVec 4} {off : BitVec 7} :
    OutFormed (sldv core op n d a w inc fmask off s) :=
  .seqStep h (.withAccess (fun _ _ => .next))

theorem OutFormed.sstv (h : Formed s) {core op n : Nat} {d a : RField} {w : BitVec 2} {inc : Bool}
    {fmask : BitVec 4} {off : BitVec 7} :
    OutFormed (sstv core op n d a w inc fmask off s) :=
  .seqStep h (.withAccess (fun _ _ => .whole (.modCore (h.foldl fun _ _ ht => ht.writeSectorItems))))

/-! ### Streams and moves -/

theorem Formed.writeElem (h : Formed s) {core : Nat} {st : Stream} {n : Nat} {e0 : Elem} :
    Formed (writeElem s core st n e0) :=
  .ite h.writePieces (.ite h.writeSector h.writePieces)

theorem Formed.deliverAt (h : Formed s) {core n : Nat} {edges : List Nat} {portFor : Nat → Nat} {l : List Elem} :
    Formed (deliverAt core edges portFor n l s) := by
  induction l generalizing s n with
  | nil => exact h
  | cons e r ih => exact ih h.routeFrom

theorem Formed.startStream (h : Formed s) {core : Nat} {t0 : Stream} : Formed (startStream core t0 s) :=
  .ite (.modCore (.ite h.countAct h)) (.deliverAt (.coreFault (.modCore (.ite h.countAct h))))

theorem Formed.dropStream (h : Formed s) {core : Nat} {t0 : Stream} : Formed (dropStream core t0 s) := h.modCore

theorem Formed.writeOut (h : Formed s) {core n : Nat} {ws : Option (List Window)} {t0 : Stream} {l : List Elem} :
    Formed (writeOut core ws t0 n l s) := by
  induction l generalizing s n with
  | nil => exact h
  | cons e r ih => exact ih (.ite h.writeElem h)

theorem Formed.streamDone (h : Formed s) {core : Nat} {t0 : Stream} : Formed (streamDone core t0 s) := by
  unfold Machine.streamDone
  split
  · exact h.dropStream
  · extract_lets c keys
    split
    · exact h
    · exact h.setCore.coreFault.writeOut.countAct.dropStream
  · extract_lets
    split
    · exact h
    · exact h.setCore.dropStream.deliverAt

theorem Formed.completeStream (h : Formed s) {core : Nat} {t0 : Stream} : Formed (completeStream core t0 s) :=
  h.streamDone.finishFaulted

theorem Formed.moveSector (h : Formed s) {cs : Nat} {ws : Option (List Window)} {m : Move} {i : Nat} :
    Formed (moveSector cs ws m i s).2 := by
  unfold Machine.moveSector
  extract_lets
  split
  · split
    · exact .ite h.countMem h
    · split
      · exact h
      · exact h.outerSector
  · exact h.noteRead.writeSector

theorem Formed.moveAll {cs : Nat} {ws : Option (List Window)} {m : Move} {n i : Nat} {acc : Option Nat × Nat × State}
    (h : Formed acc.2.2) : Formed (moveAll cs ws m n i acc).2.2 := by
  induction n generalizing i acc with
  | zero => exact h
  | succ n ih =>
    refine ih ?_
    split <;> exact h.moveSector

theorem Formed.completeMove (h : Formed s) {core : Nat} {m : Move} : Formed (completeMove core m s) := by
  unfold Machine.completeMove
  extract_lets _ r
  have hr : Formed r.2.2 := Formed.moveAll h
  exact hr.coreFault.countAct.modCore.finishFaulted

/-! ### Streams, moves, CSR and phases -/

theorem Formed.execSiss (h : Formed s) {core : Nat} {a : RField} : OutFormed (execSiss core a s) :=
  .seqStep h (.ite .trap (.ite .trap (.ite .stall .next)))

theorem Formed.execStreamStart (h : Formed s) {core port : Nat} {out : Bool} :
    OutFormed (execStreamStart core port out s) := by
  unfold Machine.execStreamStart
  refine .guardUnit ?_
  split
  · exact h
  · exact .ite h h.startStream

theorem Formed.execStreamComplete (h : Formed s) {core port : Nat} {out : Bool} :
    OutFormed (execStreamComplete core port out s) := by
  unfold Machine.execStreamComplete
  refine .guardUnit ?_
  split
  · exact h
  · exact .ite h h.completeStream

theorem Formed.execMoveStart (h : Formed s) {cluster : Nat} : OutFormed (execMoveStart cluster s) := by
  unfold Machine.execMoveStart
  refine .guardUnit ?_
  split
  · exact h
  · exact .ite h h.memElse.modCore

theorem Formed.execMoveComplete (h : Formed s) {cluster : Nat} : OutFormed (execMoveComplete cluster s) := by
  unfold Machine.execMoveComplete
  refine .guardUnit ?_
  split
  · exact h
  · exact .ite h h.completeMove

theorem Formed.execCsrr (h : Formed s) {core : Nat} {d : RField} {imm : BitVec 14} : OutFormed (execCsrr core d imm s) := by
  unfold Machine.execCsrr
  refine .seqStep h ?_
  extract_lets r
  have hr : Formed r.2 := by
    unfold r
    split
    · exact h.drawFree
    · exact h
  exact .whole hr.setCore

theorem Formed.execPrun (h : Formed s) {core : Nat} {a : RField} {imm : BitVec 14} : OutFormed (execPrun core a imm s) := by
  unfold Machine.execPrun
  refine .seqStep h (.ite .trap (.ite .trap ?_))
  split
  · exact .trap
  · exact .ite .trap (.ite .stall (.whole h.startPhaseOn))

theorem Formed.execCsw (h : Formed s) {core : Nat} {b : RField} : OutFormed (execCsw core b s) :=
  .seqStep h (.ite .stall (.whole h.switchCore))

theorem Formed.execPsync (h : Formed s) {core : Nat} : OutFormed (execPsync core s) :=
  .seqStep h (.ite .stall (.stay h.setCore))

theorem Formed.execPsyncRelease (h : Formed s) {region : Nat} : OutFormed (execPsyncRelease region s) := by
  unfold Machine.execPsyncRelease
  refine .next ?_
  split
  · exact h
  · exact h.whenTaken (h.foldl fun _ _ ht => ht.modCore)

theorem Formed.execProgramEnd (h : Formed s) {region : Nat} : OutFormed (execProgramEnd region s) := by
  unfold Machine.execProgramEnd
  refine .next ?_
  split
  · exact h.whenTaken h.closeRegion.finishRun
  · exact h

theorem Formed.execPhaseEnd (h : Formed s) {core : Nat} : OutFormed (execPhaseEnd core s) := by
  unfold Machine.execPhaseEnd
  refine .guardUnit ?_
  split
  · exact h
  · exact .ite h h.endPhaseOn.releaseWrites

theorem Formed.execTotalsTimeout (h : Formed s) {region die : Nat} : OutFormed (execTotalsTimeout region die s) := by
  unfold Machine.execTotalsTimeout
  refine .guardUnit ?_
  split
  · extract_lets
    split
    · exact h
    · extract_lets _ _ _ mark _ s1 s2
      have hmark : ∀ u b, Formed u → Formed (mark u b) := fun _ _ hu => hu.modCore
      have hs1 : Formed s1 := h.elsewhere.foldl fun _ _ ht => hmark _ _ ht
      have hs2 : Formed s2 := hs1.closeOpen
      exact .ite (.ite hs2.finishFaulted hs2.finishRun) hs1
  · exact h

/-! ### Vectors -/

theorem ResFormed.vecBin {d a b : RField} {w : BitVec 2} {op : Nat → Nat → Nat → Nat} {c : Core} :
    ResFormed (vecBin d a b w op c) :=
  .next

theorem ResFormed.vecFp {d a b : RField} {op : PV → PV → PV} {c : Core} : ResFormed (vecFp d a b op c) := .next

/-! ### The side channels -/

theorem Formed.smbusRun (h : Formed s) {writeBytes : List Byte} {readLen : Nat} : Formed (smbusRun writeBytes readLen s) :=
  .ite h.elsewhere h.elsewhere.elsewhere

theorem Formed.dbacc (h : Formed s) {off : Nat} {write : Bool} {value : W64} : Formed (dbacc off write value s) := by
  unfold Machine.dbacc
  split
  · exact .ite h h.elsewhere
  · exact .ite h.perform h.perform.elsewhere

end Sys2Proof.Machine
end

section
/-!
PROOF. Every command's row keeps the form, and so does a step (O58).
-/

namespace Sys2Proof.Machine

set_option Elab.async false

open Sys2Proof

variable {s : State}

/-- Row by row: what a row runs keeps the form. -/
theorem Formed.exec (h : Formed s) (i : Instr) : OutFormed (exec i s) := by
  cases i with
  | commandSlotWrite => exact .guardUnit (h.whenTaken (.ite h.writeSlots.acceptSlots.releaseFenced h.writeSlots))
  | loadConfig | switchContext | runPhase | runProgram | allReduce | reduceScatter | allGather | multicast
  | topkGather | fencePeer | unfencePeer | setRoutes | setRouteEpoch | copy | checkpoint | restore | reshard
  | reshardResume | reshardRollback | suspend | resume | cancel | queryDevice | queryLongOp | scrub | fwUpdate
  | bbExport | portRelease | portReleaseForce | portAdmit | reset | attest | debugUnlock | lcProvision | lcDeploy
  | lcReturn | setPowerState | stewardClaim | stewardYield => exact .hostRow h
  | longOpStart => exact h.execLongOpStart
  | pausePointReached => exact h.execPausePointReached
  | cancelUndoDone => exact h.execCancelUndoDone
  | longOpWorkEnd => exact h.execLongOpWorkEnd
  | completionRecordWrite => exact h.execCompletionRecordWrite
  | cpCqHeadWrite => exact .guardUnit (h.whenTaken h.writeCqHead)
  | cqEnable => exact .guardUnit (h.whenTaken h.writeCqEntries)
  | cpStewardKeepalive => exact .guardUnit (h.whenTaken h.renewLease)
  | stewardWindow => exact h.execStewardWindow
  | stewardLeaseExpiry => exact .next (h.whenTaken h.freeToken)
  | registerWrite => exact h.execRegisterWrite
  | registerAccessTimeout => exact .guardUnit h.failAccess
  | bar4Read => exact .guardUnit (h.whenTaken h.bar4Read)
  | bar4Write => exact .guardUnit (h.whenTaken h.bar4Write)
  | sensorRead => exact .guardUnit (h.whenTaken (h.mailbox fun _ ht => ht.sensorServe))
  | identityRead => exact .guardUnit (h.whenTaken (h.mailbox fun _ ht => ht.identityServe))
  | nonceDraw => exact .guardUnit (h.whenTaken h.drawNonce)
  | debugHalt | debugRelease | mcuHalt | mcuStep => exact .guardUnit (h.whenTaken h.dbCtrl)
  | bbRecSel => exact .guardUnit (h.whenTaken h.bbLatch)
  | bbNoteGo => exact .next (h.whenTaken h.noteGo)
  | ueStepWrite => exact .guardUnit (h.whenTaken h.writeUeStep)
  | attemptStart => exact .next (h.whenTaken h.rewriteRecord.orderCaravans)
  | phaseStart | cfgLoad | ctxSwitch => exact .guardUnit h.dieRow
  | collDesc => exact h.execCollDesc
  | regAccess => exact .guardUnit (.ite h h.accessRow)
  | completion => exact h.execCompletion
  | regReply => exact h.execRegReply
  | nack => exact h.execNack
  | telemetryInterval => exact .guardUnit (h.whenTaken (h.snapshot.sendStack.sendStack.foldl fun _ _ ht => ht.modPort))
  | counterSnapshot | expHistogram | satVanish | laneHealth | orderAck => exact .next h.teleRow
  | mgmtRequest => exact h.execMgmtRequest
  | waystationFault => exact h.execWaystationFault
  | throttle | halt | haltRelease | portShutdown | portRestore => exact .next h.orderRow
  | mgmtReply => exact h.execMgmtReply
  | interlockOrderRepeat => exact h.execInterlockOrderRepeat
  | fetch => exact h.execFetch
  | verify => exact h.execVerify
  | apply => exact h.execApply
  | report => exact h.execReport
  | prun => exact h.execPrun
  | pwait => exact .seqStep h (.ite .stall .next)
  | csw => exact h.execCsw
  | psync => exact h.execPsync
  | psyncRelease => exact h.execPsyncRelease
  | endProgram => exact .seqStep h (.ite .stall .next)
  | programEnd => exact h.execProgramEnd
  | phaseEnd => exact h.execPhaseEnd
  | totalsTimeout => exact h.execTotalsTimeout
  | add | sub | and | or | xor | sll | srl | sra | slt | sltu | min | max | minu | maxu | mul | mulhu | divu | remu =>
      exact .seqStep h .aluG
  | clz | popc | addi | andi | ori | xori | slti | sltiu | slli | srli | srai => exact .seqStep h .aluG1
  | lui => exact .seqStep h .next
  | lb | lbu | lh | lhu | lw | lwu | ld => exact .seqStep h (.loadG h)
  | sb | sh | sw | sd => exact .seqStep h (.storeG h)
  | fld => exact h.execFld
  | fsd => exact h.execFsd
  | vld => exact h.execVld
  | vst => exact h.execVst
  | beq | bne | blt | bge | bltu | bgeu => exact .seqStep h .branch
  | jal => exact .seqStep h .jump
  | jalr => exact .seqStep h (.ite .trap .jump)
  | fadd | fsub | fmul | fmin | fmax => exact .seqStep h .fpBin
  | fneg | fabs => exact .seqStep h .fpUn
  | fcmpEq | fcmpNe | fcmpLt | fcmpLe | fcmpGt | fcmpGe | fcmpUn => exact .seqStep h .fpCmp
  | fmvgf | fmvfg => exact .seqStep h .next
  | fma | fms | fnma => exact .seqStep h .fpTri
  | fsel => exact .seqStep h .next
  | vadd | vsub | vand | vor | vxor | vmin | vmax | vminu | vmaxu | vcmpeq | vcmpgt => exact .seqStep h .vecBin
  | vfaddD | vfsubD | vfmulD | vfminD | vfmaxD | vfcmpEqD | vfcmpLtD | vfcmpUnD => exact .seqStep h .vecFp
  | vfmaD | ptab | vsplat | vext | vins => exact .seqStep h .next
  | sldv2 | sldv3 | sldv4 => exact .sldv h
  | sstv2 | sstv3 | sstv4 => exact .sstv h
  | siss => exact h.execSiss
  | mvis => exact .seqStep h (.ite .trap (.ite .trap (.ite .stall .next)))
  | swait => exact .seqStep h (.ite .stall .next)
  | csrr => exact h.execCsrr
  | csrw => exact .seqStep h (.ite .trap (.ite .next (.ite .next .next)))
  | streamStart => exact h.execStreamStart
  | streamComplete => exact h.execStreamComplete
  | moveStart => exact h.execMoveStart
  | moveComplete => exact h.execMoveComplete
  | streamedOperand => exact .guardUnit (h.whenTaken (.ite h.bothStep (.ite h.gradientElement h.forwardElement)))
  | reductionTerm => exact h.execReductionTerm
  | topkElement => exact h.execTopkElement
  | bankLoad => exact h.execBankLoad
  | elementChain => exact h.execElementChain
  | drain => exact h.execDrain
  | pilotFrame => exact .guardUnit (.sendFrame (.ite h.hearFrame h.modPort))
  | pilotLost => exact .guardUnit (h.whenTaken (.enterPort (.modPort (.ite h.faultPort h))))
  | pilotDetectorLost => exact .guardUnit (h.whenTaken h.elsewhere)
  | rampDone => exact .guardUnit (h.whenTaken (.ite h.graded.failPort h.graded.enterPort))
  | trainDone => exact h.execTrainDone
  | laneGradeInterval => exact h.execLaneGradeInterval
  | laneMoveSwitch => exact h.execLaneMoveSwitch
  | releaseButton => exact .guardUnit (.ite h.modPort.modPort.relamp h.modPort.releasePort)
  | latchTouch => exact .guardUnit (.ite h.modPort h.modPort.modPort.lineOn)
  | latchHoldEnd => exact .guardUnit (.ite h.setPort.lineOff h.setPort)
  | latchSensorFault => exact .guardUnit (h.whenTaken h.modPort.elsewhere.lineOff)
  | laserDarkReading => exact .guardUnit (h.whenTaken h.modPort.relamp)
  | drainEnd => exact .guardUnit (h.whenTaken h.endDrain)
  | drainTimeout => exact .guardUnit (h.whenTaken h.discardEgress.faultPort.countPort.endDrain)
  | creditReturn => exact .guardUnit h.modPort.sendEgress.crossAll
  | packetInject => exact h.execPacketInject
  | packetRoute => exact h.execPacketRoute
  | dataPacketReceive => exact h.execDataPacketReceive
  | ack => exact h.execAck
  | packetNack => exact h.execPacketNack
  | fenced => exact h.execFenced
  | ackTimer => exact .next (h.whenTaken h.sendAck)
  | resendTimeout => exact h.execResendTimeout
  | epochRetire => exact h.execEpochRetire
  | caravanOpen => exact h.execCaravanOpen
  | data | ready | done | commit => exact .next h.takeEngine
  | abort => exact h.execAbort
  | statusReq | cycle => exact .next h.takeEngine
  | readyResend => exact h.execReadyResend
  | caravanTimeout => exact h.execCaravanTimeout
  | parkedTimeout => exact .next (h.whenTaken h.elsewhere.countCl)
  | workingCopyDone => exact .next (h.whenTaken (.orderCaravans (.elsewhere (h.foldl fun _ _ ht => ht.convertBucket))))
  | dramRead => exact .next (h.whenTaken h.controllerRead)
  | dramWrite => exact .next (h.whenTaken (h.foldl fun _ _ ht => ht.writeSector))
  | patrolRead => exact .guardUnit (h.whenTaken h.controllerRead.memElse)
  | retirementStart => exact h.execRetirementStart
  | retirementComplete => exact h.execRetirementComplete
  | managementPeriod => exact .next (h.whenTaken h.runPeriod)
  | powerSample mv ma => exact h.execPowerSample (mv := mv) (ma := ma)
  | lockMonitorWindow =>
      exact .next (.ite (.elsewhere (h.foldl fun _ _ ht => ht.pllFails)) (h.foldl fun _ _ ht => ht.pllFails))
  | droop => exact .guardUnit (h.whenTaken h.modCore.elsewhere)
  | recalTimeout | lockstepMismatch => exact .next (h.whenTaken h.elsewhere)
  | mcRestartDone => exact .next (h.whenTaken h.elsewhere.bbEvent.sendCurrent)
  | heartbeatLost => exact .next (h.whenTaken (.reportHold (.relampAll (h.elsewhere.foldl fun _ _ ht => ht.smHold))))
  | heartbeatRestored => exact .next (h.whenTaken (h.elsewhere.foldl fun _ _ ht => .ite ht.smFree ht))
  | fibrePowerHold => exact .guardUnit (.ite h.elsewhere.keepMax h.elsewhere.keepMax.elsewhere.smHold.relamp.reportHold)
  | safetyTrip => exact .next (h.whenTaken h.tripNow)
  | tripPowerOff => exact .next (h.whenTaken h.enterP4)
  | fuseOpen => exact .next (h.whenTaken (.ite h.elsewhere h.elsewhere.tripNow))
  | tripRestart => exact .next (h.whenTaken (.coldReset (.ite h.elsewhere h)))
  | safetyMonitorFail => exact h.execSafetyMonitorFail
  | safeLoopDriveEnd => exact .next (h.whenTaken h.elsewhere)
  | loopEvent => exact .next (h.whenTaken h.elsewhere.bbEvent.postEvent)
  | loopStuck => exact .next h.elsewhere
  | serviceButton => exact .next (h.whenTaken h.elsewhere.unlockOn)
  | presenceTimeout => exact h.execPresenceTimeout
  | mateChange => exact .next h.elsewhere
  | undervoltage => exact .next (.ite h.elsewhere h.elsewhere.elsewhere.bbEvent.beginTransition)
  | inputRestored => exact .next (.ite h.elsewhere.coldReset h.elsewhere)
  | dStateChange | perstHoldTimeout => exact .guardUnit (h.whenTaken h.modCp.followPower)
  | powerTransitionDone => exact h.execPowerTransitionDone
  | coldReset => exact h.execColdReset
  | warmReset => exact .next (.whenTaken (.ite h.modCp h) (.warmReset (.ite h.modCp h)))
  | quiesceEnd => exact .next (h.whenTaken h.elsewhere)
  | fabricReset => exact .next (h.whenTaken h.takeFabric)
  | portReset => exact .guardUnit (h.whenTaken h.resetPort.followPower)
  | bringupStep => exact h.execBringupStep
  | fwBootTimeout => exact h.execFwBootTimeout
  | windowClose => exact .next (h.whenTaken h.closeWindow)
  | perstRelease => exact .guardUnit (.ite (.ite h.modCp.coldReset h.modCp) h.modCp.followPower)
  | pcieLinkUp => exact .guardUnit (h.whenTaken h.modCp)
  | pilotDetectorPresent => exact .guardUnit h.elsewhere
  | droopRecovery => exact .guardUnit h.modCore
  | loopStuckEnd => exact .next (h.whenTaken h.elsewhere)
  | unlockScrubDone => exact h.execUnlockScrubDone
  | smbusAccess => exact .next (h.whenTaken h.smbusRun)
  | jtagDbacc => exact .next (h.whenTaken h.dbacc)

/-- Settles O58: the form is one of `Formed`, which every operation of the model keeps, each by what it is made of. -/
theorem everyStepKeepsTheForm : Obligations.EveryStepKeepsTheForm := by
  unfold Obligations.EveryStepKeepsTheForm
  intro s t hs ht
  have h : Formed s := formed_iff_inForm.2 hs
  refine formed_iff_inForm.1 ?_
  cases hq : s.pending with
  | nil =>
    rw [step_nil hq] at ht
    cases ht
    exact h
  | cons i rest =>
    rw [step_cons hq] at ht
    exact Formed.exec h.elsewhere i t ht

end Sys2Proof.Machine
end
section
/-!
PROOF. A host command that starts as soon as its port takes it, and completes as soon as it starts (R402, R405 to R408).
-/

namespace Sys2Proof.Machine

open Sys2Proof

/-! ### Acceptance -/

/-- The state in which a command starts that is not long and that no FENCE holds: NEXT has advanced, and its completion is owed. -/
def takenIn (h : CmdHdr) (op : Nat) (s : State) : State := rememberPlain (nextHandle s h.port) (enroll h op s)

theorem getCp_takenIn (h : CmdHdr) (op : Nat) (s : State) (q : Nat) :
    getCp (takenIn h op s) q = getCp (enroll h op s) q := rfl

theorem getCp_takenIn_same (h : CmdHdr) (op : Nat) (s : State) : getCp (takenIn h op s) h.port =
    { getCp s h.port with
      sqNext := (getCp s h.port).sqNext + 1,
      pend := (getCp s h.port).pend ++
        [{ seq := (getCp s h.port).sqNext, handle := nextHandle s h.port, opcode := op, tag := h.tag, vec := h.vec % 64,
           noIrq := h.noIrq, done := false }] } := by
  rw [getCp_takenIn]
  exact getCp_setCp_same ..

theorem fenced_enroll (h : CmdHdr) (op : Nat) (s : State) (q : Nat) : (getCp (enroll h op s) q).fenced = (getCp s q).fenced := by
  unfold enroll modCp
  rw [getCp_setCp]
  split
  next hq =>
    unfold getCp
    by_cases hp : h.port = 0 <;> simp_all
  · rfl

theorem portOfHandle_nextHandle {s : State} {port : Nat} (hp : port < 2) : portOfHandle (nextHandle s port) = port := by
  have hm := Nat.mod_lt (getCp s port).sqNext (show 0 < 2 ^ 31 by decide)
  unfold portOfHandle nextHandle
  omega

/-- A command that passes every check passes the check of its own. -/
theorem ownCheck_of_refusal {s : State} {c : Instr} {h : CmdHdr} {op token handle : Nat}
    (hr : refusal s c h op token handle = 0) : bodyOk s c = true ∧ ownCheck s c = 0 := by
  unfold refusal at hr
  split at hr
  · cases hr
  next hb =>
    split at hr
    · cases hr
    · dsimp only at hr
      refine ⟨by simp_all, ?_⟩
      split at hr
      · contradiction
      · split at hr
        · contradiction
        · split at hr
          · contradiction
          · exact hr

/-- Nothing that came before holds a command back behind its own FENCE. -/
theorem earlierLive_takenIn {s : State} {h : CmdHdr} {op : Nat} (hruns : (getCp s h.port).runsOn = [])
    (hdone : ∀ p ∈ (getCp s h.port).pend, p.done = true) : earlierLive (takenIn h op s) h.port (nextHandle s h.port) = false := by
  unfold earlierLive
  rw [getCp_takenIn_same]
  dsimp only
  rw [hruns]
  simp only [List.takeWhile_nil, List.isEmpty_nil, Bool.not_true, List.contains_nil, Bool.not_false, Bool.true_and, Bool.false_or]
  rw [List.any_eq_false]
  intro p hp
  have hmem := List.mem_append.1 ((List.takeWhile_prefix _).subset hp)
  have hne := List.mem_takeWhile_imp hp
  rcases hmem with hm | hm
  · simp [hdone p hm]
  · rw [List.mem_singleton.1 hm] at hne
    simp at hne

theorem accept_of_runs {s : State} {i : Instr} {h : CmdHdr} {op token : Nat} (hr : HostRuns s i h op token)
    (hlong : isLong i = false) (hop : op ≠ 0x0A02) :
    accept h op token i s = startCommand (nextHandle s h.port) h.port i (takenIn h op s) := by
  obtain ⟨hp, hcmd, hcan, hnew, hold, hok, hfence, hf0, hf1, hnext⟩ := hr
  have hfenced : (getCp (takenIn h op s) h.port).fenced = [] := by
    rw [getCp_takenIn, fenced_enroll]
    rcases (by omega : h.port = 0 ∨ h.port = 1) with e | e
    · rw [e]; exact hf0
    · rw [e]; exact hf1
  have hgo : (h.fence && earlierLive (takenIn h op s) h.port (nextHandle s h.port)) = false := by
    cases hb : h.fence with
    | false => rfl
    | true => exact earlierLive_takenIn (hfence hb).1 (hfence hb).2
  unfold accept
  dsimp only
  rw [if_pos hok]
  unfold takeIn
  dsimp only
  rw [hlong, if_neg hop]
  change (if ((h.fence && earlierLive (takenIn h op s) h.port (nextHandle s h.port)) ||
    !(getCp (takenIn h op s) h.port).fenced.isEmpty) = true then _ else startCommand _ _ _ (takenIn h op s)) = _
  rw [hgo, hfenced]
  rfl

theorem acceptSlots_of_nextEmpty {s t : State} {port : Nat} (n : Nat) (hs : nextSlotEmpty s port = true)
    (hslots : (getCp t port).slots = (getCp s port).slots) (hnext : (getCp t port).sqNext = (getCp s port).sqNext + 1) :
    acceptSlots port n t = t := by
  cases n with
  | zero => rfl
  | succ n =>
    have hb : ∀ i, slotBytes t port i = slotBytes s port i := fun i => by unfold slotBytes; rw [hslots]
    unfold acceptSlots
    dsimp only
    rw [hnext, hb, if_neg]
    unfold nextSlotEmpty at hs
    simp_all

theorem releaseFenced_of_none {s : State} (h0 : (getCp s 0).fenced = []) (h1 : (getCp s 1).fenced = []) :
    releaseFenced s = s := by
  unfold releaseFenced
  rw [h0]
  dsimp only [List.length_nil, releaseOn]
  rw [h1]
  rfl

/-! ### Completion -/

/-- The completion of a command just taken in: its record waits last at its port. -/
theorem complete_takenIn {s u : State} {h : CmdHdr} {op st : Nat} {res : List W64} (hp : h.port < 2)
    (hnew : ∀ p ∈ (getCp s h.port).pend, p.handle ≠ nextHandle s h.port) (hu : u.cp = (takenIn h op s).cp) :
    Completed s (complete (nextHandle s h.port) st 0 res u) h op st res ∧
      (getCp (complete (nextHandle s h.port) st 0 res u) h.port).slots = (getCp s h.port).slots ∧
      ∀ q, (getCp (complete (nextHandle s h.port) st 0 res u) q).fenced = (getCp s q).fenced := by
  have hcp : ∀ q, getCp u q = getCp (takenIn h op s) q := fun q => by unfold getCp; rw [hu]
  have hsame := (hcp h.port).trans (getCp_takenIn_same h op s)
  have hfind : (getCp u (portOfHandle (nextHandle s h.port))).pend.find?
      (fun p => p.handle == nextHandle s h.port && !p.done) =
        some { seq := (getCp s h.port).sqNext, handle := nextHandle s h.port, opcode := op, tag := h.tag, vec := h.vec % 64,
               noIrq := h.noIrq, done := false } := by
    rw [portOfHandle_nextHandle hp, hsame]
    dsimp only
    rw [List.find?_append, List.find?_eq_none.2 (fun p hm => by simp [hnew p hm])]
    simp
  rw [complete_known hfind, portOfHandle_nextHandle hp]
  have hget : ∀ f, getCp (modCp u h.port f) h.port = f (getCp u h.port) := fun f => getCp_setCp_same ..
  refine ⟨⟨?_, ?_⟩, ?_, fun q => ?_⟩
  · rw [hget, hsame]
  · rw [hget, hsame]
  · rw [hget, hsame]
  · unfold modCp
    rw [getCp_setCp]
    split
    next hq =>
      have hgq : getCp s q = getCp s h.port := by unfold getCp; simp [hq]
      rw [hgq, hsame]
    · rw [hcp, getCp_takenIn, fenced_enroll]

/-- A command that runs at once, and whose work ends with its completion, leaves what the work left and its record. -/
theorem exec_of_runs {s u : State} {i : Instr} {h : CmdHdr} {op token st : Nat} {res : List W64} (hr : HostRuns s i h op token)
    (hlong : isLong i = false) (hop : op ≠ 0x0A02) (hrow : exec i s = hostRow h i s) (hu : u.cp = (takenIn h op s).cp)
    (hstart : startCommand (nextHandle s h.port) h.port i (takenIn h op s) = complete (nextHandle s h.port) st 0 res u) :
    ∃ t, exec i s = .next t ∧ Completed s t h op st res ∧ t = { u with cp := t.cp } := by
  have hacc := accept_of_runs hr hlong hop
  obtain ⟨hp, hcmd, hcan, hnew, -, -, -, hf0, hf1, hnext⟩ := hr
  obtain ⟨hdone, hslots, hfenced⟩ := complete_takenIn (st := st) (res := res) hp hnew hu
  refine ⟨complete (nextHandle s h.port) st 0 res u, ?_, hdone, complete_onlyCp ..⟩
  rw [hrow]
  unfold hostRow acceptRow
  simp only [hcmd, hcan, hp, decide_true, guardUnit_true, if_true, hacc, hstart]
  rw [acceptSlots_of_nextEmpty _ hnext hslots hdone.2,
    releaseFenced_of_none ((hfenced 0).trans hf0) ((hfenced 1).trans hf1)]

end Sys2Proof.Machine
end

section
/-!
PROOF. COPY between device memory and host memory, sector by sector (R280, R418).
-/

namespace Sys2Proof.Machine

open Sys2Proof

/-! ### One whole sector -/

/-- An aligned sector is one piece. -/
theorem sectorPieces_sector {a : Nat} (ha : a % 32 = 0) : sectorPieces a 32 32 = [(a, 32)] := by
  simp [sectorPieces, ha]

theorem readBytes_length (s : State) (a n : Nat) : (readBytes s a n).length = n := by simp [readBytes]

theorem slice_whole {l : List Byte} (h : l.length = 32) : slice l 0 32 = l := by
  rw [slice_of_le (by omega), List.drop_zero, List.take_of_length_le (by omega)]

theorem deviceGet_of_sound {s : State} {a : Nat} (ha : a % 32 = 0) (h : readFaults s a = false) :
    deviceGet s a 32 = (readBytes s a 32, false) := by
  have hr : readSector s a = (readBytes s (a / 32 * 32) 32, false) := by simp [readSector, h]
  simp [deviceGet, sectorPieces_sector ha, hr, slice_readBytes_sector (show a % 32 + 32 ≤ 32 by omega)]

theorem noteReads_sector {s : State} {a : Nat} (ha : a % 32 = 0) (h : readFaults s a = false) :
    OnlyMoved s (noteReads s a 32) := by
  rw [noteReads, sectorPieces_sector ha, List.foldl_cons, List.foldl_nil, noteRead_of_sound h]
  exact countLine_onlyMoved s a

/-- Nothing but what memory holds and the count of bytes moved differs. -/
def OnlySectors (s t : State) : Prop :=
  t = { s with mem := { s.mem with bytes := t.mem.bytes, poison := t.mem.poison, stale := t.mem.stale, moved := t.mem.moved } }

theorem OnlySectors.trans {s t u : State} (h : OnlySectors s t) (g : OnlySectors t u) : OnlySectors s u := by
  unfold OnlySectors at *
  rw [g, h]

theorem OnlyMoved.onlySectors {s t : State} (h : OnlyMoved s t) : OnlySectors s t := by
  unfold OnlyMoved at h
  unfold OnlySectors
  rw [h]

theorem OnlySectors.deadSub {s t : State} (h : OnlySectors s t) (x : Nat) : deadSub t x = deadSub s x := by
  rw [h]
  rfl

theorem writeBytes_onlySectors : ∀ (l : List Byte) (s : State) (a : Nat), OnlySectors s (writeBytes s a l)
  | [], _, _ => rfl
  | b :: r, s, a => OnlySectors.trans (t := writeByte s a b) rfl (writeBytes_onlySectors r _ _)

/-- A whole sector written where no sub-channel is dead takes its bytes, or zeros and the mark, whatever stood there. -/
theorem writeSector_whole {s : State} {a : Nat} {bs : List Byte} (hd : isDram a = true) (hm : isMemory a = true)
    (ha : a % 32 = 0) (hlen : bs.length = 32) (halive : deadSub s a = false) (poison : Bool) :
    writeSector s a bs poison =
      countLine (retag (setSectorPoison (writeBytes s a (if poison then List.replicate 32 0 else bs)) a poison) a) a := by
  have hbase : a = a / 32 * 32 := by omega
  simp [writeSector, halive, hm, hd, ← hbase, hlen]

/-- A sound one takes its bytes. -/
theorem writeSector_whole_sound {s : State} {a : Nat} {bs : List Byte} (hd : isDram a = true) (hm : isMemory a = true)
    (ha : a % 32 = 0) (hlen : bs.length = 32) (halive : deadSub s a = false) :
    writeSector s a bs false = countLine (retag (setSectorPoison (writeBytes s a bs) a false) a) a :=
  writeSector_whole hd hm ha hlen halive false

theorem writeSector_whole_onlySectors {s : State} {a : Nat} {bs : List Byte} (hd : isDram a = true) (hm : isMemory a = true)
    (ha : a % 32 = 0) (hlen : bs.length = 32) (halive : deadSub s a = false) : OnlySectors s (writeSector s a bs false) := by
  rw [writeSector_whole_sound hd hm ha hlen halive]
  have hclear : OnlySectors (writeBytes s a bs) (retag (setSectorPoison (writeBytes s a bs) a false) a) := rfl
  exact ((writeBytes_onlySectors bs s a).trans hclear).trans (countLine_onlyMoved ..).onlySectors

theorem writeSector_whole_stores_alive {s : State} {a : Nat} {bs : List Byte} (hd : isDram a = true) (hm : isMemory a = true)
    (ha : a % 32 = 0) (hlen : bs.length = 32) (halive : deadSub s a = false) : Stores s a bs (writeSector s a bs false) := by
  rw [writeSector_whole_sound hd hm ha hlen halive]
  have hl := countLine_onlyMoved (retag (setSectorPoison (writeBytes s a bs) a false) a) a
  constructor
  · exact fun x => (hl.readByte x).trans (readByte_writeBytes x bs s a)
  · intro x hx
    rw [hl.readFaults]
    exact readFaults_retag (readFaults_clearPoison (by rw [readFaults_writeBytes, hx]) a) a
  · rw [hl]
    exact writeBytes_heldWrites ..
  · rw [hl]
    exact writeBytes_hostFault ..

theorem devicePut_sector {s : State} {handle a : Nat} {bs : List Byte} (hjob : a < retainedBase) (ha : a % 32 = 0)
    (hlen : bs.length = 32) (hh : s.mem.heldWrites = []) : devicePut handle a bs false s = writeSector s a bs false := by
  simp [devicePut, hlen, sectorPieces_sector ha, addrKind_of_job hjob, hostSector, storeHeld, hh, slice_whole hlen]

/-! ### Host memory -/

/-- Host memory as a port reads it (log entry 6). -/
def hostByte (s : State) (port a : Nat) : Byte := tget 0 (if port = 0 then s.env.hostA else s.env.hostB) a

theorem hostRead_eq (s : State) (port a n : Nat) : hostRead s port a n = (List.range n).map fun i => hostByte s port (a + i) := rfl

theorem tget_foldl_tput (x : Nat) : ∀ (bs : List Byte) (a : Nat) (m : Tbl Byte),
    tget 0 (((List.range bs.length).zip bs).foldl (fun t p => tput 0 t (a + p.1) p.2) m) x =
      if a ≤ x ∧ x < a + bs.length then bs.getD (x - a) 0 else tget 0 m x
  | [], a, m => (if_neg (by simp)).symm
  | b :: r, a, m => by
    have hzip : (List.range (b :: r).length).zip (b :: r) =
        (0, b) :: ((List.range r.length).zip r).map fun p => (p.1 + 1, p.2) := by
      rw [List.length_cons, List.range_succ_eq_map, List.zip_cons_cons, List.zip_map_left]
      rfl
    have ih := tget_foldl_tput x r (a + 1) (tput 0 m (a + 0) b)
    rw [hzip, List.foldl_cons, List.foldl_map]
    simp only [Nat.add_assoc, Nat.add_comm 1] at ih ⊢
    rw [ih, tget_tput, List.length_cons]
    by_cases h1 : a + 1 ≤ x ∧ x < a + (r.length + 1)
    · obtain ⟨k, hk⟩ : ∃ k, x - a = k + 1 := ⟨x - a - 1, by omega⟩
      rw [if_pos h1, if_pos (by omega), hk, List.getD_cons_succ, show x - (a + 1) = k by omega]
    · rw [if_neg h1]
      by_cases h2 : x = a + 0
      · rw [if_pos h2, if_pos (by omega), show x - a = 0 by omega, List.getD_cons_zero]
      · rw [if_neg h2, if_neg (by omega)]

theorem hostByte_hostWrite (s : State) (port a : Nat) (bs : List Byte) (x : Nat) :
    hostByte (hostWrite s port a bs) port x =
      if a ≤ x ∧ x < a + bs.length then bs.getD (x - a) 0 else hostByte s port x := by
  unfold hostByte hostWrite
  by_cases hp : port = 0
  · simp only [hp, if_true]
    exact tget_foldl_tput x bs a s.env.hostA
  · simp only [hp, if_false]
    exact tget_foldl_tput x bs a s.env.hostB

/-- What a write of bytes to host memory has done: they read back, every other byte stays, and of device memory only the count of
bytes moved differs. -/
structure HostStores (port : Nat) (s : State) (a : Nat) (bs : List Byte) (t : State) : Prop where
  bytes : ∀ x, hostByte t port x = if a ≤ x ∧ x < a + bs.length then bs.getD (x - a) 0 else hostByte s port x
  mem : t.mem = { s.mem with moved := t.mem.moved }
  cp : t.cp = s.cp

theorem HostStores.nil (port : Nat) (s : State) (a : Nat) : HostStores port s a [] s :=
  ⟨fun _ => (if_neg (by simp)).symm, rfl, rfl⟩

theorem HostStores.append {port : Nat} {s t u : State} {a : Nat} {xs ys : List Byte} (h : HostStores port s a xs t)
    (g : HostStores port t (a + xs.length) ys u) : HostStores port s a (xs ++ ys) u where
  bytes x := by
    rw [g.bytes, h.bytes, List.length_append]
    by_cases hx : a ≤ x ∧ x < a + xs.length
    · rw [if_neg (by omega), if_pos hx, if_pos (by omega), List.getD_append _ _ _ _ (by omega)]
    · by_cases hy : a + xs.length ≤ x ∧ x < a + xs.length + ys.length
      · rw [if_pos hy, if_pos (by omega), List.getD_append_right _ _ _ _ (by omega), Nat.sub_add_eq]
      · rw [if_neg hy, if_neg hx, if_neg (by omega)]
  mem := by rw [g.mem, h.mem]
  cp := g.cp.trans h.cp

theorem HostStores.readFaults {port : Nat} {s t : State} {a : Nat} {bs : List Byte} (h : HostStores port s a bs t) (x : Nat) :
    readFaults t x = readFaults s x := by
  unfold Machine.readFaults sectorPoison tagFault tagNow expectedTag unscrubbed prevGen deadSub subEntry
  rw [h.mem]

theorem HostStores.readBytes {port : Nat} {s t : State} {a : Nat} {bs : List Byte} (h : HostStores port s a bs t) (b n : Nat) :
    readBytes t b n = readBytes s b n := by
  unfold Machine.readBytes readByte
  rw [h.mem]

/-- A sound element of a transfer written to host memory. -/
theorem hostPut_stores {port a : Nat} {bs : List Byte} {s : State} : HostStores port s a bs (hostPut port a bs false s) where
  bytes x := hostByte_hostWrite s port a bs x
  mem := rfl
  cp := rfl

/-! ### The elements of a COPY -/

/-- What a COPY reads: host memory for DIRECTION 1, device memory otherwise. -/
def copyData (s : State) (port dir a n : Nat) : List Byte := if dir = 1 then hostRead s port a n else readBytes s a n

theorem copyData_length (s : State) (port dir a n : Nat) : (copyData s port dir a n).length = n := by
  unfold copyData
  split <;> simp [hostRead, readBytes]

theorem copyData_add (s : State) (port dir a m n : Nat) :
    copyData s port dir a (m + n) = copyData s port dir a m ++ copyData s port dir (a + m) n := by
  unfold copyData
  split
  · simp [hostRead, List.range_add, Nat.add_assoc]
  · exact readBytes_add s a m n

/-- One element into device memory, from a source that does not fault. -/
theorem copyFrom_succ_stores {s : State} {port handle src dst dir n i : Nat} (hdir : dir ≠ 2) (hsrc : src % 32 = 0)
    (hdst : dst % 32 = 0) (hjob : dst + 32 * (i + 1) ≤ retainedBase) (hh : s.mem.heldWrites = []) (hp : s.env.hostPoison = [])
    (hsound : dir = 1 ∨ readFaults s (src + 32 * i) = false) (halive : deadSub s (dst + 32 * i) = false) :
    ∃ t, copyFrom port handle src dst dir (n + 1) i (none, 0) s = copyFrom port handle src dst dir n (i + 1) (none, 0) t ∧
      Stores s (dst + 32 * i) (copyData s port dir (src + 32 * i) 32) t ∧ OnlySectors s t := by
  have hb : dst + 32 * i < retainedBase := by omega
  have hread : ∃ s0, OnlyMoved s s0 ∧ (if dir = 1 then s else noteReads s (src + 32 * i) 32) = s0 ∧
      (if dir = 1 then (hostRead s port (src + 32 * i) 32, hostPoisoned s port (src + 32 * i) 32)
        else deviceGet s (src + 32 * i) 32) = (copyData s port dir (src + 32 * i) 32, false) := by
    unfold copyData
    split
    · refine ⟨s, OnlyMoved.refl s, rfl, ?_⟩
      simp [hostPoisoned, hp]
    next hne =>
      have hs := hsound.resolve_left hne
      exact ⟨_, noteReads_sector (by omega) hs, rfl, deviceGet_of_sound (by omega) hs⟩
  obtain ⟨s0, h0, hnote, hget⟩ := hread
  have hh0 : s0.mem.heldWrites = [] := by rw [h0]; exact hh
  have ha0 : deadSub s0 (dst + 32 * i) = false := by rw [h0.onlySectors.deadSub, halive]
  have hlen := copyData_length s port dir (src + 32 * i) 32
  have hal : (dst + 32 * i) % 32 = 0 := by omega
  refine ⟨writeSector s0 (dst + 32 * i) (copyData s port dir (src + 32 * i) 32) false, ?_,
    h0.stores (writeSector_whole_stores_alive (isDram_of_job hb) (isMemory_of_job hb) hal hlen ha0),
    h0.onlySectors.trans (writeSector_whole_onlySectors (isDram_of_job hb) (isMemory_of_job hb) hal hlen ha0)⟩
  rw [copyFrom]
  dsimp only
  rw [hget, hnote, if_neg hdir, devicePut_sector hb hal hlen hh0, sectorPieces_sector hal]
  simp [halive]

/-- The elements into device memory, one after another, from a source apart from the destination. -/
theorem copyFrom_stores {port handle src dst dir : Nat} (hdir : dir ≠ 2) (hsrc : src % 32 = 0) (hdst : dst % 32 = 0) :
    ∀ (n i : Nat) (s : State), dst + 32 * (i + n) ≤ retainedBase →
    (dir = 1 ∨ src + 32 * (i + n) ≤ dst ∨ dst + 32 * (i + n) ≤ src) → s.mem.heldWrites = [] → s.env.hostPoison = [] →
    (∀ k, i ≤ k → k < i + n → (dir = 1 ∨ readFaults s (src + 32 * k) = false) ∧ deadSub s (dst + 32 * k) = false) →
    ∃ t, copyFrom port handle src dst dir n i (none, 0) s = ((none, 0), t) ∧
      Stores s (dst + 32 * i) (copyData s port dir (src + 32 * i) (32 * n)) t ∧ OnlySectors s t
  | 0, i, s, _, _, _, _, _ => by
    refine ⟨s, rfl, ?_, rfl⟩
    rw [Nat.mul_zero, List.eq_nil_of_length_eq_zero (copyData_length ..)]
    exact Stores.nil ..
  | n + 1, i, s, hjob, hapart, hh, hp, hr => by
    obtain ⟨hs, ha⟩ := hr i (Nat.le_refl i) (by omega)
    obtain ⟨u, hu, hfirst, honly⟩ := copyFrom_succ_stores (port := port) (handle := handle) (n := n) hdir hsrc hdst (by omega)
      hh hp hs ha
    obtain ⟨t, ht, hrest, honly'⟩ := copyFrom_stores hdir hsrc hdst n (i + 1) u (by omega) (by omega)
      (hfirst.held.trans hh) (by rw [honly]; exact hp) fun k hlo hhi => by
        obtain ⟨hs, ha⟩ := hr k (by omega) (by omega)
        exact ⟨hs.imp_right (hfirst.sound _), by rw [honly.deadSub, ha]⟩
    have hdata : copyData u port dir (src + 32 * (i + 1)) (32 * n) = copyData s port dir (src + 32 * i + 32) (32 * n) := by
      unfold copyData
      split
      · rw [honly]
        rfl
      next hne =>
        refine (hfirst.readBytes_of_disjoint ?_).trans rfl
        rw [copyData_length]
        omega
    refine ⟨t, hu.trans ht, ?_, honly.trans honly'⟩
    rw [Nat.mul_succ, Nat.add_comm (32 * n), copyData_add]
    refine hfirst.append ?_
    rw [copyData_length, ← hdata]
    exact hrest

/-- The elements into host memory, one after another. -/
theorem copyFrom_hostStores {port handle src dst : Nat} (hsrc : src % 32 = 0) :
    ∀ (n i : Nat) (s : State), (∀ k, i ≤ k → k < i + n → readFaults s (src + 32 * k) = false) →
    ∃ t, copyFrom port handle src dst 2 n i (none, 0) s = ((none, 0), t) ∧
      HostStores port s (dst + 32 * i) (readBytes s (src + 32 * i) (32 * n)) t
  | 0, i, s, _ => ⟨s, rfl, HostStores.nil ..⟩
  | n + 1, i, s, hr => by
    have hs := hr i (Nat.le_refl i) (by omega)
    have hal : (src + 32 * i) % 32 = 0 := by omega
    have h0 := noteReads_sector hal hs
    have hput := hostPut_stores (port := port) (a := dst + 32 * i) (bs := readBytes s (src + 32 * i) 32)
      (s := noteReads s (src + 32 * i) 32)
    have hfirst : HostStores port s (dst + 32 * i) (readBytes s (src + 32 * i) 32)
        (hostPut port (dst + 32 * i) (readBytes s (src + 32 * i) 32) false (noteReads s (src + 32 * i) 32)) := by
      refine ⟨fun x => ?_, ?_, ?_⟩
      · rw [hput.bytes, h0]
        rfl
      · rw [hput.mem, h0]
      · rw [hput.cp, h0]
    obtain ⟨t, ht, hrest⟩ := copyFrom_hostStores hsrc n (i + 1) _ fun k hlo hhi => by
      rw [hfirst.readFaults]
      exact hr k (by omega) (by omega)
    refine ⟨t, ?_, ?_⟩
    · rw [copyFrom]
      dsimp only
      rw [deviceGet_of_sound hal hs]
      exact ht
    · rw [Nat.mul_succ, Nat.add_comm (32 * n), readBytes_add]
      refine hfirst.append ?_
      rw [hfirst.readBytes] at hrest
      rw [readBytes_length]
      exact hrest

/-! ### The command -/

/-- A COPY none of whose elements faults completes with ST_OK and no fault counted. -/
theorem runCopy_of_sound {s t : State} {port handle src dst len dir : Nat}
    (ht : copyFrom port handle src dst dir (len / 32) 0 (none, 0) s = ((none, 0), t)) (hh : t.mem.heldWrites = [])
    (hc : t.mem.copies = []) : runCopy port handle src dst len dir s = complete handle 0 0 [0, 0] t := by
  have hback : ({ t with mem := { t.mem with heldWrites := [], copies := [] } } : State) = t := by rw [← hc, ← hh]
  unfold runCopy
  rw [ht]
  simp [settleCopies, hh, hc, hback]

theorem startCommand_copy {s : State} {hdr : CmdHdr} {handle port src dst len dir : Nat}
    (h : ownCheck s (.copy hdr src dst len dir) = 0) :
    startCommand handle port (.copy hdr src dst len dir) s = runCopy port handle src dst len dir s := by
  unfold startCommand
  simp only [h, isLong, ne_eq, not_true_eq_false, Bool.false_eq_true, if_false]
  rfl

/-- A COPY that its port takes at once, and none of whose elements faults. -/
theorem exec_copy_of_runs {s u : State} {h : CmdHdr} {src dst len dir : Nat}
    (hr : HostRuns s (.copy h src dst len dir) h 0x0501 0)
    (hu : copyFrom h.port (nextHandle s h.port) src dst dir (len / 32) 0 (none, 0) (takenIn h 0x0501 s) = ((none, 0), u))
    (hcp : u.cp = (takenIn h 0x0501 s).cp) (hh : u.mem.heldWrites = []) (hc : u.mem.copies = []) :
    Answers (.copy h src dst len dir) s fun t => Completed s t h 0x0501 0 [0, 0] ∧ t = { u with cp := t.cp } := by
  have ⟨_, _, _, _, _, hok, _⟩ := hr
  have hown : ownCheck (takenIn h 0x0501 s) (.copy h src dst len dir) = 0 := (ownCheck_of_refusal hok).2
  refine exec_of_runs hr rfl (by decide) rfl hcp ?_
  rw [startCommand_copy hown, runCopy_of_sound hu hh hc]

theorem len_of_copyRuns {s : State} {h : CmdHdr} {src dst len dir : Nat} (hr : HostRuns s (.copy h src dst len dir) h 0x0501 0) :
    32 * (len / 32) = len := by
  obtain ⟨-, -, -, -, -, hok, -⟩ := hr
  have hb := (ownCheck_of_refusal hok).1
  simp only [bodyOk, Bool.and_eq_true, beq_iff_eq] at hb
  obtain ⟨⟨hlen, -⟩, -⟩ := hb
  omega

/-- A COPY into device memory carries every byte and leaves the others. -/
theorem exec_copy_stores {s : State} {h : CmdHdr} {src dst len dir : Nat} (hdir : dir ≠ 2)
    (hr : HostRuns s (.copy h src dst len dir) h 0x0501 0) (hsrc : src % 32 = 0) (hdst : dst % 32 = 0)
    (hjob : dst + len ≤ retainedBase) (hapart : dir = 1 ∨ src + len ≤ dst ∨ dst + len ≤ src) (hh : s.mem.heldWrites = [])
    (hc : s.mem.copies = []) (hp : s.env.hostPoison = []) (hsound : dir = 1 ∨ ∀ i, i < len → readFaults s (src + i) = false)
    (halive : ∀ i, i < len → deadSub s (dst + i) = false) : Answers (.copy h src dst len dir) s fun t =>
      Completed s t h 0x0501 0 [0, 0] ∧
        (∀ i, i < len → readByte t (dst + i) = (copyData s h.port dir src len).getD i 0) ∧
        ∀ a, (a < dst ∨ dst + len ≤ a) → readByte t a = readByte s a := by
  have hlen := len_of_copyRuns hr
  obtain ⟨u, hu, hstores, honly⟩ := copyFrom_stores (port := h.port) (handle := nextHandle s h.port) hdir hsrc hdst (len / 32) 0
    (takenIn h 0x0501 s) (by omega) (by omega) hh hp fun k _ hk =>
      ⟨hsound.imp_right fun f => f (32 * k) (by omega), halive (32 * k) (by omega)⟩
  obtain ⟨t, hexec, hdone, ht⟩ := exec_copy_of_runs hr hu (by rw [honly]) (by rw [honly]; exact hh) (by rw [honly]; exact hc)
  have hbytes : ∀ x, readByte t x = if dst ≤ x ∧ x < dst + len then (copyData s h.port dir src len).getD (x - dst) 0
      else readByte s x := by
    intro x
    have hx := hstores.bytes x
    rw [copyData_length, Nat.mul_zero, Nat.add_zero, hlen] at hx
    rw [ht]
    exact hx
  refine ⟨t, hexec, hdone, fun i hi => ?_, fun a ha => ?_⟩
  · rw [hbytes, if_pos (by omega), Nat.add_sub_cancel_left]
  · rw [hbytes, if_neg (by omega)]

/-- A COPY into host memory carries every byte and leaves device memory. -/
theorem exec_copy_hostStores {s : State} {h : CmdHdr} {src dst len : Nat} (hr : HostRuns s (.copy h src dst len 2) h 0x0501 0)
    (hsrc : src % 32 = 0) (hh : s.mem.heldWrites = []) (hc : s.mem.copies = [])
    (hsound : ∀ i, i < len → readFaults s (src + i) = false) : Answers (.copy h src dst len 2) s fun t =>
      Completed s t h 0x0501 0 [0, 0] ∧ (∀ i, i < len → hostByte t h.port (dst + i) = readByte s (src + i)) ∧
        t.mem.bytes = s.mem.bytes := by
  have hlen := len_of_copyRuns hr
  obtain ⟨u, hu, hstores⟩ := copyFrom_hostStores (port := h.port) (handle := nextHandle s h.port) (dst := dst) hsrc (len / 32) 0
    (takenIn h 0x0501 s) fun k _ hk => hsound (32 * k) (by omega)
  obtain ⟨t, hexec, hdone, ht⟩ := exec_copy_of_runs hr hu hstores.cp (by rw [hstores.mem]; exact hh) (by rw [hstores.mem]; exact hc)
  refine ⟨t, hexec, hdone, fun i hi => ?_, ?_⟩
  · have hx := hstores.bytes (dst + i)
    rw [readBytes_length, Nat.mul_zero, Nat.add_zero, Nat.add_zero, hlen, if_pos (by omega), Nat.add_sub_cancel_left,
      getD_readBytes hi] at hx
    rw [ht]
    exact hx
  · rw [ht]
    change u.mem.bytes = s.mem.bytes
    rw [hstores.mem]
    rfl

/-- Settles O34: COPY takes its elements one after another, each a whole sector that no fault touches. -/
theorem copyMovesEveryByte : Obligations.CopyMovesEveryByte := by
  unfold Obligations.CopyMovesEveryByte
  intro s h src dst len
  dsimp only
  intro hh hc hp hsrc hdst
  refine ⟨fun hr _ hjob hapart hsound halive => ?_, fun hr hjob halive => ?_, fun hr _ hsound => ?_⟩
  · obtain ⟨t, hexec, hdone, hbytes, hrest⟩ :=
      exec_copy_stores (by decide) hr hsrc hdst hjob (.inr hapart) hh hc hp (.inr hsound) halive
    exact ⟨t, hexec, hdone, fun i hi => (hbytes i hi).trans (getD_readBytes hi), hrest⟩
  · obtain ⟨t, hexec, hdone, hbytes, hrest⟩ :=
      exec_copy_stores (by decide) hr hsrc hdst hjob (.inl rfl) hh hc hp (.inl rfl) halive
    refine ⟨t, hexec, hdone, fun i hi => (hbytes i hi).trans ?_, hrest⟩
    simp [copyData, hostRead_eq, List.getD_eq_getElem?_getD, hi, hostByte]
  · exact exec_copy_hostStores hr hsrc hh hc hsound

end Sys2Proof.Machine
end
section
/-!
PROOF. The code of the burst (R270, R276): GF(2^8) is a field, a word without errors decodes to itself, and one wrong symbol is
found and corrected.
-/

namespace Sys2Proof.Machine

open Sys2Proof

/-! ### Sums in GF(2^8) -/

theorem xor_xor_xor_same (x y d : Byte) : (x ^^^ d) ^^^ (y ^^^ d) = x ^^^ y := by
  rw [BitVec.xor_assoc, BitVec.xor_comm y d, ← BitVec.xor_assoc d, BitVec.xor_self, BitVec.zero_xor]

theorem gfDouble_eq (a : Byte) : gfDouble a = (a <<< 1) ^^^ (if a.getLsbD 7 then 0x1D else 0) := by
  unfold gfDouble
  split <;> simp

theorem gfDouble_xor (a b : Byte) : gfDouble (a ^^^ b) = gfDouble a ^^^ gfDouble b := by
  rw [gfDouble_eq, gfDouble_eq, gfDouble_eq, BitVec.shiftLeft_xor_distrib, BitVec.getLsbD_xor]
  cases a.getLsbD 7 <;> cases b.getLsbD 7 <;> simp [xor_xor_xor_same] <;> ac_rfl

/-- The sum of a linear function's parts: two sums-preserving maps that agree on the bits agree. -/
theorem eq_of_xor_linear {f g : Byte → Byte} (hf : ∀ a b, f (a ^^^ b) = f a ^^^ f b) (hg : ∀ a b, g (a ^^^ b) = g a ^^^ g b)
    (h : ∀ i < 8, f (1#8 <<< i) = g (1#8 <<< i)) (a : Byte) : f a = g a := by
  have hzero : ∀ {k : Byte → Byte}, (∀ a b, k (a ^^^ b) = k a ^^^ k b) → k 0#8 = 0#8 := fun {k} hk => by
    have := hk 0 0
    rw [BitVec.xor_self] at this
    rw [this, BitVec.xor_self]
  have hlow : ∀ n ≤ 8, ∀ a : Byte, (∀ i, n ≤ i → a.getLsbD i = false) → f a = g a := by
    intro n
    induction n with
    | zero =>
      intro _ a ha
      have : a = 0#8 := BitVec.eq_of_getLsbD_eq fun i _ => by rw [ha i (Nat.zero_le i)]; simp
      rw [this, hzero hf, hzero hg]
    | succ n ih =>
      intro hn a ha
      cases hb : a.getLsbD n with
      | false =>
        refine ih (by omega) a fun i hi => ?_
        rcases Nat.eq_or_lt_of_le hi with rfl | hlt
        · exact hb
        · exact ha i hlt
      | true =>
        have hrest : f (a ^^^ 1#8 <<< n) = g (a ^^^ 1#8 <<< n) := by
          refine ih (by omega) _ fun i hi => ?_
          rcases Nat.eq_or_lt_of_le hi with rfl | hlt
          · simp [hb, show n < 8 by omega]
          · have hne : i - n ≠ 0 := by omega
            simp [ha i hlt, hne]
        have hsplit : a = (a ^^^ 1#8 <<< n) ^^^ 1#8 <<< n := by rw [BitVec.xor_assoc, BitVec.xor_self, BitVec.xor_zero]
        rw [hsplit, hf, hg, hrest, h n (by omega)]
  exact hlow 8 (Nat.le_refl 8) a fun i hi => BitVec.getLsbD_of_ge a i hi

/-! ### Products -/

/-- One step of a product. -/
def gfStep (b : Byte) (acc : Byte × Byte) (i : Nat) : Byte × Byte :=
  (if b.getLsbD i then acc.1 ^^^ acc.2 else acc.1, gfDouble acc.2)

theorem gfMul_eq (a b : Byte) : gfMul a b = ((List.range 8).foldl (gfStep b) (0#8, a)).1 := rfl

theorem foldl_gfStep_xor (b : Byte) : ∀ (l : List Nat) (x y d e : Byte),
    l.foldl (gfStep b) (x ^^^ y, d ^^^ e) =
      ((l.foldl (gfStep b) (x, d)).1 ^^^ (l.foldl (gfStep b) (y, e)).1,
        (l.foldl (gfStep b) (x, d)).2 ^^^ (l.foldl (gfStep b) (y, e)).2)
  | [], _, _, _, _ => rfl
  | i :: r, x, y, d, e => by
    have hstep : gfStep b (x ^^^ y, d ^^^ e) i =
        ((gfStep b (x, d) i).1 ^^^ (gfStep b (y, e) i).1, (gfStep b (x, d) i).2 ^^^ (gfStep b (y, e) i).2) := by
      unfold gfStep
      rw [gfDouble_xor]
      cases b.getLsbD i with
      | false => simp
      | true => simp; ac_rfl
    rw [List.foldl_cons, hstep, foldl_gfStep_xor b r]
    rfl

theorem gfMul_xor_left (a a' b : Byte) : gfMul (a ^^^ a') b = gfMul a b ^^^ gfMul a' b := by
  have h := foldl_gfStep_xor b (List.range 8) 0#8 0#8 a a'
  rw [BitVec.xor_self] at h
  rw [gfMul_eq, h]
  rfl

theorem foldl_gfStep_factor (b c : Byte) : ∀ (l : List Nat) (x y d : Byte),
    (l.foldl (gfStep (b ^^^ c)) (x ^^^ y, d)).1 = (l.foldl (gfStep b) (x, d)).1 ^^^ (l.foldl (gfStep c) (y, d)).1
  | [], _, _, _ => rfl
  | i :: r, x, y, d => by
    have hstep : gfStep (b ^^^ c) (x ^^^ y, d) i = ((gfStep b (x, d) i).1 ^^^ (gfStep c (y, d) i).1, gfDouble d) := by
      unfold gfStep
      rw [BitVec.getLsbD_xor]
      cases b.getLsbD i <;> cases c.getLsbD i <;> simp [xor_xor_xor_same] <;> ac_rfl
    rw [List.foldl_cons, hstep, foldl_gfStep_factor b c r]
    rfl

theorem gfMul_xor_right (a b b' : Byte) : gfMul a (b ^^^ b') = gfMul a b ^^^ gfMul a b' := by
  have h := foldl_gfStep_factor b b' (List.range 8) 0#8 0#8 a
  rw [BitVec.xor_self] at h
  exact h

theorem gfMul_comm (a b : Byte) : gfMul a b = gfMul b a := by
  refine eq_of_xor_linear (f := fun a => gfMul a b) (g := fun a => gfMul b a) (fun _ _ => gfMul_xor_left ..)
    (fun _ _ => gfMul_xor_right ..) (fun i hi => ?_) a
  refine eq_of_xor_linear (f := fun b => gfMul (1#8 <<< i) b) (g := fun b => gfMul b (1#8 <<< i)) (fun _ _ => gfMul_xor_right ..)
    (fun _ _ => gfMul_xor_left ..) (fun j hj => ?_) b
  have hbits : ∀ i < 8, ∀ j < 8, gfMul (1#8 <<< i) (1#8 <<< j) = gfMul (1#8 <<< j) (1#8 <<< i) := by decide
  exact hbits i hi j hj

theorem gfMul_one (a : Byte) : gfMul a 1#8 = a := by
  refine eq_of_xor_linear (f := fun a => gfMul a 1#8) (g := id) (fun _ _ => gfMul_xor_left ..) (fun _ _ => rfl) ?_ a
  decide

theorem gfMul_zero (a : Byte) : gfMul a 0#8 = 0#8 := by
  have h := gfMul_xor_right a 0#8 0#8
  rw [BitVec.xor_self] at h
  rw [h, BitVec.xor_self]

theorem zero_gfMul (a : Byte) : gfMul 0#8 a = 0#8 := by rw [gfMul_comm, gfMul_zero]

theorem gfMul_gfDouble (a b : Byte) : gfMul a (gfDouble b) = gfDouble (gfMul a b) := by
  refine eq_of_xor_linear (f := fun a => gfMul a (gfDouble b)) (g := fun a => gfDouble (gfMul a b))
    (fun _ _ => gfMul_xor_left ..) (fun _ _ => by rw [gfMul_xor_left, gfDouble_xor]) (fun i hi => ?_) a
  refine eq_of_xor_linear (f := fun b => gfMul (1#8 <<< i) (gfDouble b)) (g := fun b => gfDouble (gfMul (1#8 <<< i) b))
    (fun _ _ => by rw [gfDouble_xor, gfMul_xor_right]) (fun _ _ => by rw [gfMul_xor_right, gfDouble_xor]) (fun j hj => ?_) b
  have hbits : ∀ i < 8, ∀ j < 8, gfMul (1#8 <<< i) (gfDouble (1#8 <<< j)) = gfDouble (gfMul (1#8 <<< i) (1#8 <<< j)) := by decide
  exact hbits i hi j hj

theorem gfMul_assoc (a b c : Byte) : gfMul (gfMul a b) c = gfMul a (gfMul b c) := by
  refine eq_of_xor_linear (f := fun c => gfMul (gfMul a b) c) (g := fun c => gfMul a (gfMul b c))
    (fun _ _ => gfMul_xor_right ..) (fun _ _ => by rw [gfMul_xor_right, gfMul_xor_right]) (fun i hi => ?_) c
  induction i with
  | zero =>
    change gfMul (gfMul a b) 1#8 = gfMul a (gfMul b 1#8)
    rw [gfMul_one, gfMul_one]
  | succ i ih =>
    have hbits : ∀ i < 7, 1#8 <<< (i + 1) = gfDouble (1#8 <<< i) := by decide
    have ih := ih (by omega)
    rw [hbits i (by omega), gfMul_gfDouble, gfMul_gfDouble, gfMul_gfDouble, ih]

/-! ### Powers and inverses -/

theorem gfExp_succ (a : Byte) (n : Nat) : gfExp a (n + 1) = gfMul (gfExp a n) a := by
  unfold gfExp
  rw [List.range_succ, List.foldl_append]
  rfl

theorem gfExp_one (a : Byte) : gfExp a 1 = a := (gfMul_comm 1#8 a).trans (gfMul_one a)

theorem gfExp_add (a : Byte) (m n : Nat) : gfExp a (m + n) = gfMul (gfExp a m) (gfExp a n) := by
  induction n with
  | zero => exact (gfMul_one _).symm
  | succ n ih => rw [← Nat.add_assoc, gfExp_succ, ih, gfExp_succ, gfMul_assoc]

/-- Squaring preserves sums, and eight squarings bring every element back. -/
theorem gfExp_256 (a : Byte) : gfExp a 256 = a := by
  have hsq : ∀ a b : Byte, gfMul (a ^^^ b) (a ^^^ b) = gfMul a a ^^^ gfMul b b := fun a b => by
    rw [gfMul_xor_left, gfMul_xor_right, gfMul_xor_right, gfMul_comm b a, BitVec.xor_assoc,
      ← BitVec.xor_assoc (gfMul a b) (gfMul a b), BitVec.xor_self, BitVec.zero_xor]
  have hdouble : ∀ n, gfExp a (n + n) = gfMul (gfExp a n) (gfExp a n) := fun n => gfExp_add a n n
  have hpow : ∀ k, gfExp a (2 ^ k) = (fun x => gfMul x x)^[k] a := by
    intro k
    induction k with
    | zero => exact gfExp_one a
    | succ k ih => rw [pow_succ, Nat.mul_two, hdouble, ih, Function.iterate_succ_apply']
  have hlin : ∀ k (a b : Byte), (fun x => gfMul x x)^[k] (a ^^^ b) = (fun x => gfMul x x)^[k] a ^^^ (fun x => gfMul x x)^[k] b := by
    intro k
    induction k with
    | zero => exact fun _ _ => rfl
    | succ k ih =>
      intro a b
      rw [Function.iterate_succ_apply, Function.iterate_succ_apply, Function.iterate_succ_apply]
      rw [hsq, ih]
  refine (hpow 8).trans (eq_of_xor_linear (g := id) (hlin 8) (fun _ _ => rfl) ?_ a)
  decide

theorem gfMul_idempotent : ∀ u : Byte, gfMul u u = u → u = 0#8 ∨ u = 1#8 := by decide

theorem gfInv_gfMul {a : Byte} (ha : a ≠ 0#8) : gfMul (gfInv a) a = 1#8 := by
  have hu : gfMul (gfInv a) a = gfExp a 255 := (gfExp_succ a 254).symm
  have hback : gfMul (gfExp a 255) a = a := (gfExp_succ a 255).symm.trans (gfExp_256 a)
  have hidem : gfMul (gfExp a 255) (gfExp a 255) = gfExp a 255 := calc
    gfMul (gfExp a 255) (gfExp a 255) = gfMul (gfExp a 254) (gfMul (gfExp a 255) a) := by
      rw [gfExp_succ a 254, gfMul_assoc, gfMul_comm a]
    _ = gfExp a 255 := by rw [hback, gfExp_succ a 254]
  rw [hu]
  refine (gfMul_idempotent _ hidem).resolve_left fun h0 => ha ?_
  rw [← hback, h0, zero_gfMul]

/-! ### The decoder -/

theorem errSymbols_nil : errSymbols [] = (List.range 36).map fun _ => 0#8 := by decide

theorem errSymbols_single (j : Nat) (e : Byte) : errSymbols [(j, e)] = (List.range 36).map fun k => if k = j then e else 0#8 := by
  refine List.map_congr_left fun k _ => ?_
  by_cases hk : k = j
  · simp [hk]
  · simp [hk, Ne.symm hk]

/-- A syndrome is the sum over the symbols of the pattern. -/
theorem syndrome_map (f : Nat → Byte) (i : Nat) : syndrome ((List.range 36).map f) i =
    (List.range 36).foldl (fun x k => x ^^^ gfMul (f k) (gfExp (rsLocator k) i)) 0#8 := by
  have hzip : (List.range 36).zip ((List.range 36).map f) = (List.range 36).map fun k => (k, f k) := by
    simpa using List.zip_map' (f := id) (g := f) (l := List.range 36)
  unfold syndrome
  rw [hzip, List.foldl_map]
  rfl

/-- A sum of which at most one term counts. -/
theorem foldl_xor_single {g : Nat → Byte} {j : Nat} (hg : ∀ k, k ≠ j → g k = 0#8) (n : Nat) :
    (List.range n).foldl (fun x k => x ^^^ g k) 0#8 = if j < n then g j else 0#8 := by
  induction n with
  | zero => rfl
  | succ n ih =>
    rw [List.range_succ, List.foldl_append, ih, List.foldl_cons, List.foldl_nil]
    rcases Nat.lt_trichotomy j n with h | h | h
    · rw [if_pos h, if_pos (by omega), hg n (by omega), BitVec.xor_zero]
    · rw [if_neg (by omega), if_pos (by omega), h, BitVec.zero_xor]
    · rw [if_neg (by omega), if_neg (by omega), hg n (by omega), BitVec.xor_zero]

theorem syndrome_nil (i : Nat) : syndrome (errSymbols []) i = 0#8 := by
  rw [errSymbols_nil, syndrome_map, foldl_xor_single (j := 36) (fun k _ => zero_gfMul _), if_neg (by decide)]

theorem syndrome_single {j : Nat} (hj : j < 36) (e : Byte) (i : Nat) :
    syndrome (errSymbols [(j, e)]) i = gfMul e (gfExp (rsLocator j) i) := by
  rw [errSymbols_single, syndrome_map, foldl_xor_single (j := j) (fun k hk => by rw [if_neg hk, zero_gfMul]), if_pos hj,
    if_pos rfl]

/-- Without errors there is nothing to correct, in normal mode and in erasure mode (R270, R276). -/
theorem rsDecode_nil (p : Option Nat) : rsDecode p (errSymbols []) = some [] := by
  unfold rsDecode
  simp only [syndrome_nil]
  cases p with
  | none => rfl
  | some p => simp [gfMul_zero, zero_gfMul]

theorem gfPow_succ (n : Nat) : gfPow (n + 1) = gfDouble (gfPow n) := by
  unfold gfPow
  rw [List.range_succ, List.foldl_append]
  rfl

theorem eq_zero_of_gfDouble : ∀ a : Byte, gfDouble a = 0#8 → a = 0#8 := by decide

theorem gfDouble_injective {a b : Byte} (h : gfDouble a = gfDouble b) : a = b := by
  have hz : a ^^^ b = 0#8 := eq_zero_of_gfDouble _ (by rw [gfDouble_xor, h, BitVec.xor_self])
  rw [← BitVec.xor_zero (x := a), ← BitVec.xor_self (x := b), ← BitVec.xor_assoc, hz, BitVec.zero_xor]

theorem gfPow_ne_zero : ∀ n, gfPow n ≠ 0#8
  | 0 => by decide
  | n + 1 => fun h => gfPow_ne_zero n (eq_zero_of_gfDouble _ (by rwa [← gfPow_succ]))

/-- The order of 2 is at least 36. -/
theorem gfPow_ne_one : ∀ d < 36, gfPow d = 1#8 → d = 0 := by decide

theorem eq_zero_of_gfPow_add {d : Nat} (hd : d < 36) : ∀ n, gfPow (n + d) = gfPow n → d = 0
  | 0, h => gfPow_ne_one d hd (by rwa [Nat.zero_add] at h)
  | n + 1, h => eq_zero_of_gfPow_add hd n (gfDouble_injective (by rwa [← gfPow_succ, ← gfPow_succ, Nat.add_right_comm]))

theorem rsLocator_ne_zero (j : Nat) : rsLocator j ≠ 0#8 := gfPow_ne_zero _

theorem rsLocator_injective {j k : Nat} (hj : j < 36) (hk : k < j) : rsLocator k ≠ rsLocator j := fun h => by
  have hd : j - k = 0 := by
    refine eq_zero_of_gfPow_add (by omega) (35 - j) ?_
    rw [show 35 - j + (j - k) = 35 - k by omega]
    exact h
  omega

/-- One wrong symbol is found and corrected (R270). -/
theorem rsDecode_single {j : Nat} {e : Byte} (hj : j < 36) (he : e ≠ 0#8) : rsDecode none (errSymbols [(j, e)]) = some [(j, e)] := by
  have hone : gfMul (gfMul e (rsLocator j)) (gfInv e) = rsLocator j := by
    rw [gfMul_comm e, gfMul_assoc, gfMul_comm e, gfInv_gfMul he, gfMul_one]
  have hs0 : gfMul e (gfExp (rsLocator j) 0) = e := gfMul_one e
  have hs1 : gfMul e (rsLocator j) ≠ 0#8 := fun h0 => rsLocator_ne_zero j (by rw [← hone, h0, zero_gfMul])
  have hs2 : gfMul (gfMul e (rsLocator j)) (rsLocator j) = gfMul e (gfExp (rsLocator j) 2) := by
    rw [gfExp_succ, gfExp_one, gfMul_assoc]
  have hfind : (List.range 36).find? (fun k => rsLocator k == rsLocator j) = some j := by
    rw [List.find?_range_eq_some]
    refine ⟨by simp, List.mem_range.2 hj, fun k hk => by simpa using rsLocator_injective hj hk⟩
  unfold rsDecode
  simp only [syndrome_single hj, gfExp_one, hs0, hone, hs2, hfind]
  simp [he, hs1]

end Sys2Proof.Machine
end
section
/-!
PROOF. What a memory controller's read and write of a sector leave (R271 to R273, R275, R276, R278).
-/

namespace Sys2Proof.Machine

open Sys2Proof

/-! ### Counts and the error log -/

theorem logMemError_eq (s : State) (a kind : Nat) : ∃ v, logMemError s a kind = { s with mem := { s.mem with errLog := v } } := by
  unfold logMemError
  split
  · exact ⟨_, rfl⟩
  · exact ⟨_, rfl⟩

theorem tget_taddW (t : Tbl W64) (k n i : Nat) :
    tget 0 (taddW t k n) i = if i = k then tget 0 t k + BitVec.ofNat 64 n else tget 0 t i := tget_tput ..

/-- What an error of a controller leaves: one more count of its kind, and the log. -/
theorem mem_logMemError_countMem (s : State) (stack k a kind : Nat) : ∃ v,
    (logMemError (countMem s stack k 1) a kind).mem = { s.mem with counts := taddW s.mem.counts (4 * stack + k) 1, errLog := v } := by
  obtain ⟨v, hv⟩ := logMemError_eq (countMem s stack k 1) a kind
  exact ⟨v, by rw [hv]; rfl⟩

/-! ### Failing pins -/

/-- Of memory, only the sub-channels' entries, the retirements and the counts of the pins differ. -/
def OnlyRepair (s t : State) : Prop :=
  t.mem = { s.mem with subch := t.mem.subch, retires := t.mem.retires, pinLog := t.mem.pinLog }

theorem OnlyRepair.refl (s : State) : OnlyRepair s s := rfl

theorem OnlyRepair.trans {s t u : State} (h : OnlyRepair s t) (g : OnlyRepair t u) : OnlyRepair s u := by
  unfold OnlyRepair at *
  rw [g, h]

theorem OnlyRepair.of_mem {s t u : State} (h : OnlyRepair s t) (hu : u.mem = t.mem) : OnlyRepair s u := by
  unfold OnlyRepair at *
  rw [hu]
  exact h

theorem OnlyRepair.tagFault {s t : State} (h : OnlyRepair s t) (a : Nat) : tagFault t a = tagFault s a := by
  unfold Machine.tagFault tagNow expectedTag unscrubbed prevGen
  rw [h]

theorem noteEvent_mem (code : Nat) (body : List Byte) (s : State) : (noteEvent code body s).mem = s.mem := by
  rw [noteEvent_onlyBb code body s]

theorem saveSubch_mem (s : State) : (saveSubch s).mem = s.mem := by
  unfold saveSubch
  rw [writeMap_onlyBb]

theorem remapPending_mem (kind index part : Nat) (s : State) : (remapPending kind index part s).mem = s.mem := by
  unfold remapPending postEvent
  rw [traceRec_onlyDb, eventOn_onlyCp, eventOn_onlyCp]
  exact noteEvent_mem ..

theorem setSub_onlyRepair (stack p : Nat) (w : W32) (s : State) : OnlyRepair s (setSub stack p w s) := rfl

/-- An entry written and saved. -/
theorem saveSubch_onlyRepair {s t : State} (h : OnlyRepair s t) (stack p : Nat) (w : W32) :
    OnlyRepair s (saveSubch (setSub stack p w t)) := (h.trans (setSub_onlyRepair stack p w t)).of_mem (saveSubch_mem _)

theorem foldl_onlyRepair {α : Type} {f : State → α → State} (hf : ∀ s x, OnlyRepair s (f s x)) :
    ∀ (l : List α) (s : State), OnlyRepair s (l.foldl f s)
  | [], s => OnlyRepair.refl s
  | x :: r, s => (hf s x).trans (foldl_onlyRepair hf r _)

theorem killSub_onlyRepair (stack p : Nat) (s : State) : OnlyRepair s (killSub stack p s) :=
  (saveSubch_onlyRepair (OnlyRepair.trans
    (t := { s with mem := { s.mem with retires := s.mem.retires.filter fun r => !(r.stack == stack && r.failing == p) } }) rfl
    (foldl_onlyRepair (fun t q => setSub_onlyRepair stack q _ t) _ _)) stack p _).of_mem (noteEvent_mem ..)

theorem loseCopy_onlyRepair (stack p : Nat) (s : State) : OnlyRepair s (loseCopy stack p s) := by
  have hkills := foldl_onlyRepair fun (t : State) (r : Retire) => killSub_onlyRepair stack r.failing t
  unfold loseCopy
  dsimp only
  exact saveSubch_onlyRepair (hkills _ s) stack p _

theorem pinFailed_onlyRepair (stack p pin : Nat) (s : State) : OnlyRepair s (pinFailed stack p pin s) := by
  have hset : ∀ w, OnlyRepair s (saveSubch (setSub stack p w s)) := saveSubch_onlyRepair (OnlyRepair.refl s) stack p
  have hkill := killSub_onlyRepair stack p s
  unfold pinFailed
  dsimp only
  split
  next => exact OnlyRepair.of_mem (OnlyRepair.of_mem (t := { setSub stack p _ s with mem := { (setSub stack p _ s).mem with
      retires := s.mem.retires ++ [waitingRetire stack p pin] } }) rfl (saveSubch_mem _)) (remapPending_mem ..)
  next => exact hset _
  next =>
    split
    · exact OnlyRepair.refl s
    · exact hkill
  next =>
    split
    · exact OnlyRepair.refl s
    · exact hkill
  next =>
    split
    · exact OnlyRepair.refl s
    · split
      · exact loseCopy_onlyRepair stack p s
      · exact hset _
  next => exact OnlyRepair.refl s

theorem pinsFailed_onlyRepair (stack p : Nat) (s : State) : OnlyRepair s (pinsFailed stack p s) := by
  unfold pinsFailed
  split
  next => exact saveSubch_onlyRepair (OnlyRepair.refl s) stack p _
  next => exact loseCopy_onlyRepair stack p s
  next => exact OnlyRepair.refl s
  next => exact OnlyRepair.refl s
  next => exact killSub_onlyRepair stack p s

theorem countPins_onlyRepair (stack p : Nat) (pins : List Nat) (s : State) : OnlyRepair s (countPins stack p pins s) := by
  unfold countPins
  dsimp only
  generalize hl : (s.mem.pinLog.filter _ ++ _) = l
  have hlog : OnlyRepair s { s with mem := { s.mem with pinLog := l } } := rfl
  split
  next => exact hlog
  next => exact hlog.trans (pinFailed_onlyRepair ..)
  next => exact hlog.trans (pinsFailed_onlyRepair ..)

/-! ### Reading -/

/-- What a read leaves whose errors, if any, are corrected: memory as it reads, and the number of symbols counted. -/
structure ReadCorrected (s : State) (stack n : Nat) (t : State) : Prop where
  bytes : ∀ x, readByte t x = readByte s x
  poison : ∀ x, sectorPoison t x = sectorPoison s x
  counts : t.mem.counts = taddW s.mem.counts (4 * stack) n
  errLog : t.mem.errLog = s.mem.errLog

theorem ReadCorrected.onlyRepair {s t u : State} {stack n : Nat} (h : ReadCorrected s stack n t) (g : OnlyRepair t u) :
    ReadCorrected s stack n u where
  bytes x := by
    rw [← h.bytes]
    unfold readByte
    rw [g]
  poison x := by
    rw [← h.poison]
    unfold sectorPoison
    rw [g]
  counts := by rw [g, h.counts]
  errLog := by rw [g, h.errLog]

theorem ReadCorrected.of_onlyMoved {s t u : State} {stack n : Nat} (g : OnlyMoved s t) (h : ReadCorrected t stack n u) :
    ReadCorrected s stack n u where
  bytes x := (h.bytes x).trans (g.readByte x)
  poison x := by
    rw [h.poison, g]
    rfl
  counts := by rw [h.counts, g]
  errLog := by rw [h.errLog, g]

/-- A correction that is right leaves a sector as it reads. -/
theorem applySymbols_zero (a : Nat) (s : State) :
    applySymbols a ((List.range 36).map fun _ => 0#8) s = writeBytes s (a / 32 * 32) (readBytes s (a / 32 * 32) 32) := by
  have hdata : ∀ l : List Byte, l.length = 32 →
      (l.zip (((List.range 36).map fun _ => 0#8).take 32)).map (fun p => p.1 ^^^ p.2) = l := by
    intro l hl
    have htake : ((List.range 36).map fun _ => 0#8).take 32 = List.replicate 32 0#8 := by decide
    rw [htake, ← hl]
    clear htake hl
    induction l with
    | nil => rfl
    | cons b r ih => simp [List.replicate_succ, ih]
  unfold applySymbols
  dsimp only
  rw [hdata _ (readBytes_length ..)]
  rfl

/-- A sector written with what it reads as reads as before. -/
theorem readByte_writeBytes_readBytes (s : State) (a n x : Nat) : readByte (writeBytes s a (readBytes s a n)) x = readByte s x := by
  rw [readByte_writeBytes, readBytes_length]
  split
  next h =>
    rw [getD_readBytes (by omega), Nat.add_sub_cancel' h.1]
  next => rfl

/-- Nothing but the table of memory's bytes differs. -/
def OnlyBytes (s t : State) : Prop := t = { s with mem := { s.mem with bytes := t.mem.bytes } }

theorem writeBytes_onlyBytes : ∀ (l : List Byte) (s : State) (a : Nat), OnlyBytes s (writeBytes s a l)
  | [], _, _ => rfl
  | b :: r, s, a => (writeBytes_onlyBytes r (writeByte s a b) (a + 1)).trans rfl

theorem OnlyBytes.tagFault {s t : State} (h : OnlyBytes s t) (x : Nat) : tagFault t x = tagFault s x := by
  rw [h]
  rfl

theorem OnlyBytes.readCorrected {s t : State} (h : OnlyBytes s t) (hb : ∀ x, readByte t x = readByte s x) (stack n : Nat) :
    ReadCorrected s stack n (countMem t stack 0 n) where
  bytes := hb
  poison x := by
    rw [h]
    rfl
  counts := by
    rw [h]
    rfl
  errLog := by
    rw [h]
    rfl

theorem lget_map_range (f : Nat → Byte) {k : Nat} (hk : k < 36) : lget 0 ((List.range 36).map f) k = f k := by
  simp [lget, hk]

/-- The symbols a decoder leaves wrong: none, where it corrects what was wrong. -/
theorem errSymbols_corrected {errs : List (Nat × Byte)} (h : errs = [] ∨ ∃ j e, errs = [(j, e)]) :
    ((List.range 36).map fun k => lget 0 (errSymbols errs) k ^^^ ((errs.find? fun c => c.1 == k).map Prod.snd).getD 0) =
      (List.range 36).map fun _ => 0#8 := by
  refine List.map_congr_left fun k hk => ?_
  have hk := List.mem_range.1 hk
  rcases h with rfl | ⟨j, e, rfl⟩
  · rw [errSymbols_nil, lget_map_range _ hk]
    simp
  · rw [errSymbols_single, lget_map_range _ hk]
    by_cases hj : k = j
    · simp [hj]
    · simp [hj, Ne.symm hj]

theorem tagFault_countLine (s : State) (a : Nat) : tagFault (countLine s a) a = tagFault s a := by
  rw [countLine_onlyMoved s a]
  rfl

theorem serving_countLine (s : State) (a : Nat) : serving (countLine s a) a = serving s a := by
  rw [countLine_onlyMoved s a]
  rfl

theorem subAt_countLine (s : State) (a stack p : Nat) : subAt (countLine s a) stack p = subAt s stack p := by
  rw [countLine_onlyMoved s a]
  rfl

theorem deadSub_countLine (s : State) (a : Nat) : deadSub (countLine s a) a = deadSub s a := by
  rw [countLine_onlyMoved s a]
  rfl

theorem controllerRead_of_dead {s : State} {a : Nat} (h : deadSub s a = true) (errs : List (Nat × Byte)) :
    controllerRead a errs s = logMemError (countMem (countLine s a) (subOf a).1 3 1) a 3 := by
  unfold controllerRead
  dsimp only
  rw [deadSub_countLine, h, if_pos rfl]

theorem controllerRead_of_detected {s : State} {a p : Nat} {errs : List (Nat × Byte)} (halive : deadSub s a = false)
    (hp : serving s a = some p) (hdec : rsDecode (erasurePin (subAt s (subOf a).1 p)) (errSymbols errs) = none) :
    controllerRead a errs s = logMemError (countMem (setSectorPoison (writeBytes (countLine s a) (a / 32 * 32)
      (List.replicate 32 0)) (a / 32 * 32) true) (subOf a).1 1 1) a 1 := by
  unfold controllerRead
  dsimp only
  rw [deadSub_countLine, halive, serving_countLine, hp]
  dsimp only
  rw [subAt_countLine, hdec]
  rfl

/-- A read whose errors the decoder finds. -/
theorem controllerRead_of_corrected {s : State} {a p : Nat} {errs : List (Nat × Byte)} (halive : deadSub s a = false)
    (htag : tagFault s a = false) (hp : serving s a = some p) (herrs : errs = [] ∨ ∃ j e, errs = [(j, e)])
    (hdec : rsDecode (erasurePin (subAt s (subOf a).1 p)) (errSymbols errs) = some errs) :
    ReadCorrected s (subOf a).1 errs.length (controllerRead a errs s) := by
  have hline := countLine_onlyMoved s a
  have hserv := serving_countLine s a
  have hdead := deadSub_countLine s a
  have hsub := subAt_countLine s a (subOf a).1 p
  have htagged := tagFault_countLine s a
  unfold controllerRead
  dsimp only
  generalize countLine s a = u at hline hserv hdead hsub htagged
  rw [hdead, halive, hserv, hp]
  dsimp only
  rw [hsub, hdec]
  dsimp only
  rw [errSymbols_corrected herrs, applySymbols_zero]
  have hsame := readByte_writeBytes_readBytes u (a / 32 * 32) 32
  have honly := writeBytes_onlyBytes (readBytes u (a / 32 * 32) 32) u (a / 32 * 32)
  generalize writeBytes u (a / 32 * 32) (readBytes u (a / 32 * 32) 32) = v at hsame honly
  have hdone := honly.readCorrected hsame (subOf a).1 errs.length
  have hpins := countPins_onlyRepair (subOf a).1 p (errs.map fun c => c.1 / 3) (countMem v (subOf a).1 0 errs.length)
  have hcount : tagFault (countMem v (subOf a).1 0 errs.length) a = tagFault v a := rfl
  rw [hpins.tagFault, hcount, honly.tagFault, htagged, htag]
  exact (hdone.onlyRepair hpins).of_onlyMoved hline

end Sys2Proof.Machine
end
section
/-!
PROOF. The retirement of a sub-channel (R277, R292, R516): its entries, the repair map that keeps them, and the spare that takes its
place.
-/

namespace Sys2Proof.Machine

open Sys2Proof

/-! ### Entries -/

theorem lget_set_same {α : Type} {d v : α} {l : List α} {i : Nat} (h : i < l.length) : lget d (l.set i v) i = v := by
  simp [lget, h]

theorem lget_set_other {α : Type} {d v : α} {l : List α} {i j : Nat} (h : i ≠ j) : lget d (l.set i v) j = lget d l j := by
  simp [lget, h]

theorem subAt_setSub_same {s : State} {stack p : Nat} (hs : stack < 8) (hp : p < 32) (hlen : s.mem.subch.length = 256) (w : W32) :
    subAt (setSub stack p w s) stack p = w := lget_set_same (by omega)

theorem subAt_setSub_other {p q : Nat} (h : q ≠ p) (stack : Nat) (w : W32) (s : State) :
    subAt (setSub stack q w s) stack p = subAt s stack p := lget_set_other (by omega)

theorem subAt_congr {s t : State} (h : t.mem.subch = s.mem.subch) (stack p : Nat) : subAt t stack p = subAt s stack p := by
  unfold subAt
  rw [h]

theorem setSub_length (stack p : Nat) (w : W32) (s : State) : (setSub stack p w s).mem.subch.length = s.mem.subch.length :=
  List.length_set

theorem subState_subWord {logical state : Nat} (hl : logical < 32) (hs : state < 8) (pin : Nat) (field : Bool) :
    subState (subWord logical state pin field) = state := by
  unfold subState subWord bitsOf
  rw [BitVec.toNat_ofNat]
  omega

theorem subLogical_subWord {logical : Nat} (hl : logical < 32) (state pin : Nat) (field : Bool) :
    subLogical (subWord logical state pin field) = logical := by
  unfold subLogical subWord bitsOf
  rw [BitVec.toNat_ofNat]
  omega

theorem subLogical_lt (w : W32) : subLogical w < 32 := Nat.mod_lt _ (by decide)

theorem unusedSpare_spec {s : State} {stack q : Nat} (h : unusedSpare s stack = some q) : q < 32 ∧ subState (subAt s stack q) = 1 :=
  ⟨List.mem_range.1 (List.mem_of_find?_eq_some h), by simpa using List.find?_some h⟩

/-! ### The repair map -/

/-- A copy written and read back is the current one (R513, R516). -/
theorem current_write {α : Type} (c : Copies α) (v : α) : (c.write (some v)).current.map Prod.snd = some v := by
  obtain ⟨a, b⟩ := c
  cases a with
  | none =>
    cases b with
    | none => rfl
    | some y => simp [Copies.write, Copies.current]
  | some x =>
    cases b with
    | none => simp [Copies.write, Copies.current]
    | some y =>
      by_cases h : y.1 < x.1
      · have hx : ¬ x.1 < y.1 := by omega
        simp [Copies.write, Copies.current, h, hx]
      · by_cases hx : x.1 < y.1
        · simp [Copies.write, Copies.current, h, hx]
        · have he : x.1 = y.1 := by omega
          simp [Copies.write, Copies.current, he]

theorem repairMap_writeMap {s : State} (h : writeLost s.bb.writes = false) (m : RepairMap) : repairMap (writeMap m s) = m := by
  have hm : (writeMap m s).bb.maps = s.bb.maps.write (some m) := by
    unfold writeMap writeLeft
    rw [h]
    rfl
  unfold repairMap
  rw [hm, current_write]
  rfl

theorem repairMap_saveSubch {s : State} (h : writeLost s.bb.writes = false) :
    (repairMap (saveSubch s)).subch = (saveSubch s).mem.subch := by
  rw [saveSubch_mem]
  unfold saveSubch
  rw [repairMap_writeMap h]

/-! ### Notes leave the repair map -/

theorem writeCtrl_maps (x : BbCtrl) (s : State) : (writeCtrl x s).bb.maps = s.bb.maps := by
  unfold writeCtrl
  dsimp only
  split <;> rfl

theorem writeControl_maps (seq type cause : Nat) (body : List Byte) (s : State) :
    (writeControl seq type cause body s).bb.maps = s.bb.maps := by
  unfold writeControl
  dsimp only
  split
  · exact writeCtrl_maps ..
  · exact writeCtrl_maps ..

theorem bbCommit_maps (type cause len : Nat) (body : List Byte) (s : State) :
    (bbCommit type cause len body s).bb.maps = s.bb.maps := by
  unfold bbCommit
  dsimp only
  split
  · rfl
  · exact writeControl_maps ..

theorem commitNote_maps (note : List Byte) (s : State) : (commitNote note s).bb.maps = s.bb.maps := by
  unfold commitNote bbEvent
  dsimp only
  split
  · split
    · rfl
    · exact bbCommit_maps ..
  · exact bbCommit_maps ..

theorem noteGo_maps (note : List Byte) (s : State) : (noteGo note s).bb.maps = s.bb.maps := by
  unfold noteGo
  dsimp only
  split
  · exact commitNote_maps ..
  · split <;> rfl

theorem repairMap_noteEvent (code : Nat) (body : List Byte) (s : State) : repairMap (noteEvent code body s) = repairMap s := by
  have hmaps : (noteEvent code body s).bb.maps = s.bb.maps := noteGo_maps ..
  unfold repairMap
  rw [hmaps, noteEvent_onlyBb code body s]

/-! ### The start -/

/-- Writes the list of retirements. -/
def withRetires (l : List Retire) (s : State) : State := { s with mem := { s.mem with retires := l } }

theorem withRetires_subch (l : List Retire) (s : State) : (withRetires l s).mem.subch = s.mem.subch := rfl

/-- The state of a retirement whose copy has started, before the map is saved. -/
def copyStarted (stack q : Nat) (r : Retire) (s : State) : State :=
  let w := subAt s stack r.failing
  let t := setSub stack q (subWord 31 4 31 true) (setSub stack r.failing (subWord (subLogical w) 3 (subPin w) true) s)
  withRetires (lupdate (fun x => x.stack == stack) (fun x => { x with spare := q, copying := true }) t.mem.retires) t

theorem copyStarted_subch (stack q : Nat) (r : Retire) (s : State) : (copyStarted stack q r s).mem.subch =
    (setSub stack q (subWord 31 4 31 true) (setSub stack r.failing
      (subWord (subLogical (subAt s stack r.failing)) 3 (subPin (subAt s stack r.failing)) true) s)).mem.subch := by
  unfold copyStarted
  exact withRetires_subch ..

theorem execRetirementStart_of_waiting {s : State} {stack q : Nat} {r : Retire} {rest : List Retire} (hs : stack < 8)
    (hready : s.mem.ready = true) (hself : s.mem.selfRefresh = false)
    (hmine : s.mem.retires.filter (fun x => x.stack == stack) = r :: rest) (hidle : ∀ x ∈ r :: rest, x.copying = false)
    (hq : unusedSpare s stack = some q) : exec (.retirementStart stack) s = .next (saveSubch (copyStarted stack q r s)) := by
  have hbusy : (r :: rest).any (·.copying) = false := List.any_eq_false.2 fun x hx => by simp [hidle x hx]
  change execRetirementStart stack s = _
  unfold execRetirementStart
  dsimp only
  rw [hmine, hq]
  dsimp only
  rw [hbusy, hready, hself]
  simp [guardUnit, whenTaken, Config.numDies, hs, copyStarted, withRetires]

/-- The first that a filter keeps is the one an update changes. -/
theorem mem_lupdate_of_filter {α : Type} {p : α → Bool} {f : α → α} {x : α} {rest : List α} :
    ∀ {l : List α}, l.filter p = x :: rest → f x ∈ lupdate p f l
  | [], h => by cases h
  | y :: r, h => by
    unfold lupdate
    by_cases hy : p y
    · rw [List.filter_cons_of_pos hy] at h
      rw [if_pos hy, (List.cons.inj h).1]
      exact List.mem_cons_self
    · rw [List.filter_cons_of_neg hy] at h
      rw [if_neg hy]
      exact List.mem_cons_of_mem y (mem_lupdate_of_filter h)

/-- The failing sub-channel is copied to the spare: it keeps its logical number. -/
theorem subAt_copyStarted {s : State} {stack q : Nat} {r : Retire} (hs : stack < 8) (hlen : s.mem.subch.length = 256)
    (hq : q < 32) (hf : r.failing < 32) (hne : q ≠ r.failing) :
    subState (subAt (copyStarted stack q r s) stack r.failing) = 3 ∧
      subLogical (subAt (copyStarted stack q r s) stack r.failing) = subLogical (subAt s stack r.failing) ∧
      subState (subAt (copyStarted stack q r s) stack q) = 4 := by
  have hsub := subAt_congr (copyStarted_subch stack q r s) stack
  have hfail : subAt (copyStarted stack q r s) stack r.failing =
      subWord (subLogical (subAt s stack r.failing)) 3 (subPin (subAt s stack r.failing)) true := by
    rw [hsub, subAt_setSub_other hne, subAt_setSub_same hs hf hlen]
  have hspare : subAt (copyStarted stack q r s) stack q = subWord 31 4 31 true := by
    rw [hsub, subAt_setSub_same hs hq ((setSub_length ..).trans hlen)]
  rw [hfail, hspare]
  exact ⟨subState_subWord (subLogical_lt _) (by decide) .., subLogical_subWord (subLogical_lt _) ..,
    subState_subWord (by decide) (by decide) ..⟩

/-! ### The end -/

/-- The state of a retirement that has ended, before the map is saved and the event noted. -/
def spareServing (r : Retire) (s : State) : State :=
  let w := subAt s r.stack r.failing
  let bad := subPin (subAt s r.stack r.spare)
  let t := setSub r.stack r.failing (subWord 31 5 (subPin w) true)
    (setSub r.stack r.spare (subWord (subLogical w) (if bad < 12 then 2 else 0) bad true) s)
  let left := lremove (fun x => x.stack == r.stack && x.failing == r.failing) t.mem.retires
  withRetires (if bad < 12 then left ++ [waitingRetire r.stack r.spare bad] else left) t

theorem spareServing_subch (r : Retire) (s : State) : (spareServing r s).mem.subch =
    (setSub r.stack r.failing (subWord 31 5 (subPin (subAt s r.stack r.failing)) true) (setSub r.stack r.spare
      (subWord (subLogical (subAt s r.stack r.failing)) (if subPin (subAt s r.stack r.spare) < 12 then 2 else 0)
        (subPin (subAt s r.stack r.spare)) true) s)).mem.subch := by
  unfold spareServing
  exact withRetires_subch ..

theorem finishRetire_eq (r : Retire) (s : State) : finishRetire r s = noteEvent 0x000D [BitVec.ofNat 8 r.stack,
    BitVec.ofNat 8 r.failing, BitVec.ofNat 8 r.spare, BitVec.ofNat 8 r.pin] (saveSubch (spareServing r s)) := rfl

theorem finishRetire_mem (r : Retire) (s : State) : (finishRetire r s).mem = (spareServing r s).mem := by
  rw [finishRetire_eq, noteEvent_mem, saveSubch_mem]

theorem repairMap_finishRetire {s : State} (h : writeLost s.bb.writes = false) (r : Retire) :
    (repairMap (finishRetire r s)).subch = (finishRetire r s).mem.subch := by
  have hsaved : (repairMap (saveSubch (spareServing r s))).subch = (saveSubch (spareServing r s)).mem.subch := repairMap_saveSubch h
  rw [finishRetire_eq, repairMap_noteEvent, noteEvent_mem, hsaved]

/-- The spare takes the logical number of the failing sub-channel, which is retired. -/
theorem subAt_finishRetire {s : State} {r : Retire} (hs : r.stack < 8) (hlen : s.mem.subch.length = 256) (hf : r.failing < 32)
    (hp : r.spare < 32) (hne : r.spare ≠ r.failing) :
    subState (subAt (finishRetire r s) r.stack r.spare) = (if subPin (subAt s r.stack r.spare) < 12 then 2 else 0) ∧
      subLogical (subAt (finishRetire r s) r.stack r.spare) = subLogical (subAt s r.stack r.failing) ∧
      subState (subAt (finishRetire r s) r.stack r.failing) = 5 := by
  have hsub := subAt_congr ((congrArg Mem.subch (finishRetire_mem r s)).trans (spareServing_subch r s)) r.stack
  have hspare : subAt (finishRetire r s) r.stack r.spare = subWord (subLogical (subAt s r.stack r.failing))
      (if subPin (subAt s r.stack r.spare) < 12 then 2 else 0) (subPin (subAt s r.stack r.spare)) true := by
    rw [hsub, subAt_setSub_other hne.symm, subAt_setSub_same hs hp hlen]
  have hfail : subAt (finishRetire r s) r.stack r.failing = subWord 31 5 (subPin (subAt s r.stack r.failing)) true := by
    rw [hsub, subAt_setSub_same hs hf ((setSub_length ..).trans hlen)]
  rw [hspare, hfail]
  exact ⟨subState_subWord (subLogical_lt _) (by split <;> decide) .., subLogical_subWord (subLogical_lt _) ..,
    subState_subWord (by decide) (by decide) ..⟩

end Sys2Proof.Machine
end
section
/-!
PROOF. The memory controllers' commands (R262, R270 to R279, R292): what each leaves, clause by clause of the statement.
-/

namespace Sys2Proof.Machine

open Sys2Proof

/-! ### Reads -/

/-- A controller that serves: its sector is in DRAM, and the interface is neither down nor in self-refresh. -/
def Serves (s : State) (a : Nat) : Prop := isDram a = true ∧ s.mem.ready = true ∧ s.mem.selfRefresh = false

theorem exec_dramRead_of_serves {s : State} {a : Nat} (h : Serves s a) (errs : List (Nat × Byte)) :
    exec (.dramRead a errs) s = .next (controllerRead a errs s) := by
  obtain ⟨hd, hready, hself⟩ := h
  change execDramRead a errs s = _
  simp [execDramRead, whenTaken, hd, hready, hself]

theorem exec_dramRead_of_down {s : State} (h : s.mem.ready = false ∨ s.mem.selfRefresh = true) (a : Nat)
    (errs : List (Nat × Byte)) : exec (.dramRead a errs) s = .next s := by
  change execDramRead a errs s = _
  rcases h with h | h <;> simp [execDramRead, whenTaken, h]

theorem exec_dramWrite_of_down {s : State} (h : s.mem.ready = false ∨ s.mem.selfRefresh = true) (a : Nat) (bs : List Byte)
    (bad : Bool) : exec (.dramWrite a bs bad) s = .next s := by
  change execDramWrite a bs bad s = _
  rcases h with h | h <;> simp [execDramWrite, whenTaken, h]

/-- A sub-channel that has an entry is served by it, or by the spare it is copied to. -/
theorem serving_of_subEntry {s : State} {a p : Nat} (h : subEntry s (subOf a).1 (subOf a).2 = some p) :
    ∃ q, serving s a = some q := by
  unfold serving
  rw [h]
  exact ⟨_, rfl⟩

/-- A read whose errors, at most one symbol, the decoder corrects (R271, R275). -/
theorem exec_dramRead_corrected {s : State} {a p : Nat} {errs : List (Nat × Byte)} (h : Serves s a) (halive : deadSub s a = false)
    (htag : tagFault s a = false) (hp : serving s a = some p) (herrs : errs = [] ∨ ∃ j e, errs = [(j, e)])
    (hdec : rsDecode (erasurePin (subAt s (subOf a).1 p)) (errSymbols errs) = some errs) :
    Answers (.dramRead a errs) s (ReadCorrected s (subOf a).1 errs.length) :=
  ⟨_, exec_dramRead_of_serves h errs, controllerRead_of_corrected halive htag hp herrs hdec⟩

/-- A read whose errors the decoder detects leaves zeros and the mark (R271, R272). -/
theorem exec_dramRead_detected {s : State} {a p : Nat} {errs : List (Nat × Byte)} (h : Serves s a) (halive : deadSub s a = false)
    (hp : serving s a = some p) (hdec : rsDecode (erasurePin (subAt s (subOf a).1 p)) (errSymbols errs) = none) :
    Answers (.dramRead a errs) s fun t => sectorPoison t a = true ∧
      t.mem.counts = taddW s.mem.counts (4 * (subOf a).1 + 1) 1 ∧
      ∀ x, readByte t x = (if a / 32 * 32 ≤ x ∧ x < a / 32 * 32 + 32 then 0 else readByte s x) := by
  have hline := countLine_onlyMoved s a
  have honly := writeBytes_onlyBytes (List.replicate 32 0) (countLine s a) (a / 32 * 32)
  have hbytes := fun x => readByte_writeBytes x (List.replicate 32 0) (countLine s a) (a / 32 * 32)
  refine ⟨_, exec_dramRead_of_serves h errs, ?_⟩
  rw [controllerRead_of_detected halive hp hdec]
  generalize writeBytes (countLine s a) (a / 32 * 32) (List.replicate 32 0) = u at honly hbytes
  obtain ⟨v, hv⟩ := mem_logMemError_countMem (setSectorPoison u (a / 32 * 32) true) (subOf a).1 1 a 1
  have hcounts : u.mem.counts = s.mem.counts := by rw [honly, hline]
  refine ⟨?_, ?_, fun x => ?_⟩
  · unfold sectorPoison
    rw [hv]
    simp [setSectorPoison]
  · rw [hv, ← hcounts]
    rfl
  · have hx : readByte (logMemError (countMem (setSectorPoison u (a / 32 * 32) true) (subOf a).1 1 1) a 1) x = readByte u x := by
      unfold readByte
      rw [hv]
      rfl
    rw [hx, hbytes, hline.readByte, List.length_replicate]
    split
    next hin => rw [List.getD_replicate _ (by omega)]
    next => rfl

/-- A read of a dead sub-channel is counted (R278). -/
theorem exec_dramRead_dead {s : State} {a : Nat} (h : Serves s a) (hdead : deadSub s a = true) (errs : List (Nat × Byte)) :
    Answers (.dramRead a errs) s fun t => t.mem.bytes = s.mem.bytes ∧
      t.mem.counts = taddW s.mem.counts (4 * (subOf a).1 + 3) 1 := by
  have hline := countLine_onlyMoved s a
  refine ⟨_, exec_dramRead_of_serves h errs, ?_⟩
  rw [controllerRead_of_dead hdead]
  obtain ⟨v, hv⟩ := mem_logMemError_countMem (countLine s a) (subOf a).1 3 a 3
  rw [hv]
  constructor
  · rw [hline]
  · rw [hline]

/-! ### Writes -/

theorem exec_dramWrite_of_serves {s : State} {a : Nat} {bs : List Byte} (hready : s.mem.ready = true)
    (hself : s.mem.selfRefresh = false) (hd : isDram a = true) (hend : isDram (a + bs.length - 1) = true) (bad : Bool) :
    exec (.dramWrite a bs bad) s = .next ((sectorPieces a bs.length bs.length).foldl
      (fun t p => writeSector t p.1 (slice bs (p.1 - a) p.2) bad) s) := by
  change execDramWrite a bs bad s = _
  simp [execDramWrite, whenTaken, hd, hend, hready, hself]

/-- A write of DRAM that reads without fault, sector by sector, stores the bytes from the one at `b` on. -/
theorem foldl_writeSector_stores {a : Nat} {bs : List Byte} (hend : a + bs.length ≤ dramEnd) :
    ∀ (fuel b n : Nat) (s : State), n ≤ fuel → a ≤ b → b + n = a + bs.length →
    (∀ x, b ≤ x → x < b + n → readFaults s x = false) →
    Stores s b (bs.drop (b - a)) ((sectorPieces b fuel n).foldl (fun t p => writeSector t p.1 (slice bs (p.1 - a) p.2) false) s)
  | 0, b, n, s, hf, _, hn, _ => by
    rw [List.drop_eq_nil_of_le (by omega)]
    exact Stores.nil s b
  | _ + 1, b, 0, s, _, _, hn, _ => by
    rw [List.drop_eq_nil_of_le (by omega)]
    exact Stores.nil s b
  | fuel + 1, b, n + 1, s, hf, hab, hn, hr => by
    simp only [sectorPieces, List.foldl_cons]
    have hpiece : 0 < Nat.min (n + 1) (32 - b % 32) ∧ Nat.min (n + 1) (32 - b % 32) ≤ n + 1 :=
      ⟨Nat.lt_min.2 ⟨by omega, by omega⟩, Nat.min_le_left ..⟩
    generalize Nat.min (n + 1) (32 - b % 32) = k at hpiece
    obtain ⟨hpos, hle⟩ := hpiece
    have hfirst := writeSector_stores (decide_eq_true (show b < dramEnd by omega)) (hr b le_rfl (by omega))
      ((bs.drop (b - a)).take k)
    have hlen : ((bs.drop (b - a)).take k).length = k := by
      rw [List.length_take, List.length_drop]
      omega
    have hrest := foldl_writeSector_stores hend fuel (b + k) (n + 1 - k) _ (by omega) (by omega) (by omega)
      fun x hlo hhi => hfirst.sound x (hr x (by omega) (by omega))
    have htail : bs.drop (b + k - a) = (bs.drop (b - a)).drop k := by
      rw [List.drop_drop]
      congr 1
      omega
    have hall := hfirst.append (ys := (bs.drop (b - a)).drop k) (by rw [hlen, ← htail]; exact hrest)
    rw [List.take_append_drop] at hall
    rw [slice_of_le (by omega)]
    exact hall

/-- A write lands where it is sound (R262, R271). -/
theorem exec_dramWrite_stores {s : State} {a : Nat} {bs : List Byte} (hready : s.mem.ready = true)
    (hself : s.mem.selfRefresh = false) (hne : bs ≠ []) (hend : a + bs.length ≤ dramEnd)
    (hr : ∀ i, i < bs.length → readFaults s (a + i) = false) : Answers (.dramWrite a bs false) s (Stores s a bs) := by
  have hpos := List.length_pos_iff.2 hne
  refine ⟨_, exec_dramWrite_of_serves hready hself (decide_eq_true (by omega)) (decide_eq_true (by omega)) false, ?_⟩
  have h := foldl_writeSector_stores hend bs.length a bs.length s le_rfl le_rfl rfl fun x hlo hhi => by
    have hx := hr (x - a) (by omega)
    rwa [Nat.add_sub_cancel' hlo] at hx
  rwa [Nat.sub_self, List.drop_zero] at h

theorem isMemory_of_isDram {a : Nat} (h : isDram a = true) : isMemory a = true := by
  have ha : a < dramEnd := of_decide_eq_true h
  unfold isMemory addrKind
  by_cases hj : a < retainedBase <;> simp [hj, ha]

/-- A whole sector written with the poison mark reads as zeros, and marked (R262). -/
theorem exec_dramWrite_poison {s : State} {a : Nat} {bs : List Byte} (h : Serves s a) (halive : deadSub s a = false)
    (ha : a % 32 = 0) (hlen : bs.length = 32) : Answers (.dramWrite a bs true) s fun t => sectorPoison t a = true ∧
      ∀ x, readByte t x = (if a ≤ x ∧ x < a + 32 then 0 else readByte s x) := by
  obtain ⟨hd, hready, hself⟩ := h
  have hin : a < dramEnd := of_decide_eq_true hd
  have hend : isDram (a + bs.length - 1) = true := by
    refine decide_eq_true ?_
    rw [hlen]
    unfold dramEnd at hin ⊢
    omega
  refine ⟨_, exec_dramWrite_of_serves hready hself hd hend true, ?_⟩
  rw [hlen, sectorPieces_sector ha, List.foldl_cons, List.foldl_nil, Nat.sub_self, slice_whole hlen,
    writeSector_whole hd (isMemory_of_isDram hd) ha hlen halive true, if_pos rfl]
  have hbytes := fun x => readByte_writeBytes x (List.replicate 32 0) s a
  generalize writeBytes s a (List.replicate 32 0) = u at hbytes
  have hline := countLine_onlyMoved (retag (setSectorPoison u a true) a) a
  constructor
  · unfold sectorPoison
    rw [hline]
    simp [retag, putTag, setSectorPoison]
  · intro x
    have hx : readByte (retag (setSectorPoison u a true) a) x = readByte u x := rfl
    rw [hline.readByte, hx, hbytes, List.length_replicate]
    split
    next hin => rw [List.getD_replicate _ (by omega)]
    next => rfl

/-! ### Patrol -/

/-- Every sector of a controller's patrol is in DRAM (R265). -/
theorem isDram_patrolAddr {stack : Nat} (hs : stack < 8) (n : Nat) : isDram (patrolAddr stack (n % sectorsOfStack)) = true := by
  have hn : n % sectorsOfStack < 30 * 134217728 := Nat.mod_lt _ (by decide)
  refine decide_eq_true ?_
  unfold patrolAddr dramEnd
  dsimp only
  omega

/-- The patrol reads its next sector as a read does, and goes on to the one after (R274). -/
theorem exec_patrolRead {s : State} {stack : Nat} (hs : stack < 8) (hready : s.mem.ready = true)
    (hself : s.mem.selfRefresh = false) (hon : s.mem.patrol.getLsbD 0 = true) (hrate : s.mem.patrol.toNat / 256 % 256 ≠ 0)
    (errs : List (Nat × Byte)) : ∃ u,
      exec (.dramRead (patrolAddr stack (tget 0 s.mem.patrolPtr stack % sectorsOfStack)) errs) s = .next u ∧
      exec (.patrolRead stack errs) s = .next { u with mem := { u.mem with patrolPtr := tadd u.mem.patrolPtr stack 1 } } := by
  have hfield : bitsOf s.mem.patrol.toNat 15 8 ≠ 0 := hrate
  refine ⟨_, exec_dramRead_of_serves ⟨isDram_patrolAddr hs _, hready, hself⟩ errs, ?_⟩
  change execPatrolRead stack errs s = _
  simp [execPatrolRead, guardUnit, whenTaken, Config.numDies, hs, hready, hself, hon, hfield]

theorem exec_patrolRead_off {s : State} {stack : Nat} (hs : stack < 8) (hoff : s.mem.patrol.getLsbD 0 = false)
    (errs : List (Nat × Byte)) : exec (.patrolRead stack errs) s = .next s := by
  change execPatrolRead stack errs s = _
  unfold execPatrolRead
  dsimp only
  rw [hoff]
  simp [guardUnit, whenTaken, Config.numDies, hs]

/-! ### Retirement -/

theorem exec_retirementComplete {s : State} {stack : Nat} {r : Retire} (hs : stack < 8) (hready : s.mem.ready = true)
    (hself : s.mem.selfRefresh = false) (hr : s.mem.retires.find? (fun x => x.stack == stack && x.copying) = some r) :
    exec (.retirementComplete stack) s = .next (finishRetire r s) := by
  change execRetirementComplete stack s = _
  unfold execRetirementComplete
  rw [hr]
  simp [guardUnit, Config.numDies, hs, hready, hself]

/-- Settles O48, clause by clause: the decoder of R270 corrects one symbol, and the map of R516 keeps what a retirement changes. -/
theorem memoryControllersCorrectAndRetire : Obligations.MemoryControllersCorrectAndRetire := by
  unfold Obligations.MemoryControllersCorrectAndRetire
  intro s addr stack j q e errs bs bad r rest
  dsimp only
  refine ⟨?_, ?_, ?_, ?_, ?_, ?_, ?_, ?_, ?_, ?_, ?_⟩
  · rintro ⟨hserves, halive, htag⟩ ⟨p, hp⟩
    obtain ⟨p', hp'⟩ := serving_of_subEntry hp
    obtain ⟨t, hexec, hbytes, hpoison, hcounts, hlog⟩ :=
      exec_dramRead_corrected hserves halive htag hp' (.inl rfl) (rsDecode_nil _)
    refine ⟨t, hexec, hbytes, hpoison addr, fun k _ => ?_, hlog⟩
    rw [hcounts, tget_taddW]
    split
    next hk => simp [hk]
    next => rfl
  · rintro ⟨hserves, halive, htag⟩ ⟨p, hp, hpin⟩ hj he
    obtain ⟨t, hexec, hbytes, hpoison, hcounts, -⟩ :=
      exec_dramRead_corrected hserves halive htag hp (.inr ⟨j, e, rfl⟩) (by rw [hpin, rsDecode_single hj he])
    refine ⟨t, hexec, hbytes, hpoison addr, ?_, ?_⟩
    · rw [hcounts, tget_taddW, if_pos (Nat.add_zero _)]
      rfl
    · rw [hcounts, tget_taddW, if_neg (by omega)]
  · rintro ⟨hserves, halive, -⟩ ⟨p, hp, hdec⟩
    obtain ⟨t, hexec, hpoison, hcounts, hbytes⟩ := exec_dramRead_detected hserves halive hp hdec
    refine ⟨t, hexec, hpoison, ?_, hbytes⟩
    rw [hcounts, tget_taddW, if_pos rfl]
    rfl
  · intro hserves hdead
    obtain ⟨t, hexec, hbytes, hcounts⟩ := exec_dramRead_dead hserves hdead errs
    refine ⟨t, hexec, hbytes, ?_⟩
    rw [hcounts, tget_taddW, if_pos rfl]
    rfl
  · exact fun hdown => ⟨exec_dramRead_of_down hdown addr errs, exec_dramWrite_of_down hdown addr bs bad⟩
  · intro hready hself hne hend hr
    obtain ⟨t, hexec, hstores⟩ := exec_dramWrite_stores hready hself hne hend hr
    refine ⟨t, hexec, fun i hi => ⟨?_, ?_⟩, fun x hx => ?_⟩
    · rw [hstores.bytes, if_pos (by omega), Nat.add_sub_cancel_left, List.getD_eq_getElem _ _ hi, List.getElem?_eq_getElem hi]
    · have hsound := hstores.sound _ (hr i hi)
      simp only [readFaults, Bool.or_eq_false_iff] at hsound
      obtain ⟨⟨⟨-, hpoison⟩, -⟩, -⟩ := hsound
      exact hpoison
    · rw [hstores.bytes, if_neg (by omega)]
  · exact fun hserves halive ha hlen => exec_dramWrite_poison hserves halive ha hlen
  · rintro ⟨hready, hself, hs, -⟩ hon hrate
    exact exec_patrolRead hs hready hself hon hrate errs
  · exact fun hs hoff => exec_patrolRead_off hs hoff errs
  · rintro ⟨hready, hself, hs, hlen⟩ hmine hidle hq hf hstate
    obtain ⟨hq32, hunused⟩ := unusedSpare_spec hq
    have hne : q ≠ r.failing := by
      rintro rfl
      have h12 : (1 : Nat) = 2 := hunused.symm.trans hstate
      cases h12
    obtain ⟨hthree, hlogical, hfour⟩ := subAt_copyStarted hs hlen hq32 hf hne
    have hsub := subAt_congr (congrArg Mem.subch (saveSubch_mem (copyStarted stack q r s))) stack
    refine ⟨_, execRetirementStart_of_waiting hs hready hself hmine hidle hq, ?_, ?_, ?_, ?_, ?_, ?_⟩
    · exact (congrArg subState (hsub _)).trans hthree
    · exact (congrArg subLogical (hsub _)).trans hlogical
    · exact (congrArg subState (hsub _)).trans hfour
    · rw [saveSubch_mem]
      rfl
    · exact fun h => repairMap_saveSubch (s := copyStarted stack q r s) h
    · rw [saveSubch_mem]
      exact mem_lupdate_of_filter hmine
  · rintro ⟨hready, hself, hs, hlen⟩ hr hf hp hne
    have hstack : r.stack = stack := by
      have := List.find?_some hr
      simp_all
    subst hstack
    obtain ⟨hserving, hlogical, hretired⟩ := subAt_finishRetire hs hlen hf hp hne
    refine ⟨_, exec_retirementComplete hs hready hself hr, hserving, hlogical, hretired, ?_, fun h => repairMap_finishRetire h r⟩
    rw [finishRetire_mem]
    rfl

end Sys2Proof.Machine
end
section
/-!
PROOF. Ports whose shutdown line is asserted stay dark (R300, Table 10.3): what keeps that whatever the command: a choice, a fold, an
update outside the ports and their lines, and the writing of a port.
-/

namespace Sys2Proof.Machine

set_option Elab.async false
open Sys2Proof

/-- Ten ports stand, and those outside a list whose line is asserted have their data lasers off. -/
structure HeldOffBut (l : List Nat) (s : State) : Prop where
  ten : s.lk.ports.length = 10
  off : ∀ p, p < 10 → p ∉ l → lineHeld s p = true → (getPort s p).state.lit = false

/-- Every port whose line is asserted has its data lasers off. -/
structure HeldOff (s : State) : Prop where
  ten : s.lk.ports.length = 10
  off : HeldPortsDark s

variable {s t : State}

theorem HeldOffBut.all (h : HeldOffBut [] s) : HeldOff s := ⟨h.ten, fun p hp => h.off p hp List.not_mem_nil⟩

theorem getPort_congr_ports (h : t.lk.ports = s.lk.ports) (p : Nat) : getPort t p = getPort s p := by
  rw [getPort, h]
  rfl

theorem lineHeld_congr (hp : t.lk.ports = s.lk.ports) (hm : t.ws.portMc = s.ws.portMc) (hs : t.ws.portSm = s.ws.portSm) (p : Nat) :
    lineHeld t p = lineHeld s p := by
  rw [lineHeld, hm, hs, getPort_congr_ports hp]
  rfl

/-! ### Reading a port and its line -/

/-- Writing a port leaves what the write keeps of it. -/
theorem modPort_keeps {α : Type} (g : Port → α) {f : Port → Port} (hf : ∀ v, g (f v) = g v := by exact fun _ => rfl) (p q : Nat) :
    g (getPort (modPort s p f) q) = g (getPort s q) := by
  rcases Nat.lt_or_ge p s.lk.ports.length with hp | hp
  · rw [modPort, getPort_setPort s p q _ hp]
    split
    next hq => rw [hf, hq]
    · rfl
  · rw [modPort, setPort_absent s p _ hp]

theorem lineHeld_modPort {f : Port → Port} (hf : ∀ v, (f v).touched = v.touched := by exact fun _ => rfl) (p q : Nat) :
    lineHeld (modPort s p f) q = lineHeld s q := by
  rw [lineHeld, modPort_keeps Port.touched hf]
  rfl

theorem discardEgress_touched (s : State) (p : Nat) : (getPort (discardEgress p s) p).touched = (getPort s p).touched := by
  unfold discardEgress countPort
  rw [modPort_keeps Port.touched, modPort_keeps Port.touched]

theorem entering_touched (v : Port) (new : PState) : (v.entering new).touched = v.touched := by
  unfold Port.entering
  extract_lets _ v2
  have h2 : v2.touched = v.touched := by
    unfold v2
    split <;> rfl
  split <;> exact h2

theorem getLsbD_ofNat_two_pow {p q w : Nat} (hq : q < w) : (BitVec.ofNat w (2 ^ p)).getLsbD q = decide (q = p) := by
  rw [BitVec.getLsbD_ofNat, Nat.testBit_two_pow]
  simp [hq, eq_comm]

namespace HeldOff

theorem ite {p : Prop} [Decidable p] (hs : HeldOff s) (ht : HeldOff t) : HeldOff (if p then s else t) := by
  split <;> assumption

theorem foldl {α : Type} {f : State → α → State} {l : List α} (h : HeldOff s)
    (hf : ∀ t x, HeldOff t → HeldOff (f t x)) : HeldOff (l.foldl f s) := by
  induction l generalizing s with
  | nil => exact h
  | cons x r ih => exact ih (hf _ _ h)

/-- A fold that carries a state beside a result. -/
theorem foldlSnd {α β : Type} {f : β × State → α → β × State} {a : β × State} {l : List α} (h : HeldOff a.2)
    (hf : ∀ a x, HeldOff a.2 → HeldOff (f a x).2) : HeldOff (l.foldl f a).2 := by
  induction l generalizing a with
  | nil => exact h
  | cons x r ih => exact ih (hf _ _ h)

theorem foldlFst {α β : Type} {f : State × β → α → State × β} {a : State × β} {l : List α} (h : HeldOff a.1)
    (hf : ∀ a x, HeldOff a.1 → HeldOff (f a x).1) : HeldOff (l.foldl f a).1 := by
  induction l generalizing a with
  | nil => exact h
  | cons x r ih => exact ih (hf _ _ h)

/-- What this speaks of lies in the ports and in two copies of their lines alone. -/
theorem elsewhere (h : HeldOff s) (hp : t.lk.ports = s.lk.ports := by rfl) (hm : t.ws.portMc = s.ws.portMc := by rfl)
    (hs : t.ws.portSm = s.ws.portSm := by rfl) : HeldOff t := by
  refine ⟨(congrArg List.length hp).trans h.ten, fun p hlt hl => ?_⟩
  rw [getPort_congr_ports hp]
  exact h.off p hlt (lineHeld_congr hp hm hs p ▸ hl)

/-- Beside the links and the lines anything may change. -/
theorem aside (h : HeldOff s) {pending freeCtr cells cores mem fb ws cp cl ue tw pw sf sc db bb mg rst env}
    (hm : ws.portMc = s.ws.portMc := by rfl) (hs : ws.portSm = s.ws.portSm := by rfl) :
    HeldOff ⟨pending, freeCtr, cells, cores, mem, fb, ws, cp, s.lk, cl, ue, tw, pw, sf, sc, db, bb, mg, rst, env⟩ :=
  h.elsewhere (hm := hm) (hs := hs)

theorem whenTaken_of {c : Bool} {f : State → State} (h : HeldOff s) (hf : c = true → HeldOff (f s)) : HeldOff (whenTaken c f s) := by
  cases c
  · exact h
  · exact hf rfl

theorem whenTaken {c : Bool} {f : State → State} (h : HeldOff s) (hf : HeldOff (f s)) : HeldOff (whenTaken c f s) :=
  h.whenTaken_of fun _ => hf

/-- A port written dark where its line is asserted. -/
theorem putPort {p : Nat} {v : Port} (h : HeldOff s)
    (hv : (s.ws.portMc.getLsbD p || s.ws.portSm.getLsbD p || v.touched) = true → v.state.lit = false) :
    HeldOff (Machine.setPort s p v) := by
  refine ⟨(setPort_length s p v).trans h.ten, fun q hq hl => ?_⟩
  rcases Nat.lt_or_ge p s.lk.ports.length with hp | hp
  · rw [lineHeld, getPort_setPort s p q v hp] at hl
    rw [getPort_setPort s p q v hp]
    by_cases hqp : q = p
    · subst hqp
      rw [if_pos rfl] at hl ⊢
      exact hv hl
    · rw [if_neg hqp] at hl ⊢
      exact h.off q hq hl
  · rw [setPort_absent s p v hp] at hl ⊢
    exact h.off q hq hl

/-- A held port is dark; a port that the module does not have is so too. -/
theorem dark (h : HeldOff s) {p : Nat} (hl : lineHeld s p = true) : (getPort s p).state.lit = false := by
  rcases Nat.lt_or_ge p 10 with hp | hp
  · exact h.off p hp hl
  · rw [getPort, lget, List.getElem?_eq_none (h.ten.trans_le hp)]
    rfl

/-- A port written with its lasers no more on, and no more touched, than before. -/
theorem setPort {p : Nat} {v : Port} (h : HeldOff s) (hv : v.state.lit = true → (getPort s p).state.lit = true := by exact id)
    (ht : v.touched = true → (getPort s p).touched = true := by exact id) : HeldOff (setPort s p v) := by
  refine h.putPort fun hl => Bool.eq_false_iff.2 fun hlit => ?_
  have hd := h.dark (p := p) (by
    simp only [lineHeld, Bool.or_eq_true] at hl ⊢
    exact hl.imp_right ht)
  rw [hv hlit] at hd
  exact absurd hd (by decide)

theorem modPort {p : Nat} {f : Port → Port} (h : HeldOff s)
    (hf : ∀ v : Port, (f v).state.lit = true → v.state.lit = true := by exact fun _ => id)
    (ht : ∀ v : Port, (f v).touched = true → v.touched = true := by exact fun _ => id) :
    HeldOff (modPort s p f) := h.setPort (hf _) (ht _)

/-- The ports written all alike. -/
theorem mapPorts (h : HeldOff s) {f : Port → Port} (hp : t.lk.ports = s.lk.ports.map f := by rfl)
    (hm : t.ws.portMc = s.ws.portMc := by rfl) (hs : t.ws.portSm = s.ws.portSm := by rfl)
    (hf : ∀ v : Port, (f v).state.lit = true → v.state.lit = true := by exact fun _ => id)
    (ht : ∀ v : Port, (f v).touched = true → v.touched = true := by exact fun _ => id) : HeldOff t := by
  have hg : ∀ p, p < 10 → getPort t p = f (getPort s p) := by
    intro p hlt
    have : p < s.lk.ports.length := by rw [h.ten]; exact hlt
    rw [getPort, getPort, hp, lget, lget, List.getElem?_map, List.getElem?_eq_getElem this]
    rfl
  refine ⟨by rw [hp, List.length_map, h.ten], fun p hlt hl => Bool.eq_false_iff.2 fun hlit => ?_⟩
  rw [hg p hlt] at hlit
  have hd := h.off p hlt (by
    rw [lineHeld, hm, hs, hg p hlt] at hl
    simp only [lineHeld, Bool.or_eq_true] at hl ⊢
    exact hl.imp_right (ht _))
  rw [hf _ hlit] at hd
  exact absurd hd (by decide)

/-- Where copies of lines clear, nothing lights. -/
theorem fewerLines (h : HeldOff s) (hp : t.lk.ports = s.lk.ports)
    (hm : ∀ p, t.ws.portMc.getLsbD p = true → s.ws.portMc.getLsbD p = true)
    (hs : ∀ p, t.ws.portSm.getLsbD p = true → s.ws.portSm.getLsbD p = true) : HeldOff t := by
  refine ⟨(congrArg List.length hp).trans h.ten, fun p hlt hl => ?_⟩
  rw [getPort_congr_ports hp]
  refine h.off p hlt ?_
  rw [lineHeld, getPort_congr_ports hp] at hl
  simp only [lineHeld, Bool.or_eq_true] at hl ⊢
  exact hl.imp_left (Or.imp (hm p) (hs p))

theorem setCp {p : Nat} {v : PortCp} (h : HeldOff s) : HeldOff (setCp s p v) := by
  unfold Machine.setCp
  split
  · exact h.elsewhere
  · exact h.elsewhere

theorem modCp {p : Nat} {f : PortCp → PortCp} (h : HeldOff s) : HeldOff (modCp s p f) := h.setCp

theorem writeBytes {l : List Byte} {a : Nat} (h : HeldOff s) : HeldOff (writeBytes s a l) := by
  induction l generalizing s a with
  | nil => exact h
  | cons b r ih => exact ih h.elsewhere

end HeldOff

/-- What a command answers, if anything, has the ports with an asserted line dark. -/
def OutHeldOff (o : Out) : Prop := ∀ t, o = .next t → HeldOff t

theorem OutHeldOff.next (h : HeldOff s) : OutHeldOff (.next s) := by
  intro t ht
  cases ht
  exact h

theorem OutHeldOff.guardUnit {ok : Bool} (h : HeldOff s) : OutHeldOff (guardUnit ok s) := by
  intro t ht
  rw [(guardUnit_next.1 ht).2]
  exact h

/-- A result of the sequencer that carries a state carries one with those ports dark. -/
def ResHeldOff : SeqRes → Prop
  | .whole t => HeldOff t
  | .stay t => HeldOff t
  | _ => True

namespace ResHeldOff

theorem next {c : Core} : ResHeldOff (.next c) := trivial
theorem jump {c : Core} {pc : W64} : ResHeldOff (.jump c pc) := trivial
theorem trap {n : Nat} : ResHeldOff (.trap n) := trivial
theorem stall : ResHeldOff .stall := trivial
theorem whole (h : HeldOff s) : ResHeldOff (.whole s) := h
theorem stay (h : HeldOff s) : ResHeldOff (.stay s) := h

theorem ite {p : Prop} [Decidable p] {a b : SeqRes} (ha : ResHeldOff a) (hb : ResHeldOff b) :
    ResHeldOff (if p then a else b) := by
  split <;> assumption

theorem withAccess {a : Access} {f : SeqMem → Nat → SeqRes} (hf : ∀ m off, ResHeldOff (f m off)) :
    ResHeldOff (withAccess a f) := by
  cases a
  · exact hf _ _
  · exact trap
  · exact stall

end ResHeldOff

end Sys2Proof.Machine
end

section
/-!
PROOF. The shared operations keep held ports dark: registers, memory, waystation queues, completions, the black box, phases, programs
and what waits for a phase.
-/

namespace Sys2Proof.Machine

set_option Elab.async false

open Sys2Proof

variable {s t : State}

/-! ### The shared operations -/

theorem HeldOff.countCpFault (h : HeldOff s) {port k : Nat} : HeldOff (countCpFault s port k) := h.modCp

theorem HeldOff.logMemError (h : HeldOff s) {a kind : Nat} : HeldOff (logMemError s a kind) := .ite h h.elsewhere

theorem HeldOff.countLine (h : HeldOff s) {a : Nat} : HeldOff (countLine s a) := .ite h.elsewhere h

theorem HeldOff.noteRead (h : HeldOff s) {a : Nat} : HeldOff (noteRead s a) :=
  .ite h.countLine.elsewhere.logMemError (.ite h.countLine.elsewhere.logMemError h.countLine)

theorem HeldOff.writeSector (h : HeldOff s) {a : Nat} {bs : List Byte} {poison : Bool} :
    HeldOff (writeSector s a bs poison) := by
  unfold Machine.writeSector
  refine .ite h.elsewhere (.ite h ?_)
  extract_lets _ _ _ s0 s1 _ s2
  have hs0 : HeldOff s0 := .ite h h.noteRead
  have hs1 : HeldOff s1 := .ite hs0 hs0.writeBytes
  have hs2 : HeldOff s2 := hs1.writeBytes.elsewhere
  exact .ite hs2.elsewhere.countLine hs2

theorem HeldOff.noteReads (h : HeldOff s) {a n : Nat} : HeldOff (noteReads s a n) := h.foldl fun _ _ ht => ht.noteRead

theorem HeldOff.writeMem (h : HeldOff s) {a : Nat} {bs : List Byte} : HeldOff (writeMem s a bs) :=
  h.foldl fun _ _ ht => ht.writeSector

theorem HeldOff.writePieces (h : HeldOff s) {a : Nat} {bs : List Byte} {poison : Bool} : HeldOff (writePieces s a bs poison) :=
  h.foldl fun _ _ ht => ht.writeSector

theorem HeldOff.writeJob (h : HeldOff s) {a : Nat} {bs : List Byte} : HeldOff (writeJob s a bs) :=
  h.foldl fun _ _ ht => .ite ht ht.writeSector

theorem HeldOff.postDown (h : HeldOff s) {kind : Nat} {p : Payload} : HeldOff (postDown s kind p) := by
  unfold Machine.postDown
  split
  · exact h.elsewhere
  · exact h.elsewhere

theorem HeldOff.popDown (h : HeldOff s) : HeldOff (popDown s) := by
  unfold Machine.popDown
  extract_lets _ s1
  have hs1 : HeldOff s1 := h.elsewhere
  split
  · exact hs1
  · exact hs1.elsewhere

theorem HeldOff.postUp (h : HeldOff s) {kind source : Nat} {p : Payload} : HeldOff (postUp s kind source p) := by
  unfold Machine.postUp
  split
  · exact h.elsewhere
  · exact h.elsewhere

theorem HeldOff.popUp (h : HeldOff s) : HeldOff (popUp s) := by
  unfold Machine.popUp
  extract_lets _ s1
  have hs1 : HeldOff s1 := h.elsewhere
  split
  · exact hs1
  · exact hs1.elsewhere

theorem HeldOff.postTele (h : HeldOff s) {kind source : Nat} {p : Payload} : HeldOff (postTele s kind source p) :=
  .ite (.ite h.elsewhere h.elsewhere) (.ite h.elsewhere h.elsewhere)

theorem HeldOff.refillTele (h : HeldOff s) {plain : Bool} : HeldOff (refillTele plain s) := by
  unfold Machine.refillTele
  refine .ite ?_ ?_
  · split
    · exact h
    · exact h.elsewhere
  · split
    · exact h
    · exact h.elsewhere

theorem HeldOff.popTele (h : HeldOff s) : HeldOff (popTele s) := by
  unfold Machine.popTele
  split
  · exact h
  · exact h.elsewhere.refillTele

theorem HeldOff.traceRec (h : HeldOff s) {kind arg : Nat} : HeldOff (traceRec kind arg s) := .ite h.elsewhere h

theorem HeldOff.enterInter (h : HeldOff s) {kind n : Nat} {p : Payload} : HeldOff (enterInter s kind n p) :=
  .ite h.elsewhere h.elsewhere.traceRec.aside

theorem HeldOff.postOrder (h : HeldOff s) {kind : Nat} {p : Payload} : HeldOff (postOrder s kind p) :=
  .ite h.enterInter h.elsewhere

theorem HeldOff.popInter (h : HeldOff s) : HeldOff (popInter s) := by
  unfold Machine.popInter
  extract_lets _ s1
  have hs1 : HeldOff s1 := h.elsewhere
  split
  · exact hs1
  · exact hs1.elsewhere.enterInter

theorem HeldOff.complete (h : HeldOff s) {handle status flags : Nat} {result : List W64} :
    HeldOff (complete handle status flags result s) := by
  unfold Machine.complete
  extract_lets
  split
  · exact .ite h.setCp h
  · exact h.setCp

theorem HeldOff.postCompletion (h : HeldOff s) {handle status flags : Nat} {result : List W64} :
    HeldOff (postCompletion handle status flags result s) :=
  h.postUp

theorem HeldOff.eventOn (h : HeldOff s) {port code : Nat} {result : List W64} : HeldOff (eventOn port code result s) :=
  .ite h.setCp.countCpFault h.setCp

theorem HeldOff.postEvent (h : HeldOff s) {code : Nat} {result : List W64} : HeldOff (postEvent code result s) :=
  h.eventOn.eventOn.traceRec

theorem HeldOff.longDone (h : HeldOff s) {handle status flags : Nat} {result : List W64} :
    HeldOff (longDone handle status flags result s) := by
  unfold Machine.longDone
  split
  · exact h.complete
  · extract_lets _ s1 s2 _ s3 s4
    have hs1 : HeldOff s1 := h.elsewhere
    have hs2 : HeldOff s2 := hs1.elsewhere.complete
    have hs3 : HeldOff s3 := by
      unfold s3
      split
      · exact hs2.complete
      · exact hs2
    have hs4 : HeldOff s4 := by
      unfold s4
      split
      · exact hs3.complete
      · exact hs3
    split
    · exact hs4.complete
    · exact hs4

theorem HeldOff.endCommand (h : HeldOff s) {handle status flags : Nat} {result : List W64} :
    HeldOff (endCommand handle status flags result s) := by
  unfold Machine.endCommand
  split
  · exact h.longDone
  · exact h.complete

/-! ### Writing the black box -/

theorem HeldOff.writeCtrl (h : HeldOff s) {c : BbCtrl} : HeldOff (writeCtrl c s) :=
  .ite h.elsewhere h.elsewhere

theorem HeldOff.writeControl (h : HeldOff s) {seq type cause : Nat} {body : List Byte} :
    HeldOff (writeControl seq type cause body s) :=
  .ite h.writeCtrl h.writeCtrl.elsewhere

theorem HeldOff.bbCommit (h : HeldOff s) {type cause len : Nat} {body : List Byte} : HeldOff (bbCommit type cause len body s) :=
  .ite h.elsewhere h.elsewhere.writeControl

theorem HeldOff.bbEvent (h : HeldOff s) {code : Nat} {body : List Byte} : HeldOff (bbEvent code body s) :=
  .ite h.elsewhere h.bbCommit

theorem HeldOff.commitNote (h : HeldOff s) {note : List Byte} : HeldOff (commitNote note s) := .ite h.bbEvent h.bbCommit

theorem HeldOff.noteGo (h : HeldOff s) {note : List Byte} : HeldOff (noteGo note s) :=
  .ite h.elsewhere.commitNote (.ite h.elsewhere h.elsewhere)

theorem HeldOff.noteEvent (h : HeldOff s) {code : Nat} {body : List Byte} : HeldOff (noteEvent code body s) := h.noteGo

theorem HeldOff.noteLoad (h : HeldOff s) {body : List Byte} : HeldOff (noteLoad body s) := h.noteGo

theorem HeldOff.remapPending (h : HeldOff s) {kind index part : Nat} : HeldOff (remapPending kind index part s) :=
  h.noteEvent.postEvent

/-! ### Operands -/

theorem HeldOff.seqWrite (h : HeldOff s) {core : Nat} {m : SeqMem} {off : Nat} {bs : List Byte} {poison : Bool} :
    HeldOff (seqWrite s core m off bs poison) := by
  unfold Machine.seqWrite
  split
  · exact h.writeSector
  · exact h.elsewhere
  · exact h.elsewhere
  · exact h

/-! ### Frame -/

theorem HeldOff.cellPhaseStart (h : HeldOff s) {cell : Nat} :
    HeldOff (cellPhaseStart s cell) := .ite (.ite h h.elsewhere) h.elsewhere

/-! ### Phases and programs -/

theorem HeldOff.coreFault (h : HeldOff s) {core bit index count : Nat} : HeldOff (coreFault core bit index count s) :=
  .ite h h.elsewhere

theorem HeldOff.sendTotals (h : HeldOff s) {r : TwRec} : HeldOff (sendTotals r s) := h.postTele.postTele

theorem HeldOff.closeFmt (h : HeldOff s) {o : OpenRec} {run : Run} {fmt : Nat} : HeldOff (closeFmt o run fmt s) :=
  h.elsewhere.sendTotals

theorem HeldOff.closeOpen (h : HeldOff s) {o : OpenRec} {run : Run} : HeldOff (closeOpen o run s) :=
  .elsewhere (h.foldl fun _ _ ht => ht.closeFmt)

theorem HeldOff.closeRegion (h : HeldOff s) {region : Nat} {run : Run} : HeldOff (closeRegion region run s) :=
  h.foldl fun _ _ ht => ht.closeOpen

theorem HeldOff.startPhaseOn (h : HeldOff s) {core : Nat} {p : CorePhase} : HeldOff (startPhaseOn core p s) := by
  unfold Machine.startPhaseOn
  exact .elsewhere (h.foldl fun _ _ ht => ht.cellPhaseStart)

theorem HeldOff.switchCore (h : HeldOff s) {core slot : Nat} :
    HeldOff (switchCore core slot s) := h.foldl fun _ _ ht => ht.elsewhere

theorem HeldOff.openRun (h : HeldOff s) {region : Nat} {r : Run} : HeldOff (openRun region r s) := h.elsewhere.postDown

theorem HeldOff.startWaits (h : HeldOff s) {region fuel : Nat} : HeldOff (startWaits region fuel s) := by
  induction fuel generalizing s with
  | zero => exact h
  | succ fuel ih =>
    unfold Machine.startWaits
    refine .ite h ?_
    split
    · exact h
    · extract_lets _ s1
      have hs1 : HeldOff s1 := h.elsewhere
      split
      · exact .ite hs1.openRun (ih hs1.complete)
      · exact hs1

theorem HeldOff.startNextWait (h : HeldOff s) {region : Nat} : HeldOff (startNextWait region s) := h.startWaits

theorem HeldOff.finishRun (h : HeldOff s) {region : Nat} {r : Run} : HeldOff (finishRun region r s) := by
  unfold Machine.finishRun
  extract_lets s1 _ s' s2
  have hs1 : HeldOff s1 := h.elsewhere
  have hs' : HeldOff s' := hs1.modCp
  have hs2 : HeldOff s2 := by
    unfold s2
    split
    · exact hs1.postCompletion
    · exact .ite hs1.postCompletion hs'.postCompletion
  exact hs2.startNextWait

theorem HeldOff.finishFaulted (h : HeldOff s) {region : Nat} : HeldOff (finishFaulted region s) := by
  unfold Machine.finishFaulted
  split
  · exact .ite h.closeRegion.finishRun h
  · exact h

theorem HeldOff.endPhaseOn (h : HeldOff s) {core : Nat} {p : CorePhase} : HeldOff (endPhaseOn core p s) := by
  unfold Machine.endPhaseOn
  extract_lets s'
  have hs' : HeldOff s' := h.foldl fun _ _ ht => .ite ht ht.aside
  clear_value s'
  split
  · extract_lets s1 s2
    have hs1 : HeldOff s1 := hs'.elsewhere
    have hs2 : HeldOff s2 := .ite hs1.elsewhere hs1
    split
    · refine .ite hs2.finishFaulted ?_
      split
      · extract_lets _ _ s3 _ s4
        have hs3 : HeldOff s3 := hs2.elsewhere
        have hs4 : HeldOff s4 := .ite hs3.closeOpen hs3
        exact .ite hs4.finishRun hs4.finishFaulted
    · exact hs2

/-! ### Writes that wait for a phase -/

theorem HeldOff.outerSector (h : HeldOff s) {a : Nat} {bs : List Byte} {poison : Bool} : HeldOff (outerSector a bs poison s) :=
  .ite h.elsewhere h.writeSector

theorem HeldOff.hostSector (h : HeldOff s) {handle : Option Nat} {a : Nat} {bs : List Byte} {poison : Bool} :
    HeldOff (hostSector handle a bs poison s) :=
  .ite h.elsewhere h.writeSector

theorem HeldOff.settleCopies (h : HeldOff s) : HeldOff (settleCopies s) := h.elsewhere.foldl fun _ _ ht => ht.complete

theorem HeldOff.releaseWrites (h : HeldOff s) : HeldOff (releaseWrites s) :=
  .settleCopies (h.elsewhere.foldl fun _ _ ht => ht.writeSector)

end Sys2Proof.Machine
end

section
/-!
PROOF. The memory controllers, repairs, the routing of elements and the loader keep held ports dark.
-/

namespace Sys2Proof.Machine

set_option Elab.async false

open Sys2Proof

variable {s t : State}

/-! ### The memory controllers -/

theorem HeldOff.killSub (h : HeldOff s) {stack p : Nat} : HeldOff (killSub stack p s) :=
  .noteEvent (.aside (h.elsewhere.foldl fun _ _ ht => ht.elsewhere))

theorem HeldOff.loseCopy (h : HeldOff s) {stack p : Nat} : HeldOff (loseCopy stack p s) :=
  .elsewhere (.elsewhere (h.foldl fun _ _ ht => ht.killSub))

theorem HeldOff.pinFailed (h : HeldOff s) {stack p pin : Nat} : HeldOff (pinFailed stack p pin s) := by
  unfold Machine.pinFailed
  extract_lets _ s1 _ s2
  have hs1 : HeldOff s1 := h.elsewhere
  have hs2 : HeldOff s2 := hs1.elsewhere
  split
  · exact hs2.remapPending
  · exact h.elsewhere
  · exact .ite h h.killSub
  · exact .ite h h.killSub
  · exact .ite h (.ite h.loseCopy h.elsewhere)
  · exact h

theorem HeldOff.pinsFailed (h : HeldOff s) {stack p : Nat} : HeldOff (pinsFailed stack p s) := by
  unfold Machine.pinsFailed
  split
  · exact h.elsewhere
  · exact h.loseCopy
  · exact h
  · exact h
  · exact h.killSub

theorem HeldOff.countPins (h : HeldOff s) {stack p : Nat} {pins : List Nat} : HeldOff (countPins stack p pins s) := by
  unfold Machine.countPins
  extract_lets _ _ _ _ s1 hit
  have hs1 : HeldOff s1 := h.elsewhere
  clear_value hit
  split
  · exact hs1
  · exact hs1.pinFailed
  · exact hs1.pinsFailed

theorem HeldOff.applySymbols (h : HeldOff s) {a : Nat} {wrong : List Byte} : HeldOff (applySymbols a wrong s) :=
  .ite (.ite h.writeBytes.aside h.writeBytes) (.aside (.ite h.writeBytes.aside h.writeBytes))

theorem HeldOff.controllerRead (h : HeldOff s) {a : Nat} {errs : List (Nat × Byte)} : HeldOff (controllerRead a errs s) := by
  unfold Machine.controllerRead
  extract_lets s' _ _ _ faulted s1
  have hs' : HeldOff s' := h.countLine
  have hfaulted : ∀ u, HeldOff u → HeldOff (faulted u) := fun _ hu => .ite hu.elsewhere.logMemError hu
  have hs1 : HeldOff s1 := hs'.writeBytes.elsewhere
  refine .ite hs'.elsewhere.logMemError ?_
  split
  · exact hs'
  · split
    · exact hs1.elsewhere.logMemError
    · exact hfaulted _ hs'.applySymbols.elsewhere.countPins

theorem HeldOff.execRetirementStart (h : HeldOff s) {stack : Nat} : OutHeldOff (execRetirementStart stack s) := by
  unfold Machine.execRetirementStart
  refine .guardUnit ?_
  extract_lets
  split
  · exact h.whenTaken h.elsewhere
  · exact h

theorem HeldOff.finishRetire (h : HeldOff s) {r : Retire} : HeldOff (finishRetire r s) :=
  h.elsewhere.noteEvent

theorem HeldOff.copyOn (h : HeldOff s) : HeldOff (copyOn s) := .ite h.elsewhere h

theorem HeldOff.execRetirementComplete (h : HeldOff s) {stack : Nat} : OutHeldOff (execRetirementComplete stack s) := by
  unfold Machine.execRetirementComplete
  refine .guardUnit ?_
  split
  · exact .ite h.finishRetire h
  · exact h

/-! ### Failures and repairs -/

theorem HeldOff.saveRepair (h : HeldOff s) : HeldOff (saveRepair s) := h.elsewhere

theorem HeldOff.clusterFail (h : HeldOff s) {i cause : Nat} : HeldOff (clusterFail i cause s) := by
  unfold Machine.clusterFail
  extract_lets
  split
  · exact h.elsewhere.saveRepair.remapPending
  · exact h.elsewhere.saveRepair
  · exact h.elsewhere.saveRepair
  · exact h

theorem HeldOff.spareFail (h : HeldOff s) {i : Nat} : HeldOff (spareFail i s) := .ite h.elsewhere.saveRepair h

theorem HeldOff.cellFail (h : HeldOff s) {core row col : Nat} : HeldOff (cellFail core row col s) :=
  .ite h (.ite h.elsewhere.clusterFail h.elsewhere.saveRepair.remapPending)

theorem HeldOff.routerFail (h : HeldOff s) {i : Nat} {adjacent : Bool} : HeldOff (routerFail i adjacent s) :=
  .ite h.elsewhere.saveRepair.elsewhere h.elsewhere.saveRepair

theorem HeldOff.recordTest (h : HeldOff s) {t0 : SelfTest} : HeldOff (recordTest t0 s) := by
  unfold Machine.recordTest
  split
  · exact .ite h.elsewhere.cellFail h
  · exact .ite h.clusterFail h
  · exact .ite h.clusterFail h
  · exact .ite h.routerFail h
  · exact .ite h.spareFail h

theorem HeldOff.copyStore (h : HeldOff s) {src dst : Nat} : HeldOff (copyStore src dst s) :=
  h.foldl fun _ _ ht => ht.writeBytes.elsewhere

theorem HeldOff.freeCell (h : HeldOff s) {cell : Nat} : HeldOff (freeCell cell s) := by
  unfold Machine.freeCell
  extract_lets _ _ r3 _ s1 s2
  have hr3 : HeldOff r3.2 := h.aside
  have hs1 : HeldOff s1 := hr3.writeBytes
  have hs2 : HeldOff s2 := hs1.foldl fun _ _ ht => ht.aside
  exact hs2.aside

theorem HeldOff.shiftRow (h : HeldOff s) {core row f : Nat} : HeldOff (shiftRow core row f s) :=
  .ite (.freeCell (h.foldl fun _ _ ht => ht.elsewhere.copyStore)) (h.foldl fun _ _ ht => ht.elsewhere.copyStore)

theorem HeldOff.applyRow (h : HeldOff s) {core row : Nat} : HeldOff (applyRow core row s) := by
  unfold Machine.applyRow
  extract_lets _ _ _ _ s1 s2
  have hs1 : HeldOff s1 := h.elsewhere
  have hs2 : HeldOff s2 := by
    unfold s2
    split
    · exact hs1.shiftRow
    · exact hs1
  exact hs2.saveRepair.noteEvent

theorem HeldOff.moveCluster (h : HeldOff s) {i j : Nat} : HeldOff (moveCluster i j s) := by
  unfold Machine.moveCluster
  extract_lets _ _ _ _ s' _ _ _ s1 s2
  have hs' : HeldOff s' := h.foldl fun _ _ ht => ht.elsewhere
  have hs1 : HeldOff s1 := hs'.elsewhere
  have hs2 : HeldOff s2 := hs1.foldl fun _ _ ht => ht.elsewhere
  exact hs2.saveRepair.noteEvent

theorem HeldOff.dropCluster (h : HeldOff s) {i : Nat} : HeldOff (dropCluster i s) := h.elsewhere.saveRepair

theorem HeldOff.applyRemaps (h : HeldOff s) {applies : Nat → Bool} {d : Nat} : HeldOff (applyRemaps applies d s).1 := by
  unfold Machine.applyRemaps
  extract_lets _ s1 _ _ s2 s3
  have hs1 : HeldOff s1 := h.foldl fun _ _ ht => ht.applyRow
  have hs2 : HeldOff s2 := hs1.foldl fun _ _ ht => ht.moveCluster
  have hs3 : HeldOff s3 := hs2.foldl fun _ _ ht => ht.dropCluster
  exact hs3.elsewhere

/-! ### Elements over the switch boxes -/

theorem HeldOff.putBitsBy {put : Nat → List Byte → Bool → State → State} (h : HeldOff s)
    (hput : ∀ {t a l b}, HeldOff t → HeldOff (put a l b t)) {cell base bit n v : Nat} {poison : Bool} :
    HeldOff (putBitsBy put s cell base bit n v poison) := .ite (hput h) (h.foldl fun _ _ => hput)

theorem HeldOff.putStoreBits (h : HeldOff s) {cell base bit n v : Nat} {poison : Bool} :
    HeldOff (putStoreBits s cell base bit n v poison) := h.putBitsBy fun ht => ht.writeSector

theorem HeldOff.storeWrite (h : HeldOff s) {cell : Nat} {outer : Bool} {e : Elem} : HeldOff (storeWrite s cell outer e) := by
  unfold Machine.storeWrite
  refine .elsewhere (.putBitsBy h fun ht => ?_)
  split
  · exact ht.outerSector
  · exact ht.writeSector

theorem HeldOff.routeFrom (h : HeldOff s) {fuel cell src : Nat} {e : Elem} : HeldOff (routeFrom fuel cell src e s) := by
  induction fuel generalizing s cell src e with
  | zero => exact h
  | succ fuel ih =>
    unfold Machine.routeFrom
    extract_lets arrive
    have harrive : ∀ u x e, HeldOff u → HeldOff (arrive u x e) := by
      intro u x e hu
      refine .ite ?_ (.ite hu.storeWrite hu.elsewhere)
      split
      · exact ih hu
      · exact hu.elsewhere
    exact h.foldl fun _ _ ht => .ite (harrive _ _ _ ht) (.ite (harrive _ _ _ ht.elsewhere) ht.elsewhere)

theorem HeldOff.storeEmit (h : HeldOff s) {cell fmt : Nat} : HeldOff (storeEmit s cell fmt) := h.elsewhere.routeFrom

/-! ### The stages of a load -/

theorem HeldOff.modHead (h : HeldOff s) {f : Load → Load} : HeldOff (modHead s f) := by
  unfold Machine.modHead
  split
  · exact h
  · exact h.elsewhere

theorem HeldOff.sendLoad (h : HeldOff s) : HeldOff (sendLoad s) := by
  unfold Machine.sendLoad
  split
  · exact h
  · exact .ite h h.modHead.postDown

theorem HeldOff.switchNow (h : HeldOff s) {region slot handle : Nat} : HeldOff (switchNow region slot handle s) := by
  unfold Machine.switchNow
  split
  · exact h.complete
  · exact .ite h.complete (.ite h.complete h.postDown)

theorem HeldOff.requestSwitch (h : HeldOff s) {region slot handle : Nat} : HeldOff (requestSwitch region slot handle s) :=
  .ite h.elsewhere h.switchNow

theorem HeldOff.execFetch (h : HeldOff s) : OutHeldOff (execFetch s) := by
  unfold Machine.execFetch
  refine .next ?_
  split
  · exact h
  · exact h.whenTaken h.noteReads.modHead

theorem HeldOff.execVerify (h : HeldOff s) : OutHeldOff (execVerify s) := by
  unfold Machine.execVerify
  refine .next ?_
  split
  · exact h
  · exact h.whenTaken h.modHead

theorem HeldOff.applyCell (h : HeldOff s) {g : Img} {cell : Nat} : HeldOff (applyCell g cell s) := by
  unfold Machine.applyCell
  exact h.elsewhere

theorem HeldOff.applyQ (h : HeldOff s) {f : CtxFrame} : HeldOff (applyQ f s) := by
  unfold Machine.applyQ
  split
  · exact h
  · exact h.foldl fun _ _ ht => ht.elsewhere

theorem HeldOff.applyInit (h : HeldOff s) {f : CtxFrame} : HeldOff (applyInit f s) := .ite (h.foldl fun _ _ ht => ht.writeMem) h

theorem HeldOff.applyPerm (h : HeldOff s) {digest : List Byte} {die : Nat} {d : RegDesc} : HeldOff (applyPerm digest die d s) :=
  h.foldl fun _ _ ht => ht.elsewhere

theorem HeldOff.clearProgram (h : HeldOff s) {die : Nat} {d : RegDesc} : HeldOff (clearProgram die d s) :=
  h.foldl fun _ _ ht => ht.elsewhere

theorem HeldOff.applyProg (h : HeldOff s) {die : Nat} {q : ProgSub} : HeldOff (applyProg die q s) :=
  h.foldl fun _ _ ht => ht.elsewhere

theorem HeldOff.fixJob (h : HeldOff s) {im : List Byte} : HeldOff (fixJob im s) := .ite h h.elsewhere

theorem HeldOff.applyDie (h : HeldOff s) {g : Img} {digest : List Byte} {die : Nat} : HeldOff (applyDie g digest die s).1 := by
  unfold Machine.applyDie
  extract_lets r _ _ s1 s2 s3 s4
  have hr : HeldOff r.1 := h.applyRemaps
  have hs1 : HeldOff s1 := hr.foldl fun _ _ ht => ht.applyCell
  have hs2 : HeldOff s2 := hs1.foldl fun _ _ ht => ht.applyPerm
  have hs3 : HeldOff s3 := hs2.foldl fun _ _ ht => ht.applyQ.applyInit
  have hs4 : HeldOff s4 := hs3.foldl fun _ _ ht => ht.clearProgram
  exact hs4.foldl fun _ _ ht => ht.applyProg

theorem HeldOff.commitLoad (h : HeldOff s) {l : Load} : HeldOff (commitLoad l s) := h.elsewhere.fixJob

theorem HeldOff.applyDies (h : HeldOff s) {l : Load} : HeldOff (applyDies l s) := by
  unfold Machine.applyDies
  extract_lets _ _ r
  have hr : HeldOff r.1 := by
    unfold r
    refine h.foldlFst ?_
    intro a x ha
    extract_lets x_1
    have hx_1 : HeldOff x_1.1 := ha.applyDie
    exact hx_1
  exact hr.modHead

theorem HeldOff.execApply (h : HeldOff s) : OutHeldOff (execApply s) := by
  unfold Machine.execApply
  refine .next ?_
  split
  · exact h
  · exact .ite h.applyDies (h.whenTaken h.commitLoad.applyDies)

theorem HeldOff.closeLoad (h : HeldOff s) {l : Load} {outcome : Nat} : HeldOff (closeLoad l outcome s) :=
  h.elsewhere.noteLoad.sendLoad

theorem HeldOff.afterLoad (h : HeldOff s) : HeldOff (afterLoad s) :=
  .foldl (h.elsewhere.foldl fun _ _ ht => ht.requestSwitch) (fun _ _ ht => ht.startNextWait)

theorem HeldOff.reportGood (h : HeldOff s) {l : Load} : HeldOff (reportGood l s) := by
  unfold Machine.reportGood
  extract_lets _ _ s1
  have hs1 : HeldOff s1 := h.elsewhere
  exact hs1.closeLoad.postCompletion.afterLoad

theorem HeldOff.reportBad (h : HeldOff s) {l : Load} : HeldOff (reportBad l s) := by
  unfold Machine.reportBad
  extract_lets _ _ s1
  have hs1 : HeldOff s1 := h.elsewhere
  exact hs1.closeLoad.postCompletion.afterLoad

theorem HeldOff.execReport (h : HeldOff s) : OutHeldOff (execReport s) := by
  unfold Machine.execReport
  refine .next ?_
  split
  · exact h
  · exact h.whenTaken (.ite h.reportGood h.reportBad)

theorem HeldOff.cancelLoad (h : HeldOff s) {handle : Nat} : HeldOff (cancelLoad handle s) := by
  unfold Machine.cancelLoad
  split
  · exact h
  · exact h.closeLoad.afterLoad

end Sys2Proof.Machine
end

section
/-!
PROOF. The ports, the orders, the black box recorder and the packets keep held ports dark.
-/

namespace Sys2Proof.Machine

set_option Elab.async false

open Sys2Proof

variable {s t : State}

/-! ### The optical ports -/

theorem HeldOff.relamp (h : HeldOff s) {p : Nat} : HeldOff (relamp p s) := .ite h.setPort h.setPort.aside

theorem HeldOff.relampAll (h : HeldOff s) : HeldOff (relampAll s) := h.foldl fun _ _ ht => ht.relamp

theorem HeldOff.countPort (h : HeldOff s) {p k n : Nat} : HeldOff (countPort p k n s) := h.modPort

theorem HeldOff.faultPort (h : HeldOff s) {p bit : Nat} : HeldOff (faultPort p bit s) := h.modPort

theorem HeldOff.discardEgress (h : HeldOff s) {p : Nat} : HeldOff (discardEgress p s) := h.modPort.countPort

theorem HeldOff.enterPort (h : HeldOff s) {p : Nat} {new : PState}
    (hn : new.lit = true → (getPort s p).state.lit = true ∨ lineHeld s p = false := by rintro ⟨⟩) :
    HeldOff (enterPort p new s) := by
  unfold Machine.enterPort
  extract_lets old s1 en _ s2 _ s3
  have hline : ∀ u, getPort u p = getPort s1 p → u.ws = s1.ws → lineHeld u p = lineHeld s p := by
    intro u hu hw
    have h1 : (getPort s1 p).touched = (getPort s p).touched ∧ s1.ws = s.ws := by
      unfold s1
      split
      · exact ⟨discardEgress_touched s p, rfl⟩
      · exact ⟨rfl, rfl⟩
    rw [lineHeld, hu, hw, h1.1, h1.2, lineHeld]
  have hs1 : HeldOff s1 := .ite h.discardEgress h
  have hs2 : HeldOff s2 := by
    refine HeldOff.putPort (s := { s1 with sf := { s1.sf with mcEnable := en } }) hs1.aside fun hl => Bool.eq_false_iff.2 fun hlit => ?_
    rw [entering_touched] at hl
    rw [entering_state] at hlit
    have hheld : lineHeld s p = true := (hline { s1 with sf := { s1.sf with mcEnable := en } } rfl rfl) ▸ hl
    rcases hn hlit with hon | hoff
    · rw [h.dark hheld] at hon
      exact absurd hon (by decide)
    · rw [hheld] at hoff
      exact absurd hoff (by decide)
  have hs3 : HeldOff s3 := .ite (hs2.modPort.foldl fun _ _ ht => ht.postCompletion) hs2
  exact .ite h hs3.relamp

/-- A port up to its data lasers goes on to another such state. -/
theorem HeldOff.enterLit (h : HeldOff s) {p : Nat} {new old : PState} (hs : (getPort s p).state = old)
    (hl : old.lit = true := by rfl) : HeldOff (Machine.enterPort p new s) :=
  h.enterPort fun _ => .inl (hs ▸ hl)

theorem HeldOff.failPort (h : HeldOff s) {p bit : Nat} : HeldOff (failPort p bit s) := h.faultPort.enterPort

theorem HeldOff.settlePilot (h : HeldOff s) {p : Nat} : HeldOff (settlePilot p s) := by
  unfold Machine.settlePilot
  extract_lets _ d
  refine .ite h ?_
  clear_value d
  split
  · exact h.failPort
  next d =>
    extract_lets s1
    split
    next hready =>
      refine h.modPort.modPort.enterPort fun _ => .inr ?_
      rw [lineHeld_modPort]
      simp only [dataReady, Bool.and_eq_true, Bool.not_eq_true'] at hready
      exact hready.1.1.2
    · exact h.modPort

theorem HeldOffBut.lineOn {l : List Nat} {p : Nat} (h : HeldOffBut (p :: l) s) : HeldOffBut l (lineOn p s) := by
  obtain ⟨⟨hcount, hws⟩, honly⟩ := lineOn_actsOnPort p s
  refine ⟨hcount.trans h.ten, fun q hq hql hl => ?_⟩
  by_cases hqp : q = p
  · subst hqp
    exact lineOn_dark (h.ten ▸ hq)
  · rw [honly q hqp]
    refine h.off q hq (by simp [hqp, hql]) ?_
    rw [lineHeld, hws, honly q hqp] at hl
    exact hl

theorem HeldOffBut.linesOn {l : List Nat} (h : HeldOffBut l s) : HeldOff (l.foldl (fun st p => Machine.lineOn p st) s) := by
  induction l generalizing s with
  | nil => exact h.all
  | cons p r ih => exact ih h.lineOn

theorem HeldOff.settlePilots (h : HeldOff s) : HeldOff (settlePilots s) := h.foldl fun _ _ ht => ht.settlePilot

theorem HeldOff.lineOff (h : HeldOff s) {p : Nat} : HeldOff (lineOff p s) := by
  unfold Machine.lineOff
  split
  · exact h.relamp
  next hfree =>
    split
    · refine h.modPort.enterPort fun _ => .inr ?_
      rw [lineHeld_modPort]
      exact Bool.eq_false_iff.2 hfree
    · exact h.relamp.settlePilot

theorem HeldOff.smHold (h : HeldOff s) {p cause : Nat} : HeldOff (smHold p cause s) := by
  have hbut : HeldOffBut [p] { s with sf := { s.sf with holds := tput false s.sf.holds (8 * p + cause) true },
                                      ws := { s.ws with portSm := s.ws.portSm ||| BitVec.ofNat 10 (2 ^ p) } } := by
    refine ⟨h.ten, fun q hq hqp hl => h.off q hq ?_⟩
    simp only [lineHeld, BitVec.getLsbD_or, getLsbD_ofNat_two_pow hq, decide_eq_false fun e => hqp (List.mem_singleton.2 e),
      Bool.or_false] at hl
    exact hl
  exact hbut.linesOn

theorem HeldOff.smFree (h : HeldOff s) {p cause : Nat} : HeldOff (smFree p cause s) := by
  unfold Machine.smFree
  refine .ite (.relamp h.elsewhere) (.lineOff ?_)
  refine h.fewerLines rfl (fun _ hq => hq) fun q hq => ?_
  rw [BitVec.getLsbD_and] at hq
  exact (Bool.and_eq_true_iff.1 hq).1

theorem HeldOff.releasePort (h : HeldOff s) {p : Nat} {handle : Option Nat} {press : Bool} :
    HeldOff (releasePort p handle press s) := by
  unfold Machine.releasePort
  extract_lets wait s1
  have hwait : HeldOff (wait s) := by
    unfold wait
    split
    · exact h.modPort
    · exact h
  have hs1 : HeldOff s1 := h.enterPort
  split
  · exact h
  · exact hwait
  · refine .settlePilot ?_
    split
    · exact hs1.postCompletion
    · exact hs1
  next hst =>
    refine .modPort (hwait.enterLit (old := .active) ?_)
    unfold wait
    split
    · exact (modPort_keeps Port.state ..).trans hst
    · exact hst
  next => exact .enterPort hwait

theorem HeldOff.moveLanes (h : HeldOff s) {p : Nat} : HeldOff (moveLanes p s) := by
  unfold Machine.moveLanes
  extract_lets
  refine .ite h ?_
  split
  · exact h
  · split
    · exact h.modPort
    · exact .ite h.failPort h

theorem HeldOff.sendFrame (h : HeldOff s) {p : Nat} : HeldOff (sendFrame p s) := h.modPort.aside

theorem HeldOff.hearFrame (h : HeldOff s) {p : Nat} {f : PilotFrame} : HeldOff (hearFrame p f s) := by
  unfold Machine.hearFrame
  extract_lets v s0 _ _ s1 s2 s3 s4
  have hs0 : HeldOff s0 := .ite h h.faultPort
  have hs1 : HeldOff s1 := .ite hs0.faultPort hs0
  have hs2 : HeldOff s2 := .ite hs1.enterPort hs1
  have hs3 : HeldOff s3 := hs2.modPort (fun v => by dsimp only; split <;> exact id) fun v => by dsimp only; split <;> exact id
  have hs4 : HeldOff s4 := .ite hs3.discardEgress hs3
  exact .ite hs0.faultPort.enterPort hs4.settlePilot

theorem HeldOff.execTrainDone (h : HeldOff s) {p : Nat} {lanes : List LaneMeasure} : OutHeldOff (execTrainDone p lanes s) := by
  unfold Machine.execTrainDone
  refine .guardUnit ?_
  extract_lets grades
  refine h.whenTaken_of fun hst => ?_
  extract_lets s1 s2 v
  have hs1 : HeldOff s1 := h.modPort
  have hs2 : HeldOff s2 := hs1.modPort
  have htrain : (getPort s2 p).state = .train :=
    (modPort_keeps Port.state ..).trans ((modPort_keeps Port.state ..).trans (beq_iff_eq.1 hst))
  exact .ite hs1.failPort (.ite (hs2.enterLit htrain) (hs2.enterLit htrain).postEvent)

theorem HeldOff.execRampDone (h : HeldOff s) {p : Nat} {lanes : List LaneMeasure} : OutHeldOff (execRampDone p lanes s) := by
  unfold Machine.execRampDone
  refine .guardUnit (h.whenTaken_of fun hst => ?_)
  extract_lets s1
  have hs1 : HeldOff s1 := h.modPort
  exact .ite hs1.failPort (hs1.enterLit ((modPort_keeps Port.state ..).trans (beq_iff_eq.1 hst)))

theorem HeldOff.untouch (h : HeldOff s) {p : Nat} {b : Bool} :
    HeldOff (Machine.setPort s p { getPort s p with touched := false, touchIgnored := b }) :=
  h.setPort (ht := by rintro ⟨⟩)

theorem HeldOff.execLatchTouch (h : HeldOff s) {p : Nat} : OutHeldOff (execLatchTouch p s) := by
  unfold Machine.execLatchTouch
  refine .guardUnit ?_
  extract_lets s1
  have hs1 : HeldOff s1 := h.modPort
  clear_value s1
  have hbut : HeldOffBut [p] (Machine.modPort s1 p fun v => { v with touched := true }) := by
    refine ⟨(setPort_length ..).trans hs1.ten, fun q hq hqp hl => ?_⟩
    have hother := (modPort_actsOnPort s1 p fun v => { v with touched := true }).2 q fun e => hqp (List.mem_singleton.2 e)
    rw [hother]
    exact hs1.off q hq (by rw [lineHeld, hother] at hl; exact hl)
  exact .ite hs1 hbut.linesOn

theorem HeldOff.execLaneGradeInterval (h : HeldOff s) {p uncorr : Nat} {lanes : List LaneMeasure} {corrected : List Nat} :
    OutHeldOff (execLaneGradeInterval p lanes corrected uncorr s) := .guardUnit h.modPort.moveLanes

theorem HeldOff.execLaneMoveSwitch (h : HeldOff s) {p : Nat} : OutHeldOff (execLaneMoveSwitch p s) := by
  unfold Machine.execLaneMoveSwitch
  refine .guardUnit ?_
  extract_lets v s1
  have hs1 : HeldOff s1 := by
    unfold s1
    split
    · exact h
    · extract_lets l s'
      have hs' : HeldOff s' := .countPort h.setPort
      exact .ite hs'.elsewhere hs'
  exact hs1.modPort.moveLanes

theorem HeldOff.endDrain (h : HeldOff s) {p : Nat} : HeldOff (endDrain p s) := .ite h.enterPort.enterPort h.enterPort

/-! ### Orders, caps and debug halts -/

theorem HeldOff.sendCaps (h : HeldOff s) {dies : List Nat} : HeldOff (sendCaps dies s) :=
  .ite (h.foldl fun _ _ ht => ht.traceRec) (.foldl (h.foldl fun _ _ ht => ht.traceRec) (fun _ _ ht => ht.postOrder))

theorem HeldOff.withCaps {f : State → State} (hf : HeldOff (f s)) : HeldOff (withCaps f s) := hf.sendCaps

theorem HeldOff.capAll (h : HeldOff s) {src mhz : Nat} :
    HeldOff (capAll src mhz s) := .withCaps (h.foldl fun _ _ ht => ht.elsewhere)

theorem HeldOff.sendCurrent (h : HeldOff s) : HeldOff (sendCurrent s) := .ite h.sendCaps h.sendCaps.postOrder

theorem HeldOff.snapshotDie (h : HeldOff s) {base d : Nat} : HeldOff (snapshotDie base d s) := h.foldl fun _ _ ht => ht.writeMem

theorem HeldOff.restoreDie (h : HeldOff s) {base d : Nat} : HeldOff (restoreDie base d s) :=
  h.foldl fun _ _ ht => .ite ht (.foldl (ht.noteReads.foldl fun _ _ ht1 => ht1.elsewhere) (fun _ _ ht1 => ht1.elsewhere))

theorem HeldOff.haltNow (h : HeldOff s) {dies : BitVec 8} {snap debug : Bool} {base : Nat} :
    HeldOff (haltNow dies snap debug base s) :=
  .ite (.aside (h.elsewhere.foldl fun _ _ ht => ht.snapshotDie)) h.elsewhere

theorem HeldOff.releaseNow (h : HeldOff s) {dies : BitVec 8} {restore debug : Bool} {base : Nat} :
    HeldOff (releaseNow dies restore debug base s) :=
  .elsewhere (.ite (h.foldl fun _ _ ht => ht.restoreDie) h)

theorem HeldOff.shutNow (h : HeldOff s) {m : BitVec 10} : HeldOff (shutNow m s) := by
  have hbut : HeldOffBut (portsIn m) { s with ws := { s.ws with portMc := s.ws.portMc ||| m } } := by
    refine ⟨h.ten, fun q hq hqm hl => h.off q hq ?_⟩
    have hm : m.getLsbD q = false := Bool.eq_false_iff.2 fun hm => hqm (mem_portsIn hq hm)
    simp only [lineHeld, BitVec.getLsbD_or, hm, Bool.or_false] at hl
    exact hl
  exact hbut.linesOn

theorem HeldOff.reopenNow (h : HeldOff s) {m : BitVec 10} : HeldOff (reopenNow m s) := by
  refine HeldOff.foldl (h.fewerLines rfl (fun q hq => ?_) fun _ => id) fun _ _ ht => ht.lineOff
  rw [BitVec.getLsbD_and] at hq
  exact (Bool.and_eq_true_iff.1 hq).1

theorem HeldOff.throttleNow (h : HeldOff s) {dies mhz : Nat} : HeldOff (throttleNow dies mhz s) :=
  h.foldl fun _ _ ht => ht.elsewhere

theorem HeldOff.orderNow (h : HeldOff s) {m : Msg} : HeldOff (orderNow m s) := by
  unfold Machine.orderNow
  split
  · exact h.throttleNow
  · exact .ite h.haltNow h.releaseNow
  · exact .ite h.shutNow h.reopenNow
  · exact h

theorem HeldOff.takeOrder (h : HeldOff s) : HeldOff (takeOrder s) := by
  unfold Machine.takeOrder
  split
  · exact h
  · exact h.popInter.orderNow.postTele

theorem HeldOff.orderRow (h : HeldOff s) {kind : Nat} {p : Payload} : HeldOff (orderRow kind p s) := by
  unfold Machine.orderRow
  refine .ite h ?_
  split
  · exact h.postOrder.takeOrder
  · exact .ite h.takeOrder h.postOrder

theorem HeldOff.endLevel (h : HeldOff s) : HeldOff (endLevel s) :=
  .ite h.elsewhere h.elsewhere.bbEvent

/-! ### The recorder -/

theorem HeldOff.addRise (h : HeldOff s) {acc prev new : Nat} : HeldOff (addRise acc prev new s) := h.elsewhere

theorem HeldOff.takeLanes4 (h : HeldOff s) {w : List Nat} {i lo un : Nat} : HeldOff (takeLanes4 w i lo un s) :=
  .ite h (.addRise (h.foldl fun _ _ ht => .ite ht (.aside (.ite ht.aside ht))))

theorem HeldOff.takeTele (h : HeldOff s) {m : Msg} : HeldOff (takeTele m s) := by
  unfold Machine.takeTele
  extract_lets s0
  have hs0 : HeldOff s0 := h.traceRec
  split
  · extract_lets _ _ _ s1 s1_1 s2
    have hs1 : HeldOff s1 := hs0.elsewhere
    have hs1_1 : HeldOff s1_1 := hs0.foldl fun _ _ ht => ht.addRise
    have hs2 : HeldOff s2 := hs1_1.elsewhere
    split
    · exact hs0.foldl fun _ _ ht => ht.addRise
    · exact hs1.elsewhere
    · exact hs2.elsewhere
    · exact hs0.takeLanes4.takeLanes4
  · exact hs0.elsewhere
  · exact .ite hs0.elsewhere hs0
  · exact hs0

theorem HeldOff.teleRow (h : HeldOff s) {kind : Nat} : HeldOff (teleRow kind s) := by
  unfold Machine.teleRow
  split
  · exact .ite h.popTele.takeTele h
  · exact h

theorem HeldOff.openWindow (h : HeldOff s) {rest : List (Nat × List Byte)} : HeldOff (openWindow rest s) :=
  .aside (h.foldl fun _ _ ht => ht.modPort)

theorem HeldOff.closeWindow (h : HeldOff s) {cause : Nat} : HeldOff (closeWindow cause s) := by
  unfold Machine.closeWindow
  extract_lets _ _ _ s1 s2 s3 _ s4 _ s5
  have hs1 : HeldOff s1 := h.foldl fun _ _ ht => ht.bbCommit
  have hs2 : HeldOff s2 := hs1.foldl fun _ _ ht => ht.bbCommit
  have hs3 : HeldOff s3 := hs2.bbCommit
  have hs4 : HeldOff s4 := hs3.foldl fun _ _ ht => ht.bbCommit
  have hs5 : HeldOff s5 := .ite hs4.elsewhere hs4
  exact hs5.openWindow

theorem HeldOff.drainNotes (h : HeldOff s) : HeldOff (drainNotes s) := h.elsewhere.foldl fun _ _ ht => ht.commitNote

/-! ### Packets -/

theorem HeldOff.sendEgress (h : HeldOff s) {p : Nat} : HeldOff (sendEgress p s) := h.setPort.aside

theorem HeldOff.enqueue (h : HeldOff s) {p : Nat} {k : Packet} {bad : Bool} : HeldOff (enqueue p k bad s) := h.setPort.sendEgress

theorem HeldOff.deliverHere (h : HeldOff s) {k : Packet} {bad : Bool} : HeldOff (deliverHere k bad s) :=
  .ite h.elsewhere h.elsewhere

theorem HeldOff.returnCredits (h : HeldOff s) {p vc flits : Nat} : HeldOff (returnCredits p vc flits s) := .ite h.elsewhere h

theorem HeldOff.tryCross (h : HeldOff s) {x : Crossing} (ht : tryCross x s = some t) : HeldOff t := by
  have hall : ∀ u ∈ Machine.tryCross x s, HeldOff u := by
    unfold Machine.tryCross
    split
    · simpa using h.deliverHere.returnCredits
    · split
      · simpa using h.elsewhere.returnCredits
      · split
        · simpa using h.elsewhere.returnCredits
        · split
          · simpa using h.enqueue.returnCredits
          · simp
  exact hall t ht

theorem HeldOff.cross (h : HeldOff s) {x : Crossing} : HeldOff (cross x s) := by
  unfold Machine.cross
  extract_lets _ wait
  have hwait : HeldOff wait := h.elsewhere
  refine .ite hwait ?_
  split
  case h_1 t ht => exact h.tryCross ht
  case h_2 => exact hwait

theorem HeldOff.crossAll (h : HeldOff s) : HeldOff (crossAll s) := h.elsewhere.foldl fun _ _ ht => ht.cross

theorem HeldOff.launch (h : HeldOff s) {k : Packet} : HeldOff (launch k s) := .ite h.elsewhere h.elsewhere.cross

theorem HeldOff.sendControl (h : HeldOff s) {typ dest seq ackSeq : Nat} {echo : Bool} {off : Nat} :
    HeldOff (sendControl typ dest seq ackSeq echo off s) :=
  .ite h h.launch

theorem HeldOff.injectData (h : HeldOff s) {k : Packet} : HeldOff (injectData k s) := h.elsewhere.launch

theorem HeldOff.resendHeld (h : HeldOff s) {dest seq : Nat} : HeldOff (resendHeld dest seq s) := by
  unfold Machine.resendHeld
  extract_lets
  split
  · exact h
  · exact h.elsewhere.launch

theorem HeldOff.sendAck (h : HeldOff s) {src seq : Nat} : HeldOff (sendAck src seq s) := h.elsewhere.sendControl

theorem HeldOff.acceptData (h : HeldOff s) {k : Packet} : HeldOff (acceptData k s) :=
  .ite h.elsewhere.sendAck h.elsewhere

theorem HeldOff.receiveData (h : HeldOff s) {k : Packet} {bad : Bool} : HeldOff (receiveData k bad s) :=
  .ite h.elsewhere.sendControl (.ite h.acceptData (.ite h.elsewhere.sendAck h.elsewhere))

theorem HeldOff.logPeerError (h : HeldOff s) {rank : Nat} : HeldOff (logPeerError rank s) := by
  have hlog : ∀ x, HeldOff { s with lk := { s.lk with peerErrLog := x } } := fun _ => h.elsewhere
  exact (hlog _).postEvent

theorem HeldOff.execPacketRoute (h : HeldOff s) {p : Nat} {k : Packet} {badHeader badFlit : Bool} :
    OutHeldOff (execPacketRoute p k badHeader badFlit s) := by
  unfold Machine.execPacketRoute
  refine .guardUnit (h.whenTaken ?_)
  extract_lets s1 gone s2
  have hs1 : HeldOff s1 := h.countPort
  have hgone : ∀ u, HeldOff u → HeldOff (gone u) := fun _ hu => hu.returnCredits
  have hs2 : HeldOff s2 := hgone _ hs1.elsewhere
  exact .ite (hgone _ hs1.countPort)
    (.ite (hgone _ hs1.elsewhere)
      (.ite (hgone _ hs1.elsewhere) (.ite (hgone _ hs1.elsewhere) (.ite (.ite hs2.sendControl hs2) hs1.cross))))

theorem HeldOff.execDataPacketReceive (h : HeldOff s) : OutHeldOff (execDataPacketReceive s) := by
  unfold Machine.execDataPacketReceive
  refine .next ?_
  split
  · exact h.elsewhere.receiveData
  · exact h

theorem HeldOff.execEpochRetire (h : HeldOff s) : OutHeldOff (execEpochRetire s) := by
  unfold Machine.execEpochRetire
  refine .next (h.whenTaken ?_)
  extract_lets _ _ _ s1
  have hs1 : HeldOff s1 := h.elsewhere
  split
  · exact hs1.postCompletion
  · exact hs1

end Sys2Proof.Machine
end

section
/-!
PROOF. Caravans keep held ports dark: their units and blocks, PERMUTE, and the update engine.
-/

namespace Sys2Proof.Machine

set_option Elab.async false

open Sys2Proof

variable {s t : State}

/-! ### Units, blocks and staging -/

theorem HeldOff.sendCv (h : HeldOff s) {c : Caravan} {member sub stage off endU : Nat} {payload : List Byte} {marks : List Nat} :
    HeldOff (sendCv c member sub stage off endU payload marks s) := by
  unfold Machine.sendCv
  exact h.elsewhere

theorem HeldOff.logClFault (h : HeldOff s) {c : Caravan} {unit : Nat} : HeldOff (logClFault c unit s) := .ite h h.elsewhere

theorem HeldOff.readUnit (h : HeldOff s) {c : Caravan} {u : Nat} : HeldOff (readUnit c u s).2 := by
  unfold Machine.readUnit
  extract_lets _ _ _ _ _ fx _ fe
  have hfx : HeldOff fx.2 := h.elsewhere
  have hfe : HeldOff fe.2 := hfx.elsewhere
  split
  · split
    · exact h
    · exact hfe.logClFault
  · split
    · exact .ite h h.logClFault
    · split
      · split
        · exact h
        · exact h.logClFault
      · split
        · exact h
        · exact h.logClFault

theorem HeldOff.readUnits (h : HeldOff s) {c : Caravan} : HeldOff (readUnits c s).2 := by
  unfold Machine.readUnits
  refine h.noteReads.foldlSnd ?_
  intro a x ha
  extract_lets r
  have hr : HeldOff r.2 := ha.readUnit
  exact hr

theorem HeldOff.writeUnits (h : HeldOff s) {c : Caravan} {off addr : Nat} {us : List CvUnit} :
    HeldOff (writeUnits c off addr us s) := by
  unfold Machine.writeUnits
  extract_lets _ _ _ _ _ s1 lost s2
  have hs1 : HeldOff s1 := by
    unfold s1
    exact h.foldl fun _ _ ht => .ite ht.writeSector.elsewhere ht.writeSector
  have hs2 : HeldOff s2 := by
    unfold s2
    clear_value lost
    split
    · exact hs1.logClFault
    · exact hs1
  exact hs2.elsewhere

/-! ### PERMUTE -/

theorem HeldOff.jWriteHead (h : HeldOff s) {f : JHead → JHead} : HeldOff (jWriteHead f s) := h.writeMem

theorem HeldOff.jSetState (h : HeldOff s) {st : Nat} : HeldOff (jSetState st s) := h.jWriteHead

theorem HeldOff.jAppend (h : HeldOff s) {cycle step kind slot src : Nat} : HeldOff (jAppend cycle step kind slot src s) := by
  unfold Machine.jAppend
  split
  · exact h
  · exact h.writeMem.writeMem

theorem HeldOff.jSetDone (h : HeldOff s) {c : Nat} {v : Bool} : HeldOff (jSetDone c v s) := h.writeMem

theorem HeldOff.copyUnit (h : HeldOff s) {c : Caravan} {g src dst : Nat} : HeldOff (copyUnit c g src dst s).1 := by
  unfold Machine.copyUnit
  extract_lets r
  have hr : HeldOff r.1 := by
    unfold r
    refine h.foldlFst ?_
    intro a x ha
    extract_lets
    exact ha.noteRead.writeSector
  exact .ite hr.logClFault hr

theorem HeldOff.countUnit (h : HeldOff s) {id : Nat} {poisoned : Bool} : HeldOff (countUnit id poisoned s) :=
  .ite h h.elsewhere

theorem HeldOff.sendAsk (h : HeldOff s) {c : Caravan} {p : Permute} {f : Fetch} : HeldOff (sendAsk c p f s) := h.sendCv

theorem HeldOff.askAgain (h : HeldOff s) {id : Nat} : HeldOff (askAgain id s) := by
  unfold Machine.askAgain
  split
  · exact h
  · exact h.foldl fun _ _ ht => ht.sendAsk.elsewhere

theorem HeldOff.pumpAsks (h : HeldOff s) {id : Nat} : HeldOff (pumpAsks id s) := by
  unfold Machine.pumpAsks
  split
  · exact h
  · refine h.foldl ?_
    intro t x ht
    split
    · exact ht
    · exact .ite ht ht.elsewhere.sendAsk

theorem HeldOff.noticeCycle (h : HeldOff s) {id cyc : Nat} {undo : Bool} : HeldOff (noticeCycle id cyc undo s) := by
  unfold Machine.noticeCycle
  split
  · exact h
  · exact .ite h h.elsewhere.jSetDone.aside

theorem HeldOff.announceCycle (h : HeldOff s) {id cyc : Nat} : HeldOff (announceCycle id cyc s) := by
  unfold Machine.announceCycle
  split
  · exact h
  · exact h.foldl fun _ _ ht => ht.sendCv

theorem HeldOff.moveInto (h : HeldOff s) {id cyc fuel pos : Nat} : HeldOff (moveInto id cyc fuel pos s) := by
  induction fuel generalizing s pos with
  | zero => exact h
  | succ fuel ih =>
    unfold Machine.moveInto
    split
    · exact h
    · extract_lets _ _ _ _ s1 t _ s2
      have hs1 : HeldOff s1 := h.jAppend.elsewhere
      have ht : HeldOff t.1 := hs1.copyUnit
      have hs2 : HeldOff s2 := ht.countUnit.jAppend.elsewhere
      exact .ite hs1.elsewhere.pumpAsks (.ite hs2.announceCycle.noticeCycle (ih hs2))

theorem HeldOff.kickFrom (h : HeldOff s) {id cyc fuel pos : Nat} : HeldOff (kickFrom id cyc fuel pos s) := by
  induction fuel generalizing s pos with
  | zero => exact h
  | succ fuel ih =>
    unfold Machine.kickFrom
    split
    · exact h
    · exact .ite h.announceCycle.noticeCycle (.ite h.elsewhere.pumpAsks (.ite (ih h) h.moveInto))

theorem HeldOff.leadCycle (h : HeldOff s) {id cyc : Nat} : HeldOff (leadCycle id cyc s) := by
  unfold Machine.leadCycle
  split
  · exact h
  · exact .ite (.ite h.kickFrom h.moveInto) (.ite h.elsewhere h.jAppend.copyUnit.elsewhere.moveInto)

theorem HeldOff.restoreInto (h : HeldOff s) {id cyc fuel pos : Nat} : HeldOff (restoreInto id cyc fuel pos s) := by
  induction fuel generalizing s pos with
  | zero => exact h
  | succ fuel ih =>
    unfold Machine.restoreInto
    split
    · exact h
    · extract_lets _ _ _ undo s1 _ s2
      have hundo : ∀ u, HeldOff u → HeldOff (undo u) := fun _ hu => hu.jAppend.elsewhere
      have hs1 : HeldOff s1 := hundo _ h.copyUnit
      have hs2 : HeldOff s2 := h.jAppend.elsewhere
      exact .ite (.ite h hs1.elsewhere) (.ite h.elsewhere.pumpAsks (.ite h (ih (hundo _ hs2.copyUnit))))

theorem HeldOff.restoreAll (h : HeldOff s) {id : Nat} : HeldOff (restoreAll id s) := by
  unfold Machine.restoreAll
  split
  · exact h
  · exact h.foldl fun _ _ ht => ht.foldl fun _ _ ht1 => .ite ht1 ht1.restoreInto

theorem HeldOff.kickAll (h : HeldOff s) {id : Nat} : HeldOff (kickAll id s) := by
  unfold Machine.kickAll
  split
  · exact h
  · refine h.foldl ?_
    intro t x ht
    split
    · exact ht
    · exact .ite ht (.ite ht.kickFrom ht.moveInto)

theorem HeldOff.permKick (h : HeldOff s) {id : Nat} : HeldOff (permKick id s) := by
  unfold Machine.permKick
  split
  · exact h
  · exact .ite h.kickAll.restoreAll h.kickAll

theorem HeldOff.sendUnit (h : HeldOff s) {id member cyc addr : Nat} {slot : Option Nat} :
    HeldOff (sendUnit id member cyc addr slot s) := by
  unfold Machine.sendUnit
  split
  · exact h
  · exact h.elsewhere.foldl fun _ _ ht => .sendCv (.ite ht.noteReads ht.noteReads.logClFault)

theorem HeldOff.sendNothing (h : HeldOff s) {id member k : Nat} : HeldOff (sendNothing id member k s) := by
  unfold Machine.sendNothing
  split
  · exact h
  · exact h.elsewhere.sendCv

theorem HeldOff.serveReady (h : HeldOff s) {id member k : Nat} : HeldOff (serveReady id member k s) := by
  unfold Machine.serveReady
  split
  · exact h
  · extract_lets
    split
    · exact h.sendNothing
    · exact .ite h
        (.ite (.ite h.sendUnit h.sendNothing)
          (.ite h.sendNothing.announceCycle (.ite (.ite h.sendUnit h.sendNothing) (.ite h.sendNothing.kickFrom h.sendUnit))))

theorem HeldOff.unitSent (h : HeldOff s) {id : Nat} {o : MoveOut} : HeldOff (unitSent id o s) := by
  unfold Machine.unitSent
  split
  · exact .ite h.restoreInto (.ite h h.moveInto)
  · exact h

theorem HeldOff.permAcked (h : HeldOff s) {id member : Nat} {empty : Bool} : HeldOff (permAcked id member empty s) := by
  unfold Machine.permAcked
  split
  · exact h
  · refine .ite h ?_
    split
    · exact h
    · exact .ite h.elsewhere h.elsewhere.unitSent

theorem HeldOff.fetchDone (h : HeldOff s) {id : Nat} {f : Fetch} : HeldOff (fetchDone id f s) := by
  unfold Machine.fetchDone
  split
  · exact h
  · extract_lets s0 _ _ s1
    have hs0 : HeldOff s0 := h.elsewhere
    have hs1 : HeldOff s1 := hs0.countUnit.jAppend.elsewhere
    exact .ite hs0.jAppend.elsewhere (.ite hs1 (.ite hs1.restoreAll hs1.announceCycle.noticeCycle))

theorem HeldOff.permData (h : HeldOff s) {id member from_ to_ : Nat} {payload : List Byte} {marks : List Nat} :
    HeldOff (permData id member from_ to_ payload marks s) := by
  unfold Machine.permData
  extract_lets
  split
  · exact h
  · split
    · exact h
    · refine .ite ?_ ?_
      · exact .ite h.elsewhere.pumpAsks.restoreAll h.elsewhere.pumpAsks
      · extract_lets s0 _ s1
        have hs0 : HeldOff s0 := .ite h.jAppend.elsewhere h
        have hs1 : HeldOff s1 := hs0.foldl fun _ _ ht => ht.writeSector
        exact .ite hs1.elsewhere hs1.fetchDone.pumpAsks

theorem HeldOff.startCycles (h : HeldOff s) {id fuel : Nat} : HeldOff (startCycles id fuel s) := by
  induction fuel generalizing s with
  | zero => exact h
  | succ fuel ih =>
    unfold Machine.startCycles
    split
    · exact h
    · refine .ite h ?_
      split
      · exact h
      · exact ih (.ite h.elsewhere.leadCycle h.elsewhere.sendCv)

theorem HeldOff.leadWaiting (h : HeldOff s) {id : Nat} : HeldOff (leadWaiting id s) := by
  unfold Machine.leadWaiting
  split
  · exact h
  · exact h.elsewhere.foldl fun _ _ ht => ht.leadCycle

theorem HeldOff.cyclePacket (h : HeldOff s) {id cyc : Nat} {start undo : Bool} : HeldOff (cyclePacket id cyc start undo s) := by
  unfold Machine.cyclePacket
  split
  · exact h
  · exact .ite h (.ite h.noticeCycle (.ite h.announceCycle (.ite h.noticeCycle.leadCycle h.leadCycle)))

theorem HeldOff.turnBack (h : HeldOff s) {id : Nat} : HeldOff (turnBack id s) := h.elsewhere.jSetState.aside.restoreAll

theorem HeldOff.permStart (h : HeldOff s) {c : Caravan} (ht : permStart c s = some t) : HeldOff t := by
  unfold Machine.permStart at ht
  extract_lets n table cycles id resume back st rolling p0 old p seq s1 s2 s3 _ s4 at ht
  have hs1 : HeldOff s1 := .ite h h.writeMem
  clear_value n table cycles resume back st rolling p0 old p seq s1
  have hs2 : HeldOff s2 := hs1.jWriteHead
  clear_value s2
  have hs4 : HeldOff s4 := hs2.elsewhere
  clear_value s4
  split at ht
  · exact absurd ht nofun
  · rw [← Option.some_inj.1 ht]
    exact .ite hs4.permKick (.ite hs4.restoreAll hs4)

/-! ### The update engine -/

theorem HeldOff.writeWord (h : HeldOff s) {a v : Nat} : HeldOff (writeWord s a v) := h.writeMem

theorem HeldOff.rewriteRecord (h : HeldOff s) : HeldOff (rewriteRecord s) := h.writeMem.writeMem.elsewhere

theorem HeldOff.noteTable (h : HeldOff s) {d : CollDesc} : HeldOff (noteTable d s) := .ite h.noteReads.noteReads h.noteReads

theorem HeldOff.foldChannel (h : HeldOff s) {k : Bkt} {e bits : Nat} : HeldOff (foldChannel k e bits s) := .ite h h.elsewhere

theorem HeldOff.settleChannels (h : HeldOff s) {k : Bkt} {ok : Bool} : HeldOff (settleChannels k ok s) :=
  h.foldl fun _ _ ht => .ite ht.elsewhere (.ite ht.elsewhere.noteReads.writeWord ht.elsewhere.noteReads)

theorem HeldOff.applyElem (h : HeldOff s) {k : Bkt} {first u : Nat} {b : Blk} {j : Nat} : HeldOff (applyElem k first u b s j) :=
  h.writeJob.foldChannel

theorem HeldOff.holdBlock (h : HeldOff s) {i u stack : Nat} : HeldOff (holdBlock i u stack s) := h.elsewhere.writeWord

theorem HeldOff.applyBlock (h : HeldOff s) {i m me u : Nat} {b : Blk} : HeldOff (applyBlock i m me u b s) := by
  unfold Machine.applyBlock
  extract_lets _ s1 s2
  have hs1 : HeldOff s1 := h.writeMem
  have hs2 : HeldOff s2 := hs1.noteReads.foldl fun _ _ ht => ht.applyElem
  exact .ite hs1 (.ite hs2.holdBlock hs2.elsewhere)

theorem HeldOff.foldCells (h : HeldOff s) : HeldOff (foldCells s) :=
  h.foldl fun _ _ ht => .ite ht (.settleChannels (ht.noteReads.foldl fun _ _ ht1 => ht1.foldChannel))

theorem HeldOff.endStep (h : HeldOff s) {ok : Bool} {c : Caravan} : HeldOff (endStep ok c s) :=
  .ite (.elsewhere (.elsewhere (.ite h.noteReads h))) (.elsewhere (.elsewhere (.ite h.noteReads h)))

theorem HeldOff.ueEnded (h : HeldOff s) {c : Caravan} {ok : Bool} : HeldOff (ueEnded c ok s) := by
  unfold Machine.ueEnded
  split
  · exact .ite h.settleChannels (.elsewhere (.ite h.settleChannels h.settleChannels.writeWord))
  · exact h.endStep
  · exact h

theorem HeldOff.convertBucket (h : HeldOff s) {b : Nat × Nat × Nat} : HeldOff (convertBucket s b) :=
  .aside (.writeJob (h.noteReads.noteReads.writeJob.foldl fun _ _ ht => .ite ht.aside ht))

end Sys2Proof.Machine
end

section
/-!
PROOF. The cells keep held ports dark: the matrix tile and the wide unit.
-/

namespace Sys2Proof.Machine

set_option Elab.async false

open Sys2Proof

variable {s t : State}

/-! ### The matrix tile -/

theorem HeldOff.endOperation (h : HeldOff s) {cell : Nat} : HeldOff (endOperation cell s) :=
  .ite (h.elsewhere.foldl fun _ _ ht => ht.routeFrom) h.elsewhere

theorem HeldOff.fillTo (h : HeldOff s) {cell q fmt n : Nat} : HeldOff (fillTo cell q fmt n s) := by
  induction n generalizing s with
  | zero => exact h
  | succ n ih => exact .ite h (ih (h.foldl fun _ _ ht => ht.storeEmit))

theorem HeldOff.needInput (h : HeldOff s) {cell q fmt n : Nat} : HeldOff (needInput s cell q fmt n) := h.fillTo

theorem HeldOff.streamedAt (h : HeldOff s) {cell q idx fmt : Nat} {x : Ctx} {op : TileOp}
    (ht : streamedAt s cell x q idx fmt = some (op, t)) : HeldOff t := by
  have hall : ∀ u ∈ Machine.streamedAt s cell x q idx fmt, HeldOff u.2 := by
    unfold Machine.streamedAt
    split
    · simpa using h
    · dsimp only
      split
      · simpa using h.needInput.elsewhere
      · simp
  exact hall _ ht

theorem HeldOff.tapeHead (h : HeldOff s) {cell : Nat} {x : Ctx} {e : Option Elem} (ht : tapeHead s cell x = some (e, t)) :
    HeldOff t := by
  have hall : ∀ u ∈ Machine.tapeHead s cell x, HeldOff u.2 := by
    unfold Machine.tapeHead
    split
    · dsimp only
      split
      · simpa using h.needInput.elsewhere
      · simp
    · simpa using h
  exact hall _ ht

theorem HeldOff.forwardElement (h : HeldOff s) {cell : Nat} : HeldOff (forwardElement cell s) := by
  unfold Machine.forwardElement
  extract_lets
  refine .ite h ?_
  split
  · exact h
  next op s1 hs =>
    have hs1 : HeldOff s1 := h.streamedAt hs
    extract_lets _ _ _ s2
    have hs2 : HeldOff s2 := hs1.elsewhere
    exact .ite hs2.endOperation hs2

theorem HeldOff.bothStep (h : HeldOff s) {cell : Nat} : HeldOff (bothStep cell s) := by
  unfold Machine.bothStep
  extract_lets _ _ _ _ _ s1 s2 s3 _ _ s4 s5 s6
  have hs1 : HeldOff s1 := .ite h h.needInput
  have hs2 : HeldOff s2 := hs1.needInput
  have hs3 : HeldOff s3 := .ite hs2.needInput hs2
  have hs4 : HeldOff s4 := .ite hs3 hs3.elsewhere
  have hs5 : HeldOff s5 := hs4.elsewhere
  have hs6 : HeldOff s6 := .ite hs5.elsewhere hs5
  refine .ite h ?_
  split
  · exact .ite hs6.elsewhere.endOperation hs6.elsewhere
  · exact h

theorem HeldOff.transposedOp (h : HeldOff s) {cell b : Nat} : HeldOff (transposedOp cell b s) := h.elsewhere.endOperation

theorem HeldOff.gradientElement (h : HeldOff s) {cell : Nat} : HeldOff (gradientElement cell s) := by
  unfold Machine.gradientElement
  extract_lets
  refine .ite (.ite h h.transposedOp) (.ite h ?_)
  split
  · exact h
  next tape s0 hs =>
    split
    · exact h
    next op s1 ht =>
      have hs1 : HeldOff s1 := (h.tapeHead hs).streamedAt ht
      exact .ite hs1.elsewhere.transposedOp hs1.elsewhere

theorem HeldOff.execBankLoad (h : HeldOff s) {cell : Nat} : OutHeldOff (execBankLoad cell s) := by
  unfold Machine.execBankLoad
  refine .guardUnit (h.whenTaken ?_)
  extract_lets put _ _ s1
  have hput : ∀ a b u, HeldOff u → HeldOff (put a b u) := fun _ _ _ hu => hu.elsewhere
  have hs1 : HeldOff s1 := h.needInput
  refine .ite (hput _ _ _ h) ?_
  split
  · exact hput _ _ _ hs1.elsewhere
  · exact h

/-! ### The wide unit -/

theorem HeldOff.openBsi (h : HeldOff s) {cell : Nat} {x : Ctx} : HeldOff (openBsi cell x s) := .ite h.elsewhere h

theorem HeldOff.takeWide (h : HeldOff s) {cell : Nat} {x : Ctx} {l : List LaneIn} (ht : takeWide s cell x = some (l, t)) :
    HeldOff t := by
  have hall : ∀ u ∈ Machine.takeWide s cell x, HeldOff u.2 := by
    unfold Machine.takeWide
    extract_lets _ _ need s1 _ drop
    have hneed : ∀ u q, HeldOff u → HeldOff (need u q) := fun _ _ hu => .ite hu.needInput hu
    have hdrop : ∀ u q, HeldOff u → HeldOff (drop u q) := fun _ _ hu => .ite hu.elsewhere hu
    have hs1 : HeldOff s1 := (hneed _ _ (hneed _ _ (hneed _ _ h))).openBsi
    split
    · simp
    · split
      · simpa using (hdrop _ _ (hdrop _ _ (hdrop _ _ hs1))).elsewhere
      · simp
  exact hall _ ht

theorem HeldOff.execElementChain (h : HeldOff s) {cell : Nat} : OutHeldOff (execElementChain cell s) := by
  refine .guardUnit (h.whenTaken ?_)
  split
  · exact h
  next ins s0 hs => exact (h.takeWide hs).elsewhere.foldl fun _ _ ht => ht.routeFrom

theorem HeldOff.redTerms (h : HeldOff s) {cell n : Nat} {x : Ctx} {raw : Bool} {l : List Elem}
    (ht : redTerms s cell x raw n = some (l, t)) : HeldOff t := by
  have hall : ∀ u ∈ Machine.redTerms s cell x raw n, HeldOff u.2 := by
    unfold Machine.redTerms
    extract_lets
    split
    · simpa using h.elsewhere
    · split
      · simp
      · split
        · simpa using fun _ _ => h.needInput.elsewhere
        · split
          · simp
          next ins s2 hs => simpa using (h.takeWide hs).elsewhere
  exact hall _ ht

theorem HeldOff.execReductionTerm (h : HeldOff s) {cell entry : Nat} : OutHeldOff (execReductionTerm cell entry s) := by
  unfold Machine.execReductionTerm
  refine .guardUnit ?_
  extract_lets _ _ into
  have hinto : ∀ f t, HeldOff t → HeldOff (into f t) := fun _ _ ht => ht.elsewhere
  clear_value into
  refine h.whenTaken ?_
  split
  · split
    next hs => exact hinto _ _ (h.redTerms hs)
    · exact h
  · split
    next hs => exact hinto _ _ (h.redTerms hs)
    · exact h
  · split
    next hs => exact hinto _ _ (h.redTerms hs)
    · exact h
  · exact h

theorem HeldOff.execTopkElement (h : HeldOff s) {cell : Nat} : OutHeldOff (execTopkElement cell s) := by
  refine .guardUnit (h.whenTaken ?_)
  split
  next e r s1 hs =>
    have hs1 : HeldOff s1 := h.redTerms hs
    refine .ite ?_ hs1.elsewhere
    split
    next a b r' s2 ht => exact (h.redTerms ht).elsewhere
    · exact h
  · exact h

end Sys2Proof.Machine
end

section
/-!
PROOF. Running caravans, their packets and the end-to-end delivery keep held ports dark.
-/

namespace Sys2Proof.Machine

set_option Elab.async false

open Sys2Proof

variable {s t : State}

/-! ### Running a caravan -/

theorem HeldOff.sendUnits {id dst stage : Nat} :
    ∀ {ns : List Nat} {off : Nat} {us : List CvUnit} {s : State}, HeldOff s → HeldOff (sendUnits id dst stage ns off us s)
  | [], _, _, _, h => h
  | _ :: _, _, _, _, h => by
    unfold Machine.sendUnits
    split
    · exact h
    · exact sendUnits h.elsewhere.sendCv

theorem HeldOff.pumpSends (h : HeldOff s) {id fuel : Nat} : HeldOff (pumpSends id fuel s) := by
  induction fuel generalizing s with
  | zero => exact h
  | succ fuel ih =>
    unfold Machine.pumpSends
    split
    · exact h
    · split
      · exact h
      · exact ih h.elsewhere.sendUnits

theorem HeldOff.pushUnits (h : HeldOff s) {id dst stage seg off : Nat} {us : List CvUnit} :
    HeldOff (pushUnits id dst stage seg off us s) := by
  unfold Machine.pushUnits
  refine .ite h ?_
  extract_lets s1
  have hs1 : HeldOff s1 := h.elsewhere
  split
  · exact hs1.pumpSends
  · exact hs1

theorem HeldOff.sendReady (h : HeldOff s) {id member : Nat} : HeldOff (sendReady id member s) := by
  unfold Machine.sendReady
  split
  · exact h
  · exact h.elsewhere.sendCv

theorem HeldOff.foldResidual (h : HeldOff s) {d : CollDesc} {i : Nat} {b : Blk} : HeldOff (foldResidual d i b s) :=
  h.noteReads.foldl fun _ _ ht => ht.writeJob

theorem HeldOff.thinUnits (h : HeldOff s) {d : CollDesc} {us : List CvUnit} : HeldOff (thinUnits d us s).2 := by
  unfold Machine.thinUnits
  split
  · exact h
  · extract_lets _ _ s1
    have hs1 : HeldOff s1 := h.foldl fun _ _ ht => .ite ht ht.foldResidual
    exact hs1

theorem HeldOff.combineUnit (h : HeldOff s) {d : CollDesc} {a l : CvUnit} : HeldOff (combineUnit d a l s).2 := by
  unfold Machine.combineUnit
  split
  · exact h
  · split
    · exact h
    · split
      · extract_lets _ _ s1 s2
        have hs1 : HeldOff s1 := .ite h.elsewhere h
        have hs2 : HeldOff s2 := .ite hs1.elsewhere hs1
        exact hs2
      · exact h

theorem HeldOff.combineUnits (h : HeldOff s) {c : Caravan} {off : Nat} {us : List CvUnit} :
    HeldOff (combineUnits c off us s).2 := by
  unfold Machine.combineUnits
  refine h.foldlSnd ?_
  intro a x ha
  extract_lets r
  have hr : HeldOff r.2 := ha.combineUnit
  exact hr

theorem HeldOff.putOut (h : HeldOff s) {id off : Nat} {us : List CvUnit} : HeldOff (putOut id off us s) := by
  unfold Machine.putOut
  split
  · exact h
  · exact h.elsewhere.writeUnits

theorem HeldOff.finishUnits (h : HeldOff s) {id off : Nat} {us : List CvUnit} : HeldOff (finishUnits id off us s) := by
  unfold Machine.finishUnits
  split
  · exact h
  · extract_lets _ s1 s2
    have hs1 : HeldOff s1 := by
      unfold s1
      split
      · exact h.foldl fun _ _ ht => ht.applyBlock
      · exact h
    have hs2 : HeldOff s2 := hs1.elsewhere.putOut
    exact .ite hs2.pushUnits hs2

theorem HeldOff.grantMore (h : HeldOff s) {id fuel : Nat} : HeldOff (grantMore id fuel s) := by
  induction fuel generalizing s with
  | zero => exact h
  | succ fuel ih =>
    unfold Machine.grantMore
    split
    · exact h
    · exact .ite h (ih (.ite h.elsewhere h.elsewhere.sendReady))

theorem HeldOff.takeLeaves (h : HeldOff s) {id member off : Nat} {us : List CvUnit} :
    HeldOff (takeLeaves id member off us s) := by
  unfold Machine.takeLeaves
  extract_lets s1
  have hs1 : HeldOff s1 := h.elsewhere
  split
  · exact hs1
  · exact .ite hs1.finishUnits hs1.grantMore

theorem HeldOff.topkDown (h : HeldOff s) {id : Nat} {l : List CvUnit} : HeldOff (topkDown id l s) := by
  unfold Machine.topkDown
  split
  · exact h
  · exact h.putOut.foldl fun _ _ ht => ht.pushUnits

theorem HeldOff.topkUp (h : HeldOff s) {id : Nat} : HeldOff (topkUp id s) := by
  unfold Machine.topkUp
  split
  · exact h
  · exact .ite h (.ite h.elsewhere.topkDown h.pushUnits)

theorem HeldOff.takeData (h : HeldOff s) {id member stage off hi : Nat} {payload : List Byte} {marks : List Nat} :
    HeldOff (takeData id member stage off hi payload marks s) := by
  unfold Machine.takeData
  split
  · exact h
  · extract_lets _ _ r _ s1
    have hr : HeldOff r.2 := h.combineUnits
    have hs1 : HeldOff s1 := h.putOut
    split
    · exact .ite h.takeLeaves (.ite hr.finishUnits hr.pushUnits)
    · exact .ite hs1 hs1.pushUnits
    · exact .ite h.topkDown (h.putOut.foldl fun _ _ ht => ht.pushUnits)
    · exact h.elsewhere.topkUp
    · exact h.permData

theorem HeldOff.freeRange (h : HeldOff s) {a n : Nat} :
    HeldOff (freeRange a n s) := h.foldl fun _ _ ht => ht.elsewhere.writeSector

theorem HeldOff.sendEnded (h : HeldOff s) {e : Ended} {member sub : Nat} {payload : List Byte} :
    HeldOff (sendEnded e member sub payload s) := by
  unfold Machine.sendEnded
  exact h.elsewhere

theorem HeldOff.answerEnded (h : HeldOff s) {e : Ended} {member : Nat} : HeldOff (answerEnded e member s) :=
  .ite h.sendEnded h.sendEnded

theorem HeldOff.endReshard (h : HeldOff s) {c : Caravan} {p : Option Permute} {ok : Bool} {cause : Nat} :
    HeldOff (endReshard c p ok cause s) := by
  unfold Machine.endReshard
  extract_lets finish
  have hfinish : ∀ a u, HeldOff u → HeldOff (finish a u) := fun _ _ hu => hu.noteEvent.elsewhere
  refine .ite h.elsewhere ?_
  split
  · exact .ite h (hfinish _ _ h)
  · exact .ite (hfinish _ _ h.jSetState) h.elsewhere

theorem HeldOff.endCv (h : HeldOff s) {id : Nat} {ok : Bool} {cause member : Nat} : HeldOff (endCv id ok cause member s) := by
  unfold Machine.endCv
  split
  · exact h
  · extract_lets _ _ _ _ s1 s2 _ _ s3 s4 s5 u s6
    have hs1 : HeldOff s1 := h.elsewhere
    have hs2 : HeldOff s2 := .ite hs1 hs1.freeRange
    have hs3 : HeldOff s3 := .ite hs2.endReshard hs2
    have hs4 : HeldOff s4 := hs3.postCompletion
    have hs5 : HeldOff s5 := hs4.ueEnded
    have hu : HeldOff u.2 := hs5.elsewhere
    have hs6 : HeldOff s6 := by
      unfold s6
      refine hu.foldl ?_
      intro t x ht
      refine .ite ht.elsewhere ?_
      split
      · exact .ite ht.answerEnded ht.elsewhere
      · exact ht.elsewhere
    exact hs6.elsewhere

theorem HeldOff.sendDown (h : HeldOff s) {c : Caravan} {sub : Nat} {payload : List Byte} : HeldOff (sendDown c sub payload s) :=
  h.foldl fun _ _ ht => ht.sendCv

theorem HeldOff.tellAbort (h : HeldOff s) {c : Caravan} {cause member : Nat} : HeldOff (tellAbort c cause member s) :=
  .ite h.sendDown h.sendCv

theorem HeldOff.askStatus (h : HeldOff s) {id cause member : Nat} : HeldOff (askStatus id cause member s) := by
  unfold Machine.askStatus
  split
  · exact h
  · exact h.sendCv

theorem HeldOff.abortOwn (h : HeldOff s) {id cause member : Nat} {tell : Bool} : HeldOff (abortOwn id cause member tell s) := by
  unfold Machine.abortOwn
  split
  · exact h
  · exact .ite h.endCv.tellAbort h.endCv

theorem HeldOff.foundBad (h : HeldOff s) {id cause member : Nat} : HeldOff (foundBad id cause member s) := by
  unfold Machine.foundBad
  split
  · exact h
  · exact .ite (.ite h.abortOwn h.askStatus) h.abortOwn

theorem HeldOff.takeAbort (h : HeldOff s) {id cause member : Nat} {payload : List Byte} :
    HeldOff (takeAbort id cause member payload s) := by
  unfold Machine.takeAbort
  split
  · exact h
  · exact .ite (.ite h h.turnBack.sendDown) h.endCv.sendDown

theorem HeldOff.progress (h : HeldOff s) {id : Nat} : HeldOff (progress id s) := by
  unfold Machine.progress
  split
  · exact h
  · exact .ite h (.ite h.endCv.sendDown h.elsewhere.sendCv)

theorem HeldOff.noteAllDone (h : HeldOff s) {id : Nat} : HeldOff (noteAllDone id s) := by
  unfold Machine.noteAllDone
  split
  · exact h
  · exact .ite h.jSetState.aside h

theorem HeldOff.settleCv (h : HeldOff s) {id : Nat} : HeldOff (settleCv id s) := by
  unfold Machine.settleCv
  split
  · exact h.progress
  · exact h.leadWaiting.startCycles.noteAllDone.progress

theorem HeldOff.startKind (h : HeldOff s) {id : Nat} : HeldOff (startKind id s) := by
  unfold Machine.startKind
  split
  · exact h
  · extract_lets _ _ own s1 s2 _ r2 g1 g2 _ k2
    have hown : HeldOff own := h.elsewhere
    have hs1 : HeldOff s1 := hown.foldl fun _ _ ht => ht.pushUnits
    have hs2 : HeldOff s2 := .ite (.ite hs1.sendReady hs1) hs1.grantMore
    have hr2 : HeldOff r2 := h.elsewhere.putOut
    have hg1 : HeldOff g1 := h.elsewhere
    have hg2 : HeldOff g2 := hg1.elsewhere.putOut
    have hk2 : HeldOff k2 := .foldl h.elsewhere fun _ _ ht => ht.sendReady
    refine .ite (.ite hs2 hs2.takeLeaves)
      (.ite (.ite hown.finishUnits hown.sendReady.pushUnits) (.ite ?_ (.ite ?_ hk2.topkUp)))
    · exact .ite hr2 hr2.sendReady.pushUnits
    · exact .ite (hg2.foldl fun _ _ ht => ht.pushUnits) hg1.sendReady

theorem HeldOff.openCv (h : HeldOff s) {id : Nat} : HeldOff (openCv id s) := by
  unfold Machine.openCv
  split
  · exact h
  · extract_lets _ s0 s1 s2 r t
    have hs0 : HeldOff s0 := h.elsewhere
    have hs1 : HeldOff s1 := .elsewhere (.ite hs0.noteReads hs0)
    have hs2 : HeldOff s2 := .ite hs1.foldCells hs1
    have hr : HeldOff r.2 := by
      unfold r
      split
      · exact hs2
      · exact hs2.readUnits
    have ht : HeldOff t.2 := hr.thinUnits
    refine .ite ?_ ht.elsewhere.startKind
    split
    next s2 hs => exact hs1.permStart hs
    · exact hs1.abortOwn

/-! ### The rows of collectives -/

theorem HeldOff.parkPacket (h : HeldOff s) {k : Packet} : HeldOff (parkPacket k s) := .ite h.elsewhere h.elsewhere

theorem HeldOff.takeReady (h : HeldOff s) {id member : Nat} : HeldOff (takeReady id member s) := by
  unfold Machine.takeReady
  split
  · exact h
  · exact .ite h h.elsewhere.pumpSends

theorem HeldOff.takeAsk (h : HeldOff s) {id member : Nat} {p : Permute} {k : Packet} : HeldOff (takeAsk id member p k s) := by
  unfold Machine.takeAsk
  extract_lets _ s1
  have hs1 : HeldOff s1 := by
    unfold s1
    split
    · exact .ite h.noticeCycle h
    · exact h
  exact .ite h.parkPacket (.ite h.sendNothing hs1.serveReady)

theorem HeldOff.takeCommit (h : HeldOff s) {id : Nat} {payload : List Byte} : HeldOff (takeCommit id payload s) := by
  unfold Machine.takeCommit
  split
  · exact h
  · exact .ite h h.elsewhere.endCv.sendDown

theorem HeldOff.takeStatusReq (h : HeldOff s) {id : Nat} {payload : List Byte} : HeldOff (takeStatusReq id payload s) := by
  unfold Machine.takeStatusReq
  split
  · exact h
  · exact .ite h.abortOwn h

theorem HeldOff.takePacket (h : HeldOff s) {id member : Nat} {k : Packet} : HeldOff (takePacket id member k s) := by
  unfold Machine.takePacket
  refine .settleCv ?_
  split
  · exact h.elsewhere.takeData
  · split
    · exact h.takeAsk
    · exact h.takeReady
  · exact h.elsewhere
  · exact h.takeCommit
  · exact h.takeAbort
  · exact h.takeStatusReq
  · exact h.cyclePacket

theorem HeldOff.packetLive (h : HeldOff s) {c : Caravan} {k : Packet} : HeldOff (packetLive c k s) := by
  unfold Machine.packetLive
  extract_lets _ from?
  refine .ite (.ite h.abortOwn h.elsewhere) ?_
  clear_value from?
  split
  · exact h
  · refine .ite ?_ h.takePacket
    split
    · exact h.elsewhere
    · exact h.elsewhere
    · exact h.takeAbort
    · exact h.parkPacket

theorem HeldOff.packetOther (h : HeldOff s) {k : Packet} : HeldOff (packetOther k s) := by
  unfold Machine.packetOther
  split
  · split
    · exact .ite h.answerEnded h.elsewhere
    · exact h.elsewhere
  · exact .ite h.elsewhere (.ite h.parkPacket.elsewhere h.parkPacket)

theorem HeldOff.enginePacket (h : HeldOff s) {k : Packet} : HeldOff (enginePacket k s) := by
  unfold Machine.enginePacket
  split
  · exact h.packetLive
  · exact h.packetOther

theorem HeldOff.takeEngine (h : HeldOff s) {sub : Nat} : HeldOff (takeEngine sub s) := by
  unfold Machine.takeEngine
  split
  · exact h.elsewhere
  · exact .ite h.elsewhere.enginePacket h.elsewhere

theorem HeldOff.replayTurned (h : HeldOff s) {id : Nat} : HeldOff (replayTurned id s) := by
  unfold Machine.replayTurned
  split
  · exact .ite (h.elsewhere.foldl fun _ _ ht => ht.enginePacket) h
  · exact h

theorem HeldOff.execAbort (h : HeldOff s) : OutHeldOff (execAbort s) := by
  unfold Machine.execAbort
  refine .next ?_
  extract_lets s1
  have hs1 : HeldOff s1 := h.takeEngine
  split
  · exact .ite hs1.replayTurned hs1
  · exact hs1

theorem HeldOff.refuseDesc (h : HeldOff s) {handle status : Nat} {reshard : Bool} :
    HeldOff (refuseDesc handle status reshard s) :=
  .postCompletion (.ite (.aside (.ite h.elsewhere.noteEvent h)) (.ite h.elsewhere.noteEvent h))

theorem HeldOff.postDesc (h : HeldOff s) {handle : Nat} {d : CollDesc} {ranks : List Nat} {me : Nat} {role : CvRole} :
    HeldOff (postDesc handle d ranks me role s) :=
  .aside (h.elsewhere.foldl fun _ _ ht => ht.enginePacket)

theorem HeldOff.takeDesc (h : HeldOff s) {handle : Nat} {d : CollDesc} : HeldOff (takeDesc handle d s) := by
  unfold Machine.takeDesc
  extract_lets s'
  have hs' : HeldOff s' := .noteTable (.ite h.noteReads h)
  refine .ite hs'.refuseDesc ?_
  split
  · exact hs'.refuseDesc
  · split
    · exact hs'.refuseDesc
    · exact .ite hs'.refuseDesc hs'.postDesc

theorem HeldOff.execCollDesc (h : HeldOff s) : OutHeldOff (execCollDesc s) := by
  unfold Machine.execCollDesc
  refine .next ?_
  split
  · exact h.popDown.takeDesc
  · exact h

theorem HeldOff.execCaravanOpen (h : HeldOff s) {id : Nat} : OutHeldOff (execCaravanOpen id s) := by
  unfold Machine.execCaravanOpen
  refine .next ?_
  split
  · exact h
  · refine .ite h (.ite h.elsewhere.refuseDesc (.ite h ?_))
    exact .settleCv (h.openCv.elsewhere.foldl fun _ _ ht => ht.enginePacket)

theorem HeldOff.execReadyResend (h : HeldOff s) {id : Nat} : OutHeldOff (execReadyResend id s) := by
  unfold Machine.execReadyResend
  refine .next ?_
  split
  · exact h
  · exact .ite h (.ite h.askAgain.permKick.settleCv (h.foldl fun _ _ ht => ht.sendCv.elsewhere))

theorem HeldOff.execCaravanTimeout (h : HeldOff s) {id : Nat} : OutHeldOff (execCaravanTimeout id s) := by
  unfold Machine.execCaravanTimeout
  refine .next ?_
  split
  · exact h
  · split
    · exact h.abortOwn
    · exact h.abortOwn
    · exact .ite h.abortOwn h.elsewhere.askStatus

theorem HeldOff.packetFailed (h : HeldOff s) {cause : Nat} {k : Packet} : HeldOff (packetFailed cause k s) := by
  unfold Machine.packetFailed
  split
  · exact h
  · refine .ite h ?_
    split
    · exact h.foundBad
    · exact h

theorem HeldOff.packetAcked (h : HeldOff s) {k : Packet} : HeldOff (packetAcked k s) := by
  unfold Machine.packetAcked
  split
  · exact h
  · refine .ite h ?_
    extract_lets _ s1
    have hs1 : HeldOff s1 := h.elsewhere
    split
    · exact .settleCv (.ite hs1.permAcked hs1)
    · exact hs1.settleCv

theorem HeldOff.resendOrFail (h : HeldOff s) {dest seq : Nat} : HeldOff (resendOrFail dest seq s) := by
  unfold Machine.resendOrFail
  refine .ite h.resendHeld ?_
  extract_lets
  split
  · exact h
  · exact h.elsewhere.packetFailed

theorem HeldOff.releaseHeld (h : HeldOff s) {k : Packet} {named : Bool} : HeldOff (releaseHeld k named s) :=
  h.elsewhere.foldl fun _ _ ht => ht.packetAcked

theorem HeldOff.execPacketInject (h : HeldOff s) {dest : Nat} : OutHeldOff (execPacketInject dest s) := by
  unfold Machine.execPacketInject
  refine .next ?_
  extract_lets
  split
  · exact h
  · extract_lets popped
    have hpopped : HeldOff popped := h.elsewhere
    exact .ite hpopped.elsewhere.packetFailed
      (.ite hpopped.packetFailed (.ite hpopped.packetFailed (.ite hpopped.injectData h)))

theorem HeldOff.execAck (h : HeldOff s) : OutHeldOff (execAck s) := by
  unfold Machine.execAck
  refine .next ?_
  split
  · exact h
  · exact .ite h.elsewhere h.elsewhere.releaseHeld

theorem HeldOff.execPacketNack (h : HeldOff s) : OutHeldOff (execPacketNack s) := by
  unfold Machine.execPacketNack
  refine .next ?_
  split
  · exact h
  · exact .ite h.elsewhere h.elsewhere.releaseHeld.resendOrFail

theorem HeldOff.execFenced (h : HeldOff s) : OutHeldOff (execFenced s) := by
  unfold Machine.execFenced
  refine .next ?_
  split
  · exact h
  · extract_lets s1
    have hs1 : HeldOff s1 := h.elsewhere
    refine .ite hs1.elsewhere ?_
    split
    · exact hs1
    · exact hs1.elsewhere.packetFailed

theorem HeldOff.execResendTimeout (h : HeldOff s) {dest seq : Nat} : OutHeldOff (execResendTimeout dest seq s) := by
  unfold Machine.execResendTimeout
  refine .next ?_
  extract_lets _ _ s1
  have hs1 : HeldOff s1 := h.elsewhere.logPeerError
  split
  · exact h
  · exact .ite h.elsewhere.resendOrFail (hs1.foldl fun _ _ ht => ht.packetFailed)

theorem HeldOff.fencePeer (h : HeldOff s) {rank : Nat} : HeldOff (fencePeer rank s) := by
  unfold Machine.fencePeer
  extract_lets _ _ s1 s2
  have hs1 : HeldOff s1 := h.elsewhere
  have hs2 : HeldOff s2 := hs1.foldl fun _ _ ht => ht.packetFailed
  refine hs2.foldl ?_
  intro t x ht
  split
  · exact ht
  · split
    · exact ht.foundBad
    · exact ht

theorem HeldOff.unfencePeer (h : HeldOff s) {rank : Nat} : HeldOff (unfencePeer rank s) := .ite h.elsewhere h

theorem HeldOff.cancelReshard (h : HeldOff s) {handle : Nat} : HeldOff (cancelReshard handle s) := by
  unfold Machine.cancelReshard
  split
  · exact h
  · exact .ite h.abortOwn (.ite h.takeAbort.settleCv.replayTurned h.sendCv)

theorem HeldOff.pauseReshard (h : HeldOff s) {handle : Nat} {v : Bool} : HeldOff (pauseReshard handle v s) := by
  unfold Machine.pauseReshard
  split
  · exact h
  · exact h.elsewhere.settleCv

theorem HeldOff.writeUeStep (h : HeldOff s) {v : W64} :
    HeldOff (writeUeStep v s) := .ite h h.elsewhere

end Sys2Proof.Machine
end

section
/-!
PROOF. What clears the data plane, the power states and the security engine keep held ports dark.
-/

namespace Sys2Proof.Machine

set_option Elab.async false

open Sys2Proof

variable {s t : State}

/-! ### Clearing the data plane -/

theorem HeldOff.loseStores (h : HeldOff s) : HeldOff (loseStores s) := h.elsewhere

theorem HeldOff.loseCores (h : HeldOff s) : HeldOff (loseCores s) := h.foldl fun _ _ ht => ht.elsewhere

theorem HeldOff.breakScrub (h : HeldOff s) : HeldOff (breakScrub s) := by
  unfold Machine.breakScrub
  split
  · exact h
  · exact h
  · exact h.elsewhere

theorem HeldOff.resetPlane (h : HeldOff s) {keepRet : Bool} : HeldOff (resetPlane keepRet s) := by
  unfold Machine.resetPlane
  extract_lets _ s1 _ _ s2
  have hs1 : HeldOff s1 := h.breakScrub.elsewhere
  have hs2 : HeldOff s2 := by
    refine hs1.mapPorts (f := fun v => v.afterReset keepRet) ?_ rfl rfl fun v => ?_
    · cases keepRet <;> rfl
    · unfold Port.afterReset
      dsimp only
      split <;> rintro ⟨⟩
  exact .relampAll hs2.elsewhere

theorem HeldOff.findJournal (h : HeldOff s) {cold : Bool} : HeldOff (findJournal cold s) := by
  unfold Machine.findJournal
  extract_lets s'
  have hs' : HeldOff s' := .ite h h.noteReads.noteReads
  split
  · exact .ite hs'.elsewhere hs'.elsewhere
  · exact hs'.elsewhere

theorem HeldOff.retireEpoch (h : HeldOff s) : HeldOff (retireEpoch s) := by
  unfold Machine.retireEpoch
  split
  · exact h
  · exact h.elsewhere.complete

theorem HeldOff.endScrub (h : HeldOff s) {tests : List SelfTest} : HeldOff (endScrub tests s) := by
  unfold Machine.endScrub
  extract_lets _ _ _ _ _ _ s1 s2
  have hs1 : HeldOff s1 := h.elsewhere
  have hs2 : HeldOff s2 := hs1.retireEpoch.foldl fun _ _ ht => ht.recordTest
  exact .ite hs2.noteEvent hs2

/-! ### Power states -/

theorem HeldOff.freeToken (h : HeldOff s) {cause : Nat} : HeldOff (freeToken cause s) := .postEvent h.elsewhere

theorem HeldOff.resetPort (h : HeldOff s) {port : Nat} {kind : PortResetKind} : HeldOff (resetPort port kind s) := by
  unfold Machine.resetPort
  extract_lets s1 _ _ s2
  have hs1 : HeldOff s1 := h.modCp
  have hs2 : HeldOff s2 := hs1.elsewhere.bbEvent
  exact .ite hs2.freeToken hs2

theorem HeldOff.breakUpdate (h : HeldOff s) : HeldOff (breakUpdate s) := .ite h.elsewhere h

theorem HeldOff.endUnlock (h : HeldOff s) {cause : Nat} : HeldOff (endUnlock cause s) := by
  unfold Machine.endUnlock
  split
  · exact h
  · exact h.elsewhere.complete

theorem HeldOff.dropCommands (h : HeldOff s) {hs : List Nat} : HeldOff (dropCommands hs s) := by
  unfold Machine.dropCommands
  exact h.modCp.modCp

theorem HeldOff.endWork (h : HeldOff s) : HeldOff (endWork s) := h.breakUpdate.dropCommands.aside

theorem HeldOff.failCommands (h : HeldOff s) : HeldOff (failCommands s) :=
  h.foldl fun _ _ ht => ht.foldl fun _ _ ht1 => .ite ht1.dropCommands (.ite ht1.endCommand ht1.endCommand)

theorem HeldOff.enterP4 (h : HeldOff s) : HeldOff (enterP4 s) := by
  unfold Machine.enterP4
  extract_lets s1 s2 _ s3
  have hs1 : HeldOff s1 := h.postEvent.endUnlock.endLevel
  have hs2 : HeldOff s2 := hs1.resetPlane
  have hs3 : HeldOff s3 := hs2.modCp.modCp
  clear_value s3
  exact .relampAll (hs3.mapPorts (hp := rfl) (hf := fun _ => by rintro ⟨⟩))

theorem HeldOff.drainForP3 (h : HeldOff s) : HeldOff (drainForP3 s) := by
  unfold Machine.drainForP3
  refine h.foldl ?_
  intro t x ht
  split
  next hst => exact ht.modPort.enterLit ((modPort_keeps Port.state ..).trans hst)
  · exact ht.modPort
  · exact ht.enterPort
  · exact ht.enterPort
  · exact ht.enterPort
  · exact ht

theorem HeldOff.withdrawP3 (h : HeldOff s) : HeldOff (withdrawP3 s) :=
  .ite (h.mapPorts (hp := rfl)) h

theorem HeldOff.beginTransition (h : HeldOff s) {t0 : PowerState} {hdr : Option Nat} : HeldOff (beginTransition t0 hdr s) := by
  unfold Machine.beginTransition
  extract_lets old _ s1 _ old_3
  have hold : HeldOff old := h.withdrawP3
  have hs1 : HeldOff s1 := hold.aside
  have hold_3 : HeldOff old_3 := hs1.drainForP3
  clear_value s1 old_3
  split
  · exact .bbEvent hs1.aside
  · exact hold_3.aside
  · exact .ite hs1.capAll.failCommands.bbEvent.aside hs1.capAll

theorem HeldOff.followPower (h : HeldOff s) {hdr : Option Nat} : HeldOff (followPower hdr s) := by
  unfold Machine.followPower
  extract_lets done _ _ _ s1
  have hdone : ∀ u, HeldOff u → HeldOff (done u) := by
    intro u hu
    unfold done
    split
    · exact hu.complete
    · exact hu
  have hs1 : HeldOff s1 := h.elsewhere
  refine .ite h (.ite (.ite hs1.capAll hs1) (.ite (hdone _ (.ite h.capAll h)) ?_))
  exact .ite h.elsewhere.beginTransition (.ite h.endWork.beginTransition h.beginTransition)

theorem HeldOff.commandPower (h : HeldOff s) {n cap : Nat} {hdr : Option Nat} : HeldOff (commandPower n cap hdr s) :=
  h.elsewhere.followPower

theorem HeldOff.blankDefault (h : HeldOff s) : HeldOff (blankDefault s) := .ite h.elsewhere h

theorem HeldOff.enterP3 (h : HeldOff s) : HeldOff (enterP3 s) := by
  have hpilot : ∀ (u : State) (sf : Sf) (sc : Sc) (pw : Pw), HeldOff u →
      HeldOff { u with lk := { u.lk with ports := u.lk.ports.map fun v => { v with fromP3 := v.state == .pilot } },
                       sf := sf, sc := sc, pw := pw } := fun _ _ _ _ hu => hu.mapPorts (hp := rfl)
  unfold Machine.enterP3
  extract_lets s1 s2 _ s3
  have hs2 : HeldOff s2 := h.endUnlock.endLevel.resetPlane.loseStores.loseCores
  have hs3 : HeldOff s3 := .findJournal hs2.aside
  exact hpilot _ _ _ _ hs3

theorem HeldOff.narrowPorts (h : HeldOff s) {on : Bool} : HeldOff (narrowPorts on s) := by
  refine h.foldl fun _ _ ht => ht.modPort (fun v => ?_) fun v => ?_
  · split <;> split <;> exact id
  · split <;> split <;> exact id

theorem HeldOff.reachState (h : HeldOff s) {t0 : PowerState} {hs : List Nat} : HeldOff (reachState t0 hs s) := by
  unfold Machine.reachState
  extract_lets _ s1 _ s2 _ s3
  have hs1 : HeldOff s1 := by
    unfold s1
    split
    · exact h.enterP3
    · exact h.narrowPorts
    · exact .ite h.narrowPorts h
  have hs2 : HeldOff s2 := hs1.elsewhere
  have hs3 : HeldOff s3 := .ite hs2 hs2.bbEvent.postEvent
  exact .relampAll (hs3.foldl fun _ _ ht => ht.complete)

theorem HeldOff.execPowerTransitionDone (h : HeldOff s) : OutHeldOff (execPowerTransitionDone s) := by
  unfold Machine.execPowerTransitionDone
  refine .next ?_
  split
  · exact h
  · exact h.enterP4
  · exact .ite h h.reachState
  · refine .ite (.ite ?_ h) h.reachState
    exact .reachState (.ite h.elsewhere.blankDefault.capAll h.elsewhere.blankDefault)

theorem HeldOff.execPowerSample (h : HeldOff s) {mv ma mw : Nat} : OutHeldOff (execPowerSample mv ma mw s) := by
  unfold Machine.execPowerSample
  extract_lets _ _ _ s1 _ _ s2 s3
  have hs1 : HeldOff s1 := h.elsewhere
  have hs2 : HeldOff s2 := hs1.elsewhere
  have hs3 : HeldOff s3 := hs2.foldl fun _ _ ht => ht.elsewhere
  exact .next (.ite (.ite hs3.postOrder hs3) hs1)

theorem HeldOff.stepFails (h : HeldOff s) {p : Nat} : HeldOff (stepFails p s) := by
  unfold Machine.stepFails
  split
  · exact h.enterPort
  · exact h.enterPort
  · exact h.enterPort
  · exact h.enterPort
  · exact h.enterPort
  · exact h.enterPort
  · exact h

theorem HeldOff.dieLost (h : HeldOff s) {d : Nat} : HeldOff (dieLost d s) := by
  unfold Machine.dieLost
  refine h.foldl ?_
  intro t x ht
  extract_lets
  split
  · exact ht.elsewhere
  · exact ht.elsewhere
  · exact ht

theorem HeldOff.haltLost (h : HeldOff s) {d : Nat} : HeldOff (haltLost d s) := .ite h.postOrder h

theorem HeldOff.pairLost (h : HeldOff s) {i : Nat} : HeldOff (pairLost i s) := by
  unfold Machine.pairLost
  extract_lets _ s1
  have hs1 : HeldOff s1 := h.elsewhere
  clear_value s1
  split
  · exact .haltLost (.ite hs1.dieLost.saveRepair hs1)
  · exact .ite hs1.stepFails (.ite hs1.resetPort.followPower hs1.aside)

theorem HeldOff.pllFails (h : HeldOff s) {i : Nat} {spare : Bool} : HeldOff (pllFails i spare s) :=
  .ite h (.ite h (.ite h.elsewhere.pairLost (.ite h.elsewhere h.elsewhere.bbEvent)))

/-! ### The security engine -/

theorem HeldOff.raiseRollback (h : HeldOff s) : HeldOff (raiseRollback s) := .ite h.elsewhere.bbEvent h

theorem HeldOff.refuseUnlock (h : HeldOff s) {handle cause : Nat} : HeldOff (refuseUnlock handle cause s) := h.elsewhere.complete

theorem HeldOff.grantUnlock (h : HeldOff s) {handle level auth : Nat} {token : List Byte} :
    HeldOff (grantUnlock handle level auth token s) :=
  .ite h.elsewhere.bbEvent.complete (.complete (.ite h.elsewhere.bbEvent.commandPower h.elsewhere.bbEvent))

theorem HeldOff.startUnlockScrub (h : HeldOff s) : HeldOff (startUnlockScrub s) := .ite h.elsewhere h.elsewhere

theorem HeldOff.unlockOn (h : HeldOff s) : HeldOff (unlockOn s) := by
  unfold Machine.unlockOn
  split
  · exact h
  · exact .ite h.startUnlockScrub h.grantUnlock

theorem HeldOff.lowerLevel (h : HeldOff s) {handle level : Nat} : HeldOff (lowerLevel handle level s) := by
  unfold Machine.lowerLevel
  extract_lets _ _ s1 _ free _ s2
  have hs1 : HeldOff s1 := h.elsewhere
  have hfree : HeldOff free := .ite hs1 hs1.postOrder
  have hs2 : HeldOff s2 := .ite hfree.elsewhere hs1
  exact .complete (.ite hs2.bbEvent hs2)

theorem HeldOff.startUnlock (h : HeldOff s) {handle level : Nat} {token : List Byte} :
    HeldOff (startUnlock handle level token s) := by
  unfold Machine.startUnlock
  refine .ite h.lowerLevel (.ite h.grantUnlock ?_)
  extract_lets _ s1
  have hs1 : HeldOff s1 := h.elsewhere
  split
  · exact .ite hs1.elsewhere hs1.elsewhere.unlockOn
  · exact hs1.refuseUnlock
  · exact hs1.refuseUnlock

theorem HeldOff.execPresenceTimeout (h : HeldOff s) : OutHeldOff (execPresenceTimeout s) := by
  unfold Machine.execPresenceTimeout
  refine .next ?_
  split
  · exact .ite h.elsewhere.refuseUnlock h
  · exact h

theorem HeldOff.execUnlockScrubDone (h : HeldOff s) {tests : List SelfTest} : OutHeldOff (execUnlockScrubDone tests s) := by
  unfold Machine.execUnlockScrubDone
  refine .next ?_
  split
  · exact .ite (.grantUnlock (.endScrub (.ite h h.elsewhere))) h
  · exact h

theorem HeldOff.dbCtrlWrite (h : HeldOff s) {v : W32} : HeldOff (dbCtrlWrite v s) := by
  unfold Machine.dbCtrlWrite
  extract_lets _ _ _ _ _ s1 s2 s3 _ _ r old_1
  have hs1 : HeldOff s1 := h.elsewhere
  have hs2 : HeldOff s2 := .ite hs1.postOrder hs1
  have hs3 : HeldOff s3 := .ite hs2.postOrder hs2
  have hr : HeldOff r.2 := hs3.elsewhere
  have hold_1 : HeldOff old_1 := hr
  exact .ite h.elsewhere (.ite h.elsewhere (.ite hold_1.elsewhere hs3.elsewhere))

theorem HeldOff.dbCtrl (h : HeldOff s) {steward : Bool} {v : W32} : HeldOff (dbCtrl steward v s) :=
  .ite h.elsewhere (.ite h.elsewhere h.dbCtrlWrite)

end Sys2Proof.Machine
end

section
/-!
PROOF. The host commands, the completion ring and the long operations keep held ports dark.
-/

namespace Sys2Proof.Machine

set_option Elab.async false

open Sys2Proof

variable {s t : State}

/-! ### What commands do -/

theorem HeldOff.hostPut (h : HeldOff s) {port a : Nat} {bs : List Byte} {bad : Bool} : HeldOff (hostPut port a bs bad s) := by
  unfold Machine.hostPut
  extract_lets r s1
  have hr : HeldOff r.2 := by
    unfold r
    split
    · exact h.elsewhere
    · exact h
  have hs1 : HeldOff s1 := hr.elsewhere
  exact hs1.elsewhere

theorem HeldOff.devicePut (h : HeldOff s) {handle a : Nat} {bs : List Byte} {bad : Bool} :
    HeldOff (devicePut handle a bs bad s) :=
  h.foldl fun _ _ ht => .ite ht.elsewhere ht.hostSector

theorem HeldOff.copyFrom (h : HeldOff s) {port handle src dst dir n i : Nat} {acc : Option Nat × Nat} :
    HeldOff (copyFrom port handle src dst dir n i acc s).2 := by
  induction n generalizing s i acc with
  | zero => exact h
  | succ n ih =>
    have hs0 : HeldOff (if dir = 1 then s else Machine.noteReads s (src + 32 * i) 32) := .ite h h.noteReads
    exact ih (.ite hs0.hostPut hs0.devicePut)

theorem HeldOff.runCopy (h : HeldOff s) {port handle src dst len dir : Nat} : HeldOff (runCopy port handle src dst len dir s) :=
  h.copyFrom.elsewhere.settleCopies

theorem HeldOff.writeRoutes (h : HeldOff s) {epoch down detour : Nat} : HeldOff (writeRoutes epoch down detour s) := by
  unfold Machine.writeRoutes
  extract_lets
  split <;> exact h.elsewhere

theorem HeldOff.forceRelease (h : HeldOff s) {p handle : Nat} : HeldOff (forceRelease p handle s) := by
  unfold Machine.forceRelease
  exact .releasePort (.ite (h.foldl fun _ _ ht => ht.fencePeer) h)

theorem HeldOff.admitPort (h : HeldOff s) {p handle : Nat} : HeldOff (admitPort p handle s) := by
  unfold Machine.admitPort
  refine .complete ?_
  split
  next hst => exact h.enterLit hst
  · exact h

theorem HeldOff.suspendOp (h : HeldOff s) {handle t0 : Nat} : HeldOff (suspendOp handle t0 s) := by
  unfold Machine.suspendOp
  split
  · exact h.complete
  · split
    · extract_lets s1
      have hs1 : HeldOff s1 := by
        unfold s1
        split
        · exact h.complete
        · exact h
      exact hs1.elsewhere.complete
    · exact .ite h.complete (.ite h.elsewhere.pauseReshard h.elsewhere)
    · exact h.complete

theorem HeldOff.resumeOp (h : HeldOff s) {handle t0 : Nat} : HeldOff (resumeOp handle t0 s) := by
  unfold Machine.resumeOp
  split
  · exact .ite h.complete (.ite (.complete (.ite h.elsewhere.pauseReshard h.elsewhere)) h.elsewhere)
  · exact h.complete

theorem HeldOff.dropFenced (h : HeldOff s) {handle : Nat} : HeldOff (dropFenced handle s) := by
  unfold Machine.dropFenced
  exact h.modCp.modCp

theorem HeldOff.cancelOp (h : HeldOff s) {handle t0 : Nat} : HeldOff (cancelOp handle t0 s) := by
  unfold Machine.cancelOp
  split
  · exact h.complete
  · refine .ite h.complete ?_
    split
    · exact h.complete
    · exact h.dropFenced.cancelLoad.elsewhere.longDone
    · extract_lets s1 s2
      have hs1 : HeldOff s1 := by
        unfold s1
        split
        · exact h.complete
        · exact h
      have hs2 : HeldOff s2 := hs1.elsewhere
      exact .ite hs2.cancelReshard hs2.dropFenced.cancelLoad

theorem HeldOff.longImage (h : HeldOff s) {l : LongOp} : HeldOff (longImage l s).2 := by
  unfold Machine.longImage
  cases l.ran
  · exact h
  · exact h.elsewhere

theorem HeldOff.queryDevice (h : HeldOff s) {port handle : Nat} : HeldOff (queryDevice port handle s) := h.complete

theorem HeldOff.queryLong (h : HeldOff s) {handle t0 : Nat} : HeldOff (queryLong handle t0 s) := by
  unfold Machine.queryLong
  split
  · exact h.longImage.complete
  · exact h.complete

theorem HeldOff.queueLoad (h : HeldOff s) {handle addr bytes : Nat} : HeldOff (queueLoad handle addr bytes s) :=
  h.elsewhere.sendLoad

theorem HeldOff.startRun (h : HeldOff s) {handle : Nat} {c : Instr} : HeldOff (startRun handle c s) := by
  unfold Machine.startRun
  split
  · exact .ite h.elsewhere h.openRun
  · exact h

theorem HeldOff.carryOut (h : HeldOff s) {handle port : Nat} {c : Instr} : HeldOff (carryOut handle port c s) := by
  unfold Machine.carryOut
  split
  · exact h.queueLoad
  · exact h.requestSwitch
  · exact h.startRun
  · exact h.startRun
  · exact h.postDown
  · exact h.postDown
  · exact h.postDown
  · exact h.postDown
  · exact h.postDown
  · exact h.fencePeer.complete
  · exact h.unfencePeer.complete
  · exact h.writeRoutes.complete
  · exact h.elsewhere
  · exact h.runCopy
  · exact h.suspendOp
  · exact h.resumeOp
  · exact h.cancelOp
  · exact h.queryDevice
  · exact h.queryLong
  · exact h.releasePort
  · exact h.forceRelease
  · exact h.admitPort
  · exact h.complete
  · exact h.elsewhere.complete
  · exact h.commandPower
  · exact h.elsewhere
  · exact h.complete
  · split
    · exact h.startUnlock
    · exact h

theorem HeldOff.startCommand (h : HeldOff s) {handle port : Nat} {c : Instr} : HeldOff (startCommand handle port c s) :=
  .ite (.ite h.carryOut h) (.ite h.complete h.carryOut)

/-! ### Acceptance and completion -/

theorem HeldOff.enroll (h : HeldOff s) {hdr : CmdHdr} {op : Nat} : HeldOff (enroll hdr op s) := h.modCp

theorem HeldOff.refuse (h : HeldOff s) {port handle status : Nat} : HeldOff (refuse port handle status s) :=
  h.countCpFault.complete

theorem HeldOff.enterLong (h : HeldOff s) {handle op : Nat} {c : Instr} : HeldOff (enterLong handle op c s) := by
  unfold Machine.enterLong
  extract_lets s'
  have hs' : HeldOff s' := by
    unfold s'
    split
    · exact h.noteReads
    · exact h
  exact hs'.elsewhere

theorem HeldOff.releaseOn (h : HeldOff s) {port n : Nat} : HeldOff (releaseOn port n s) := by
  induction n generalizing s with
  | zero => exact h
  | succ n ih =>
    unfold Machine.releaseOn
    split
    · exact h
    · exact .ite h (ih h.modCp.startCommand)

theorem HeldOff.releaseFenced (h : HeldOff s) : HeldOff (releaseFenced s) := h.releaseOn.releaseOn

theorem HeldOff.takeIn (h : HeldOff s) {handle op : Nat} {hdr : CmdHdr} {c : Instr} : HeldOff (takeIn handle op hdr c s) := by
  unfold Machine.takeIn
  extract_lets s1 s2
  have hs1 : HeldOff s1 := .ite h.enterLong h.elsewhere
  have hs2 : HeldOff s2 := .ite hs1.freeToken hs1
  exact .ite hs2.modCp hs2.startCommand

theorem HeldOff.accept (h : HeldOff s) {hdr : CmdHdr} {op token : Nat} {c : Instr} : HeldOff (accept hdr op token c s) :=
  .ite h.enroll.takeIn (.refuse (.ite h.enroll h.enroll.aside))

theorem HeldOff.writeSlots (h : HeldOff s) {port off : Nat} {bytes : List Byte} :
    HeldOff (writeSlots port off bytes s) := h.modCp

theorem HeldOff.acceptSlot (h : HeldOff s) {port : Nat} {b : List Byte} : HeldOff (acceptSlot port b s) := by
  unfold Machine.acceptSlot
  extract_lets
  split
  · exact .refuse h.enroll.aside
  · refine .ite ?_ (.refuse (.ite h.enroll h.enroll.aside))
    split
    · exact h.accept
    · exact h

theorem HeldOff.acceptSlots (h : HeldOff s) {port n : Nat} : HeldOff (acceptSlots port n s) := by
  induction n generalizing s with
  | zero => exact h
  | succ n ih => exact .ite (ih h.acceptSlot) h

theorem HeldOff.acceptRow (h : HeldOff s) {c : Instr} : HeldOff (acceptRow c s) := by
  unfold Machine.acceptRow
  split
  · exact h
  · exact .ite h.accept.acceptSlots.releaseFenced h

theorem OutHeldOff.hostRow (h : HeldOff s) {hdr : CmdHdr} {c : Instr} : OutHeldOff (hostRow hdr c s) := .guardUnit h.acceptRow

theorem HeldOff.sendMsix (h : HeldOff s) {port vec : Nat} : HeldOff (sendMsix port vec s) := .ite h.setCp h.elsewhere

theorem HeldOff.putRecord (h : HeldOff s) {port : Nat} {r : Record} : HeldOff (putRecord port r s) := by
  unfold Machine.putRecord
  extract_lets _ _ _ s1
  have hs1 : HeldOff s1 := .setCp h.elsewhere
  exact .ite hs1 hs1.sendMsix

theorem HeldOff.putCompletion (h : HeldOff s) {port : Nat} {r : Record} {rest : List Record} : HeldOff (putCompletion port r rest s) := by
  unfold Machine.putCompletion
  extract_lets s1 s2
  have hs2 : HeldOff s2 := .putRecord h.modCp
  exact .acceptSlots (.ite hs2.aside hs2)

theorem HeldOff.putEvent (h : HeldOff s) {port : Nat} {r : Record} {rest : List Record} : HeldOff (putEvent port r rest s) :=
  .putRecord h.setCp

theorem HeldOff.execCompletionRecordWrite (h : HeldOff s) {port : Nat} : OutHeldOff (execCompletionRecordWrite port s) := by
  unfold Machine.execCompletionRecordWrite
  refine .guardUnit ?_
  extract_lets
  split
  · exact h
  · split
    · exact h.putCompletion.releaseFenced
    · exact .ite h.putEvent.releaseFenced h
    · exact h

theorem HeldOff.writeCqHead (h : HeldOff s) {port : Nat} {v : W32} : HeldOff (writeCqHead port v s) := .ite h.setCp h

theorem HeldOff.writeCqEntries (h : HeldOff s) {port : Nat} {v : W32} : HeldOff (writeCqEntries port v s) := .ite h.setCp h.setCp

/-! ### Long operations -/

theorem HeldOff.checkpointRange {r : Nat × Nat} {acc : CkptOut × State} (h : HeldOff acc.2) :
    HeldOff (checkpointRange r acc).2 := by
  refine h.foldlSnd fun a x ha => ?_
  dsimp only
  split
  · exact ha.noteReads.elsewhere
  · exact ha.noteReads

theorem HeldOff.checkpointImage (h : HeldOff s) {l : List (Nat × Nat)} : HeldOff (checkpointImage l s).2.2 :=
  h.foldlSnd fun _ _ ha => ha.checkpointRange

theorem HeldOff.runCheckpoint (h : HeldOff s) {port hostAddr : Nat} {l : List (Nat × Nat)} {whole : Bool} :
    HeldOff (runCheckpoint port hostAddr l whole s).2 := by
  unfold Machine.runCheckpoint
  extract_lets _ f
  have hf : HeldOff f.2 := by
    unfold f
    split
    · exact h.checkpointImage
    · exact h.checkpointImage.elsewhere
  exact hf.elsewhere

theorem HeldOff.restoreRanges (h : HeldOff s) {port : Nat} {l : List (Nat × Nat)} {a next : Nat} {bad : List Nat} :
    HeldOff (restoreRanges port l a next bad s).2 := by
  induction l generalizing s a next bad with
  | nil => exact h
  | cons r rest ih => exact ih (h.foldlSnd fun _ _ ha => ha.writePieces)

theorem HeldOff.restoreDone (h : HeldOff s) : HeldOff (restoreDone s) := .ite h.elsewhere.noteEvent h.elsewhere

theorem HeldOff.runRestore (h : HeldOff s) {handle port a bytes flags : Nat} :
    HeldOff (runRestore handle port a bytes flags s) := by
  unfold Machine.runRestore
  split
  · exact h.longDone
  · exact .longDone (.restoreDone (.ite h.restoreRanges.writeUeStep h.restoreRanges))

theorem HeldOff.runUpdate (h : HeldOff s) {handle port a bytes : Nat} {committed : Bool} :
    HeldOff (runUpdate handle port a bytes committed s) :=
  .ite (.longDone (.bbEvent (.ite h h.elsewhere))) (.longDone (.ite h.elsewhere h.elsewhere))

theorem HeldOff.enterRunning (h : HeldOff s) {l : LongOp} : HeldOff (enterRunning l s) := by
  unfold Machine.enterRunning
  extract_lets s1
  have hs1 : HeldOff s1 := h.elsewhere
  split
  · exact hs1.complete
  · exact hs1

theorem HeldOff.startLong (h : HeldOff s) {l : LongOp} : HeldOff (startLong l s) := by
  unfold Machine.startLong
  split
  · split
    · exact .ite h.enterRunning.sendLoad h
    · exact h
  · exact .ite h.enterRunning h
  · exact .ite h.enterRunning.elsewhere h
  · refine .ite ?_ h
    extract_lets s1
    have hs1 : HeldOff s1 := h.noteEvent.enterRunning
    split
    · exact hs1.elsewhere.postDown
    · exact hs1
  · exact h.enterRunning.elsewhere
  · exact h.enterRunning.elsewhere
  · exact h.enterRunning

theorem HeldOff.execLongOpStart (h : HeldOff s) {handle : Nat} : OutHeldOff (execLongOpStart handle s) := by
  unfold Machine.execLongOpStart
  refine .next ?_
  split
  · exact .ite h.startLong.releaseFenced h
  · exact h

theorem HeldOff.execPausePointReached (h : HeldOff s) {handle : Nat} : OutHeldOff (execPausePointReached handle s) := by
  unfold Machine.execPausePointReached
  refine .next ?_
  split
  · refine .ite ?_ h
    extract_lets s1
    have hs1 : HeldOff s1 := h.elsewhere
    refine .releaseFenced ?_
    split
    · exact hs1.complete
    · exact hs1
  · exact h

theorem HeldOff.undoLong (h : HeldOff s) {l : LongOp} : HeldOff (undoLong l s) := by
  unfold Machine.undoLong
  refine .ite h ?_
  split
  · exact h.runCheckpoint
  · exact h.elsewhere
  · exact h.elsewhere
  · exact h

theorem HeldOff.execCancelUndoDone (h : HeldOff s) {handle : Nat} : OutHeldOff (execCancelUndoDone handle s) := by
  unfold Machine.execCancelUndoDone
  refine .next ?_
  split
  · exact .ite h.undoLong.longDone.releaseFenced h
  · exact h

theorem HeldOff.finishLong (h : HeldOff s) {l : LongOp} {tests : List SelfTest} : HeldOff (finishLong l tests s) := by
  unfold Machine.finishLong
  split
  · exact h.runCheckpoint.longDone
  · exact h.runRestore
  · exact h.endScrub.longDone
  · exact h.runUpdate
  · exact h.elsewhere.longDone
  · exact h

theorem HeldOff.commitLong (h : HeldOff s) {l : LongOp} : HeldOff (commitLong l s) := by
  unfold Machine.commitLong
  extract_lets s1
  have hs1 : HeldOff s1 := by
    unfold s1
    split
    · exact h.elsewhere
    · exact h
  exact hs1.elsewhere

theorem HeldOff.commitDue (h : HeldOff s) : HeldOff (commitDue s) :=
  h.foldl fun _ _ ht => .ite (.ite ht.elsewhere.commitLong ht.elsewhere) ht

theorem HeldOff.execLongOpWorkEnd (h : HeldOff s) {handle : Nat} {tests : List SelfTest} :
    OutHeldOff (execLongOpWorkEnd handle tests s) := by
  unfold Machine.execLongOpWorkEnd
  refine .next ?_
  split
  · exact .ite h.finishLong.releaseFenced h
  · exact h

theorem HeldOff.execStewardWindow (h : HeldOff s) : OutHeldOff (execStewardWindow s) := by
  unfold Machine.execStewardWindow
  refine .next ?_
  extract_lets _ _ s1 winner _ s2
  have hs1 : HeldOff s1 := h.elsewhere
  have hs2 : HeldOff s2 := .ite (.postEvent hs1.elsewhere) hs1
  exact .releaseFenced (hs2.foldl fun _ _ ht => ht.complete)

end Sys2Proof.Machine
end

section
/-!
PROOF. Registers keep held ports dark, read or written, from the hosts, the mailbox and the side channels.
-/

namespace Sys2Proof.Machine

set_option Elab.async false

open Sys2Proof

variable {s t : State}

/-! ### Reading registers -/

theorem HeldOff.regRead (h : HeldOff s) {port off width : Nat} : HeldOff (regRead port off width s).2 := .ite h.elsewhere h

/-! ### Writing registers -/

theorem HeldOff.took (h : HeldOff s) : HeldOff (took s).1 := h

theorem HeldOff.dropped (h : HeldOff s) : HeldOff (dropped s).1 := h

theorem HeldOff.ofWrote {w : Wrote} (h : HeldOff s) (ht : HeldOff t) (hw : w = Machine.took t ∨ w = Machine.dropped s) :
    HeldOff w.1 := by
  rcases hw with rfl | rfl
  · exact ht
  · exact h

theorem HeldOff.tookIf (h : HeldOff s) (ht : HeldOff t) {ok : Bool} : HeldOff (tookIf ok s t).1 := h.ofWrote ht (tookIf_cases ..)

theorem HeldOff.fbWrite (h : HeldOff s) {steward : Bool} {o : Nat} {v : W64} : HeldOff (fbWrite steward o v s).1 := by
  unfold Machine.fbWrite
  extract_lets
  split
  · exact h.tookIf h.elsewhere
  · split
    · exact h.tookIf h.elsewhere
    · exact h.elsewhere.took
    · exact h.dropped

theorem HeldOff.mcOwned (h : HeldOff s) {o : Nat} {v : W64} : HeldOff (mcOwned o v s).1 := by
  unfold Machine.mcOwned
  split
  · refine h.ofWrote ?_ (tookIf_cases ..)
    exact h.elsewhere
  · exact h.elsewhere
  · exact h.elsewhere
  · exact h.elsewhere
  · exact h

theorem HeldOff.mcWrite (h : HeldOff s) {steward : Bool} {o : Nat} {v : W64} : HeldOff (mcWrite steward o v s).1 := by
  unfold Machine.mcWrite
  split
  · exact h.mcOwned
  · exact h.elsewhere.dropped

theorem HeldOff.lkPortWrite (h : HeldOff s) {p o : Nat} {v : W64} : HeldOff (lkPortWrite p o v s).1 := by
  unfold Machine.lkPortWrite
  split
  · exact h.modPort.took
  · exact h.modPort.took
  · split
    · exact .took (h.modPort (by simp))
    · exact h.dropped

theorem HeldOff.lkOwned (h : HeldOff s) {o : Nat} {v : W64} : HeldOff (lkOwned o v s).1 := by
  unfold Machine.lkOwned
  split
  · exact h.lkPortWrite
  · split
    · split
      · exact h.dropped
      · exact h.elsewhere.settlePilots.took
    · split
      · exact h.dropped
      · exact h.elsewhere.settlePilots.took
    · exact h.tookIf h.elsewhere
    · exact h.elsewhere.took
    · exact h.elsewhere.took
    · exact h.dropped

theorem HeldOff.lkWrite (h : HeldOff s) {steward : Bool} {o : Nat} {v : W64} : HeldOff (lkWrite steward o v s).1 := by
  unfold Machine.lkWrite
  split
  · exact h.lkOwned
  · exact h.dropped

theorem HeldOff.stagingWrite (h : HeldOff s) {base size : W64} : HeldOff (stagingWrite base size s).1 := h.tookIf h.elsewhere

theorem HeldOff.ueSet (h : HeldOff s) {u : Ue} : HeldOff (ueSet u s).1 := h.tookIf h.elsewhere

theorem HeldOff.clOwned (h : HeldOff s) {o : Nat} {v : W64} : HeldOff (clOwned o v s).1 := by
  unfold Machine.clOwned
  extract_lets
  split
  · exact h.elsewhere.took
  · exact h.stagingWrite
  · exact h.stagingWrite
  · exact h.elsewhere.took
  · exact h.elsewhere.took
  · exact h.ueSet
  · exact h.ueSet
  · split
    · exact h.dropped
    · exact h.ueSet
  · exact h.ueSet
  · exact h.ueSet
  · split
    · exact h.dropped
    · exact h.writeUeStep.took
  · exact h.elsewhere.took
  · exact h.elsewhere.took
  · exact h.dropped

theorem HeldOff.clWrite (h : HeldOff s) {steward : Bool} {o : Nat} {v : W64} : HeldOff (clWrite steward o v s).1 := by
  unfold Machine.clWrite
  split
  · exact h.clOwned
  · exact h.dropped

theorem HeldOff.twWrite (h : HeldOff s) {o : Nat} {v : W64} : HeldOff (twWrite o v s).1 := by
  unfold Machine.twWrite
  split
  · exact h.elsewhere.took
  · exact h.dropped

theorem HeldOff.sensorServe (h : HeldOff s) {port : Nat} : HeldOff (sensorServe port s) := .ite h.elsewhere h.elsewhere

theorem HeldOff.identityServe (h : HeldOff s) {port : Nat} : HeldOff (identityServe port s) := .ite h.elsewhere h.elsewhere

theorem HeldOff.mboxCtrl (h : HeldOff s) {port : Nat} {v : W64} : HeldOff (mboxCtrl port v s).1 := by
  unfold Machine.mboxCtrl
  extract_lets
  split
  · exact h.dropped
  · split
    · exact h.elsewhere.took
    · split <;> exact h.elsewhere.took

theorem HeldOff.mgWrite (h : HeldOff s) {port o : Nat} {v : W64} : HeldOff (mgWrite port o v s).1 := by
  unfold Machine.mgWrite
  extract_lets
  split
  · exact h.mboxCtrl
  · exact h.elsewhere.took
  · split
    · exact h.elsewhere.took
    · exact h.dropped

theorem HeldOff.msixWrite (h : HeldOff s) {port w : Nat} {v : W64} : HeldOff (msixWrite port w v s) :=
  .ite h.setCp (.ite h.setCp.modCp.sendMsix h.setCp)

theorem HeldOff.cpWrite (h : HeldOff s) {port o : Nat} {v : W64} : HeldOff (cpWrite port o v s).1 := by
  unfold Machine.cpWrite
  extract_lets
  split
  · exact h.tookIf h.elsewhere
  · exact h.tookIf h.elsewhere
  · exact h.tookIf h.setCp
  · exact h.writeCqEntries.took
  · exact h.tookIf h.writeCqHead
  · exact h.setCp.took
  · split
    · exact h.msixWrite.took
    · exact h.dropped

theorem HeldOff.pwWrite (h : HeldOff s) {steward : Bool} {o : Nat} {v : W64} : HeldOff (pwWrite steward o v s).1 := by
  unfold Machine.pwWrite
  extract_lets
  split
  · exact h.dropped
  · split
    · exact h.tookIf h.elsewhere
    · exact h.elsewhere.took
    · exact h.dropped

theorem HeldOff.scWrite (h : HeldOff s) {port : Nat} {steward : Bool} {o : Nat} {v : W64} :
    HeldOff (scWrite port steward o v s).1 := by
  unfold Machine.scWrite
  split
  · split
    · exact h.elsewhere.took
    · exact h.dropped
  · split
    · split
      · exact h.elsewhere.took
      · exact h.elsewhere.dropped
    · exact h.dropped

theorem HeldOff.dbOther (h : HeldOff s) {steward : Bool} {o : Nat} {v : W64} : HeldOff (dbOther steward o v s).1 := by
  unfold Machine.dbOther
  split
  · exact h.elsewhere.dropped
  · split
    · exact h.elsewhere.dropped
    · split
      · exact h.elsewhere.took
      · exact h.elsewhere.took
      · exact h.dropped

theorem HeldOff.dbWrite (h : HeldOff s) {steward : Bool} {o : Nat} {v : W64} : HeldOff (dbWrite steward o v s).1 := by
  unfold Machine.dbWrite
  split
  · extract_lets t
    have ht : HeldOff t := h.dbCtrl
    exact ht
  · exact h.dbOther

theorem HeldOff.bbWrite (h : HeldOff s) {port o : Nat} {v : W64} : HeldOff (bbWrite port o v s).1 := by
  unfold Machine.bbWrite
  split
  · split
    · exact h.elsewhere.took
    · split
      · exact h.noteGo.took
      · exact h.dropped
  · split
    · exact h.elsewhere.took
    · split
      · exact h.elsewhere.took
      · exact h.dropped

theorem HeldOff.regPut (h : HeldOff s) {port : Nat} {steward : Bool} {off : Nat} {v : W64} :
    HeldOff (regPut port steward off v s).1 := by
  unfold Machine.regPut
  split
  · exact h.dropped
  · extract_lets
    split
    · exact h.mgWrite
    · exact h.cpWrite
    · exact h.fbWrite
    · exact h.mcWrite
    · exact h.lkWrite
    · exact h.clWrite
    · exact h.dropped
    · exact h.scWrite
    · exact h.bbWrite
    · exact h.pwWrite
    · exact h.dbWrite
    · exact h.twWrite

theorem HeldOff.regWrite (h : HeldOff s) {port : Nat} {steward : Bool} {off width : Nat} {v : W64} :
    HeldOff (regWrite port steward off width v s).1 := by
  unfold Machine.regWrite
  split
  · extract_lets
    exact h.regPut
  · split
    · exact h.regPut
    · exact h.dropped

/-! ### Register accesses, BAR4 and the mailbox -/

theorem HeldOff.perform (h : HeldOff s) {a : RegAcc} : HeldOff (perform a s).2.2 := by
  unfold Machine.perform
  split
  · exact h.regWrite
  · split
    · exact h.elsewhere
    · exact h.regRead (port := a.port) (width := a.width)

theorem HeldOff.answer (h : HeldOff s) {port : Nat} {tag : W32} {write : Bool} {v : W64} : HeldOff (answer port tag write v s) :=
  .ite h h.elsewhere

theorem HeldOff.refuseAccess (h : HeldOff s) {k : Nat} {a : RegAcc} : HeldOff (refuseAccess k a s) :=
  .answer (.ite h.countCpFault h)

theorem HeldOff.replyTo (h : HeldOff s) {port : Nat} {tag : W32} {v : W64} : HeldOff (replyTo port tag v s) := by
  unfold Machine.replyTo
  split
  · exact h.elsewhere.answer
  · exact h

theorem HeldOff.failAccess (h : HeldOff s) {port : Nat} {tag : W32} : HeldOff (failAccess port tag s) := by
  unfold Machine.failAccess
  split
  · exact .answer (.ite h.elsewhere.countCpFault h.elsewhere)
  · exact h

theorem HeldOff.sendAccess (h : HeldOff s) {a : RegAcc} : HeldOff (sendAccess a s) := h.postDown.elsewhere

theorem HeldOff.postReply (h : HeldOff s) {port : Nat} {tag : W32} {discarded : Bool} {v : W64} :
    HeldOff (postReply port tag discarded v s) :=
  h.postUp

theorem HeldOff.takeAccess (h : HeldOff s) : HeldOff (takeAccess s) := by
  unfold Machine.takeAccess
  split
  · exact .ite h.popDown (.ite h.popDown.perform.postReply (.ite h.popDown.postTele h))
  · exact h

theorem HeldOff.travel (h : HeldOff s) {a : RegAcc} : HeldOff (travel a s) := by
  unfold Machine.travel
  split
  · exact h.sendAccess.takeAccess
  · exact .ite h.takeAccess h.sendAccess

theorem HeldOff.takeStandby (h : HeldOff s) : HeldOff (takeStandby s) := by
  unfold Machine.takeStandby
  split
  · exact .ite h (.ite h.elsewhere (.aside (.perform h.elsewhere)))
  · exact h

theorem HeldOff.travelStandby (h : HeldOff s) {a : RegAcc} : HeldOff (travelStandby a s) := by
  unfold Machine.travelStandby
  split
  · exact .ite h.elsewhere.takeStandby h
  · exact .ite h.takeStandby (.ite h.elsewhere h)

theorem HeldOff.accessRow (h : HeldOff s) {a : RegAcc} : HeldOff (accessRow a s) := by
  unfold Machine.accessRow
  refine .ite h (.ite h.refuseAccess ?_)
  split
  · exact h.perform.answer
  · exact .ite h.travel h.refuseAccess
  · exact .ite h.travel (.ite h h.travelStandby)

theorem HeldOff.execRegisterWrite (h : HeldOff s) {port off width : Nat} {value : W64} :
    OutHeldOff (execRegisterWrite port off width value s) := by
  unfold Machine.execRegisterWrite
  refine .guardUnit (.ite h (.ite h.refuseAccess ?_))
  split
  · exact h.perform
  · exact .ite h.refuseAccess (.ite h.sendAccess h.perform)
  · exact .ite h.countCpFault (.ite h.perform (.ite h.sendAccess h.travelStandby))

theorem HeldOff.execRegReply (h : HeldOff s) : OutHeldOff (execRegReply s) := by
  unfold Machine.execRegReply
  refine .next ?_
  split
  · exact h.popUp.replyTo
  · exact h.elsewhere.replyTo
  · exact h

theorem HeldOff.execMgmtRequest (h : HeldOff s) : OutHeldOff (execMgmtRequest s) := by
  unfold Machine.execMgmtRequest
  refine .next ?_
  split
  · exact h
  · refine .ite h ?_
    extract_lets s1 _ s2
    have hs1 : HeldOff s1 := h.traceRec
    have hs2 : HeldOff s2 := .ite hs1.popTele hs1.elsewhere.refillTele
    exact .ite hs2 hs2.perform.postOrder

theorem HeldOff.execMgmtReply (h : HeldOff s) : OutHeldOff (execMgmtReply s) := by
  unfold Machine.execMgmtReply
  refine .next ?_
  split
  · exact h.popInter.postReply
  · exact h

theorem HeldOff.mailbox {port req : Nat} {serve : State → State} (h : HeldOff s) (hf : ∀ t, HeldOff t → HeldOff (serve t)) :
    HeldOff (mailbox port req serve s) := .ite (.ite (hf _ h) h) (hf _ h.elsewhere)

theorem HeldOff.bar4Read (h : HeldOff s) {port off len : Nat} : HeldOff (bar4Read port off len s) :=
  .ite (.aside (.ite h.noteReads.aside h.noteReads)) h.elsewhere

theorem HeldOff.bar4Write (h : HeldOff s) {off : Nat} {bytes : List Byte} : HeldOff (bar4Write off bytes s) :=
  .foldl (.ite h h.elsewhere) (fun _ _ ht => ht.hostSector)

end Sys2Proof.Machine
end

section
/-!
PROOF. The drain, the messages, resets, the safety monitor and the management period keep held ports dark.
-/

namespace Sys2Proof.Machine

set_option Elab.async false

open Sys2Proof

variable {s t : State}

/-! ### The drain -/

theorem HeldOff.drainEmit (h : HeldOff s) {cell : Nat} {x : Ctx} {fmt n : Nat} {d : Drained} :
    HeldOff (drainEmit cell x fmt n d s) :=
  .ite h.putStoreBits h.routeFrom

theorem HeldOff.drainOne (h : HeldOff s) {cell : Nat} {x : Ctx} {i : DrainIn} : HeldOff (drainOne cell x s i) :=
  h.elsewhere.drainEmit

theorem HeldOff.drainRaw (h : HeldOff s) {cell : Nat} {x : Ctx} {fmt : Nat} {w : Nat × Nat × Bool} :
    HeldOff (drainRaw cell x fmt s w) :=
  .ite h.putStoreBits h.routeFrom

theorem HeldOff.drainRaws (h : HeldOff s) {cell : Nat} {x : Ctx} {fmt n vals : Nat} {ws : List (Nat × Bool)} :
    HeldOff (drainRaws cell x fmt n vals ws s) := by
  unfold Machine.drainRaws
  exact .elsewhere (h.foldl fun _ _ ht => ht.drainRaw)

theorem HeldOff.drainBlock (h : HeldOff s) {cell : Nat} {x : Ctx} {residAddr : Nat} {ins : List DrainIn} :
    HeldOff (drainBlock cell x residAddr ins s) := by
  unfold Machine.drainBlock
  extract_lets _ _ _ _ _ _ _ _ _ s0 s1 _ s2
  have hs0 : HeldOff s0 := h.noteReads
  have hs1 : HeldOff s1 := hs0.foldl fun _ _ ht => ht.writeJob
  have hs2 : HeldOff s2 := hs1.elsewhere
  exact .ite hs2.writePieces.writeMem (hs2.foldl fun _ _ ht => ht.routeFrom)

theorem HeldOff.drainBank (h : HeldOff s) {cell residAddr : Nat} : HeldOff (drainBank cell residAddr s) := by
  unfold Machine.drainBank
  extract_lets s1
  have hs1 : HeldOff s1 := .ite h.elsewhere h
  exact .ite hs1.drainRaws (.ite hs1.drainBlock (hs1.foldl fun _ _ ht => ht.drainOne))

theorem HeldOff.drainWide (h : HeldOff s) {cell residAddr : Nat} : HeldOff (drainWide cell residAddr s) :=
  .ite h (.ite h.elsewhere.drainRaws (.ite h.elsewhere.drainBlock (h.elsewhere.foldl fun _ _ ht => ht.drainOne)))

theorem HeldOff.drainQ (h : HeldOff s) {cell : Nat} : HeldOff (drainQ cell s) := .ite h.elsewhere.drainRaws h.elsewhere.drainOne

theorem HeldOff.execDrain (h : HeldOff s) {cell residAddr : Nat} : OutHeldOff (execDrain cell residAddr s) := by
  unfold Machine.execDrain
  refine .guardUnit (h.whenTaken ?_)
  split
  · exact .ite h.drainBank h
  · exact h.drainWide
  · exact h.drainQ
  · exact h

/-! ### Messages and telemetry -/

theorem HeldOff.phaseOnDie (h : HeldOff s) {die region id count handle : Nat} {program : Bool} :
    HeldOff (phaseOnDie die region id count handle program s) := by
  unfold Machine.phaseOnDie
  split
  · refine .ite h ?_
    extract_lets s1
    have hs1 : HeldOff s1 := h.elsewhere
    refine .ite (hs1.foldl fun _ _ ht => ht.elsewhere) ?_
    split
    · exact hs1
    · exact hs1.foldl fun _ _ ht => ht.switchCore.startPhaseOn
  · exact h

theorem HeldOff.switchOnDie (h : HeldOff s) {die region ctx : Nat} : HeldOff (switchOnDie die region ctx s) := by
  unfold Machine.switchOnDie
  split
  · exact h.foldl fun _ _ ht => ht.switchCore
  · exact h

theorem HeldOff.onDie (h : HeldOff s) {die : Nat} {p : Payload} : HeldOff (onDie die p s) := by
  unfold Machine.onDie
  split
  · exact h.phaseOnDie
  · exact h.switchOnDie
  · exact h.elsewhere
  · exact h

theorem HeldOff.allTaken (h : HeldOff s) {p : Payload} : HeldOff (allTaken p s) := by
  unfold Machine.allTaken
  split
  · exact h.postCompletion.startNextWait
  · exact h

theorem HeldOff.arrive (h : HeldOff s) {kind : Nat} : HeldOff (arrive kind s) := by
  unfold Machine.arrive
  split
  · exact h
  · exact .ite h (.ite h.popDown.allTaken h.popDown.elsewhere)

theorem HeldOff.niTake (h : HeldOff s) {die kind : Nat} : HeldOff (niTake die kind s) := by
  unfold Machine.niTake
  split
  · exact h
  · exact .ite h (.ite h.elsewhere.onDie.allTaken h.elsewhere.onDie)

theorem HeldOff.dieRow (h : HeldOff s) {die kind : Nat} : HeldOff (dieRow die kind s) := by
  unfold Machine.dieRow
  split
  · exact .ite h.niTake h.arrive
  · exact h.arrive.niTake

theorem HeldOff.execCompletion (h : HeldOff s) : OutHeldOff (execCompletion s) := by
  unfold Machine.execCompletion
  refine .next ?_
  split
  · exact h.popUp.endCommand.releaseFenced
  · exact h

theorem HeldOff.lostDown (h : HeldOff s) {p : Payload} : HeldOff (lostDown p s) := by
  unfold Machine.lostDown
  split
  · exact h.elsewhere.endCommand.startNextWait
  · exact h.elsewhere.endCommand.sendLoad.afterLoad
  · exact h.endCommand.startNextWait
  · exact .endCommand (.ite h.elsewhere h)
  · exact h.failAccess
  · exact h

theorem HeldOff.execNack (h : HeldOff s) : OutHeldOff (execNack s) := by
  unfold Machine.execNack
  refine .next ?_
  split
  · extract_lets s1
    have hs1 : HeldOff s1 := h.popUp
    split
    · exact hs1.lostDown.releaseFenced
    · exact hs1
  · exact h

theorem HeldOff.snapshot (h : HeldOff s) {stack : Nat} : HeldOff (snapshot s stack).2 := by
  unfold Machine.snapshot
  extract_lets f
  have hf : HeldOff f.2 := h.elsewhere
  exact hf

theorem HeldOff.sendStack (h : HeldOff s) {kind stack key : Nat} {w : List Nat} : HeldOff (sendStack kind stack key w s) :=
  h.elsewhere.postTele

theorem HeldOff.reportLost (h : HeldOff s) {ws cause seq : Nat} : HeldOff (reportLost ws cause seq s) := h.postTele

theorem HeldOff.loseHead (h : HeldOff s) {ws cause : Nat} : HeldOff (loseHead ws cause s) := by
  unfold Machine.loseHead
  split
  · split
    · exact h
    · exact h.popDown.postUp.reportLost
  · split
    · exact h
    · extract_lets s1
      have hs1 : HeldOff s1 := h.popUp.reportLost
      split
      · exact hs1.failAccess
      · exact hs1.postUp
  · split
    · exact h
    · exact h.popTele.reportLost
  · split
    · exact h
    · exact h.popInter.reportLost

theorem HeldOff.execWaystationFault (h : HeldOff s) {ws cause : Nat} : OutHeldOff (execWaystationFault ws cause s) := by
  unfold Machine.execWaystationFault
  refine .next ?_
  split
  · exact .ite (.ite h.traceRec.popTele h) h.loseHead
  · exact h.loseHead

/-! ### Resets and bring-up -/

theorem heldOff_reset : HeldOff State.reset := ⟨rfl, by decide +kernel⟩

theorem HeldOff.coldReset (_ : HeldOff s) : HeldOff (coldReset s) := heldOff_reset.elsewhere

theorem HeldOff.execColdReset (h : HeldOff s) : OutHeldOff (execColdReset s) := by
  unfold Machine.execColdReset
  refine .next ?_
  split
  · exact h
  · exact h.coldReset

theorem HeldOff.warmReset (h : HeldOff s) {cause : Nat} : HeldOff (warmReset cause s) := by
  unfold Machine.warmReset
  extract_lets s0 s1
  have hs0 : HeldOff s0 := h.breakUpdate.endLevel
  have hs1 : HeldOff s1 := hs0.resetPlane.bbEvent
  clear_value s1
  exact .relampAll hs1.aside

theorem HeldOff.fabricReset (h : HeldOff s) : HeldOff (fabricReset s) := h.failCommands.bbEvent.resetPlane.aside

theorem HeldOff.takeFabric (h : HeldOff s) : HeldOff (takeFabric s) := h.whenTaken h.fabricReset

theorem HeldOff.execInterlockOrderRepeat (h : HeldOff s) {seq : Nat} : OutHeldOff (execInterlockOrderRepeat seq s) := by
  unfold Machine.execInterlockOrderRepeat
  refine .next ?_
  split
  · exact h
  · exact .ite h (.ite h.takeFabric (.ite h h.elsewhere.enterInter))

theorem HeldOff.tripLines (h : HeldOff s) : HeldOff (tripLines s) := by
  unfold Machine.tripLines
  extract_lets s1
  have hs1 : HeldOff s1 := h.foldl fun _ _ ht => ht.smHold
  clear_value s1
  exact hs1.aside

theorem HeldOff.storeTrip (h : HeldOff s) {cause value die : Nat} : HeldOff (storeTrip cause value die s) := h.elsewhere.bbEvent

theorem HeldOff.bootStep (h : HeldOff s) {failed : List Nat} : HeldOff (bootStep failed s) := by
  unfold Machine.bootStep
  extract_lets s1 _ _ _ s' _ s2 _ _ s2_1
  have hs1 : HeldOff s1 := h.elsewhere
  have hs' : HeldOff s' := hs1.elsewhere
  have hs2 : HeldOff s2 := by
    unfold s2
    split
    · exact hs1.elsewhere
    · exact hs'.elsewhere.writeCtrl.writeCtrl
  have hs2_1 : HeldOff s2_1 := hs2.elsewhere
  exact .ite hs2_1.elsewhere hs2_1

theorem HeldOff.lockPlls (h : HeldOff s) {failed : List Nat} : HeldOff (lockPlls failed s) :=
  .foldl (h.foldl fun _ _ ht => .ite ht ht.elsewhere) (fun _ _ ht => .ite ht.elsewhere.pairLost ht)

theorem HeldOff.trainFails (h : HeldOff s) {cold : Bool} {i : Nat} : HeldOff (trainFails cold i s) := by
  unfold Machine.trainFails
  extract_lets _ _ _ _ _ fails
  have hfails : HeldOff fails := .ite h.pinsFailed h.pinFailed
  refine .ite h ?_
  split
  · exact .ite h.finishRetire hfails
  · exact hfails

theorem HeldOff.memoryStep (h : HeldOff s) {cold : Bool} {failed : List Nat} : HeldOff (memoryStep cold failed s) := by
  unfold Machine.memoryStep
  split
  · extract_lets s1
    have hs1 : HeldOff s1 := h.elsewhere.foldl fun _ _ ht => ht.trainFails
    clear_value s1
    exact hs1.aside
  · exact .aside (h.foldl fun _ _ ht => ht.trainFails)

theorem HeldOff.proofStep (h : HeldOff s) {failed : List Nat} : HeldOff (proofStep failed s) := by
  unfold Machine.proofStep
  extract_lets _ s1 _ _ s2 s3
  have hs1 : HeldOff s1 := h.foldl fun _ _ ht => ht.smFree.smFree
  clear_value s1
  have hs2 : HeldOff s2 := hs1.aside
  have hs3 : HeldOff s3 := hs2.foldl fun _ _ ht => ht.smHold
  clear_value s3
  exact .ite hs3 (.postEvent (.bbEvent hs3.aside))

theorem HeldOff.linksStep (h : HeldOff s) {failed : List Nat} : HeldOff (linksStep failed s) := h.foldl fun _ _ ht => ht.modCp

theorem HeldOff.rebuildMaps (h : HeldOff s) : HeldOff (rebuildMaps s) := h.elsewhere.foldl fun _ _ ht => ht.elsewhere

theorem HeldOff.loseDies (h : HeldOff s) : HeldOff (loseDies s) := h.foldl fun _ _ ht => ht.dieLost

theorem HeldOff.sendRestart (h : HeldOff s) : HeldOff (sendRestart s) := h.sendCurrent.foldl fun _ _ ht => ht.haltLost

theorem HeldOff.fabricStep (h : HeldOff s) {cold : Bool} {tests : List SelfTest} : HeldOff (fabricStep cold tests s) := by
  unfold Machine.fabricStep
  extract_lets s0 s1 s2
  have hs0 : HeldOff s0 := h.failCommands
  have hs1 : HeldOff s1 := .ite hs0.rebuildMaps.loseDies hs0
  have hs2 : HeldOff s2 := .findJournal (hs1.foldl fun _ _ ht => ht.recordTest)
  exact hs2.elsewhere

theorem HeldOff.lockOwner (h : HeldOff s) : HeldOff (lockOwner s) := .ite h.elsewhere h

theorem HeldOff.finishBringup (h : HeldOff s) {k : ResetKind} : HeldOff (finishBringup k s) := by
  unfold Machine.finishBringup
  extract_lets _ _ _ s1 _ s2 s3 s4 _ s5 s6 _ s7 _ s8
  have hs1 : HeldOff s1 := h.elsewhere
  have hs2 : HeldOff s2 := .ite hs1.raiseRollback.bbEvent hs1
  have hs3 : HeldOff s3 := hs2.lockOwner
  have hs4 : HeldOff s4 := .ite hs3.postEvent hs3
  have hs5 : HeldOff s5 := .ite hs4.elsewhere.postEvent hs4
  have hs6 : HeldOff s6 := hs5.blankDefault
  have hs7 : HeldOff s7 := hs6.capAll
  have hs8 : HeldOff s8 := .ite hs7 hs7.elsewhere.postEvent
  exact .ite (.ite hs5 hs5.relampAll) hs8.followPower.relampAll

theorem HeldOff.bringupStep (h : HeldOff s) {k : ResetKind} {n : Nat} {o : BringupObs} : HeldOff (bringupStep k n o s) := by
  unfold Machine.bringupStep
  extract_lets go r old _ _ s1
  have hgo : ∀ u, HeldOff u → HeldOff (go u) := fun _ hu => hu.elsewhere
  have hr : HeldOff r.2 := h.elsewhere
  have hold : HeldOff old := hr
  have hs1 : HeldOff s1 := .ite h.elsewhere h
  split
  · exact .ite (hgo _ hold.elsewhere) h.storeTrip.tripLines.enterP4
  · exact hgo _ h.bootStep
  · exact .ite h (.ite (hgo _ hs1.lockPlls) hs1.elsewhere.bbEvent.enterP4)
  · exact hgo _ h.memoryStep
  · exact hgo _ h.proofStep
  · exact hgo _ h.elsewhere.settlePilots
  · exact hgo _ h.linksStep
  · exact .sendRestart (hgo _ (.fabricStep (.ite h.failCommands h)))
  · exact h.finishBringup

theorem HeldOff.execBringupStep (h : HeldOff s) {o : BringupObs} : OutHeldOff (execBringupStep o s) := by
  unfold Machine.execBringupStep
  refine .next ?_
  split
  · exact .ite h h.bringupStep
  · exact h

theorem HeldOff.execFwBootTimeout (h : HeldOff s) : OutHeldOff (execFwBootTimeout s) := by
  unfold Machine.execFwBootTimeout
  refine .next ?_
  split
  · split
    · exact h.elsewhere
    · exact h
  · exact h

/-! ### The safety monitor -/

theorem HeldOff.reportHold (h : HeldOff s) {cause mask : Nat} : HeldOff (reportHold cause mask s) := h.bbEvent.postEvent

theorem HeldOff.tripNow (h : HeldOff s) {cause value die : Nat} : HeldOff (tripNow cause value die s) :=
  h.tripLines.storeTrip.bbEvent.aside

theorem HeldOff.execSafetyMonitorFail (h : HeldOff s) : OutHeldOff (execSafetyMonitorFail s) := by
  have hall : ∀ (sf : Sf) (halt : Bool) (lines : BitVec 10), HeldOff ((List.range 10).foldl (fun st p => Machine.lineOn p st)
      { s with sf := sf, ws := { s.ws with haltSm := halt, portSm := lines } }) := fun _ _ _ =>
    HeldOffBut.linesOn ⟨h.ten, fun p hp hnot => absurd (List.mem_range.2 hp) hnot⟩
  exact .next (.ite (hall _ _ _) (hall _ _ _).beginTransition)

/-! ### The management period -/

theorem HeldOff.powerLoop (h : HeldOff s) {r : Readings} : HeldOff (powerLoop r s) :=
  h.foldl fun _ _ ht => .ite ht.elsewhere ht.elsewhere

theorem HeldOff.droopDie (h : HeldOff s) {d : Nat} : HeldOff (droopDie d s) :=
  .aside (.ite h.elsewhere (.ite h.elsewhere h.elsewhere))

theorem HeldOff.dramHeat (h : HeldOff s) : HeldOff (dramHeat s) := h.foldl fun _ _ ht => ht.elsewhere

theorem HeldOff.coolantCheck (h : HeldOff s) : HeldOff (coolantCheck s) := .ite h.elsewhere (.ite h.elsewhere h)

theorem HeldOff.thermal (h : HeldOff s) : HeldOff (thermal s) := by
  unfold Machine.thermal
  extract_lets s1
  have hs1 : HeldOff s1 := h.foldl fun _ _ ht => ht.elsewhere.droopDie
  exact hs1.dramHeat.coolantCheck

theorem HeldOff.liftGuard (h : HeldOff s) : HeldOff (liftGuard s) := .aside (h.foldl fun _ _ ht => ht.aside)

theorem HeldOff.enterGuard (h : HeldOff s) {tag : Nat × Nat} : HeldOff (enterGuard tag s) :=
  .aside (h.foldl fun _ _ ht => ht.aside)

theorem HeldOff.storeSet (h : HeldOff s) : HeldOff (storeSet s) := h.elsewhere

theorem HeldOff.selectSet (h : HeldOff s) : HeldOff (selectSet s) := by
  unfold Machine.selectSet
  extract_lets _ _ _ s1 _ _ s2 r _ old_2 _ s1_1
  have hs1 : HeldOff s1 := h.elsewhere
  have hs2 : HeldOff s2 := .ite hs1.elsewhere hs1
  have hr : HeldOff r.2 := h.elsewhere
  have hold_2 : HeldOff old_2 := hr
  have hs1_1 : HeldOff s1_1 := hold_2.elsewhere
  exact .ite (.ite hs2.liftGuard hs2) (.ite hs1_1.enterGuard (.ite hs1_1.elsewhere hs1_1.elsewhere))

theorem HeldOff.calibrate (h : HeldOff s) {r : Readings} : HeldOff (calibrate r s) :=
  .selectSet (.ite (.storeSet (.aside (.ite h.elsewhere h))) (.aside (.ite h.elsewhere h)))

theorem HeldOff.adaptClocks (h : HeldOff s) : HeldOff (adaptClocks s) := .ite (h.foldl fun _ _ ht => ht.elsewhere) h

theorem HeldOff.laserFails (h : HeldOff s) {p l : Nat} : HeldOff (laserFails p l s) := .ite h (.ite h.elsewhere h.elsewhere)

theorem HeldOff.ringOut (h : HeldOff s) {p l : Nat} : HeldOff (ringOut p l s) :=
  .ite h (.moveLanes (h.elsewhere.modPort (by simp)))

theorem HeldOff.supervise (h : HeldOff s) {r : Readings} : HeldOff (supervise r s) :=
  .foldl (h.foldl fun _ _ ht => ht.laserFails) (fun _ _ ht => ht.ringOut)

theorem HeldOff.drainTele (h : HeldOff s) {n : Nat} : HeldOff (drainTele n s) := by
  induction n generalizing s with
  | zero => exact h
  | succ n ih =>
    unfold Machine.drainTele
    split
    · exact h
    · exact .ite h (ih h.popTele.takeTele)

theorem HeldOff.stepLamps (h : HeldOff s) : HeldOff (stepLamps s) :=
  .foldl (h.foldl fun _ _ ht => ht.modPort) (fun _ _ ht => .ite ht ht.modPort.relamp)

theorem HeldOff.referenceLost (h : HeldOff s) : HeldOff (referenceLost s) := .ite h.elsewhere.bbEvent.enterP4 h

theorem HeldOff.upsetStores (h : HeldOff s) : HeldOff (upsetStores s) := by
  unfold Machine.upsetStores
  refine .ite h ?_
  split
  · exact h
  · exact h.elsewhere
  · exact .ite h.elsewhere h

theorem HeldOff.runPeriod (h : HeldOff s) {r : Readings} : HeldOff (runPeriod r s) := by
  unfold Machine.runPeriod
  extract_lets s1 s2 s3 s4 _ s5
  have hs1 : HeldOff s1 := .withCaps h.elsewhere.powerLoop.thermal.calibrate
  have hs2 : HeldOff s2 := hs1.adaptClocks.supervise
  have hs3 : HeldOff s3 := .ite hs2 hs2.drainTele
  have hs4 : HeldOff s4 := .copyOn hs3.drainNotes.aside
  clear_value s4
  have hs5 : HeldOff s5 := hs4.aside
  clear_value s5
  exact .referenceLost hs5.upsetStores.crossAll.stepLamps.commitDue.aside

end Sys2Proof.Machine
end

section
/-!
PROOF. The sequencer, its streams and its moves keep held ports dark.
-/

namespace Sys2Proof.Machine

set_option Elab.async false

open Sys2Proof

variable {s t : State}

/-! ### One instruction -/

theorem HeldOff.seqFault (h : HeldOff s) {core cause : Nat} : HeldOff (seqFault core cause s) := by
  unfold Machine.seqFault
  extract_lets _ s1 s2 s3
  have hs1 : HeldOff s1 := h.elsewhere
  have hs2 : HeldOff s2 := by
    unfold s2
    split
    · exact hs1.foldl fun _ _ ht => ht.elsewhere
    · exact hs1
  have hs3 : HeldOff s3 := hs2.elsewhere
  exact hs3.finishFaulted

theorem OutHeldOff.seqStep (h : HeldOff s) {core : Nat} {w : W32} {body : State → Core → SeqRes}
    (hr : ResHeldOff (body s (getCore s core))) : OutHeldOff (seqStep core w body s) := by
  refine .guardUnit (.ite (.ite h.seqFault (.ite h.seqFault (.ite h ?_))) h)
  unfold Machine.seqApply
  split
  case h_1 c hc => exact h.elsewhere
  case h_2 c pc hc => exact h.elsewhere
  case h_3 t ht => exact HeldOff.elsewhere (show HeldOff t by rw [ht] at hr; exact hr)
  case h_4 t ht => exact (show HeldOff t by rw [ht] at hr; exact hr)
  case h_5 n hn => exact h.seqFault
  case h_6 hn => exact h

/-! ### Floating point -/

theorem ResHeldOff.fpBin {d a b : RField} {op : PV → PV → PV} {c : Core} : ResHeldOff (fpBin d a b op c) := .next

theorem ResHeldOff.fpUn {d a : RField} {op : W64 → W64} {c : Core} : ResHeldOff (fpUn d a op c) := .next

theorem ResHeldOff.fpCmp {d a b : RField} {p : Nat} {c : Core} : ResHeldOff (fpCmp d a b p c) := .next

theorem ResHeldOff.fpTri {d a b e : RField} {op : PV → PV → PV → PV} {c : Core} : ResHeldOff (fpTri d a b e op c) := .next

/-! ### Integers and branches -/

theorem ResHeldOff.aluG {d a b : RField} {op : W64 → W64 → W64} {c : Core} : ResHeldOff (aluG d a b op c) := .next

theorem ResHeldOff.aluG1 {d a : RField} {op : W64 → W64} {c : Core} : ResHeldOff (aluG1 d a op c) := .next

theorem ResHeldOff.branch {a b : RField} {off : BitVec 14} {cond : W64 → W64 → Bool} {c : Core} :
    ResHeldOff (branch a b off cond c) :=
  .ite .trap (.ite .jump .next)

/-! ### Loads and stores -/

theorem ResHeldOff.loadG {core n : Nat} {d a : RField} {imm : BitVec 14} {ext : Nat → W64} {c : Core} :
    ResHeldOff (loadG core n d a imm ext s c) :=
  .withAccess (fun _ _ => .next)

theorem ResHeldOff.storeG (h : HeldOff s) {core n : Nat} {d a : RField} {imm : BitVec 14} {c : Core} :
    ResHeldOff (storeG core n d a imm s c) :=
  .withAccess (fun _ _ => .whole h.seqWrite)

theorem HeldOff.execFld (h : HeldOff s) {core : Nat} {d a : RField} {imm : BitVec 14} : OutHeldOff (execFld core d a imm s) :=
  .seqStep h (.withAccess (fun _ _ => .next))

theorem HeldOff.execFsd (h : HeldOff s) {core : Nat} {d a : RField} {imm : BitVec 14} : OutHeldOff (execFsd core d a imm s) :=
  .seqStep h (.withAccess (fun _ _ => .whole h.seqWrite))

theorem HeldOff.execVld (h : HeldOff s) {core : Nat} {d a : RField} {imm : BitVec 14} : OutHeldOff (execVld core d a imm s) :=
  .seqStep h (.withAccess (fun _ _ => .next))

theorem HeldOff.execVst (h : HeldOff s) {core : Nat} {d a : RField} {imm : BitVec 14} : OutHeldOff (execVst core d a imm s) :=
  .seqStep h (.withAccess (fun _ _ => .whole h.seqWrite))

theorem HeldOff.writeSectorItems (h : HeldOff s) {core : Nat} {m : SeqMem} {off sec : Nat}
    {items : List (Nat × List Byte × Bool)} :
    HeldOff (writeSectorItems s core m off sec items) :=
  .ite h.seqWrite (h.foldl fun _ _ ht => ht.seqWrite)

theorem OutHeldOff.sldv (h : HeldOff s) {core op n : Nat} {d a : RField} {w : BitVec 2} {inc : Bool}
    {fmask : BitVec 4} {off : BitVec 7} :
    OutHeldOff (sldv core op n d a w inc fmask off s) :=
  .seqStep h (.withAccess (fun _ _ => .next))

theorem OutHeldOff.sstv (h : HeldOff s) {core op n : Nat} {d a : RField} {w : BitVec 2} {inc : Bool}
    {fmask : BitVec 4} {off : BitVec 7} :
    OutHeldOff (sstv core op n d a w inc fmask off s) :=
  .seqStep h (.withAccess (fun _ _ => .whole (.elsewhere (h.foldl fun _ _ ht => ht.writeSectorItems))))

/-! ### Streams and moves -/

theorem HeldOff.writeElem (h : HeldOff s) {core : Nat} {st : Stream} {n : Nat} {e0 : Elem} :
    HeldOff (writeElem s core st n e0) :=
  .ite h.writePieces (.ite h.writeSector h.writePieces)

theorem HeldOff.deliverAt (h : HeldOff s) {core n : Nat} {edges : List Nat} {portFor : Nat → Nat} {l : List Elem} :
    HeldOff (deliverAt core edges portFor n l s) := by
  induction l generalizing s n with
  | nil => exact h
  | cons e r ih => exact ih h.routeFrom

theorem HeldOff.startStream (h : HeldOff s) {core : Nat} {t0 : Stream} : HeldOff (startStream core t0 s) :=
  .ite (.aside (.ite h.aside h)) (.deliverAt (.coreFault (.aside (.ite h.aside h))))

theorem HeldOff.writeOut (h : HeldOff s) {core n : Nat} {ws : Option (List Window)} {t0 : Stream} {l : List Elem} :
    HeldOff (writeOut core ws t0 n l s) := by
  induction l generalizing s n with
  | nil => exact h
  | cons e r ih => exact ih (.ite h.writeElem h)

theorem HeldOff.streamDone (h : HeldOff s) {core : Nat} {t0 : Stream} : HeldOff (streamDone core t0 s) := by
  unfold Machine.streamDone
  split
  · exact h.elsewhere
  · extract_lets c keys
    split
    · exact h
    · exact h.elsewhere.coreFault.writeOut.aside
  · extract_lets
    split
    · exact h
    · exact h.elsewhere.deliverAt

theorem HeldOff.completeStream (h : HeldOff s) {core : Nat} {t0 : Stream} : HeldOff (completeStream core t0 s) :=
  h.streamDone.finishFaulted

theorem HeldOff.moveSector (h : HeldOff s) {cs : Nat} {ws : Option (List Window)} {m : Move} {i : Nat} :
    HeldOff (moveSector cs ws m i s).2 := by
  unfold Machine.moveSector
  extract_lets
  split
  · split
    · exact .ite h.elsewhere h
    · split
      · exact h
      · exact h.outerSector
  · exact h.noteRead.writeSector

theorem HeldOff.moveAll {cs : Nat} {ws : Option (List Window)} {m : Move} {n i : Nat} {acc : Option Nat × Nat × State}
    (h : HeldOff acc.2.2) : HeldOff (moveAll cs ws m n i acc).2.2 := by
  induction n generalizing i acc with
  | zero => exact h
  | succ n ih =>
    refine ih ?_
    split <;> exact h.moveSector

theorem HeldOff.completeMove (h : HeldOff s) {core : Nat} {m : Move} : HeldOff (completeMove core m s) := by
  unfold Machine.completeMove
  extract_lets _ r
  have hr : HeldOff r.2.2 := HeldOff.moveAll h
  exact hr.coreFault.elsewhere.finishFaulted

/-! ### Streams, moves, CSR and phases -/

theorem HeldOff.execSiss (h : HeldOff s) {core : Nat} {a : RField} : OutHeldOff (execSiss core a s) :=
  .seqStep h (.ite .trap (.ite .trap (.ite .stall .next)))

theorem HeldOff.execStreamStart (h : HeldOff s) {core port : Nat} {out : Bool} :
    OutHeldOff (execStreamStart core port out s) := by
  unfold Machine.execStreamStart
  refine .guardUnit ?_
  split
  · exact h
  · exact .ite h h.startStream

theorem HeldOff.execStreamComplete (h : HeldOff s) {core port : Nat} {out : Bool} :
    OutHeldOff (execStreamComplete core port out s) := by
  unfold Machine.execStreamComplete
  refine .guardUnit ?_
  split
  · exact h
  · exact .ite h h.completeStream

theorem HeldOff.execMoveStart (h : HeldOff s) {cluster : Nat} : OutHeldOff (execMoveStart cluster s) := by
  unfold Machine.execMoveStart
  refine .guardUnit ?_
  split
  · exact h
  · exact .ite h h.elsewhere

theorem HeldOff.execMoveComplete (h : HeldOff s) {cluster : Nat} : OutHeldOff (execMoveComplete cluster s) := by
  unfold Machine.execMoveComplete
  refine .guardUnit ?_
  split
  · exact h
  · exact .ite h h.completeMove

theorem HeldOff.execCsrr (h : HeldOff s) {core : Nat} {d : RField} {imm : BitVec 14} : OutHeldOff (execCsrr core d imm s) := by
  unfold Machine.execCsrr
  refine .seqStep h ?_
  extract_lets r
  have hr : HeldOff r.2 := by
    unfold r
    split
    · exact h.elsewhere
    · exact h
  exact .whole hr.elsewhere

theorem HeldOff.execPrun (h : HeldOff s) {core : Nat} {a : RField} {imm : BitVec 14} : OutHeldOff (execPrun core a imm s) := by
  unfold Machine.execPrun
  refine .seqStep h (.ite .trap (.ite .trap ?_))
  split
  · exact .trap
  · exact .ite .trap (.ite .stall (.whole h.startPhaseOn))

theorem HeldOff.execCsw (h : HeldOff s) {core : Nat} {b : RField} : OutHeldOff (execCsw core b s) :=
  .seqStep h (.ite .stall (.whole h.switchCore))

theorem HeldOff.execPsync (h : HeldOff s) {core : Nat} : OutHeldOff (execPsync core s) :=
  .seqStep h (.ite .stall (.stay h.elsewhere))

theorem HeldOff.execPsyncRelease (h : HeldOff s) {region : Nat} : OutHeldOff (execPsyncRelease region s) := by
  unfold Machine.execPsyncRelease
  refine .next ?_
  split
  · exact h
  · exact h.whenTaken (h.foldl fun _ _ ht => ht.elsewhere)

theorem HeldOff.execProgramEnd (h : HeldOff s) {region : Nat} : OutHeldOff (execProgramEnd region s) := by
  unfold Machine.execProgramEnd
  refine .next ?_
  split
  · exact h.whenTaken h.closeRegion.finishRun
  · exact h

theorem HeldOff.execPhaseEnd (h : HeldOff s) {core : Nat} : OutHeldOff (execPhaseEnd core s) := by
  unfold Machine.execPhaseEnd
  refine .guardUnit ?_
  split
  · exact h
  · exact .ite h h.endPhaseOn.releaseWrites

theorem HeldOff.execTotalsTimeout (h : HeldOff s) {region die : Nat} : OutHeldOff (execTotalsTimeout region die s) := by
  unfold Machine.execTotalsTimeout
  refine .guardUnit ?_
  split
  · extract_lets
    split
    · exact h
    · extract_lets _ _ _ mark _ s1 s2
      have hmark : ∀ u b, HeldOff u → HeldOff (mark u b) := fun _ _ hu => hu.elsewhere
      have hs1 : HeldOff s1 := h.elsewhere.foldl fun _ _ ht => hmark _ _ ht
      have hs2 : HeldOff s2 := hs1.closeOpen
      exact .ite (.ite hs2.finishFaulted hs2.finishRun) hs1
  · exact h

/-! ### Vectors -/

theorem ResHeldOff.vecBin {d a b : RField} {w : BitVec 2} {op : Nat → Nat → Nat → Nat} {c : Core} :
    ResHeldOff (vecBin d a b w op c) :=
  .next

theorem ResHeldOff.vecFp {d a b : RField} {op : PV → PV → PV} {c : Core} : ResHeldOff (vecFp d a b op c) := .next

/-! ### The side channels -/

theorem HeldOff.smbusRun (h : HeldOff s) {writeBytes : List Byte} {readLen : Nat} : HeldOff (smbusRun writeBytes readLen s) :=
  .ite h.elsewhere h.elsewhere

theorem HeldOff.dbacc (h : HeldOff s) {off : Nat} {write : Bool} {value : W64} : HeldOff (dbacc off write value s) := by
  unfold Machine.dbacc
  split
  · exact .ite h h.elsewhere
  · exact .ite h.perform h.perform.elsewhere

end Sys2Proof.Machine
end

section
/-!
PROOF. Every command's row keeps held ports dark, and so does a step (O59).
-/

namespace Sys2Proof.Machine

set_option Elab.async false

open Sys2Proof

variable {s : State}

/-- Row by row: what a row runs keeps held ports dark. -/
theorem HeldOff.exec (h : HeldOff s) (i : Instr) : OutHeldOff (exec i s) := by
  cases i with
  | commandSlotWrite => exact .guardUnit (h.whenTaken (.ite h.writeSlots.acceptSlots.releaseFenced h.writeSlots))
  | loadConfig | switchContext | runPhase | runProgram | allReduce | reduceScatter | allGather | multicast
  | topkGather | fencePeer | unfencePeer | setRoutes | setRouteEpoch | copy | checkpoint | restore | reshard
  | reshardResume | reshardRollback | suspend | resume | cancel | queryDevice | queryLongOp | scrub | fwUpdate
  | bbExport | portRelease | portReleaseForce | portAdmit | reset | attest | debugUnlock | lcProvision | lcDeploy
  | lcReturn | setPowerState | stewardClaim | stewardYield => exact .hostRow h
  | longOpStart => exact h.execLongOpStart
  | pausePointReached => exact h.execPausePointReached
  | cancelUndoDone => exact h.execCancelUndoDone
  | longOpWorkEnd => exact h.execLongOpWorkEnd
  | completionRecordWrite => exact h.execCompletionRecordWrite
  | cpCqHeadWrite => exact .guardUnit (h.whenTaken h.writeCqHead)
  | cqEnable => exact .guardUnit (h.whenTaken h.writeCqEntries)
  | cpStewardKeepalive => exact .guardUnit (h.whenTaken h.elsewhere)
  | stewardWindow => exact h.execStewardWindow
  | stewardLeaseExpiry => exact .next (h.whenTaken h.freeToken)
  | registerWrite => exact h.execRegisterWrite
  | registerAccessTimeout => exact .guardUnit h.failAccess
  | bar4Read => exact .guardUnit (h.whenTaken h.bar4Read)
  | bar4Write => exact .guardUnit (h.whenTaken h.bar4Write)
  | sensorRead => exact .guardUnit (h.whenTaken (h.mailbox fun _ ht => ht.sensorServe))
  | identityRead => exact .guardUnit (h.whenTaken (h.mailbox fun _ ht => ht.identityServe))
  | nonceDraw => exact .guardUnit (h.whenTaken h.elsewhere)
  | debugHalt | debugRelease | mcuHalt | mcuStep => exact .guardUnit (h.whenTaken h.dbCtrl)
  | bbRecSel => exact .guardUnit (h.whenTaken h.elsewhere)
  | bbNoteGo => exact .next (h.whenTaken h.noteGo)
  | ueStepWrite => exact .guardUnit (h.whenTaken h.writeUeStep)
  | attemptStart => exact .next (h.whenTaken h.rewriteRecord.elsewhere)
  | phaseStart | cfgLoad | ctxSwitch => exact .guardUnit h.dieRow
  | collDesc => exact h.execCollDesc
  | regAccess => exact .guardUnit (.ite h h.accessRow)
  | completion => exact h.execCompletion
  | regReply => exact h.execRegReply
  | nack => exact h.execNack
  | telemetryInterval => exact .guardUnit (h.whenTaken (h.snapshot.sendStack.sendStack.foldl fun _ _ ht => ht.modPort))
  | counterSnapshot | expHistogram | satVanish | laneHealth | orderAck => exact .next h.teleRow
  | mgmtRequest => exact h.execMgmtRequest
  | waystationFault => exact h.execWaystationFault
  | throttle | halt | haltRelease | portShutdown | portRestore => exact .next h.orderRow
  | mgmtReply => exact h.execMgmtReply
  | interlockOrderRepeat => exact h.execInterlockOrderRepeat
  | fetch => exact h.execFetch
  | verify => exact h.execVerify
  | apply => exact h.execApply
  | report => exact h.execReport
  | prun => exact h.execPrun
  | pwait => exact .seqStep h (.ite .stall .next)
  | csw => exact h.execCsw
  | psync => exact h.execPsync
  | psyncRelease => exact h.execPsyncRelease
  | endProgram => exact .seqStep h (.ite .stall .next)
  | programEnd => exact h.execProgramEnd
  | phaseEnd => exact h.execPhaseEnd
  | totalsTimeout => exact h.execTotalsTimeout
  | add | sub | and | or | xor | sll | srl | sra | slt | sltu | min | max | minu | maxu | mul | mulhu | divu | remu =>
      exact .seqStep h .aluG
  | clz | popc | addi | andi | ori | xori | slti | sltiu | slli | srli | srai => exact .seqStep h .aluG1
  | lui => exact .seqStep h .next
  | lb | lbu | lh | lhu | lw | lwu | ld => exact .seqStep h .loadG
  | sb | sh | sw | sd => exact .seqStep h (.storeG h)
  | fld => exact h.execFld
  | fsd => exact h.execFsd
  | vld => exact h.execVld
  | vst => exact h.execVst
  | beq | bne | blt | bge | bltu | bgeu => exact .seqStep h .branch
  | jal => exact .seqStep h .jump
  | jalr => exact .seqStep h (.ite .trap .jump)
  | fadd | fsub | fmul | fmin | fmax => exact .seqStep h .fpBin
  | fneg | fabs => exact .seqStep h .fpUn
  | fcmpEq | fcmpNe | fcmpLt | fcmpLe | fcmpGt | fcmpGe | fcmpUn => exact .seqStep h .fpCmp
  | fmvgf | fmvfg => exact .seqStep h .next
  | fma | fms | fnma => exact .seqStep h .fpTri
  | fsel => exact .seqStep h .next
  | vadd | vsub | vand | vor | vxor | vmin | vmax | vminu | vmaxu | vcmpeq | vcmpgt => exact .seqStep h .vecBin
  | vfaddD | vfsubD | vfmulD | vfminD | vfmaxD | vfcmpEqD | vfcmpLtD | vfcmpUnD => exact .seqStep h .vecFp
  | vfmaD | ptab | vsplat | vext | vins => exact .seqStep h .next
  | sldv2 | sldv3 | sldv4 => exact .sldv h
  | sstv2 | sstv3 | sstv4 => exact .sstv h
  | siss => exact h.execSiss
  | mvis => exact .seqStep h (.ite .trap (.ite .trap (.ite .stall .next)))
  | swait => exact .seqStep h (.ite .stall .next)
  | csrr => exact h.execCsrr
  | csrw => exact .seqStep h (.ite .trap (.ite .next (.ite .next .next)))
  | streamStart => exact h.execStreamStart
  | streamComplete => exact h.execStreamComplete
  | moveStart => exact h.execMoveStart
  | moveComplete => exact h.execMoveComplete
  | streamedOperand => exact .guardUnit (h.whenTaken (.ite h.bothStep (.ite h.gradientElement h.forwardElement)))
  | reductionTerm => exact h.execReductionTerm
  | topkElement => exact h.execTopkElement
  | bankLoad => exact h.execBankLoad
  | elementChain => exact h.execElementChain
  | drain => exact h.execDrain
  | pilotFrame => exact .guardUnit (.sendFrame (.ite h.hearFrame h.modPort))
  | pilotLost => exact .guardUnit (h.whenTaken (.enterPort (.modPort (.ite h.faultPort h))))
  | pilotDetectorLost => exact .guardUnit (h.whenTaken h.elsewhere)
  | rampDone => exact h.execRampDone
  | trainDone => exact h.execTrainDone
  | laneGradeInterval => exact h.execLaneGradeInterval
  | laneMoveSwitch => exact h.execLaneMoveSwitch
  | releaseButton => exact .guardUnit (.ite h.modPort.modPort.relamp h.modPort.releasePort)
  | latchTouch => exact h.execLatchTouch
  | latchHoldEnd => exact .guardUnit (.ite h.untouch.lineOff h.untouch)
  | latchSensorFault => exact .guardUnit (h.whenTaken h.untouch.aside.lineOff)
  | laserDarkReading => exact .guardUnit (h.whenTaken h.modPort.relamp)
  | drainEnd => exact .guardUnit (h.whenTaken h.endDrain)
  | drainTimeout => exact .guardUnit (h.whenTaken h.discardEgress.faultPort.countPort.endDrain)
  | creditReturn => exact .guardUnit h.modPort.sendEgress.crossAll
  | packetInject => exact h.execPacketInject
  | packetRoute => exact h.execPacketRoute
  | dataPacketReceive => exact h.execDataPacketReceive
  | ack => exact h.execAck
  | packetNack => exact h.execPacketNack
  | fenced => exact h.execFenced
  | ackTimer => exact .next (h.whenTaken h.sendAck)
  | resendTimeout => exact h.execResendTimeout
  | epochRetire => exact h.execEpochRetire
  | caravanOpen => exact h.execCaravanOpen
  | data | ready | done | commit => exact .next h.takeEngine
  | abort => exact h.execAbort
  | statusReq | cycle => exact .next h.takeEngine
  | readyResend => exact h.execReadyResend
  | caravanTimeout => exact h.execCaravanTimeout
  | parkedTimeout => exact .next (h.whenTaken h.elsewhere)
  | workingCopyDone => exact .next (h.whenTaken (.elsewhere (.elsewhere (h.foldl fun _ _ ht => ht.convertBucket))))
  | dramRead => exact .next (h.whenTaken h.controllerRead)
  | dramWrite => exact .next (h.whenTaken (h.foldl fun _ _ ht => ht.writeSector))
  | patrolRead => exact .guardUnit (h.whenTaken h.controllerRead.elsewhere)
  | retirementStart => exact h.execRetirementStart
  | retirementComplete => exact h.execRetirementComplete
  | managementPeriod => exact .next (h.whenTaken h.runPeriod)
  | powerSample mv ma => exact h.execPowerSample (mv := mv) (ma := ma)
  | lockMonitorWindow =>
      exact .next (.ite (.elsewhere (h.foldl fun _ _ ht => ht.pllFails)) (h.foldl fun _ _ ht => ht.pllFails))
  | droop => exact .guardUnit (h.whenTaken h.elsewhere)
  | recalTimeout | lockstepMismatch => exact .next (h.whenTaken h.elsewhere)
  | mcRestartDone => exact .next (h.whenTaken h.elsewhere.bbEvent.sendCurrent)
  | heartbeatLost => exact .next (h.whenTaken (.reportHold (.relampAll (h.elsewhere.foldl fun _ _ ht => ht.smHold))))
  | heartbeatRestored => exact .next (h.whenTaken (h.elsewhere.foldl fun _ _ ht => .ite ht.smFree ht))
  | fibrePowerHold => exact .guardUnit (.ite h.elsewhere h.elsewhere.smHold.relamp.reportHold)
  | safetyTrip => exact .next (h.whenTaken h.tripNow)
  | tripPowerOff => exact .next (h.whenTaken h.enterP4)
  | fuseOpen => exact .next (h.whenTaken (.ite h.elsewhere h.elsewhere.tripNow))
  | tripRestart => exact .next (h.whenTaken (.coldReset (.ite h.elsewhere h)))
  | safetyMonitorFail => exact h.execSafetyMonitorFail
  | safeLoopDriveEnd => exact .next (h.whenTaken h.elsewhere)
  | loopEvent => exact .next (h.whenTaken h.elsewhere.bbEvent.postEvent)
  | loopStuck => exact .next h.elsewhere
  | serviceButton => exact .next (h.whenTaken h.elsewhere.unlockOn)
  | presenceTimeout => exact h.execPresenceTimeout
  | mateChange => exact .next h.elsewhere
  | undervoltage => exact .next (.ite h.elsewhere h.elsewhere.bbEvent.beginTransition)
  | inputRestored => exact .next (.ite h.elsewhere.coldReset h.elsewhere)
  | dStateChange | perstHoldTimeout => exact .guardUnit (h.whenTaken h.modCp.followPower)
  | powerTransitionDone => exact h.execPowerTransitionDone
  | coldReset => exact h.execColdReset
  | warmReset => exact .next (.whenTaken (.ite h.modCp h) (.warmReset (.ite h.modCp h)))
  | quiesceEnd => exact .next (h.whenTaken h.elsewhere)
  | fabricReset => exact .next (h.whenTaken h.takeFabric)
  | portReset => exact .guardUnit (h.whenTaken h.resetPort.followPower)
  | bringupStep => exact h.execBringupStep
  | fwBootTimeout => exact h.execFwBootTimeout
  | windowClose => exact .next (h.whenTaken h.closeWindow)
  | perstRelease => exact .guardUnit (.ite (.ite h.modCp.coldReset h.modCp) h.modCp.followPower)
  | pcieLinkUp => exact .guardUnit (h.whenTaken h.modCp)
  | pilotDetectorPresent => exact .guardUnit h.elsewhere
  | droopRecovery => exact .guardUnit h.elsewhere
  | loopStuckEnd => exact .next (h.whenTaken h.elsewhere)
  | unlockScrubDone => exact h.execUnlockScrubDone
  | smbusAccess => exact .next (h.whenTaken h.smbusRun)
  | jtagDbacc => exact .next (h.whenTaken h.dbacc)

/-- Settles O59: that held ports are dark is one half of `HeldOff`, which every operation of the model keeps: only entering a state
lights a port, and each row that enters one with the data lasers on has checked the line or starts from such a state. -/
theorem heldPortsStayDark : Obligations.HeldPortsStayDark := by
  unfold Obligations.HeldPortsStayDark
  intro s t hten hdark ht
  have h : HeldOff s := ⟨hten.1, hdark⟩
  refine HeldOff.off (s := t) ?_
  cases hq : s.pending with
  | nil =>
    rw [step_nil hq] at ht
    cases ht
    exact h
  | cons i rest =>
    rw [step_cons hq] at ht
    exact HeldOff.exec h.elsewhere i t ht

end Sys2Proof.Machine
end

section
/-!
PROOF. The optical ports as they enter their states: the port itself, what stays of the module beside its ports, and the answers to the
commands that waited (R297 to R303, R480, R556, Table 10.3).
-/

namespace Sys2Proof.Machine

open Sys2Proof

variable {s t u : State} {p : Nat} {new : PState}

/-! ### Beside the ports -/

/-- Beside its ports, the enables of their lasers, its messages and the lamps of the black box's window, nothing of the module has
changed. -/
def BesidePorts (s t : State) : Prop :=
  t = { s with lk := { s.lk with ports := t.lk.ports }, ws := t.ws, sf := { s.sf with mcEnable := t.sf.mcEnable },
               bb := { s.bb with window := t.bb.window } }

namespace BesidePorts

theorem refl (s : State) : BesidePorts s s := rfl

theorem trans (h : BesidePorts s t) (g : BesidePorts t u) : BesidePorts s u := by
  unfold BesidePorts at *
  rw [g, h]

theorem ite {c : Prop} [Decidable c] (h : BesidePorts s t) (g : BesidePorts s u) : BesidePorts s (if c then t else u) := by
  split
  · exact h
  · exact g

/-- A part of the state that none of these is reads as before. -/
theorem keeps {α : Type} (h : BesidePorts s t) (f : State → α)
    (hf : ∀ l w e b, f { s with lk := { s.lk with ports := l }, ws := w, sf := { s.sf with mcEnable := e },
                                bb := { s.bb with window := b } } = f s := by exact fun _ _ _ _ => rfl) : f t = f s := by
  rw [h]
  exact hf ..

end BesidePorts

theorem modPort_beside (s : State) (p : Nat) (f : Port → Port) : BesidePorts s (modPort s p f) := rfl

/-! ### The lamp -/

/-- A port with its lamp brought up to date. -/
def Port.withLamp (v : Port) (shown base : Lamp) (changes : Nat) : Port :=
  { v with lamp := shown, lampBefore := base, lampChanges := changes }

theorem relamp_eq (p : Nat) (s : State) : ∃ a b n w, relamp p s =
    { setPort s p ((getPort s p).withLamp a b n) with bb := { s.bb with window := w } } := by
  unfold relamp
  extract_lets v base shown s1 seen
  by_cases h : shown = .off
  · exact ⟨shown, base, _, s.bb.window, if_pos h⟩
  · exact ⟨shown, base, _, _, if_neg h⟩

theorem relamp_beside (p : Nat) (s : State) : BesidePorts s (relamp p s) := by
  obtain ⟨a, b, n, w, h⟩ := relamp_eq p s
  rw [h]
  rfl

theorem getPort_relamp (hp : p < s.lk.ports.length) :
    ∃ a b n, getPort (relamp p s) p = (getPort s p).withLamp a b n := by
  obtain ⟨a, b, n, w, h⟩ := relamp_eq p s
  refine ⟨a, b, n, ?_⟩
  rw [h]
  exact (getPort_setPort s p p _ hp).trans (if_pos rfl)

/-- A part of a port that is not its lamp reads as before. -/
theorem relamp_keeps {α : Type} (g : Port → α) (hp : p < s.lk.ports.length)
    (hg : ∀ v a b n, g (Port.withLamp v a b n) = g v := by exact fun _ _ _ _ => rfl) :
    g (getPort (relamp p s) p) = g (getPort s p) := by
  obtain ⟨a, b, n, h⟩ := getPort_relamp hp
  rw [h, hg]

/-! ### Entering a state -/

/-- A port as it leaves a state for another: flits that can no longer leave are discarded, each packet counted (R302, R331). -/
def Port.leaving (v : Port) (new : PState) : Port :=
  if (v.state == .active || v.state == .drain) && new != .drain then { v with egress := [], cnt := taddW v.cnt 8 v.egress.length }
  else v

/-- A port whose PORT_RELEASE commands have their answer, as they do in RELEASED and DARK (R556). -/
def Port.answered (v : Port) (new : PState) : Port :=
  if new = .released || new = .dark then { v with waiters := [] } else v

/-- A port that has entered a state, its lamp apart. -/
def Port.entered (v : Port) (new : PState) : Port := ((v.leaving new).entering new).answered new

/-- The answers to the commands that waited at a port that enters a state (R556). -/
def answerWaiters (new : PState) (l : List Nat) (s : State) : State :=
  if new = .released || new = .dark then
    l.foldl (fun st h => postCompletion h (if new = .released then 0 else 0x0400) 0 [] st) s
  else s

theorem setPort_setPort (s : State) (p : Nat) (v w : Port) : setPort (setPort s p v) p w = setPort s p w := by
  simp [setPort]

theorem setPort_getPort (s : State) (p : Nat) : setPort s p (getPort s p) = s := by
  rcases Nat.lt_or_ge p s.lk.ports.length with hp | hp
  · unfold setPort getPort lget
    rw [List.getElem?_eq_getElem hp, Option.getD_some, List.set_getElem_self]
  · exact setPort_absent s p _ hp

theorem discardEgress_eq (hp : p < s.lk.ports.length) : discardEgress p s =
    setPort s p { getPort s p with egress := [], cnt := taddW (getPort s p).cnt 8 (getPort s p).egress.length } := by
  unfold discardEgress countPort
  rw [modPort, getPort_modPort_same hp, modPort, setPort_setPort]

theorem entering_waiters (v : Port) (new : PState) : (v.entering new).waiters = v.waiters := by
  cases new <;> rfl

theorem leaving_waiters (v : Port) (new : PState) : (v.leaving new).waiters = v.waiters := by
  unfold Port.leaving
  split <;> rfl

/-- What completions leave in the waystations does not depend on the rest of the state. -/
theorem foldl_postCompletion_ws (st : Nat) (l : List Nat) (hw : t.ws = s.ws) :
    (l.foldl (fun x h => postCompletion h st 0 [] x) t).ws = (l.foldl (fun x h => postCompletion h st 0 [] x) s).ws := by
  induction l generalizing s t with
  | nil => exact hw
  | cons h r ih =>
    refine ih ?_
    simp only [postCompletion, postUp, enterUp, bumpSeq, mkMsg, nextSeq, hw]

theorem setPort_lk (h : t.lk = s.lk) (v : Port) : (setPort t p v).lk = (setPort s p v).lk := by
  unfold setPort
  rw [h]

/-- Where the links are those with one port written, that port reads as written. -/
theorem getPort_of_lk {v : Port} (hp : p < s.lk.ports.length) (h : t.lk = (setPort s p v).lk) : getPort t p = v := by
  rw [getPort_congr h, getPort_setPort s p p _ hp, if_pos rfl]

theorem modPort_lk {v : Port} (hp : p < s.lk.ports.length) (h : t.lk = (setPort s p v).lk) (f : Port → Port) :
    (modPort t p f).lk = (setPort s p (f v)).lk := by
  rw [modPort, getPort_of_lk hp h, setPort_lk h, setPort_setPort]

/-- Entering another state writes the port, and answers the commands that waited. -/
theorem enterPort_parts (hp : p < s.lk.ports.length) (hne : (getPort s p).state ≠ new) :
    (∃ a b n, (enterPort p new s).lk = (setPort s p (((getPort s p).entered new).withLamp a b n)).lk) ∧
    (enterPort p new s).ws = (answerWaiters new (getPort s p).waiters s).ws := by
  unfold enterPort
  extract_lets old s1 en _ s2 ws s3
  rw [if_neg hne]
  have hs1 : s1.lk = (setPort s p ((getPort s p).leaving new)).lk ∧ s1.ws = s.ws := by
    unfold s1 Port.leaving
    split
    · exact ⟨congrArg State.lk (discardEgress_eq hp), rfl⟩
    · exact ⟨congrArg State.lk (setPort_getPort s p).symm, rfl⟩
  have hs2 : s2.lk = (setPort s p (((getPort s p).leaving new).entering new)).lk := modPort_lk hp hs1.1 fun v => v.entering new
  have hws : ws = (getPort s p).waiters := by
    unfold ws
    rw [getPort_of_lk hp hs2, entering_waiters, leaving_waiters]
  have hs3 : s3.lk = (setPort s p ((getPort s p).entered new)).lk ∧ s3.ws = (answerWaiters new (getPort s p).waiters s).ws := by
    unfold s3 Port.entered Port.answered answerWaiters
    split
    · refine ⟨?_, ?_⟩
      · rw [foldl_postCompletion_lk]
        exact modPort_lk hp hs2 fun v => { v with waiters := [] }
      · rw [hws]
        exact foldl_postCompletion_ws _ _ hs1.2
    · exact ⟨hs2, hs1.2⟩
  obtain ⟨a, b, n, h⟩ := relamp_lk p s3
  refine ⟨⟨a, b, n, ?_⟩, (relamp_ws p s3).trans hs3.2⟩
  rw [h, getPort_of_lk hp hs3.1, setPort_lk hs3.1, setPort_setPort]
  rfl

theorem getPort_enterPort (hp : p < s.lk.ports.length) (hne : (getPort s p).state ≠ new) :
    ∃ a b n, getPort (enterPort p new s) p = ((getPort s p).entered new).withLamp a b n := by
  obtain ⟨⟨a, b, n, h⟩, -⟩ := enterPort_parts hp hne
  exact ⟨a, b, n, getPort_of_lk hp h⟩

/-- A part of a port that entering a state sets, whatever of its queue is discarded. -/
theorem enterPort_reads {α : Type} (g e : Port → α) (hp : p < s.lk.ports.length) (hne : (getPort s p).state ≠ new)
    (henter : ∀ v a b n, g ((Port.entering v new).withLamp a b n) = e v := by exact fun _ _ _ _ => rfl)
    (hwait : ∀ v a b n, g (({ Port.entering v new with waiters := [] } : Port).withLamp a b n) = e v := by exact fun _ _ _ _ => rfl)
    (hdrop : ∀ v : Port, e { v with egress := [], cnt := taddW v.cnt 8 v.egress.length } = e v := by exact fun _ => rfl) :
    g (getPort (enterPort p new s) p) = e (getPort s p) := by
  obtain ⟨a, b, n, h⟩ := getPort_enterPort hp hne
  have hleave : e ((getPort s p).leaving new) = e (getPort s p) := by
    unfold Port.leaving
    split
    · exact hdrop _
    · rfl
  rw [h, ← hleave]
  unfold Port.entered Port.answered
  split
  · exact hwait ..
  · exact henter ..

/-- A part of a port that entering any state leaves alone. -/
theorem enterPort_keeps {α : Type} (g : Port → α) (hp : p < s.lk.ports.length)
    (henter : ∀ v a b n, g ((Port.entering v new).withLamp a b n) = g v := by exact fun _ _ _ _ => rfl)
    (hwait : ∀ v a b n, g (({ Port.entering v new with waiters := [] } : Port).withLamp a b n) = g v := by exact fun _ _ _ _ => rfl)
    (hdrop : ∀ v : Port, g { v with egress := [], cnt := taddW v.cnt 8 v.egress.length } = g v := by exact fun _ => rfl) :
    g (getPort (enterPort p new s) p) = g (getPort s p) := by
  by_cases h : (getPort s p).state = new
  · unfold enterPort
    rw [if_pos h]
  · exact enterPort_reads g g hp h henter hwait hdrop

/-- A port that discards its queue, or not, as it enters a state. -/
theorem enterPort_egress (hp : p < s.lk.ports.length) (hne : (getPort s p).state ≠ new) :
    (getPort (enterPort p new s) p).egress = ((getPort s p).leaving new).egress := by
  obtain ⟨a, b, n, h⟩ := getPort_enterPort hp hne
  rw [h]
  unfold Port.entered Port.answered
  split
  · cases new <;> rfl
  · cases new <;> rfl

theorem sentUp_of_ws (h : t.ws = s.ws) : sentUp t = sentUp s := by
  rw [sentUp, h]
  rfl

/-- Entering another state answers the commands that waited, and sends nothing else. -/
theorem sentUp_enterPort (hp : p < s.lk.ports.length) (hne : (getPort s p).state ≠ new) :
    sentUp (enterPort p new s) = sentUp (answerWaiters new (getPort s p).waiters s) :=
  sentUp_of_ws (enterPort_parts hp hne).2

theorem sentUp_foldl_postCompletion (st : Nat) (l : List Nat) (s : State) :
    sentUp (l.foldl (fun x h => postCompletion h st 0 [] x) s) = sentUp s ++ l.map fun h => Payload.completion h st 0 [] := by
  induction l generalizing s with
  | nil => simp
  | cons h r ih =>
    rw [List.foldl_cons, ih, postCompletion, sentUp_postUp]
    simp

theorem postCompletion_beside (st : Nat) (s : State) (h : Nat) : BesidePorts s (postCompletion h st 0 [] s) := rfl

theorem foldl_beside {α : Type} {f : State → α → State} (hf : ∀ x a, BesidePorts x (f x a)) (l : List α) (s : State) :
    BesidePorts s (l.foldl f s) := by
  induction l generalizing s with
  | nil => exact .refl s
  | cons a r ih => exact (hf s a).trans (ih _)

theorem enterPort_beside (p : Nat) (new : PState) (s : State) : BesidePorts s (enterPort p new s) := by
  unfold enterPort
  extract_lets old s1 en _ s2 ws s3
  have hs1 : BesidePorts s s1 := by
    unfold s1
    split
    · exact rfl
    · exact rfl
  have hs2 : BesidePorts s s2 := hs1.trans rfl
  have hs3 : BesidePorts s s3 := by
    unfold s3
    split
    · exact (hs2.trans (modPort_beside s2 p _)).trans (foldl_beside (postCompletion_beside _) _ _)
    · exact hs2
  exact .ite (.refl s) (hs3.trans (relamp_beside p s3))

end Sys2Proof.Machine
end

section
/-!
PROOF. RAMP, TRAIN, lane grades and lane moves (R301, R304, R306 to R308, Tables 10.3, 10.4, 10.13).
-/

namespace Sys2Proof.Machine

open Sys2Proof

variable {s : State} {p : Nat}

/-! ### Rows of a port -/

/-- A row whose unit exists answers the state behind its guard. -/
theorem answers_of_guard {i : Instr} {c : Prop} [Decidable c] {t : State} {P : State → Prop}
    (h : exec i s = guardUnit (decide c) t) (hc : c) (ht : P t) : Answers i s P :=
  ⟨t, by rw [h, decide_eq_true hc, guardUnit_true], ht⟩

theorem whenTaken_pos {c : Bool} (h : c = true) (f : State → State) : whenTaken c f s = f s := by
  rw [h, whenTaken_true]

theorem whenTaken_neg {c : Bool} (h : c = false) (f : State → State) : whenTaken c f s = s := by
  rw [h, whenTaken_false]

theorem TenPorts.lt (h : TenPorts s) (hp : p < 10) : p < s.lk.ports.length := h.1 ▸ hp

theorem TenPorts.lanes_length (h : TenPorts s) (hp : p < 10) : (getPort s p).lanes.length = 20 := by
  have hlt := h.lt hp
  unfold getPort lget
  rw [List.getElem?_eq_getElem hlt]
  exact h.2 _ (List.getElem_mem hlt)

/-! ### Failing -/

/-- A step that fails leaves FAULT, with the bit that says why (Table 10.3). -/
theorem failPort_state (hp : p < s.lk.ports.length) (bit : Nat) : (getPort (failPort p bit s) p).state = .fault :=
  (enterPort_enters p .fault _).state (by rw [faultPort, (modPort_actsOnPort s p _).1.count]; exact hp)

theorem failPort_keeps {α : Type} (g : Port → α) (hp : p < s.lk.ports.length) (bit : Nat)
    (hfault : ∀ (v : Port) w, g { v with fault := w } = g v := by exact fun _ _ => rfl)
    (henter : ∀ v a b n, g ((Port.entering v .fault).withLamp a b n) = g v := by exact fun _ _ _ _ => rfl)
    (hwait : ∀ v a b n, g (({ Port.entering v .fault with waiters := [] } : Port).withLamp a b n) = g v := by exact fun _ _ _ _ => rfl)
    (hdrop : ∀ v : Port, g { v with egress := [], cnt := taddW v.cnt 8 v.egress.length } = g v := by exact fun _ => rfl) :
    g (getPort (failPort p bit s) p) = g (getPort s p) := by
  unfold failPort
  rw [enterPort_keeps g (by rw [faultPort, (modPort_actsOnPort s p _).1.count]; exact hp) henter hwait hdrop, faultPort,
    getPort_modPort_same hp]
  exact hfault ..

theorem failPort_fault (hp : p < s.lk.ports.length) {bit : Nat} (hb : bit < 32) :
    (getPort (failPort p bit s) p).fault.getLsbD bit = true := by
  unfold failPort
  rw [enterPort_keeps Port.fault (by rw [faultPort, (modPort_actsOnPort s p _).1.count]; exact hp), faultPort,
    getPort_modPort_same hp, BitVec.getLsbD_or, getLsbD_ofNat_two_pow hb, decide_eq_true rfl, Bool.or_true]

theorem failPort_txMove (hp : p < s.lk.ports.length) (bit : Nat) (h : (getPort s p).txMove = none) :
    (getPort (failPort p bit s) p).txMove = none := by
  have hf : getPort (faultPort p bit s) p = _ := getPort_modPort_same hp _
  have hl : p < (faultPort p bit s).lk.ports.length := by rw [faultPort, (modPort_actsOnPort s p _).1.count]; exact hp
  unfold failPort
  by_cases hs : (getPort (faultPort p bit s) p).state = .fault
  · unfold enterPort
    rw [if_pos hs, hf]
    exact h
  · exact enterPort_reads Port.txMove (fun _ => none) hl hs

/-! ### Grades -/

theorem gradeOf_le (m : LaneMeasure) : gradeOf m ≤ 7 := by
  unfold gradeOf
  split
  · omega
  · split
    · omega
    · omega

theorem gradeOf_unlocked {m : LaneMeasure} (h : m.locked = false) : gradeOf m = 0 := by
  unfold gradeOf
  rw [h]
  rfl

theorem gradeOf_worst {m : LaneMeasure} (hl : m.locked = true) (h : m.symbols < m.errors * 10 ^ 3) : gradeOf m = 1 := by
  have hnone : (List.range 6).find? (fun k => decide (m.errors * 10 ^ (8 - k) ≤ m.symbols)) = none := by
    refine List.find?_eq_none.2 fun k hk => ?_
    have hpow : m.errors * 10 ^ 3 ≤ m.errors * 10 ^ (8 - k) :=
      Nat.mul_le_mul_left _ (Nat.pow_le_pow_right (by omega) (by have := List.mem_range.1 hk; omega))
    simp only [decide_eq_true_eq]
    omega
  unfold gradeOf
  rw [hl, hnone]
  rfl

/-- The grade of Table 10.4 is the highest whose ratio of errors to symbols is met. -/
theorem gradeOf_met {m : LaneMeasure} (hl : m.locked = true) {k : Nat} (hk : k < 6) (hmet : m.errors * 10 ^ (3 + k) ≤ m.symbols)
    (hnext : k = 5 ∨ m.symbols < m.errors * 10 ^ (4 + k)) : gradeOf m = 2 + k := by
  have hfind : (List.range 6).find? (fun j => decide (m.errors * 10 ^ (8 - j) ≤ m.symbols)) = some (5 - k) := by
    rw [List.find?_range_eq_some]
    refine ⟨?_, List.mem_range.2 (by omega), fun j hj => ?_⟩
    · rw [show 8 - (5 - k) = 3 + k by omega]
      exact decide_eq_true hmet
    · have hlt := hnext.resolve_left (by omega)
      have hpow : m.errors * 10 ^ (4 + k) ≤ m.errors * 10 ^ (8 - j) :=
        Nat.mul_le_mul_left _ (Nat.pow_le_pow_right (by omega) (by omega))
      simp only [Bool.not_eq_true', decide_eq_false_iff_not]
      omega
  unfold gradeOf
  rw [hl, hfind]
  show 7 - (5 - k) = 2 + k
  omega

/-! ### Lanes by number -/

theorem getD_zip_range_map {α β : Type} (f : Nat × α → β) (l : List α) {i : Nat} (hi : i < l.length) (d : α) (e : β) :
    (((List.range l.length).zip l).map f).getD i e = f (i, l.getD i d) := by
  simp [List.getD, hi]

theorem getD_gradeLanes (g : List Nat) (l : List Lane) {i : Nat} (hi : i < l.length) : (gradeLanes g l).getD i Lane.reset =
    let x := Nat.min 7 (g.getD i 0)
    let v := l.getD i Lane.reset
    { v with grade := x, worst := Nat.min v.worst x, low := if x ≤ 2 then v.low + 1 else 0 } :=
  getD_zip_range_map _ l hi Lane.reset Lane.reset

theorem grade_getD_le (measured : List LaneMeasure) (i : Nat) : (measured.map gradeOf).getD i 0 ≤ 7 := by
  rw [List.getD, List.getElem?_map]
  cases measured[i]? with
  | none => simp
  | some m => exact gradeOf_le m

theorem getD_roleLanes (act : List Nat) (l : List Lane) {i : Nat} (hi : i < l.length) :
    ((roleLanes act l).getD i Lane.reset).role = if i ∈ act then (act.filter fun j => decide (j < i)).length else 16 := by
  unfold roleLanes
  rw [getD_zip_range_map _ l hi Lane.reset Lane.reset]
  simp only [List.contains_iff_mem]
  split <;> rfl

/-! ### The lanes taken (R306) -/

theorem laneBefore_iff {g : List Nat} {i j : Nat} : laneBefore g i j = true ↔
    lget 0 g j < lget 0 g i ∨ lget 0 g i = lget 0 g j ∧ i < j := by
  simp [laneBefore]

/-- How many of the 20 lanes come before a lane. -/
def laneRank (g : List Nat) (i : Nat) : Nat := ((List.range 20).filter fun j => laneBefore g j i).length

/-- A lane that comes before another has fewer before it. -/
theorem laneRank_lt {g : List Nat} {i j : Nat} (hi : i < 20) (h : laneBefore g i j = true) : laneRank g i < laneRank g j := by
  have hsub : (i :: (List.range 20).filter fun k => laneBefore g k i) ⊆ (List.range 20).filter fun k => laneBefore g k j := by
    intro k hk
    rcases List.mem_cons.1 hk with rfl | hk
    · exact List.mem_filter.2 ⟨List.mem_range.2 hi, h⟩
    · obtain ⟨hr, hb⟩ := List.mem_filter.1 hk
      refine List.mem_filter.2 ⟨hr, ?_⟩
      rw [laneBefore_iff] at h hb ⊢
      omega
  have hnot : i ∉ (List.range 20).filter fun k => laneBefore g k i := fun hm => by
    have := laneBefore_iff.1 (List.mem_filter.1 hm).2
    omega
  exact (List.nodup_cons.2 ⟨hnot, List.nodup_range.filter _⟩).length_le_of_subset hsub

theorem laneRank_injOn (g : List Nat) {i j : Nat} (hi : i < 20) (hj : j < 20) (h : laneRank g i = laneRank g j) : i = j := by
  by_contra hne
  have htotal : laneBefore g i j = true ∨ laneBefore g j i = true := by
    rw [laneBefore_iff, laneBefore_iff]
    omega
  rcases htotal with hb | hb
  · exact absurd (laneRank_lt hi hb) (by omega)
  · exact absurd (laneRank_lt hj hb) (by omega)

/-- Those taken have fewer than 16 before them, so that they are 16 at most. -/
theorem takeLanes_length_le (g : List Nat) : (takeLanes g).length ≤ 16 := by
  have hmem : ∀ i ∈ takeLanes g, i < 20 ∧ laneRank g i < 16 := fun i hi => by
    obtain ⟨hr, hb⟩ := List.mem_filter.1 hi
    simp only [Bool.and_eq_true, decide_eq_true_eq] at hb
    exact ⟨List.mem_range.1 hr, hb.2⟩
  have hnodup : ((takeLanes g).map (laneRank g)).Nodup :=
    (List.nodup_range.filter _).map_on fun i hi j hj h => laneRank_injOn g (hmem i hi).1 (hmem j hj).1 h
  have hsub : (takeLanes g).map (laneRank g) ⊆ List.range 16 := fun r hr => by
    obtain ⟨i, hi, rfl⟩ := List.mem_map.1 hr
    exact List.mem_range.2 (hmem i hi).2
  simpa using hnodup.length_le_of_subset hsub

/-- After training the lanes taken carry logical numbers, and no others. -/
theorem role_roleLanes_lt_iff (g : List Nat) (l : List Lane) {i : Nat} (hi : i < l.length) :
    ((roleLanes (takeLanes g) l).getD i Lane.reset).role < 16 ↔ i ∈ takeLanes g := by
  rw [getD_roleLanes _ _ hi]
  split
  next hm =>
    refine ⟨fun _ => hm, fun _ => ?_⟩
    have hlt : ((takeLanes g).filter fun j => decide (j < i)).length < (takeLanes g).length := by
      refine List.length_filter_lt_length_iff_exists.2 ⟨i, hm, ?_⟩
      simp
    exact lt_of_lt_of_le hlt (takeLanes_length_le g)
  next hm => exact ⟨fun h => absurd h (by omega), fun h => absurd h hm⟩

/-! ### RAMP_DONE and TRAIN_DONE -/

/-- The state in which the lanes of a port have their grades. -/
def graded (p : Nat) (g : List Nat) (s : State) : State := modPort s p fun v => { v with lanes := gradeLanes g v.lanes }

theorem exec_rampDone (hp : p < 10) (h : (getPort s p).state = .ramp) (measured : List LaneMeasure) :
    exec (.rampDone p measured) s = .next (if goodCount (measured.map gradeOf) < 16 then
      failPort p 1 (graded p (measured.map gradeOf) s) else enterPort p .train (graded p (measured.map gradeOf) s)) := by
  show guardUnit (decide (p < 10)) (whenTaken ((getPort s p).state == .ramp) _ s) = _
  rw [decide_eq_true hp, guardUnit_true, whenTaken_pos (by rw [h]; rfl)]
  rfl

theorem postEvent_lk (code : Nat) (l : List W64) (s : State) : (postEvent code l s).lk = s.lk := by
  unfold postEvent
  rw [traceRec_onlyDb, eventOn_onlyCp, eventOn_onlyCp]

/-- The state in which, moreover, the lanes taken have their logical numbers. -/
def trained (p : Nat) (g : List Nat) (s : State) : State :=
  modPort (graded p g s) p fun v => { v with lanes := roleLanes (takeLanes g) v.lanes }

theorem getPort_graded (hp : p < s.lk.ports.length) (g : List Nat) :
    getPort (graded p g s) p = { getPort s p with lanes := gradeLanes g (getPort s p).lanes } := getPort_modPort_same hp _

theorem length_graded (p : Nat) (g : List Nat) (s : State) : (graded p g s).lk.ports.length = s.lk.ports.length :=
  (modPort_actsOnPort s p _).1.count

theorem getPort_trained (hp : p < s.lk.ports.length) (g : List Nat) : getPort (trained p g s) p =
    { getPort s p with lanes := roleLanes (takeLanes g) (gradeLanes g (getPort s p).lanes) } := by
  rw [trained, getPort_modPort_same (by rw [length_graded]; exact hp), getPort_graded hp]

theorem exec_trainDone (hp : p < 10) (hl : p < s.lk.ports.length) (h : (getPort s p).state = .train) (measured : List LaneMeasure) :
    exec (.trainDone p measured) s = .next (if goodCount (measured.map gradeOf) < 16 then
      failPort p 1 (graded p (measured.map gradeOf) s)
    else if (getPort s p).autoAdmit && (getPort s p).lastId == some ((getPort s p).farRank, (getPort s p).farPort, (getPort s p).dir) then
      enterPort p .active (trained p (measured.map gradeOf) s)
    else postEvent 0x8001 [BitVec.ofNat 64 (p + (getPort s p).farRank * 65536)]
      (enterPort p .ready (trained p (measured.map gradeOf) s))) := by
  show guardUnit (decide (p < 10)) (whenTaken ((getPort s p).state == .train) _ s) = _
  rw [decide_eq_true hp, guardUnit_true, whenTaken_pos (by rw [h]; rfl)]
  have hv := getPort_trained hl (measured.map gradeOf)
  unfold trained graded at hv ⊢
  dsimp only
  rw [hv]

theorem rampDone_answers (hs : TenPorts s) (hp : p < 10) (h : (getPort s p).state = .ramp) (measured : List LaneMeasure) :
    let g := measured.map gradeOf
    Answers (.rampDone p measured) s fun t => OnlyPort p s t ∧
      (16 ≤ goodCount g → (getPort t p).state = .train ∧ ∀ i, i < 20 →
        ((getPort t p).lanes.getD i Lane.reset).grade = g.getD i 0) ∧
      (goodCount g < 16 → (getPort t p).state = .fault ∧ (getPort t p).fault.getLsbD 1 = true) := by
  intro g
  have hl := hs.lt hp
  have hlg : p < (graded p g s).lk.ports.length := by rw [length_graded]; exact hl
  have honly : OnlyPort p s (graded p g s) := (modPort_actsOnPort s p _).2
  refine ⟨_, exec_rampDone hp h measured, ?_⟩
  by_cases hgood : goodCount g < 16
  · rw [if_pos hgood]
    exact ⟨((modPort_actsOnPort s p _).trans (failPort_actsOnPort p 1 _)).2, fun hn => absurd hn (by omega),
      fun _ => ⟨failPort_state hlg 1, failPort_fault hlg (by decide)⟩⟩
  · rw [if_neg hgood]
    have hin := enterPort_enters p .train (graded p g s)
    refine ⟨((modPort_actsOnPort s p _).trans hin.acts).2, fun _ => ⟨hin.state hlg, fun i hi => ?_⟩, fun hn => absurd hn hgood⟩
    have hne : (getPort (graded p g s) p).state ≠ .train := by rw [getPort_graded hl, h]; nofun
    rw [enterPort_reads Port.lanes Port.lanes hlg hne, getPort_graded hl, getD_gradeLanes _ _ (by rw [hs.lanes_length hp]; exact hi)]
    exact Nat.min_eq_right (grade_getD_le measured i)

theorem trainDone_answers (hs : TenPorts s) (hp : p < 10) (h : (getPort s p).state = .train) (measured : List LaneMeasure) :
    let g := measured.map gradeOf
    let v := getPort s p
    let same := v.lastId = some (v.farRank, v.farPort, v.dir)
    Answers (.trainDone p measured) s fun t => OnlyPort p s t ∧
      (goodCount g < 16 → (getPort t p).state = .fault ∧ (getPort t p).fault.getLsbD 1 = true) ∧
      (16 ≤ goodCount g → v.autoAdmit = true → same → (getPort t p).state = .active) ∧
      (16 ≤ goodCount g → (v.autoAdmit = false ∨ ¬ same) → (getPort t p).state = .ready) ∧
      (16 ≤ goodCount g → ∀ i, i < 20 → (((getPort t p).lanes.getD i Lane.reset).role < 16 ↔ i ∈ takeLanes g)) := by
  intro g v same
  have hl := hs.lt hp
  have hlg : p < (graded p g s).lk.ports.length := by rw [length_graded]; exact hl
  have hacts : ActsOnPort p s (trained p g s) := (modPort_actsOnPort s p _).trans (modPort_actsOnPort _ p _)
  have hlt : p < (trained p g s).lk.ports.length := by rw [hacts.1.count]; exact hl
  have hin : ∀ new, (getPort (enterPort p new (trained p g s)) p).state = new := fun new => (enterPort_enters p new _).state hlt
  have honly : ∀ new, OnlyPort p s (enterPort p new (trained p g s)) := fun new => (hacts.trans (enterPort_actsOnPort ..)).2
  have hroles : ∀ i, i < 20 → (((getPort (trained p g s) p).lanes.getD i Lane.reset).role < 16 ↔ i ∈ takeLanes g) := by
    intro i hi
    rw [getPort_trained hl]
    exact role_roleLanes_lt_iff g _ (by rw [length_gradeLanes, hs.lanes_length hp]; exact hi)
  have htrain : (getPort (trained p g s) p).state = .train := by rw [getPort_trained hl]; exact h
  refine ⟨_, exec_trainDone hp hl h measured, ?_⟩
  by_cases hgood : goodCount g < 16
  · rw [if_pos hgood]
    exact ⟨((modPort_actsOnPort s p _).trans (failPort_actsOnPort p 1 _)).2,
      fun _ => ⟨failPort_state hlg 1, failPort_fault hlg (by decide)⟩, fun hn => absurd hgood (by omega),
      fun hn => absurd hgood (by omega), fun hn => absurd hgood (by omega)⟩
  · rw [if_neg hgood]
    by_cases hadmit : v.autoAdmit = true ∧ same
    · rw [if_pos (by simpa [v, same] using hadmit)]
      have hlanes := enterPort_reads Port.lanes Port.lanes hlt (new := .active) (by rw [htrain]; nofun)
      refine ⟨honly _, fun hn => absurd hn hgood, fun _ _ _ => hin _, fun _ hno => ?_, fun _ => ?_⟩
      · rcases hno with hno | hno
        · exact absurd (hadmit.1.symm.trans hno) (by decide)
        · exact absurd hadmit.2 hno
      · rw [hlanes]
        exact hroles
    · rw [if_neg (by simpa [v, same] using hadmit)]
      have hlanes := enterPort_reads Port.lanes Port.lanes hlt (new := .ready) (by rw [htrain]; nofun)
      have hpost : ∀ q, getPort (postEvent 0x8001 [BitVec.ofNat 64 (p + v.farRank * 65536)] (enterPort p .ready (trained p g s))) q =
          getPort (enterPort p .ready (trained p g s)) q := fun q => getPort_congr (postEvent_lk ..) q
      refine ⟨fun q hq => (hpost q).trans (honly .ready q hq), fun hn => absurd hn hgood,
        fun _ ha hsame => absurd ⟨ha, hsame⟩ hadmit, fun _ _ => ?_, fun _ => ?_⟩
      · rw [hpost]
        exact hin _
      · rw [hpost, hlanes]
        exact hroles

/-! ### Lane moves (R308) -/

/-- After a move the port asks for another, or fails when a lane that must move has no spare, or stands as it is. -/
theorem moveLanes_cases (p : Nat) (s : State) : moveLanes p s = s ∨
    (∃ m, moveLanes p s = modPort s p fun u => { u with move := m }) ∨ moveLanes p s = failPort p 2 s := by
  unfold moveLanes
  extract_lets v
  split
  · exact .inl rfl
  · split
    · exact .inl rfl
    · split
      · exact .inr (.inl ⟨_, rfl⟩)
      · split
        · exact .inr (.inr rfl)
        · exact .inl rfl

theorem moveLanes_actsOnPort (p : Nat) (s : State) : ActsOnPort p s (moveLanes p s) := by
  rcases moveLanes_cases p s with h | ⟨m, h⟩ | h
  · rw [h]; exact .refl p s
  · rw [h]; exact modPort_actsOnPort s p _
  · rw [h]; exact failPort_actsOnPort p 2 s

/-- A part of a port that neither the move asked for nor FAULT changes. -/
theorem moveLanes_keeps {α : Type} (g : Port → α) (hp : p < s.lk.ports.length)
    (hmove : ∀ (v : Port) m, g { v with move := m } = g v := by exact fun _ _ => rfl)
    (hfault : ∀ (v : Port) w, g { v with fault := w } = g v := by exact fun _ _ => rfl)
    (henter : ∀ v a b n, g ((Port.entering v .fault).withLamp a b n) = g v := by exact fun _ _ _ _ => rfl)
    (hwait : ∀ v a b n, g (({ Port.entering v .fault with waiters := [] } : Port).withLamp a b n) = g v := by exact fun _ _ _ _ => rfl)
    (hdrop : ∀ v : Port, g { v with egress := [], cnt := taddW v.cnt 8 v.egress.length } = g v := by exact fun _ => rfl) :
    g (getPort (moveLanes p s) p) = g (getPort s p) := by
  rcases moveLanes_cases p s with h | ⟨m, h⟩ | h
  · rw [h]
  · rw [h, getPort_modPort_same hp, hmove]
  · rw [h, failPort_keeps g hp 2 hfault henter hwait hdrop]

/-- A part of a port that a move asked for leaves alone, unless the port has failed. -/
theorem moveLanes_keeps_unless_fault {α : Type} (g : Port → α) (hp : p < s.lk.ports.length)
    (hmove : ∀ (v : Port) m, g { v with move := m } = g v := by exact fun _ _ => rfl) :
    (getPort (moveLanes p s) p).state ≠ .fault → g (getPort (moveLanes p s) p) = g (getPort s p) := by
  intro hf
  rcases moveLanes_cases p s with h | ⟨m, h⟩ | h
  · rw [h]
  · rw [h, getPort_modPort_same hp, hmove]
  · rw [h] at hf
    exact absurd (failPort_state hp 2) hf

/-- A dark lane keeps everything but its role. -/
theorem darkLanes_keeps {α : Type} (f : Lane → α) (l : List Lane) (i : Nat)
    (hf : ∀ (x : Lane) r, f { x with role := r } = f x := by exact fun _ _ => rfl) :
    f ((darkLanes l).getD i Lane.reset) = f (l.getD i Lane.reset) := by
  unfold darkLanes
  rw [List.getD, List.getD, List.getElem?_map]
  cases l[i]? with
  | none => rfl
  | some x =>
    show f (if x.role = 17 then x else { x with role := 18 }) = f x
    split
    · rfl
    · exact hf x 18

/-- What a move asked for and FAULT leave of a lane. -/
theorem moveLanes_lane {α : Type} (f : Lane → α) (hp : p < s.lk.ports.length) (i : Nat)
    (hf : ∀ (x : Lane) r, f { x with role := r } = f x := by exact fun _ _ => rfl) :
    f ((getPort (moveLanes p s) p).lanes.getD i Lane.reset) = f ((getPort s p).lanes.getD i Lane.reset) :=
  moveLanes_keeps (fun v => f (v.lanes.getD i Lane.reset)) hp (henter := fun v _ _ _ => darkLanes_keeps f v.lanes i hf)
    (hwait := fun v _ _ _ => darkLanes_keeps f v.lanes i hf)

/-- A port after an interval of measures: its lanes' grades and its error counters (R307, R308). -/
def Port.interval (v : Port) (grades fixed : List Nat) (bad : Nat) : Port :=
  { v with lanes := gradeLanes grades v.lanes,
           fec := (List.range 20).foldl (fun t i => tadd t i (lget 0 fixed i)) v.fec,
           uncorr := v.uncorr + BitVec.ofNat 32 bad,
           cnt := taddW (taddW v.cnt 2 (fixed.foldl (· + ·) 0)) 3 bad }

theorem laneGradeInterval_answers (hs : TenPorts s) (hp : p < 10) (measured : List LaneMeasure) (fixed : List Nat) (bad : Nat) :
    let g := measured.map gradeOf
    let v := getPort s p
    let lane := fun (u : State) (i : Nat) => (getPort u p).lanes.getD i Lane.reset
    Answers (.laneGradeInterval p measured fixed bad) s fun t => OnlyPort p s t ∧
      (∀ i, i < 20 → (lane t i).grade = g.getD i 0 ∧ (lane t i).worst = Min.min (lane s i).worst (g.getD i 0) ∧
        (lane t i).low = if g.getD i 0 ≤ 2 then (lane s i).low + 1 else 0) ∧
      tget 0 (getPort t p).cnt 3 = tget 0 v.cnt 3 + BitVec.ofNat 64 bad ∧
      (getPort t p).uncorr = v.uncorr + BitVec.ofNat 32 bad := by
  intro g v lane
  have hl := hs.lt hp
  set s1 := modPort s p fun u => u.interval g fixed bad
  have hacts : ActsOnPort p s s1 := modPort_actsOnPort s p _
  have hl1 : p < s1.lk.ports.length := by rw [hacts.1.count]; exact hl
  have hv1 : getPort s1 p = v.interval g fixed bad := getPort_modPort_same hl _
  refine answers_of_guard (t := moveLanes p s1) rfl hp ⟨(hacts.trans (moveLanes_actsOnPort p s1)).2, fun i hi => ?_, ?_, ?_⟩
  · have hlane : (getPort s1 p).lanes.getD i Lane.reset = (gradeLanes g v.lanes).getD i Lane.reset := by rw [hv1]; rfl
    rw [getD_gradeLanes g v.lanes (by rw [hs.lanes_length hp]; exact hi)] at hlane
    have hmin : Nat.min 7 (g.getD i 0) = g.getD i 0 := Nat.min_eq_right (grade_getD_le measured i)
    refine ⟨?_, ?_, ?_⟩
    · rw [moveLanes_lane Lane.grade hl1, hlane]
      exact hmin
    · rw [moveLanes_lane Lane.worst hl1, hlane]
      exact congrArg (Nat.min _) hmin
    · rw [moveLanes_lane Lane.low hl1, hlane]
      dsimp only
      rw [hmin]
  · rw [moveLanes_keeps (fun v => tget 0 v.cnt 3) hl1 (hdrop := fun _ => by simp [taddW]), hv1]
    simp [taddW, Port.interval, v]
  · rw [moveLanes_keeps Port.uncorr hl1, hv1]
    rfl

/-- A port at the marker that ends the moves of both sides: lane `n` takes logical lane `m` (R308). -/
def Port.switched (v : Port) (m n : Nat) : Port :=
  { v with
    lanes := ((List.range v.lanes.length).zip v.lanes).map fun e =>
      if e.1 = n then { e.2 with role := m, moves := Nat.min 65535 (e.2.moves + 1), low := 0 }
      else if e.2.role = m then { e.2 with role := 17, low := 0 }
      else e.2,
    move := none, cnt := taddW v.cnt 6 1, txMove := none,
    txLanes := match v.txMove with
      | some (m, t) => v.txLanes.set m t
      | none => v.txLanes }

theorem exec_laneMoveSwitch (hl : p < s.lk.ports.length) (hp : p < 10) {m n : Nat} (hm : (getPort s p).move = some (m, n)) :
    ∃ s1, exec (.laneMoveSwitch p) s = .next (moveLanes p s1) ∧ s1.lk = (setPort s p ((getPort s p).switched m n)).lk := by
  show ∃ s1, guardUnit (decide (p < 10)) _ = _ ∧ _
  rw [decide_eq_true hp, guardUnit_true]
  refine ⟨_, rfl, ?_⟩
  refine modPort_lk (v := { (getPort s p).switched m n with txMove := (getPort s p).txMove, txLanes := (getPort s p).txLanes }) hl ?_ _
  rw [hm]
  dsimp only
  have hlk : ∀ l, (countPort p 6 1 (modPort s p fun u => { u with lanes := l, move := none })).lk =
      (setPort s p { getPort s p with lanes := l, move := none, cnt := taddW (getPort s p).cnt 6 1 }).lk := fun l =>
    modPort_lk hl rfl _
  split
  · exact hlk _
  · exact hlk _

theorem laneMoveSwitch_answers (hs : TenPorts s) (hp : p < 10) {m n : Nat} (hmove : (getPort s p).move = some (m, n)) (hn : n < 20) :
    let v := getPort s p
    let lane := fun (u : State) (i : Nat) => (getPort u p).lanes.getD i Lane.reset
    Answers (.laneMoveSwitch p) s fun t => OnlyPort p s t ∧ (getPort t p).txMove = none ∧
      (lane t n).moves = Min.min 65535 ((lane s n).moves + 1) ∧
      ((getPort t p).state ≠ .fault → (lane t n).role = m ∧
        (∀ i, i < 20 → i ≠ n → (lane t i).role = if (lane s i).role = m then 17 else (lane s i).role) ∧
        (getPort t p).txLanes = (match v.txMove with
          | some (x, y) => v.txLanes.set x y
          | none => v.txLanes)) := by
  intro v lane
  have hl := hs.lt hp
  obtain ⟨s1, hexec, hlk⟩ := exec_laneMoveSwitch hl hp hmove
  have hl1 : p < s1.lk.ports.length := by rw [hlk, setPort_length]; exact hl
  have hv1 := getPort_of_lk hl hlk
  have honly : OnlyPort p s (moveLanes p s1) := fun q hq => by
    rw [(moveLanes_actsOnPort p s1).2 q hq, getPort_congr hlk, getPort_setPort s p q _ hl, if_neg hq]
  have hlane : ∀ i, i < 20 → (getPort s1 p).lanes.getD i Lane.reset =
      if i = n then { lane s i with role := m, moves := Nat.min 65535 ((lane s i).moves + 1), low := 0 }
      else if (lane s i).role = m then { lane s i with role := 17, low := 0 } else lane s i := fun i hi => by
    rw [hv1]
    exact getD_zip_range_map _ v.lanes (by rw [hs.lanes_length hp]; exact hi) Lane.reset Lane.reset
  refine ⟨_, hexec, honly, ?_, ?_, fun hf => ?_⟩
  · rcases moveLanes_cases p s1 with h | ⟨x, h⟩ | h
    · rw [h, hv1]
      rfl
    · rw [h, getPort_modPort_same hl1, hv1]
      rfl
    · rw [h]
      exact failPort_txMove hl1 2 (by rw [hv1]; rfl)
  · refine (moveLanes_lane Lane.moves hl1 n).trans ?_
    rw [hlane n hn, if_pos rfl]
  · have hkeep : ∀ {α : Type} (g : Port → α), (∀ (v : Port) m, g { v with move := m } = g v) →
        g (getPort (moveLanes p s1) p) = g (getPort s1 p) := fun g hg => moveLanes_keeps_unless_fault g hl1 hg hf
    refine ⟨?_, fun i hi hin => ?_, ?_⟩
    · refine (congrArg (fun l => (l.getD n Lane.reset).role) (hkeep Port.lanes fun _ _ => rfl)).trans ?_
      rw [hlane n hn, if_pos rfl]
    · refine (congrArg (fun l => (l.getD i Lane.reset).role) (hkeep Port.lanes fun _ _ => rfl)).trans ?_
      rw [hlane i hi, if_neg hin]
      split <;> rfl
    · rw [hkeep Port.txLanes fun _ _ => rfl, hv1]
      rfl

/-- Settles O20: grades by Table 10.4, then the rows of the lanes, each read off the port that it leaves. -/
theorem lanesRampTrainAndMove : Obligations.LanesRampTrainAndMove := by
  unfold Obligations.LanesRampTrainAndMove
  refine ⟨fun m => ⟨gradeOf_unlocked, gradeOf_worst, fun hl k => gradeOf_met hl⟩, ?_, ?_⟩
  · intro s p measured hs hp
    exact ⟨fun h => rampDone_answers hs hp h measured, fun h => trainDone_answers hs hp h measured⟩
  · intro s p measured fixed bad hs hp
    exact ⟨laneGradeInterval_answers hs hp measured fixed bad,
      fun m n _ hmove _ hn _ => laneMoveSwitch_answers hs hp hmove hn⟩

end Sys2Proof.Machine
end

section
/-!
PROOF. Pilot frames, pilot detectors and the loss of the pilot (R297 to R299, R464, Tables 10.2, 10.3).
-/

namespace Sys2Proof.Machine

open Sys2Proof

variable {s t u : State} {p : Nat} {new : PState} {f : PilotFrame}

/-! ### A port's part through the operations on it -/

theorem getPort_absent (h : s.lk.ports.length ≤ p) : getPort s p = getPort State.reset 10 := by
  unfold getPort lget
  rw [List.getElem?_eq_none h]
  rfl

/-- An operation that leaves the number of ports leaves an absent port absent. -/
theorem ActsOnPort.absent (h : ActsOnPort p s t) (hp : s.lk.ports.length ≤ p) : getPort t p = getPort s p := by
  rw [getPort_absent hp, getPort_absent (by rw [h.1.count]; exact hp)]

theorem ActsOnPort.lineHeld (h : ActsOnPort p s t) (ht : (getPort t p).touched = (getPort s p).touched) :
    lineHeld t p = lineHeld s p := by
  rw [Machine.lineHeld, Machine.lineHeld, ht, h.1.ws]

/-- A part of a port that entering a state leaves alone, whether the port is there or not. -/
theorem enterPort_leaves {α : Type} (g : Port → α) (p : Nat) (new : PState) (s : State)
    (henter : ∀ v a b n, g ((Port.entering v new).withLamp a b n) = g v := by exact fun _ _ _ _ => rfl)
    (hwait : ∀ v a b n, g (({ Port.entering v new with waiters := [] } : Port).withLamp a b n) = g v := by exact fun _ _ _ _ => rfl)
    (hdrop : ∀ v : Port, g { v with egress := [], cnt := taddW v.cnt 8 v.egress.length } = g v := by exact fun _ => rfl) :
    g (getPort (enterPort p new s) p) = g (getPort s p) := by
  rcases Nat.lt_or_ge p s.lk.ports.length with hp | hp
  · exact enterPort_keeps g hp henter hwait hdrop
  · exact congrArg g ((enterPort_actsOnPort p new s).absent hp)

theorem entering_frameCount (v : Port) (new : PState) : (v.entering new).frameCount = v.frameCount := by
  cases new <;> rfl

theorem enterPort_frameCount (p : Nat) (new : PState) (s : State) :
    (getPort (enterPort p new s) p).frameCount = (getPort s p).frameCount :=
  enterPort_leaves Port.frameCount p new s (fun v _ _ _ => entering_frameCount v new) (fun v _ _ _ => entering_frameCount v new)

theorem enterPort_touched (p : Nat) (new : PState) (s : State) :
    (getPort (enterPort p new s) p).touched = (getPort s p).touched :=
  enterPort_leaves Port.touched p new s (fun v _ _ _ => entering_touched v new) (fun v _ _ _ => entering_touched v new)

theorem lineHeld_enterPort (p : Nat) (new : PState) (s : State) : lineHeld (enterPort p new s) p = lineHeld s p :=
  (enterPort_actsOnPort p new s).lineHeld (enterPort_touched p new s)

theorem faultPort_beside (p bit : Nat) (s : State) : BesidePorts s (faultPort p bit s) := rfl

theorem discardEgress_beside (p : Nat) (s : State) : BesidePorts s (discardEgress p s) := rfl

theorem failPort_beside (p bit : Nat) (s : State) : BesidePorts s (failPort p bit s) :=
  (faultPort_beside p bit s).trans (enterPort_beside p .fault _)

/-! ### PILOT settled (R299) -/

theorem settlePilot_beside (p : Nat) (s : State) : BesidePorts s (settlePilot p s) := by
  unfold settlePilot
  extract_lets _ d
  refine .ite (.refl s) ?_
  clear_value d
  split
  · exact failPort_beside p 0 s
  · exact .ite (((modPort_beside s p _).trans (modPort_beside _ p _)).trans (enterPort_beside p .ramp _)) (modPort_beside s p _)

theorem settlePilot_frameCount (p : Nat) (s : State) :
    (getPort (settlePilot p s) p).frameCount = (getPort s p).frameCount := by
  unfold settlePilot failPort faultPort
  extract_lets _ d
  clear_value d
  split
  · rfl
  · split
    · rw [enterPort_frameCount, modPort_keeps Port.frameCount]
    · extract_lets s1
      split
      · rw [enterPort_frameCount, modPort_keeps Port.frameCount, modPort_keeps Port.frameCount]
      · exact modPort_keeps Port.frameCount ..

/-- A port in PILOT, of a module that knows its rank, that knows its far identity and not yet its direction. -/
structure SeeksDirection (s : State) (p : Nat) : Prop where
  rank : rankValid s = true
  pilot : (getPort s p).state = .pilot
  far : (getPort s p).farValid = true
  dir : (getPort s p).dir = 0xF

/-- No direction fits the far end: the port is MISCABLED (R299). -/
theorem settlePilot_miscabled (h : SeeksDirection s p)
    (hd : directionFor s p (getPort s p).farRank (getPort s p).farDir = none) : settlePilot p s = failPort p 0 s := by
  unfold settlePilot
  dsimp only
  rw [h.pilot, h.rank, h.far, if_neg (by decide), if_pos h.dir, hd]

/-- The direction that fits is the port's, which ramps where both ends are ready (R299). -/
theorem settlePilot_finds (h : SeeksDirection s p) {d : Nat}
    (hd : directionFor s p (getPort s p).farRank (getPort s p).farDir = some d) : settlePilot p s =
      if dataReady (modPort s p fun x => { x with dir := d }) p && (getPort s p).farReady then
        enterPort p .ramp (modPort (modPort s p fun x => { x with dir := d }) p fun x => { x with autoAdmit := x.fromP3 })
      else modPort s p fun x => { x with dir := d } := by
  unfold settlePilot
  dsimp only
  rw [h.pilot, h.rank, h.far, if_neg (by decide), if_pos h.dir, hd]

/-- The direction found, or MISCABLED (R299). -/
def Directed (s t : State) (p : Nat) : Option Nat → Prop
  | none => (getPort t p).state = .fault ∧ (getPort t p).fault.getLsbD 0 = true
  | some d => (getPort t p).dir = d ∧
      (dataReady s p = true ∧ (getPort s p).farReady = true → (getPort t p).state = .ramp) ∧
      (¬ (dataReady s p = true ∧ (getPort s p).farReady = true) → (getPort t p).state = .pilot)

theorem dataReady_modDir (p d : Nat) (s : State) : dataReady (modPort s p fun x => { x with dir := d }) p = dataReady s p := by
  unfold dataReady
  rw [lineHeld_modPort, modPort_keeps Port.state]
  rfl

theorem settlePilot_directed (hp : p < s.lk.ports.length) (h : SeeksDirection s p) :
    Directed s (settlePilot p s) p (directionFor s p (getPort s p).farRank (getPort s p).farDir) := by
  cases hd : directionFor s p (getPort s p).farRank (getPort s p).farDir with
  | none =>
    rw [settlePilot_miscabled h hd]
    exact ⟨failPort_state hp 0, failPort_fault hp (by decide)⟩
  | some d =>
    rw [settlePilot_finds h hd, dataReady_modDir]
    have hl : p < (modPort (modPort s p fun x => { x with dir := d }) p fun x => { x with autoAdmit := x.fromP3 }).lk.ports.length := by
      rw [(modPort_actsOnPort _ p _).1.count, (modPort_actsOnPort s p _).1.count]
      exact hp
    by_cases hr : dataReady s p = true ∧ (getPort s p).farReady = true
    · rw [if_pos (by rw [hr.1, hr.2]; rfl)]
      refine ⟨?_, fun _ => (enterPort_enters p .ramp _).state hl, fun hn => absurd hr hn⟩
      rw [enterPort_keeps Port.dir hl, modPort_keeps Port.dir, getPort_modPort_same hp]
    · rw [if_neg (by simpa using hr)]
      refine ⟨by rw [getPort_modPort_same hp], fun hy => absurd hy hr, fun _ => ?_⟩
      rw [getPort_modPort_same hp]
      exact h.pilot

/-- The far identity is not the settling's to change. -/
theorem settlePilot_keeps {α : Type} (g : Port → α) (hp : p < s.lk.ports.length) (h : SeeksDirection s p)
    (hfault : ∀ (v : Port) w, g { v with fault := w } = g v := by exact fun _ _ => rfl)
    (hdir : ∀ (v : Port) d, g { v with dir := d } = g v := by exact fun _ _ => rfl)
    (hadmit : ∀ (v : Port), g { v with autoAdmit := v.fromP3 } = g v := by exact fun _ => rfl)
    (henter : ∀ v a b n, g ((Port.entering v .fault).withLamp a b n) = g v := by exact fun _ _ _ _ => rfl)
    (hwait : ∀ v a b n, g (({ Port.entering v .fault with waiters := [] } : Port).withLamp a b n) = g v := by exact fun _ _ _ _ => rfl)
    (hramp : ∀ v a b n, g ((Port.entering v .ramp).withLamp a b n) = g v := by exact fun _ _ _ _ => rfl)
    (hrampWait : ∀ v a b n, g (({ Port.entering v .ramp with waiters := [] } : Port).withLamp a b n) = g v := by exact fun _ _ _ _ => rfl)
    (hdrop : ∀ v : Port, g { v with egress := [], cnt := taddW v.cnt 8 v.egress.length } = g v := by exact fun _ => rfl) :
    g (getPort (settlePilot p s) p) = g (getPort s p) := by
  cases hd : directionFor s p (getPort s p).farRank (getPort s p).farDir with
  | none =>
    rw [settlePilot_miscabled h hd]
    exact failPort_keeps g hp 0 hfault henter hwait hdrop
  | some d =>
    have hg : g (getPort (modPort s p fun x => { x with dir := d }) p) = g (getPort s p) := modPort_keeps g (fun v => hdir v d) p p
    rw [settlePilot_finds h hd]
    split
    · rw [enterPort_leaves g p .ramp _ hramp hrampWait hdrop, modPort_keeps g hadmit, hg]
    · exact hg

/-! ### A frame heard -/

/-- A port that has heard a valid frame (R298, R308, R554). -/
def Port.hears (v : Port) (f : PilotFrame) (changed : Bool) : Port :=
  let y := { v with farReady := f.dataReady, farDraining := f.draining, farState := f.state, badFrame := false,
                    dir := if changed then 0xF else v.dir, txLanes := v.heard f, lastFrame := some f,
                    txMove := if v.state.lit then f.move.map fun m => (m, f.moveTo) else none }
  if f.rankValid then { y with farValid := true, farRank := f.rank, farPort := f.physPort, farDir := f.dir } else y

theorem Port.hears_keeps {α : Type} (g : Port → α) (v : Port) (f : PilotFrame) (changed : Bool)
    (hg : ∀ (v : Port) a b c d e l o m, g { v with farReady := a, farDraining := b, farState := c, badFrame := d, dir := e,
                                                   txLanes := l, lastFrame := o, txMove := m } = g v := by exact fun _ _ _ _ _ _ _ _ _ => rfl)
    (hfar : ∀ (v : Port) a b c d, g { v with farValid := a, farRank := b, farPort := c, farDir := d } = g v := by
      exact fun _ _ _ _ _ => rfl) : g (v.hears f changed) = g v := by
  unfold Port.hears
  extract_lets y
  have hy : g y = g v := hg v _ _ _ _ _ _ _ _
  split
  · exact (hfar y _ _ _ _).trans hy
  · exact hy

theorem hearFrame_beside (p : Nat) (f : PilotFrame) (s : State) : BesidePorts s (hearFrame p f s) := by
  unfold hearFrame
  extract_lets v s0 _ _ s1 s2 s3 s4
  have hs0 : BesidePorts s s0 := .ite (.refl s) (faultPort_beside p 5 s)
  have hs1 : BesidePorts s s1 := .ite (hs0.trans (faultPort_beside p 6 s0)) hs0
  have hs2 : BesidePorts s s2 := .ite (hs1.trans (enterPort_beside p .pilot s1)) hs1
  have hs3 : BesidePorts s s3 := hs2.trans (modPort_beside s2 p _)
  have hs4 : BesidePorts s s4 := .ite (hs3.trans (discardEgress_beside p s3)) hs3
  exact .ite ((hs0.trans (faultPort_beside p 6 s0)).trans (enterPort_beside p .dark _)) (hs4.trans (settlePilot_beside p s4))

theorem hearFrame_actsOnPort (p : Nat) (f : PilotFrame) (s : State) : ActsOnPort p s (hearFrame p f s) := by
  unfold hearFrame
  extract_lets v s0 _ _ s1 s2 s3 s4
  have hs0 : ActsOnPort p s s0 := actsOnPort_ite (.refl p s) (modPort_actsOnPort s p _)
  have hs1 : ActsOnPort p s s1 := actsOnPort_ite (hs0.trans (modPort_actsOnPort s0 p _)) hs0
  have hs2 : ActsOnPort p s s2 := actsOnPort_ite (hs1.trans (enterPort_actsOnPort p .pilot s1)) hs1
  have hs3 : ActsOnPort p s s3 := hs2.trans (modPort_actsOnPort s2 p _)
  have hs4 : ActsOnPort p s s4 := actsOnPort_ite (hs3.trans (discardEgress_actsOnPort p s3)) hs3
  exact actsOnPort_ite ((hs0.trans (modPort_actsOnPort s0 p _)).trans (enterPort_actsOnPort p .dark _))
    (hs4.trans (settlePilot_actsOnPort p s4))

theorem discardEgress_frameCount (p : Nat) (s : State) : (getPort (discardEgress p s) p).frameCount = (getPort s p).frameCount := by
  unfold discardEgress countPort
  rw [modPort_keeps Port.frameCount, modPort_keeps Port.frameCount]

theorem hearFrame_frameCount (p : Nat) (f : PilotFrame) (s : State) :
    (getPort (hearFrame p f s) p).frameCount = (getPort s p).frameCount := by
  let Counts := fun u => (getPort u p).frameCount = (getPort s p).frameCount
  have hite : ∀ {c : Prop} [Decidable c] {t u}, Counts t → Counts u → Counts (if c then t else u) := fun ht hu => by
    split
    · exact ht
    · exact hu
  have hfault : ∀ {u bit}, Counts u → Counts (faultPort p bit u) := fun hu => (modPort_keeps Port.frameCount ..).trans hu
  unfold hearFrame
  extract_lets v s0 _ _ s1 s2 s3 s4
  have hs0 : Counts s0 := hite rfl (hfault rfl)
  have hs1 : Counts s1 := hite (hfault hs0) hs0
  have hs2 : Counts s2 := hite ((enterPort_frameCount p .pilot s1).trans hs1) hs1
  have hs3 : Counts s3 := (modPort_keeps Port.frameCount (fun v => Port.hears_keeps Port.frameCount v f _) p p).trans hs2
  have hs4 : Counts s4 := hite ((discardEgress_frameCount p s3).trans hs3) hs3
  exact hite ((enterPort_frameCount p .dark _).trans (hfault hs0)) ((settlePilot_frameCount p s4).trans hs4)

/-- The first valid frame at a DARK port of a module that knows its rank. -/
theorem hearFrame_first (hr : rankValid s = true) (hd : (getPort s p).state = .dark) (hfar : (getPort s p).farValid = false) :
    hearFrame p f s = settlePilot p (modPort (enterPort p .pilot s) p fun x => x.hears f false) := by
  have hch : identityChanged (getPort s p) f = false := by
    unfold identityChanged
    rw [hfar]
    rfl
  have hup : portUp s p = false := by
    show ((getPort s p).state == .active && _ && _) = false
    rw [hd]
    rfl
  unfold hearFrame
  dsimp only
  rw [hr, hch, hup, hd]
  rfl

/-! ### The port's own frame -/

theorem sendFrame_actsOnPort (p : Nat) (s : State) : ActsOnPort p s (sendFrame p s) := actsOnPort_of_setPort rfl rfl

/-- Sending counts the frame, and changes nothing else of the port. -/
theorem sendFrame_keeps {α : Type} (g : Port → α) (p : Nat) (s : State)
    (hg : ∀ v : Port, g { v with frameCount := v.frameCount + 1 } = g v := by exact fun _ => rfl) :
    g (getPort (sendFrame p s) p) = g (getPort s p) :=
  modPort_keeps g hg p p

/-- The port's frame and how it goes out (R297). -/
theorem sendFrame_sends (hp : p < u.lk.ports.length) (hu : BesidePorts s u)
    (hc : (getPort u p).frameCount = (getPort s p).frameCount) :
    let t := sendFrame p u
    ∃ g : PilotFrame, frameValid g = true ∧ g.rankValid = rankValid s ∧ g.rank = ownRank s ∧
      g.physPort = p ∧ g.state = (getPort t p).state.code ∧ g.lasersOn = (getPort t p).state.lit ∧
      (g.draining = true ↔ (getPort t p).state = .drain) ∧ (g.hold = true ↔ (getPort t p).state = .hold) ∧
      g.count = (getPort s p).frameCount ∧ (getPort t p).frameCount = (getPort s p).frameCount + 1 ∧
      t.env.pilots = s.env.pilots ++ [(p, frameBody g ++ leBytes 2 g.crc.toNat)] := by
  intro t
  have ht : getPort t p = _ := getPort_modPort_same hp fun v => { v with frameCount := v.frameCount + 1 }
  rw [ht]
  have henv : u.env = s.env := hu.keeps State.env
  refine ⟨ownFrame u p, ?_, hu.keeps rankValid, hu.keeps ownRank, rfl, rfl, rfl, ?_, ?_, hc, congrArg (· + 1) hc, ?_⟩
  · exact Bool.and_eq_true_iff.2 ⟨rfl, beq_self_eq_true _⟩
  · exact beq_iff_eq
  · exact beq_iff_eq
  · rw [← henv]
    rfl

theorem pilotFrame_sends (hs : TenPorts s) (hp : p < 10) (f : PilotFrame) : Answers (.pilotFrame p f) s fun t =>
    ∃ g : PilotFrame, frameValid g = true ∧ g.rankValid = rankValid s ∧ g.rank = ownRank s ∧
      g.physPort = p ∧ g.state = (getPort t p).state.code ∧ g.lasersOn = (getPort t p).state.lit ∧
      (g.draining = true ↔ (getPort t p).state = .drain) ∧ (g.hold = true ↔ (getPort t p).state = .hold) ∧
      g.count = (getPort s p).frameCount ∧ (getPort t p).frameCount = (getPort s p).frameCount + 1 ∧
      t.env.pilots = s.env.pilots ++ [(p, frameBody g ++ leBytes 2 g.crc.toNat)] := by
  refine answers_of_guard rfl hp ?_
  split
  · exact sendFrame_sends (by rw [(hearFrame_actsOnPort p f s).1.count]; exact hs.lt hp) (hearFrame_beside p f s)
      (hearFrame_frameCount p f s)
  · exact sendFrame_sends (by rw [(modPort_actsOnPort s p _).1.count]; exact hs.lt hp) (modPort_beside s p _)
      (modPort_keeps Port.frameCount ..)

/-! ### The first valid frame (R298, R299) -/

/-- A DARK port whose first valid frame has brought it to PILOT and given it its far identity. -/
theorem seeksDirection_of_first (hp : p < s.lk.ports.length) (hr : rankValid s = true) (hd : (getPort s p).state = .dark)
    (hdir : (getPort s p).dir = 0xF) (hf : f.rankValid = true) :
    SeeksDirection (modPort (enterPort p .pilot s) p fun x => x.hears f false) p := by
  have hin := enterPort_enters p .pilot s
  have hl : p < (enterPort p .pilot s).lk.ports.length := by rw [hin.acts.1.count]; exact hp
  refine ⟨?_, ?_, ?_, ?_⟩
  · exact (((enterPort_beside p .pilot s).trans (modPort_beside _ p _)).keeps rankValid).trans hr
  · rw [modPort_keeps Port.state fun v => Port.hears_keeps Port.state v f false]
    exact hin.state hp
  · rw [getPort_modPort_same hl, Port.hears, hf]
    rfl
  · rw [getPort_modPort_same hl, Port.hears, hf]
    exact (enterPort_reads Port.dir Port.dir hp (by rw [hd]; nofun)).trans hdir

theorem first_far (hl : p < s.lk.ports.length) (hf : f.rankValid = true) :
    let v := getPort (modPort s p fun x => x.hears f false) p
    v.farValid = true ∧ v.farRank = f.rank ∧ v.farPort = f.physPort ∧ v.farDir = f.dir ∧ v.farReady = f.dataReady := by
  dsimp only
  rw [getPort_modPort_same hl, Port.hears, hf]
  exact ⟨rfl, rfl, rfl, rfl, rfl⟩

/-- DATA_READY of the port in PILOT is what the module and its line allow (R555). -/
theorem dataReady_first (hp : p < s.lk.ports.length) : dataReady (modPort (enterPort p .pilot s) p fun x => x.hears f false) p =
    (s.rst.lasersPermitted && s.sf.proof.getLsbD p && !lineHeld s p) := by
  have hb : BesidePorts s (modPort (enterPort p .pilot s) p fun x => x.hears f false) :=
    (enterPort_beside p .pilot s).trans (modPort_beside _ p _)
  unfold dataReady
  rw [modPort_keeps Port.state fun v => Port.hears_keeps Port.state v f false, (enterPort_enters p .pilot s).state hp,
    lineHeld_modPort fun v => Port.hears_keeps Port.touched v f false, lineHeld_enterPort,
    hb.keeps fun s => s.rst.lasersPermitted, hb.keeps fun s => s.sf.proof]
  exact Bool.and_true _

theorem pilotFrame_first (hs : TenPorts s) (hp : p < 10) (hv : frameValid f = true) (hf : f.rankValid = true) (hr : rankValid s = true)
    (hd : (getPort s p).state = .dark) (hfar : (getPort s p).farValid = false) (hdir : (getPort s p).dir = 0xF) :
    let ready := s.rst.lasersPermitted = true ∧ s.sf.proof.getLsbD p = true ∧ lineHeld s p = false ∧ f.dataReady = true
    Answers (.pilotFrame p f) s fun t => OnlyPort p s t ∧
      (getPort t p).farValid = true ∧ (getPort t p).farRank = f.rank ∧ (getPort t p).farPort = f.physPort ∧
      match directionFor s p f.rank f.dir with
      | none => (getPort t p).state = .fault ∧ (getPort t p).fault.getLsbD 0 = true
      | some d => (getPort t p).dir = d ∧ (ready → (getPort t p).state = .ramp) ∧
          (¬ ready → (getPort t p).state = .pilot) := by
  intro ready
  refine answers_of_guard (t := sendFrame p (if frameValid f then hearFrame p f s else modPort s p fun v => { v with badFrame := true })) rfl hp ?_
  rw [if_pos hv, hearFrame_first hr hd hfar]
  set x := modPort (enterPort p .pilot s) p fun x => x.hears f false
  have hacts : ActsOnPort p s x := (enterPort_actsOnPort p .pilot s).trans (modPort_actsOnPort _ p _)
  have hbeside : BesidePorts s x := (enterPort_beside p .pilot s).trans (modPort_beside _ p _)
  have hl := hs.lt hp
  have hlx : p < x.lk.ports.length := by rw [hacts.1.count]; exact hl
  have hseek : SeeksDirection x p := seeksDirection_of_first hl hr hd hdir hf
  obtain ⟨hfv, hfr, hfp, hfd, hready⟩ := first_far (s := enterPort p .pilot s) (p := p) (f := f)
    (by rw [(enterPort_actsOnPort p .pilot s).1.count]; exact hl) hf
  refine ⟨((hacts.trans (settlePilot_actsOnPort p x)).trans (sendFrame_actsOnPort p _)).2,
    ((sendFrame_keeps Port.farValid ..).trans (settlePilot_keeps Port.farValid hlx hseek)).trans hfv,
    ((sendFrame_keeps Port.farRank ..).trans (settlePilot_keeps Port.farRank hlx hseek)).trans hfr,
    ((sendFrame_keeps Port.farPort ..).trans (settlePilot_keeps Port.farPort hlx hseek)).trans hfp, ?_⟩
  have hset := settlePilot_directed hlx hseek
  rw [hfr, hfd, hbeside.keeps fun s => directionFor s p f.rank f.dir] at hset
  rw [sendFrame_keeps Port.state, sendFrame_keeps Port.fault, sendFrame_keeps Port.dir]
  have hiff : ready ↔ dataReady x p = true ∧ (getPort x p).farReady = true := by
    rw [dataReady_first hl, hready]
    simp [ready, and_assoc]
  clear_value x
  cases hdf : directionFor s p f.rank f.dir with
  | none =>
    rw [hdf] at hset
    exact hset
  | some d =>
    rw [hdf] at hset
    obtain ⟨h1, h2, h3⟩ := hset
    exact ⟨h1, fun h => h2 (hiff.1 h), fun h => h3 fun h' => h (hiff.2 h')⟩

/-! ### Loss of the pilot -/

theorem pilotLost_answers (hs : TenPorts s) (hp : p < 10) (hne : (getPort s p).state ≠ .dark) :
    let v := getPort s p
    Answers (.pilotLost p) s fun t => OnlyPort p s t ∧ (getPort t p).state = .dark ∧
      (getPort t p).farValid = false ∧ (getPort t p).dir = 0xF ∧ (getPort t p).pilotLosses = v.pilotLosses + 1 ∧
      ((v.state = .active ∨ v.state = .drain) → (getPort t p).egress = []) := by
  intro v
  have hb : (v.state != .dark) = true := bne_iff_ne.2 hne
  refine answers_of_guard rfl hp ?_
  rw [whenTaken_pos (by rw [hb]; rfl)]
  extract_lets bad was s1 s2
  have hacts1 : ActsOnPort p s s1 := actsOnPort_ite (modPort_actsOnPort s p _) (.refl p s)
  have hacts : ActsOnPort p s s2 := hacts1.trans (modPort_actsOnPort s1 p _)
  have hl : p < s.lk.ports.length := hs.lt hp
  have hl2 : p < s2.lk.ports.length := by rw [hacts.1.count]; exact hl
  have hkeep : ∀ {α : Type} (g : Port → α), (∀ (v : Port) w, g { v with fault := w } = g v) → g (getPort s1 p) = g v := by
    intro α g hg
    unfold s1
    split
    · exact modPort_keeps g (fun v => hg v _) p p
    · rfl
  have hstate : (getPort s2 p).state = v.state := (modPort_keeps Port.state ..).trans (hkeep Port.state fun _ _ => rfl)
  have hlosses : (getPort s2 p).pilotLosses = v.pilotLosses + 1 := by
    unfold s2
    rw [getPort_modPort_same (by rw [hacts1.1.count]; exact hl)]
    dsimp only
    rw [hkeep Port.pilotLosses fun _ _ => rfl, show was = true from hb, if_pos rfl]
  have hne2 : (getPort s2 p).state ≠ .dark := by rw [hstate]; exact hne
  refine ⟨(hacts.trans (enterPort_actsOnPort p .dark s2)).2, (enterPort_enters p .dark s2).state hl2,
    enterPort_reads Port.farValid (fun _ => false) hl2 hne2, enterPort_reads Port.dir (fun _ => 0xF) hl2 hne2,
    (enterPort_keeps Port.pilotLosses hl2).trans hlosses, fun hst => ?_⟩
  rw [enterPort_egress hl2 hne2, Port.leaving, hstate, if_pos]
  rcases hst with h | h
  · rw [h]; rfl
  · rw [h]; rfl

/-! ### The detectors (R464) -/

theorem getLsbD_raise {m : BitVec 10} (hp : p < 10) : (m ||| BitVec.ofNat 10 (2 ^ p)).getLsbD p = true := by
  rw [BitVec.getLsbD_or, getLsbD_ofNat_two_pow hp, decide_eq_true rfl, Bool.or_true]

theorem getLsbD_drop {m : BitVec 10} (hp : p < 10) : (m &&& ~~~ BitVec.ofNat 10 (2 ^ p)).getLsbD p = false := by
  rw [BitVec.getLsbD_and, BitVec.getLsbD_not, getLsbD_ofNat_two_pow hp, decide_eq_true hp, decide_eq_true rfl]
  exact Bool.and_false _

theorem emits_of_pilotA (h : s.sf.pilotA.getLsbD p = false) : emits s p = false := by
  unfold emits
  rw [h]
  simp

theorem emits_of_pilotB (h : s.sf.pilotB.getLsbD p = false) : emits s p = false := by
  unfold emits
  rw [h]
  simp

theorem pilotDetectorPresent_answers (hp : p < 10) (chanB : Bool) : Answers (.pilotDetectorPresent p chanB) s fun t => t.lk = s.lk ∧
    (if chanB then t.sf.pilotB else t.sf.pilotA).getLsbD p = true ∧
    (if chanB then t.sf.pilotA else t.sf.pilotB) = (if chanB then s.sf.pilotA else s.sf.pilotB) := by
  refine answers_of_guard rfl hp ⟨rfl, ?_⟩
  cases chanB with
  | true => exact ⟨getLsbD_raise hp, rfl⟩
  | false => exact ⟨getLsbD_raise hp, rfl⟩

theorem pilotDetectorLost_answers (hp : p < 10) (chanB : Bool) (h : (if chanB then s.sf.pilotB else s.sf.pilotA).getLsbD p = true) :
    Answers (.pilotDetectorLost p chanB) s fun t =>
      t.lk = s.lk ∧ emits t p = false ∧ (if chanB then t.sf.pilotB else t.sf.pilotA).getLsbD p = false ∧
      (if chanB then t.sf.pilotA else t.sf.pilotB) = (if chanB then s.sf.pilotA else s.sf.pilotB) := by
  refine answers_of_guard rfl hp ?_
  cases chanB with
  | true =>
    rw [whenTaken_pos (by exact h)]
    have hoff := getLsbD_drop (m := s.sf.pilotB) hp
    exact ⟨rfl, emits_of_pilotB hoff, hoff, rfl⟩
  | false =>
    rw [whenTaken_pos (by exact h)]
    have hoff := getLsbD_drop (m := s.sf.pilotA) hp
    exact ⟨rfl, emits_of_pilotA hoff, hoff, rfl⟩

/-- Settles O21: each row writes its port alone, and what it reads of the rest of the module stays. -/
theorem pilotFramesAndLoss : Obligations.PilotFramesAndLoss := by
  unfold Obligations.PilotFramesAndLoss
  intro s p f chanB hs hp v ready
  refine ⟨fun hbad => ?_, pilotFrame_sends hs hp f, pilotFrame_first hs hp, pilotLost_answers hs hp,
    pilotDetectorPresent_answers hp chanB, pilotDetectorLost_answers hp chanB⟩
  show guardUnit (decide (p < 10)) _ = _
  rw [decide_eq_true hp, guardUnit_true, hbad]
  rfl

end Sys2Proof.Machine
end

section
/-!
PROOF. The release button, the latch, the dark reading and the end of a drain (R303, R330, R331, R480, R481, R556, Table 15.7).
-/

namespace Sys2Proof.Machine

open Sys2Proof

variable {s t : State} {p : Nat} {new : PState}

/-! ### Lines and lamps -/

theorem relamp_touched (p : Nat) (s : State) : (getPort (relamp p s) p).touched = (getPort s p).touched := by
  rcases Nat.lt_or_ge p s.lk.ports.length with hp | hp
  · exact relamp_keeps Port.touched hp
  · exact congrArg Port.touched ((relamp_actsOnPort p s).absent hp)

theorem lineOn_touched (p : Nat) (s : State) : (getPort (lineOn p s) p).touched = (getPort s p).touched := by
  unfold lineOn
  split
  · exact enterPort_touched ..
  · exact enterPort_touched ..
  · exact enterPort_touched ..
  · exact enterPort_touched ..
  · exact enterPort_touched ..
  · exact relamp_touched ..

/-- Asserting a line leaves what neither HOLD, RELEASED nor the lamp sets. -/
theorem lineOn_keeps {α : Type} (g : Port → α) (hp : p < s.lk.ports.length)
    (hlamp : ∀ v a b n, g (Port.withLamp v a b n) = g v := by exact fun _ _ _ _ => rfl)
    (hhold : ∀ v : Port, g (v.entering .hold) = g v := by exact fun _ => rfl)
    (hreleased : ∀ v : Port, g (v.entering .released) = g v := by exact fun _ => rfl)
    (hwait : ∀ v : Port, g { v with waiters := [] } = g v := by exact fun _ => rfl)
    (hdrop : ∀ v : Port, g { v with egress := [], cnt := taddW v.cnt 8 v.egress.length } = g v := by exact fun _ => rfl) :
    g (getPort (lineOn p s) p) = g (getPort s p) := by
  have henter : ∀ new, (∀ v : Port, g (v.entering new) = g v) → g (getPort (enterPort p new s) p) = g (getPort s p) :=
    fun new h => enterPort_keeps g hp (fun v a b n => (hlamp _ a b n).trans (h v))
      (fun v a b n => (hlamp _ a b n).trans ((hwait _).trans (h v))) hdrop
  unfold lineOn
  split
  · exact henter _ hhold
  · exact henter _ hhold
  · exact henter _ hhold
  · exact henter _ hhold
  · exact henter _ hreleased
  · exact relamp_keeps g hp hlamp

theorem lineOn_state (hp : p < s.lk.ports.length) :
    (((getPort s p).state = .ramp ∨ (getPort s p).state = .train ∨ (getPort s p).state = .ready ∨ (getPort s p).state = .active) →
      (getPort (lineOn p s) p).state = .hold) ∧
    ((getPort s p).state = .drain → (getPort (lineOn p s) p).state = .released) := by
  have hin : ∀ new : PState, (getPort (enterPort p new s) p).state = new := fun new => (enterPort_enters p new s).state hp
  unfold lineOn
  refine ⟨?_, fun h => ?_⟩
  · rintro (h | h | h | h)
    · rw [h]; exact hin .hold
    · rw [h]; exact hin .hold
    · rw [h]; exact hin .hold
    · rw [h]; exact hin .hold
  · rw [h]
    exact hin .released

/-- A held port whose line has gone ramps (R301). -/
theorem lineOff_free (h : (getPort s p).state = .hold) (hf : lineHeld s p = false) :
    lineOff p s = enterPort p .ramp (modPort s p fun v => { v with autoAdmit := true }) := by
  unfold lineOff
  rw [if_neg (by rw [hf]; decide), h]

/-- What a held port is once its line has gone. -/
theorem lineOff_ramps (hp : p < s.lk.ports.length) (h : (getPort s p).state = .hold) (hf : lineHeld s p = false) :
    ∃ a b n, getPort (lineOff p s) p = (({ getPort s p with autoAdmit := true } : Port).entering .ramp).withLamp a b n := by
  have hm : getPort (modPort s p fun v => { v with autoAdmit := true }) p = _ := getPort_modPort_same hp _
  have hl : p < (modPort s p fun v => { v with autoAdmit := true }).lk.ports.length := by
    rw [(modPort_actsOnPort s p _).1.count]
    exact hp
  obtain ⟨a, b, n, hv⟩ := getPort_enterPort (new := .ramp) hl (by rw [hm, h]; nofun)
  refine ⟨a, b, n, ?_⟩
  rw [lineOff_free h hf, hv, hm, Port.entered, Port.answered, if_neg (by decide), Port.leaving, if_neg (by rw [h]; decide)]

theorem lineOff_beside (p : Nat) (s : State) : BesidePorts s (lineOff p s) := by
  unfold lineOff
  refine .ite (relamp_beside p s) ?_
  split
  · exact (modPort_beside s p _).trans (enterPort_beside p .ramp _)
  · exact (relamp_beside p s).trans (settlePilot_beside p _)

/-- The line of a port that nobody touches and neither controller holds. -/
theorem lineHeld_of_free (hm : s.ws.portMc.getLsbD p = false) (hs : s.ws.portSm.getLsbD p = false)
    (ht : (getPort s p).touched = false) : lineHeld s p = false := by
  unfold lineHeld
  rw [hm, hs, ht]
  rfl

/-- The lamp that a port shows (Table 15.7). -/
def shownLamp (s : State) (p : Nat) : Lamp :=
  if s.pw.state == .p4 || smHolds s p 3 then .off else if 0 < (getPort s p).flash then .refused else lampOf s p

theorem relamp_lamp (hp : p < s.lk.ports.length) : (getPort (relamp p s) p).lamp = shownLamp s p := by
  have h : ∃ b n, (relamp p s).lk = (setPort s p ((getPort s p).withLamp (shownLamp s p) b n)).lk := by
    unfold relamp
    dsimp only
    rw [apply_ite State.lk]
    exact ⟨_, _, ite_self _⟩
  obtain ⟨b, n, h⟩ := h
  rw [getPort_of_lk hp h]
  rfl

/-- An idled port that reads dark, with no hold, flash or P4 over it, is steady amber. -/
theorem shownLamp_dark (hst : (getPort s p).state = .released ∨ (getPort s p).state = .hold) (h1 : smHolds s p 1 = false)
    (h2 : smHolds s p 2 = false) (h3 : smHolds s p 3 = false) (hpw : s.pw.state ≠ .p4) (hf : (getPort s p).flash = 0)
    (hd : (getPort s p).darkRead = true) : shownLamp s p = .amberSteady := by
  have hlamp : lampOf s p = .amberSteady := by
    unfold lampOf
    dsimp only
    rw [h1, h2, hd]
    rcases hst with h | h
    · rw [h]; rfl
    · rw [h]; rfl
  unfold shownLamp
  rw [h3, hf, hlamp, beq_false_of_ne hpw]
  rfl

/-! ### The button -/

/-- A button's press is counted. -/
def pressed (p : Nat) (s : State) : State := modPort s p fun v => { v with presses := v.presses + 1 }

theorem exec_releaseButton (hp : p < 10) (h : (getPort s p).state = .active) : exec (.releaseButton p) s =
    .next (if lastRoute s p = true then relamp p (modPort (pressed p s) p fun v => { v with flash := 750 })
      else releasePort p none true (pressed p s)) := by
  show guardUnit (decide (p < 10)) _ = _
  rw [decide_eq_true hp, guardUnit_true, h]
  rfl

theorem releaseButton_refused (hs : TenPorts s) (hp : p < 10) (h : (getPort s p).state = .active) (hr : lastRoute s p = true) :
    Answers (.releaseButton p) s fun t => OnlyPort p s t ∧
      (getPort t p).state = .active ∧ (getPort t p).flash = 750 ∧ (getPort t p).presses = (getPort s p).presses + 1 := by
  refine ⟨_, exec_releaseButton hp h, ?_⟩
  rw [if_pos hr]
  have hacts : ActsOnPort p s (modPort (pressed p s) p fun v => { v with flash := 750 }) :=
    (modPort_actsOnPort s p _).trans (modPort_actsOnPort _ p _)
  have hl : p < (modPort (pressed p s) p fun v => { v with flash := 750 }).lk.ports.length := by rw [hacts.1.count]; exact hs.lt hp
  have hv : getPort (modPort (pressed p s) p fun v => { v with flash := 750 }) p = _ :=
    getPort_modPort_same (by rw [pressed, (modPort_actsOnPort s p _).1.count]; exact hs.lt hp) _
  have hw : getPort (pressed p s) p = _ := getPort_modPort_same (hs.lt hp) _
  refine ⟨(hacts.trans (relamp_actsOnPort p _)).2, ?_, ?_, ?_⟩
  · rw [relamp_state hl, hv, hw]
    exact h
  · rw [relamp_keeps Port.flash hl, hv]
  · rw [relamp_keeps Port.presses hl, hv, hw]

theorem releasePort_active (h : (getPort s p).state = .active) (press : Bool) :
    releasePort p none press s = modPort (enterPort p .drain s) p fun v => { v with pressed := press } := by
  unfold releasePort
  rw [h]

theorem releaseButton_drains (hs : TenPorts s) (hp : p < 10) (h : (getPort s p).state = .active) (hr : lastRoute s p = false) :
    Answers (.releaseButton p) s fun t => OnlyPort p s t ∧
      (getPort t p).state = .drain ∧ (getPort t p).pressed = true ∧ (getPort t p).egress = (getPort s p).egress := by
  refine ⟨_, exec_releaseButton hp h, ?_⟩
  have hw : getPort (pressed p s) p = _ := getPort_modPort_same (hs.lt hp) _
  have hact : (getPort (pressed p s) p).state = .active := by rw [hw]; exact h
  rw [if_neg (by rw [hr]; decide), releasePort_active hact]
  have hl : p < (pressed p s).lk.ports.length := by rw [pressed, (modPort_actsOnPort s p _).1.count]; exact hs.lt hp
  have hin := enterPort_enters p .drain (pressed p s)
  have hl' : p < (enterPort p .drain (pressed p s)).lk.ports.length := by rw [hin.acts.1.count]; exact hl
  refine ⟨(((modPort_actsOnPort s p _).trans hin.acts).trans (modPort_actsOnPort _ p _)).2, ?_, ?_, ?_⟩
  · rw [modPort_keeps Port.state]
    exact hin.state hl
  · rw [getPort_modPort_same hl']
  · rw [modPort_keeps Port.egress, enterPort_egress hl (by rw [hact]; nofun), Port.leaving, if_neg (by rw [hact]; decide), hw]

/-! ### The latch -/

theorem latchTouch_answers (hs : TenPorts s) (hp : p < 10) (h : (getPort s p).touchIgnored = false) :
    let v := getPort s p
    Answers (.latchTouch p) s fun t => OnlyPort p s t ∧ lineHeld t p = true ∧
      (getPort t p).touched = true ∧ (getPort t p).touches = v.touches + 1 ∧
      ((v.state = .ramp ∨ v.state = .train ∨ v.state = .ready ∨ v.state = .active) → (getPort t p).state = .hold) ∧
      (v.state = .drain → (getPort t p).state = .released) := by
  intro v
  refine answers_of_guard rfl hp ?_
  extract_lets s1
  rw [if_neg (by rw [h]; decide)]
  set s2 := modPort s1 p fun v => { v with touched := true }
  have hacts1 : ActsOnPort p s s1 := modPort_actsOnPort s p _
  have hacts : ActsOnPort p s s2 := hacts1.trans (modPort_actsOnPort s1 p _)
  have hl : p < s2.lk.ports.length := by rw [hacts.1.count]; exact hs.lt hp
  have hv1 : getPort s1 p = _ := getPort_modPort_same (hs.lt hp) _
  have hv2 : getPort s2 p = _ := getPort_modPort_same (by rw [hacts1.1.count]; exact hs.lt hp) _
  have htouched : (getPort (lineOn p s2) p).touched = true := by rw [lineOn_touched, hv2]
  have hstate : (getPort s2 p).state = v.state := by rw [hv2, hv1]
  refine ⟨(hacts.trans (lineOn_actsOnPort p s2)).2, ?_, htouched, ?_, fun hst => ?_, fun hst => ?_⟩
  · unfold lineHeld
    rw [htouched, Bool.or_true]
  · rw [lineOn_keeps Port.touches hl, hv2, hv1]
  · exact (lineOn_state hl).1 (by rw [hstate]; exact hst)
  · exact (lineOn_state hl).2 (by rw [hstate]; exact hst)

theorem latchHoldEnd_answers (hs : TenPorts s) (hp : p < 10) (ht : (getPort s p).touched = true) (h : (getPort s p).state = .hold)
    (hfree : s.ws.portMc.getLsbD p = false ∧ s.ws.portSm.getLsbD p = false) :
    Answers (.latchHoldEnd p) s fun t => OnlyPort p s t ∧
      (getPort t p).touched = false ∧ (getPort t p).state = .ramp ∧ (getPort t p).autoAdmit = true := by
  refine answers_of_guard rfl hp ?_
  extract_lets v s1
  rw [if_pos ht]
  have hacts : ActsOnPort p s s1 := actsOnPort_of_setPort rfl rfl
  have hl := hs.lt hp
  have hv : getPort s1 p = _ := getPort_of_lk hl rfl
  obtain ⟨a, b, n, hr⟩ := lineOff_ramps (s := s1) (by rw [hacts.1.count]; exact hl) (by rw [hv]; exact h)
    (lineHeld_of_free hfree.1 hfree.2 (by rw [hv]))
  refine ⟨(hacts.trans (lineOff_actsOnPort p s1)).2, ?_⟩
  rw [hr, hv]
  exact ⟨rfl, rfl, rfl⟩

/-- A stuck sensor is ignored, and counted (R481). -/
def stuckSensor (p : Nat) (s : State) : State :=
  let s1 := modPort s p fun v => { v with touched := false, touchIgnored := true }
  { s1 with bb := { s1.bb with latchFaults := s1.bb.latchFaults + 1 } }

theorem latchSensorFault_answers (hs : TenPorts s) (hp : p < 10) (ht : (getPort s p).touched = true) (h : (getPort s p).state = .hold)
    (hfree : s.ws.portMc.getLsbD p = false ∧ s.ws.portSm.getLsbD p = false) :
    Answers (.latchSensorFault p) s fun t => OnlyPort p s t ∧
      (getPort t p).touched = false ∧ (getPort t p).touchIgnored = true ∧ (getPort t p).state = .ramp ∧
      t.bb.latchFaults = s.bb.latchFaults + 1 := by
  refine answers_of_guard (t := whenTaken (getPort s p).touched (fun st => lineOff p (stuckSensor p st)) s) rfl hp ?_
  rw [whenTaken_pos ht]
  set s2 := stuckSensor p s
  have hacts : ActsOnPort p s s2 := actsOnPort_of_setPort rfl rfl
  have hl := hs.lt hp
  have hv : getPort s2 p = _ := getPort_of_lk hl rfl
  obtain ⟨a, b, n, hr⟩ := lineOff_ramps (s := s2) (by rw [hacts.1.count]; exact hl) (by rw [hv]; exact h)
    (lineHeld_of_free hfree.1 hfree.2 (by rw [hv]))
  refine ⟨(hacts.trans (lineOff_actsOnPort p s2)).2, ?_⟩
  rw [hr, hv]
  exact ⟨rfl, rfl, rfl, (lineOff_beside p s2).keeps fun s => s.bb.latchFaults⟩

theorem laserDarkReading_answers (hs : TenPorts s) (hp : p < 10)
    (hst : (getPort s p).state = .released ∨ (getPort s p).state = .hold) (h1 : smHolds s p 1 = false)
    (h2 : smHolds s p 2 = false) (h3 : smHolds s p 3 = false) (hpw : s.pw.state ≠ .p4) (hf : (getPort s p).flash = 0) :
    Answers (.laserDarkReading p true) s fun t => OnlyPort p s t ∧
      (getPort t p).darkRead = true ∧ (getPort t p).lamp = .amberSteady ∧ (getPort t p).state = (getPort s p).state := by
  have hidle : (getPort s p).state.idled = true := by
    rcases hst with h | h
    · rw [h]; rfl
    · rw [h]; rfl
  refine answers_of_guard rfl hp ?_
  rw [whenTaken_pos (by rw [hidle]; rfl)]
  set s1 := modPort s p fun v => { v with darkRead := true }
  have hacts : ActsOnPort p s s1 := modPort_actsOnPort s p _
  have hl : p < s1.lk.ports.length := by rw [hacts.1.count]; exact hs.lt hp
  have hv : getPort s1 p = { getPort s p with darkRead := true } := getPort_modPort_same (hs.lt hp) _
  refine ⟨(hacts.trans (relamp_actsOnPort p s1)).2, ?_, ?_, ?_⟩
  · rw [relamp_keeps Port.darkRead hl, hv]
  · rw [relamp_lamp hl]
    exact shownLamp_dark (by rw [hv]; exact hst) h1 h2 h3 hpw (by rw [hv]; exact hf) (by rw [hv])
  · rw [relamp_state hl, hv]

/-! ### The end of a drain (R331, R556) -/

theorem enterPort_cnt (hp : p < s.lk.ports.length) (hne : (getPort s p).state ≠ new) :
    (getPort (enterPort p new s) p).cnt = ((getPort s p).leaving new).cnt := by
  obtain ⟨a, b, n, h⟩ := getPort_enterPort hp hne
  rw [h]
  unfold Port.entered Port.answered
  split
  · cases new <;> rfl
  · cases new <;> rfl

/-- A port that is RELEASED has no command left to answer, and has answered them all. -/
theorem released_answers (hp : p < s.lk.ports.length) (hne : (getPort s p).state ≠ .released) :
    (getPort (enterPort p .released s) p).waiters = [] ∧ sentUp (enterPort p .released s) =
      sentUp s ++ (getPort s p).waiters.map fun h => Payload.completion h 0 0 [] := by
  obtain ⟨a, b, n, h⟩ := getPort_enterPort hp hne
  refine ⟨by rw [h]; rfl, ?_⟩
  rw [sentUp_enterPort hp hne]
  exact sentUp_foldl_postCompletion 0 _ s

/-- A drain that was not for P3 ends in RELEASED. -/
theorem endDrain_eq (hp : p < s.lk.ports.length) (hne : (getPort s p).state ≠ .released) (h3 : (getPort s p).fromP3 = false) :
    endDrain p s = enterPort p .released s := by
  have hno : (getPort (enterPort p .released s) p).fromP3 = false := by
    obtain ⟨a, b, n, h⟩ := getPort_enterPort hp hne
    have hv : ((getPort s p).leaving .released).fromP3 = false := by
      unfold Port.leaving
      split
      · exact h3
      · exact h3
    rw [h]
    show (((getPort s p).leaving .released).fromP3 && _) = false
    rw [hv]
    rfl
  exact if_neg (by rw [hno]; decide)

theorem drainEnd_answers (hs : TenPorts s) (hp : p < 10) (h : (getPort s p).state = .drain) (h3 : (getPort s p).fromP3 = false)
    (he : (getPort s p).egress = []) : Answers (.drainEnd p) s fun t => OnlyPort p s t ∧ (getPort t p).state = .released ∧
      (getPort t p).waiters = [] ∧ sentUp t = sentUp s ++ (getPort s p).waiters.map fun h => Payload.completion h 0 0 [] := by
  have hne : (getPort s p).state ≠ .released := by rw [h]; nofun
  refine answers_of_guard rfl hp ?_
  rw [whenTaken_pos (by rw [h, he]; rfl), endDrain_eq (hs.lt hp) hne h3]
  exact ⟨(enterPort_actsOnPort p .released s).2, (enterPort_enters p .released s).state (hs.lt hp), released_answers (hs.lt hp) hne⟩

theorem drainEnd_waits (hp : p < 10) (he : (getPort s p).egress ≠ []) : exec (.drainEnd p) s = .next s := by
  show guardUnit (decide (p < 10)) _ = _
  rw [decide_eq_true hp, guardUnit_true, whenTaken_neg (by rw [List.isEmpty_eq_false_iff.2 he, Bool.and_false])]

/-- A port whose drain's time is up: what remains is discarded and counted (R331). -/
def drainedOut (p : Nat) (s : State) : State := countPort p 7 1 (faultPort p 3 (discardEgress p s))

theorem faultPort_actsOnPort (p bit : Nat) (s : State) : ActsOnPort p s (faultPort p bit s) := modPort_actsOnPort s p _

theorem countPort_actsOnPort (p k n : Nat) (s : State) : ActsOnPort p s (countPort p k n s) := modPort_actsOnPort s p _

theorem drainedOut_actsOnPort (p : Nat) (s : State) : ActsOnPort p s (drainedOut p s) :=
  (discardEgress_actsOnPort p s).trans ((faultPort_actsOnPort p 3 _).trans (countPort_actsOnPort p 7 1 _))

theorem getPort_drainedOut (hp : p < s.lk.ports.length) : getPort (drainedOut p s) p =
    { getPort s p with egress := [], cnt := taddW (taddW (getPort s p).cnt 8 (getPort s p).egress.length) 7 1,
                       fault := (getPort s p).fault ||| BitVec.ofNat 32 (2 ^ 3) } := by
  have h1 : (discardEgress p s).lk = _ := congrArg State.lk (discardEgress_eq hp)
  exact getPort_of_lk hp (modPort_lk hp (modPort_lk hp h1 _) _)

theorem drainTimeout_answers (hs : TenPorts s) (hp : p < 10) (h : (getPort s p).state = .drain) (h3 : (getPort s p).fromP3 = false) :
    let v := getPort s p
    Answers (.drainTimeout p) s fun t => OnlyPort p s t ∧ (getPort t p).state = .released ∧ (getPort t p).egress = [] ∧
      (getPort t p).fault.getLsbD 3 = true ∧
      ((getPort t p).waiters = [] ∧ sentUp t = sentUp s ++ v.waiters.map fun h => Payload.completion h 0 0 []) ∧
      tget 0 (getPort t p).cnt 8 = tget 0 v.cnt 8 + BitVec.ofNat 64 v.egress.length := by
  intro v
  refine answers_of_guard (t := endDrain p (drainedOut p s)) ?_ hp ?_
  · show guardUnit _ (whenTaken ((getPort s p).state == .drain) _ s) = _
    rw [h]
    rfl
  have hacts := drainedOut_actsOnPort p s
  have hl : p < (drainedOut p s).lk.ports.length := by rw [hacts.1.count]; exact hs.lt hp
  have hv := getPort_drainedOut (hs.lt hp)
  have hsent : sentUp (drainedOut p s) = sentUp s := rfl
  generalize drainedOut p s = u at hacts hl hv hsent ⊢
  have hst : (getPort u p).state = .drain := by rw [hv]; exact h
  have hne : (getPort u p).state ≠ .released := by rw [hst]; nofun
  obtain ⟨hw, hup⟩ := released_answers hl hne
  have hleft : (getPort u p).leaving .released =
      { getPort u p with egress := [], cnt := taddW (getPort u p).cnt 8 (getPort u p).egress.length } :=
    if_pos (by rw [hst]; rfl)
  rw [endDrain_eq hl hne (by rw [hv]; exact h3)]
  refine ⟨(hacts.trans (enterPort_actsOnPort p .released u)).2, (enterPort_enters p .released u).state hl, ?_, ?_, ⟨hw, ?_⟩, ?_⟩
  · rw [enterPort_egress hl hne, hleft]
  · rw [enterPort_keeps Port.fault hl, hv, BitVec.getLsbD_or, getLsbD_ofNat_two_pow (by decide), decide_eq_true rfl, Bool.or_true]
  · rw [hup, hsent, hv]
  · rw [enterPort_cnt hl hne, hleft, hv]
    simp [taddW, v]

/-- Settles O22: each row's port is read off the state that it enters. -/
theorem buttonsLatchesAndDrainsMoveThePort : Obligations.ButtonsLatchesAndDrainsMoveThePort := by
  unfold Obligations.ButtonsLatchesAndDrainsMoveThePort
  refine ⟨fun s p hs hp => ⟨releaseButton_refused hs hp, releaseButton_drains hs hp, fun h => ?_, latchTouch_answers hs hp,
    latchHoldEnd_answers hs hp, latchSensorFault_answers hs hp, laserDarkReading_answers hs hp⟩, fun s p hs hp h h3 =>
    ⟨drainEnd_answers hs hp h h3, drainEnd_waits hp, drainTimeout_answers hs hp h h3⟩⟩
  show guardUnit (decide (p < 10)) (if (getPort s p).touchIgnored = true then _ else _) = _
  rw [decide_eq_true hp, guardUnit_true, if_pos h]
  rfl

end Sys2Proof.Machine
end

section
/-!
PROOF. Packets on their way through the module: egress queues, the crossing, and what enters the network here (R310 to R319, R325,
R327).
-/

namespace Sys2Proof.Machine

open Sys2Proof

variable {s t u : State} {p : Nat} {k : Packet} {x : Crossing}

/-! ### Beside the packets -/

/-- Beside the packets on their way and their counts, nothing of the module has changed. -/
def BesidePackets (s t : State) : Prop :=
  t = { s with lk := { s.lk with ports := t.lk.ports, drops := t.lk.drops, rxq := t.lk.rxq, crossing := t.lk.crossing },
               env := { s.env with wire := t.env.wire, credits := t.env.credits }, tw := { s.tw with activity := t.tw.activity } }

namespace BesidePackets

theorem refl (s : State) : BesidePackets s s := rfl

theorem trans (h : BesidePackets s t) (g : BesidePackets t u) : BesidePackets s u := by
  unfold BesidePackets at *
  rw [g, h]

theorem ite {c : Prop} [Decidable c] (h : BesidePackets s t) (g : BesidePackets s u) : BesidePackets s (if c then t else u) := by
  split
  · exact h
  · exact g

/-- A part of the state that none of these is reads as before. -/
theorem keeps {α : Type} (h : BesidePackets s t) (f : State → α)
    (hf : ∀ l d r c w e a, f { s with lk := { s.lk with ports := l, drops := d, rxq := r, crossing := c },
                                      env := { s.env with wire := w, credits := e }, tw := { s.tw with activity := a } } = f s := by
      exact fun _ _ _ _ _ _ _ => rfl) : f t = f s := by
  rw [h]
  exact hf ..

theorem peer (h : BesidePackets s t) (r : Nat) : getPeer t r = getPeer s r := h.keeps fun s => getPeer s r

end BesidePackets

/-! ### The counts -/

@[simp] theorem drops_countDrop (n m : Nat) (s : State) : tget 0 (countDrop n s).lk.drops m =
    if m = n then tget 0 s.lk.drops m + 1 else tget 0 s.lk.drops m := by
  unfold countDrop taddW
  rw [tget_tput]
  split
  next h => rw [h]; rfl
  · rfl

theorem countDrop_beside (n : Nat) (s : State) : BesidePackets s (countDrop n s) := rfl

theorem returnCredits_beside (p vc n : Nat) (s : State) : BesidePackets s (returnCredits p vc n s) := .ite rfl rfl

theorem returnCredits_lk (p vc n : Nat) (s : State) : (returnCredits p vc n s).lk = s.lk := by
  unfold returnCredits
  split <;> rfl

theorem returnCredits_wire (p vc n : Nat) (s : State) : (returnCredits p vc n s).env.wire = s.env.wire := by
  unfold returnCredits
  split <;> rfl

theorem returnCredits_credits (hp : p < 10) (vc n : Nat) (s : State) :
    (returnCredits p vc n s).env.credits = s.env.credits ++ [(p, vc, n)] := by
  unfold returnCredits
  rw [if_pos hp]

/-! ### Egress -/

/-- A port once what its credits allow has left it. -/
def Port.sent (v : Port) : Port :=
  { v with egress := (sendable v.egress [] v.used).1, used := (sendable v.egress [] v.used).2.1,
           cnt := taddW v.cnt 0 (((sendable v.egress [] v.used).2.2.map fun q => pktFlits q.pkt).foldl (· + ·) 0) }

/-- What leaves a port now, with the lanes that carry it. -/
def Port.sending (v : Port) (p : Nat) : List (Nat × Packet × Bool × List Nat) :=
  (sendable v.egress [] v.used).2.2.map fun q => (p, q.pkt, q.bad, v.wireLanes)

theorem sendEgress_lk (p : Nat) (s : State) : (sendEgress p s).lk = (setPort s p (getPort s p).sent).lk := rfl

theorem sendEgress_env (p : Nat) (s : State) :
    (sendEgress p s).env = { s.env with wire := s.env.wire ++ (getPort s p).sending p } := rfl

/-- Every packet queued stays queued or leaves. -/
theorem mem_sendable {q : Queued} : ∀ (l : List Queued) (stuck : List Nat) (used : Tbl Nat), q ∈ l →
    q ∈ (sendable l stuck used).1 ∨ q ∈ (sendable l stuck used).2.2
  | y :: r, stuck, used, h => by
    unfold sendable
    split
    · rcases List.mem_cons.1 h with rfl | hr
      · exact .inr List.mem_cons_self
      · exact (mem_sendable r _ _ hr).imp_right (List.mem_cons_of_mem _)
    · rcases List.mem_cons.1 h with rfl | hr
      · exact .inl List.mem_cons_self
      · exact (mem_sendable r _ _ hr).imp_left (List.mem_cons_of_mem _)

/-- Whether the queue is over its threshold when a packet joins it (R325). -/
def Port.marks (v : Port) (k : Packet) : Bool :=
  pktData k && v.cfg.getLsbD 12 && decide (bitsOf v.cfg.toNat 11 0 < v.occupancy)

/-- A packet as it joins a port's queue. -/
def Port.marked (v : Port) (k : Packet) : Packet := if v.marks k then { k with cmark := true } else k

/-- A port with one packet more in its queue. -/
def Port.queued (v : Port) (k : Packet) (bad : Bool) : Port :=
  { v with egress := v.egress ++ [⟨pktVc (v.marked k), v.marked k, bad⟩], cnt := if v.marks k then taddW v.cnt 5 1 else v.cnt }

theorem enqueue_eq (p : Nat) (k : Packet) (bad : Bool) (s : State) :
    enqueue p k bad s = sendEgress p (setPort s p ((getPort s p).queued k bad)) := rfl

theorem enqueue_lk (hp : p < s.lk.ports.length) (k : Packet) (bad : Bool) :
    (enqueue p k bad s).lk = (setPort s p ((getPort s p).queued k bad).sent).lk := by
  rw [enqueue_eq, sendEgress_lk, getPort_setPort s p p _ hp, if_pos rfl, setPort_setPort]

theorem enqueue_beside (p : Nat) (k : Packet) (bad : Bool) (s : State) : BesidePackets s (enqueue p k bad s) := rfl

/-- A packet that joins a queue stands in it, or has left on the port's lanes, marked at most as congested. -/
theorem enqueue_places (hp : p < s.lk.ports.length) (k : Packet) (bad : Bool) :
    ∃ k3, (k3 = k ∨ k3 = { k with cmark := true }) ∧
      (⟨pktVc k3, k3, bad⟩ ∈ (getPort (enqueue p k bad s) p).egress ∨
        (p, k3, bad, (getPort s p).wireLanes) ∈ (enqueue p k bad s).env.wire) := by
  set v := getPort s p with hv
  refine ⟨v.marked k, ?_, ?_⟩
  · unfold Port.marked
    split
    · exact .inr rfl
    · exact .inl rfl
  · have hmem : (⟨pktVc (v.marked k), v.marked k, bad⟩ : Queued) ∈ (v.queued k bad).egress := by simp [Port.queued]
    rw [getPort_of_lk hp (enqueue_lk hp k bad), enqueue_eq, sendEgress_env, getPort_setPort s p p _ hp, if_pos rfl, ← hv]
    refine (mem_sendable _ [] (v.queued k bad).used hmem).imp id fun h => ?_
    exact List.mem_append_right _ (List.mem_map.2 ⟨_, h, rfl⟩)

/-- A part of a port that its queue's traffic leaves alone. -/
theorem enqueue_keeps {α : Type} (g : Port → α) (p q : Nat) (k : Packet) (bad : Bool) (s : State)
    (hg : ∀ (v : Port) l u c, g { v with egress := l, used := u, cnt := c } = g v := by exact fun _ _ _ _ => rfl) :
    g (getPort (enqueue p k bad s) q) = g (getPort s q) := by
  have hsent : ∀ v : Port, g (v.sent) = g v := fun v => hg ..
  have hqueued : ∀ v : Port, g (v.queued k bad) = g v := fun v => hg v _ v.used _
  exact (modPort_keeps (s := modPort s p fun v => v.queued k bad) g hsent p q).trans (modPort_keeps g hqueued p q)

/-- A queue's traffic counts flits sent and packets marked, and nothing else. -/
theorem enqueue_cnt (p q : Nat) (k : Packet) (bad : Bool) (s : State) {n : Nat} (h0 : n ≠ 0) (h5 : n ≠ 5) :
    tget 0 (getPort (enqueue p k bad s) q).cnt n = tget 0 (getPort s q).cnt n := by
  have hsent : ∀ v : Port, tget 0 v.sent.cnt n = tget 0 v.cnt n := fun v => by
    unfold Port.sent taddW
    rw [tget_tput, if_neg h0]
  have hqueued : ∀ v : Port, tget 0 (v.queued k bad).cnt n = tget 0 v.cnt n := fun v => by
    unfold Port.queued
    split
    · rw [taddW, tget_tput, if_neg h5]
    · rfl
  exact (modPort_keeps (s := modPort s p fun v => v.queued k bad) (fun v => tget 0 v.cnt n) hsent p q).trans
    (modPort_keeps (fun v => tget 0 v.cnt n) hqueued p q)

/-! ### The routes (R315 to R317) -/

/-- A port's routes are read from its state, its far end's, and its direction. -/
structure SameRoutes (s t : State) : Prop where
  torus : t.lk.torus = s.lk.torus
  rank : t.lk.rank = s.lk.rank
  up : ∀ q, portUp t q = portUp s q
  dir : ∀ q, (getPort t q).dir = (getPort s q).dir

theorem modPort_sameRoutes {f : Port → Port} (p : Nat) (s : State)
    (hup : ∀ v : Port, ((f v).state, (f v).farState, (f v).farDraining) = (v.state, v.farState, v.farDraining) := by exact fun _ => rfl)
    (hdir : ∀ v : Port, (f v).dir = v.dir := by exact fun _ => rfl) : SameRoutes s (modPort s p f) := by
  refine ⟨rfl, rfl, fun q => ?_, fun q => modPort_keeps Port.dir hdir p q⟩
  have h := modPort_keeps (s := s) (fun v => (v.state, v.farState, v.farDraining)) hup p q
  simp only [Prod.mk.injEq] at h
  obtain ⟨h1, h2, h3⟩ := h
  unfold portUp
  dsimp only
  rw [h1, h2, h3]

theorem SameRoutes.trans (h : SameRoutes s t) (g : SameRoutes t u) : SameRoutes s u :=
  ⟨g.torus.trans h.torus, g.rank.trans h.rank, fun q => (g.up q).trans (h.up q), fun q => (g.dir q).trans (h.dir q)⟩

theorem SameRoutes.nextHop (h : SameRoutes s t) (bank : W64) (prev : Option Nat) (k : Packet) :
    nextHop t bank prev k = nextHop s bank prev k := by
  have hup : ∀ d, upPort t d = upPort s d := fun d => by
    unfold upPort
    congr
    funext q
    rw [h.up, h.dir]
  have hopen : ∀ d, openDir t bank d = openDir s bank d := fun d => by
    unfold openDir
    rw [hup]
  have hown : ownRank t = ownRank s := by rw [ownRank, h.rank, ownRank]
  have hdim : dimSize t = dimSize s := by
    funext i
    rw [dimSize, h.torus, dimSize]
  have horder : orderDir t k.dest = orderDir s k.dest := by
    unfold orderDir
    rw [hown, hdim]
  have hdate : hopDateline t = hopDateline s := by
    funext a b c
    unfold hopDateline
    rw [hown, hdim]
  unfold Machine.nextHop
  simp only [hopen, horder, hdate]

theorem upPort_lt {d q : Nat} (h : upPort s d = some q) : q < 10 :=
  List.mem_range.1 (List.mem_of_find?_eq_some h)

theorem openDir_lt {bank : W64} {d q : Nat} (h : openDir s bank d = some q) : q < 10 := by
  unfold openDir at h
  split at h
  · cases h
  · exact upPort_lt h

theorem nextHop_lt {bank : W64} {prev : Option Nat} {q : Nat} {k' : Packet} (h : nextHop s bank prev k = some (q, k')) : q < 10 := by
  unfold nextHop at h
  split at h
  · cases h
  · split at h
    next hd =>
      cases h
      exact openDir_lt hd
    · extract_lets at h
      split at h
      · cases h
      · split at h
        next hd =>
          cases h
          exact openDir_lt hd
        · cases h

/-! ### The crossing (R314, R318) -/

/-- What becomes of a packet that crosses: it is delivered, dropped, or placed in an egress queue. -/
def CrossesTo (x : Crossing) (s u : State) : Prop :=
  (x.pkt.dest = ownRank s ∧ u = deliverHere x.pkt x.bad s) ∨ u = countDrop 0 s ∨ u = countDrop 1 s ∨
    ∃ p k, p < 10 ∧ u = enqueue p k x.bad s

/-- A packet that has room crosses, and its input buffer's credits return. -/
theorem tryCross_cases (x : Crossing) (s : State) : tryCross x s = none ∨
    ∃ u, CrossesTo x s u ∧ tryCross x s = some (returnCredits x.ingress x.vc (pktFlits x.pkt) u) := by
  unfold tryCross
  extract_lets left
  split
  next h => exact .inr ⟨_, .inl ⟨h, rfl⟩, rfl⟩
  · split
    · exact .inr ⟨_, .inr (.inl rfl), rfl⟩
    · split
      · exact .inr ⟨_, .inr (.inr (.inl rfl)), rfl⟩
      next hq =>
        split
        · exact .inr ⟨_, .inr (.inr (.inr ⟨_, _, nextHop_lt hq, rfl⟩)), rfl⟩
        · exact .inl rfl

/-- A packet that waits to cross stands behind those of its channel. -/
def waitCross (x : Crossing) (s : State) : State := { s with lk := { s.lk with crossing := s.lk.crossing ++ [x] } }

theorem cross_cases (x : Crossing) (s : State) : cross x s = waitCross x s ∨
    ∃ u, CrossesTo x s u ∧ cross x s = returnCredits x.ingress x.vc (pktFlits x.pkt) u := by
  unfold cross
  extract_lets wait
  split
  · exact .inl rfl
  · rcases tryCross_cases x s with h | ⟨u, hu, h⟩
    · exact .inl (by rw [h]; rfl)
    · exact .inr ⟨u, hu, by rw [h]⟩

theorem deliverHere_beside (k : Packet) (bad : Bool) (s : State) : BesidePackets s (deliverHere k bad s) := by
  unfold deliverHere
  exact .ite rfl rfl

theorem CrossesTo.beside (h : CrossesTo x s u) : BesidePackets s u := by
  rcases h with ⟨-, rfl⟩ | rfl | rfl | ⟨p, k, -, rfl⟩
  · exact deliverHere_beside ..
  · exact countDrop_beside ..
  · exact countDrop_beside ..
  · exact enqueue_beside ..

theorem cross_beside (x : Crossing) (s : State) : BesidePackets s (cross x s) := by
  rcases cross_cases x s with h | ⟨u, hu, h⟩
  · rw [h]; rfl
  · rw [h]
    exact hu.beside.trans (returnCredits_beside ..)

/-- A packet for another module is not delivered here. -/
theorem cross_rxq (hx : x.pkt.dest ≠ ownRank s) : (cross x s).lk.rxq = s.lk.rxq := by
  rcases cross_cases x s with h | ⟨u, hu, h⟩
  · rw [h]; rfl
  · rw [h, returnCredits_lk]
    rcases hu with ⟨hd, -⟩ | rfl | rfl | ⟨p, k, -, rfl⟩
    · exact absurd hd hx
    · rfl
    · rfl
    · rfl

/-- A crossing counts drops only in counters 0, 1 and 7. -/
theorem cross_drops (x : Crossing) (s : State) {n : Nat} (h0 : n ≠ 0) (h1 : n ≠ 1) (h7 : n ≠ 7) :
    tget 0 (cross x s).lk.drops n = tget 0 s.lk.drops n := by
  rcases cross_cases x s with h | ⟨u, hu, h⟩
  · rw [h]; rfl
  · rw [h, returnCredits_lk]
    rcases hu with ⟨-, rfl⟩ | rfl | rfl | ⟨p, k, -, rfl⟩
    · unfold deliverHere
      split
      · rw [drops_countDrop, if_neg h7]
      · rfl
    · rw [drops_countDrop, if_neg h0]
    · rw [drops_countDrop, if_neg h1]
    · rfl

theorem cross_cnt (x : Crossing) (s : State) (q : Nat) {n : Nat} (h0 : n ≠ 0) (h5 : n ≠ 5) :
    tget 0 (getPort (cross x s) q).cnt n = tget 0 (getPort s q).cnt n := by
  rcases cross_cases x s with h | ⟨u, hu, h⟩
  · rw [h]; rfl
  · rw [h, getPort_congr (returnCredits_lk ..)]
    rcases hu with ⟨-, rfl⟩ | rfl | rfl | ⟨p, k, -, rfl⟩
    · unfold deliverHere
      split <;> rfl
    · rfl
    · rfl
    · exact enqueue_cnt p q k x.bad s h0 h5

/-! ### Into the network (R311, R318, R319) -/

theorem launch_beside (k : Packet) (s : State) : BesidePackets s (launch k s) := by
  unfold launch
  exact .ite (countDrop_beside 1 s) ((show BesidePackets s (countAct _ _ _ s) from rfl).trans (cross_beside ..))

theorem launch_rxq (hk : k.dest ≠ ownRank s) : (launch k s).lk.rxq = s.lk.rxq := by
  unfold launch
  dsimp only
  split
  · rfl
  · exact cross_rxq (s := countAct _ _ _ s) hk

theorem launch_drops (k : Packet) (s : State) {n : Nat} (h0 : n ≠ 0) (h1 : n ≠ 1) (h7 : n ≠ 7) :
    tget 0 (launch k s).lk.drops n = tget 0 s.lk.drops n := by
  unfold launch
  dsimp only
  split
  · rw [drops_countDrop, if_neg h1]
  · exact cross_drops _ (countAct _ _ _ s) h0 h1 h7

theorem launch_cnt (k : Packet) (s : State) (q : Nat) {n : Nat} (h0 : n ≠ 0) (h5 : n ≠ 5) :
    tget 0 (getPort (launch k s) q).cnt n = tget 0 (getPort s q).cnt n := by
  unfold launch
  dsimp only
  split
  · rfl
  · exact cross_cnt _ (countAct _ _ _ s) q h0 h5

section SendControl

variable (typ dest seq ackSeq : Nat) (echo : Bool) (off : Nat) (s : State)

theorem sendControl_beside : BesidePackets s (sendControl typ dest seq ackSeq echo off s) := .ite (.refl s) (launch_beside ..)

theorem sendControl_rxq (hd : dest ≠ ownRank s) : (sendControl typ dest seq ackSeq echo off s).lk.rxq = s.lk.rxq := by
  unfold sendControl
  split
  · rfl
  · exact launch_rxq hd

theorem sendControl_drops {n : Nat} (h0 : n ≠ 0) (h1 : n ≠ 1) (h7 : n ≠ 7) :
    tget 0 (sendControl typ dest seq ackSeq echo off s).lk.drops n = tget 0 s.lk.drops n := by
  unfold sendControl
  split
  · rfl
  · exact launch_drops _ s h0 h1 h7

theorem sendControl_cnt (q : Nat) {n : Nat} (h0 : n ≠ 0) (h5 : n ≠ 5) :
    tget 0 (getPort (sendControl typ dest seq ackSeq echo off s) q).cnt n = tget 0 (getPort s q).cnt n := by
  unfold sendControl
  split
  · rfl
  · exact launch_cnt _ s q h0 h5

end SendControl

end Sys2Proof.Machine
end

section
/-!
PROOF. The rows of the packets: PACKET_ROUTE, DATA_PACKET_RECEIVE, PACKET_INJECT and CREDIT_RETURN (R311 to R327, R552).
-/

namespace Sys2Proof.Machine

open Sys2Proof

variable {s t u : State} {p : Nat} {k : Packet} {x : Crossing}

/-! ### One packet that crosses -/

/-- A packet for this module with nothing of its channel before it is delivered, or dropped where its TYPE is reserved. -/
theorem cross_here (hb : (s.lk.crossing.any fun y => y.ingress == x.ingress && y.vc == x.vc) = false) (hd : x.pkt.dest = ownRank s) :
    cross x s = returnCredits x.ingress x.vc (pktFlits x.pkt) (deliverHere x.pkt x.bad s) := by
  unfold cross tryCross
  dsimp only
  rw [hb, if_pos hd]
  rfl

theorem cross_behind (hb : (s.lk.crossing.any fun y => y.ingress == x.ingress && y.vc == x.vc) = true) : cross x s = waitCross x s := by
  unfold cross
  dsimp only
  rw [hb]
  rfl

section Onward

variable {bank : W64} (hb : (s.lk.crossing.any fun y => y.ingress == x.ingress && y.vc == x.vc) = false)
  (hd : x.pkt.dest ≠ ownRank s) (hr : routeBank s x.pkt.epoch = some bank)

include hb hd hr

theorem cross_nowhere (hn : nextHop s bank x.prev x.pkt = none) :
    cross x s = returnCredits x.ingress x.vc (pktFlits x.pkt) (countDrop 1 s) := by
  unfold cross tryCross
  simp only [hb, if_neg hd, hr, hn]
  rfl

variable {q : Nat} {k' : Packet} (hn : nextHop s bank x.prev x.pkt = some (q, k'))

include hn

theorem cross_full (hroom : stagingRoom s q k' = false) : cross x s = waitCross x s := by
  unfold cross tryCross
  simp only [hb, if_neg hd, hr, hn, hroom]
  rfl

theorem cross_onward (hroom : stagingRoom s q k' = true) :
    cross x s = returnCredits x.ingress x.vc (pktFlits x.pkt) (enqueue q k' x.bad s) := by
  unfold cross tryCross
  simp only [hb, if_neg hd, hr, hn, hroom]
  rfl

end Onward

/-! ### PACKET_ROUTE -/

/-- A packet that arrives in the second layer of a detour has left it for good (R317). -/
def arrivedPacket (k : Packet) : Packet := if k.layer = 1 then { k with layer := 2 } else k

theorem arrivedPacket_keeps {α : Type} (g : Packet → α) (k : Packet)
    (hg : ∀ (k : Packet) l, g { k with layer := l } = g k := by exact fun _ _ => rfl) : g (arrivedPacket k) = g k := by
  unfold arrivedPacket
  split
  · exact hg ..
  · rfl

/-- An arriving packet, once it has been counted. -/
def routed (p : Nat) (k : Packet) (badHeader badFlit : Bool) (prev : Nat) (s : State) : State :=
  let gone := returnCredits p (pktVc k) (pktFlits k)
  if badHeader then gone (countPort p 4 1 s)
  else if isFenced s k.src then gone (countDrop 3 s)
  else if !inTorus s k.dest then gone (countDrop 1 s)
  else if (routeBank s k.epoch).isNone then gone (countDrop 0 s)
  else if isFenced s k.dest && k.dest != ownRank s then
    let s2 := gone (countDrop 2 s)
    if pktData k then sendControl 5 k.src k.seq 0 false k.dest s2 else s2
  else cross ⟨p, pktVc k, some prev, (arrivedPacket k), badFlit⟩ s

theorem exec_packetRoute (hp : p < 10) (h : (getPort s p).state = .active ∨ (getPort s p).state = .drain) (k : Packet)
    (badHeader badFlit : Bool) : exec (.packetRoute p k badHeader badFlit) s =
      .next (routed p k badHeader badFlit ((getPort s p).dir / 2) (countPort p 1 (pktFlits k) s)) := by
  show guardUnit (decide (p < 10)) (whenTaken ((getPort s p).state == .active || (getPort s p).state == .drain) _ s) = _
  rw [decide_eq_true hp, guardUnit_true, whenTaken_pos]
  · rfl
  · rcases h with h | h
    · rw [h]; rfl
    · rw [h]; rfl

section Routed

variable {badHeader badFlit : Bool} {prev : Nat}

theorem routed_badHeader : routed p k true badFlit prev s = returnCredits p (pktVc k) (pktFlits k) (countPort p 4 1 s) := rfl

theorem routed_fencedSource (hf : isFenced s k.src = true) :
    routed p k false badFlit prev s = returnCredits p (pktVc k) (pktFlits k) (countDrop 3 s) := if_pos hf

variable (hf : isFenced s k.src = false)

include hf

theorem routed_outside (ht : inTorus s k.dest = false) :
    routed p k false badFlit prev s = returnCredits p (pktVc k) (pktFlits k) (countDrop 1 s) := by
  unfold routed
  rw [hf, ht]
  rfl

variable (ht : inTorus s k.dest = true)

include ht

theorem routed_stale (hr : routeBank s k.epoch = none) :
    routed p k false badFlit prev s = returnCredits p (pktVc k) (pktFlits k) (countDrop 0 s) := by
  unfold routed
  rw [hf, ht, hr]
  rfl

variable {bank : W64} (hr : routeBank s k.epoch = some bank)

include hr

theorem routed_fencedDest (hd : k.dest ≠ ownRank s) (hfd : isFenced s k.dest = true) : routed p k false badFlit prev s =
    if pktData k then sendControl 5 k.src k.seq 0 false k.dest (returnCredits p (pktVc k) (pktFlits k) (countDrop 2 s))
    else returnCredits p (pktVc k) (pktFlits k) (countDrop 2 s) := by
  unfold routed
  rw [hf, ht, hr, hfd, bne_iff_ne.2 hd]
  rfl

theorem routed_crosses (hd : k.dest = ownRank s ∨ isFenced s k.dest = false) :
    routed p k false badFlit prev s = cross ⟨p, pktVc k, some prev, (arrivedPacket k), badFlit⟩ s := by
  have hno : (isFenced s k.dest && k.dest != ownRank s) = false := by
    rcases hd with h | h
    · rw [h, bne_self_eq_false, Bool.and_false]
    · rw [h, Bool.false_and]
  unfold routed
  rw [hf, ht, hr, hno]
  rfl

end Routed

/-- Whatever becomes of a packet, its flits stay counted. -/
theorem routed_cnt (p : Nat) (k : Packet) (badHeader badFlit : Bool) (prev : Nat) (s : State) :
    tget 0 (getPort (routed p k badHeader badFlit prev s) p).cnt 1 = tget 0 (getPort s p).cnt 1 := by
  have hgone : ∀ t, tget 0 (getPort (returnCredits p (pktVc k) (pktFlits k) t) p).cnt 1 = tget 0 (getPort t p).cnt 1 := fun t => by
    rw [getPort_congr (returnCredits_lk ..)]
  have hcount : tget 0 (getPort (countPort p 4 1 s) p).cnt 1 = tget 0 (getPort s p).cnt 1 :=
    modPort_keeps (fun v => tget 0 v.cnt 1) (fun v => by rw [taddW, tget_tput, if_neg (by decide)]) p p
  unfold routed
  dsimp only
  split
  · exact (hgone _).trans hcount
  · split
    · exact hgone _
    · split
      · exact hgone _
      · split
        · exact hgone _
        · split
          · split
            · rw [sendControl_cnt _ _ _ _ _ _ _ p (by decide) (by decide)]
              exact hgone _
            · exact hgone _
          · exact cross_cnt _ s p (by decide) (by decide)

/-! ### A module whose queues stand as they did -/

/-- Two states that a packet crosses alike: the same routes and room, nothing moved or counted; of the ports, parts that no packet
reads may differ. -/
structure SameQueues (s t : State) : Prop where
  beside : BesidePackets s t
  drops : t.lk.drops = s.lk.drops
  rxq : t.lk.rxq = s.lk.rxq
  env : t.env = s.env
  count : t.lk.ports.length = s.lk.ports.length
  routes : SameRoutes s t
  egress : ∀ q, (getPort t q).egress = (getPort s q).egress
  lanes : ∀ q, (getPort t q).wireLanes = (getPort s q).wireLanes

theorem modPort_sameQueues {f : Port → Port} (p : Nat) (s : State)
    (hup : ∀ v : Port, ((f v).state, (f v).farState, (f v).farDraining) = (v.state, v.farState, v.farDraining) := by exact fun _ => rfl)
    (hdir : ∀ v : Port, (f v).dir = v.dir := by exact fun _ => rfl)
    (hegress : ∀ v : Port, (f v).egress = v.egress := by exact fun _ => rfl)
    (hlanes : ∀ v : Port, (f v).wireLanes = v.wireLanes := by exact fun _ => rfl) : SameQueues s (modPort s p f) :=
  ⟨rfl, rfl, rfl, rfl, (modPort_actsOnPort s p f).1.count, modPort_sameRoutes p s hup hdir,
    fun q => modPort_keeps Port.egress hegress p q, fun q => modPort_keeps Port.wireLanes hlanes p q⟩

theorem countPort_sameQueues (p n m : Nat) (s : State) : SameQueues s (countPort p n m s) :=
  modPort_sameQueues (f := fun v => { v with cnt := taddW v.cnt n m }) p s

namespace SameQueues

variable (h : SameQueues s t)

include h

theorem fenced (r : Nat) : isFenced t r = isFenced s r := h.beside.keeps fun s => isFenced s r

theorem own : ownRank t = ownRank s := h.beside.keeps ownRank

theorem bank (e : Nat) : routeBank t e = routeBank s e := h.beside.keeps fun s => routeBank s e

theorem torus (r : Nat) : inTorus t r = inTorus s r := h.beside.keeps fun s => inTorus s r

theorem room (q : Nat) (k : Packet) : stagingRoom t q k = stagingRoom s q k := by
  unfold stagingRoom
  rw [h.egress]

/-- A packet whose next hop the routes name crosses as the room of its staging buffer allows. -/
theorem onward (hten : TenPorts s) {bank : W64} {q : Nat} {k' : Packet}
    (hb : (t.lk.crossing.any fun y => y.ingress == x.ingress && y.vc == x.vc) = false) (hd : x.pkt.dest ≠ ownRank s)
    (hr : routeBank s x.pkt.epoch = some bank) (hn : nextHop s bank x.prev x.pkt = some (q, k')) :
    (stagingRoom s q k' = false → cross x t = waitCross x t) ∧
    (stagingRoom s q k' = true → (cross x t).lk.crossing = t.lk.crossing ∧
      (x.ingress < 10 → (cross x t).env.credits = s.env.credits ++ [(x.ingress, x.vc, pktFlits x.pkt)]) ∧
      ∃ k3, (k3 = k' ∨ k3 = { k' with cmark := true }) ∧ (⟨pktVc k3, k3, x.bad⟩ ∈ (getPort (cross x t) q).egress ∨
        (q, k3, x.bad, (getPort s q).wireLanes) ∈ (cross x t).env.wire)) := by
  have hdt : x.pkt.dest ≠ ownRank t := by rw [h.own]; exact hd
  have hrt : routeBank t x.pkt.epoch = some bank := by rw [h.bank]; exact hr
  have hnt : nextHop t bank x.prev x.pkt = some (q, k') := by rw [h.routes.nextHop]; exact hn
  have hl : q < t.lk.ports.length := by rw [h.count]; exact hten.lt (nextHop_lt hn)
  refine ⟨fun hro => cross_full hb hdt hrt hnt (by rw [h.room]; exact hro), fun hro => ?_⟩
  obtain ⟨k3, hk3, hplace⟩ := enqueue_places hl k' x.bad
  rw [cross_onward hb hdt hrt hnt (by rw [h.room]; exact hro), returnCredits_lk, getPort_congr (returnCredits_lk ..), returnCredits_wire]
  refine ⟨rfl, fun hi => ?_, k3, hk3, by rw [← h.lanes]; exact hplace⟩
  rw [returnCredits_credits hi, ← h.env]
  rfl

/-- What a drop leaves: it is counted, the room's credits go back, and nothing moves. -/
theorem dropped (hp : p < 10) (n : Nat) (k : Packet) :
    let u := returnCredits p (pktVc k) (pktFlits k) (countDrop n t)
    tget 0 u.lk.drops n = tget 0 s.lk.drops n + 1 ∧ u.env.credits = s.env.credits ++ [(p, pktVc k, pktFlits k)] ∧
      u.lk.rxq = s.lk.rxq ∧ u.env.wire = s.env.wire := by
  dsimp only
  rw [returnCredits_lk, drops_countDrop, if_pos rfl, returnCredits_credits hp, returnCredits_wire, h.drops, ← h.rxq, ← h.env]
  exact ⟨rfl, rfl, rfl, rfl⟩

end SameQueues

theorem deliverHere_delivers {bad : Bool} (hk : pktReserved k = false) : (deliverHere k bad s).lk.rxq = s.lk.rxq ++ [(k, bad)] ∧
    (deliverHere k bad s).env = s.env := by
  unfold deliverHere
  rw [hk]
  exact ⟨rfl, rfl⟩

theorem deliverHere_reserved {bad : Bool} (hk : pktReserved k = true) : deliverHere k bad s = countDrop 7 s := if_pos hk

/-- A header that fails its check: the packet is counted at its port and goes no further (R311). -/
theorem routed_badHeader_drops (h : SameQueues s t) (hp : p < 10) (hl : p < s.lk.ports.length) (k : Packet) (badFlit : Bool) (prev : Nat)
    (hcnt : tget 0 (getPort t p).cnt 4 = tget 0 (getPort s p).cnt 4) :
    let u := routed p k true badFlit prev t
    tget 0 (getPort u p).cnt 4 = tget 0 (getPort s p).cnt 4 + 1 ∧ u.env.credits = s.env.credits ++ [(p, pktVc k, pktFlits k)] ∧
      u.lk.drops = s.lk.drops ∧ u.lk.rxq = s.lk.rxq ∧ u.env.wire = s.env.wire := by
  dsimp only
  rw [routed_badHeader, getPort_congr (returnCredits_lk ..), returnCredits_credits hp, returnCredits_wire, returnCredits_lk, countPort,
    getPort_modPort_same (by rw [h.count]; exact hl), ← hcnt, ← h.drops, ← h.rxq, ← h.env]
  refine ⟨?_, rfl, rfl, rfl, rfl⟩
  rw [taddW, tget_tput, if_pos rfl]
  rfl

/-- Settles O23: the packet's checks in their order, then the crossing. -/
theorem arrivingPacketsAreRoutedOrCounted : Obligations.ArrivingPacketsAreRoutedOrCounted := by
  unfold Obligations.ArrivingPacketsAreRoutedOrCounted
  intro s p k badHeader badFlit hs hp v own k1 drop freed x behind waits hst
  have hl := hs.lt hp
  refine ⟨_, exec_packetRoute hp hst k badHeader badFlit, ?_, fun hbad => ?_, fun hbad => ?_⟩
  · rw [routed_cnt, countPort, getPort_modPort_same hl]
    simp [taddW, v]
  · subst hbad
    refine routed_badHeader_drops (countPort_sameQueues p 1 _ s) hp hl k badFlit _ ?_
    rw [countPort, getPort_modPort_same hl, taddW, tget_tput, if_neg (by decide)]
  subst hbad
  have h := countPort_sameQueues p 1 (pktFlits k) s
  have hcross : (countPort p 1 (pktFlits k) s).lk.crossing = s.lk.crossing := rfl
  generalize countPort p 1 (pktFlits k) s = s1 at h hcross ⊢
  have hdrop := fun n => h.dropped hp n k
  refine ⟨fun hf => ?_, fun hf => ?_⟩
  · rw [routed_fencedSource (by rw [h.fenced]; exact hf)]
    exact hdrop 3
  have hf1 : isFenced s1 k.src = false := by rw [h.fenced]; exact hf
  refine ⟨fun ht => ?_, fun ht => ?_⟩
  · rw [routed_outside hf1 (by rw [h.torus]; exact ht)]
    exact hdrop 1
  have ht1 : inTorus s1 k.dest = true := by rw [h.torus]; exact ht
  refine ⟨fun hr => ?_, fun bank hr => ?_⟩
  · rw [routed_stale hf1 ht1 (by rw [h.bank]; exact hr)]
    exact hdrop 0
  have hr1 : routeBank s1 k.epoch = some bank := by rw [h.bank]; exact hr
  have hcrosses : ∀ (hd : k.dest = own ∨ isFenced s k.dest = false), routed p k false badFlit (v.dir / 2) s1 = cross x s1 := fun hd =>
    routed_crosses hf1 ht1 hr1 (by rw [h.own, h.fenced]; exact hd)
  have hwait : waits (waitCross x s1) := ⟨congrArg (· ++ [x]) hcross, h.rxq, h.env⟩
  have hbehind : (s1.lk.crossing.any fun y => y.ingress == x.ingress && y.vc == x.vc) = behind := by rw [hcross]
  have hdest : x.pkt.dest = k.dest := arrivedPacket_keeps Packet.dest k
  have hepoch : x.pkt.epoch = k.epoch := arrivedPacket_keeps Packet.epoch k
  have hflits : pktFlits x.pkt = pktFlits k := arrivedPacket_keeps pktFlits k
  have hres : pktReserved x.pkt = pktReserved k := arrivedPacket_keeps pktReserved k
  refine ⟨fun hbe hd => ?_, fun hbe hd hk => ?_, fun hbe hd hk => ?_, fun hd hfd => ?_, fun hbe hd hfd => ⟨fun hn => ?_, fun q k2 hn => ?_⟩⟩
  · rw [hcrosses hd, cross_behind (hbehind.trans hbe)]
    exact hwait
  · rw [hcrosses (.inl hd), cross_here (hbehind.trans hbe) (by rw [hdest, h.own]; exact hd), hflits]
    obtain ⟨h1, h2⟩ := deliverHere_delivers (s := s1) (bad := badFlit) (hres.trans hk)
    refine ⟨?_, ?_, ?_⟩
    · rw [returnCredits_lk, h1, h.rxq]
    · exact (returnCredits_credits hp _ _ _).trans (by rw [h2, h.env])
    · rw [returnCredits_wire, h2, h.env]
  · rw [hcrosses (.inl hd), cross_here (hbehind.trans hbe) (by rw [hdest, h.own]; exact hd), hflits,
      deliverHere_reserved (hres.trans hk)]
    obtain ⟨h1, h2, h3, -⟩ := hdrop 7
    exact ⟨h1, h2, h3⟩
  · rw [routed_fencedDest hf1 ht1 hr1 (by rw [h.own]; exact hd) (by rw [h.fenced]; exact hfd)]
    obtain ⟨h1, -, h3, h4⟩ := hdrop 2
    split
    next hk =>
      refine ⟨?_, fun hno => absurd (hk.symm.trans hno) (by decide)⟩
      show tget 0 _ 2 = _
      rw [sendControl_drops _ _ _ _ _ _ _ (by decide) (by decide) (by decide)]
      exact h1
    · exact ⟨h1, fun _ => ⟨h3, h4⟩⟩
  · rw [hcrosses (.inr hfd), cross_nowhere (bank := bank) (hbehind.trans hbe) (by rw [hdest, h.own]; exact hd)
      (by rw [hepoch]; exact hr1) (by rw [h.routes.nextHop]; exact hn), hflits]
    obtain ⟨h1, h2, -, h4⟩ := hdrop 1
    exact ⟨h1, h2, h4⟩
  · rw [hcrosses (.inr hfd)]
    obtain ⟨hfull, hroom⟩ := h.onward hs (hbehind.trans hbe) (by rw [hdest]; exact hd) (by rw [hepoch]; exact hr) hn
    refine ⟨nextHop_lt hn, fun hro => by rw [hfull hro]; exact hwait, fun hro => ?_⟩
    obtain ⟨-, hcredits, hplace⟩ := hroom hro
    rw [hflits] at hcredits
    exact ⟨hcredits hp, hplace⟩

end Sys2Proof.Machine
end

section
/-!
PROOF. Data packets received, injection under the window, and credits returned (R312 to R314, R318, R321 to R323, R326, R327).
-/

namespace Sys2Proof.Machine

open Sys2Proof

variable {s t u : State} {p : Nat} {k : Packet} {x : Crossing}

/-! ### The delivery queue -/

theorem popRx_rxq {k : Packet} {bad : Bool} {rest : List (Packet × Bool)} (h : s.lk.rxq = (k, bad) :: rest) :
    (popRx s).lk.rxq = rest := by
  show s.lk.rxq.drop 1 = rest
  rw [h]
  rfl

theorem rxHead_data {bad : Bool} {rest : List (Packet × Bool)} (h : s.lk.rxq = (k, bad) :: rest) (hk : pktData k = true) :
    rxHead s true 0 = some (k, bad) := by
  unfold rxHead
  rw [h]
  exact if_pos hk

theorem rxHead_control {bad : Bool} {rest : List (Packet × Bool)} (h : s.lk.rxq = (k, bad) :: rest) {typ : Nat} (hk : k.typ = typ) :
    rxHead s false typ = some (k, bad) := by
  unfold rxHead
  rw [h]
  exact if_pos (beq_iff_eq.2 hk)

/-! ### ACKs sent (R323) -/

theorem sendAck_peer (src seq : Nat) (s : State) (r : Nat) : getPeer (sendAck src seq s) r =
    if r = src then { getPeer s src with unacked := 0, echo := false } else getPeer s r := by
  unfold sendAck
  rw [(sendControl_beside ..).peer, getPeer_setPeer]

theorem sendAck_rxq {src : Nat} (hs : src ≠ ownRank s) (seq : Nat) : (sendAck src seq s).lk.rxq = s.lk.rxq :=
  sendControl_rxq (s := setPeer s src _) (hd := hs) ..

theorem sendAck_engq (src seq : Nat) (s : State) : (sendAck src seq s).lk.engq = s.lk.engq :=
  (sendControl_beside ..).keeps fun s => s.lk.engq

theorem sendAck_drops (src seq : Nat) (s : State) {n : Nat} (h0 : n ≠ 0) (h1 : n ≠ 1) (h7 : n ≠ 7) :
    tget 0 (sendAck src seq s).lk.drops n = tget 0 s.lk.drops n :=
  sendControl_drops _ _ _ _ _ _ (setPeer s src _) h0 h1 h7

/-! ### DATA_PACKET_RECEIVE -/

/-- How far a packet's number lies beyond the next expected (R321). -/
def aheadOf (s : State) (k : Packet) : Nat := (k.seq + 2 ^ 24 - (getPeer s k.src).rxNext) % 2 ^ 24

theorem receiveData_bad {bad : Bool} (h : bad = true ∨ crcHolds k = false) : receiveData k bad s =
    sendControl 4 k.src k.seq (getPeer s k.src).rxNext (getPeer s k.src).echo 0 (countDrop 4 s) := by
  unfold receiveData
  exact if_pos (by simpa using h)

theorem receiveData_good (hc : crcHolds k = true) : receiveData k false s =
    if aheadOf s k ≤ 511 && !(getPeer s k.src).rxSeen.contains k.seq then acceptData k s
    else if aheadOf s k ≤ 511 || 2 ^ 23 ≤ aheadOf s k then sendAck k.src k.seq (countDrop 5 s)
    else countDrop 8 s := by
  unfold receiveData
  exact if_neg (by rw [hc]; decide)

/-- A packet accepted goes to its engine's queue, and is the pair's last. -/
theorem acceptData_accepts (hs : k.src ≠ ownRank s) : (acceptData k s).lk.rxq = s.lk.rxq ∧ (acceptData k s).lk.engq = s.lk.engq ++ [k] ∧
    (getPeer (acceptData k s) k.src).lastSeq = k.seq := by
  unfold acceptData
  extract_lets v gap a v1 _ s1
  have h1 : getPeer s1 k.src = v1 := by
    unfold s1
    rw [getPeer_setPeer, if_pos rfl]
  split
  · refine ⟨sendAck_rxq (s := s1) hs _, sendAck_engq .., ?_⟩
    rw [sendAck_peer, if_pos rfl, h1]
  · exact ⟨rfl, rfl, by rw [h1]⟩

/-- Settles O24: the checks in their order; of what each answers, nothing reaches this module's delivery queue. -/
theorem dataPacketsReachTheirEngineOnce : Obligations.DataPacketsReachTheirEngineOnce := by
  unfold Obligations.DataPacketsReachTheirEngineOnce
  intro s k bad rest hq hk hsrc v dist seen count
  refine ⟨receiveData k bad (popRx s), ?_, ?_⟩
  · show (.next _ : Out) = _
    rw [rxHead_data hq hk]
  have hrx := popRx_rxq hq
  have hdrops : ∀ n, tget 0 (countDrop n (popRx s)).lk.drops n = tget 0 s.lk.drops n + 1 := fun n => by
    rw [drops_countDrop, if_pos rfl]
    rfl
  have hahead : aheadOf (popRx s) k = dist := rfl
  have hseen : (getPeer (popRx s) k.src).rxSeen.contains k.seq = seen := rfl
  have hbad : (bad = true ∨ crcHolds k = false) → (receiveData k bad (popRx s)).lk.rxq = rest ∧
      (receiveData k bad (popRx s)).lk.engq = s.lk.engq ∧ count (receiveData k bad (popRx s)) 4 ∧
      (getPeer (receiveData k bad (popRx s)) k.src).rxNext = v.rxNext := fun h => by
    rw [receiveData_bad h]
    have hb := sendControl_beside 4 k.src k.seq (getPeer (popRx s) k.src).rxNext (getPeer (popRx s) k.src).echo 0 (countDrop 4 (popRx s))
    refine ⟨(sendControl_rxq (s := countDrop 4 (popRx s)) (hd := hsrc) ..).trans hrx, hb.keeps fun s => s.lk.engq, ?_, ?_⟩
    · exact (sendControl_drops _ _ _ _ _ _ _ (by decide) (by decide) (by decide)).trans (hdrops 4)
    · rw [hb.peer]
      rfl
  by_cases hgood : bad = false ∧ crcHolds k = true
  swap
  · have h : bad = true ∨ crcHolds k = false := by
      cases bad with
      | true => exact .inl rfl
      | false => exact .inr (Bool.eq_false_iff.2 fun hc => hgood ⟨rfl, hc⟩)
    obtain ⟨h1, h2, h3, h4⟩ := hbad h
    exact ⟨h1, fun _ => ⟨h2, h3, h4⟩, fun hb hc => absurd ⟨hb, hc⟩ hgood⟩
  obtain ⟨rfl, hc⟩ := hgood
  refine ⟨?_, fun h => absurd h (by rw [hc]; decide), fun _ _ => ?_⟩
  · rw [receiveData_good hc]
    split
    · exact (acceptData_accepts (s := popRx s) hsrc).1.trans hrx
    · split
      · exact (sendAck_rxq (s := countDrop 5 (popRx s)) hsrc _).trans hrx
      · exact hrx
  rw [receiveData_good hc, hahead, hseen]
  have hack : (sendAck k.src k.seq (countDrop 5 (popRx s))).lk.engq = s.lk.engq ∧ count (sendAck k.src k.seq (countDrop 5 (popRx s))) 5 :=
    ⟨sendAck_engq .., (sendAck_drops _ _ _ (by decide) (by decide) (by decide)).trans (hdrops 5)⟩
  refine ⟨fun hd hn => ?_, fun hd hn => ?_, fun hd => ?_, fun hlo hhi => ?_⟩
  · rw [if_pos (by rw [hn, decide_eq_true hd]; rfl)]
    exact (acceptData_accepts (s := popRx s) hsrc).2
  · rw [if_neg (by rw [hn, Bool.not_true, Bool.and_false]; decide), if_pos (by rw [decide_eq_true hd]; rfl)]
    exact hack
  · have hno : ¬ dist ≤ 511 := by omega
    rw [if_neg (by simp [hno]), if_pos (by rw [decide_eq_true hd, Bool.or_true])]
    exact hack
  · have hno : ¬ dist ≤ 511 := by omega
    have hno' : ¬ 2 ^ 23 ≤ dist := by omega
    rw [if_neg (by simp [hno]), if_neg (by rw [decide_eq_false hno, decide_eq_false hno']; exact Bool.false_ne_true)]
    exact ⟨rfl, hdrops 8⟩

/-! ### PACKET_INJECT -/

theorem packetFailed_of_none {cause : Nat} (h : NoCaravan s k.caravan) : packetFailed cause k s = s := by
  unfold packetFailed
  rw [h]

/-- The pair of an injected packet: the packet is numbered and held (R321). -/
theorem injectData_peer (k : Packet) (s : State) (r : Nat) : getPeer (injectData k s) r =
    if r = k.dest then
      let v := getPeer s k.dest
      let v1 := if v.started then v else { v with started := true, w := cfgWinit s, c := 0, r := v.nextSeq }
      { v1 with nextSeq := (v.nextSeq + 1) % 2 ^ 24,
                held := v1.held ++ [⟨{ k with seq := v.nextSeq, src := ownRank s, epoch := s.lk.epoch }, 0⟩] }
    else getPeer s r := by
  unfold injectData
  extract_lets v k' v1 s1
  rw [(launch_beside k' s1).peer, getPeer_setPeer]

section Inject

variable {dest : Nat} {rest : List Packet} (hw : (getPeer s dest).waiting = k :: rest)

include hw

theorem exec_packetInject : exec (.packetInject dest) s = .next (
    if !inTorus s dest then packetFailed 4 k (countDrop 1 (setPeer s dest { getPeer s dest with waiting := rest }))
    else if isFenced s dest then packetFailed 1 k (setPeer s dest { getPeer s dest with waiting := rest })
    else if (getPeer s dest).peerErr then packetFailed 4 k (setPeer s dest { getPeer s dest with waiting := rest })
    else if (getPeer s dest).held.length < windowOf s (getPeer s dest) then
      injectData k (setPeer s dest { getPeer s dest with waiting := rest })
    else s) := by
  show (.next _ : Out) = _
  dsimp only
  rw [hw]

theorem packetInject_injects (ht : inTorus s dest = true) (hk : k.dest = dest) (hf : isFenced s dest = false)
    (he : (getPeer s dest).peerErr = false) (hroom : (getPeer s dest).held.length < windowOf s (getPeer s dest)) :
    let v := getPeer s dest
    Answers (.packetInject dest) s fun t =>
      (getPeer t dest).waiting = rest ∧ (getPeer t dest).nextSeq = (v.nextSeq + 1) % 2 ^ 24 ∧
      (getPeer t dest).held = v.held ++ [⟨{ k with seq := v.nextSeq, src := ownRank s, epoch := s.lk.epoch }, 0⟩] ∧
      (getPeer t dest).peerErr = false ∧ (∀ r, r ≠ dest → getPeer t r = getPeer s r) := by
  intro v
  refine ⟨_, exec_packetInject hw, ?_⟩
  rw [if_neg (by rw [ht]; decide), if_neg (by rw [hf]; decide), if_neg (by rw [he]; decide), if_pos hroom]
  set popped := setPeer s dest { v with waiting := rest }
  have hv : getPeer popped k.dest = { v with waiting := rest } := by rw [hk, getPeer_setPeer, if_pos rfl]
  have hown : ownRank popped = ownRank s := rfl
  have hep : popped.lk.epoch = s.lk.epoch := rfl
  have hother : ∀ r, r ≠ dest → getPeer popped r = getPeer s r := fun r hr => by rw [getPeer_setPeer, if_neg hr]
  clear_value popped
  refine ⟨?_, ?_, ?_, ?_, fun r hr => ?_⟩
  · rw [injectData_peer, if_pos hk.symm, hv]
    dsimp only
    split <;> rfl
  · rw [injectData_peer, if_pos hk.symm, hv]
  · rw [injectData_peer, if_pos hk.symm, hv, hown, hep]
    dsimp only
    split <;> rfl
  · rw [injectData_peer, if_pos hk.symm, hv]
    dsimp only
    split
    · exact he
    · exact he
  · rw [injectData_peer, if_neg (by rw [hk]; exact hr), hother r hr]

theorem packetInject_waits (ht : inTorus s dest = true) (hf : isFenced s dest = false) (he : (getPeer s dest).peerErr = false)
    (hfull : windowOf s (getPeer s dest) ≤ (getPeer s dest).held.length) : exec (.packetInject dest) s = .next s := by
  rw [exec_packetInject hw, if_neg (by rw [ht]; decide), if_neg (by rw [hf]; decide), if_neg (by rw [he]; decide),
    if_neg (by omega)]

theorem packetInject_fenced (ht : inTorus s dest = true) (hf : isFenced s dest = true) (hc : NoCaravan s k.caravan) :
    exec (.packetInject dest) s = .next (setPeer s dest { getPeer s dest with waiting := rest }) := by
  rw [exec_packetInject hw, if_neg (by rw [ht]; decide), if_pos hf, packetFailed_of_none (by exact hc)]

theorem packetInject_peerError (ht : inTorus s dest = true) (hf : isFenced s dest = false) (he : (getPeer s dest).peerErr = true)
    (hc : NoCaravan s k.caravan) :
    exec (.packetInject dest) s = .next (setPeer s dest { getPeer s dest with waiting := rest }) := by
  rw [exec_packetInject hw, if_neg (by rw [ht]; decide), if_neg (by rw [hf]; decide), if_pos he,
    packetFailed_of_none (by exact hc)]

theorem packetInject_outside (ht : inTorus s dest = false) (hc : NoCaravan s k.caravan) : Answers (.packetInject dest) s fun t =>
    (getPeer t dest).waiting = rest ∧ (getPeer t dest).held = (getPeer s dest).held ∧
      tget 0 t.lk.drops 1 = tget 0 s.lk.drops 1 + 1 := by
  refine ⟨_, exec_packetInject hw, ?_⟩
  rw [if_pos (by rw [ht]; rfl), packetFailed_of_none (by exact hc)]
  have hv : getPeer (countDrop 1 (setPeer s dest { getPeer s dest with waiting := rest })) dest = { getPeer s dest with waiting := rest } :=
    (getPeer_setPeer s dest dest _).trans (if_pos rfl)
  refine ⟨by rw [hv], by rw [hv], ?_⟩
  rw [drops_countDrop, if_pos rfl]
  rfl

end Inject

/-! ### CREDIT_RETURN -/

theorem SameQueues.trans (h : SameQueues s t) (g : SameQueues t u) : SameQueues s u :=
  ⟨h.beside.trans g.beside, g.drops.trans h.drops, g.rxq.trans h.rxq, g.env.trans h.env, g.count.trans h.count,
    h.routes.trans g.routes, fun q => (g.egress q).trans (h.egress q), fun q => (g.lanes q).trans (h.lanes q)⟩

/-- With nothing queued a port sends nothing. -/
theorem sendEgress_idle (h : (getPort s p).egress = []) : sendEgress p s = countPort p 0 0 s := by
  simp only [sendEgress, countPort, modPort, h, sendable, List.map_nil, List.foldl_nil, List.append_nil]

/-- The port's share of the credits returned (R314). -/
def credited (p vc flits : Nat) (s : State) : State :=
  modPort s p fun v => { v with used := tput 0 v.used vc (tget 0 v.used vc - flits) }

theorem exec_creditReturn (hp : p < 10) (vc flits : Nat) :
    exec (.creditReturn p vc flits) s = .next (crossAll (sendEgress p (credited p vc flits s))) := by
  show guardUnit (decide (p < 10)) _ = _
  rw [decide_eq_true hp, guardUnit_true]
  rfl

/-- The crossing with no packet in it. -/
def emptied (s : State) : State := { s with lk := { s.lk with crossing := [] } }

theorem emptied_sameQueues (s : State) : SameQueues s (emptied s) :=
  ⟨rfl, rfl, rfl, rfl, rfl, ⟨rfl, rfl, fun _ => rfl, fun _ => rfl⟩, fun _ => rfl, fun _ => rfl⟩

theorem crossAll_nil (h : s.lk.crossing = []) : crossAll s = emptied s := by
  unfold crossAll
  rw [h]
  rfl

theorem crossAll_one (h : s.lk.crossing = [x]) : crossAll s = cross x (emptied s) := by
  unfold crossAll
  rw [h]
  rfl

/-- A packet alone in its queue leaves as its channel's credits allow. -/
theorem sendable_one (q : Queued) (used : Tbl Nat) : sendable [q] [] used =
    if pktFlits q.pkt ≤ creditsFor used q.vc then ([], tadd used q.vc (pktFlits q.pkt), [q]) else ([q], used, []) := by
  simp [sendable]

section Credits

variable (hs : TenPorts s) (hp : p < 10) (vc flits : Nat)

include hs hp

theorem getPort_credited : getPort (credited p vc flits s) p =
    { getPort s p with used := tput 0 (getPort s p).used vc (tget 0 (getPort s p).used vc - flits) } :=
  getPort_modPort_same (hs.lt hp) _

theorem creditReturn_crosses {bank : W64} {q : Nat} (he : (getPort s p).egress = []) (hx : s.lk.crossing = [x])
    (hd : x.pkt.dest ≠ ownRank s) (hr : routeBank s x.pkt.epoch = some bank) (hn : nextHop s bank x.prev x.pkt = some (q, k)) :
    Answers (.creditReturn p vc flits) s fun t =>
      (stagingRoom s q k = false → t.lk.crossing = [x] ∧ t.env = s.env) ∧
      (stagingRoom s q k = true → t.lk.crossing = [] ∧
        (x.ingress < 10 → t.env.credits = s.env.credits ++ [(x.ingress, x.vc, pktFlits x.pkt)]) ∧
        ∃ k3, (k3 = k ∨ k3 = { k with cmark := true }) ∧
          (⟨pktVc k3, k3, x.bad⟩ ∈ (getPort t q).egress ∨ (q, k3, x.bad, (getPort s q).wireLanes) ∈ t.env.wire)) := by
  refine ⟨_, exec_creditReturn hp vc flits, ?_⟩
  rw [sendEgress_idle (by rw [getPort_credited hs hp]; exact he), crossAll_one (by exact hx)]
  have hcredit : SameQueues s (credited p vc flits s) :=
    modPort_sameQueues (f := fun v => { v with used := tput 0 v.used vc (tget 0 v.used vc - flits) }) p s
  have h : SameQueues s (emptied (countPort p 0 0 (credited p vc flits s))) :=
    (hcredit.trans (countPort_sameQueues p 0 0 _)).trans (emptied_sameQueues _)
  have hnil : (emptied (countPort p 0 0 (credited p vc flits s))).lk.crossing = [] := rfl
  obtain ⟨hfull, hroom⟩ := h.onward hs (x := x) (by rw [hnil]; rfl) hd hr hn
  refine ⟨fun hro => ?_, fun hro => ?_⟩
  · rw [hfull hro]
    exact ⟨rfl, h.env⟩
  · obtain ⟨h1, h2, h3⟩ := hroom hro
    exact ⟨h1, h2, h3⟩

theorem creditReturn_idle (he : (getPort s p).egress = []) (hx : s.lk.crossing = []) :
    Answers (.creditReturn p vc flits) s fun t => OnlyPort p s t ∧ t.env = s.env ∧ (getPort t p).egress = [] ∧
      (getPort t p).used = tput 0 (getPort s p).used vc (tget 0 (getPort s p).used vc - flits) := by
  refine ⟨_, exec_creditReturn hp vc flits, ?_⟩
  rw [sendEgress_idle (by rw [getPort_credited hs hp]; exact he), crossAll_nil (by exact hx)]
  have hacts : ActsOnPort p s (credited p vc flits s) := modPort_actsOnPort s p _
  have hv : getPort (countPort p 0 0 (credited p vc flits s)) p = _ :=
    getPort_modPort_same (by rw [hacts.1.count]; exact hs.lt hp) _
  have hport : getPort (emptied (countPort p 0 0 (credited p vc flits s))) p = getPort (countPort p 0 0 (credited p vc flits s)) p := rfl
  refine ⟨(hacts.trans (countPort_actsOnPort p 0 0 _)).2, rfl, ?_, ?_⟩
  · rw [hport, hv, getPort_credited hs hp]
    exact he
  · rw [hport, hv, getPort_credited hs hp]

theorem creditReturn_sends {q : Queued} (he : (getPort s p).egress = [q]) (hx : s.lk.crossing = []) :
    let v := getPort s p
    let used := tput 0 v.used vc (tget 0 v.used vc - flits)
    Answers (.creditReturn p vc flits) s fun t => OnlyPort p s t ∧
      (pktFlits q.pkt ≤ creditsFor used q.vc → (getPort t p).egress = [] ∧
        t.env.wire = s.env.wire ++ [(p, q.pkt, q.bad, v.wireLanes)] ∧
        tget 0 (getPort t p).used q.vc = tget 0 used q.vc + pktFlits q.pkt) ∧
      (creditsFor used q.vc < pktFlits q.pkt → (getPort t p).egress = [q] ∧ t.env.wire = s.env.wire ∧
        (getPort t p).used = used) := by
  intro v used
  refine ⟨_, exec_creditReturn hp vc flits, ?_⟩
  rw [crossAll_nil (by exact hx)]
  have hacts : ActsOnPort p s (credited p vc flits s) := modPort_actsOnPort s p _
  have hl : p < (credited p vc flits s).lk.ports.length := by rw [hacts.1.count]; exact hs.lt hp
  have hsend : ActsOnPort p (credited p vc flits s) (sendEgress p (credited p vc flits s)) := actsOnPort_of_setPort rfl rfl
  have hv := getPort_credited hs hp vc flits
  have hport : getPort (sendEgress p (credited p vc flits s)) p = (getPort (credited p vc flits s) p).sent :=
    getPort_of_lk hl (sendEgress_lk p _)
  have hwire : (emptied (sendEgress p (credited p vc flits s))).env.wire =
      s.env.wire ++ (getPort (credited p vc flits s) p).sending p := rfl
  have hempty : getPort (emptied (sendEgress p (credited p vc flits s))) p = getPort (sendEgress p (credited p vc flits s)) p := rfl
  dsimp only
  rw [hempty, hport, hwire, hv]
  refine ⟨(hacts.trans hsend).2, fun hc => ?_, fun hc => ?_⟩
  · have hsend : sendable (getPort s p).egress [] used = ([], tadd used q.vc (pktFlits q.pkt), [q]) := by
      rw [he, sendable_one, if_pos hc]
    unfold Port.sent Port.sending
    dsimp only
    rw [hsend]
    refine ⟨rfl, rfl, ?_⟩
    show tget 0 (tadd used q.vc (pktFlits q.pkt)) q.vc = _
    rw [tadd, tget_tput, if_pos rfl]
  · have hsend : sendable (getPort s p).egress [] used = ([q], used, []) := by
      rw [he, sendable_one, if_neg (by omega)]
    unfold Port.sent Port.sending
    dsimp only
    rw [hsend]
    exact ⟨rfl, List.append_nil _, rfl⟩

end Credits

/-- Settles O25: the window's and the fence's branches of an injection, and a queue of at most one packet as its credits return. -/
theorem injectionAndCreditsGatePackets : Obligations.InjectionAndCreditsGatePackets := by
  unfold Obligations.InjectionAndCreditsGatePackets
  refine ⟨fun s dest k rest => ?_, fun s dest k rest => ?_, fun s p vc flits hs hp => ?_⟩
  · intro v hw ht hk
    exact ⟨packetInject_injects hw ht hk, packetInject_waits hw ht, packetInject_fenced hw ht, packetInject_peerError hw ht⟩
  · intro v hw ht hc
    exact packetInject_outside hw ht hc
  · exact ⟨fun x bank q k => creditReturn_crosses hs hp vc flits, creditReturn_idle hs hp vc flits,
      fun q => creditReturn_sends hs hp vc flits⟩

end Sys2Proof.Machine
end

section
/-!
PROOF. ACK, NACK and FENCED, the pair's timers and the peer error (R320, R323, R324, R326, R328, R552, Table 10.19).
-/

namespace Sys2Proof.Machine

open Sys2Proof

variable {s t u : State} {k : Packet}

/-! ### Held packets -/

theorem packetAcked_of_none (h : NoCaravan s k.caravan) : packetAcked k s = s := by
  unfold packetAcked
  rw [h]

/-- Acknowledged packets of no live caravan concern no engine. -/
theorem foldl_packetAcked_of_none (l : List HeldPkt) (h : ∀ x ∈ l, NoCaravan s x.pkt.caravan) :
    l.foldl (fun st x => packetAcked x.pkt st) s = s := by
  induction l with
  | nil => rfl
  | cons x r ih =>
    rw [List.foldl_cons, packetAcked_of_none (h x List.mem_cons_self)]
    exact ih fun y hy => h y (List.mem_cons_of_mem _ hy)

/-- Failed packets of no live caravan concern no engine. -/
theorem foldl_packetFailed_of_none (cause : Nat) (l : List Packet) (h : ∀ x ∈ l, NoCaravan s x.caravan) :
    l.foldl (fun st x => packetFailed cause x st) s = s := by
  induction l with
  | nil => rfl
  | cons x r ih =>
    rw [List.foldl_cons, packetFailed_of_none (h x List.mem_cons_self)]
    exact ih fun y hy => h y (List.mem_cons_of_mem _ hy)

theorem lremove_of_none {α : Type} {p : α → Bool} {l : List α} (h : l.find? p = none) : lremove p l = l := by
  induction l with
  | nil => rfl
  | cons x r ih =>
    have hx := List.find?_eq_none.1 h x List.mem_cons_self
    rw [List.find?_cons_of_neg hx] at h
    unfold lremove
    rw [if_neg hx, ih h]

/-- The window answers an acknowledgement, and nothing else of the pair (R326). -/
theorem adjustWindow_keeps {α : Type} (g : Peer → α) (s : State) (v : Peer) (n : Nat) (echo : Bool) (a : Nat)
    (hg : ∀ (v : Peer) w c r, g { v with w := w, c := c, r := r } = g v := by exact fun _ _ _ _ => rfl) :
    g (adjustWindow s v n echo a) = g v := by
  unfold adjustWindow
  split
  · split
    · rfl
    · exact hg ..
  · exact hg v _ _ v.r

/-- Whether an acknowledgement releases a held packet: those before its ACK_SEQ, but the one it names as `named` says. -/
def released (k : Packet) (named : Bool) (h : HeldPkt) : Bool :=
  if h.pkt.seq = k.seq then named else seqLater k.ackSeq h.pkt.seq

theorem released_named (h : HeldPkt) :
    released k true h = (seqLater k.ackSeq h.pkt.seq || h.pkt.seq == k.seq) := by
  unfold released
  split
  next he => rw [beq_iff_eq.2 he, Bool.or_true]
  next he => rw [beq_false_of_ne he, Bool.or_false]

theorem not_released_unnamed (h : HeldPkt) :
    (!released k false h) = (h.pkt.seq == k.seq || !seqLater k.ackSeq h.pkt.seq) := by
  unfold released
  split
  next he => rw [beq_iff_eq.2 he, Bool.true_or, Bool.not_false]
  next he => rw [beq_false_of_ne he, Bool.false_or]

/-- A pair once an acknowledgement has released what it does. -/
def ackedPeer (s : State) (k : Packet) (named : Bool) : Peer :=
  let v := getPeer s k.src
  adjustWindow s { v with held := v.held.filter fun h => !released k named h } (v.held.filter (released k named)).length k.echo k.ackSeq

theorem ackedPeer_held (s : State) (k : Packet) (named : Bool) :
    (ackedPeer s k named).held = (getPeer s k.src).held.filter fun h => !released k named h :=
  adjustWindow_keeps Peer.held ..

/-- For packets of no live caravan, a release writes the pair alone. -/
theorem releaseHeld_eq {named : Bool} (hc : ∀ h ∈ (getPeer s k.src).held, NoCaravan s h.pkt.caravan) :
    releaseHeld k named s = setPeer s k.src (ackedPeer s k named) := by
  unfold releaseHeld
  exact foldl_packetAcked_of_none _ fun h hh => hc h (List.mem_of_mem_filter hh)

/-! ### Resends (R320, R324, R552) -/

/-- A held packet as it goes out again under the current epoch. -/
def resent (s : State) (h : HeldPkt) : Packet := { h.pkt with epoch := s.lk.epoch }

/-- A pair whose packet of a number goes out again. -/
def resendPeer (s : State) (dest seq : Nat) (h : HeldPkt) : Peer :=
  { getPeer s dest with held := (getPeer s dest).held.map fun x => if x.pkt.seq = seq then ⟨resent s h, x.resends + 1⟩ else x }

theorem resendHeld_of_some {dest seq : Nat} {h : HeldPkt} (hf : ((getPeer s dest).held.find? fun x => x.pkt.seq == seq) = some h) :
    resendHeld dest seq s = launch (resent s h) (countDrop 6 (setPeer s dest (resendPeer s dest seq h))) := by
  unfold resendHeld
  dsimp only
  rw [hf]
  rfl

theorem resendHeld_of_none {dest seq : Nat} (hf : ((getPeer s dest).held.find? fun x => x.pkt.seq == seq) = none) :
    resendHeld dest seq s = s := by
  unfold resendHeld
  dsimp only
  rw [hf]

theorem resendHeld_peer {dest seq : Nat} {h : HeldPkt} (hf : ((getPeer s dest).held.find? fun x => x.pkt.seq == seq) = some h) (r : Nat) :
    getPeer (resendHeld dest seq s) r = if r = dest then resendPeer s dest seq h else getPeer s r := by
  rw [resendHeld_of_some hf, (launch_beside ..).peer]
  exact getPeer_setPeer s dest r _

theorem resendHeld_rxq {dest seq : Nat} (hd : ∀ h ∈ (getPeer s dest).held, h.pkt.dest ≠ ownRank s) :
    (resendHeld dest seq s).lk.rxq = s.lk.rxq := by
  cases hf : (getPeer s dest).held.find? fun x => x.pkt.seq == seq with
  | none => rw [resendHeld_of_none hf]
  | some h =>
    rw [resendHeld_of_some hf]
    exact launch_rxq (s := countDrop 6 (setPeer s dest (resendPeer s dest seq h))) (k := resent s h) (hd h (List.mem_of_find?_eq_some hf))

/-- Outside the torus the packet leaves the queue instead, counted (R552). -/
theorem resendOrFail_outside {dest seq : Nat} {h : HeldPkt} (ht : inTorus s dest = false)
    (hf : ((getPeer s dest).held.find? fun x => x.pkt.seq == seq) = some h) (hc : NoCaravan s h.pkt.caravan) :
    resendOrFail dest seq s = countDrop 1 (setPeer s dest
      { getPeer s dest with held := lremove (fun x => x.pkt.seq == seq) (getPeer s dest).held }) := by
  unfold resendOrFail
  dsimp only
  rw [ht, hf]
  exact packetFailed_of_none (by exact hc)

theorem resendOrFail_none {dest seq : Nat} (ht : inTorus s dest = false)
    (hf : ((getPeer s dest).held.find? fun x => x.pkt.seq == seq) = none) : resendOrFail dest seq s = s := by
  unfold resendOrFail
  dsimp only
  rw [ht, hf]
  rfl

theorem resendOrFail_inside {dest : Nat} (ht : inTorus s dest = true) (seq : Nat) :
    resendOrFail dest seq s = resendHeld dest seq s := if_pos ht

/-! ### What a resend leaves in the queue -/

section Resend

variable {dest seq : Nat} {h : HeldPkt}

theorem find_seq (hf : ((getPeer s dest).held.find? fun x => x.pkt.seq == seq) = some h) : h.pkt.seq = seq := by
  have h' := List.find?_some hf
  exact beq_iff_eq.1 h'

theorem mem_resendPeer_other {x : HeldPkt} (hf : ((getPeer s dest).held.find? fun x => x.pkt.seq == seq) = some h)
    (hx : x.pkt.seq ≠ seq) : x ∈ (resendPeer s dest seq h).held ↔ x ∈ (getPeer s dest).held := by
  unfold resendPeer
  rw [List.mem_map]
  refine ⟨?_, fun hm => ⟨x, hm, if_neg hx⟩⟩
  rintro ⟨y, hy, hxy⟩
  split at hxy
  next he =>
    rw [← hxy] at hx
    exact absurd (find_seq hf) hx
  · rw [← hxy]
    exact hy

/-- The packet resent, and no other, counts one resend more. -/
theorem resends_resendPeer (hf : ((getPeer s dest).held.find? fun x => x.pkt.seq == seq) = some h) :
    ((resendPeer s dest seq h).held.filter fun x => x.pkt.seq == seq).map HeldPkt.resends =
      ((getPeer s dest).held.filter fun x => x.pkt.seq == seq).map fun x => x.resends + 1 := by
  unfold resendPeer
  have hseq : (resent s h).seq = seq := find_seq hf
  dsimp only
  induction (getPeer s dest).held with
  | nil => rfl
  | cons x r ih =>
    rw [List.map_cons]
    by_cases hx : x.pkt.seq = seq
    · simp [hx, hseq, ih]
    · simp [hx, ih]

end Resend

/-! ### The rows of the acknowledgements -/

section Rows

variable {bad : Bool} {rest : List (Packet × Bool)} (hq : s.lk.rxq = (k, bad) :: rest)

include hq

theorem exec_ack (hk : k.typ = 3) : exec .ack s =
    .next (if bad || !crcHolds k then countDrop 4 (popRx s) else releaseHeld k true (popRx s)) := by
  show (.next _ : Out) = _
  rw [rxHead_control hq hk]

theorem exec_packetNack (hk : k.typ = 4) : exec .packetNack s =
    .next (if bad || !crcHolds k then countDrop 4 (popRx s) else resendOrFail k.src k.seq (releaseHeld k false (popRx s))) := by
  show (.next _ : Out) = _
  rw [rxHead_control hq hk]

/-- FENCED removes the packet that it names (R328). -/
def fencedOff (k : Packet) (s : State) : State :=
  match (getPeer s k.offset).held.find? fun h => h.pkt.seq == k.seq with
  | none => s
  | some h => packetFailed 1 h.pkt (setPeer s k.offset
      { getPeer s k.offset with held := lremove (fun x => x.pkt.seq == k.seq) (getPeer s k.offset).held })

omit hq in
theorem fencedOff_leaves (hc : ∀ h ∈ (getPeer s k.offset).held, NoCaravan s h.pkt.caravan) :
    (fencedOff k s).lk.rxq = s.lk.rxq ∧
      (getPeer (fencedOff k s) k.offset).held = lremove (fun x => x.pkt.seq == k.seq) (getPeer s k.offset).held ∧
      ∀ r, r ≠ k.offset → getPeer (fencedOff k s) r = getPeer s r := by
  unfold fencedOff
  cases hf : (getPeer s k.offset).held.find? fun x => x.pkt.seq == k.seq with
  | none => exact ⟨rfl, (lremove_of_none hf).symm, fun _ _ => rfl⟩
  | some h =>
    dsimp only
    rw [packetFailed_of_none (by exact hc h (List.mem_of_find?_eq_some hf)), getPeer_setPeer, if_pos rfl]
    exact ⟨rfl, rfl, fun r hr => by rw [getPeer_setPeer, if_neg hr]⟩

theorem exec_fenced (hk : k.typ = 5) : exec .fenced s =
    .next (if bad || !crcHolds k then countDrop 4 (popRx s) else fencedOff k (popRx s)) := by
  show (.next _ : Out) = _
  rw [rxHead_control hq hk]
  rfl

/-- A control packet that fails its checks is dropped and counted (R312). -/
theorem control_bad (h : bad = true ∨ crcHolds k = false) {i : Instr} {f : State}
    (he : exec i s = .next (if bad || !crcHolds k then countDrop 4 (popRx s) else f)) :
    Answers i s fun t => t.lk.rxq = rest ∧ t.lk.peers = s.lk.peers ∧ tget 0 t.lk.drops 4 = tget 0 s.lk.drops 4 + 1 := by
  refine ⟨_, he, ?_⟩
  rw [if_pos (by simpa using h)]
  refine ⟨popRx_rxq hq, rfl, ?_⟩
  rw [drops_countDrop, if_pos rfl]
  rfl

theorem ack_releases (hb : bad = false) (hcrc : crcHolds k = true) (hk : k.typ = 3)
    (hc : ∀ h ∈ (getPeer s k.src).held, NoCaravan s h.pkt.caravan) : Answers .ack s fun t => t.lk.rxq = rest ∧
      (getPeer t k.src).held =
        (getPeer s k.src).held.filter (fun h => !(seqLater k.ackSeq h.pkt.seq || h.pkt.seq == k.seq)) ∧
      (∀ r, r ≠ k.src → getPeer t r = getPeer s r) := by
  refine ⟨_, exec_ack hq hk, ?_⟩
  rw [if_neg (by rw [hb, hcrc]; decide), releaseHeld_eq (by exact hc)]
  dsimp only
  rw [getPeer_setPeer, if_pos rfl, ackedPeer_held]
  refine ⟨popRx_rxq hq, ?_, fun r hr => ?_⟩
  · simp only [released_named]
    rfl
  · rw [getPeer_setPeer, if_neg hr]
    rfl

section Nack

variable (hb : bad = false) (hcrc : crcHolds k = true) (hk : k.typ = 4)
  (hc : ∀ h ∈ (getPeer s k.src).held, NoCaravan s h.pkt.caravan)

include hb hcrc hk hc

/-- The pair that a NACK leaves before its packet goes out again. -/
theorem exec_nack_released : ∃ u, exec .packetNack s = .next (resendOrFail k.src k.seq u) ∧ u.lk.rxq = rest ∧
    (getPeer u k.src).held = (getPeer s k.src).held.filter (fun h => h.pkt.seq == k.seq || !seqLater k.ackSeq h.pkt.seq) ∧
    (∀ r, r ≠ k.src → getPeer u r = getPeer s r) ∧ (∀ r, inTorus u r = inTorus s r) ∧ ownRank u = ownRank s ∧
    u.lk.drops = s.lk.drops ∧ u.cl = s.cl := by
  refine ⟨setPeer (popRx s) k.src (ackedPeer (popRx s) k false), ?_, popRx_rxq hq, ?_, fun r hr => ?_, fun _ => rfl, rfl, rfl, rfl⟩
  · rw [exec_packetNack hq hk, if_neg (by rw [hb, hcrc]; decide), releaseHeld_eq (by exact hc)]
  · rw [getPeer_setPeer, if_pos rfl, ackedPeer_held]
    simp only [not_released_unnamed]
    rfl
  · rw [getPeer_setPeer, if_neg hr]
    rfl

theorem nack_outside (ht : inTorus s k.src = false) : Answers .packetNack s fun t => t.lk.rxq = rest ∧
    (getPeer t k.src).held = lremove (fun h => h.pkt.seq == k.seq)
      ((getPeer s k.src).held.filter fun h => h.pkt.seq == k.seq || !seqLater k.ackSeq h.pkt.seq) ∧
    (∀ h ∈ (getPeer s k.src).held, h.pkt.seq = k.seq → tget 0 t.lk.drops 1 = tget 0 s.lk.drops 1 + 1) ∧
    (∀ r, r ≠ k.src → getPeer t r = getPeer s r) := by
  obtain ⟨u, he, hrx, hheld, hother, htorus, -, hdrops, hcl⟩ := exec_nack_released hq hb hcrc hk hc
  have htu : inTorus u k.src = false := by rw [htorus]; exact ht
  refine ⟨_, he, ?_⟩
  cases hf : (getPeer u k.src).held.find? fun x => x.pkt.seq == k.seq with
  | none =>
    rw [resendOrFail_none htu hf]
    refine ⟨hrx, ?_, fun h hh hs => ?_, hother⟩
    · rw [← hheld, lremove_of_none hf]
    · have hmem : h ∈ (getPeer u k.src).held := by
        rw [hheld]
        exact List.mem_filter.2 ⟨hh, by rw [beq_iff_eq.2 hs]; rfl⟩
      exact absurd (beq_iff_eq.2 hs) (List.find?_eq_none.1 hf h hmem)
  | some h =>
    have hmem : h ∈ (getPeer s k.src).held := by
      have hm := List.mem_of_find?_eq_some hf
      rw [hheld] at hm
      exact List.mem_of_mem_filter hm
    rw [resendOrFail_outside htu hf (by rw [NoCaravan, cvOf, hcl]; exact hc h hmem)]
    have hp : ∀ r, getPeer (countDrop 1 (setPeer u k.src
        { getPeer u k.src with held := lremove (fun x => x.pkt.seq == k.seq) (getPeer u k.src).held })) r = _ :=
      fun r => getPeer_setPeer u k.src r _
    refine ⟨hrx, ?_, fun _ _ _ => ?_, fun r hr => ?_⟩
    · rw [hp, if_pos rfl, hheld]
    · rw [drops_countDrop, if_pos rfl, ← hdrops]
      rfl
    · rw [hp, if_neg hr, hother r hr]

theorem nack_resends (ht : inTorus s k.src = true) (hd : ∀ h ∈ (getPeer s k.src).held, h.pkt.dest ≠ ownRank s) :
    Answers .packetNack s fun t => t.lk.rxq = rest ∧
      (∀ h, h ∈ (getPeer t k.src).held → h.pkt.seq ≠ k.seq →
        h ∈ (getPeer s k.src).held ∧ seqLater k.ackSeq h.pkt.seq = false) ∧
      (∀ h, h ∈ (getPeer s k.src).held → seqLater k.ackSeq h.pkt.seq = false → h.pkt.seq ≠ k.seq → h ∈ (getPeer t k.src).held) ∧
      ((getPeer t k.src).held.filter fun h => h.pkt.seq == k.seq).map HeldPkt.resends =
        ((getPeer s k.src).held.filter fun h => h.pkt.seq == k.seq).map (fun h => h.resends + 1) ∧
      (∀ r, r ≠ k.src → getPeer t r = getPeer s r) := by
  obtain ⟨u, he, hrx, hheld, hother, htorus, hown, -, -⟩ := exec_nack_released hq hb hcrc hk hc
  have hkept : ∀ h : HeldPkt, h.pkt.seq ≠ k.seq →
      (h ∈ (getPeer u k.src).held ↔ h ∈ (getPeer s k.src).held ∧ seqLater k.ackSeq h.pkt.seq = false) := fun h hne => by
    rw [hheld, List.mem_filter, beq_false_of_ne hne, Bool.false_or, Bool.not_eq_true']
  have hnamed : ((getPeer u k.src).held.filter fun h => h.pkt.seq == k.seq) =
      (getPeer s k.src).held.filter fun h => h.pkt.seq == k.seq := by
    rw [hheld, List.filter_filter]
    refine List.filter_congr fun h _ => ?_
    cases h.pkt.seq == k.seq <;> rfl
  have hown' : ∀ h ∈ (getPeer u k.src).held, h.pkt.dest ≠ ownRank u := fun h hh => by
    rw [hheld] at hh
    rw [hown]
    exact hd h (List.mem_of_mem_filter hh)
  refine ⟨_, he, ?_⟩
  rw [resendOrFail_inside (by rw [htorus]; exact ht)]
  dsimp only
  rw [resendHeld_rxq hown']
  cases hf : (getPeer u k.src).held.find? fun x => x.pkt.seq == k.seq with
  | none =>
    rw [resendHeld_of_none hf]
    have hempty : ((getPeer u k.src).held.filter fun h => h.pkt.seq == k.seq) = [] :=
      List.filter_eq_nil_iff.2 (List.find?_eq_none.1 hf)
    refine ⟨hrx, fun h hh hne => (hkept h hne).1 hh, fun h hh hl hne => (hkept h hne).2 ⟨hh, hl⟩, ?_, hother⟩
    rw [hempty, ← hnamed, hempty]
    rfl
  | some h =>
    simp only [resendHeld_peer hf, if_true]
    refine ⟨hrx, fun x hx hne => (hkept x hne).1 ((mem_resendPeer_other hf hne).1 hx),
      fun x hx hl hne => (mem_resendPeer_other hf hne).2 ((hkept x hne).2 ⟨hx, hl⟩), ?_, fun r hr => by rw [if_neg hr, hother r hr]⟩
    rw [resends_resendPeer hf, hnamed]

end Nack

theorem fenced_removes (hb : bad = false) (hcrc : crcHolds k = true) (hk : k.typ = 5)
    (hc : ∀ h ∈ (getPeer s k.offset).held, NoCaravan s h.pkt.caravan) : Answers .fenced s fun t => t.lk.rxq = rest ∧
      (getPeer t k.offset).held = lremove (fun h => h.pkt.seq == k.seq) (getPeer s k.offset).held ∧
      (∀ r, r ≠ k.offset → getPeer t r = getPeer s r) := by
  refine ⟨_, exec_fenced hq hk, ?_⟩
  rw [if_neg (by rw [hb, hcrc]; decide)]
  obtain ⟨h1, h2, h3⟩ := fencedOff_leaves (s := popRx s) hc
  exact ⟨h1.trans (popRx_rxq hq), h2, h3⟩

end Rows

/-- Settles O26: each control packet writes the pair that it names, and no engine has a part in it. -/
theorem acknowledgementsReleaseHeldPackets : Obligations.AcknowledgementsReleaseHeldPackets := by
  unfold Obligations.AcknowledgementsReleaseHeldPackets
  intro s k bad rest hq v w early hv hw
  refine ⟨fun h i hi => ?_, fun hb hcrc hk => ack_releases hq hb hcrc hk hv, fun hb hcrc hk => nack_outside hq hb hcrc hk hv,
    fun hb hcrc hk => nack_resends hq hb hcrc hk hv, fun hb hcrc hk => fenced_removes hq hb hcrc hk hw⟩
  rcases hi with ⟨hk, rfl⟩ | ⟨hk, rfl⟩ | ⟨hk, rfl⟩
  · exact control_bad hq h (exec_ack hq hk)
  · exact control_bad hq h (exec_packetNack hq hk)
  · exact control_bad hq h (exec_fenced hq hk)

/-! ### The timers -/

section Timers

variable {r seq : Nat} {h : HeldPkt}

theorem ackTimer_idle (hu : (getPeer s r).unacked = 0) : exec (.ackTimer r) s = .next s := by
  show (.next _ : Out) = _
  rw [whenTaken_neg (by rw [hu]; rfl)]

theorem ackTimer_acks (hu : 0 < (getPeer s r).unacked) : Answers (.ackTimer r) s fun t => (getPeer t r).unacked = 0 ∧
    (getPeer t r).echo = false ∧ (getPeer t r).held = (getPeer s r).held ∧ (∀ q, q ≠ r → getPeer t q = getPeer s q) := by
  refine ⟨_, rfl, ?_⟩
  rw [whenTaken_pos (decide_eq_true hu)]
  dsimp only
  rw [sendAck_peer, if_pos rfl]
  exact ⟨rfl, rfl, rfl, fun q hq => by rw [sendAck_peer, if_neg hq]⟩

theorem exec_resendTimeout_none (hf : ((getPeer s r).held.find? fun x => x.pkt.seq == seq) = none) :
    exec (.resendTimeout r seq) s = .next s := by
  show (.next _ : Out) = _
  dsimp only
  rw [hf]

/-- The window halved at a time-out (R326). -/
def halved (r : Nat) (s : State) : State := setPeer s r (halveWindow s (getPeer s r))

theorem getPeer_halved (r q : Nat) (s : State) : getPeer (halved r s) q =
    if q = r then { getPeer s r with w := Max.max (cfgWmin s) ((getPeer s r).w / 2) } else getPeer s q := getPeer_setPeer s r q _

/-- A pair given up (R324). -/
def givenUp (r : Nat) (s : State) : State :=
  logPeerError r (setPeer s r { halveWindow s (getPeer s r) with held := [], waiting := [], peerErr := true })

theorem exec_resendTimeout (hf : ((getPeer s r).held.find? fun x => x.pkt.seq == seq) = some h) :
    exec (.resendTimeout r seq) s = .next (if h.resends < 7 || !inTorus s r then resendOrFail r seq (halved r s)
      else ((getPeer s r).held.map (·.pkt) ++ (getPeer s r).waiting).foldl (fun st k => packetFailed 4 k st) (givenUp r s)) := by
  show (.next _ : Out) = _
  dsimp only
  rw [hf]
  rfl

theorem resendTimeout_outside (hf : ((getPeer s r).held.find? fun x => x.pkt.seq == seq) = some h) (ht : inTorus s r = false)
    (hc : NoCaravan s h.pkt.caravan) :
    let v := getPeer s r
    Answers (.resendTimeout r seq) s fun t =>
      (getPeer t r).held = lremove (fun x => x.pkt.seq == seq) v.held ∧ (getPeer t r).waiting = v.waiting ∧
      (getPeer t r).w = Max.max (cfgWmin s) (v.w / 2) ∧ (getPeer t r).peerErr = v.peerErr ∧
      tget 0 t.lk.drops 1 = tget 0 s.lk.drops 1 + 1 ∧ t.lk.peerErrLog = s.lk.peerErrLog := by
  intro v
  have hv : getPeer (halved r s) r = _ := (getPeer_halved r r s).trans (if_pos rfl)
  refine ⟨_, exec_resendTimeout hf, ?_⟩
  rw [if_pos (by rw [ht, Bool.not_false, Bool.or_true]), resendOrFail_outside (h := h) (by exact ht) (by rw [hv]; exact hf) (by exact hc)]
  have hp : getPeer (countDrop 1 (setPeer (halved r s) r { getPeer (halved r s) r with
      held := lremove (fun x => x.pkt.seq == seq) (getPeer (halved r s) r).held })) r = _ :=
    (getPeer_setPeer (halved r s) r r _).trans (if_pos rfl)
  dsimp only
  rw [hp, hv]
  refine ⟨rfl, rfl, rfl, rfl, ?_, rfl⟩
  rw [drops_countDrop, if_pos rfl]
  rfl

theorem resendTimeout_resends (hf : ((getPeer s r).held.find? fun x => x.pkt.seq == seq) = some h) (ht : inTorus s r = true)
    (hr : h.resends < 7) :
    let v := getPeer s r
    Answers (.resendTimeout r seq) s fun t =>
      (getPeer t r).w = Max.max (cfgWmin s) (v.w / 2) ∧ (getPeer t r).waiting = v.waiting ∧
      (getPeer t r).held.length = v.held.length ∧
      (∃ x ∈ (getPeer t r).held, x.pkt.seq = seq ∧ x.resends = h.resends + 1 ∧ x.pkt.epoch = s.lk.epoch) ∧
      (∀ q, q ≠ r → getPeer t q = getPeer s q) := by
  intro v
  have hv : getPeer (halved r s) r = _ := (getPeer_halved r r s).trans (if_pos rfl)
  have hf' : ((getPeer (halved r s) r).held.find? fun x => x.pkt.seq == seq) = some h := by rw [hv]; exact hf
  have hpeer : ∀ q, getPeer (resendHeld r seq (halved r s)) q = _ := resendHeld_peer hf'
  have hmap : (resendPeer (halved r s) r seq h).held =
      v.held.map fun x => if x.pkt.seq = seq then ⟨resent s h, x.resends + 1⟩ else x := by
    unfold resendPeer
    rw [hv]
    rfl
  refine ⟨_, exec_resendTimeout hf, ?_⟩
  rw [if_pos (by rw [decide_eq_true hr, Bool.true_or]), resendOrFail_inside (by exact ht)]
  dsimp only
  rw [hpeer, if_pos rfl]
  refine ⟨?_, ?_, ?_, ⟨⟨resent s h, h.resends + 1⟩, ?_, show (resent s h).seq = seq from find_seq hf, rfl, rfl⟩, fun q hq => ?_⟩
  · unfold resendPeer
    rw [hv]
  · unfold resendPeer
    rw [hv]
  · rw [hmap, List.length_map]
  · rw [hmap]
    exact List.mem_map.2 ⟨h, List.mem_of_find?_eq_some hf, if_pos (find_seq hf)⟩
  · rw [hpeer, if_neg hq, getPeer_halved, if_neg hq]

/-- The register that logs peer errors: its first rank stays (Table 10.19). -/
def loggedError (v : W64) (r : Nat) : W64 :=
  BitVec.ofNat 64 ((if v.getLsbD 16 then bits64 v 16 0 else r % 65536 + 65536) + Nat.min (2 ^ 32 - 1) (bits64 v 63 32 + 1) * 2 ^ 32)

theorem givenUp_lk (r : Nat) (s : State) : (givenUp r s).lk =
    { (setPeer s r { halveWindow s (getPeer s r) with held := [], waiting := [], peerErr := true }).lk with
      peerErrLog := loggedError s.lk.peerErrLog r } :=
  postEvent_lk ..

theorem getPeer_givenUp (r : Nat) (s : State) : getPeer (givenUp r s) r =
    { halveWindow s (getPeer s r) with held := [], waiting := [], peerErr := true } := by
  show tget Peer.fresh (givenUp r s).lk.peers r = _
  rw [givenUp_lk]
  exact (getPeer_setPeer s r r _).trans (if_pos rfl)

theorem givenUp_cl (r : Nat) (s : State) : (givenUp r s).cl = s.cl := by
  unfold givenUp logPeerError postEvent
  rw [traceRec_onlyDb, eventOn_onlyCp, eventOn_onlyCp]
  rfl

theorem loggedError_toNat (v : W64) (r : Nat) : (loggedError v r).toNat =
    (if v.getLsbD 16 then bits64 v 16 0 else r % 65536 + 65536) + Nat.min (2 ^ 32 - 1) (bits64 v 63 32 + 1) * 2 ^ 32 := by
  have hn : Nat.min (2 ^ 32 - 1) (bits64 v 63 32 + 1) ≤ 2 ^ 32 - 1 := Nat.min_le_left _ _
  have hlow : (if v.getLsbD 16 then bits64 v 16 0 else r % 65536 + 65536) < 2 ^ 17 := by
    split
    · exact Nat.mod_lt _ (by decide)
    · omega
  unfold loggedError
  rw [BitVec.toNat_ofNat]
  generalize Nat.min (2 ^ 32 - 1) (bits64 v 63 32 + 1) = n at hn ⊢
  generalize (if v.getLsbD 16 then bits64 v 16 0 else r % 65536 + 65536) = low at hlow ⊢
  exact Nat.mod_eq_of_lt (by omega)

theorem getLsbD_16 (v : W64) : v.getLsbD 16 = decide (v.toNat / 65536 % 2 = 1) := by
  rw [← BitVec.testBit_toNat, Nat.testBit_eq_decide_div_mod_eq]

/-- A peer error is marked in the register. -/
theorem loggedError_marks (v : W64) (r : Nat) : (loggedError v r).getLsbD 16 = true := by
  rw [getLsbD_16, loggedError_toNat, decide_eq_true_eq]
  generalize Nat.min (2 ^ 32 - 1) (bits64 v 63 32 + 1) = n
  split
  next hv =>
    rw [getLsbD_16, decide_eq_true_eq] at hv
    unfold bits64 bitsOf
    omega
  · omega

/-- The first peer error leaves its rank there. -/
theorem loggedError_rank {v : W64} {r : Nat} (hv : v.getLsbD 16 = false) (hr : r < 65536) : bits64 (loggedError v r) 15 0 = r := by
  unfold bits64 bitsOf
  rw [loggedError_toNat, hv, if_neg Bool.false_ne_true]
  generalize Nat.min (2 ^ 32 - 1) (bits64 v 63 32 + 1) = n
  omega

theorem resendTimeout_gives_up (hr16 : r < 65536) (hf : ((getPeer s r).held.find? fun x => x.pkt.seq == seq) = some h)
    (ht : inTorus s r = true) (hr : 7 ≤ h.resends) (hc : ∀ x ∈ (getPeer s r).held, NoCaravan s x.pkt.caravan)
    (hw : ∀ x ∈ (getPeer s r).waiting, NoCaravan s x.caravan) : Answers (.resendTimeout r seq) s fun t =>
      (getPeer t r).held = [] ∧ (getPeer t r).waiting = [] ∧ (getPeer t r).peerErr = true ∧
      (getPeer t r).w = Max.max (cfgWmin s) ((getPeer s r).w / 2) ∧
      t.lk.peerErrLog.getLsbD 16 = true ∧
      (s.lk.peerErrLog.getLsbD 16 = false → bits64 t.lk.peerErrLog 15 0 = r) := by
  refine ⟨_, exec_resendTimeout hf, ?_⟩
  have hnone : ∀ x ∈ (getPeer s r).held.map (·.pkt) ++ (getPeer s r).waiting, NoCaravan (givenUp r s) x.caravan := fun x hx => by
    rw [NoCaravan, cvOf, givenUp_cl]
    rcases List.mem_append.1 hx with hx | hx
    · obtain ⟨y, hy, rfl⟩ := List.mem_map.1 hx
      exact hc y hy
    · exact hw x hx
  have hlk := givenUp_lk r s
  have hpeer := getPeer_givenUp r s
  have hlog : (givenUp r s).lk.peerErrLog = loggedError s.lk.peerErrLog r := congrArg Lk.peerErrLog hlk
  rw [if_neg (by rw [ht, decide_eq_false (by omega)]; decide), foldl_packetFailed_of_none 4 _ hnone]
  dsimp only
  rw [hpeer, hlog]
  exact ⟨rfl, rfl, rfl, rfl, loggedError_marks _ _, fun h16 => loggedError_rank h16 hr16⟩

end Timers

/-- Settles O27: the branches of the two timers, each a write of the pair. -/
theorem pairTimersResendOrGiveUp : Obligations.PairTimersResendOrGiveUp := by
  unfold Obligations.PairTimersResendOrGiveUp
  intro s r seq h hr v
  exact ⟨ackTimer_idle, ackTimer_acks, exec_resendTimeout_none, resendTimeout_outside, resendTimeout_resends,
    resendTimeout_gives_up hr⟩

end Sys2Proof.Machine
end

section
/-!
PROOF. Host commands whose completion is owed when they start, route banks and epochs, fences, PORT commands and collectives (R300,
R320, R327, R329, R330, R334, R421, R553, R556).
-/

namespace Sys2Proof.Machine

open Sys2Proof

variable {s t u : State} {h : CmdHdr} {op token : Nat} {i c : Instr}

/-! ### Commands taken in -/

/-- A command that passes every check starts. -/
theorem startCommand_of_runs (hr : HostRuns s c h op token) (hlong : isLong c = false)
    (hown : ownCheck (takenIn h op s) c = ownCheck (enroll h op s) c) :
    startCommand (nextHandle s h.port) h.port c (takenIn h op s) = carryOut (nextHandle s h.port) h.port c (takenIn h op s) := by
  obtain ⟨-, -, -, -, -, hok, -⟩ := hr
  unfold startCommand
  dsimp only
  rw [hlong, if_neg Bool.false_ne_true, hown, (ownCheck_of_refusal hok).2, if_neg fun hn => hn rfl]

/-- A command that runs at once, and whose work does not end with it, leaves what it has handed on, its completion owed. -/
theorem exec_of_owed (hr : HostRuns s c h op token) (hlong : isLong c = false) (hop : op ≠ 0x0A02) (hrow : exec i s = hostRow h c s)
    (hown : ownCheck (takenIn h op s) c = ownCheck (enroll h op s) c)
    (hstart : carryOut (nextHandle s h.port) h.port c (takenIn h op s) = u) (hu : u.cp = (takenIn h op s).cp) :
    exec i s = .next u ∧ Owed s u h op := by
  have hacc := (accept_of_runs hr hlong hop).trans ((startCommand_of_runs hr hlong hown).trans hstart)
  obtain ⟨hp, hcmd, hcan, hnew, -, -, -, hf0, hf1, hnext⟩ := hr
  have hcp : ∀ q, getCp u q = getCp (takenIn h op s) q := fun q => by unfold getCp; rw [hu]
  have hsame := (hcp h.port).trans (getCp_takenIn_same h op s)
  have howed : Owed s u h op := by
    refine ⟨by rw [hsame], by rw [hsame], ?_⟩
    rw [hsame]
    exact List.mem_append_right _ List.mem_cons_self
  have hfenced : ∀ q, (getCp u q).fenced = (getCp s q).fenced := fun q => by rw [hcp, getCp_takenIn, fenced_enroll]
  refine ⟨?_, howed⟩
  rw [hrow]
  unfold hostRow acceptRow
  simp only [hcmd, hcan, hp, decide_true, guardUnit_true, if_true, hacc]
  rw [acceptSlots_of_nextEmpty _ hnext (by rw [hsame]) howed.2.1,
    releaseFenced_of_none ((hfenced 0).trans hf0) ((hfenced 1).trans hf1)]

/-- A command whose work ends with its completion leaves what the work left and its record. -/
theorem exec_of_completed (hr : HostRuns s i h op token) (hlong : isLong i = false) (hop : op ≠ 0x0A02) (hrow : exec i s = hostRow h i s)
    (hown : ownCheck (takenIn h op s) i = ownCheck (enroll h op s) i) (hu : u.cp = (takenIn h op s).cp)
    (hstart : carryOut (nextHandle s h.port) h.port i (takenIn h op s) = complete (nextHandle s h.port) 0 0 [] u) :
    ∃ t, exec i s = .next t ∧ Completed s t h op 0 [] ∧ t.lk = u.lk := by
  obtain ⟨t, ht, hc, hcp⟩ := exec_of_runs hr hlong hop hrow hu ((startCommand_of_runs hr hlong hown).trans hstart)
  exact ⟨t, ht, hc, by rw [hcp]⟩

/-! ### Route banks and epochs -/

/-- LK_ROUTE_BANK as SET_ROUTES writes it (Table 10.7). -/
def routeWord (e down detour : Nat) : W64 := BitVec.ofNat 64 (1 + 2 * (e % 4) + 256 * (down % 256) + 65536 * (detour % 2 ^ 32))

theorem routeWord_eq (e down detour : Nat) :
    BitVec.ofNat 64 (1 + e % 4 * 2 + down % 256 * 2 ^ 8 + detour % 2 ^ 32 * 2 ^ 16) = routeWord e down detour :=
  congrArg (BitVec.ofNat 64) (by ring)

theorem writeRoutes_even {e : Nat} (he : e % 2 = 0) (down detour : Nat) (s : State) :
    (writeRoutes e down detour s).lk = { s.lk with bank0 := routeWord e down detour } := by
  rw [← routeWord_eq]
  exact if_pos he

theorem writeRoutes_odd {e : Nat} (he : ¬ e % 2 = 0) (down detour : Nat) (s : State) :
    (writeRoutes e down detour s).lk = { s.lk with bank1 := routeWord e down detour } := by
  rw [← routeWord_eq]
  exact if_neg he

/-- The bank of the epoch takes the word, and the other bank and the epoch stay. -/
theorem writeRoutes_banks (e down detour : Nat) (s : State) : bankOf (writeRoutes e down detour s) e = routeWord e down detour ∧
    bankOf (writeRoutes e down detour s) (e + 1) = bankOf s (e + 1) ∧ (writeRoutes e down detour s).lk.epoch = s.lk.epoch := by
  unfold bankOf
  by_cases he : e % 2 = 0
  · have he' : ¬ (e + 1) % 2 = 0 := by omega
    rw [writeRoutes_even he, if_pos he, if_neg he', if_neg he']
    exact ⟨rfl, rfl, rfl⟩
  · have he' : (e + 1) % 2 = 0 := by omega
    rw [writeRoutes_odd he, if_neg he, if_pos he', if_pos he']
    exact ⟨rfl, rfl, rfl⟩

theorem setRoutes_completes {e down detour : Nat} (hr : HostRuns s (.setRoutes h e down detour) h 0x0403 1) :
    Answers (.setRoutes h e down detour) s fun t => Completed s t h 0x0403 0 [] ∧ bankOf t (e + 1) = bankOf s (e + 1) ∧
      t.lk.epoch = s.lk.epoch ∧ bankOf t e = routeWord e down detour := by
  obtain ⟨t, ht, hc, hlk⟩ := exec_of_completed (u := writeRoutes e down detour (takenIn h 0x0403 s)) hr rfl (by decide) rfl rfl rfl rfl
  have hbank : ∀ n, bankOf t n = bankOf (writeRoutes e down detour (takenIn h 0x0403 s)) n := fun n => by unfold bankOf; rw [hlk]
  obtain ⟨h1, h2, h3⟩ := writeRoutes_banks e down detour (takenIn h 0x0403 s)
  exact ⟨t, ht, hc, (hbank _).trans h2, (congrArg Lk.epoch hlk).trans h3, (hbank _).trans h1⟩

theorem setRouteEpoch_owed {e : Nat} (hr : HostRuns s (.setRouteEpoch h e) h 0x0404 1) : Answers (.setRouteEpoch h e) s fun t =>
    Owed s t h 0x0404 ∧ t.lk.epoch = e ∧ t.lk.prevEpoch = s.lk.epoch ∧ t.lk.prevLive = true ∧
      t.lk.epochWaiter = some (nextHandle s h.port) ∧ t.lk.bank0 = s.lk.bank0 ∧ t.lk.bank1 = s.lk.bank1 := by
  obtain ⟨ht, ho⟩ := exec_of_owed (i := .setRouteEpoch h e) hr rfl (by decide) rfl rfl rfl rfl
  exact ⟨_, ht, ho, rfl, rfl, rfl, rfl, rfl, rfl⟩

/-! ### EPOCH_RETIRE -/

/-- No packet of the previous epoch is in the module or unacknowledged (R320). -/
abbrev EpochIdle (s : State) : Prop := inflightHeld s s.lk.prevEpoch = 0 ∧ inflightOut s s.lk.prevEpoch = 0

/-- The links once the previous epoch has retired. -/
def retired (s : State) : State :=
  { s with lk := { s.lk with
      prevLive := false, epochWaiter := none,
      bank0 := if s.lk.prevEpoch % 2 == 1 then s.lk.bank0 else s.lk.bank0 &&& ~~~1,
      bank1 := if s.lk.prevEpoch % 2 == 1 then s.lk.bank1 &&& ~~~1 else s.lk.bank1 } }

theorem exec_epochRetire (hl : s.lk.prevLive = true) (hi : EpochIdle s) : exec .epochRetire s = .next (match s.lk.epochWaiter with
    | some w => postCompletion w 0 0 [] (retired s)
    | none => retired s) := by
  show (.next _ : Out) = _
  rw [whenTaken_pos (by rw [hl, hi.1, hi.2]; rfl)]
  rfl

theorem getLsbD_clear_valid (w : W64) : (w &&& ~~~1).getLsbD 0 = false := by
  simp

theorem retired_bank (s : State) : (bankOf (retired s) s.lk.prevEpoch).getLsbD 0 = false ∧
    bankOf (retired s) (s.lk.prevEpoch + 1) = bankOf s (s.lk.prevEpoch + 1) := by
  unfold bankOf retired
  dsimp only
  rcases Nat.mod_two_eq_zero_or_one s.lk.prevEpoch with he | he
  · have he' : ¬ (s.lk.prevEpoch + 1) % 2 = 0 := by omega
    rw [if_pos he, if_neg he', if_neg he', if_neg (by rw [he]; decide), if_neg (by rw [he]; decide)]
    exact ⟨getLsbD_clear_valid _, rfl⟩
  · have he' : (s.lk.prevEpoch + 1) % 2 = 0 := by omega
    rw [if_neg (by omega), if_pos he', if_pos he', if_pos (by rw [he]; rfl), if_pos (by rw [he]; rfl)]
    exact ⟨getLsbD_clear_valid _, rfl⟩

theorem epochRetire_retires (hl : s.lk.prevLive = true) (hi : EpochIdle s) : Answers .epochRetire s fun t =>
    t.lk.prevLive = false ∧ t.lk.epochWaiter = none ∧ (bankOf t s.lk.prevEpoch).getLsbD 0 = false ∧
      bankOf t (s.lk.prevEpoch + 1) = bankOf s (s.lk.prevEpoch + 1) ∧
      sentUp t = sentUp s ++ (s.lk.epochWaiter.toList.map fun w => Payload.completion w 0 0 []) := by
  obtain ⟨h1, h2⟩ := retired_bank s
  refine ⟨_, exec_epochRetire hl hi, ?_⟩
  cases s.lk.epochWaiter with
  | none => exact ⟨rfl, rfl, h1, h2, (List.append_nil _).symm⟩
  | some w => exact ⟨rfl, rfl, h1, h2, sentUp_postUp ..⟩

theorem epochRetire_waits (hw : s.lk.prevLive = false ∨ ¬ EpochIdle s) : exec .epochRetire s = .next s := by
  show (.next _ : Out) = _
  rw [whenTaken_neg]
  rcases hw with hw | hw
  · rw [hw]
    rfl
  · refine Bool.eq_false_iff.2 fun hy => hw ?_
    simp only [Bool.and_eq_true, beq_iff_eq] at hy
    exact ⟨hy.1.2, hy.2⟩

/-! ### Fences (R327, R329) -/

/-- A rank fenced, its pair afresh. -/
def fenceSet (r : Nat) (b : Bool) (v : Peer) (s : State) : State :=
  setPeer { s with lk := { s.lk with fences := tput false s.lk.fences r b } } r v

theorem isFenced_fenceSet (r q : Nat) (b : Bool) (v : Peer) (s : State) :
    isFenced (fenceSet r b v s) q = if q = r then b else isFenced s q := tget_tput ..

theorem getPeer_fenceSet (r q : Nat) (b : Bool) (v : Peer) (s : State) :
    getPeer (fenceSet r b v s) q = if q = r then v else getPeer s q := getPeer_setPeer ..

theorem isFenced_congr (hlk : t.lk = s.lk) (q : Nat) : isFenced t q = isFenced s q := by
  rw [isFenced, hlk, isFenced]

theorem getPeer_congr (hlk : t.lk = s.lk) (q : Nat) : getPeer t q = getPeer s q := by
  rw [getPeer, hlk, getPeer]

/-- With no caravan live a fence concerns no engine. -/
theorem fencePeer_of_none (r : Nat) (hc : s.cl.caravans = []) : fencePeer r s = fenceSet r true Peer.fresh s := by
  have hnone : ∀ id, NoCaravan (fenceSet r true Peer.fresh s) id := fun id => by
    show s.cl.caravans.find? _ = none
    rw [hc]
    rfl
  unfold fencePeer
  dsimp only
  rw [hc]
  exact foldl_packetFailed_of_none 1 _ fun x _ => hnone x.caravan

theorem fencePeer_completes {r : Nat} (hr : HostRuns s (.fencePeer h r) h 0x0401 1) (hc : s.cl.caravans = []) :
    Answers (.fencePeer h r) s fun t => Completed s t h 0x0401 0 [] ∧ isFenced t r = true ∧ getPeer t r = Peer.fresh ∧
      ∀ q, q ≠ r → isFenced t q = isFenced s q ∧ getPeer t q = getPeer s q := by
  obtain ⟨t, ht, hcomp, hlk⟩ := exec_of_completed (u := fenceSet r true Peer.fresh (takenIn h 0x0401 s)) hr rfl (by decide) rfl rfl rfl
    (congrArg (complete _ 0 0 []) (fencePeer_of_none (s := takenIn h 0x0401 s) r hc))
  have hf : ∀ q, isFenced t q = if q = r then true else isFenced s q := fun q =>
    (isFenced_congr hlk q).trans (isFenced_fenceSet r q true Peer.fresh (takenIn h 0x0401 s))
  have hp : ∀ q, getPeer t q = if q = r then Peer.fresh else getPeer s q := fun q =>
    (getPeer_congr hlk q).trans (getPeer_fenceSet r q true Peer.fresh (takenIn h 0x0401 s))
  exact ⟨t, ht, hcomp, (hf r).trans (if_pos rfl), (hp r).trans (if_pos rfl), fun q hq => ⟨(hf q).trans (if_neg hq), (hp q).trans (if_neg hq)⟩⟩

/-- The pair of a rank whose fence has been cleared. -/
def unfencedPeer (s : State) : Peer := { Peer.fresh with started := true, w := cfgWinit s }

theorem unfencePeer_reads (r q : Nat) (s : State) :
    isFenced (unfencePeer r s) q = (if q = r then false else isFenced s q) ∧
    getPeer (unfencePeer r s) q = if q = r ∧ isFenced s r = true then unfencedPeer s else getPeer s q := by
  unfold unfencePeer
  split
  next hf =>
    refine ⟨isFenced_fenceSet r q false (unfencedPeer s) s, (getPeer_fenceSet r q false (unfencedPeer s) s).trans ?_⟩
    by_cases hq : q = r
    · rw [if_pos hq, if_pos ⟨hq, hf⟩]
    · rw [if_neg hq, if_neg fun hn => hq hn.1]
  next hf =>
    refine ⟨?_, (if_neg fun hn => hf hn.2).symm⟩
    split
    next hq =>
      rw [hq]
      exact Bool.eq_false_iff.2 hf
    · rfl

theorem unfencePeer_completes {r : Nat} (hr : HostRuns s (.unfencePeer h r) h 0x0402 1) :
    Answers (.unfencePeer h r) s fun t => Completed s t h 0x0402 0 [] ∧ isFenced t r = false ∧
      (isFenced s r = true → getPeer t r = { Peer.fresh with started := true, w := cfgWinit s }) ∧
      (isFenced s r = false → getPeer t r = getPeer s r) ∧
      ∀ q, q ≠ r → isFenced t q = isFenced s q ∧ getPeer t q = getPeer s q := by
  have hcp : (unfencePeer r (takenIn h 0x0402 s)).cp = (takenIn h 0x0402 s).cp := by
    unfold unfencePeer
    split <;> rfl
  obtain ⟨t, ht, hcomp, hlk⟩ := exec_of_completed (u := unfencePeer r (takenIn h 0x0402 s)) hr rfl (by decide) rfl rfl hcp rfl
  have hf : ∀ q, isFenced t q = if q = r then false else isFenced s q := fun q =>
    (isFenced_congr hlk q).trans (unfencePeer_reads r q (takenIn h 0x0402 s)).1
  have hp : ∀ q, getPeer t q = if q = r ∧ isFenced s r = true then unfencedPeer s else getPeer s q := fun q =>
    (getPeer_congr hlk q).trans (unfencePeer_reads r q (takenIn h 0x0402 s)).2
  refine ⟨t, ht, hcomp, (hf r).trans (if_pos rfl), fun hy => (hp r).trans (if_pos ⟨rfl, hy⟩), fun hn => (hp r).trans (if_neg ?_),
    fun q hq => ⟨(hf q).trans (if_neg hq), (hp q).trans (if_neg fun hn => hq hn.1)⟩⟩
  rintro ⟨-, hy⟩
  exact absurd (hy.symm.trans hn) (by decide)

/-- Settles O29: each command's work on the banks and the fences, then its completion. -/
theorem routeBanksAndFencesChangeByCommand : Obligations.RouteBanksAndFencesChangeByCommand := by
  unfold Obligations.RouteBanksAndFencesChangeByCommand
  exact ⟨fun s h e down detour => ⟨setRoutes_completes, setRouteEpoch_owed, epochRetire_retires, epochRetire_waits⟩,
    fun s h r => ⟨fencePeer_completes, unfencePeer_completes⟩⟩

end Sys2Proof.Machine
end

section
/-!
PROOF. PORT_RELEASE, PORT_RELEASE_FORCE and PORT_ADMIT, and the collectives handed to the data plane (R300, R330, R334, R421, R556).
-/

namespace Sys2Proof.Machine

open Sys2Proof

variable {s t u : State} {h : CmdHdr} {p w : Nat}

/-! ### A release -/

/-- A command waits at a port for its release (R556). -/
def waitAt (p w : Nat) (s : State) : State := modPort s p fun v => { v with waiters := v.waiters ++ [w] }

theorem getPort_waitAt (hp : p < s.lk.ports.length) (w : Nat) :
    getPort (waitAt p w s) p = { getPort s p with waiters := (getPort s p).waiters ++ [w] } := getPort_modPort_same hp _

theorem waitAt_actsOnPort (p w : Nat) (s : State) : ActsOnPort p s (waitAt p w s) := modPort_actsOnPort s p _

/-- A release that waits for its drain. -/
theorem releasePort_of_active (hs : (getPort s p).state = .active) : releasePort p (some w) false s =
    modPort (enterPort p .drain (waitAt p w s)) p fun v => { v with pressed := false } := by
  unfold releasePort
  rw [hs]
  rfl

theorem releasePort_of_drain (hs : (getPort s p).state = .drain) : releasePort p (some w) false s = waitAt p w s := by
  unfold releasePort
  rw [hs]
  rfl

theorem releasePort_of_released (hs : (getPort s p).state = .released) : releasePort p (some w) false s =
    settlePilot p (postCompletion w 0 0 [] (enterPort p .pilot s)) := by
  unfold releasePort
  rw [hs]

theorem releasePort_of_dark (hs : (getPort s p).state = .dark) : releasePort p (some w) false s = s := by
  unfold releasePort
  rw [hs]

/-- Any other port is RELEASED at once. -/
theorem releasePort_at_once (hs : (getPort s p).state ∉ [.active, .drain, .released, .dark]) : releasePort p (some w) false s =
    enterPort p .released (waitAt p w s) := by
  simp only [List.mem_cons, List.not_mem_nil, or_false, not_or] at hs
  obtain ⟨hactive, hdrain, hreleased, hdark⟩ := hs
  unfold releasePort
  cases hst : (getPort s p).state with
  | active => exact absurd hst hactive
  | drain => exact absurd hst hdrain
  | released => exact absurd hst hreleased
  | dark => exact absurd hst hdark
  | _ => rfl

theorem releasePort_beside (p w : Nat) (s : State) : BesidePorts s (releasePort p (some w) false s) := by
  cases hs : (getPort s p).state with
  | active =>
    rw [releasePort_of_active hs]
    exact ((modPort_beside s p _).trans (enterPort_beside p .drain (waitAt p w s))).trans (modPort_beside _ p _)
  | drain =>
    rw [releasePort_of_drain hs]
    exact modPort_beside s p _
  | released =>
    rw [releasePort_of_released hs]
    exact ((enterPort_beside p .pilot s).trans (postCompletion_beside 0 _ w)).trans (settlePilot_beside p _)
  | dark =>
    rw [releasePort_of_dark hs]
    exact .refl s
  | _ =>
    rw [releasePort_at_once (by rw [hs]; decide)]
    exact (modPort_beside s p _).trans (enterPort_beside p .released (waitAt p w s))

theorem releasePort_actsOnPort (p w : Nat) (s : State) : ActsOnPort p s (releasePort p (some w) false s) := by
  have hwait := waitAt_actsOnPort p w s
  cases hs : (getPort s p).state with
  | active =>
    rw [releasePort_of_active hs]
    exact (hwait.trans (enterPort_actsOnPort p .drain _)).trans (modPort_actsOnPort _ p _)
  | drain =>
    rw [releasePort_of_drain hs]
    exact hwait
  | released =>
    rw [releasePort_of_released hs]
    exact ((enterPort_actsOnPort p .pilot s).trans (postCompletion_actsOnPort p w 0 0 [] _)).trans (settlePilot_actsOnPort p _)
  | dark =>
    rw [releasePort_of_dark hs]
    exact .refl p s
  | _ =>
    rw [releasePort_at_once (by rw [hs]; decide)]
    exact hwait.trans (enterPort_actsOnPort p .released _)

/-- Entering a state in which no release ends sends nothing (R556). -/
theorem sentUp_enterPort_other {new : PState} (hp : p < s.lk.ports.length) (hne : (getPort s p).state ≠ new)
    (hnew : ¬ (new = .released ∨ new = .dark)) : sentUp (enterPort p new s) = sentUp s := by
  rw [sentUp_enterPort hp hne, answerWaiters, if_neg (by simpa using hnew)]

theorem enterPort_waiters {new : PState} (hp : p < s.lk.ports.length) (hne : (getPort s p).state ≠ new)
    (hnew : ¬ (new = .released ∨ new = .dark)) : (getPort (enterPort p new s) p).waiters = (getPort s p).waiters := by
  obtain ⟨a, b, n, h⟩ := getPort_enterPort hp hne
  rw [h, Port.entered, Port.answered, if_neg (by simpa using hnew)]
  exact (entering_waiters _ new).trans (leaving_waiters _ new)

/-- PILOT settled leads to RAMP or FAULT or nowhere, and sends nothing. -/
theorem settlePilot_leaves (hp : p < s.lk.ports.length) (hs : (getPort s p).state = .pilot) :
    (getPort (settlePilot p s) p).state ∈ [PState.pilot, .ramp, .fault] ∧ sentUp (settlePilot p s) = sentUp s := by
  have hmod : ∀ f, p < (modPort s p f).lk.ports.length := fun f => by rw [(modPort_actsOnPort s p f).1.count]; exact hp
  unfold settlePilot
  extract_lets v d
  split
  · exact ⟨by rw [hs]; decide, rfl⟩
  · cases d with
    | none =>
      have hf : (getPort (faultPort p 0 s) p).state ≠ .fault := by
        rw [faultPort, modPort_keeps Port.state, hs]
        nofun
      refine ⟨by rw [failPort_state hp]; decide, ?_⟩
      exact sentUp_enterPort_other (s := faultPort p 0 s) (hmod _) hf (by decide)
    | some d =>
      dsimp only
      have hpilot : (getPort (modPort s p fun x => { x with dir := d }) p).state = .pilot := (modPort_keeps Port.state ..).trans hs
      split
      · set s2 := modPort (modPort s p fun x => { x with dir := d }) p fun x => { x with autoAdmit := x.fromP3 }
        have hl : p < s2.lk.ports.length := by rw [(modPort_actsOnPort _ p _).1.count]; exact hmod _
        have hne : (getPort s2 p).state ≠ .ramp := by
          rw [modPort_keeps Port.state, hpilot]
          nofun
        refine ⟨by rw [(enterPort_enters p .ramp s2).state hl]; decide, ?_⟩
        rw [sentUp_enterPort_other hl hne (by decide)]
        rfl
      · exact ⟨by rw [hpilot]; decide, rfl⟩

/-- What a release does by the state of its port (R330, R556). -/
def ReleasedAs (p w : Nat) (s t : State) : Prop :=
  let v := getPort s p
  (v.state = .active → (getPort t p).state = .drain ∧ (getPort t p).waiters = v.waiters ++ [w]) ∧
  (v.state = .drain → (getPort t p).state = .drain ∧ (getPort t p).waiters = v.waiters ++ [w]) ∧
  (v.state = .released → (getPort t p).state ∈ [PState.pilot, .ramp, .fault] ∧ sentUp t = sentUp s ++ [.completion w 0 0 []]) ∧
  (v.state ∉ [.active, .drain, .released, .dark] → (getPort t p).state = .released ∧
    sentUp t = sentUp s ++ ((v.waiters ++ [w]).map fun w => Payload.completion w 0 0 []))

theorem releasePort_releases (hp : p < s.lk.ports.length) (w : Nat) : ReleasedAs p w s (releasePort p (some w) false s) := by
  have hv := getPort_waitAt hp w
  have hl : p < (waitAt p w s).lk.ports.length := by rw [(waitAt_actsOnPort p w s).1.count]; exact hp
  refine ⟨fun hs => ?_, fun hs => ?_, fun hs => ?_, fun hs => ?_⟩
  · rw [releasePort_of_active hs, modPort_keeps Port.state, modPort_keeps Port.waiters, (enterPort_enters p .drain _).state hl,
      enterPort_waiters hl (by rw [hv, hs]; nofun) (by decide), hv]
    exact ⟨rfl, rfl⟩
  · rw [releasePort_of_drain hs, hv]
    exact ⟨hs, rfl⟩
  · have hin := enterPort_enters p .pilot s
    have hl1 : p < (enterPort p .pilot s).lk.ports.length := by rw [hin.acts.1.count]; exact hp
    rw [releasePort_of_released hs]
    obtain ⟨h1, h2⟩ := settlePilot_leaves (s := postCompletion w 0 0 [] (enterPort p .pilot s)) (p := p) hl1 (hin.state hp)
    refine ⟨h1, h2.trans ?_⟩
    rw [postCompletion, sentUp_postUp, sentUp_enterPort_other hp (by rw [hs]; nofun) (by decide)]
  · have hne : (getPort (waitAt p w s) p).state ≠ .released := by
      rw [hv]
      exact fun hr => hs (by rw [hr]; decide)
    obtain ⟨-, h2⟩ := released_answers hl hne
    rw [releasePort_at_once hs]
    refine ⟨(enterPort_enters p .released _).state hl, h2.trans ?_⟩
    rw [hv]
    rfl

/-! ### The rows of the ports -/

/-- What a release does is read from the ports and the messages sent. -/
theorem ReleasedAs.of_eq (h : ReleasedAs p w s t) (hv : getPort s p = getPort u p) (hup : sentUp s = sentUp u) : ReleasedAs p w u t := by
  unfold ReleasedAs at *
  rw [hv, hup] at h
  exact h

theorem bodyOk_of_runs {i : Instr} {op token : Nat} (hr : HostRuns s i h op token) : bodyOk (enroll h op s) i = true := by
  obtain ⟨-, -, -, -, -, hok, -⟩ := hr
  exact (ownCheck_of_refusal hok).1

theorem portRelease_releases (hs : TenPorts s) (hr : HostRuns s (.portRelease h p) h 0x0804 1) :
    Answers (.portRelease h p) s fun t => OnlyPort p s t ∧ Owed s t h 0x0804 ∧ ReleasedAs p (nextHandle s h.port) s t := by
  have hp : p < 10 := of_decide_eq_true (bodyOk_of_runs hr)
  have hcp := (releasePort_beside p (nextHandle s h.port) (takenIn h 0x0804 s)).keeps State.cp
  obtain ⟨ht, ho⟩ := exec_of_owed (i := .portRelease h p) hr rfl (by decide) rfl rfl rfl hcp
  exact ⟨_, ht, (releasePort_actsOnPort p _ (takenIn h 0x0804 s)).2, ho,
    (releasePort_releases (s := takenIn h 0x0804 s) (hs.lt hp) _).of_eq rfl rfl⟩

/-- Beside its fences and pairs nothing of the module has changed. -/
def BesideFences (s t : State) : Prop := t = { s with lk := { s.lk with fences := t.lk.fences, peers := t.lk.peers } }

theorem BesideFences.keeps {α : Type} (h : BesideFences s t) (f : State → α)
    (hf : ∀ a b, f { s with lk := { s.lk with fences := a, peers := b } } = f s := by exact fun _ _ => rfl) : f t = f s := by
  rw [h]
  exact hf ..

/-- With no caravan live each rank of a list is fenced, and no engine has a part in it. -/
theorem foldl_fencePeer_of_none (l : List Nat) (hc : s.cl.caravans = []) : BesideFences s (l.foldl (fun st r => fencePeer r st) s) ∧
    ∀ q, (q ∈ l ∨ isFenced s q = true) → isFenced (l.foldl (fun st r => fencePeer r st) s) q = true := by
  induction l generalizing s with
  | nil => exact ⟨rfl, fun q hq => hq.resolve_left List.not_mem_nil⟩
  | cons r l ih =>
    rw [List.foldl_cons, fencePeer_of_none r hc]
    obtain ⟨h1, h2⟩ := ih (s := fenceSet r true Peer.fresh s) hc
    refine ⟨?_, fun q hq => h2 q ?_⟩
    · unfold BesideFences at *
      rw [h1]
      rfl
    · rw [isFenced_fenceSet]
      rcases hq with hq | hq
      · rcases List.mem_cons.1 hq with rfl | hq
        · exact .inr (if_pos rfl)
        · exact .inl hq
      · refine .inr ?_
        split
        · rfl
        · exact hq

/-- The ranks that a forced release fences (R330). -/
def forcedFences (p : Nat) (s : State) : State :=
  if (getPort s p).state = .active then
    ((allRanks s).filter fun r => orderDir s r == some (getPort s p).dir).foldl (fun st r => fencePeer r st) s
  else s

theorem forcedFences_of_none (hc : s.cl.caravans = []) : BesideFences s (forcedFences p s) ∧
    ((getPort s p).state = .active → ∀ r, r < 65536 → inTorus s r = true → orderDir s r = some (getPort s p).dir →
      isFenced (forcedFences p s) r = true) := by
  unfold forcedFences
  split
  next hs =>
    obtain ⟨h1, h2⟩ := foldl_fencePeer_of_none ((allRanks s).filter fun r => orderDir s r == some (getPort s p).dir) hc
    refine ⟨h1, fun _ r hr ht hd => h2 r (.inl ?_)⟩
    exact List.mem_filter.2 ⟨List.mem_filter.2 ⟨List.mem_range.2 hr, ht⟩, beq_iff_eq.2 hd⟩
  next hs => exact ⟨rfl, fun hy => absurd hy hs⟩

theorem portReleaseForce_releases (hs : TenPorts s) (hr : HostRuns s (.portReleaseForce h p) h 0x0804 1) (hc : s.cl.caravans = []) :
    Answers (.portReleaseForce h p) s fun t => (OnlyPort p s t ∧ Owed s t h 0x0804 ∧ ReleasedAs p (nextHandle s h.port) s t) ∧
      ((getPort s p).state = .active → ∀ r, r < 65536 → inTorus s r = true → orderDir s r = some (getPort s p).dir →
        isFenced t r = true) := by
  have hp : p < 10 := of_decide_eq_true (bodyOk_of_runs hr)
  obtain ⟨hb, hfenced⟩ := forcedFences_of_none (s := takenIn h 0x0804 s) (p := p) hc
  have hbeside := releasePort_beside p (nextHandle s h.port) (forcedFences p (takenIn h 0x0804 s))
  have hports : ∀ q, getPort (forcedFences p (takenIn h 0x0804 s)) q = getPort s q := fun q =>
    hb.keeps fun s => getPort s q
  have hl : p < (forcedFences p (takenIn h 0x0804 s)).lk.ports.length := by
    rw [hb.keeps fun s => s.lk.ports.length]
    exact hs.lt hp
  have hup : sentUp (forcedFences p (takenIn h 0x0804 s)) = sentUp s := hb.keeps sentUp
  obtain ⟨ht, ho⟩ := exec_of_owed (i := .portReleaseForce h p)
    (u := releasePort p (some (nextHandle s h.port)) false (forcedFences p (takenIn h 0x0804 s))) hr rfl (by decide) rfl rfl rfl
    ((hbeside.keeps State.cp).trans (hb.keeps State.cp))
  refine ⟨_, ht, ⟨fun q hq => ?_, ho, (releasePort_releases hl _).of_eq (hports p) hup⟩, fun ha r hr hin hd => ?_⟩
  · rw [(releasePort_actsOnPort p _ _).2 q hq, hports]
  · exact (hbeside.keeps fun s => isFenced s r).trans (hfenced ha r hr hin hd)

theorem portAdmit_admits (hs : TenPorts s) (hr : HostRuns s (.portAdmit h p) h 0x0805 1) : Answers (.portAdmit h p) s fun t =>
    OnlyPort p s t ∧ Completed s t h 0x0805 0 [] ∧ (getPort t p).state = .active := by
  have hp : p < 10 := of_decide_eq_true (bodyOk_of_runs hr)
  have hstate : (getPort s p).state = .active ∨ (getPort s p).state = .ready := by
    obtain ⟨-, -, -, -, -, hok, -⟩ := hr
    have hown : (if (getPort s p).state = .active || (getPort s p).state = .ready then 0 else 0x0400) = 0 := (ownCheck_of_refusal hok).2
    split at hown
    next hy => simpa using hy
    · exact absurd hown (by decide)
  have hcp : (if (getPort (takenIn h 0x0805 s) p).state = .ready then enterPort p .active (takenIn h 0x0805 s)
      else takenIn h 0x0805 s).cp = (takenIn h 0x0805 s).cp := by
    split
    · exact (enterPort_beside p .active _).keeps State.cp
    · rfl
  obtain ⟨t, ht, hc, hlk⟩ := exec_of_completed hr rfl (by decide) rfl rfl hcp rfl
  have hin := enterPort_enters p .active (takenIn h 0x0805 s)
  refine ⟨t, ht, fun q hq => ?_, hc, ?_⟩
  · rw [getPort_congr hlk]
    split
    · exact hin.acts.2 q hq
    · rfl
  · rw [getPort_congr hlk]
    split
    · exact hin.state (hs.lt hp)
    next hno => exact hstate.resolve_right hno

/-! ### Collectives -/

/-- A collective is handed to the data plane with its kind (R334, R421). -/
theorem collective_posts {i c : Instr} {d : CollDesc} (hr : HostRuns s c h 0x0301 0) (hlong : isLong c = false)
    (hrow : exec i s = hostRow h c s) (hown : ownCheck (takenIn h 0x0301 s) c = ownCheck (enroll h 0x0301 s) c)
    (hstart : carryOut (nextHandle s h.port) h.port c (takenIn h 0x0301 s) =
      postDown (takenIn h 0x0301 s) 4 (.collDesc (nextHandle s h.port) d)) :
    Answers i s fun t => Owed s t h 0x0301 ∧ t.cl = s.cl ∧ sentDown t = sentDown s ++ [.collDesc (nextHandle s h.port) d] := by
  obtain ⟨ht, ho⟩ := exec_of_owed hr hlong (by decide) hrow hown hstart rfl
  exact ⟨_, ht, ho, rfl, sentDown_postDown ..⟩

/-- Settles O30: each command's work on its port or its message, and what it still owes. -/
theorem portAndCollectiveCommandsAct : Obligations.PortAndCollectiveCommandsAct := by
  unfold Obligations.PortAndCollectiveCommandsAct
  refine ⟨fun s h p hs => ⟨portRelease_releases hs, portReleaseForce_releases hs, portAdmit_admits hs⟩, fun s h d => ?_⟩
  exact ⟨fun hr => collective_posts hr rfl rfl rfl rfl, fun hr => collective_posts hr rfl rfl rfl rfl,
    fun hr => collective_posts hr rfl rfl rfl rfl, fun hr => collective_posts hr rfl rfl rfl rfl,
    fun hr => collective_posts hr rfl rfl rfl rfl⟩

end Sys2Proof.Machine
end
